-- ==== Sys2Proof/Word.lean ====
section
/-! DEFINITION. The plain number types of the AK2160 (R18, R20): a byte, a Ceing
cell, a word and a doubleword. -/

namespace Sys2Proof

/-- A byte of Basin (R18). -/
abbrev Byte := BitVec 8
/-- The 16-bit unit of the Ceing chapters (R20). -/
abbrev Cell := BitVec 16
/-- A 32-bit word (R20). -/
abbrev Word := BitVec 32
/-- A 64-bit doubleword (R20), also the width of SYS_TICK (R153). -/
abbrev Dword := BitVec 64

end Sys2Proof
end

