-- ==== Sys2Proof/Syntax.lean ====
section
/-! DEFINITION. The commands of the block: the ONE inductive `Instr`, one constructor per
row of the table of operations and events, with the row's operands. An operand that the
part does not decide itself (what a pad, a flash, a partner or a regulator answers) is
part of the command (log entry 1). -/

namespace Sys2Proof

/-- An agent ID (R30). -/
abbrev Agent := Fin 16
/-- A byte address of Basin (R201). -/
abbrev BasinAddr := Fin 67108864

/-- A command message as the Lockkeeper reads it (R154): tag, flags and payload words;
the opcode is that of the row and COUNT is the number of payload words. -/
structure Msg where
  tag : BitVec 8
  flags : BitVec 12
  words : List Word
  /-- The firmware faults while it executes the command (R186). -/
  fault : Bool := false
  deriving DecidableEq, Repr

/-- What the boot ROM finds in the flash's SFDP table (R93). -/
structure Sfdp where
  ok : Bool
  addr4 : Bool
  /-- READ_LANES: 0 one, 1 two, 2 four. -/
  lanes : Fin 3
  deriving DecidableEq, Repr

/-- What the boot ROM's reads of a slot meet: whether those of the header and of the payload
complete (R81, R86), and the doubleword of the payload's copy in Basin, if any, that an
uncorrectable error hits (R87; "What if an uncorrectable Basin error hits the image during
boot?"). -/
structure SlotReads where
  header : Bool
  payload : Bool
  hit : Option (Fin 65536)
  deriving DecidableEq, Repr

/-- A configuration write that this specification gives an effect (R139 to R143). -/
inductive CfgWrite where
  | command (busMaster : Bool)
  | msixControl (enable functionMask : Bool)
  | power (d3hot : Bool)
  | bar0 (base : Dword)
  | bar2 (base : Dword)
  | completionTimeout (setting : BitVec 4)
  | aerClear
  deriving DecidableEq, Repr

/-- A frame as a lane's receiver delivers it (R473, R474): its bytes from the destination address to
the last byte of the FCS, how many error blocks stood inside it, and whether a valid terminate block
ended it. -/
structure RxFrame where
  bytes : List Byte
  errBlocks : Nat := 0
  ended : Bool := true
  deriving DecidableEq, Repr

/-- What the receiver says of a frame beside its bytes: the error blocks, and whether a valid
terminate block ended it (R473, R474). -/
structure RxEnd where
  errBlocks : Nat := 0
  ended : Bool := true
  deriving DecidableEq, Repr

/-- A request that waits in a crossing (R244, R245): the agent that made it, and the island it came
from. -/
structure Waiter where
  agent : Agent
  island : Fin 16
  deriving DecidableEq, Repr

/-- What host memory and the link answer to a burst (R673, R690, R696): the data of a read,
a completion with the EP bit, or no successful completion. A write that the endpoint
accepts takes `data` with no bytes. -/
inductive HostCpl where
  | data (b : List Byte)
  | ep
  | failed
  deriving DecidableEq, Repr

/-- The sizes of a data access (R554). -/
inductive Size where
  | byte | cell | pair
  deriving DecidableEq, Repr

/-- An instruction that makes a data or port access: formats L, O and X (R613, R614, R616).
A pair is named by its index; `x` is the displacement of operand f, `y` that of operand g. -/
inductive Access where
  | ldB (rd : Fin 16) (b : Fin 8) (x : Cell)
  | ldSb (rd : Fin 16) (b : Fin 8) (x : Cell)
  | ld (rd : Fin 16) (b : Fin 8) (x : Cell)
  | ldP (k b : Fin 8) (x : Cell)
  | stB (rs : Fin 16) (b : Fin 8) (x : Cell)
  | st (rs : Fin 16) (b : Fin 8) (x : Cell)
  | stP (k b : Fin 8) (x : Cell)
  | inCell (rd : Fin 16) (p : Fin 4) (x : Cell)
  | inPair (k : Fin 8) (p : Fin 4) (x : Cell)
  | outCell (rs : Fin 16) (p : Fin 4) (x : Cell)
  | outPair (k : Fin 8) (p : Fin 4) (x : Cell)
  | mvm (size : Size) (f g : Fin 8) (x y : Cell)
  | inm (pair : Bool) (f : Fin 8) (p : Fin 4) (x y : Cell)
  | outm (pair : Bool) (f : Fin 8) (p : Fin 4) (x y : Cell)
  deriving DecidableEq, Repr

/-- The commands: one constructor per row of the table of operations and events. -/
inductive Instr where
  /-- POWER_ON_RESET (R762): Supply monitors see all monitored rails valid, or one fall below
    its threshold for more than 1 µs, and power-on reset asserts and later releases. -/
  | powerOnReset
  /-- SYSTEM_REFERENCE_LOSS (R766): The 25 MHz system reference makes no edge for 2 µs and
    power-on reset is held until it runs again. -/
  | systemReferenceLoss
  /-- RST_N_RESET (R76): RST_N is held low for at least 1 µs and a device-level reset follows,
    released 2 ms after RST_N rises. -/
  | rstNReset
  /-- JTAG_SYSRESET (R76): The TAP instruction SYSRESET causes a device-level reset. -/
  | jtagSysreset
  /-- TAP_RESET (R123): A TAP reset resets the debug agent, with its mailbox, lock and Weir
    consequences. -/
  | tapReset
  /-- PERST (R800): PERST# resets island HI and the host agent without a fence, emptying the
    host's receive queues and freeing its locks. -/
  | perst
  /-- RESET_RELEASE (R78): After release of a device-level reset the boot ROM runs its stages:
    PLL lock, Basin initialisation, strap, SFDP, slot verification and firmware start, or
    RECOVER. -/
  | resetRelease (basinOk strapLow : Bool) (sfdp : Sfdp) (readA readB : SlotReads)
  /-- FIRMWARE_COMMISSION_REACHED (R83): The firmware reaches COMMISSION, clears its own slot's
    TRIED bit and enqueues BOOT_FALLBACK if the other slot's bit is set. -/
  | firmwareCommissionReached
  /-- LK_WATCHDOG_EXPIRY (R71): The 1 s Lockkeeper watchdog expires and causes a device-level
    reset before COMMISSION or a warm restart after it. -/
  | lkWatchdogExpiry
  /-- LK_WDT_KICK (R791): A write to LK_WDT_KICK restarts the 1 s watchdog timeout while it is
    armed. -/
  | lkWdtKick (agent : Agent)
  /-- WARM_RESTART_RESUME (R73): After reloading and reverifying its slot, the firmware
    completes interrupted commands, resumes the recorded mode and writes SYS_MODE and
    MODE_CHANGED. -/
  | warmRestartResume (reads : SlotReads) (modeOk : Bool)
  /-- CYCLE_BOUNDARY (R495): At each Towline cycle boundary the device sends downstream CYCLE
    frames, forms output writes and applies due mode changes and boundary-latched changes. -/
  | cycleBoundary
  /-- HOST_WATCHDOG_EXPIRY (R64): The host watchdog period runs out and, in RUN, DEGRADED or
    WASH, the device moves to HOLD and cancels any SET_MODE in progress. -/
  | hostWatchdogExpiry
  /-- MB_TX_DATA (R102): A write to MB_TX_DATA enqueues one word with EOM 0, subject to stamp
    clash, overflow and discard-set rules. -/
  | mbTxData (agent : Agent) (mb : Fin 24) (sideB aligned : Bool) (value : Word)
  /-- MB_TX_DATA_ALIAS (R103): One write covering the burst aliases enqueues its words in
    ascending address order. -/
  | mbTxDataAlias (agent : Agent) (mb : Fin 24) (sideB : Bool) (first : Fin 8) (words : List Word)
  /-- MB_TX_DOORBELL (R102): A write to MB_TX_DOORBELL enqueues a word with EOM 1, commits the
    message and sets RX_MSG on the receiving side. -/
  | mbTxDoorbell (agent : Agent) (mb : Fin 24) (sideB aligned : Bool) (value : Word)
  /-- MB_RX_DATA (R106): A read of MB_RX_DATA returns and removes the oldest committed word, or
    underflows when none is queued. -/
  | mbRxData (agent : Agent) (mb : Fin 24) (sideB aligned : Bool)
  /-- MB_LOCK_READ (R112): A read of MB_LOCK takes a free lock for the reader or returns the
    owner's agent ID. -/
  | mbLockRead (agent : Agent) (mb : Fin 24) (aligned : Bool)
  /-- MB_LOCK_WRITE (R113): A write to MB_LOCK by the owner or debug frees the lock. -/
  | mbLockWrite (agent : Agent) (mb : Fin 24) (aligned : Bool)
  /-- MB_IRQ_EN_WRITE (R110): A write to MB_IRQ_EN sets the enables and sends an MSI-X message
    when it enables a bit already set on the host side. -/
  | mbIrqEnWrite (agent : Agent) (mb : Fin 24) (sideB aligned : Bool) (value : Word)
  /-- HOST_BAR2_WRITE (R131): A host memory write to BAR2 is checked against the guard table
    and performed in Basin, or dropped with MB_WIN_STATUS and WINDOW_ERROR. -/
  | hostBar2Write (addr : BasinAddr) (data : List Byte) (ep bar0 : Bool)
  /-- HOST_BAR2_READ (R131): A host memory read of BAR2 returns Basin data, zeros for a denied
    page, or EP with zeros for poison or a fenced bank. -/
  | hostBar2Read (addr : BasinAddr) (len : Nat)
  /-- PCIE_CONFIG_WRITE (R142): A configuration write changes enables, masks or power state,
    and held MSI-X messages whose conditions now hold are sent. -/
  | pcieConfigWrite (w : CfgWrite)
  /-- UNDEFINED_OPCODE (R163): A command message with an undefined opcode or a wrong payload
    count is answered BAD_ARG and not recorded. -/
  | undefinedOpcode (mb : Fin 8) (header : Word) (words : List Word)
  /-- IDENTIFY (R189): IDENTIFY replies with firmware version, SYS_ID, mode and slot, and
    clears the mailbox's duplicate window if CLEAR_WINDOW is set. -/
  | identify (mb : Fin 8) (msg : Msg)
  /-- STATUS (R189): STATUS replies with fenced islands, mode and free resource counts. -/
  | statusCommand (mb : Fin 8) (msg : Msg)
  /-- QUERY (R806): QUERY replies with the state and type-specific words of the object its
    handle names. -/
  | queryCommand (mb : Fin 8) (msg : Msg)
  /-- NOP (R189): NOP has no effect beyond restarting the host watchdog. -/
  | nopCommand (mb : Fin 8) (msg : Msg)
  /-- SET_MODE (R190): SET_MODE requests a mode change at the next cycle boundary and waits for
    it before replying. -/
  | setMode (mb : Fin 8) (msg : Msg)
  /-- SET_WATCHDOG (R191): SET_WATCHDOG sets the host watchdog period and starts it afresh. -/
  | setWatchdog (mb : Fin 8) (msg : Msg)
  /-- BASIN_ALLOC (R192): BASIN_ALLOC allocates and zeroes a contiguous user block and sets its
    guard bits. -/
  | basinAlloc (mb : Fin 8) (msg : Msg)
  /-- BASIN_FREE (R192): BASIN_FREE clears a user block's guard bits and frees it unless a live
    object names it. -/
  | basinFree (mb : Fin 8) (msg : Msg)
  /-- CREATE_MOORING (R192): CREATE_MOORING zeroes a control block and creates a mooring,
    writing held device records first when it becomes the device mooring. -/
  | createMooring (mb : Fin 8) (msg : Msg)
  /-- CREATE_SCENE (R192): CREATE_SCENE admits and places a scene, loads its registers from the
    scene block and starts its beam at the next boundary. -/
  | createScene (mb : Fin 8) (msg : Msg)
  /-- BIND_STATION (R193): BIND_STATION binds an address to a scene, creates process images and
    starts exchange at the next boundary with the safe image. -/
  | bindStation (mb : Fin 8) (msg : Msg)
  /-- REBIND_STATION (R192): REBIND_STATION accepts a scene or address change and waits for the
    frame start or cycle boundary that applies it. -/
  | rebindStation (mb : Fin 8) (msg : Msg)
  /-- REBIND_STATION_COMPLETE (R192): Once every part of a waiting REBIND_STATION has taken
    effect, or a needed island is fenced, the command replies. -/
  | rebindStationComplete (mb : Fin 8)
  /-- CREATE_VOICE (R192): CREATE_VOICE creates a silent voice of the given kind. -/
  | createVoice (mb : Fin 8) (msg : Msg)
  /-- CREATE_MIX (R192): CREATE_MIX creates a station mix or a local-port slot mix. -/
  | createMix (mb : Fin 8) (msg : Msg)
  /-- ROUTE_VOICE (R192): ROUTE_VOICE queues a route change that ramps in at the next block
    boundary. -/
  | routeVoice (mb : Fin 8) (msg : Msg)
  /-- OPEN_CHANNEL (R192): OPEN_CHANNEL opens a Sluice channel in EMPTY and returns its DMA
    handle. -/
  | openChannel (mb : Fin 8) (msg : Msg)
  /-- CREATE_FENCE (R192): CREATE_FENCE creates an unsignalled fence object. -/
  | createFence (mb : Fin 8) (msg : Msg)
  /-- CREATE_SCRIPT (R192): CREATE_SCRIPT creates a stopped task on a Deckhand. -/
  | createScript (mb : Fin 8) (msg : Msg)
  /-- SCRIPT_CONTROL (R587): SCRIPT_CONTROL starts a task from its entry point or stops it at
    its next yield. -/
  | scriptControl (mb : Fin 8) (msg : Msg)
  /-- SET_CYCLE (R192): SET_CYCLE sets the cycle period while no lane is enabled. -/
  | setCycle (mb : Fin 8) (msg : Msg)
  /-- LANE_CONFIG (R192): LANE_CONFIG enables or disables a lane, incrementing its session on
    enable. -/
  | laneConfig (mb : Fin 8) (msg : Msg)
  /-- SET_LOOP_POLICY (R283): SET_LOOP_POLICY sets or removes a voltage cap, frequency floor,
    equaliser freeze, dropout bounds or scene pin. -/
  | setLoopPolicy (mb : Fin 8) (msg : Msg)
  /-- PANEL_CONFIG (R427): PANEL_CONFIG makes the local pit panel a clone of a scene and starts
    its start-up sequence, or turns it off. -/
  | panelConfig (mb : Fin 8) (msg : Msg)
  /-- AUDIO_PORT_CONFIG (R462): AUDIO_PORT_CONFIG configures a local I2S or TDM port. -/
  | audioPortConfig (mb : Fin 8) (msg : Msg)
  /-- DESTROY (R194): DESTROY removes the named object and increments its index's generation.
    -/
  | destroyObject (mb : Fin 8) (msg : Msg)
  /-- LOAD_TILES (R340): LOAD_TILES copies tiles into fresh pages of a bank and swaps them in
    at its reply. -/
  | loadTiles (mb : Fin 8) (msg : Msg)
  /-- LOAD_SAMPLES (R195): LOAD_SAMPLES replaces a keyed-off sample voice's data. -/
  | loadSamples (mb : Fin 8) (msg : Msg)
  /-- LOAD_SCRIPT (R196): LOAD_SCRIPT copies code into a Deckhand's instruction RAM and the
    firmware's copy, or the copy alone while the island is fenced. -/
  | loadScript (mb : Fin 8) (msg : Msg)
  /-- LOAD_DEFAULTS (R195): LOAD_DEFAULTS loads a station's safe image, wash mask and
    post-blend LUT and assigns a new CONFIG_ID. -/
  | loadDefaults (mb : Fin 8) (msg : Msg)
  /-- FORCE_OUTPUT (R197): FORCE_OUTPUT forces station output bits from the next boundary in
    SERVICE. -/
  | forceOutput (mb : Fin 8) (msg : Msg)
  /-- LANE_TEST (R197): LANE_TEST runs or stops a test pattern on a lane with no bound
    stations. -/
  | laneTest (mb : Fin 8) (msg : Msg)
  /-- DIAG_READ (R197): DIAG_READ reads up to six fabric words with agent ID 2 and returns
    them. -/
  | diagRead (mb : Fin 8) (msg : Msg)
  /-- IMAGE_WRITE (R198): IMAGE_WRITE verifies an image and writes it to the permitted slot,
    clearing that slot's TRIED bit. -/
  | imageWrite (mb : Fin 8) (msg : Msg) (flashOk readA readB : Bool)
  /-- IMAGE_CONFIRM (R198): IMAGE_CONFIRM reads and verifies a slot without starting it. -/
  | imageConfirm (mb : Fin 8) (msg : Msg) (readOk : Bool)
  /-- ROLLBACK_ADVANCE (R198): ROLLBACK_ADVANCE raises the OTP rollback counter. -/
  | rollbackAdvance (mb : Fin 8) (msg : Msg)
  /-- KEY_REVOKE (R198): KEY_REVOKE sets an OTP key revocation bit. -/
  | keyRevoke (mb : Fin 8) (msg : Msg)
  /-- RESET (R199): RESET starts a device-level reset, or an island reset in SERVICE that
    replies after release. -/
  | resetCommand (mb : Fin 8) (msg : Msg)
  /-- EVENT_RECORD_DELIVERY (R176): The firmware moves a staged event record into its mooring,
    handling full rings, OVERFLOW, held records and the MSI-X vector. -/
  | eventRecordDelivery
  /-- BASIN_READ_REQUEST (R205): A Basin read request is classified per doubleword and returns
    data, corrected data or an error completion, setting poison on uncorrectable data. -/
  | basinReadRequest (agent : Agent) (addr : BasinAddr) (len : Nat)
  /-- BASIN_WRITE_REQUEST (R205): A Basin write request performs full and partial doubleword
    writes by class, refusing partial writes onto bad data. -/
  | basinWriteRequest (agent : Agent) (addr : BasinAddr) (data : List Byte)
  /-- SCRUB_READ (R211): Every 4.5 µs a bank's patrol scrubber reads its next doubleword,
    correcting or poisoning it. -/
  | scrubRead (bank : Fin 4)
  /-- WEIR_CAS (R215): A write to WR_CAS_GO with OP 0 starts a compare-and-swap on the
    context's operands. -/
  | weirCas (agent : Agent)
  /-- WEIR_SWAP (R216): A write to WR_CAS_GO with OP 1 starts a swap that stores NEW and may
    clear poison. -/
  | weirSwap (agent : Agent)
  /-- WEIR_OPERATION_DONE (R218): A Weir operation completes in its bank and sets OLD and
    WR_CAS_STATUS. -/
  | weirOperationDone (agent : Agent)
  /-- LOCK_CELL_READ (R220): A read of WR_LOCK(n) takes a free or reserved cell or enrols the
    reader as a waiter. -/
  | lockCellRead (agent : Agent) (cell : Fin 1024)
  /-- LOCK_CELL_WRITE (R223): A write to WR_LOCK(n) by the owner or debug releases the cell to
    free or to a reserved waiter. -/
  | lockCellWrite (agent : Agent) (cell : Fin 1024)
  /-- RESERVATION_LAPSE (R225): A reservation not taken within 2 µs passes to the next waiter
    or frees the cell. -/
  | reservationLapse (cell : Fin 1024)
  /-- WAITER_LAPSE (R221): A waiter that has not polled for 4 µs leaves the cell's waiting set.
    -/
  | waiterLapse (agent : Agent) (cell : Fin 1024)
  /-- CROSSING_TIMEOUT (R245): A request waiting 20 µs in a crossing fences the target island
    with cause CROSSING_TIMEOUT. -/
  | crossingTimeout (issuer : Waiter) (target : Fin 16)
  /-- STATE_PARITY (R246): Parity on an island's control state fails and the island is fenced.
    -/
  | stateParity (island : Fin 16)
  /-- PLL_UNLOCK (R246): An island's clock generator stays out of lock for more than 1 µs and
    the island is fenced. -/
  | pllUnlock (island : Fin 16)
  /-- MARGIN_LOST (R246): A timing monitor reports negative margin at the stretch limit and the
    island is fenced. -/
  | marginLost (island : Fin 16)
  /-- DEADMAN (R246): A deck kernel heartbeat older than 10 ms, or an engine sequencer stalled
    1 ms, fences the island. -/
  | deadman (island : Fin 16)
  /-- JTAG_FENCE (R246): A JTAG fence instruction fences an island with cause DEBUG. -/
  | jtagFence (island : Fin 16)
  /-- JTAG_FENCE_RELEASE (R797): JTAG releases a DEBUG fence, which ends without a reset. -/
  | jtagFenceRelease (island : Fin 16)
  /-- IS_CONTROL_FENCE (R284): A write of IS_CONTROL.FENCE fences the island with cause
    COMMAND. -/
  | isControlFence (agent : Agent) (island : Fin 16)
  /-- IS_CONTROL_RESET (R251): A write of IS_CONTROL.RESET asserts a fenced island's reset for
    256 reference cycles and relocks its clock. -/
  | isControlReset (agent : Agent) (island : Fin 16)
  /-- ISLAND_RESET_DONE (R253): When an island's reset ends, the firmware restores its state
    from Basin. -/
  | islandResetDone (island : Fin 16)
  /-- IS_CONTROL_RELEASE (R254): A write of IS_CONTROL.RELEASE releases the fence, increments
    the epoch and writes EPOCH markers. -/
  | isControlRelease (agent : Agent) (island : Fin 16)
  /-- DROOP_DETECTED (R264): A supply droop of 30 mV or more doubles the island's clock period
    within 2 ns. -/
  | droopDetected (island : Fin 16) (depthMv : BitVec 8)
  /-- STRETCH_END (R264): After 64 nominal cycles within 20 mV of the setpoint the clock
    stretch ends. -/
  | stretchEnd (island : Fin 16)
  /-- STRETCH_LONG (R267): A stretch held 1 ms without a break raises LOOP_WARNING
    STRETCH_LONG. -/
  | stretchLong (island : Fin 16)
  /-- VOLTAGE_LOOP_STEP (R269): The voltage loop raises or lowers a rail by 5 mV according to
    island margins. -/
  | voltageLoopStep (rail : Fin 2) (margins : List Int) (settled : Bool) (needMv : Nat)
  /-- FREQUENCY_LOOP_STEP (R271): The frequency loop lowers or raises an island's k after its
    margin condition persists. -/
  | frequencyLoopStep (island : Fin 16) (margin : Int) (held : Bool)
  /-- TEMP_HIGH (R282): An island above 150 °C raises LOOP_WARNING TEMP_HIGH and is driven to k
    = 8. -/
  | tempHigh (island : Fin 16) (temp : BitVec 11)
  /-- THERM_N (R774): THERM_N asserts when any island reaches 145 °C and releases once all read
    below 140 °C. -/
  | thermN (island : Fin 16) (temp : BitVec 11)
  /-- DROPOUT_THRESHOLD_LOWER (R274): After 10,000 cycles without a miss a station's dropout
    threshold is lowered by one cycle. -/
  | dropoutThresholdLower (station : Fin 2048)
  /-- RASTER_WRITE (R294): A write to a line-effective register gets its effect line and rolls
    back rendered lines at or after it. -/
  | rasterWrite (agent : Agent) (scene : Fin 2048) (reg : Fin 256) (value : Word)
  /-- TP_SC_REDRAW (R303): A write to TP_SC_REDRAW is a raster write that changes no register
    and rolls the scene back. -/
  | tpScRedraw (agent : Agent) (scene : Fin 2048)
  /-- LINE_RENDER (R306): A pipe finishes rendering the eligible line with the earliest commit
    tick. -/
  | lineRender (pipe : Fin 8)
  /-- FRAME_START (R301): At a scene's frame start pending frame-latched changes and flips
    latch at line 0. -/
  | frameStart (scene : Fin 2048)
  /-- LINE_COMMIT (R308): At a line's commit tick the line commits, or underruns if not
    rendered. -/
  | lineCommit (scene : Fin 2048)
  /-- SOB (R311): At the start of blanking SOB is raised, registers are written to the scene
    block, flip fences are signalled and placement moves take effect. -/
  | sob (scene : Fin 2048)
  /-- LINE_MATCH (R311): An enabled comparator fires at the start tick of its line and raises
    LM. -/
  | lineMatch (scene : Fin 2048) (comp : Fin 4)
  /-- TP_EVQ (R332): A read of TP_EVQ returns and removes the Deckhand's oldest TP event entry.
    -/
  | tpEvq (agent : Agent)
  /-- BALANCER_STEP (R319): Every 10 ms the balancer may schedule one unpinned scene to move
    between pipes. -/
  | balancerStep (busy : List Nat) (load : List (Nat × Nat))
  /-- TP_SC_FLIP (R364): A write to TP_SC_FLIP copies every shadow and the fence into a pending
    frame-latched flip. -/
  | tpScFlip (agent : Agent) (scene : Fin 2048)
  /-- BLIT_POLL (R385): At least every 10 µs the blitter reads PROD of every BLIT mooring for
    new entries. -/
  | blitPoll
  /-- TP_BLT_KICK (R385): A write to TP_BLT_KICK makes the blitter check the named BLIT mooring
    at once. -/
  | tpBltKick (agent : Agent) (mooring : Fin 16384)
  /-- BLIT_START (R386): The blitter takes an entry, checks and reads its descriptor and page
    map, or consumes an EPOCH marker. -/
  | blitStart
  /-- BLIT_COMPLETE (R393): A blit ends, writes STATUS, advances CONS and signals its fence. -/
  | blitComplete
  /-- FRAME_TRANSMIT (R515): A lane sends its next downstream frame in class order: CONFIG,
    OUT, AUDIO, REGION, DIAG. -/
  | frameTransmit (lane : Fin 8)
  /-- PIECE_ACK_TIMEOUT (R421): A piece unacknowledged by the end of the fourth cycle after
    sending is lost and its patches are owed again. -/
  | pieceAckTimeout (station : Fin 2048)
  /-- TP_ST_REFRESH (R424): A write to TP_ST_REFRESH sets all owed bits of a station for a full
    push. -/
  | tpStRefresh (agent : Agent) (station : Fin 2048)
  /-- TP_PNL_REFRESH (R424): A write to TP_PNL_REFRESH sets all owed bits of the pit panel. -/
  | tpPnlRefresh (agent : Agent)
  /-- PANEL_INIT_WAIT (R427): 120 ms after exit_sleep_mode the panel start-up continues with
    pixel format, tear and display on. -/
  | panelInitWait
  /-- TE_EDGE (R428): A rising edge on TE_PIN releases the first piece of a waiting panel
    region list. -/
  | teEdge
  /-- TE_TIMEOUT (R428): With no TE edge within 100 ms the panel writing proceeds and TE_MISS
    is set. -/
  | teTimeout
  /-- SAMPLE_TICK (R448): At each 16 kHz sample Chervil applies voice writes, advances
    generators and envelopes and computes mixes. -/
  | sampleTick
  /-- BLOCK_BOUNDARY (R454): At a block boundary pending route, parent, gain and mode changes
    begin their 16-sample ramps. -/
  | blockBoundary
  /-- BLOCK_AVAILABLE (R456): At E(k) each mix's block k is made available, or marked overrun
    if incomplete. -/
  | blockAvailable (late : List Nat)
  /-- KEY_ON (R449): A CV_V_KEY write with OP 1 enters ATTACK and resets phase, LFSR and
    position. -/
  | keyOn (agent : Agent) (voice : Fin 512) (keepPhase : Bool)
  /-- KEY_OFF (R449): A CV_V_KEY write with OP 2 enters RELEASE from the present level. -/
  | keyOff (agent : Agent) (voice : Fin 512)
  /-- MODULE_INSERTED (R477): SFPn_MOD_ABS stays low 100 ms and a module read is scheduled 300
    ms later. -/
  | moduleInserted (lane : Fin 8)
  /-- MODULE_READ (R476): The firmware reads a module's identification, classifies its kind and
    loads the equaliser preset. -/
  | moduleRead (lane : Fin 8) (page : Option (List Byte))
  /-- MODULE_REMOVED (R479): SFPn_MOD_ABS rises and the lane enters NO_MODULE. -/
  | moduleRemoved (lane : Fin 8)
  /-- RX_LOS_CHANGE (R479): SFPn_RX_LOS changes and the lane enters or leaves NO_SIGNAL. -/
  | rxLosChange (lane : Fin 8) (los : Bool)
  /-- TX_FAULT (R511): SFPn_TX_FAULT high for 1 ms puts the lane into TX_FAULT. -/
  | txFault (lane : Fin 8)
  /-- TX_FAULT_PULSE (R511): Once per second the firmware pulses SFPn_TX_DIS for 10 ms to clear
    a transmitter fault. -/
  | txFaultPulse (lane : Fin 8)
  /-- DDM_POLL (R478): Once per second the firmware reads a module's diagnostics and sets alarm
    bits. -/
  | ddmPoll (lane : Fin 8) (page : Option (List Byte))
  /-- EQ_ADAPT_STEP (R482): Every 10 µs an unfrozen locked lane adapts CTLE and DFE taps by one
    code at most. -/
  | eqAdaptStep (lane : Fin 8) (ctle : Int) (taps : List Int)
  /-- TX_POST_TRIAL (R483): Every 100 ms an aligned unfrozen lane tries POST one code up or
    down and keeps it only if the partner eye improves. -/
  | txPostTrial (lane : Fin 8)
  /-- EYE_MEASURE (R484): Each 1 ms the lane measures EYE and raises EQ_DEGRADED under its
    hysteresis. -/
  | eyeMeasure (lane : Fin 8) (eye : Byte)
  /-- TAP_SAVE (R486): Once per second the firmware saves each unfrozen lane's taps to Basin.
    -/
  | tapSave
  /-- BLOCK_LOCK_GAINED (R487): After 64 consecutive valid sync headers the lane gains block
    lock. -/
  | blockLockGained (lane : Fin 8)
  /-- BLOCK_LOCK_LOST (R487): After 16 invalid sync headers in 64 the lane loses block lock and
    alignment. -/
  | blockLockLost (lane : Fin 8)
  /-- HI_BER_WINDOW (R487): At the end of each 125 µs window hi_ber is set or cleared by the
    count of invalid headers. -/
  | hiBerWindow (lane : Fin 8) (invalid : Nat)
  /-- RX_FRAME_DROP (R474): A received frame failing FCS, length, address, EtherType or header
    checks is dropped and counted. -/
  | rxFrameDrop (lane : Fin 8) (f : RxFrame)
  /-- UPSTREAM_CYCLE (R503): A recognised upstream CYCLE frame counts as a hit toward alignment
    or checks an aligned lane's window. -/
  | upstreamCycle (lane : Fin 8) (bytes : List Byte) (errBlocks : Nat) (ended : Bool)
  /-- ALIGNMENT_LOSS (R504): No recognised upstream CYCLE from two consecutive cycles loses
    alignment. -/
  | alignmentLoss (lane : Fin 8)
  /-- IN_FRAME (R517): An IN frame is judged fresh or not for its cycle and acknowledges output
    writes. -/
  | inFrame (lane : Fin 8) (bytes : List Byte) (fin : RxEnd)
  /-- ACK_FRAME (R524): An ACK frame acknowledges output writes, a CONFIG_ID and REGION pieces.
    -/
  | ackFrame (lane : Fin 8) (bytes : List Byte) (fin : RxEnd)
  /-- DIAG_FRAME (R546): An upstream DIAG frame is counted and echo replies are acted on. -/
  | diagFrame (lane : Fin 8) (bytes : List Byte) (fin : RxEnd)
  /-- INPUT_CUT (R518): At D(N) Towline finalises every station's input, updates station states
    and raises the cut on every Deckhand. -/
  | inputCut
  /-- DH_TIMER_MATCH (R597): SYS_TICK equals DH_TIMER.MATCH and private source 4 fires. -/
  | dhTimerMatch (core : Fin 8)
  /-- LK_TIMER_MATCH (R790): LK_TIMER matches and Lockkeeper private source 20 fires. -/
  | lkTimerMatch
  /-- DH_HEART (R589): A write to DH_HEART refreshes the Deckhand's heartbeat. -/
  | dhHeart (agent : Agent) (core : Fin 8)
  /-- SYS_TICK_LO (R153): A read of SYS_TICK_LO returns the low word and latches the high word
    for the reading agent. -/
  | sysTickLo (agent : Agent)
  /-- INTERRUPT_ENTRY (R569): With IE 1 and a request presented, the core saves state and jumps
    to DH_VBASE at an instruction or iteration boundary. -/
  | interruptEntry (core : Fin 8)
  /-- STORE_ERROR (R567): An error completion of an earlier store arrives and raises DATA_ERR
    with STORE set at the next boundary. -/
  | storeError (core : Fin 8)
  /-- ILLEGAL_ENCODING (R629): An undefined encoding raises ILLEGAL. -/
  | illegalEncoding (core : Fin 8) (cells : List Cell)
  /-- NOP_INSTR (R606): nop does nothing. -/
  | nopInstr (core : Fin 8)
  /-- SYNC (R606): sync waits until every store the core issued has completed. -/
  | sync (core : Fin 8)
  /-- RETI (R570): reti restores PC, flags, IE and LEVEL from DH_EPC and DH_ESTAT. -/
  | reti (core : Fin 8)
  /-- WFI (R608): wfi waits for an interrupt request. -/
  | wfi (core : Fin 8)
  /-- CLI (R606): cli clears IE. -/
  | cli (core : Fin 8)
  /-- STI (R606): sti sets IE. -/
  | sti (core : Fin 8)
  /-- SYS (R607): sys n enters the kernel at DH_VBASE + 0x20 with n in DH_EADDR. -/
  | sysCall (core : Fin 8) (k : Fin 64)
  /-- REP (R577): rep repeats the next access instruction count times with stride 0,
    interruptible between iterations. -/
  | repInstr (core : Fin 8) (dc : Fin 16) (acc : Access) (stop : Option Nat)
  /-- REPS (R578): reps repeats the next access instruction up to 32 times with stride 0
    without interruption. -/
  | reps (core : Fin 8) (dc : Fin 16) (acc : Access)
  /-- REP_I (R577): rep.i repeats with port stride 1, interruptible between iterations. -/
  | repI (core : Fin 8) (dc : Fin 16) (acc : Access) (stop : Option Nat)
  /-- REPS_I (R578): reps.i repeats with port stride 1 without interruption. -/
  | repsI (core : Fin 8) (dc : Fin 16) (acc : Access)
  /-- GETF (R606): getf copies the flags into a register. -/
  | getf (core : Fin 8) (rd : Fin 16)
  /-- SETF (R606): setf sets the flags from a register. -/
  | setf (core : Fin 8) (rs : Fin 16)
  /-- JR (R606): jr jumps to the cell in a register. -/
  | jr (core : Fin 8) (rs : Fin 16)
  /-- CALLR (R606): callr saves the return cell in d15 and jumps to a register. -/
  | callr (core : Fin 8) (rs : Fin 16)
  /-- ADR (R606): adr loads a PC-relative cell address. -/
  | adr (core : Fin 8) (rd : Fin 16) (rel : Cell)
  /-- MOV (R609): mov copies a register. -/
  | movReg (core : Fin 8) (rd rs : Fin 16)
  /-- ADD (R609): add adds a register. -/
  | addReg (core : Fin 8) (rd rs : Fin 16)
  /-- ADC (R609): adc adds a register with carry. -/
  | adcReg (core : Fin 8) (rd rs : Fin 16)
  /-- SUB (R609): sub subtracts a register. -/
  | subReg (core : Fin 8) (rd rs : Fin 16)
  /-- SBC (R609): sbc subtracts a register with borrow. -/
  | sbcReg (core : Fin 8) (rd rs : Fin 16)
  /-- AND (R609): and combines two registers bitwise. -/
  | andReg (core : Fin 8) (rd rs : Fin 16)
  /-- OR (R609): or combines two registers bitwise. -/
  | orReg (core : Fin 8) (rd rs : Fin 16)
  /-- XOR (R609): xor combines two registers bitwise. -/
  | xorReg (core : Fin 8) (rd rs : Fin 16)
  /-- CMP (R609): cmp compares two registers and sets flags. -/
  | cmpReg (core : Fin 8) (rd rs : Fin 16)
  /-- TST (R609): tst tests bits of two registers. -/
  | tstReg (core : Fin 8) (rd rs : Fin 16)
  /-- MOVI (R609): movi loads an immediate. -/
  | movi (core : Fin 8) (rd : Fin 16) (x : Cell)
  /-- ADDI (R609): addi adds an immediate. -/
  | addi (core : Fin 8) (rd : Fin 16) (x : Cell)
  /-- SUBI (R609): subi subtracts an immediate. -/
  | subi (core : Fin 8) (rd : Fin 16) (x : Cell)
  /-- ANDI (R609): andi ands an immediate. -/
  | andi (core : Fin 8) (rd : Fin 16) (x : Cell)
  /-- ORI (R609): ori ors an immediate. -/
  | ori (core : Fin 8) (rd : Fin 16) (x : Cell)
  /-- XORI (R609): xori exclusive-ors an immediate. -/
  | xori (core : Fin 8) (rd : Fin 16) (x : Cell)
  /-- CMPI (R609): cmpi compares with an immediate. -/
  | cmpi (core : Fin 8) (rd : Fin 16) (x : Cell)
  /-- TSTI (R609): tsti tests bits against an immediate. -/
  | tsti (core : Fin 8) (rd : Fin 16) (x : Cell)
  /-- SHL (R610): shl shifts left by an immediate count. -/
  | shl (core : Fin 8) (rd k : Fin 16)
  /-- SHR (R610): shr shifts right with zero fill by an immediate count. -/
  | shr (core : Fin 8) (rd k : Fin 16)
  /-- SAR (R610): sar shifts right with sign fill by an immediate count. -/
  | sar (core : Fin 8) (rd k : Fin 16)
  /-- ROL (R610): rol rotates left by an immediate count. -/
  | rol (core : Fin 8) (rd k : Fin 16)
  /-- ROR (R610): ror rotates right by an immediate count. -/
  | ror (core : Fin 8) (rd k : Fin 16)
  /-- SHL_REG (R610): shl shifts left by a register count. -/
  | shlReg (core : Fin 8) (rd rs : Fin 16)
  /-- SHR_REG (R610): shr shifts right with zero fill by a register count. -/
  | shrReg (core : Fin 8) (rd rs : Fin 16)
  /-- SAR_REG (R610): sar shifts right with sign fill by a register count. -/
  | sarReg (core : Fin 8) (rd rs : Fin 16)
  /-- ROL_REG (R610): rol rotates left by a register count. -/
  | rolReg (core : Fin 8) (rd rs : Fin 16)
  /-- ROR_REG (R610): ror rotates right by a register count. -/
  | rorReg (core : Fin 8) (rd rs : Fin 16)
  /-- NEG (R610): neg negates a register. -/
  | negReg (core : Fin 8) (rd : Fin 16)
  /-- NOT (R610): not inverts a register. -/
  | notReg (core : Fin 8) (rd : Fin 16)
  /-- SXB (R610): sxb sign-extends the low byte. -/
  | sxb (core : Fin 8) (rd : Fin 16)
  /-- SWPB (R610): swpb swaps the bytes of a register. -/
  | swpb (core : Fin 8) (rd : Fin 16)
  /-- ADDQ (R610): addq adds a small constant. -/
  | addq (core : Fin 8) (rd k : Fin 16)
  /-- SUBQ (R610): subq subtracts a small constant. -/
  | subq (core : Fin 8) (rd k : Fin 16)
  /-- MOVP (R611): movp copies a pair. -/
  | movp (core : Fin 8) (k j : Fin 8)
  /-- ADDP (R611): addp adds two pairs. -/
  | addp (core : Fin 8) (k j : Fin 8)
  /-- SUBP (R611): subp subtracts two pairs. -/
  | subp (core : Fin 8) (k j : Fin 8)
  /-- CMPP (R611): cmpp compares two pairs. -/
  | cmpp (core : Fin 8) (k j : Fin 8)
  /-- MULU (R611): mulu multiplies unsigned into a pair. -/
  | mulu (core : Fin 8) (k : Fin 8) (rs : Fin 16)
  /-- MULS (R611): muls multiplies signed into a pair. -/
  | muls (core : Fin 8) (k : Fin 8) (rs : Fin 16)
  /-- DIVU (R612): divu divides a pair unsigned, raising DIVZERO on zero. -/
  | divu (core : Fin 8) (k : Fin 8) (rs : Fin 16)
  /-- DIVS (R612): divs divides a pair signed, raising DIVZERO on zero. -/
  | divs (core : Fin 8) (k : Fin 8) (rs : Fin 16)
  /-- LD_B (R613): ld.b loads a zero-extended byte from Basin. -/
  | ldB (core : Fin 8) (rd : Fin 16) (b : Fin 8) (x : Cell)
  /-- LD_SB (R613): ld.sb loads a sign-extended byte from Basin. -/
  | ldSb (core : Fin 8) (rd : Fin 16) (b : Fin 8) (x : Cell)
  /-- LD (R613): ld loads a cell from Basin. -/
  | ld (core : Fin 8) (rd : Fin 16) (b : Fin 8) (x : Cell)
  /-- LD_P (R613): ld.p loads a pair from Basin. -/
  | ldP (core : Fin 8) (k b : Fin 8) (x : Cell)
  /-- ST_B (R613): st.b stores a byte to Basin. -/
  | stB (core : Fin 8) (rs : Fin 16) (b : Fin 8) (x : Cell)
  /-- ST (R613): st stores a cell to Basin. -/
  | st (core : Fin 8) (rs : Fin 16) (b : Fin 8) (x : Cell)
  /-- ST_P (R613): st.p stores a pair to Basin. -/
  | stP (core : Fin 8) (k b : Fin 8) (x : Cell)
  /-- IN (R563): in reads a cell port, using the read latch for high ports. -/
  | inCell (core : Fin 8) (rd : Fin 16) (p : Fin 4) (x : Cell)
  /-- IN_P (R562): in.p reads a pair port with one 32-bit fabric read. -/
  | inPair (core : Fin 8) (k : Fin 8) (p : Fin 4) (x : Cell)
  /-- OUT (R563): out writes a cell port, latching low halves and writing the register on the
    high half. -/
  | outCell (core : Fin 8) (rs : Fin 16) (p : Fin 4) (x : Cell)
  /-- OUT_P (R562): out.p writes a pair port with one 32-bit fabric write. -/
  | outPair (core : Fin 8) (k : Fin 8) (p : Fin 4) (x : Cell)
  /-- MVM (R616): mvm copies memory to memory. -/
  | mvm (core : Fin 8) (size : Size) (f g : Fin 8) (x y : Cell)
  /-- INM (R616): inm reads a port into memory. -/
  | inm (core : Fin 8) (pair : Bool) (f : Fin 8) (p : Fin 4) (x y : Cell)
  /-- OUTM (R616): outm writes memory to a port. -/
  | outm (core : Fin 8) (pair : Bool) (f : Fin 8) (p : Fin 4) (x y : Cell)
  /-- BMOV (R617): bmov copies a base register. -/
  | bmov (core k j : Fin 8)
  /-- BSUB (R618): bsub derives a narrower base register or raises RANGE. -/
  | bsub (core k j a b : Fin 8)
  /-- BBASE (R617): bbase sets a base register's BASE. -/
  | bbase (core k a : Fin 8)
  /-- BADD (R617): badd adds a pair to BASE. -/
  | badd (core k a : Fin 8)
  /-- BADDI (R617): baddi adds an immediate to BASE. -/
  | baddi (core k : Fin 8) (x : Cell)
  /-- BGET_B (R617): bget.b reads BASE into a pair. -/
  | bgetB (core a k : Fin 8)
  /-- BGET_F (R617): bget.f reads FLOOR into a pair. -/
  | bgetF (core a k : Fin 8)
  /-- BGET_L (R617): bget.l reads LIMIT into a pair. -/
  | bgetL (core a k : Fin 8)
  /-- BGET_M (R617): bget.m reads MODE into a pair. -/
  | bgetM (core a k : Fin 8)
  /-- BSET (R558): bset sets all fields of a base register in kernel level. -/
  | bset (core k : Fin 8)
  /-- PMOV (R619): pmov sets a port base from a register. -/
  | pmov (core : Fin 8) (k : Fin 4) (rs : Fin 16)
  /-- PGET (R619): pget reads a port base. -/
  | pget (core : Fin 8) (rd : Fin 16) (k : Fin 4)
  /-- PADD (R619): padd adds a register to a port base. -/
  | padd (core : Fin 8) (k : Fin 4) (rs : Fin 16)
  /-- PSETI (R619): pseti loads a port base from an immediate. -/
  | pseti (core : Fin 8) (k : Fin 4) (x : Cell)
  /-- B_CC (R620): A short conditional branch jumps by rel8 if its condition holds. -/
  | bCc (core : Fin 8) (cc : Fin 15) (rel : BitVec 8)
  /-- B_CC_L (R620): A long conditional branch jumps by rel16 if its condition holds. -/
  | bCcL (core : Fin 8) (cc : Fin 15) (rel : Cell)
  /-- CALL (R620): call saves the return cell in d15 and jumps by rel16. -/
  | callRel (core : Fin 8) (rel : Cell)
  /-- DBNZ (R620): dbnz decrements a register and branches while it is not zero. -/
  | dbnz (core : Fin 8) (rs : Fin 16) (rel : BitVec 8)
  /-- YIELD (R585): The YIELD service puts the task behind other ready tasks of its priority.
    -/
  | yieldService (core : Fin 8)
  /-- WAIT (R586): The WAIT service blocks the task until an event in its mask is pending. -/
  | waitService (core : Fin 8)
  /-- POST (R585): The POST service posts a STATION_EVENT record for a station. -/
  | postService (core : Fin 8)
  /-- LOCK (R592): The LOCK service blocks the task until it owns the lock cell. -/
  | lockService (core : Fin 8)
  /-- LOCK_POLL (R592): The deck kernel polls a cell for a blocked task at intervals of at most
    1 µs. -/
  | lockPoll (core : Fin 8)
  /-- UNLOCK (R585): The UNLOCK service releases a cell the task owns. -/
  | unlockService (core : Fin 8)
  /-- SLEEP (R585): The SLEEP service blocks the task for at least the given ticks. -/
  | sleepService (core : Fin 8)
  /-- SLEEP_EXPIRY (R585): A sleeping task's tick count runs out and it becomes ready. -/
  | sleepExpiry (core : Fin 8)
  /-- EXIT (R585): The EXIT service stops the task. -/
  | exitTask (core : Fin 8)
  /-- BUDGET (R588): A task running 5 ms without yielding raises BUDGET. -/
  | budgetExpiry (core : Fin 8)
  /-- IC_CLAIM (R638): A read of IC_CLAIM puts the best qualifying source in service and
    returns it, or SRC 0x3FF. -/
  | icClaim (agent : Agent)
  /-- IC_COMPLETE (R640): A write to IC_COMPLETE acknowledges events and takes the source out
    of service. -/
  | icComplete (agent : Agent) (value : Word)
  /-- IC_RAISE (R645): A write to IC_RAISE raises one event on a SOFT source. -/
  | icRaise (agent : Agent) (value : Word)
  /-- DISCARD (R663): A write of DISCARD to a source state register sets COUNT to 0. -/
  | discardCount (agent : Agent) (shared : Bool) (target : Fin 9) (src : Fin 256)
  /-- IC_PARITY_ERROR (R658): A parity error in a source's configuration clears its EN and sets
    PERR. -/
  | icParityError (shared : Bool) (target : Fin 9) (src : Fin 256)
  /-- DOORBELL (R677): SL_CH_CMD DOORBELL in IDLE_AT_TAIL re-reads the tail's NEXT and follows
    a link. -/
  | slDoorbell (agent : Agent) (ch : Fin 64)
  /-- ABORT (R686): SL_CH_CMD ABORT stops a channel's issue and moves it toward STOPPED. -/
  | slAbort (agent : Agent) (ch : Fin 64)
  /-- CLEAR (R687): SL_CH_CMD CLEAR returns a STOPPED or IDLE_AT_TAIL channel to EMPTY. -/
  | slClear (agent : Agent) (ch : Fin 64)
  /-- SL_APPEND (R678): A write to SL_APPEND links appended descriptors into the channel by its
    state. -/
  | slAppend (agent : Agent) (ch : Fin 64) (value : Word)
  /-- SL_SUBMIT_POLL (R684): At least every 10 µs Sluice reads submission moorings and performs
    their entries. -/
  | slSubmitPoll
  /-- SL_DESCRIPTOR_FETCH (R667): A descriptor fetch completes and is checked for validity and
    pages before bursts start. -/
  | slDescriptorFetch (ch : Fin 64)
  /-- SL_BURST_ISSUE (R689): A channel with room in flight wins arbitration and issues its next
    burst. -/
  | slBurstIssue
  /-- SL_BURST_COMPLETE (R673): A burst is acknowledged or fails, possibly completing the
    descriptor or stopping the channel. -/
  | slBurstComplete (ch : Fin 64) (burst : Fin 8) (host : HostCpl)
  /-- SL_TAIL_RECHECK (R676): The tail re-check read completes and the channel follows a link
    or enters IDLE_AT_TAIL. -/
  | slTailRecheck (ch : Fin 64)
  /-- SL_CHANNEL_STOPPED (R694): Once bursts in flight drain, a stopping channel writes RESULT,
    enters STOPPED and posts DMA_STOPPED. -/
  | slChannelStopped (ch : Fin 64)
  /-- SQ_GO (R714): A write to SQ_GO starts a frame, or ends it at once with NO_SELECT, BAD_SEG
    or GO_ERR. -/
  | sqGo (agent : Agent) (ch : Fin 2) (miso : List Byte)
  /-- SQ_TXDATA (R710): A write to SQ_TXDATA pushes four bytes to the transmit FIFO, resuming a
    paused frame. -/
  | sqTxdata (agent : Agent) (ch : Fin 2) (value : Word)
  /-- SQ_RXDATA (R710): A read of SQ_RXDATA pops four bytes from the receive FIFO, resuming a
    paused frame. -/
  | sqRxdata (agent : Agent) (ch : Fin 2)
  /-- SQ_FRAME_END (R720): A serial frame ends, sets DONE and RESULT and raises its shared
    source. -/
  | sqFrameEnd (ch : Fin 2)
  /-- SQ_STALL_TIMEOUT (R742): A frame paused 1 ms without progress ends with RESULT STALLED.
    -/
  | sqStallTimeout (ch : Fin 2)
  /-- EARLY_RELEASE (R717): A select released during a frame reaches its pad by the channel's
    POLICY and ends the frame with EARLY_RELEASE. -/
  | earlyRelease (ch : Fin 2) (seg : Fin 4) (phase : Fin 4) (bits : Nat)
  /-- GP_OUT (R727): A write to GP_OUT sets every OUT bit of a bank. -/
  | gpOut (agent : Agent) (bank : Fin 2) (value : Word)
  /-- GP_OUT_SET (R727): A write to GP_OUT_SET sets the named OUT bits. -/
  | gpOutSet (agent : Agent) (bank : Fin 2) (value : Word)
  /-- GP_OUT_CLR (R727): A write to GP_OUT_CLR clears the named OUT bits. -/
  | gpOutClr (agent : Agent) (bank : Fin 2) (value : Word)
  /-- GP_OUT_TGL (R727): A write to GP_OUT_TGL toggles the named OUT bits. -/
  | gpOutTgl (agent : Agent) (bank : Fin 2) (value : Word)
  /-- GP_OUT_MWL (R727): A write to GP_OUT_MWL sets OUT bits 0–15 under a mask. -/
  | gpOutMwl (agent : Agent) (bank : Fin 2) (value : Word)
  /-- GP_OUT_MWH (R727): A write to GP_OUT_MWH sets OUT bits 16–31 under a mask. -/
  | gpOutMwh (agent : Agent) (bank : Fin 2) (value : Word)
  /-- GP_DIR (R727): A write to GP_DIR sets every DIR bit of a bank. -/
  | gpDir (agent : Agent) (bank : Fin 2) (value : Word)
  /-- GP_DIR_MWL (R727): A write to GP_DIR_MWL sets DIR bits 0–15 under a mask. -/
  | gpDirMwl (agent : Agent) (bank : Fin 2) (value : Word)
  /-- GP_DIR_MWH (R727): A write to GP_DIR_MWH sets DIR bits 16–31 under a mask. -/
  | gpDirMwh (agent : Agent) (bank : Fin 2) (value : Word)
  /-- GPIO_PAD_CHANGE (R731): A pad level changes and starts its filter time. -/
  | gpioPadChange (pin : Fin 64) (level : Bool)
  /-- GPIO_FILTERED_CHANGE (R732): A pad level stable for the filter time changes the filtered
    level and may raise a pin event. -/
  | gpioFilteredChange (pin : Fin 64)
  /-- I2C_GO (R737): SQ_I2C_CTRL.GO starts an I2C transaction, with bus recovery if SDA is low.
    -/
  | i2cGo (agent : Agent) (value : Word) (sdaLow stuck : Bool)
  /-- I2C_DONE (R738): An I2C transaction ends OK, NACK, TIMEOUT or BUS_STUCK and raises source
    0xA2. -/
  | i2cDone (nack : Bool) (bytes : List Byte)
  /-- I2C_STRETCH_TIMEOUT (R738): A target stretching SCL more than 25 ms ends the transaction
    with TIMEOUT. -/
  | i2cStretchTimeout
  /-- VOLTAGE_WRITE (R740): SQ_AVS_CMD OP 1 sends an AVSBus voltage write with commit, or
    refuses it with RANGE. -/
  | voltageWrite (agent : Agent) (rail : Fin 2) (mv : BitVec 16)
  /-- VOLTAGE_READ (R739): SQ_AVS_CMD OP 2 sends an AVSBus voltage read. -/
  | voltageRead (agent : Agent) (rail : Fin 2)
  /-- STATUS_READ (R739): SQ_AVS_CMD OP 3 sends an AVSBus status read. -/
  | statusRead (agent : Agent) (rail : Fin 2)
  /-- AVS_DONE (R741): An AVSBus transaction ends OK or FAIL, raising source 0xA3 and AVS_LOST
    after three failures. -/
  | avsDone (rail : Fin 2) (crcOk : Bool) (ack : BitVec 2) (data : BitVec 16)
  /-- REGISTER_WRITE (R24): A write to a register with no row of its own sets, clears or
    ignores fields by their access codes. -/
  | registerWrite (agent : Agent) (addr : Word) (sel : BitVec 4) (value : Word)
  /-- RC_FIELD_READ (R24): A read of a register that holds an RC field returns the field and
    then sets it to its Reset value, keeping any coinciding set for the next read. -/
  | rcFieldRead (agent : Agent) (addr : Word) (aligned : Bool)
  /-- PERST_RELEASE (R653): PERST# rises, island HI leaves reset, the link trains and the IC
    hands each held vector to the endpoint once. -/
  | perstRelease
  /-- TX_FAULT_CLEARED (R511): SFPn_TX_FAULT stays low and the lane leaves TX_FAULT for the
    state the other module inputs give. -/
  | txFaultCleared (lane : Fin 8)
  /-- MSIX_TABLE_WRITE (R801): A host write to the MSI-X table writes the selected bytes and,
    when it unmasks a vector whose message is pending, sends that message. -/
  | msixTableWrite (offset : Fin 1024) (bytes : List (Option Byte))
  deriving DecidableEq, Repr

end Sys2Proof
end

