-- ==== Sys2Proof/Config.lean ====
section
/-! DEFINITION. What the specification leaves to the part or to a value it does not
state: constants with no body, so that nothing can be proved of their value. -/

namespace Sys2Proof.Config

/-- A free value: the value of the `n`-th open value of a run (log entry 7). -/
opaque freeValue : Nat → BitVec 64

/-- The PCI-SIG vendor ID of the maker (R140), whose number the specification does not give. -/
opaque vendorId : BitVec 16

end Sys2Proof.Config
end

