-- ==== Sys2Proof/Machine/StateCore.lean ====
section
/-! DEFINITION. The state of the shared blocks: event records, the SYS block, Basin,
Weir, the islands, the interrupt controller, the mailboxes, the endpoint and the
Lockkeeper firmware (chapters 01 to 06, 16 and 20). Every default is the reset value. -/

namespace Sys2Proof.Machine

/-! ### Event records (R175) and what leaves the device -/

/-- A staged event record (R175, R249) and the mooring it names (0: the device
mooring). `marker` is set for an EPOCH marker, which is never dropped (R279). -/
structure Rec where
  type : BitVec 8
  island : BitVec 4
  cycle : Bool := false
  epoch : BitVec 16
  source : Word := 0
  stamp : Word
  payload : Word := 0
  moor : Word := 0
  marker : Bool := false
  /-- The command that caused it (R34): its mailbox, and how many replies that mailbox has been
  written once its own is. -/
  await : Option (Nat × Nat) := none
  deriving DecidableEq, Repr

/-- The error completions of the fabric and of the host window. -/
inductive Err where
  /-- R42, R793, R796: nothing answers there for this access. -/
  | unmapped
  /-- R244, R247: the island that holds the target is fenced. -/
  | fenced
  /-- R205, R208, R209: poison or an uncorrectable doubleword. -/
  | ecc
  deriving DecidableEq, Repr

/-- One downstream Towline frame (chapters 12 and 13): its type, the address it goes
to, the cycle, the sequence number and the payload bytes after the header. -/
structure Frame where
  lane : Nat
  type : BitVec 8
  station : BitVec 8
  cycle : Word
  seq : BitVec 16
  session : BitVec 16
  payload : List Byte
  deriving DecidableEq, Repr

/-- A line of a serial channel: driven low or high, driven at a level that the spec does not give, or
released (R706). -/
inductive IoLevel where
  | low
  | high
  | open_
  | released
  deriving DecidableEq, Repr

/-- The lines IO0 to IO3 of a serial channel. -/
structure IoLines where
  io0 : IoLevel
  io1 : IoLevel
  io2 : IoLevel
  io3 : IoLevel
  deriving DecidableEq, Repr

/-- Half a period of SCLK: its level, the lines, and whether SQ1_DC is low (R706, R708, R712). -/
structure SqHalf where
  sclk : Bool
  io : IoLines
  dcLow : Bool := false
  deriving DecidableEq, Repr

/-- One period of AUDn_BCLK, from a falling edge to the next, at which FS and SD change (R461). -/
structure AudBit where
  fs : Bool
  sd : Bool
  deriving DecidableEq, Repr

/-- What leaves the device (log entry 2). The model only appends to this trace. -/
inductive Out where
  /-- A read of a register by an agent returned a word. -/
  | word (agent : Nat) (w : Word)
  /-- A Basin read returned its bytes. -/
  | bytes (agent : Nat) (b : List Byte)
  /-- An error completion (R42, R205, R244). -/
  | error (agent : Nat) (e : Err)
  /-- A host read completed with the EP bit set and zeros (R132). -/
  | ep (len : Nat)
  /-- A poisoned TLP reported through AER (R134). -/
  | aer
  /-- A MSI-X message: vector, address, data (R142). -/
  | msix (vector : Nat) (addr : Dword) (data : Word)
  /-- A downstream Towline frame, and its bytes from the preamble to the FCS (R473, R475, R490). -/
  | frame (f : Frame) (wire : List Byte)
  /-- The 48 frames that a local audio port sends for one block, as its pins show them: the AUDn_MCLK
  periods in one of AUDn_BCLK, and the BCLK periods in order (R461 to R463). -/
  | audio (port mclks : Nat) (wave : List AudBit)
  /-- A burst of Sluice toward host memory: write data (R690). -/
  | hostWrite (addr : Dword) (b : List Byte)
  /-- A read of host memory issued upstream (R690). -/
  | hostRead (addr : Dword) (len : Nat)
  /-- A segment that a serial channel sent, as its pins show it: the SCLK periods of a select break
  before it, DIV, the level of SCLK before and after it, and the half periods in order (R704 to
  R708, R715). -/
  | serial (ch : Nat) (brk : Option Nat) (div : Nat) (idle : Bool) (wave : List SqHalf)
  /-- Recovery pulses and a STOP on an I2C port (R738, R746). -/
  | i2cRecover (port : Nat)
  /-- A transaction of the I2C master: the target, the bytes written, how many are read
  (R737). -/
  | i2c (port : Nat) (addr : Nat) (b : List Byte) (rlen : Nat)
  /-- A word sent to a regulator by the AVSBus master: rail, operation, value (R740). -/
  | avs (rail op value : Nat)
  /-- SFPn_TX_DIS of a lane was driven to a level (R479). -/
  | txDis (lane : Nat) (level : Bool)
  /-- SFPn_TX_DIS of a lane was pulsed for 10 ms (R511). -/
  | txPulse (lane : Nat)
  /-- THERM_N was driven to a level (R774). -/
  | therm (level : Bool)
  /-- A piece or a start-up command of the pit panel on SQ1 (R427, R429). -/
  | panel (b : List Byte)
  deriving DecidableEq, Repr

/-! ### The SYS block and boot (chapter 02, R789 to R791) -/

/-- The SYS registers (R91 to R94), boot progress and the Lockkeeper watchdog and timer. -/
structure Sys where
  mode : BitVec 4 := 0
  prevMode : BitVec 4 := 0
  cause : BitVec 4 := 0
  changeCount : BitVec 16 := 0
  resetCause : BitVec 9 := 1
  stage : BitVec 4 := 0
  slot : BitVec 2 := 0
  failA : BitVec 4 := 0
  failB : BitVec 4 := 0
  sfdpOk : Bool := false
  addr4 : Bool := false
  readLanes : BitVec 2 := 0
  strap : Bool := false
  basinFail : Bool := false
  triedA : Bool := false
  triedB : Bool := false
  /-- The SYS_TICK_HI latch of each agent (R153). -/
  tickHi : Tab Word := []
  /-- A device-level reset is asserted and its release is awaited (R762). -/
  inReset : Bool := true
  /-- That reset is power-on reset (R762). -/
  powerOn : Bool := true
  /-- The boot ROM halted at stage 2 (R79). -/
  halted : Bool := false
  /-- The firmware has reached COMMISSION since the last device-level reset (R71). -/
  commissioned : Bool := false
  /-- A warm restart has begun and its image is not loaded yet (R73). -/
  reloading : Bool := false
  /-- SYS_TICK of the causes of warm restarts, newest first (R281). -/
  restarts : List Dword := []
  wdtArmed : Bool := false
  /-- SYS_TICK at which the Lockkeeper watchdog was last started (R71, R791). -/
  wdtStart : Dword := 0
  /-- LK_TIMER and the other LK_ core registers (R790). -/
  lkTimer : Word := 0
  lkEpc : BitVec 18 := 0
  lkEstat : Word := 0x20
  lkEcause : Word := 0
  lkEaddr : Word := 0
  lkVbase : BitVec 18 := 0
  lkWlatch : Word := 0xFFFF0000
  lkRlatch : Word := 0xFFFF0000
  /-- The Lockkeeper instruction RAM (R87, R789), 0 where unlisted. -/
  lkRam : Tab Byte := []
  deriving DecidableEq, Repr

/-- The pins of the whole device that a command reads again (R70, R774). -/
structure Pins where
  perst : Bool := true
  thermN : Bool := true
  deriving DecidableEq, Repr

/-- One-time-programmable storage (R87, R140, R475). -/
structure Otp where
  /-- Key hash of each index 0 to 3, 32 bytes each. -/
  keyHash : Tab (List Byte) := []
  revoked : BitVec 4 := 0
  rollback : Word := 0
  mac : BitVec 48 := 0
  subVendor : BitVec 16 := 0
  subId : BitVec 16 := 0
  subProgrammed : Bool := false
  deriving DecidableEq, Repr

/-! ### Basin (chapter 05) -/

/-- The poison tag of a doubleword: three copies (R204) and whether its setting has
been counted and recorded (R206, R207). -/
structure Tag where
  copies : BitVec 3 := 0
  counted : Bool := false
  deriving DecidableEq, Repr

/-- The registers of one bank and its scrubber (R210, R241). -/
structure Bank where
  ceCount : Word := 0
  ueCount : Word := 0
  errAddr : BitVec 26 := 0
  errValid : Bool := false
  syndrome : BitVec 8 := 0
  errUe : Bool := false
  errAgent : BitVec 4 := 0
  scrubPos : BitVec 21 := 0
  passes : BitVec 8 := 0
  checkFlip : BitVec 8 := 0
  dataBitA : BitVec 6 := 0
  enA : Bool := false
  dataBitB : BitVec 6 := 0
  enB : Bool := false
  arm : Bool := false
  deriving DecidableEq, Repr

/-- Basin: its bytes (0 where unlisted, R78), and per doubleword the exclusive-OR of
the stored check bits with those of the stored data (the syndrome of R203) and the
poison tag. -/
structure Basin where
  bytes : List Host.Cell := []
  synd : Tab Byte := []
  tags : Tab Tag := []
  banks : Tab Bank := []
  deriving DecidableEq, Repr

/-! ### Weir (chapter 05) -/

/-- A request to Weir that waits behind an earlier one of its agent (R218, R242). -/
inductive WeirReq where
  /-- A write to WR_CAS_GO, by its OP. -/
  | go (op : Bool)
  /-- A write of a context register, by its offset. -/
  | write (off : Nat) (v : Word)
  deriving DecidableEq, Repr

/-- The operation context of one agent (R214, R237, R238). -/
structure WeirCtx where
  addr : BitVec 26 := 0
  cmp : Dword := 0
  new : Dword := 0
  old : Dword := 0
  result : BitVec 4 := 0
  corrected : Bool := false
  op : Bool := false
  /-- The operation in progress (R218): its OP, the address and the operands taken. -/
  busy : Option (Bool × Nat × Dword × Dword) := none
  /-- The agent's later requests, oldest first, from a write to WR_CAS_GO on that waits for the
  operation in progress (R218, R242). -/
  waits : List WeirReq := []
  prio : BitVec 4 := 0
  deriving DecidableEq, Repr

/-- A lock cell (R220, R240). -/
structure LockCell where
  owner : BitVec 4 := 0
  reservee : BitVec 4 := 0
  broken : Bool := false
  waiters : BitVec 16 := 0
  deriving DecidableEq, Repr

/-- Weir: the contexts by agent and the 1,024 lock cells. -/
structure Weir where
  ctx : Tab WeirCtx := []
  cells : Tab LockCell := []
  deriving DecidableEq, Repr

/-! ### Islands (chapter 06) -/

/-- The states of IS_STATE.STATE (R284). -/
inductive IslState where
  | running | fencing | fenced | inReset | restoring | held
  deriving DecidableEq, Repr

/-- One island: IS_ registers (R284) and its loop policy (R283). -/
structure Island where
  state : IslState := .running
  cause : BitVec 8 := 0
  epoch : BitVec 16 := 0
  k : BitVec 5 := 16
  stretch : Bool := false
  /-- SYS_TICK at which the present stretch began (R267). -/
  stretchStart : Dword := 0
  /-- SYS_TICK from which on the present stretch is not in `stretchUs` yet. -/
  stretchMark : Dword := 0
  floorMhz : BitVec 12 := 0
  worstPs : BitVec 8 := 0
  minPs : BitVec 8 := 0x7F
  capMv : BitVec 10 := 0
  /-- The cap and the floor in force: those of the last step of their loop (R274, R283). -/
  capAct : BitVec 10 := 0
  floorAct : BitVec 12 := 0
  /-- The rail does not follow the cap in force (R273). -/
  capOver : Bool := false
  droopCount : BitVec 16 := 0
  depthMv : BitVec 8 := 0
  stretchUs : Word := 0
  temp : BitVec 11 := 0
  /-- SYS_TICK of the fences that count under R280, newest first. -/
  recent : List Dword := []
  total : BitVec 16 := 0
  timeouts : BitVec 24 := 0
  /-- The BLIT and PLAIN moorings that hold the marker of the release to come (R257, R259). -/
  marked : List Nat := []
  /-- A RESET command with island scope awaits the release: mailbox (R199). -/
  resetCmd : Option Nat := none
  deriving DecidableEq, Repr

/-- One VDD_CORE rail (R268, R285). -/
structure Rail where
  setMv : BitVec 10 := 0
  readMv : BitVec 10 := 0
  ceilMv : BitVec 10 := 0x384
  avsLost : Bool := false
  loopRun : Bool := false
  /-- It stands at 0.90 V with a margin below 50 ps, which is reported (R286). -/
  atMax : Bool := false
  deriving DecidableEq, Repr

/-! ### Interrupt controller (chapter 16) -/

/-- A source: configuration and state (R633, R663). `holder` is the target that holds
its claim; INSVC is `holder` being present. -/
structure Src where
  prio : BitVec 4 := 0
  en : Bool := false
  mode : Bool := false
  targets : BitVec 9 := 0
  target : BitVec 4 := 0
  count : BitVec 8 := 0
  input : Bool := false
  ovf : Bool := false
  perr : Bool := false
  holder : Option Nat := none
  deriving DecidableEq, Repr

/-- A target's own registers (R662). -/
structure Target where
  thresh : BitVec 4 := 0
  completeErr : Bool := false
  raiseErr : Bool := false
  spurious : BitVec 16 := 0
  deriving DecidableEq, Repr

/-- A watch entry (R649, R661). -/
structure Watch where
  cb : BitVec 26
  signal : BitVec 6
  consumer : BitVec 4
  deriving DecidableEq, Repr

/-- The interrupt controller. Private source i of target t is key 32 t + i. -/
structure Intc where
  priv : Tab Src := []
  shared : Tab Src := []
  targets : Tab Target := []
  dbgTarget : BitVec 4 := 0
  vecHeld : BitVec 64 := 0
  watch : Tab Watch := []
  deriving DecidableEq, Repr

/-! ### Mailboxes and endpoint (chapter 03) -/

/-- A queued word: data, stamp, EOM (R99). -/
structure QWord where
  data : Word
  stamp : BitVec 4
  eom : Bool
  deriving DecidableEq, Repr

/-- One queue of a mailbox: committed words, the open message, the discard set
(R100, R119). -/
structure Queue where
  words : List QWord := []
  opened : List QWord := []
  discard : BitVec 16 := 0
  deriving DecidableEq, Repr

/-- The registers of one side (R148, R149). -/
structure Side where
  status : BitVec 8 := 0
  enable : BitVec 8 := 0
  metaStamp : BitVec 4 := 0
  metaEom : Bool := false
  metaValid : Bool := false
  deriving DecidableEq, Repr

/-- A mailbox (R96): queues AB and BA, sides A and B, lock owner (R112). -/
structure Mbx where
  ab : Queue := {}
  ba : Queue := {}
  sideA : Side := {}
  sideB : Side := {}
  lock : BitVec 4 := 0
  deriving DecidableEq, Repr

/-- The host window (R151, R152). The guard of page p holds READ in bit 0 and WRITE in
bit 1. -/
structure Window where
  status : BitVec 6 := 0
  count : BitVec 8 := 0
  errAddr : BitVec 26 := 0
  errBar0 : Bool := false
  errValid : Bool := false
  guards : Tab (BitVec 2) := []
  deriving DecidableEq, Repr

/-- A MSI-X table entry (R142, R801); `masked` is bit 0 of its vector control word. -/
structure MsixEntry where
  addr : Dword := 0
  data : Word := 0
  ctrl : Word := 1
  deriving DecidableEq, Repr

/-- The endpoint's configuration state that R139 to R143 name. -/
structure Pcie where
  busMaster : Bool := false
  msixEnable : Bool := false
  funcMask : Bool := false
  d3hot : Bool := false
  bar0 : Dword := 0
  bar2 : Dword := 0
  /-- Completion timeout setting of R139; 0 stands for its reset value, 50 ms. -/
  cplTimeout : BitVec 4 := 0
  /-- AER: a poisoned TLP was received (R134). -/
  aerPoison : Bool := false
  table : Tab MsixEntry := []
  pba : BitVec 64 := 0
  deriving DecidableEq, Repr

/-! ### The Lockkeeper firmware (chapter 04) -/

/-- A kept result of the duplicate window (R165). -/
structure Kept where
  header : Word
  crc : Word
  reply : List Word
  deriving DecidableEq, Repr

/-- A command that waits (R158): its header, payload CRC, and what it waits for. -/
inductive Waiting where
  /-- SET_MODE to a mode: the tick at which it was accepted (R798), and whether the host
  watchdog cancelled it (R69). -/
  | setMode (header crc : Word) (target : BitVec 4) (at_ : Dword) (cancelled : Bool)
  /-- REBIND_STATION: station index, whether the scene part still waits and to which
  scene index, whether the address part still waits, since which tick and to which address, and
  whether a needed island was found fenced. -/
  | rebind (header crc : Word) (station : Nat) (scene : Option Nat) (addr : Option (Dword × Nat))
      (fenced : Bool)
  /-- RESET with island scope: the island it resets (R199). -/
  | reset (header crc : Word) (island : Nat)
  deriving DecidableEq, Repr

/-- A mooring (R174, R192, R180, R804). -/
structure Moor where
  ring : Nat
  cb : Nat
  w3 : Word
  /-- Records dropped since the last OVERFLOW record (R180). -/
  since : Nat := 0
  /-- Drops the firmware keeps while the control block cannot be read (R804). -/
  kept : Nat := 0
  deriving DecidableEq, Repr

/-- A fence object (R192, R806). -/
structure FenceObj where
  moor : Word
  signalled : Bool := false
  value : Word := 0
  deriving DecidableEq, Repr

/-- The firmware's state. -/
structure Fw where
  /-- Duplicate windows of MB0 to MB7, oldest result first (R165). -/
  windows : Tab (List Kept) := []
  waiting : Tab Waiting := []
  /-- The commands that wait were interrupted by a warm restart: they complete, are recorded
  and send no reply (R183). -/
  silent : Bool := false
  /-- Replies whose words do not all fit their mailbox yet. -/
  replies : List (Nat × List Word) := []
  /-- How many replies each mailbox has been written. -/
  placed : Tab Nat := []
  /-- The command that runs, as `Rec.await` names it (R34). -/
  causer : Option (Nat × Nat) := none
  /-- The mailbox whose turn is next (R157). -/
  turn : Nat := 0
  /-- Generation of index i of type t, key 65,536 t + i (R160). -/
  gens : Tab (BitVec 12) := []
  /-- User blocks: first page and page count (R172). -/
  blocks : Tab Nat := []
  /-- Firmware-owned page runs of the pool: first page and page count (R172). -/
  fwRuns : Tab Nat := []
  /-- The pages that hold the defaults of the stations 64 g to 64 g + 63 (R172, log entry 44). -/
  defPages : Tab Nat := []
  moorings : Tab Moor := []
  deviceMoor : Option Nat := none
  /-- Records held for the device mooring (R803) and how many more were dropped. -/
  held : List Rec := []
  heldDropped : Nat := 0
  fences : Tab FenceObj := []
  /-- Host watchdog: period in ms (0 off) and the SYS_TICK it was started (R62). -/
  wdPeriod : Nat := 0
  wdStart : Dword := 0
  /-- The mode recorded before a warm restart (R73) and whether SYS_MODE is still to be
  written after one. -/
  recordedMode : BitVec 4 := 0
  restarted : Bool := false
  /-- FW_VERSION of the running image (R89); 0 while the boot ROM answers. -/
  version : Word := 0
  /-- ROLLBACK and KEY_INDEX of the running image (R198). -/
  imgRollback : Word := 0
  imgKey : BitVec 2 := 0
  deriving DecidableEq, Repr

end Sys2Proof.Machine
end

