-- ==== Sys2Proof/Machine/StateDeck.lean ====
section
/-! DEFINITION. The state of islands DH0 and DH1 (chapters 14 and 15): the Ceing cores, their
instruction RAM, and the tasks of the deck kernels. Every default is the reset value. -/

namespace Sys2Proof.Machine

/-- A base register (R550); MODE as R556. -/
structure BReg where
  base : Word := 0
  floor : Word := 0
  limit : Word := 0
  mode : BitVec 2 := 0
  deriving DecidableEq, Repr

/-- The programmer-visible state of a Ceing core (R550), its DH_ registers (R597) and the
state its rules imply. -/
structure Core where
  d : Vector Cell 16 := Vector.replicate 16 0
  b : Vector BReg 8 := Vector.replicate 8 {}
  p : Vector Cell 4 := Vector.replicate 4 0
  z : Bool := false
  n : Bool := false
  c : Bool := false
  v : Bool := false
  ie : Bool := false
  /-- LEVEL is 1, kernel (K). -/
  kernel : Bool := true
  pc : Cell := 0
  epc : Cell := 0
  /-- DH_ESTAT [6:0]. -/
  estat : BitVec 7 := 0x20
  /-- DH_ECAUSE: CODE, and STORE at bit 8. -/
  ecode : Byte := 0
  estore : Bool := false
  eaddr : Word := 0
  vbase : Cell := 0
  cfloor : Cell := 0
  climit : Cell := 0xFFFF
  timer : Word := 0
  /-- SYS_TICK of the last write to DH_HEART (R589, R246). -/
  heart : Dword := 0
  scene : BitVec 11 := 0
  station : BitVec 11 := 0
  voice : BitVec 9 := 0
  mix : BitVec 11 := 0
  lane : BitVec 3 := 0
  mb : BitVec 3 := 0
  wdata : Cell := 0
  wport : Cell := 0xFFFF
  rdata : Cell := 0
  rport : Cell := 0xFFFF
  /-- Addresses of stores whose error completion has not arrived yet (R567). -/
  storeErr : List Word := []
  /-- Halted by R572. -/
  halted : Bool := false
  /-- In `wfi` (R608). -/
  waiting : Bool := false
  /-- The task the deck kernel dispatched, by its SCRIPT index; the kernel has no task to
  run where `idle` is set. -/
  cur : Option Nat := none
  idle : Bool := false
  deriving DecidableEq, Repr

/-- What a deck kernel keeps of a task it switched away from (R573, R574): the core's
registers, TP_WHEN as a word, and SL_APPEND_LAST. -/
structure Ctx where
  d : Vector Cell 16
  b : Vector BReg 8
  p : Vector Cell 4
  flags : BitVec 4
  ie : Bool
  pc : Cell
  sel : BitVec 11 × BitVec 11 × BitVec 9 × BitVec 11 × BitVec 3 × BitVec 3
  wlatch : Cell × Cell
  rlatch : Cell × Cell
  when_ : Word
  last : Word
  deriving DecidableEq, Repr

/-- Why a task waits. -/
inductive Wait where
  | event
  | lock (cell : Nat)
  | sleep (until_ : Nat)
  deriving DecidableEq, Repr

/-- A pending slot (R586): the stamp of its event, d1, d2 and d3. -/
structure Slot where
  stamp : Nat
  d1 : Cell
  d2 : Cell
  d3 : Cell
  deriving DecidableEq, Repr

/-- A task (R581 to R588, R598), at its SCRIPT index. -/
structure Task where
  deck : Nat
  prio : BitVec 4
  scene : Option Nat
  moor : Word
  /-- Which of the 32 stacks of its Deckhand it has (R581, R584). -/
  slot : Nat := 0
  /-- Counted as started (R196). -/
  started : Bool := false
  /-- SCRIPT_CONTROL stop waits for a yield (R587). -/
  stopDue : Bool := false
  /-- 0 stopped, 1 ready, 2 running, 3 waiting, 4 faulted (R598). -/
  state : Nat := 0
  /-- The length of the code in cells, the pages of the pool that hold the firmware's copy (R172,
  R195, R196): the first and how many, and where the code stands in instruction RAM. -/
  len : Nat := 0
  copy : Option (Nat × Nat) := none
  cell : Nat := 0x2000
  faultCode : Byte := 0
  faultPc : Cell := 0
  missed : Word := 0
  ctx : Option Ctx := none
  wait : Option Wait := none
  /-- The last WAIT mask and the pending slots by kind. -/
  mask : BitVec 6 := 0
  slots : Tab Slot := []
  /-- Cells owned through LOCK, and the priority inherited through each. -/
  locks : Tab (BitVec 4) := []
  /-- The order in which tasks became ready. -/
  seq : Nat := 0
  /-- Ticks run since the last yield, and SYS_TICK at the last dispatch (R588). -/
  ran : Nat := 0
  since : Dword := 0
  deriving DecidableEq, Repr

/-- The Deckhands: cores 0 to 7, instruction RAM (key 65,536 n + cell), tasks by SCRIPT index,
and the count of readiness events. -/
structure Decks where
  cores : Tab Core := []
  iram : Tab Cell := []
  tasks : Tab Task := []
  seq : Nat := 0
  deriving DecidableEq, Repr

end Sys2Proof.Machine
end

