-- ==== Sys2Proof/Machine/StateLane.lean ====
section
/-! DEFINITION. The state of islands TL0 to TL3 (12, 13): the cycle, the lanes and the
stations. Every default is the reset value. -/

namespace Sys2Proof.Machine

/-- The Towline cycle (R495, R507, R516): the number of the cycle in progress, its boundary
tick, and whether a boundary has passed since the last device-level reset (log entry 5). -/
structure Cyc where
  begun : Bool := false
  number : Word := 0
  tick : Dword := 0
  period : Nat := 50000
  /-- The period that SET_CYCLE has set for the cycle after its tick (R192, R798; DEDUCED, log entry
  5). -/
  nextPeriod : Option (Dword × Nat) := none
  /-- TL_CUT, and whether the cut of this cycle has been made (R519). -/
  cut : Word := 0
  cutDone : Bool := true
  deriving DecidableEq, Repr

/-- The equaliser values of a lane (R480). -/
structure Eq where
  pre : BitVec 3 := 0
  main : BitVec 6 := 0x28
  post : BitVec 4 := 0
  ctle : BitVec 4 := 8
  taps : List (BitVec 6) := [0, 0, 0, 0, 0]
  deriving DecidableEq, Repr

/-- A POST trial in progress (R483): the mean partner eye of the window before the step,
and the POST to restore. -/
structure Trial where
  up : Bool := false
  /-- The step under test: the POST before it, and the sum and number of the partner eyes
  of the window before it. -/
  test : Option (BitVec 4 × Nat × Nat) := none
  /-- Sum and number of the partner eyes of the present window. -/
  sum : Nat := 0
  n : Nat := 0
  deriving DecidableEq, Repr

/-- A lane (R512 and what its rules keep). -/
structure Lane where
  enable : Bool := false
  freeze : Bool := false
  test : BitVec 2 := 0
  /-- The state code whose LANE_STATE record was last posted (R509). -/
  code : Nat := 0
  /-- The level of SFPn_TX_DIS (R479). -/
  txDis : Bool := true
  /-- SFPn_MOD_ABS has been low for 100 ms (R477). -/
  present : Bool := false
  los : Bool := false
  faultIn : Bool := false
  /-- In TX_FAULT (R511). -/
  faulted : Bool := false
  /-- The module has been read and its kind code; 0 is no row of R476. -/
  read : Bool := false
  kind : Nat := 0
  ddm : Bool := false
  lengthM : Byte := 0
  i2cFails : Nat := 0
  i2cErr : Bool := false
  alarms : BitVec 5 := 0
  temp : BitVec 16 := 0
  vcc : BitVec 16 := 0
  txPower : BitVec 16 := 0
  rxPower : BitVec 16 := 0
  blockLock : Bool := false
  hiBer : Bool := false
  /-- The first hit of R503: arrival tick and CYCLE. -/
  hit : Option (Dword × Word) := none
  aligned : Bool := false
  alignTick : Dword := 0
  /-- The last recognised upstream CYCLE: arrival tick and CYCLE. -/
  last : Option (Dword × Word) := none
  dev : BitVec 16 := 0
  cycleRx : Word := 0
  partnerAligned : Bool := false
  eq : Eq := {}
  trial : Trial := {}
  eye : Byte := 0
  partnerEye : Byte := 0
  minEye : Byte := 0xFF
  /-- Milliseconds EYE has stayed below 48, and above 64 (R484). -/
  lowMs : Nat := 0
  highMs : Nat := 0
  degraded : Bool := false
  session : BitVec 16 := 1
  cntRx : Word := 0
  cntTx : Word := 0
  cntFcs : Word := 0
  cntFilter : Word := 0
  cntHdr : Word := 0
  cntSession : Word := 0
  cntErrBlk : Word := 0
  cntLock : BitVec 16 := 0
  cntHiBer : BitVec 16 := 0
  cntAlign : Word := 0
  testSync : Bool := false
  testErrors : BitVec 29 := 0
  /-- Downstream CONFIG, OUT and AUDIO frames that wait (R515), oldest first. -/
  frames : List Frame := []
  /-- CONFIG frames sent in the present cycle (R542). -/
  configs : Nat := 0
  deriving DecidableEq, Repr

/-- An output write (R521): its based-on cycle, sequence number, image and POLICY. -/
structure OutWrite where
  based : Word
  seq : BitVec 16
  image : List Byte
  policy : Bool
  deriving DecidableEq, Repr

/-- A station at a STATION index (R193, R514, R547 to R549). Scenes are indices. -/
structure Station where
  addr : Nat
  /-- The scene bound to it, the wash scene, and the scene it shows. -/
  home : Nat
  wash : Option Nat
  scene : Nat
  /-- A rebinding of R49 or R192 that waits: the scene, and the frame of it at whose start it takes
  effect (R301). -/
  pendScene : Option (Nat × Nat) := none
  fmt : Nat
  outLen : Nat
  inLen : Nat
  hold : Nat
  panelW : Nat
  panelH : Nat
  /-- The post-blend LUT (R360); empty is the identity. -/
  lut : List Byte := []
  /-- A LUT that waits: the scene and the frame at whose start it applies. -/
  pendLut : Option (Nat × Nat × List Byte) := none
  safe : List Byte := List.replicate 64 0
  mask : List Byte := List.replicate 64 0
  /-- Safe image and mask that wait for a boundary, and the tick of their command (R798). -/
  pendDef : Option (Dword × List Byte × List Byte) := none
  force : List Byte := List.replicate 64 0
  fmask : List Byte := List.replicate 64 0
  pendForce : Option (Dword × List Byte × List Byte) := none
  /-- Code of R514. -/
  code : Nat := 0
  /-- Exchange has started (R193); it ends at the next boundary (R194). -/
  started : Bool := false
  ending : Bool := false
  /-- The tick of the BIND_STATION, and of the DESTROY, that awaits its boundary (R798). -/
  boundAt : Dword := 0
  endAt : Dword := 0
  thr : Nat := 3
  /-- Bounds of SET_LOOP_POLICY loop 3; none: the defaults of R274. -/
  bounds : Option (Nat × Nat) := none
  misses : Nat := 0
  clean : Nat := 0
  configId : BitVec 16 := 0
  idAcked : Bool := false
  seqNext : BitVec 16 := 0
  acked : BitVec 16 := 0
  /-- How many writes have been formed, so that ACKED names only a number sent. -/
  formed : Bool := false
  lastSent : BitVec 16 := 0
  write : Option OutWrite := none
  /-- OUT_COMMIT as it was read at the last boundary (R522). -/
  commit : Option Word := none
  /-- The last cycle whose input was fresh. -/
  fresh : Option Word := none
  /-- What the IN frames of the present cycle gave: reason, LEN, OUT_SEQ and the image of a
  fresh one. -/
  cand : Option (Nat × Nat × Nat × List Byte) := none
  info : Nat := 1
  stale : BitVec 16 := 0
  suppressed : BitVec 8 := 0
  late : BitVec 8 := 0
  retries : BitVec 16 := 0
  eccOut : BitVec 8 := 0
  diag : BitVec 8 := 0
  deriving DecidableEq, Repr

/-- Islands TL0 to TL3. -/
structure Towline where
  cyc : Cyc := {}
  lanes : Tab Lane := []
  stations : Tab Station := []
  deriving DecidableEq, Repr

end Sys2Proof.Machine
end

