-- ==== Sys2Proof/Machine/StatePi.lean ====
section
/-! DEFINITION. The state of the peripheral island (chapter 18): GPIO, the serial channels,
the I2C master and the AVSBus master. Every default is the reset value. -/

namespace Sys2Proof.Machine

/-- GPIO (R727 to R735, R751, R752): OUT and DIR of both banks (GB in the high half),
the pin configuration [14:0], the FW bits (GA0 set after reset, R735), the pad levels the
outside drives, the filtered levels and GP_STATUS. -/
structure Gpio where
  out : BitVec 64 := 0
  dir : BitVec 64 := 0
  cfg : Tab (BitVec 15) := []
  fw : BitVec 64 := 1
  pad : BitVec 64 := 0
  filt : BitVec 64 := 0
  /-- The pads as they were before the last tick in which they changed (R729). -/
  before : BitVec 64 := 0
  changed : Dword := 0
  denied : Bool := false
  hold : Bool := false
  /-- What the hold cells keep of the pads while HOLD is 1, and the firmware's copy of what it then
  restores (R253, R747): OUT, DIR, GP_PIN with the pull and open drain, and FW. -/
  holdOut : BitVec 64 := 0
  holdDir : BitVec 64 := 0
  holdCfg : Tab (BitVec 15) := []
  holdFw : BitVec 64 := 0
  deriving DecidableEq, Repr

/-- A segment of a serial frame (R748). -/
structure SqSeg where
  phase : Word := 0
  cmd : Word := 0
  addr : Word := 0
  len : Nat := 0
  deriving DecidableEq, Repr

/-- A serial channel (R748). -/
structure Sq where
  cfg : Word := 0x00200020
  segs : Tab SqSeg := []
  busy : Bool := false
  done : Bool := false
  goErr : Bool := false
  /-- A panel frame holds the channel (SQ1). -/
  held : Bool := false
  /-- The segments of that frame, each with its data bytes (R725, R726). -/
  panel : List (SqSeg × List Byte) := []
  result : Nat := 0
  seg : Nat := 0
  phase : Nat := 0
  bits : Nat := 0
  tx : List Byte := []
  rx : List Byte := []
  /-- The frame in progress: segment, data bytes done in it, what the peripheral still
  sends, and the data bytes this segment has sent. -/
  at_ : Nat := 0
  off : Nat := 0
  miso : List Byte := []
  sent : List Byte := []
  deriving DecidableEq, Repr

/-- The I2C master (R750). -/
structure I2c where
  ctrl : Word := 0
  /-- SQ_I2C_CTRL as the transaction in progress found it. -/
  cur : Word := 0
  busy : Bool := false
  done : Bool := false
  result : Nat := 0
  wdata : List Byte := List.replicate 8 0
  rdata : List Byte := List.replicate 128 0
  /-- Ports that send recovery pulses before their next transaction (R746). -/
  recover : BitVec 8 := 0
  deriving DecidableEq, Repr

/-- One port of the AVSBus master (R750): `op` is the operation in progress and its
value. -/
structure Avs where
  op : Option (Nat × Nat) := none
  data : BitVec 16 := 0
  ack : BitVec 2 := 0
  done : Bool := false
  result : Nat := 0
  fails : Byte := 0
  deriving DecidableEq, Repr

/-- The serial engines of island PI. -/
structure Serial where
  sq : Tab Sq := []
  i2c : I2c := {}
  avs : Tab Avs := []
  deriving DecidableEq, Repr

end Sys2Proof.Machine
end

