-- ==== Sys2Proof/Machine/StateScene.lean ====
section
/-! DEFINITION. The state of island TP: scenes and their beams (07), planes and flips (08),
the blitter (09), region push and the pit panel (10). -/

namespace Sys2Proof.Machine

/-- A line of a frame: frame number and line. -/
abbrev FL := Nat × Nat

/-- A pending raster write (R293, R297): its effect line, the word index of its register
(none for TP_SC_REDRAW, R303) and the value. -/
structure RWrite where
  frame : Nat
  line : Nat
  reg : Option Nat
  val : Word
  deriving DecidableEq, Repr

/-- A line rendered and not committed (R304, R309): its pixels as RGB words and all that
becomes visible at its commit. -/
structure RLine where
  frame : Nat
  line : Nat
  pix : List Word := []
  /-- Line-effective registers as this line left them (R296). -/
  regs : Tab Word := []
  /-- Bits of TP_SC_LAYSTAT this line sets (R379). -/
  lay : Word := 0
  ltErr : Bool := false
  /-- Sprites that collided (R362). -/
  coll : BitVec 256 := 0
  ss : Bool := false
  sl : Bool := false
  deriving DecidableEq, Repr

/-- A pending frame-latched change (R301): of TP_SC_LINETAB or a flip (R364). -/
inductive Latch where
  | linetab (frame : Nat) (v : Word)
  | flip (frame : Nat) (shadow : Tab Word) (fence value : Word)
  deriving DecidableEq, Repr

/-- A line-match comparator (R313): `next` is the first frame in which it fires. -/
structure Lm where
  line : BitVec 10 := 0
  en : Bool := false
  next : Nat := 0
  deriving DecidableEq, Repr

/-- A row staged in the push store (R410): its Basin address and size. All its lines
committed, for a line spans every patch of its row. -/
structure Staged where
  frame : Nat
  row : Nat
  addr : Nat
  bytes : Nat
  deriving DecidableEq, Repr

/-- A scene. Register values are by word index (offset / 4) of the register file (R330,
R376). -/
structure Scene where
  width : Nat
  height : Nat
  blank : Nat
  rate : Nat
  moor : Word
  block : Nat
  /-- The tick of its CREATE_SCENE (R798). -/
  madeAt : Dword := 0
  /-- S (R289); none until the cycle boundary that starts the beam. -/
  start : Option Dword := none
  /-- Line-effective registers as the last committed line left them. -/
  regs : Tab Word := []
  active : Tab Word := []
  shadow : Tab Word := []
  linetab : Word := 0
  latches : List Latch := []
  writes : List RWrite := []
  lines : List RLine := []
  /-- The next line to commit (R308). -/
  nextFrame : Nat := 0
  nextLine : Nat := 0
  /-- The last frame whose frame-latched changes have latched (R301), plus one. -/
  latched : Nat := 0
  /-- The next frame whose SOB is to be raised (R311). -/
  sobFrame : Nat := 0
  /-- The frame whose region list is complete and whose FD awaits its SOB (R312). -/
  fdDue : Option Nat := none
  urFrame : Option Nat := none
  comm : Word := 0
  late : Bool := false
  wrDrop : Bool := false
  /-- Raster writes that found the 64 entries in use (R297); no register shows the count. -/
  wrDropped : Nat := 0
  ur : Bool := false
  ltErr : Bool := false
  lastAgent : BitVec 4 := 0
  cntRollback : BitVec 16 := 0
  cntUr : BitVec 8 := 0
  cntLate : BitVec 8 := 0
  lm : Tab Lm := []
  evHost : BitVec 4 := 0
  evDeck : BitVec 4 := 0
  dhMask : BitVec 8 := 0
  laystat : Word := 0
  collFirst : BitVec 10 := 0
  collValid : Bool := false
  ss : Bool := false
  sl : Bool := false
  coll : BitVec 256 := 0
  flipFence : Word := 0
  flipValue : Word := 0
  fenceDrop : Bool := false
  flipFrame : BitVec 16 := 0
  /-- Fences of latched flips awaiting the SOB of their frame (R366). -/
  signals : List (Word × Word) := []
  /-- A latch whose active values the next SOB writes to the block (R369). -/
  blockDue : Bool := false
  /-- The pre-blend LUT area as read for a frame; none where it could not be (R358). -/
  luts : Tab (Option (List Byte)) := []
  /-- The place of the line that met poison in its line table, and at which entry: its frame reads no
  further (R326). -/
  ltStop : Option (Nat × Nat) := none
  pipe : Nat := 0
  pin : Option Nat := none
  moveTo : Option Nat := none
  /-- Committed lines of the patch row in progress (R406); an underrun line is missing. -/
  rowLines : List (Nat × List Word) := []
  /-- Signatures (R405) by patch, 64 row + column; a patch never signed is not listed
  (R407). -/
  sig : Tab Word := []
  sigAddr : Nat := 0
  /-- CHANGED patches of the frame in progress (R406). -/
  changed : BitVec 3072 := 0
  staged : List Staged := []
  psRegions : BitVec 4 := 0
  psTruncated : Bool := false
  psDeferred : Bool := false
  psEcc : Bool := false
  psFrame : BitVec 16 := 0
  cntChanged : BitVec 16 := 0
  cntStaged : BitVec 16 := 0
  deriving DecidableEq, Repr

/-- A piece of a region for one receiver (R415): panel window and canvas rectangle. -/
structure Piece where
  scene : Nat
  frame : Nat
  region : Nat
  piece : Nat
  pieces : Nat
  x : Nat
  y : Nat
  w : Nat
  h : Nat
  /-- The cycle in which it was sent; none while unsent (R421). -/
  sent : Option Word := none
  deriving DecidableEq, Repr

/-- What Towpath keeps for one receiver (R408, R413, R436). -/
structure Recv where
  owed : BitVec 3072 := 0
  pieces : List Piece := []
  sent : Word := 0
  lost : BitVec 16 := 0
  cancelled : BitVec 16 := 0
  deriving DecidableEq, Repr

/-- The steps of the pit panel (R427, R428). -/
inductive PanelStep where
  /-- Off. -/
  | off
  /-- exit_sleep_mode is to be sent, or is being sent. -/
  | exitSleep
  /-- Waiting 120 ms. -/
  | wait
  /-- set_pixel_format, set_tear_on, set_display_on still to be sent. -/
  | pixelFormat | tearOn | displayOn
  /-- Pieces flow. -/
  | on
  /-- set_display_off is to be sent. -/
  | displayOff
  /-- PANEL_CONFIG came while a frame was on SQ1, a piece where `piece` is set: exit_sleep_mode,
  or set_display_off, follows that frame. -/
  | restart (piece : Bool)
  | closing (piece : Bool)
  deriving DecidableEq, Repr

/-- The local pit panel (R425 to R429, R436). -/
structure Panel where
  scene : Option Nat := none
  offX : Nat := 0
  offY : Nat := 0
  w : Nat := 0
  h : Nat := 0
  variant : BitVec 2 := 0
  tePin : BitVec 6 := 0
  teEn : Bool := false
  step : PanelStep := .off
  /-- The reply that the start-up follows: a mailbox, and how many replies it has been written once
  that one is (R427). -/
  await : Option (Nat × Nat) := none
  /-- The start-up command or piece now on SQ1. -/
  busy : Bool := false
  /-- The first piece of the list waits for a TE edge (R428). -/
  teWait : Bool := false
  teMiss : Bool := false
  abort : Bool := false
  recv : Recv := {}
  pieces : Word := 0
  deriving DecidableEq, Repr

/-- Per-agent Towpath registers (R332). -/
structure When where
  line : BitVec 10 := 0
  nextFrame : Bool := false
  en : Bool := false
  deriving DecidableEq, Repr

/-- A Deckhand's TP event queue (R315, R332): its entries, each with the tick of its event. -/
structure Evq where
  q : List (Word × Nat) := []
  drop : BitVec 16 := 0
  deriving DecidableEq, Repr

/-- A pattern bank (R338, R340): its 64 KiB pages, and the pages each replaced load left
behind, with the scenes that still read them: (scene, first frame that reads the new). -/
structure PBank where
  pages : Tab Nat := []
  old : List (Tab Nat × List (Nat × Nat)) := []
  deriving DecidableEq, Repr

/-- A blit in progress (R386): its mooring, entry and descriptor words, how many runs are
to be done, and the RESULT found before any pixel. -/
structure Blit where
  moor : Nat
  /-- CONS at its entry. -/
  cons : Word := 0
  entry : List Word
  desc : List Word := []
  /-- RESULT decided before any pixel; none: the runs are to be done. -/
  result : Option Nat := none
  /-- The descriptor was never read (R401). -/
  unread : Bool := false
  deriving DecidableEq, Repr

/-- The blitter (R385, R403). -/
structure Blitter where
  cur : Option Blit := none
  /-- The mooring index served last (R385). -/
  last : Nat := 16383
  /-- PROD of each BLIT mooring as last read; none before the first read. -/
  seen : Tab Word := []
  /-- CONS of a BLIT mooring whose control block took no write of it (R400). -/
  done : Tab Word := []
  results : BitVec 5 := 0
  fenceBad : Bool := false
  descErr : Bool := false
  blits : Word := 0
  /-- A blit that a fence of TP stopped, to be closed after release (R400). -/
  stopped : Option Blit := none
  deriving DecidableEq, Repr

/-- Island TP. -/
structure Towpath where
  scenes : Tab Scene := []
  when_ : Tab When := []
  evq : Tab Evq := []
  balRun : Bool := true
  moves : BitVec 8 := 0
  busyPct : Tab (BitVec 7) := []
  pushDeferred : BitVec 16 := 0
  /-- The push store's Basin address; 0 before COMMISSION. -/
  pushBase : Nat := 0
  recv : Tab Recv := []
  panel : Panel := {}
  banks : Tab PBank := []
  blt : Blitter := {}
  deriving DecidableEq, Repr

end Sys2Proof.Machine
end

