-- ==== Sys2Proof/Machine/StateSluice.lean ====
section
/-! DEFINITION. The state of island SL (chapter 17): the channels of Sluice, its bursts in
flight, its submission slots and its counters. Every default is the reset value. -/

namespace Sys2Proof.Machine

/-- The states of R664. -/
inductive ChState where
  | empty | running | idleAtTail | stopping | stopped | closed
  deriving DecidableEq, Repr

/-- What a RUNNING channel is at: a fetch of the descriptor in SL_CH_CUR, its bursts, or the
tail re-check (R675, R676). -/
inductive ChStep where
  | fetch | move | recheck
  deriving DecidableEq, Repr

/-- A burst in flight (R672, R673): its offset in transfer order, its addresses and length,
the error it already met while in flight, and its number in the order of issue of all channels
(R242). -/
structure Burst where
  off : Nat
  src : Nat
  dst : Nat
  len : Nat
  err : Option Nat := none
  seq : Nat := 0
  deriving DecidableEq, Repr

/-- A channel (R701). -/
structure Chan where
  state : ChState := .closed
  handle : Word := 0
  moor : Word := 0
  prio : BitVec 2 := 0
  status : Byte := 0
  appendErr : Bool := false
  cur : BitVec 26 := 0
  tail : BitVec 26 := 0
  residue : BitVec 24 := 0
  done : Word := 0
  step : ChStep := .fetch
  /-- The eight words of the descriptor in SL_CH_CUR, as fetched; empty while none is. -/
  desc : List Word := []
  /-- NEXT of the descriptor as the channel holds it (R678). -/
  next : Word := 0
  /-- The offset of the next burst to issue, and the bursts in flight, in issue order. -/
  issued : Nat := 0
  flight : List Burst := []
  /-- The first error in issue order: the offset of its burst, and the STATUS (R694). -/
  err : Option (Nat × Nat) := none
  /-- An ABORT stopped it (R686). -/
  aborted : Bool := false
  /-- RESULT is to be written when it stops (R686, R694, R698). -/
  result : Bool := true
  deriving DecidableEq, Repr

/-- Sluice: channels, submission slots (slot to mooring index), the SL_APPEND_LAST of each
agent, SL_SUBMIT_ERR, the channel served last of each priority (R689), and how many bursts were
issued. -/
structure Sluice where
  chans : Tab Chan := []
  submits : Tab Nat := []
  last : Tab Word := []
  submitErr : Word := 0
  served : Tab Nat := []
  bursts : Nat := 0
  deriving DecidableEq, Repr

end Sys2Proof.Machine
end

