-- ==== Sys2Proof/Machine/StateSound.lean ====
section
/-! DEFINITION. The state of island CV (chapter 11): voices, mixes, routes, ports. Every
default is the reset value. -/

namespace Sys2Proof.Machine

/-- A pending write to a voice register (R448). -/
inductive VWrite where
  | keyOn (keepPhase : Bool)
  | keyOff
  | reg (off : Nat) (v : Word)
  deriving DecidableEq, Repr

/-- The ADPCM decoder (R443): predictor and step index. -/
structure Adpcm where
  pred : Int := 0
  index : Nat := 0
  deriving DecidableEq, Repr

/-- A route of a voice (R454): the mix and the gain code. -/
abbrev Route := Nat × Nat

/-- A voice (R470). -/
structure Voice where
  kind : Nat
  moor : Word
  freq : BitVec 24 := 0
  duty : BitVec 4 := 7
  short : Bool := false
  amp : BitVec 16 := 0
  attack : Byte := 0
  decay : Byte := 0
  sustain : Byte := 0xFF
  release : Byte := 0
  loopStart : BitVec 24 := 0
  loopEn : Bool := false
  /-- 0 IDLE, 1 ATTACK, 2 DECAY, 3 SUSTAIN, 4 RELEASE. -/
  phase : Nat := 0
  level : BitVec 16 := 0
  ended : Bool := false
  ecc : Bool := false
  acc : BitVec 24 := 0
  lfsr : BitVec 15 := 0x7FFF
  /-- Integer and fraction of a sample voice's position (R442). -/
  pos : Nat := 0
  frac : Nat := 0
  dec : Adpcm := {}
  /-- How many data samples the decoder has decoded, and the last two of them. -/
  decoded : Nat := 0
  v0 : Int := 0
  v1 : Int := 0
  /-- The decoder as saved at LOOP_START (R444). -/
  saved : Option Adpcm := none
  /-- Sample data (R195): FORMAT, first page, page count, length in bytes. -/
  fmt : Nat := 0
  pages : Option (Nat × Nat) := none
  bytes : Nat := 0
  /-- Writes that wait for a sample, with the tick at which each arrived (R448). -/
  writes : List (Nat × VWrite) := []
  /-- The route in force, the one it ramps from in this block, and the changes that wait
  for a block boundary, with the tick at which each arrived (R454). -/
  route : Option Route := none
  rampFrom : Option (Option Route) := none
  next : List (Nat × Option Route) := []
  deriving DecidableEq, Repr

/-- The parent of a mix (R452): the index and the gain code. -/
abbrev Parent := Nat × Nat

/-- A mix (R453, R471). -/
structure Mix where
  /-- The station index, or none for a local port slot. -/
  station : Option Nat
  port : Nat := 0
  slot : Nat := 0
  moor : Word := 0
  gain : Byte := 0
  washAudible : Bool := false
  parentEn : Bool := false
  parent : BitVec 11 := 0
  parentGain : Byte := 0
  parentErr : Bool := false
  /-- Silenced by a mode (R464). -/
  silenced : Bool := false
  peak : BitVec 16 := 0
  clips : BitVec 16 := 0
  /-- The mix gain factor in force (code, or 255 while silenced), the one it ramps from,
  and likewise the parent. -/
  gainNow : Byte := 0
  gainFrom : Option Byte := none
  parNow : Option Parent := none
  parFrom : Option (Option Parent) := none
  /-- Targets of gain and parent that wait for a block boundary, with the tick at which each
  arrived (R454). -/
  next : List (Nat × Byte × Option Parent) := []
  /-- The first block that the mix has (R468; DEDUCED for a new mix, log entry 33). -/
  first : Nat := 0
  /-- The samples of the block in progress, the blocks computed that await E(k), and the
  blocks made available and not yet carried (R456, R457), with their numbers. -/
  samples : List Int := []
  done : List (Nat × List Int) := []
  blocks : List (Nat × List Int) := []
  /-- The last block made available, for a local port (R463, R466). -/
  prev : List Int := []
  /-- That block was concealed (R466). -/
  concealed : Bool := false
  deriving DecidableEq, Repr

/-- A local port (R461, R471). -/
structure Port where
  enable : Bool := false
  slots : BitVec 4 := 0
  width : Bool := false
  tdm : Bool := false
  deriving DecidableEq, Repr

/-- Island CV. -/
structure Chervil where
  voices : Tab Voice := []
  mixes : Tab Mix := []
  ports : Tab Port := []
  /-- The next sample to compute, the next block whose boundary is due, and the next block
  to be made available (R437, R456). -/
  sample : Nat := 0
  bound : Nat := 0
  avail : Nat := 0
  block : BitVec 16 := 0
  overrun : Bool := false
  lateBlocks : BitVec 16 := 0
  endedCount : BitVec 16 := 0
  /-- HOLD was entered at this tick, and every voice is keyed off at the next block
  boundary (R48, R464). -/
  keyOffDue : Option Nat := none
  deriving DecidableEq, Repr

end Sys2Proof.Machine
end

