-- ==== Sys2Proof/Machine/State.lean ====
section
/-! DEFINITION. The state of the block: every register, queue, buffer, counter and pin the
specification gives it, the commands that wait, and the state right after reset. -/

namespace Sys2Proof.Machine

/-- The whole machine. -/
structure State where
  /-- The commands that wait, first in, first out. -/
  pending : List Instr := []
  /-- SYS_TICK (R153). -/
  tick : Dword := 0
  /-- How many free values have been drawn (log entry 7). -/
  fresh : Nat := 0
  /-- What has left the device (log entry 2). -/
  out : List Out := []
  pins : Pins := {}
  otp : Otp := {}
  /-- The boot flash, 0xFF where unlisted (R81, log entry 3). -/
  flash : Tab Byte := []
  /-- Slots that a failed flash write has left unverifiable, with the code that their
  verification gives (R198). -/
  flashBad : Tab Nat := []
  sys : Sys := {}
  basin : Basin := {}
  weir : Weir := {}
  islands : Tab Island := []
  rails : Tab Rail := []
  /-- The event staging queue (R249). -/
  staging : List Rec := []
  intc : Intc := {}
  mbx : Tab Mbx := []
  win : Window := {}
  pcie : Pcie := {}
  fw : Fw := {}
  gp : Gpio := {}
  pi : Serial := {}
  tp : Towpath := {}
  tl : Towline := {}
  cv : Chervil := {}
  sl : Sluice := {}
  dh : Decks := {}
  deriving DecidableEq, Repr

/-- No command of this model faults: the specification reports every fault it describes
in the state (R13), so there is no constructor. -/
inductive Fault where
  deriving DecidableEq, Repr

/-- Why a command is refused. -/
inductive Refusal where
  /-- Raised by `exec` for a command that has no meaning yet: safe. -/
  | notModelled (mnemonic : String)
  /-- Raised by `exec` for operands outside what the row can carry (WellFormed): safe. -/
  | illFormed
  deriving DecidableEq, Repr

/-- The machine right after reset: power-on reset is asserted and the boot ROM has not
run (R23, R762). -/
def State.reset : State := {}

end Sys2Proof.Machine
end

