-- ==== Sys2Proof/Machine/Ops.lean ====
section
/-! DEFINITION. The operations every block shares: bit fields, the trace of what leaves
the device, islands, interrupt sources, MSI-X vectors and event records. -/

namespace Sys2Proof.Machine

/-! ### Bit fields (R17) -/

/-- Bits lo to lo + n - 1 of a word. -/
def fld (w : Word) (lo n : Nat) : Nat := (w.toNat >>> lo) % 2 ^ n

/-- One bit of a word. -/
def bit (w : Word) (i : Nat) : Bool := w.getLsbD i

/-- A Boolean as a number. -/
def b2n (b : Bool) : Nat := if b then 1 else 0

/-- A word from (lowest bit, value) pairs. -/
def pack : List (Nat × Nat) → Word
  | [] => 0
  | (lo, v) :: r => BitVec.ofNat 32 (v <<< lo) ||| pack r

/-- A word from a number. -/
def w32 (n : Nat) : Word := BitVec.ofNat 32 n

/-- A word from its four bytes, least significant first (R18). -/
def leWord (b : List Byte) : Word :=
  w32 (b.take 4 |>.foldr (fun x a => a * 256 + x.toNat) 0)

/-- The `n` low bytes of a number, least significant first (R18). -/
def leBytes : Nat → Nat → List Byte
  | 0, _ => []
  | n + 1, v => BitVec.ofNat 8 v :: leBytes n (v / 256)

/-- The number that little-endian bytes spell (R18). -/
def leNat (b : List Byte) : Nat := b.foldr (fun x a => a * 256 + x.toNat) 0

/-- The `n` low bytes of a number, most significant first (R19). -/
def beBytes (n v : Nat) : List Byte := (leBytes n v).reverse

/-- The number that big-endian bytes spell (R19). -/
def beNat (b : List Byte) : Nat := leNat b.reverse

/-- A saturating counter of `n` bits plus `k`. -/
def satAdd {n : Nat} (c : BitVec n) (k : Nat) : BitVec n :=
  BitVec.ofNat n (min (2 ^ n - 1) (c.toNat + k))

/-- A mask of `n` bits with bit `i` set. -/
def oneBit (n i : Nat) : BitVec n := BitVec.ofNat n (2 ^ i)

/-- A mask with bit `i` set or cleared. -/
def setBit {n : Nat} (m : BitVec n) (i : Nat) (b : Bool) : BitVec n :=
  if b then m ||| oneBit n i else m &&& ~~~ oneBit n i

/-- Two's complement reading of the low `n` bits. -/
def signed (n v : Nat) : Int := if v % 2 ^ n < 2 ^ (n - 1) then v % 2 ^ n else (v % 2 ^ n : Int) - 2 ^ n

/-- One byte into the CRC-32 of IEEE 802.3, reflected. -/
def crcByte (c : Word) (b : Byte) : Word :=
  (List.range 8).foldl (fun c _ =>
    if c.getLsbD 0 then (c >>> 1) ^^^ 0xEDB88320 else c >>> 1) (c ^^^ b.setWidth 32)

/-- The CRC-32 of IEEE 802.3 (R165, R405). -/
def crc32 (b : List Byte) : Word := ~~~ (b.foldl crcByte 0xFFFFFFFF)

/-- Append to the trace of what leaves the device. -/
def emit (s : State) (o : Out) : State := { s with out := s.out ++ [o] }

/-- Append several. -/
def emits (s : State) (o : List Out) : State := { s with out := s.out ++ o }

/-- Draw one free value (log entry 7). -/
def drawFree (s : State) : State × BitVec 64 :=
  ({ s with fresh := s.fresh + 1 }, Config.freeValue s.fresh)

/-- The Lockkeeper core meets an error completion as an exception (R13, R565, R566, R790): CODE 7 for
a Basin access and 9 for any other, and the address. Its pc, flags and IE are those of firmware
that the spec does not give: free values (log entry 57). -/
def lkException (s : State) (ad : Nat) (basin store : Bool) : State :=
  let (s, v) := drawFree s
  { s with sys := { s.sys with
      lkEpc := v.truncate 18, lkEstat := pack [(0, (v >>> 32).toNat % 32), (5, 1)],
      lkEcause := pack [(0, if basin then 7 else 9), (8, b2n store)], lkEaddr := w32 ad } }

/-- An error completion reaches the agent that made an access (R13, R42). -/
def errTo (s : State) (a ad : Nat) (basin store : Bool) (e : Err) : State :=
  let s := emit s (.error a e)
  if a = 2 then lkException s ad basin store else s

/-- Ticks since a stamp. -/
def ticksSince (s : State) (t : Dword) : Nat := (s.tick - t).toNat

/-! ### Island numbers (R26) -/

def islLK : Nat := 0
def islTP : Nat := 3
def islCV : Nat := 4
def islSL : Nat := 9
def islHI : Nat := 14
def islPI : Nat := 15
/-- The island of Basin bank `b`. -/
def islBank (b : Nat) : Nat := 5 + b
/-- The island of lane `l`. -/
def islLane (l : Nat) : Nat := 10 + l / 2
/-- The island of Deckhand `n`. -/
def islDeck (n : Nat) : Nat := 1 + n / 4

/-- An island. -/
def isl (s : State) (i : Nat) : Island := s.islands.get {} i
/-- Change an island. -/
def updIsl (s : State) (i : Nat) (f : Island → Island) : State :=
  { s with islands := s.islands.upd {} i f }
/-- An island is neither fenced nor held in reset (R284, IS_FENCE_MAP of R285). -/
def running (s : State) (i : Nat) : Bool := (isl s i).state = .running
/-- Some island other than the Lockkeeper core is fenced (R55, R56, R74); HI does not count while
PERST# is low (R70). -/
def anyFenced (s : State) : Bool :=
  (List.range 15).any (fun i => !running s (i + 1) && (i + 1 ≠ islHI || s.pins.perst))
/-- The island whose outward crossing an agent's requests leave by (R26, R30). Towline's agent sits
in four islands, and debug crosses none. -/
def agentIsland (a : Nat) : Option Nat :=
  if a = 1 then some islHI
  else if a = 2 then some islLK
  else if 3 ≤ a ∧ a ≤ 10 then some (islDeck (a - 3))
  else if a = 11 then some islSL
  else if a = 12 then some islTP
  else if a = 13 then some islCV
  else none
/-- An agent's requests leave its island: a fenced one drops them without a response (R247). -/
def agentOut (s : State) (a : Nat) : Bool := (agentIsland a).all (running s)
/-- An agent's request: dropped where its island is fenced (R247). -/
def issue (s : State) (a : Nat) (f : State → State) : State := if agentOut s a then f s else s
/-- An agent's access to a register at an address: whether the agent reaches it (R793) and whether the
register's island runs (R247) decide between the access and an error completion. -/
def reach (s : State) (agent ad : Nat) (ok up store : Bool) (f : State → State) : State :=
  issue s agent (fun s =>
    if !ok then errTo s agent ad false store .unmapped
    else if !up then errTo s agent ad false store .fenced
    else f s)
/-- Some Basin bank is fenced. -/
def bankFenced (s : State) : Bool := (List.range 4).any (fun b => !running s (islBank b))
/-- IS_FENCE_MAP (R285). -/
def fenceMap (s : State) : Nat :=
  (List.range 16).foldl (fun a i => a + b2n (!running s i) * 2 ^ i) 0

/-- The modes of R91. -/
def mBOOT : BitVec 4 := 0
def mRECOVER : BitVec 4 := 1
def mCOMMISSION : BitVec 4 := 2
def mRUN : BitVec 4 := 3
def mDEGRADED : BitVec 4 := 4
def mWASH : BitVec 4 := 5
def mSERVICE : BitVec 4 := 6
def mHOLD : BitVec 4 := 7

/-! ### Interrupt sources (R633 to R648) -/

/-- The kinds of R633. -/
inductive Kind where
  | edge | level | soft
  deriving DecidableEq, Repr

/-- KIND of a private source (R647, R648). -/
def privKind (t i : Nat) : Kind :=
  if t = 0 then
    if i ≤ 17 then .level else if i = 21 then .soft else .edge
  else if i ≤ 2 then .level else if i = 5 then .soft else .edge

/-- KIND of a shared source (R646, R732). -/
def sharedKind (s : State) (n : Nat) : Kind :=
  if 0x40 ≤ n ∧ n < 0x50 then .level
  else if 0x60 ≤ n ∧ n < 0xA0 then
    if (s.gp.cfg.get 0 (n - 0x60)).getLsbD 6 then .level else .edge
  else if 0xF0 ≤ n then .soft else .edge

/-- A source receives `e` events at once (R634 with a = 0). -/
def Src.events (x : Src) (e : Nat) : Src :=
  { x with count := satAdd x.count e, ovf := x.ovf || 255 < x.count.toNat + e }

/-- The input of a LEVEL source takes a level; a rising edge is one event (R633). -/
def Src.drive (x : Src) (v : Bool) : Src :=
  let y := if v && !x.input then x.events 1 else x
  { y with input := v }

def privSrc (s : State) (t i : Nat) : Src := s.intc.priv.get {} (32 * t + i)
def sharedSrc (s : State) (n : Nat) : Src := s.intc.shared.get {} n
def updPriv (s : State) (t i : Nat) (f : Src → Src) : State :=
  { s with intc := { s.intc with priv := s.intc.priv.upd {} (32 * t + i) f } }
def updShared (s : State) (n : Nat) (f : Src → Src) : State :=
  { s with intc := { s.intc with shared := s.intc.shared.upd {} n f } }

/-- One event on a private source. -/
def raisePriv (s : State) (t i : Nat) : State := updPriv s t i (fun x => x.events 1)
/-- One event on a shared source. -/
def raiseShared (s : State) (n : Nat) : State := updShared s n (fun x => x.events 1)
/-- Drive the input of a private LEVEL source. -/
def drivePriv (s : State) (t i : Nat) (v : Bool) : State := updPriv s t i (fun x => x.drive v)
/-- Drive the input of a shared LEVEL source. -/
def driveShared (s : State) (n : Nat) (v : Bool) : State := updShared s n (fun x => x.drive v)

/-! ### MSI-X (R142, R652, R653) -/

/-- A vector may be sent now (R142). -/
def msixOpen (s : State) (v : Nat) : Bool :=
  s.pcie.busMaster && s.pcie.msixEnable && !s.pcie.funcMask
    && !(s.pcie.table.get {} v).ctrl.getLsbD 0

/-- A message falls due: it sets the pending bit, and is sent when nothing holds it. -/
def msixDue (s : State) (v : Nat) : State :=
  if msixOpen s v then
    let e := s.pcie.table.get {} v
    emit { s with pcie := { s.pcie with pba := setBit s.pcie.pba v false } }
      (.msix v e.addr e.data)
  else { s with pcie := { s.pcie with pba := setBit s.pcie.pba v true } }

/-- Send every pending message whose conditions now hold, lowest vector first. -/
def msixFlush (s : State) : State :=
  (List.range 64).foldl (fun s v =>
    if s.pcie.pba.getLsbD v && msixOpen s v then msixDue s v else s) s

/-- The host agent is in reset (R70, R800). -/
def hostInReset (s : State) : Bool := !s.pins.perst

/-- A vector request reaches the endpoint, or is held while HI is fenced or in reset
(R653). -/
def vectorReq (s : State) (v : Nat) : State :=
  if running s islHI && !hostInReset s then msixDue s v
  else { s with intc := { s.intc with vecHeld := setBit s.intc.vecHeld v true } }

/-- The IC hands each held vector to the endpoint once, in ascending order (R653). -/
def vecRelease (s : State) : State :=
  let h := s.intc.vecHeld
  let s1 := { s with intc := { s.intc with vecHeld := 0 } }
  (List.range 64).foldl (fun s v => if h.getLsbD v then msixDue s v else s) s1

/-! ### Event records (R175 to R180, R249) -/

/-- The handle types of R159. -/
def tSCENE : Nat := 1
def tSTATION : Nat := 2
def tVOICE : Nat := 3
def tMIX : Nat := 4
def tDMA : Nat := 5
def tFENCE : Nat := 6
def tMOORING : Nat := 7
def tSCRIPT : Nat := 8

/-- The present generation of an index (R160). -/
def genOf (s : State) (t i : Nat) : BitVec 12 := s.fw.gens.get 1 (65536 * t + i)
/-- The handle of an index (R159). -/
def handleOf (s : State) (t i : Nat) : Word := pack [(28, t), (16, (genOf s t i).toNat), (0, i)]

/-- The mooring a handle names, or the device mooring for 0 (R177). -/
def moorIndex (s : State) (h : Word) : Option Nat :=
  if h = 0 then s.fw.deviceMoor
  else
    let i := fld h 0 16
    if fld h 28 4 = tMOORING ∧ handleOf s tMOORING i = h ∧ (s.fw.moorings.find? i).isSome
    then some i else none

/-- Change the firmware's state. -/
def onFw (s : State) (f : Fw → Fw) : State := { s with fw := f s.fw }

/-- Write a mooring's record. -/
def setMoor (s : State) (i : Nat) (m : Moor) : State :=
  onFw s (fun f => { f with moorings := f.moorings.put i m })

/-- Count a record of a mooring as dropped without reading its control block: the
firmware keeps the count and adds it to DROPPED later (R249, R804). -/
def keepDrop (s : State) (h : Word) : State :=
  match moorIndex s h with
  | none =>
    if h = 0 then onFw s (fun f => { f with heldDropped := f.heldDropped + 1 }) else s
  | some i =>
    match s.fw.moorings.find? i with
    | none => s
    | some m =>
      setMoor s i { m with kept := m.kept + 1, since := m.since + 1 }

/-- The staging queue's level at the Lockkeeper's private source 17 (R647). -/
def stagingLevel (s : State) : State := drivePriv s 0 17 (!s.staging.isEmpty)

/-- A record as it is staged: that of a command waits for the command's reply (R34). -/
def Rec.staged (r : Rec) (c : Option (Nat × Nat)) : Rec :=
  if r.marker then r else { r with await := c }

/-- Put an item before the first one that is to come later. -/
def insertBefore {α : Type} (later : α → Bool) (x : α) : List α → List α
  | [] => [x]
  | y :: r => if later y then x :: y :: r else y :: insertBefore later x r

/-- Stage a record before those that are to come later; a full queue drops it (R249). -/
def stageBefore (later : Rec → Bool) (s : State) (r : Rec) : State :=
  if r.marker || (s.staging.filter (fun x => !x.marker)).length < 1024 then
    stagingLevel { s with staging := insertBefore later (r.staged s.fw.causer) s.staging }
  else keepDrop s r.moor

/-- Stage a record after all others (R249). -/
def stage (s : State) (r : Rec) : State :=
  if r.marker || (s.staging.filter (fun x => !x.marker)).length < 1024 then
    stagingLevel { s with staging := s.staging ++ [r.staged s.fw.causer] }
  else keepDrop s r.moor

/-- Post an event record of an island, stamped with SYS_TICK (R175, R255). -/
def postRec (s : State) (island type : Nat) (source payload moor : Word) : State :=
  stage s { type := BitVec.ofNat 8 type, island := BitVec.ofNat 4 island,
            epoch := (isl s island).epoch, source := source,
            stamp := s.tick.truncate 32, payload := payload, moor := moor }

/-- Post an event record stamped with a Towline cycle number (R175). -/
def postCycleRec (s : State) (island type : Nat) (source cyc payload moor : Word) : State :=
  stage s { type := BitVec.ofNat 8 type, island := BitVec.ofNat 4 island, cycle := true,
            epoch := (isl s island).epoch, source := source,
            stamp := cyc, payload := payload, moor := moor }

/-- LOOP_WARNING (R200, R286): loop, target, reason, posted by an island. -/
def loopWarning (s : State) (island loop target reason : Nat) : State :=
  postRec s island 0x0A 0 (pack [(0, loop), (4, target), (16, reason)]) 0

/-- POLICY_CONFLICT (R200): loop and target. -/
def policyConflict (s : State) (island loop target : Nat) : State :=
  postRec s island 0x09 0 (pack [(0, loop), (4, target)]) 0

/-- The 16 bytes of a record (R175). -/
def Rec.bytes (r : Rec) : List Byte :=
  leBytes 4 (pack [(0, r.type.toNat), (8, r.island.toNat), (12, b2n r.cycle),
      (16, r.epoch.toNat)]).toNat
    ++ leBytes 4 r.source.toNat ++ leBytes 4 r.stamp.toNat ++ leBytes 4 r.payload.toNat

end Sys2Proof.Machine
end

