-- ==== Sys2Proof/Machine/Crypto.lean ====
section
/-! DEFINITION. The two algorithms that R86 names: SHA-256 and the verification of an ECDSA
signature on the curve P-256 (R86, R89; PRESUMED from their published standards, log entry 8). -/

namespace Sys2Proof.Machine

/-! ### SHA-256 -/

/-- The 64 round constants. -/
def shaK : List Word :=
  [0x428a2f98, 0x71374491, 0xb5c0fbcf, 0xe9b5dba5, 0x3956c25b, 0x59f111f1, 0x923f82a4, 0xab1c5ed5,
   0xd807aa98, 0x12835b01, 0x243185be, 0x550c7dc3, 0x72be5d74, 0x80deb1fe, 0x9bdc06a7, 0xc19bf174]
  ++ [0xe49b69c1, 0xefbe4786, 0x0fc19dc6, 0x240ca1cc, 0x2de92c6f, 0x4a7484aa, 0x5cb0a9dc, 0x76f988da,
   0x983e5152, 0xa831c66d, 0xb00327c8, 0xbf597fc7, 0xc6e00bf3, 0xd5a79147, 0x06ca6351, 0x14292967]
  ++ [0x27b70a85, 0x2e1b2138, 0x4d2c6dfc, 0x53380d13, 0x650a7354, 0x766a0abb, 0x81c2c92e, 0x92722c85,
   0xa2bfe8a1, 0xa81a664b, 0xc24b8b70, 0xc76c51a3, 0xd192e819, 0xd6990624, 0xf40e3585, 0x106aa070]
  ++ [0x19a4c116, 0x1e376c08, 0x2748774c, 0x34b0bcb5, 0x391c0cb3, 0x4ed8aa4a, 0x5b9cca4f, 0x682e6ff3,
   0x748f82ee, 0x78a5636f, 0x84c87814, 0x8cc70208, 0x90befffa, 0xa4506ceb, 0xbef9a3f7, 0xc67178f2]

/-- The eight working words, a to h. -/
structure Sha where
  a : Word := 0x6a09e667
  b : Word := 0xbb67ae85
  c : Word := 0x3c6ef372
  d : Word := 0xa54ff53a
  e : Word := 0x510e527f
  f : Word := 0x9b05688c
  g : Word := 0x1f83d9ab
  h : Word := 0x5be0cd19
  deriving DecidableEq, Repr

/-- Big-endian words from bytes. -/
def beWords : Nat → List Byte → List Word
  | 0, _ => []
  | n + 1, b => w32 (beNat (b.take 4)) :: beWords n (b.drop 4)

/-- The message schedule, newest word first: `n` more words after those listed. -/
def shaSchedule : Nat → List Word → List Word
  | 0, l => l
  | n + 1, l =>
    let x := l.getD 14 0
    let y := l.getD 1 0
    let s0 := x.rotateRight 7 ^^^ x.rotateRight 18 ^^^ (x >>> 3)
    let s1 := y.rotateRight 17 ^^^ y.rotateRight 19 ^^^ (y >>> 10)
    shaSchedule n ((s1 + l.getD 6 0 + s0 + l.getD 15 0) :: l)

/-- One round. -/
def Sha.round (x : Sha) (kw : Word × Word) : Sha :=
  let s1 := x.e.rotateRight 6 ^^^ x.e.rotateRight 11 ^^^ x.e.rotateRight 25
  let ch := (x.e &&& x.f) ^^^ (~~~ x.e &&& x.g)
  let t1 := x.h + s1 + ch + kw.1 + kw.2
  let s0 := x.a.rotateRight 2 ^^^ x.a.rotateRight 13 ^^^ x.a.rotateRight 22
  let maj := (x.a &&& x.b) ^^^ (x.a &&& x.c) ^^^ (x.b &&& x.c)
  { a := t1 + (s0 + maj), b := x.a, c := x.b, d := x.c, e := x.d + t1, f := x.e, g := x.f, h := x.g }

/-- One block of 64 bytes. -/
def Sha.block (x : Sha) (b : List Byte) : Sha :=
  let w := (shaSchedule 48 (beWords 16 b).reverse).reverse
  let y := (shaK.zip w).foldl Sha.round x
  { a := x.a + y.a, b := x.b + y.b, c := x.c + y.c, d := x.d + y.d,
    e := x.e + y.e, f := x.f + y.f, g := x.g + y.g, h := x.h + y.h }

/-- `n` blocks. -/
def shaBlocks : Nat → Sha → List Byte → Sha
  | 0, x, _ => x
  | n + 1, x, b => shaBlocks n (x.block (b.take 64)) (b.drop 64)

/-- A message with its padding: a one bit, zeros, and the length in bits. -/
def shaPad (b : List Byte) : List Byte :=
  b ++ [0x80] ++ List.replicate ((119 - b.length % 64) % 64) 0 ++ beBytes 8 (8 * b.length)

/-- SHA-256 of a byte string (R86). -/
def sha256 (b : List Byte) : List Byte :=
  let p := shaPad b
  let x := shaBlocks (p.length / 64) {} p
  [x.a, x.b, x.c, x.d, x.e, x.f, x.g, x.h].flatMap (fun w => beBytes 4 w.toNat)

/-! ### ECDSA on P-256 -/

/-- The prime of the field. -/
def p256 : Nat := 0xffffffff00000001000000000000000000000000ffffffffffffffffffffffff
/-- The order of the base point. -/
def n256 : Nat := 0xffffffff00000000ffffffffffffffffbce6faada7179e84f3b9cac2fc632551
/-- The constant term of the curve y² = x³ − 3x + b. -/
def b256 : Nat := 0x5ac635d8aa3a93e7b3ebbd55769886bc651d06b0cc53b0f63bce3c3e27d2604b
/-- The base point. -/
def gx256 : Nat := 0x6b17d1f2e12c4247f8bce6e563a440f277037d812deb33a0f4a13945d898c296
def gy256 : Nat := 0x4fe342e2fe1a7f9b8ee7eb4a7c0f9e162bce33576b315ececbb6406837bf51f5

/-- The bits of a number of 256 bits, the most significant first. -/
def bits256 (v : Nat) : List Bool := (List.range 256).reverse.map (fun i => v.testBit i)

/-- A power modulo `m`, of an exponent of 256 bits. -/
def powMod (m x e : Nat) : Nat :=
  (bits256 e).foldl (fun a b => if b then a * a % m * x % m else a * a % m) 1

/-- A point in Jacobian coordinates (x/z², y/z³); z = 0 is the point at infinity. -/
structure Jac where
  x : Nat
  y : Nat
  z : Nat
  deriving DecidableEq, Repr

/-- a − b modulo the prime. -/
def subP (a b : Nat) : Nat := (a + p256 - b) % p256

/-- Twice a point. -/
def Jac.dbl (q : Jac) : Jac :=
  let d := q.z * q.z % p256
  let g := q.y * q.y % p256
  let b := q.x * g % p256
  let al := 3 * (subP q.x d * (q.x + d) % p256) % p256
  let x := subP (al * al % p256) (8 * b % p256)
  let yz := (q.y + q.z) % p256
  { x := x,
    y := subP (al * subP (4 * b % p256) x % p256) (8 * (g * g % p256) % p256),
    z := subP (subP (yz * yz % p256) g) d }

/-- The sum of two points. -/
def Jac.add (q r : Jac) : Jac :=
  if q.z = 0 then r
  else if r.z = 0 then q
  else
    let qq := q.z * q.z % p256
    let rr := r.z * r.z % p256
    let u1 := q.x * rr % p256
    let u2 := r.x * qq % p256
    let s1 := q.y * r.z % p256 * rr % p256
    let s2 := r.y * q.z % p256 * qq % p256
    if u1 = u2 then (if s1 = s2 then q.dbl else { x := 1, y := 1, z := 0 })
    else
      let h := subP u2 u1
      let t := subP s2 s1
      let hh := h * h % p256
      let hhh := h * hh % p256
      let v := u1 * hh % p256
      let x := subP (subP (t * t % p256) hhh) (2 * v % p256)
      { x := x, y := subP (t * subP v x % p256) (s1 * hhh % p256), z := q.z * r.z % p256 * h % p256 }

/-- A multiple of a point. -/
def Jac.mul (q : Jac) (k : Nat) : Jac :=
  (bits256 k).foldl (fun a b => if b then a.dbl.add q else a.dbl) { x := 1, y := 1, z := 0 }

/-- The x coordinate of a point that is not at infinity. -/
def Jac.affX (q : Jac) : Nat :=
  let i := powMod p256 q.z (p256 - 2)
  q.x * (i * i % p256) % p256

/-- A public key names a point of the curve. -/
def onCurve (x y : Nat) : Bool :=
  x < p256 && y < p256
    && decide (y * y % p256 = (subP (x * x % p256 * x % p256) (3 * x % p256) + b256) % p256)

/-- A signature verifies (R86, R89): `key` is X then Y, `sig` r then s, 32 bytes big-endian
each, and `digest` the 32 bytes that were signed. -/
def ecdsaP256 (key sig digest : List Byte) : Bool :=
  let x := beNat (key.take 32)
  let y := beNat (key.drop 32)
  let r := beNat (sig.take 32)
  let t := beNat (sig.drop 32)
  if !onCurve x y || r = 0 || n256 ≤ r || t = 0 || n256 ≤ t then false
  else
    let w := powMod n256 t (n256 - 2)
    let u1 := beNat digest % n256 * w % n256
    let u2 := r * w % n256
    let q := (Jac.mul { x := gx256, y := gy256, z := 1 } u1).add (Jac.mul { x := x, y := y, z := 1 } u2)
    q.z ≠ 0 && decide (q.affX % n256 = r)

end Sys2Proof.Machine
end

