-- ==== Sys2Proof/Machine/Basin.lean ====
section
/-! DEFINITION. Basin (chapter 05): the Hsiao code, the classes of a doubleword, read and
write operations, poison, the requests of the agents, the patrol scrubber, and the mooring
signals that a completed write raises (R649). -/

namespace Sys2Proof.Machine

/-! ### Where an address lies, and the code (R201, R202) -/

/-- The bank of a Basin address (R201). -/
def bankOf (a : Nat) : Nat := a / 256 % 4
/-- The index of an address's doubleword within its bank (R201). -/
def bankIndex (a : Nat) : Nat := (a / 1024 % 65536) * 32 + a / 8 % 32
/-- The Basin address of doubleword `i` of bank `b`: the inverse of R201. -/
def addrOfIndex (b i : Nat) : Nat := i / 32 * 1024 + b * 256 + i % 32 * 8

/-- How many of the 8 low bits are set. -/
def weight8 (v : Nat) : Nat :=
  (List.range 8).foldl (fun a i => a + v / 2 ^ i % 2) 0

/-- The columns H_0 to H_63 of the data bits (R202). -/
def columns : List Byte :=
  ((List.range 256).filter (fun v => weight8 v = 3)
    ++ ((List.range 256).filter (fun v => weight8 v = 5)).take 8).map (BitVec.ofNat 8)

/-- The column of data bit `i` (R202). -/
def column (i : Nat) : Byte := columns.getD i 0

/-- The check bits of a doubleword (R202). -/
def checkBits (d : Dword) : Byte :=
  (List.range 64).foldl (fun a i => if d.getLsbD i then a ^^^ column i else a) 0

/-- What the syndrome of an untagged doubleword says (R203): clean, the data bit to
invert, a check bit alone, or uncorrectable. -/
inductive Class where
  | clean
  | data (i : Nat)
  | check
  | bad
  deriving DecidableEq, Repr

/-- The class of a syndrome (R203). -/
def classify (syn : Byte) : Class :=
  if syn = 0 then .clean
  else if weight8 syn.toNat = 1 then .check
  else match columns.findIdx? (fun c => c = syn) with
    | some i => .data i
    | none => .bad

/-! ### The stored doublewords -/

/-- A stored byte. -/
def byteAt (s : State) (a : Nat) : Byte := Tab.get 0 s.basin.bytes a

/-- Change Basin. -/
def onBasin (s : State) (f : Basin → Basin) : State := { s with basin := f s.basin }

/-- Store bytes from an address on. -/
def pokeList (m : List Host.Cell) : Nat → List Byte → List Host.Cell
  | _, [] => m
  | a, b :: r => pokeList (Tab.set 0 m a b) (a + 1) r

/-- Store bytes from an address on, with no other effect. -/
def poke (s : State) (a : Nat) (b : List Byte) : State :=
  onBasin s (fun x => { x with bytes := pokeList x.bytes a b })

/-- `n` stored bytes from an address on. -/
def peek (s : State) (a n : Nat) : List Byte := (List.range n).map (fun i => byteAt s (a + i))

/-- The data of doubleword `d` (its address divided by 8). -/
def dwData (s : State) (d : Nat) : Dword := BitVec.ofNat 64 (leNat (peek s (8 * d) 8))
/-- The syndrome of doubleword `d` (R203). -/
def dwSynd (s : State) (d : Nat) : Byte := s.basin.synd.get 0 d
/-- The check bits stored with doubleword `d`. -/
def dwCheck (s : State) (d : Nat) : Byte := checkBits (dwData s d) ^^^ dwSynd s d
/-- The tag of doubleword `d`. -/
def dwTag (s : State) (d : Nat) : Tag := s.basin.tags.get {} d
/-- The majority of a tag's three copies (R204). -/
def Tag.vote (t : Tag) : Bool :=
  (t.copies.getLsbD 0 && t.copies.getLsbD 1) || (t.copies.getLsbD 0 && t.copies.getLsbD 2)
    || (t.copies.getLsbD 1 && t.copies.getLsbD 2)

def bankRegs (s : State) (b : Nat) : Bank := s.basin.banks.get {} b
def updBank (s : State) (b : Nat) (f : Bank → Bank) : State :=
  onBasin s (fun x => { x with banks := x.banks.upd {} b f })
def setTag (s : State) (d : Nat) (t : Tag) : State :=
  onBasin s (fun x => { x with tags := x.tags.set {} d t })
def setSynd (s : State) (d : Nat) (v : Byte) : State :=
  onBasin s (fun x => { x with synd := x.synd.set 0 d v })

/-- Doublewords of a bank now poisoned (BS_POISON_COUNT, R241). -/
def poisonCount (s : State) (b : Nat) : Nat :=
  (s.basin.tags.filter (fun p => p.2.vote && bankOf (8 * p.1) = b)).length

/-- Store a doubleword with fresh check bits. -/
def putDw (s : State) (d : Nat) (v : Dword) : State :=
  setSynd (poke s (8 * d) (leBytes 8 v.toNat)) d 0

/-- Two stored data bits of doubleword `d` flip: an uncorrectable error (R202, R203). -/
def strikeDw (s : State) (d : Nat) : State :=
  let syn := dwSynd s d ^^^ column 0 ^^^ column 1
  setSynd (poke s (8 * d) (leBytes 8 (dwData s d ^^^ 3).toNat)) d syn

/-! ### Errors (R204, R206, R207, R241) -/

/-- The bank keeps its last error (R241). -/
def noteErr (s : State) (agent d : Nat) (syn : Byte) (ue : Bool) : State :=
  updBank s (bankOf (8 * d)) (fun b =>
    { b with errAddr := BitVec.ofNat 26 (8 * d), errValid := true, syndrome := syn,
             errUe := ue, errAgent := BitVec.ofNat 4 agent })

/-- A poison tag is set: counted once, recorded once (R206, R207). -/
def poisonDw (s : State) (agent d : Nat) (syn : Byte) : State :=
  let b := bankOf (8 * d)
  let s := setTag s d { copies := 7, counted := true }
  let s := updBank s b (fun x => { x with ueCount := satAdd x.ueCount 1 })
  let s := noteErr s agent d syn true
  raisePriv (postRec s (islBank b) 0x08 0 (w32 (8 * d)) 0) 0 18

/-- A read of a tag: the majority is written back, and a tag found set without a setting
counts as set now (R204). -/
def readTag (s : State) (agent d : Nat) : State × Bool :=
  let t := dwTag s d
  if t.vote then
    if t.counted then (setTag s d { copies := 7, counted := true }, true)
    else (poisonDw s agent d (dwSynd s d), true)
  else (setTag s d {}, false)

/-- The data of a doubleword after correction, with the correction counted and written
back; none where the doubleword is poisoned or uncorrectable, whose tag is then set
(R203, R205). The Boolean tells that a bit was corrected. -/
def fetchDw (s : State) (agent d : Nat) : State × Option Dword × Bool :=
  let (s, t) := readTag s agent d
  if t then (s, none, false)
  else
    let syn := dwSynd s d
    let fix (v : Dword) : State × Option Dword × Bool :=
      let s := noteErr (updBank s (bankOf (8 * d))
        (fun x => { x with ceCount := satAdd x.ceCount 1 })) agent d syn false
      (putDw s d v, some v, true)
    match classify syn with
    | .clean => (s, some (dwData s d), false)
    | .check => fix (dwData s d)
    | .data i => fix (dwData s d ^^^ oneBit 64 i)
    | .bad => (poisonDw s agent d syn, none, false)

/-- A full write (R205), with the inversions of an armed BS_INJECT (R236). -/
def fullWrite (s : State) (d : Nat) (v : Dword) : State :=
  let b := bankOf (8 * d)
  let r := bankRegs s b
  let s := setTag s d {}
  if r.arm then
    let a := if r.enA then oneBit 64 r.dataBitA.toNat else 0
    let c := if r.enB then oneBit 64 r.dataBitB.toNat else 0
    let syn := r.checkFlip ^^^ (if r.enA then column r.dataBitA.toNat else 0)
      ^^^ (if r.enB then column r.dataBitB.toNat else 0)
    updBank (setSynd (putDw s d (v ^^^ a ^^^ c)) d syn) b (fun x => { x with arm := false })
  else putDw s d v

/-- Replace bytes of a doubleword from offset `off` on. -/
def mergeDw (v : Dword) (off : Nat) (b : List Byte) : Dword :=
  let old := leBytes 8 v.toNat
  BitVec.ofNat 64 (leNat (old.take off ++ b ++ old.drop (off + b.length)))

/-- One write operation: full or partial (R202a, R205). False where it is refused. -/
def writeDw (s : State) (agent d off : Nat) (b : List Byte) : State × Bool :=
  if off = 0 ∧ b.length = 8 then (fullWrite s d (BitVec.ofNat 64 (leNat b)), true)
  else
    match fetchDw s agent d with
    | (s, some v, _) => (putDw s d (mergeDw v off b), true)
    | (s, none, _) => (s, false)

/-! ### Requests (R205 to R209) -/

/-- Read the doublewords of a request in ascending order; none if any of them gives an
error (R208). `n` counts the bytes left. -/
def readDws : Nat → State → Nat → Nat → Nat → State × Option (List Byte)
  | 0, s, _, _, _ => (s, some [])
  | fuel + 1, s, agent, a, n =>
    if n = 0 then (s, some [])
    else
      let off := a % 8
      let k := min (8 - off) n
      let (s, v, _) := fetchDw s agent (a / 8)
      let (s, rest) := readDws fuel s agent (a + k) (n - k)
      match v, rest with
      | some v, some r => (s, some (((leBytes 8 v.toNat).drop off).take k ++ r))
      | _, _ => (s, none)

/-- Write the doublewords of a request in ascending order; the list holds the doublewords
whose operation was performed, the Boolean that none was refused (R209). -/
def writeDws : Nat → State → Nat → Nat → List Byte → State × List Nat × Bool
  | 0, s, _, _, _ => (s, [], true)
  | fuel + 1, s, agent, a, b =>
    if b.isEmpty then (s, [], true)
    else
      let off := a % 8
      let k := min (8 - off) b.length
      let (s, ok) := writeDw s agent (a / 8) off (b.take k)
      let (s, done, okr) := writeDws fuel s agent (a + k) (b.drop k)
      (s, if ok then a / 8 :: done else done, ok && okr)

/-- A read request within one granule. -/
def readReq (s : State) (agent a n : Nat) : State × Except Err (List Byte) :=
  if !running s (islBank (bankOf a)) then (s, .error .fenced)
  else
    match readDws n s agent a n with
    | (s, some b) => (s, .ok b)
    | (s, none) => (s, .error .ecc)

/-- The event of one watched mooring (R649). -/
def signalMoor (s : State) (w : Watch) : State :=
  let c := w.consumer.toNat
  if c = 1 then vectorReq s w.signal.toNat
  else if 2 ≤ c ∧ c ≤ 10 then raisePriv s (c - 2) w.signal.toNat
  else s

/-- The mooring signals of a completed write: of bytes a to a + n - 1, in the doublewords
that were performed (R649). -/
def signalWrite (s : State) (a n : Nat) (done : List Nat) : State :=
  (s.intc.watch.filter (fun p =>
      done.contains (p.2.cb.toNat / 8) && a < p.2.cb.toNat + 4 && p.2.cb.toNat < a + n)).foldl
    (fun s p => signalMoor s p.2) s

/-- A write request within one granule; an error where its bank is fenced or where any
doubleword refused it. -/
def writeReq (s : State) (agent a : Nat) (b : List Byte) : State × Option Err :=
  if !running s (islBank (bankOf a)) then (s, some .fenced)
  else
    let (s, done, ok) := writeDws b.length s agent a b
    (signalWrite s a b.length done, if ok then none else some .ecc)

/-- Read any run of bytes as requests of one granule each; the first error is reported. -/
def readMany : Nat → State → Nat → Nat → Nat → State × Except Err (List Byte)
  | 0, s, _, _, _ => (s, .ok [])
  | fuel + 1, s, agent, a, n =>
    if n = 0 then (s, .ok [])
    else
      let k := min (256 - a % 256) n
      let (s, v) := readReq s agent a k
      let (s, rest) := readMany fuel s agent (a + k) (n - k)
      match v, rest with
      | .ok v, .ok r => (s, .ok (v ++ r))
      | .error e, _ => (s, .error e)
      | .ok _, .error e => (s, .error e)

/-- Read a run of bytes. -/
def readMem (s : State) (agent a n : Nat) : State × Except Err (List Byte) :=
  readMany (n / 256 + 2) s agent a n

/-- Write any run of bytes as requests of one granule each; the first error is reported. -/
def writeMany : Nat → State → Nat → Nat → List Byte → State × Option Err
  | 0, s, _, _, _ => (s, none)
  | fuel + 1, s, agent, a, b =>
    if b.isEmpty then (s, none)
    else
      let k := min (256 - a % 256) b.length
      let (s, e) := writeReq s agent a (b.take k)
      let (s, er) := writeMany fuel s agent (a + k) (b.drop k)
      (s, e.or er)

/-- Write a run of bytes. -/
def writeMem (s : State) (agent a : Nat) (b : List Byte) : State × Option Err :=
  writeMany (b.length / 256 + 2) s agent a b

/-- Read one 32-bit word of Basin. -/
def readWord (s : State) (agent a : Nat) : State × Option Word :=
  match readReq s agent a 4 with
  | (s, .ok b) => (s, some (leWord b))
  | (s, .error _) => (s, none)

/-! ### The commands -/

/-- BASIN_READ_REQUEST (R205, R208, R229): the request lies in one granule. -/
def execBasinReadRequest (agent : Agent) (addr : BasinAddr) (len : Nat) (s : State) :
    Host.Outcome State Fault Refusal :=
  if 1 ≤ len ∧ addr.val % 256 + len ≤ 256 then
    .next (issue s agent (fun s => match readReq s agent addr len with
      | (s, .ok b) => emit s (.bytes agent b)
      | (s, .error e) => errTo s agent addr true false e))
  else .refused .illFormed

/-- BASIN_WRITE_REQUEST (R205, R209, R229). -/
def execBasinWriteRequest (agent : Agent) (addr : BasinAddr) (data : List Byte) (s : State) :
    Host.Outcome State Fault Refusal :=
  if 1 ≤ data.length ∧ addr.val % 256 + data.length ≤ 256 then
    .next (issue s agent (fun s => match writeReq s agent addr data with
      | (s, none) => s
      | (s, some e) => errTo s agent addr true true e))
  else .refused .illFormed

/-- The scrubber of a running bank reads its next doubleword (R210, R211, R235). -/
def scrubStep (s : State) (b : Nat) : State :=
  if running s (islBank b) then
    let p := (bankRegs s b).scrubPos
    let (s, _) := fetchDw s 0 (addrOfIndex b p.toNat / 8)
    updBank s b (fun x => { x with scrubPos := x.scrubPos + 1,
                                   passes := if p = BitVec.allOnes 21 then x.passes + 1 else x.passes })
  else s

/-- SCRUB_READ (R211). -/
def execScrubRead (bank : Fin 4) (s : State) : Host.Outcome State Fault Refusal :=
  .next (scrubStep s bank)

end Sys2Proof.Machine
end

