-- ==== Sys2Proof/Machine/Weir.lean ====
section
/-! DEFINITION. Weir (chapter 05): compare-and-swap, swap, the lock cells, priority
inheritance, and what a reset of an agent or a fence of BS0 does to them. -/

namespace Sys2Proof.Machine

/-- The agents that have a Weir context and may use lock cells (R214, R220). -/
def weirAgent (a : Nat) : Bool := (2 ≤ a && a ≤ 10) || a = 15

def onWeir (s : State) (f : Weir → Weir) : State := { s with weir := f s.weir }
def ctxOf (s : State) (a : Nat) : WeirCtx := s.weir.ctx.get {} a
def updCtx (s : State) (a : Nat) (f : WeirCtx → WeirCtx) : State :=
  onWeir s (fun w => { w with ctx := w.ctx.upd {} a f })
def cellOf (s : State) (n : Nat) : LockCell := s.weir.cells.get {} n
def setCell (s : State) (n : Nat) (c : LockCell) : State :=
  onWeir s (fun w => { w with cells := w.cells.set {} n c })

/-! ### Priority inheritance (R226, R227) -/

/-- The highest priority among the waiters of a cell. -/
def topWaiter (s : State) (c : LockCell) : Nat :=
  (List.range 16).foldl (fun m a =>
    if c.waiters.getLsbD a then max m (ctxOf s a).prio.toNat else m) 0

/-- A cell an agent owns has a waiter above the agent's own priority. -/
def outranked (s : State) (a : Nat) (c : LockCell) : Bool :=
  c.owner.toNat = a && (ctxOf s a).prio.toNat < topWaiter s c

/-- The cells that make an agent's WR_INHERIT valid (R226). -/
def inheritCells (s : State) (a : Nat) : List (Nat × LockCell) :=
  s.weir.cells.filter (fun p => outranked s a p.2)

/-- PRIO and CELL of an agent's WR_INHERIT; none when it is not VALID (R226). -/
def inherit? (s : State) (a : Nat) : Option (Nat × Nat) :=
  let l := inheritCells s a
  let p := l.foldl (fun m q => max m (topWaiter s q.2)) 0
  match l.find? (fun q => topWaiter s q.2 = p) with
  | none => none
  | some q => if a = 0 then none else some (p, q.1)

/-- The level of the inheritance signal, held low while BS0 is fenced (R227, R247). -/
def inheritLevel (s : State) (a : Nat) : Bool :=
  running s (islBank 0) && (inherit? s a).isSome

/-- Drive the inheritance signals of the Lockkeeper and the Deckhands (R227). -/
def weirSettle (s : State) : State :=
  (List.range 8).foldl (fun s n => drivePriv s (n + 1) 1 (inheritLevel s (n + 3)))
    (drivePriv s 0 16 (inheritLevel s 2))

/-! ### Weir operations (R215 to R218) -/

/-- End an operation: its result, OLD and whether a bit was corrected. -/
def weirEnd (s : State) (a : Nat) (op : Bool) (res : Nat) (old : Dword) (corr : Bool) : State :=
  updCtx s a (fun c => { c with busy := none, result := BitVec.ofNat 4 res, old := old,
                                corrected := corr, op := op })

/-- Start an operation, or refuse it (R215, R217). OP 1 is `op = true`. -/
def weirStart (s : State) (a : Nat) (op : Bool) : State :=
  let c := ctxOf s a
  let ad := c.addr.toNat
  if ad % 8 ≠ 0 then weirEnd s a op 4 0 false
  else if 3 ≤ a ∧ a ≤ 10 ∧ ad < 0x00400000 then weirEnd s a op 5 0 false
  else if !running s (islBank (bankOf ad)) then weirEnd s a op 3 0 false
  else updCtx s a (fun c => { c with busy := some (op, ad, c.cmp, c.new) })

/-- A word into the low half of a doubleword. -/
def loWord (d : Dword) (v : Word) : Dword := (d >>> 32 <<< 32) ||| v.setWidth 64
/-- A word into the high half of a doubleword. -/
def hiWord (d : Dword) (v : Word) : Dword := (d.setWidth 32).setWidth 64 ||| (v.setWidth 64 <<< 32)

/-- A write of a context register reaches Weir (R237). -/
def ctxStore (s : State) (a o : Nat) (v : Word) : State :=
  if o = 0x200 then weirSettle (updCtx s a (fun c => { c with prio := v.setWidth 4 }))
  else updCtx s a (fun c =>
    if o = 0x100 then { c with addr := v.setWidth 26 }
    else if o = 0x104 then { c with cmp := loWord c.cmp v }
    else if o = 0x108 then { c with cmp := hiWord c.cmp v }
    else if o = 0x10C then { c with new := loWord c.new v }
    else if o = 0x110 then { c with new := hiWord c.new v }
    else c)

/-- A request of an agent to its context waits behind those that wait already, and a write to
WR_CAS_GO while the previous operation is in progress (R218, R242). -/
def weirTake (s : State) (a : Nat) (r : WeirReq) : State :=
  let c := ctxOf s a
  let hold := !c.waits.isEmpty || (c.busy.isSome && (match r with
    | .go _ => true
    | .write _ _ => false))
  if hold then updCtx s a (fun c => { c with waits := c.waits ++ [r] })
  else match r with
    | .go op => weirStart s a op
    | .write o v => ctxStore s a o v

/-- A write to WR_CAS_GO. -/
def weirGo (s : State) (a : Nat) (op : Bool) : State := weirTake s a (.go op)

/-- The operation in the target's bank (R215, R216). -/
def weirPerform (s : State) (a : Nat) (op : Bool) (ad : Nat) (cmp new : Dword) : State :=
  if !running s (islBank (bankOf ad)) then weirEnd s a op 3 0 false
  else
    let d := ad / 8
    match fetchDw s a d, op with
    | (s, none, _), false => weirEnd s a op 2 0 false
    | (s, none, _), true => weirEnd (signalWrite (fullWrite s d new) ad 8 [d]) a op 6 0 false
    | (s, some v, corr), false =>
      if v = cmp then weirEnd (signalWrite (fullWrite s d new) ad 8 [d]) a op 0 v corr
      else weirEnd s a op 1 v corr
    | (s, some v, corr), true => weirEnd (signalWrite (fullWrite s d new) ad 8 [d]) a op 0 v corr

/-- The requests that waited behind an operation go on, in order, up to a write to WR_CAS_GO that
waits for another (R218, R242). -/
def weirResume (s : State) (a : Nat) : State :=
  let l := (ctxOf s a).waits
  l.foldl (fun s r => weirTake s a r) (updCtx s a (fun c => { c with waits := [] }))

/-- Complete the operation of a context, and go on with what waited for it (R218). -/
def weirDone (s : State) (a : Nat) : State :=
  match (ctxOf s a).busy with
  | none => s
  | some (op, ad, cmp, new) => weirResume (weirPerform s a op ad cmp new) a

/-- Complete `n` operations of a context. -/
def weirDrain : Nat → State → Nat → State
  | 0, s, _ => s
  | n + 1, s, a => weirDrain n (weirDone s a) a

/-- A read of OLD or STATUS waits until the context's last operation is complete (R218):
the operations in progress and waiting complete first. -/
def weirWait (s : State) (a : Nat) : State := weirDrain ((ctxOf s a).waits.length + 1) s a

/-- Any other access of an agent to Weir comes after its requests that wait (R242). -/
def weirCatch (s : State) (a : Nat) : State :=
  if (ctxOf s a).waits.isEmpty then s else weirWait s a

/-- A fence of BS0: every operation in progress ends FENCED (R232), and every request that waits
is dropped with an error completion (R244, R247). -/
def weirFence (s : State) : State :=
  (List.range 16).foldl (fun s a =>
    match (ctxOf s a).busy with
    | none => s
    | some (op, _) =>
      let l := (ctxOf s a).waits
      emits (updCtx (weirEnd s a op 3 0 false) a (fun c => { c with waits := [] }))
        (l.map (fun _ => .error a .fenced))) s

/-- A write to WR_CAS_GO by an agent (R214, R232). -/
def casGo (s : State) (a : Nat) (op : Bool) : State :=
  issue s a (fun s =>
    if !running s (islBank 0) then errTo s a 0x26000114 false true .fenced
    else if !weirAgent a then s
    else weirGo s a op)

/-! ### Lock cells (R220 to R225, R230) -/

/-- The agents in the order of R224, from the one after `from_` on, wrapping from 15
to 2. -/
def lockOrder (from_ : Nat) : List Nat :=
  (List.range 14).map (fun i => (from_ - 2 + 1 + i) % 14 + 2)

/-- The waiter that a release or a lapse chooses (R224). -/
def chooseWaiter (s : State) (waiters : BitVec 16) (from_ : Nat) : Option Nat :=
  let l := (lockOrder from_).filter (fun a => waiters.getLsbD a)
  let top := l.foldl (fun m a => max m (ctxOf s a).prio.toNat) 0
  l.find? (fun a => (ctxOf s a).prio.toNat = top)

/-- Hand a cell on after a release or a lapse by an agent (R224, R225). -/
def handOn (s : State) (n from_ : Nat) (c : LockCell) : State :=
  match chooseWaiter s c.waiters from_ with
  | none => setCell s n { c with owner := 0, reservee := 0 }
  | some a => setCell s n { c with owner := 0, reservee := BitVec.ofNat 4 a }

/-- Release a held cell (R223, R224); `broken` when by the reset of its owner (R230). -/
def releaseCell (s : State) (n by_ : Nat) (broken : Bool) : State :=
  handOn s n by_ { cellOf s n with broken := broken }

/-- A reservation lapses (R225). -/
def lapseCell (s : State) (n : Nat) : State :=
  let c := cellOf s n
  let r := c.reservee.toNat
  if r = 0 then s else handOn s n r { c with waiters := setBit c.waiters r false }

/-- What a read of WR_LOCK(n) returns, and what it does (R220, R228). -/
def lockRead (s : State) (a n : Nat) : State × Word :=
  let c := cellOf s n
  let o := c.owner.toNat
  let r := c.reservee.toNat
  if o = 0 ∧ (r = 0 ∨ r = a) then
    (setCell s n { c with owner := BitVec.ofNat 4 a, reservee := 0,
                          waiters := setBit c.waiters a false }, 0)
  else if o = a then (s, w32 o)
  else
    let s := setCell s n { c with waiters := setBit c.waiters a true }
    if o = 0 then (s, pack [(0, r), (4, 1)]) else (s, w32 o)

/-- A write to WR_LOCK(n) (R223). -/
def lockWrite (s : State) (a n : Nat) : State :=
  let c := cellOf s n
  if c.owner ≠ 0 ∧ (c.owner.toNat = a ∨ a = 15) then releaseCell s n a false
  else if c.owner = 0 ∧ c.reservee ≠ 0 ∧ a = 15 then lapseCell s n
  else s

/-- An access to a lock cell's register by an agent (R214, R232, R793). -/
def lockReadReg (s : State) (a n : Nat) : State × Except Err Word :=
  if !running s (islBank 0) then (s, .error .fenced)
  else if !weirAgent a then (s, .error .unmapped)
  else let (s, w) := lockRead (weirCatch s a) a n; (weirSettle s, .ok w)

def lockWriteReg (s : State) (a n : Nat) : State × Option Err :=
  if !running s (islBank 0) then (s, some .fenced)
  else if !weirAgent a then (s, some .unmapped)
  else (weirSettle (lockWrite (weirCatch s a) a n), none)

/-- A reset of an agent releases its cells as BROKEN, ends its waiting, and passes its
reservations on (R230). -/
def weirAgentReset (s : State) (a : Nat) : State :=
  let keys := s.weir.cells.map (·.1)
  let s := keys.foldl (fun s n =>
    let c := cellOf s n
    setCell s n { c with waiters := setBit c.waiters a false }) s
  let s := keys.foldl (fun s n =>
    let c := cellOf s n
    if c.owner.toNat = a ∧ a ≠ 0 then releaseCell s n a true
    else if c.reservee.toNat = a ∧ a ≠ 0 then lapseCell s n
    else s) s
  weirSettle s

/-! ### The commands -/

/-- WEIR_CAS (R215). -/
def execWeirCas (agent : Agent) (s : State) : Host.Outcome State Fault Refusal :=
  .next (casGo s agent false)

/-- WEIR_SWAP (R215, R216). -/
def execWeirSwap (agent : Agent) (s : State) : Host.Outcome State Fault Refusal :=
  .next (casGo s agent true)

/-- WEIR_OPERATION_DONE (R215, R216, R218); nothing is in progress while BS0 is fenced
(R232). -/
def execWeirOperationDone (agent : Agent) (s : State) : Host.Outcome State Fault Refusal :=
  .next (weirDone s agent)

/-- Answer a register read to the agent. -/
def answer (a ad : Nat) : State × Except Err Word → State
  | (s, .ok w) => emit s (.word a w)
  | (s, .error e) => errTo s a ad false false e

/-- Answer a register write to the agent: only an error is seen. -/
def answerW (a ad : Nat) : State × Option Err → State
  | (s, none) => s
  | (s, some e) => errTo s a ad false true e

/-- LOCK_CELL_READ (R220). -/
def execLockCellRead (agent : Agent) (cell : Fin 1024) (s : State) :
    Host.Outcome State Fault Refusal :=
  .next (issue s agent (fun s => answer agent (0x26010000 + 8 * cell) (lockReadReg s agent cell)))

/-- LOCK_CELL_WRITE (R223, R224). -/
def execLockCellWrite (agent : Agent) (cell : Fin 1024) (s : State) :
    Host.Outcome State Fault Refusal :=
  .next (issue s agent (fun s => answerW agent (0x26010000 + 8 * cell) (lockWriteReg s agent cell)))

/-- RESERVATION_LAPSE (R225); Weir stops while BS0 is fenced (R43). -/
def execReservationLapse (cell : Fin 1024) (s : State) : Host.Outcome State Fault Refusal :=
  .next (if running s (islBank 0) then weirSettle (lapseCell s cell) else s)

/-- WAITER_LAPSE (R221). -/
def execWaiterLapse (agent : Agent) (cell : Fin 1024) (s : State) :
    Host.Outcome State Fault Refusal :=
  .next (if running s (islBank 0) then
      let c := cellOf s cell
      weirSettle (setCell s cell { c with waiters := setBit c.waiters agent false })
    else s)

end Sys2Proof.Machine
end

