-- ==== Sys2Proof/Machine/Mailbox.lean ====
section
/-! DEFINITION. The mailboxes, their locks and what a reset of an agent does to them
(chapter 03, R96 to R129, R799), with the firmware's reply queue (R156). -/

namespace Sys2Proof.Machine

def mbxOf (s : State) (m : Nat) : Mbx := s.mbx.get {} m
def updMbx (s : State) (m : Nat) (f : Mbx → Mbx) : State :=
  { s with mbx := s.mbx.upd {} m f }

/-- The one agent of a side, where there is only one (R96). -/
def onlyAgent (m : Nat) (sideB : Bool) : Option Nat :=
  if m < 8 then some (if sideB then 2 else 1)
  else if m < 16 then some (if sideB then m - 8 + 3 else 2)
  else none

/-- Whether an agent may use a side (R96, R97). -/
def sideAllows (m : Nat) (sideB : Bool) (a : Nat) : Bool :=
  a = 15 || match onlyAgent m sideB with
    | some b => a = b
    | none => 2 ≤ a && a ≤ 10

/-- The host's request reaches the device: HI runs, PERST# is high, and the function is
not in D3hot (R137, R143). -/
def hostReach (s : State) : Bool := running s islHI && !hostInReset s && !s.pcie.d3hot

/-- An access of agent 1 that no BAR0 offset of R144 leads to, or that does not reach the
endpoint at all, touches nothing. -/
def hostMisses (s : State) (a m : Nat) (sideB : Bool) : Bool :=
  a = 1 && (!hostReach s || 8 ≤ m || sideB)

def sideOf (x : Mbx) (sideB : Bool) : Side := if sideB then x.sideB else x.sideA
def Mbx.setSide (x : Mbx) (sideB : Bool) (v : Side) : Mbx :=
  if sideB then { x with sideB := v } else { x with sideA := v }
/-- The queue a side transmits on (R96): AB from side A, BA from side B. -/
def txQueue (x : Mbx) (sideB : Bool) : Queue := if sideB then x.ba else x.ab
def Mbx.setTx (x : Mbx) (sideB : Bool) (q : Queue) : Mbx :=
  if sideB then { x with ba := q } else { x with ab := q }

/-- A side's interrupt is asserted (R109). -/
def sideIrq (s : State) (m : Nat) (sideB : Bool) : Bool :=
  let x := sideOf (mbxOf s m) sideB
  x.status &&& x.enable != 0

/-- Drive the interrupt of a side to its target (R109). Side A of MB0 to MB7 goes to the
host by messages. -/
def driveSide (s : State) (m : Nat) (sideB : Bool) : State :=
  let v := sideIrq s m sideB
  if m < 8 then (if sideB then drivePriv s 0 m v else s)
  else if m < 16 then (if sideB then drivePriv s (m - 8 + 1) 0 v else drivePriv s 0 m v)
  else driveShared s (0x40 + 2 * (m - 16) + b2n sideB) v

/-- Set one bit of a side's MB_IRQ_STATUS; on the host side an enabled bit that goes
from 0 to 1 sends one message (R110). -/
def flagSide (s : State) (m : Nat) (sideB : Bool) (i : Nat) : State :=
  let x := sideOf (mbxOf s m) sideB
  let rise := !x.status.getLsbD i && x.enable.getLsbD i
  let s := updMbx s m (fun y => y.setSide sideB { x with status := setBit x.status i true })
  if m < 8 ∧ sideB = false then (if rise then vectorReq s m else s) else driveSide s m sideB

/-- Bits of MB_IRQ_STATUS (R149). -/
def iRX_MSG : Nat := 0
def iTX_EMPTY : Nat := 1
def iABORT : Nat := 2
def iOVERFLOW : Nat := 3
def iSTAMP_CLASH : Nat := 4
def iUNDERFLOW : Nat := 5
def iACCESS_ERR : Nat := 6
def iLOCK_BROKEN : Nat := 7

/-- Free word slots of a queue (R146). -/
def Queue.free (q : Queue) : Nat := 8 - (q.words.length + q.opened.length)

/-- The stamp of the open message (R146); none if there is none. -/
def Queue.openStamp (q : Queue) : Option (BitVec 4) := q.opened.head?.map (·.stamp)

/-- A lost word: its writer joins the discard set unless the word ends the message. -/
def Queue.lose (q : Queue) (a : Nat) (eom : Bool) : Queue :=
  if eom then q else { q with discard := setBit q.discard a true }

/-- A word enters a side's transmit queue (R100, R102, R119 to R121). DESIGN CHOICE: a word that
meets another agent's open message in a full queue is a stamp clash alone (log entry 54). -/
def enqueue (s : State) (a m : Nat) (sideB : Bool) (v : Word) (eom : Bool) : State :=
  let x := mbxOf s m
  let q := txQueue x sideB
  let put (q : Queue) : State := updMbx s m (fun y => y.setTx sideB q)
  if q.discard.getLsbD a then
    put (if eom then { q with discard := setBit q.discard a false } else q)
  else if q.openStamp.isSome && q.openStamp ≠ some (BitVec.ofNat 4 a) then
    flagSide (put (q.lose a eom)) m sideB iSTAMP_CLASH
  else if q.free = 0 then
    flagSide (put ({ q with opened := [] }.lose a eom)) m sideB iOVERFLOW
  else
    let w : QWord := { data := v, stamp := BitVec.ofNat 4 a, eom := eom }
    if eom then
      flagSide (put { q with words := q.words ++ q.opened ++ [w], opened := [] }) m (!sideB) iRX_MSG
    else put { q with opened := q.opened ++ [w] }

/-! ### Replies (R155, R156) -/

/-- The firmware can place a reply of `n` words in a mailbox now. -/
def replyFits (s : State) (m n : Nat) : Bool :=
  let q := (mbxOf s m).ba
  n ≤ q.free && q.opened.isEmpty && !q.discard.getLsbD 2

/-- Place a reply's words, the last with EOM (R156). -/
def placeReply : State → Nat → List Word → State
  | s, _, [] => s
  | s, m, [w] => enqueue s 2 m true w true
  | s, m, w :: r => placeReply (enqueue s 2 m true w false) m r

/-- The first kept reply of a mailbox, and the others. -/
def takeReply : List (Nat × List Word) → Nat → Option (List Word × List (Nat × List Word))
  | [], _ => none
  | (k, w) :: r, m =>
    if k = m then some (w, r)
    else (takeReply r m).map (fun p => (p.1, (k, w) :: p.2))

/-- Place the oldest kept reply of a mailbox if it fits now. -/
def flushReply (s : State) (m : Nat) : State :=
  match takeReply s.fw.replies m with
  | none => s
  | some (w, r) =>
    if replyFits s m w.length then
      placeReply (onFw s (fun f =>
        { f with replies := r, placed := f.placed.upd 0 m (fun n => n + 1) })) m w
    else s

/-- Place the kept replies of a mailbox as far as they fit now: what answers the host runs. -/
def flushReplies (s : State) (m : Nat) : State :=
  if m < 8 && running s islLK then (List.range 8).foldl (fun s _ => flushReply s m) s else s

/-- Send a reply: at once where it fits and no earlier one is kept, else in order. -/
def sendReply (s : State) (m : Nat) (w : List Word) : State :=
  flushReply (onFw s (fun f => { f with replies := f.replies ++ [(m, w)] })) m

/-- A write to MB_TX_DATA or MB_TX_DOORBELL by an agent (R98, R118). A word of debug on the
firmware's side may let a kept reply go (R156). -/
def txWrite (s : State) (a m : Nat) (sideB aligned : Bool) (v : Word) (eom : Bool) : State :=
  if hostMisses s a m sideB then s
  else if aligned && sideAllows m sideB a then
    let s := enqueue s a m sideB v eom
    if sideB then flushReplies s m else s
  else flagSide s m sideB iACCESS_ERR

/-! ### Receiving (R106 to R108) -/

/-- The word a read of MB_RX_DATA returns, and what it does. -/
def rxPop (s : State) (m : Nat) (sideB : Bool) : State × Word :=
  let x := mbxOf s m
  let q := txQueue x (!sideB)
  let d := sideOf x sideB
  match q.words with
  | [] =>
    let s := updMbx s m (fun y => y.setSide sideB { d with metaValid := false })
    (flagSide s m sideB iUNDERFLOW, 0)
  | w :: r =>
    let s := updMbx s m (fun y =>
      (y.setTx (!sideB) { q with words := r }).setSide sideB
        { d with metaStamp := w.stamp, metaEom := w.eom, metaValid := true })
    let s := if r.isEmpty && q.opened.isEmpty then flagSide s m (!sideB) iTX_EMPTY else s
    (if sideB then s else flushReplies s m, w.data)

/-- A read of MB_RX_DATA by an agent (R98, R118); none where nothing answers the host. -/
def rxRead (s : State) (a m : Nat) (sideB aligned : Bool) : State × Option Word :=
  if a = 1 && !hostReach s then (s, none)
  else if hostMisses s a m sideB then (s, some 0)
  else if aligned && sideAllows m sideB a then
    let (s, w) := rxPop s m sideB
    (s, some w)
  else (flagSide s m sideB iACCESS_ERR, some 0)

/-! ### The lock (R112 to R115, R799) -/

/-- An agent that may use the lock of a mailbox (R799). -/
def lockAllows (m a : Nat) : Bool := sideAllows m false a || sideAllows m true a

/-- An access to the lock that R799 does not allow. -/
def lockErr (s : State) (m : Nat) : State :=
  flagSide (flagSide s m false iACCESS_ERR) m true iACCESS_ERR

/-- A read of MB_LOCK (R112). -/
def mbLockRead (s : State) (a m : Nat) (aligned : Bool) : State × Option Word :=
  if a = 1 && !hostReach s then (s, none)
  else if a = 1 && 8 ≤ m then (s, some 0)
  else if aligned && lockAllows m a then
    let o := (mbxOf s m).lock
    if o = 0 then (updMbx s m (fun y => { y with lock := BitVec.ofNat 4 a }), some 0)
    else (s, some (o.setWidth 32))
  else (lockErr s m, some 0)

/-- A write to MB_LOCK (R113). -/
def mbLockWrite (s : State) (a m : Nat) (aligned : Bool) : State :=
  if a = 1 && (!hostReach s || 8 ≤ m) then s
  else if aligned && lockAllows m a then
    let o := (mbxOf s m).lock.toNat
    if o = a ∨ a = 15 then updMbx s m (fun y => { y with lock := 0 }) else s
  else lockErr s m

/-- A write to MB_IRQ_EN of a side (R110). -/
def irqEnWrite (s : State) (a m : Nat) (sideB aligned : Bool) (v : Word) : State :=
  if hostMisses s a m sideB then s
  else if aligned && sideAllows m sideB a then
    let x := sideOf (mbxOf s m) sideB
    let en : BitVec 8 := v.setWidth 8
    let s := updMbx s m (fun y => y.setSide sideB { x with enable := en })
    if m < 8 ∧ sideB = false then
      (if en &&& ~~~ x.enable &&& x.status != 0 then vectorReq s m else s)
    else driveSide s m sideB
  else flagSide s m sideB iACCESS_ERR

/-! ### Reset of an agent (R123 to R127) -/

/-- One queue when an agent is reset: emptied if the agent alone receives it (R124), its
open message dropped if the agent wrote it, the agent out of the discard set (R125). -/
def resetQueue (s : State) (a m : Nat) (sideB : Bool) : State :=
  let q := txQueue (mbxOf s m) sideB
  let q := if q.openStamp = some (BitVec.ofNat 4 a) then { q with opened := [] } else q
  let q := { q with discard := setBit q.discard a false }
  if onlyAgent m (!sideB) = some a then
    let d := match q.openStamp with
      | some o => setBit q.discard o.toNat true
      | none => q.discard
    flagSide (updMbx s m (fun y => y.setTx sideB { words := [], opened := [], discard := d }))
      m sideB iABORT
  else updMbx s m (fun y => y.setTx sideB q)

/-- The registers of a side whose only agent is reset (R127). -/
def resetSide (s : State) (a m : Nat) (sideB : Bool) : State :=
  if onlyAgent m sideB = some a then
    driveSide (updMbx s m (fun y => y.setSide sideB {})) m sideB
  else s

/-- A mailbox when an agent is reset. DESIGN CHOICE: LOCK_BROKEN is set after the agent's own side
took its reset values, and so stands there too (R126, R127; log entry 54). -/
def resetMbx (a : Nat) (s : State) (m : Nat) : State :=
  let s := resetSide (resetSide s a m false) a m true
  let s := resetQueue (resetQueue s a m false) a m true
  if (mbxOf s m).lock.toNat = a then
    let s := updMbx s m (fun y => { y with lock := 0 })
    flagSide (flagSide s m false iLOCK_BROKEN) m true iLOCK_BROKEN
  else s

/-- A reset of an agent, for the mailboxes and for Weir (R123 to R127, R230); replies that were kept
for want of room go into the queues it has emptied (R156). -/
def agentReset (s : State) (a : Nat) : State :=
  let s := (List.range 24).foldl (resetMbx a) s
  weirAgentReset ((List.range 8).foldl flushReplies s) a

/-! ### The commands -/

/-- MB_TX_DATA (R102). -/
def execMbTxData (agent : Agent) (mb : Fin 24) (sideB aligned : Bool) (value : Word) (s : State) :
    Host.Outcome State Fault Refusal :=
  .next (issue s agent (fun s => txWrite s agent mb sideB aligned value false))

/-- MB_TX_DATA_ALIAS (R103): the words of one write enter in ascending order. -/
def execMbTxDataAlias (agent : Agent) (mb : Fin 24) (sideB : Bool) (first : Fin 8)
    (words : List Word) (s : State) : Host.Outcome State Fault Refusal :=
  if 1 ≤ words.length ∧ first.val + words.length ≤ 8 then
    .next (issue s agent (fun s => words.foldl (fun s w => txWrite s agent mb sideB true w false) s))
  else .refused .illFormed

/-- MB_TX_DOORBELL (R102, R105). -/
def execMbTxDoorbell (agent : Agent) (mb : Fin 24) (sideB aligned : Bool) (value : Word)
    (s : State) : Host.Outcome State Fault Refusal :=
  .next (issue s agent (fun s => txWrite s agent mb sideB aligned value true))

/-- The read result an agent sees, where something answers. -/
def answer? (a : Nat) : State × Option Word → State
  | (s, some w) => emit s (.word a w)
  | (s, none) => s

/-- MB_RX_DATA (R106, R107). -/
def execMbRxData (agent : Agent) (mb : Fin 24) (sideB aligned : Bool) (s : State) :
    Host.Outcome State Fault Refusal :=
  .next (issue s agent (fun s => answer? agent (rxRead s agent mb sideB aligned)))

/-- MB_LOCK_READ (R112). -/
def execMbLockRead (agent : Agent) (mb : Fin 24) (aligned : Bool) (s : State) :
    Host.Outcome State Fault Refusal :=
  .next (issue s agent (fun s => answer? agent (mbLockRead s agent mb aligned)))

/-- MB_LOCK_WRITE (R113). -/
def execMbLockWrite (agent : Agent) (mb : Fin 24) (aligned : Bool) (s : State) :
    Host.Outcome State Fault Refusal :=
  .next (issue s agent (fun s => mbLockWrite s agent mb aligned))

/-- MB_IRQ_EN_WRITE (R110). -/
def execMbIrqEnWrite (agent : Agent) (mb : Fin 24) (sideB aligned : Bool) (value : Word)
    (s : State) : Host.Outcome State Fault Refusal :=
  .next (issue s agent (fun s => irqEnWrite s agent mb sideB aligned value))

end Sys2Proof.Machine
end

