-- ==== Sys2Proof/Machine/Window.lean ====
section
/-! DEFINITION. The host window and the endpoint (chapter 03, R130 to R144, R801). -/

namespace Sys2Proof.Machine

def onWin (s : State) (f : Window → Window) : State := { s with win := f s.win }
def onPcie (s : State) (f : Pcie → Pcie) : State := { s with pcie := f s.pcie }

/-- The guard of the page of a Basin address (R130, R151). -/
def guardOf (s : State) (a : Nat) : BitVec 2 := s.win.guards.get 0 (a / 65536)

/-- Set the guards of a run of pages. -/
def setGuards (s : State) (first n : Nat) (g : BitVec 2) : State :=
  let set (t : Tab (BitVec 2)) : Tab (BitVec 2) :=
    (List.range n).foldl (fun t i => Tab.set 0 t (first + i) g) t
  onWin s (fun w => { w with guards := set w.guards })

/-- Record a window error: its bit, its address, and one WINDOW_ERROR record (R135,
R152). -/
def winError (s : State) (i a : Nat) (bar0 : Bool) : State :=
  let s := onWin s (fun w =>
    let w' := { w with status := setBit w.status i true, count := satAdd w.count 1 }
    if w.status = 0 then
      { w' with errAddr := BitVec.ofNat 26 a, errBar0 := bar0, errValid := true }
    else w')
  postRec s islHI 0x07 (w32 (b2n bar0)) (pack [(0, a % 2 ^ 26), (26, 2 ^ i)]) 0

/-- The bit of MB_WIN_STATUS for an error of a host read or write (R132, R133). -/
def winBit (write : Bool) : Err → Nat
  | .fenced => 4
  | _ => if write then 3 else 2

/-- The granules that `n` bytes from `a` on lie in: the first byte and the length of each part
(R201, R229). -/
def granules (a n : Nat) : List (Nat × Nat) :=
  ((List.range (n / 256 + 2)).map (fun k =>
    let lo := max a ((a / 256 + k) * 256)
    (lo, min (a + n) ((a / 256 + k + 1) * 256) - lo))).filter (fun g => g.2 ≠ 0)

/-- The first doubleword of a run of bytes whose tag is set. -/
def firstPoisoned (s : State) (a n : Nat) : Option Nat :=
  ((List.range (n / 8 + 2)).map (fun k => a / 8 + k)).find? (fun d => 8 * d < a + n && (dwTag s d).vote)

/-- The errors that a request to Basin met, as `s` stands after it, with the address of each: a
granule in a fenced bank, or a doubleword that is poisoned or has refused a partial write
(R132, R133, R209; log entry 39). -/
def hostErrors (s : State) (a n : Nat) : List (Err × Nat) :=
  (granules a n).filterMap (fun g =>
    if !running s (islBank (bankOf g.1)) then some (.fenced, g.1)
    else (firstPoisoned s g.1 g.2).map (fun d => (.ecc, 8 * d)))

/-- Record the first of the errors of a kind. -/
def hostError (s : State) (write : Bool) (l : List (Err × Nat)) (e : Err) : State :=
  match l.find? (fun x => x.1 = e) with
  | some (_, a) => winError s (winBit write e) a false
  | none => s

/-- HOST_BAR2_READ (R130 to R132): a request lies in one 4 KiB page. DESIGN CHOICE: of a poisoned
doubleword and a granule of a fenced bank, the one at the lower address sets its bit (log entry
55). -/
def execHostBar2Read (addr : BasinAddr) (len : Nat) (s : State) :
    Host.Outcome State Fault Refusal :=
  if 1 ≤ len ∧ addr.val % 4096 + len ≤ 4096 then
    if !hostReach s then .next s
    else if !(guardOf s addr).getLsbD 0 then
      .next (emit (winError s 0 addr false) (.bytes 1 (List.replicate len 0)))
    else
      match readMem s 1 addr len with
      | (s, .ok b) => .next (emit s (.bytes 1 b))
      | (s, .error e) => .next (emit (hostError s false (hostErrors s addr len) e) (.ep len))
  else .refused .illFormed

/-- HOST_BAR2_WRITE (R130, R131, R133, R134): a request carries at most 256 bytes (R117). `ep` marks
a poisoned request, which may also be one to BAR0. DESIGN CHOICE: a poisoned request records EP_RX
alone, whatever its page grants, and of two errors of one request ECC_WR is recorded before FENCED
(log entry 55). -/
def execHostBar2Write (addr : BasinAddr) (data : List Byte) (ep bar0 : Bool) (s : State) :
    Host.Outcome State Fault Refusal :=
  if 1 ≤ data.length ∧ data.length ≤ 256 ∧ addr.val % 4096 + data.length ≤ 4096 ∧
      (bar0 = true → ep = true) then
    if !hostReach s then .next s
    else if ep then
      .next (emit (winError (onPcie s (fun p => { p with aerPoison := true })) 5 addr bar0) .aer)
    else if !(guardOf s addr).getLsbD 1 then .next (winError s 1 addr false)
    else
      match writeMem s 1 addr data with
      | (s, none) => .next s
      | (s, some _) =>
        let l := hostErrors s addr data.length
        .next (hostError (hostError s true l .ecc) true l .fenced)
  else .refused .illFormed

/-- The header and the capabilities of the one endpoint function (R140). -/
structure EndpointId where
  vendor : BitVec 16
  device : BitVec 16
  revision : BitVec 8
  classCode : BitVec 24
  subVendor : BitVec 16
  subId : BitVec 16
  interruptPin : BitVec 8
  /-- Sizes of BAR0/BAR1 and BAR2/BAR3 in bytes; no other BAR exists. -/
  bar0Bytes : Nat
  bar2Bytes : Nat
  /-- Capability identifiers 0x10 (PCI Express), 0x11 (MSI-X) and 0x01 (Power Management), and
  the extended capability 0x0001 (AER), as PCI Express numbers them. -/
  capabilities : List (BitVec 8)
  extended : List (BitVec 16)
  msixVectors : Nat
  noSoftReset : Bool
  pme : Bool
  deriving DecidableEq, Repr

/-- What the endpoint presents (R140): the subsystem identifiers come from OTP, or are the vendor
ID and 0x2160 while OTP holds none. -/
def endpointId (s : State) : EndpointId where
  vendor := Config.vendorId
  device := 0x2160
  revision := 0xB1
  classCode := 0x048000
  subVendor := if s.otp.subProgrammed then s.otp.subVendor else Config.vendorId
  subId := if s.otp.subProgrammed then s.otp.subId else 0x2160
  interruptPin := 0
  bar0Bytes := 2 ^ 20
  bar2Bytes := 2 ^ 26
  capabilities := [0x10, 0x11, 0x01]
  extended := [0x0001]
  msixVectors := 64
  noSoftReset := true
  pme := false

/-- The effect of a configuration write (R139, R142, R143). DESIGN CHOICE: a completion-timeout
setting outside ranges A and B is stored like any other (log entry 55). -/
def cfgWrite (s : State) : CfgWrite → State
  | .command bme => onPcie s (fun p => { p with busMaster := bme })
  | .msixControl en fm => onPcie s (fun p => { p with msixEnable := en, funcMask := fm })
  | .power d => onPcie s (fun p => { p with d3hot := d })
  | .bar0 b => onPcie s (fun p => { p with bar0 := b })
  | .bar2 b => onPcie s (fun p => { p with bar2 := b })
  | .completionTimeout t => onPcie s (fun p => { p with cplTimeout := t })
  | .aerClear => onPcie s (fun p => { p with aerPoison := false })

/-- The endpoint answers a configuration request (R137, R143). -/
def cfgReach (s : State) : Bool := running s islHI && !hostInReset s

/-- PCIE_CONFIG_WRITE (R142, R143). -/
def execPcieConfigWrite (w : CfgWrite) (s : State) : Host.Outcome State Fault Refusal :=
  .next (if cfgReach s then msixFlush (cfgWrite s w) else s)

/-- The 16 bytes of a MSI-X table entry. -/
def MsixEntry.bytes (e : MsixEntry) : List Byte :=
  leBytes 8 e.addr.toNat ++ leBytes 4 e.data.toNat ++ leBytes 4 e.ctrl.toNat

/-- The entry that 16 bytes spell; only bit 0 of the control word is not reserved. -/
def msixOfBytes (b : List Byte) : MsixEntry :=
  { addr := BitVec.ofNat 64 (leNat (b.take 8)), data := leWord (b.drop 8),
    ctrl := leWord (b.drop 12) &&& 1 }

/-- Write one byte of the MSI-X table. -/
def msixPut (s : State) (off : Nat) (b : Byte) : State :=
  let v := off / 16
  let e := s.pcie.table.get {} v
  onPcie s (fun p => { p with table := p.table.set {} v (msixOfBytes (e.bytes.set (off % 16) b)) })

/-- Write the selected bytes of the MSI-X table from an offset on (R801). -/
def msixWrite : State → Nat → List (Option Byte) → State
  | s, _, [] => s
  | s, o, none :: r => msixWrite s (o + 1) r
  | s, o, some b :: r => msixWrite (if o < 1024 then msixPut s o b else s) (o + 1) r

/-- MSIX_TABLE_WRITE (R801, R142). -/
def execMsixTableWrite (offset : Fin 1024) (bytes : List (Option Byte)) (s : State) :
    Host.Outcome State Fault Refusal :=
  if offset.val + bytes.length ≤ 1024 then
    .next (if hostReach s then msixFlush (msixWrite s offset bytes) else s)
  else .refused .illFormed

end Sys2Proof.Machine
end

