-- ==== Sys2Proof/Machine/Intc.lean ====
section
/-! DEFINITION. The interrupt controller (chapter 16): pending, threshold, claim,
completion, software events, and what a fence or reset of a target does. -/

namespace Sys2Proof.Machine

def onIntc (s : State) (f : Intc → Intc) : State := { s with intc := f s.intc }
def targetOf (s : State) (t : Nat) : Target := s.intc.targets.get {} t
def updTarget (s : State) (t : Nat) (f : Target → Target) : State :=
  onIntc s (fun c => { c with targets := c.targets.upd {} t f })

/-- The island of a target's core (R655). -/
def targetIsland (t : Nat) : Nat := if t = 0 then 0 else 1 + (t - 1) / 4

/-- A source has something to report (R633). -/
def reports (k : Kind) (x : Src) : Bool := x.count != 0 || (decide (k = .level) && x.input)

/-- A private source is pending for its target (R636). -/
def pendPriv (t i : Nat) (x : Src) : Bool :=
  x.en && x.holder.isNone && reports (privKind t i) x

/-- A shared source is pending for a target (R636, R643, R644). -/
def pendShared (s : State) (t n : Nat) (x : Src) : Bool :=
  x.en && x.holder.isNone && reports (sharedKind s n) x &&
    (if x.mode then x.target.toNat = t
     else x.targets.getLsbD t && running s (targetIsland t))

/-- The pending sources of a target as (SRC, source), private ones first, in ascending
number (R636, R638). -/
def pendingList (s : State) (t : Nat) : List (Nat × Src) :=
  ((s.intc.priv.filter (fun p => p.1 / 32 = t && pendPriv t (p.1 % 32) p.2)).map
      (fun p => (p.1 % 32, p.2)))
    ++ (s.intc.shared.filter (fun p => pendShared s t p.1 p.2)).map (fun p => (0x100 + p.1, p.2))

/-- The sources whose claim a target holds. -/
def claimed (s : State) (t : Nat) : List Src :=
  ((s.intc.priv.filter (fun p => p.1 / 32 = t && p.2.holder == some t)).map (·.2))
    ++ (s.intc.shared.filter (fun p => p.2.holder == some t)).map (·.2)

/-- The effective threshold (R637). -/
def effThresh (s : State) (t : Nat) : Nat :=
  (claimed s t).foldl (fun m x => max m x.prio.toNat) (targetOf s t).thresh.toNat

/-- The source a claim would take (R638): the highest priority above the threshold, and the
lowest SRC number of those; no claim is given beyond four (R654). -/
def bestClaim (s : State) (t : Nat) : Option (Nat × Src) :=
  let l := (pendingList s t).filter (fun p => effThresh s t < p.2.prio.toNat)
  let top := l.foldl (fun m p => max m p.2.prio.toNat) 0
  if 4 ≤ (claimed s t).length then none
  else match l.filter (fun p => p.2.prio.toNat = top) with
    | [] => none
    | x :: r => some (r.foldl (fun m y => if y.1 < m.1 then y else m) x)

/-- A request is presented to a target's core (R637, R655). -/
def requested (s : State) (t : Nat) : Bool :=
  running s (targetIsland t) && (bestClaim s t).isSome

/-- Change the source that a SRC number names for a target: private i, or shared
0x100 + s (R662). -/
def updSrc (s : State) (t src : Nat) (f : Src → Src) : State :=
  if src < 32 then updPriv s t src f
  else if 0x100 ≤ src ∧ src < 0x200 then updShared s (src - 0x100) f
  else s

/-- The source that a SRC number names for a target. -/
def srcOf (s : State) (t src : Nat) : Option Src :=
  if src < 32 then some (privSrc s t src)
  else if 0x100 ≤ src ∧ src < 0x200 then some (sharedSrc s (src - 0x100))
  else none

/-- The layout of IC_CLAIM and IC_PEEK (R662). -/
def claimWord : Option (Nat × Src) → Word
  | none => 0x3FF
  | some (src, x) => pack [(0, src), (16, x.count.toNat), (24, x.prio.toNat)]

/-- A read of IC_CLAIM by a target (R638, R639). -/
def claim (s : State) (t : Nat) : State × Word :=
  match bestClaim s t with
  | none => (updTarget s t (fun x => { x with spurious := satAdd x.spurious 1 }), 0x3FF)
  | some (src, x) =>
    (updSrc s t src (fun y => { y with holder := some t }), claimWord (some (src, x)))

/-- A write to IC_COMPLETE by a target (R634, R640). -/
def complete (s : State) (t : Nat) (v : Word) : State :=
  let src := fld v 0 10
  match srcOf s t src with
  | none => updTarget s t (fun x => { x with completeErr := true })
  | some x =>
    if x.holder = some t then
      updSrc s t src (fun y => { y with holder := none, count := y.count - BitVec.ofNat 8 (min (fld v 16 8) y.count.toNat) })
    else updTarget s t (fun x => { x with completeErr := true })

/-- The target whose registers an agent reaches (R660): its own, or for debug the one that
IC_DBG_TARGET names. -/
def agentTarget (s : State) (a : Nat) : Option Nat :=
  if 2 ≤ a ∧ a ≤ 10 then some (a - 2)
  else if a = 15 ∧ s.intc.dbgTarget.toNat ≤ 8 then some s.intc.dbgTarget.toNat
  else none

/-- A read of IC_CLAIM by an agent (R660). -/
def claimRead (s : State) (a : Nat) : State × Word :=
  match agentTarget s a with
  | none => (s, 0)
  | some t => if a = 15 then (s, claimWord (bestClaim s t)) else claim s t

/-- A write to IC_COMPLETE by an agent (R660). -/
def completeWrite (s : State) (a : Nat) (v : Word) : State :=
  match agentTarget s a with
  | none => s
  | some t => complete s t v

/-- RAISE_ERR of the writer (R645); debug has one only while IC_DBG_TARGET names a target. -/
def raiseErr (s : State) (a : Nat) : State :=
  match agentTarget s a with
  | none => s
  | some t => updTarget s t (fun x => { x with raiseErr := true })

/-- A write to IC_RAISE by an agent from 2 to 10 or 15 (R645, R660). -/
def raiseWrite (s : State) (a : Nat) (v : Word) : State :=
  let n := fld v 0 8
  let t := fld v 9 4
  if !((2 ≤ a && a ≤ 10) || a = 15) then s
  else if bit v 8 then
    (if sharedKind s n = .soft then raiseShared s n else raiseErr s a)
  else if n < 32 ∧ t ≤ 8 ∧ privKind t n = .soft then raisePriv s t n
  else raiseErr s a

/-- An agent may write the source registers (R660): the Lockkeeper all of them, a Deckhand
those of its own private bank. -/
def mayWriteSrc (a : Nat) (shared : Bool) (t : Nat) : Bool :=
  a = 2 || (3 ≤ a && a ≤ 10 && !shared && t + 2 = a)

/-- Change a source named by bank and number. -/
def updNamed (s : State) (shared : Bool) (t n : Nat) (f : Src → Src) : State :=
  if shared then updShared s n f else if n < 32 then updPriv s t n f else s

/-- Entry to a fence of a target's core: its claims on shared sources are released with
COUNT unchanged (R655). -/
def icTargetFence (s : State) (t : Nat) : State :=
  (s.intc.shared.map (·.1)).foldl (fun s n =>
    if (sharedSrc s n).holder = some t then updShared s n (fun x => { x with holder := none })
    else s) s

/-- A reset of a target's core (R656). -/
def icTargetReset (s : State) (t : Nat) : State :=
  let s := icTargetFence s t
  let s := (List.range 32).foldl (fun s i =>
    updPriv s t i (fun x => { ({} : Src) with input := x.input })) s
  updTarget s t (fun x => { x with thresh := 0 })

/-! ### The commands -/

/-- IC_CLAIM (R638). -/
def execIcClaim (agent : Agent) (s : State) : Host.Outcome State Fault Refusal :=
  .next (issue s agent (fun s => match claimRead s agent with
    | (s, w) => emit s (.word agent w)))

/-- IC_COMPLETE (R640). -/
def execIcComplete (agent : Agent) (value : Word) (s : State) :
    Host.Outcome State Fault Refusal :=
  .next (issue s agent (fun s => completeWrite s agent value))

/-- IC_RAISE (R645). -/
def execIcRaise (agent : Agent) (value : Word) (s : State) : Host.Outcome State Fault Refusal :=
  .next (issue s agent (fun s => raiseWrite s agent value))

/-- DISCARD (R663): COUNT becomes 0. -/
def execDiscardCount (agent : Agent) (shared : Bool) (target : Fin 9) (src : Fin 256) (s : State) :
    Host.Outcome State Fault Refusal :=
  .next (issue s agent (fun s =>
    if mayWriteSrc agent shared target then
      updNamed s shared target src (fun x => { x with count := 0 })
    else s))

/-- The firmware runs: the Lockkeeper core is not fenced and the image has reached
COMMISSION (R71, R247). -/
def fwRuns (s : State) : Bool := running s islLK && s.sys.commissioned

/-- INTERNAL_FAULT with a firmware fault code the specification does not give (R200): a
free value (log entry 9). -/
def internalFault (s : State) : State :=
  let (s, v) := drawFree s
  postRec s islLK 0x0B 0 (v.truncate 32) 0

/-- IC_PARITY_ERROR (R658): EN is cleared, PERR set, COUNT kept. The Lockkeeper, where it runs,
posts INTERNAL_FAULT and writes the configuration again, so EN is then as it was (log
entry 47). -/
def execIcParityError (shared : Bool) (target : Fin 9) (src : Fin 256) (s : State) :
    Host.Outcome State Fault Refusal :=
  .next (if fwRuns s then
      internalFault (updNamed s shared target src (fun x => { x with perr := true }))
    else updNamed s shared target src (fun x => { x with en := false, perr := true }))

end Sys2Proof.Machine
end

