-- ==== Sys2Proof/Machine/Moorings.lean ====
section
/-! DEFINITION. Moorings (chapter 04, R174 to R180, R803, R804) and the delivery of staged
event records and EPOCH markers into them (R249, R250, R257 to R261, R279). -/

namespace Sys2Proof.Machine

/-- Fields of the w3 that made a mooring (R192). -/
def Moor.size (m : Moor) : Nat := 2 ^ fld m.w3 0 4
def Moor.kind (m : Moor) : Nat := fld m.w3 4 2
def Moor.consumer (m : Moor) : Nat := fld m.w3 8 4
def Moor.producer (m : Moor) : Nat := fld m.w3 12 4
def Moor.signal (m : Moor) : Nat := fld m.w3 16 6

/-- The four words of a mooring's control block (R174); none where it cannot be read. -/
def readCb (s : State) (m : Moor) : State × Option (Word × Word × Word × Word) :=
  match readMem s 2 m.cb 16 with
  | (s, .ok b) => (s, some (leWord b, leWord (b.drop 4), leWord (b.drop 8), leWord (b.drop 12)))
  | (s, .error _) => (s, none)

/-- The address of entry `n` (R174). -/
def Moor.entry (m : Moor) (n : Word) : Nat := m.ring + n.toNat % m.size * 16

/-- No space for another entry (R180). -/
def Moor.full (m : Moor) (prod cons : Word) : Bool := m.size ≤ (prod - cons).toNat

/-- Add to DROPPED of a control block, saturating (R174). -/
def addDropped (s : State) (m : Moor) (old : Word) (n : Nat) : State :=
  (writeMem s 2 (m.cb + 8) (leBytes 4 (satAdd old n).toNat)).1

/-- Write one entry, then PROD past it (R176), and signal a host that had consumed
everything (R178). False where the ring's bank is fenced. -/
def putEntry (s : State) (m : Moor) (prod cons : Word) (b : List Byte) : State × Bool :=
  match writeMem s 2 (m.entry prod) b with
  | (s, some _) => (s, false)
  | (s, none) =>
    let s := (writeMem s 2 m.cb (leBytes 4 (prod + 1).toNat)).1
    (if m.kind = 0 ∧ m.consumer = 1 ∧ m.signal ≠ 0 ∧ prod = cons then vectorReq s m.signal else s,
      true)

/-- The OVERFLOW record of a mooring (R180, R200). DESIGN CHOICE: it is a record of the Lockkeeper:
ISLAND 0 with its epoch, and SOURCE 0 (log entry 56). -/
def overflowRec (s : State) (n : Nat) : Rec :=
  { type := 0x02, island := 0, epoch := (isl s 0).epoch, stamp := s.tick.truncate 32,
    payload := w32 n }

/-- The entry of an EPOCH marker in a BLIT or PLAIN mooring (R259). -/
def blitMarker (r : Rec) : List Byte :=
  leBytes 4 (0xFF000000 + r.island.toNat * 65536 + r.epoch.toNat) ++ leBytes 12 0

/-- The firmware counts one more record it could not write (R804). -/
def keepOne (s : State) (i : Nat) (m : Moor) : State :=
  setMoor s i { m with kept := m.kept + 1, since := m.since + 1 }

/-- The drops the firmware kept go into DROPPED once the control block reads (R804). -/
def settleKept (s : State) (i : Nat) (m : Moor) (dropped : Word) : State × Moor × Word :=
  if m.kept = 0 then (s, m, dropped)
  else
    let s := addDropped s m dropped m.kept
    let m' := { m with kept := 0 }
    (setMoor s i m', m', satAdd dropped m.kept)

/-- Write the OVERFLOW record that is due (R180); the new PROD. -/
def putOverflow (s : State) (i : Nat) (m : Moor) (prod cons : Word) : State × Moor × Word :=
  if m.since = 0 then (s, m, prod)
  else
    match putEntry s m prod cons (overflowRec s m.since).bytes with
    | (s, false) => (s, m, prod)
    | (s, true) => let m' := { m with since := 0 }; (setMoor s i m', m', prod + 1)

/-- Write one record into mooring `i` (R176 to R180, R804). DESIGN CHOICE: one whose ring entry lies
in a fenced bank is dropped and counted as one whose control block does (log entry 56). -/
def putRec (s : State) (i : Nat) (m : Moor) (r : Rec) : State :=
  match readCb s m with
  | (s, none) => keepOne s i m
  | (s, some (prod, cons, dropped, _)) =>
    let (s, m, dropped) := settleKept s i m dropped
    if m.full prod cons then
      addDropped (setMoor s i { m with since := m.since + 1 }) m dropped 1
    else
      let (s, m, prod) := putOverflow s i m prod cons
      if m.full prod cons then
        addDropped (setMoor s i { m with since := m.since + 1 }) m dropped 1
      else
        match putEntry s m prod cons r.bytes with
        | (s, true) => s
        | (s, false) => keepOne s i m

/-- Write one EPOCH marker into mooring `i`; none where it must wait (R258, R259, R279). -/
def putMarker (s : State) (i : Nat) (m : Moor) (r : Rec) : State × Bool :=
  match readCb s m with
  | (s, none) => (s, false)
  | (s, some (prod, cons, dropped, _)) =>
    let need := if m.kind = 0 ∧ m.since ≠ 0 then 2 else 1
    if m.size < (prod - cons).toNat + need then (s, false)
    else
      let (s, m, _) := settleKept s i m dropped
      if m.kind = 0 then
        let (s, m, prod) := putOverflow s i m prod cons
        match putEntry s m prod cons r.bytes with
        | (s, false) => (s, false)
        | (s, true) => ((writeMem s 2 (m.cb + 12) (leBytes 4 r.epoch.toNat)).1, true)
      else putEntry s m prod cons (blitMarker r)

/-- Hold a record bound for the device mooring that does not exist yet (R803). -/
def holdRec (s : State) (r : Rec) : State :=
  if r.marker || (s.fw.held.filter (fun x => !x.marker)).length < 64 then
    onFw s (fun f => { f with held := f.held ++ [r] })
  else onFw s (fun f => { f with heldDropped := f.heldDropped + 1 })

/-- Deliver one staged record or marker; false where a marker must stay staged. -/
def deliver (s : State) (r : Rec) : State × Bool :=
  match moorIndex s r.moor with
  | none => if r.moor = 0 then (holdRec s r, true) else (s, true)
  | some i =>
    match s.fw.moorings.find? i with
    | none => (s, true)
    | some m => if r.marker then putMarker s i m r else (putRec s i m r, true)

/-- The reply to the command that caused a record is still to be written (R34). -/
def Rec.held (s : State) (r : Rec) : Bool :=
  match r.await with
  | some (m, n) => decide (s.fw.placed.get 0 m < n)
  | none => false

/-- Deliver the first staged entry that may go: a marker that does not fit stays, and so does a
record whose command awaits its reply (R34), and so does every later record of its island for
its mooring (R256, R279). `l` is what is left to look at, `kept` what was passed over, newest
first. -/
def deliverFirst : List Rec → List Rec → State → State
  | [], _, s => s
  | r :: l, kept, s =>
    if r.held s || kept.any (fun b => moorIndex s b.moor = moorIndex s r.moor && b.island = r.island) then
      deliverFirst l (r :: kept) s
    else
      match deliver s r with
      | (s, true) => stagingLevel { s with staging := kept.reverse ++ l ++ s.staging.drop (kept.length + 1 + l.length) }
      | (s, false) => deliverFirst l (r :: kept) s

/-- The fence object a live FENCE handle names (R159, R161). -/
def fenceIndex (s : State) (h : Word) : Option Nat :=
  let i := fld h 0 16
  if fld h 28 4 = tFENCE ∧ handleOf s tFENCE i = h ∧ (s.fw.fences.find? i).isSome then some i
  else none

/-- Signal a fence object with a value, by an island, and post FENCE_SIGNALLED (R200,
R806). -/
def signalFence (s : State) (island i : Nat) (v : Word) : State :=
  match s.fw.fences.find? i with
  | none => s
  | some f =>
    let s := onFw s (fun x => { x with fences := x.fences.put i { f with signalled := true, value := v } })
    postRec s island 0x22 (handleOf s tFENCE i) v f.moor

/-- EVENT_RECORD_DELIVERY (R176, R250): nothing moves while the firmware does not run. -/
def execEventRecordDelivery (s : State) : Host.Outcome State Fault Refusal :=
  .next (if fwRuns s then deliverFirst s.staging [] s else s)

end Sys2Proof.Machine
end

