-- ==== Sys2Proof/Machine/Beam.lean ====
section
/-! DEFINITION. The virtual beam (chapter 07): the position of the beam, raster writes and
their effect lines, rollback, frame-latched changes, line tables, and scene events. -/

namespace Sys2Proof.Machine

/-! ### Time (R287 to R291) -/

/-- P of a rate class (R287). -/
def ratePeriod (r : Nat) : Nat :=
  match r with
  | 0 => 833333
  | 1 => 1666667
  | 2 => 2500000
  | 3 => 5000000
  | _ => 10000000

/-- The class rate in hertz (R287, R316). -/
def rateHz (r : Nat) : Nat :=
  match r with
  | 0 => 60
  | 1 => 30
  | 2 => 20
  | 3 => 10
  | _ => 5

def Scene.period (c : Scene) : Nat := ratePeriod c.rate
/-- T (R288). -/
def Scene.total (c : Scene) : Nat := c.height + c.blank
/-- s(L) (R289). -/
def Scene.lineTick (c : Scene) (l : Nat) : Nat := l * c.period / c.total
/-- F(n) (R289); 0 before the beam has a start. -/
def Scene.frameTick (c : Scene) (n : Nat) : Nat :=
  match c.start with
  | none => 0
  | some t => t.toNat + n * c.period
/-- The tick at which line l of frame n begins. -/
def Scene.tickOf (c : Scene) (n l : Nat) : Nat := c.frameTick n + c.lineTick l

/-- The beam's frame and line at a tick (R290); none before the beam starts. -/
def Scene.beam (c : Scene) (t : Nat) : Option FL :=
  match c.start with
  | none => none
  | some s0 =>
    if t < s0.toNat then none
    else
      let d := t - s0.toNat
      some (d / c.period, ((d % c.period + 1) * c.total - 1) / c.period)

/-- The place of a line in the sequence of all lines of a scene. -/
def Scene.pos (c : Scene) (f : FL) : Nat := f.1 * c.total + f.2
def RWrite.at (c : Scene) (w : RWrite) : Nat := c.pos (w.frame, w.line)
def RLine.at (c : Scene) (r : RLine) : Nat := c.pos (r.frame, r.line)
/-- The next line to commit. -/
def Scene.nextPos (c : Scene) : Nat := c.pos (c.nextFrame, c.nextLine)

/-! ### State access -/

def onTp (s : State) (f : Towpath → Towpath) : State := { s with tp := f s.tp }
def sceneOf (s : State) (i : Nat) : Option Scene := s.tp.scenes.find? i
def setScene (s : State) (i : Nat) (c : Scene) : State :=
  onTp s (fun t => { t with scenes := t.scenes.put i c })
/-- Change a scene if it exists. -/
def updScene (s : State) (i : Nat) (f : Scene → Scene) : State :=
  match sceneOf s i with
  | none => s
  | some c => setScene s i (f c)
/-- Move the clock to the tick an event falls at, if it is not past it. -/
def atTick (s : State) (t : Nat) : State :=
  if s.tick.toNat < t then { s with tick := BitVec.ofNat 64 t } else s

/-! ### The register file (R376 to R378) -/

/-- The bits a line-effective register holds, by word index; none for any other register
(R376, R377). -/
def leMask (i : Nat) : Option Word :=
  if i = 0x20 then some 0x1F
  else if i = 0x21 then some 0xFFFFFF
  else if 0x30 ≤ i ∧ i < 0x38 then some (if i % 2 = 0 then 0xFFFFFF else 0x81FF)
  else if i = 0x40 ∨ i = 0x48 ∨ i = 0x50 then some 0xFF
  else if i = 0x58 then some 0x01FF07FF
  else if i = 0x41 ∨ i = 0x49 ∨ i = 0x51 ∨ i = 0x59 then some 0x07FF07FF
  else if i = 0x60 then some 0xFF
  else if i = 0x70 then some 0xF
  else none

/-- The bits a shadowed register holds, by word index (R376, R378). -/
def shadowMask (i : Nat) : Option Word :=
  if i = 0x22 ∨ i = 0x42 ∨ i = 0x4A ∨ i = 0x52 ∨ i = 0x5A ∨ i = 0x61 ∨ i = 0x68 ∨ i = 0x69 then
    some 0x03FFFF00
  else if i = 0x43 ∨ i = 0x4B ∨ i = 0x53 then some 0x3FF
  else if i = 0x5B then some 0x13FF
  else if i = 0x62 then some 0x3F0
  else if i = 0x5C then some 0x0FFF0FFF
  else if i = 0x44 ∨ i = 0x4C ∨ i = 0x54 then some 0
  else none

/-- Every line-effective and every shadowed register. -/
def leRegs : List Nat := (List.range 256).filter (fun i => (leMask i).isSome)
def shadowRegs : List Nat := (List.range 256).filter (fun i => (shadowMask i).isSome)

def rget (t : Tab Word) (i : Nat) : Word := t.get 0 i
def rset (t : Tab Word) (i : Nat) (v : Word) : Tab Word := t.set 0 i v

/-! ### Rollback and raster writes (R293 to R298, R307) -/

/-- The rendered lines at or after a place are no more, nor is what one of them met in its line
table (R307, R309). -/
def Scene.discard (c : Scene) (e : Nat) : Scene :=
  { c with lines := c.lines.filter (fun r => r.at c < e), ltStop := c.ltStop.filter (fun k => k.1 < e) }

/-- Discard the rendered lines at or after a place, counting them (R307). -/
def Scene.rollback (c : Scene) (e : Nat) : Scene :=
  { c.discard e with
    cntRollback := satAdd c.cntRollback (c.lines.filter (fun r => e ≤ r.at c)).length }

/-- The effect line of a raster write at a tick under a TP_WHEN (R294), and whether the
write is late; none where LINE names no line. Before the beam starts it is line 0 of frame
0. -/
def Scene.effect (c : Scene) (t : Nat) (w : When) : Option (FL × Bool) :=
  if w.en && c.total ≤ w.line.toNat then none
  else
    match c.beam t with
    | none => some ((0, if w.en then w.line.toNat else 0), false)
    | some (n, b) =>
      let next : FL := if b + 1 = c.total then (n + 1, 0) else (n, b + 1)
      if !w.en then some (next, false)
      else if w.nextFrame then some ((n + 1, w.line.toNat), false)
      else if b < w.line.toNat then some ((n, w.line.toNat), false)
      else some (next, true)

/-- A raster write reaches a scene (R293 to R298, R303, R307). -/
def Scene.raster (c : Scene) (t : Nat) (w : When) (agent : Nat) (reg : Option Nat) (v : Word) :
    Scene :=
  let c := { c with lastAgent := BitVec.ofNat 4 agent }
  match c.effect t w with
  | none => { c with wrDrop := true }
  | some ((n, l), late) =>
    let c := if late then { c with late := true, cntLate := satAdd c.cntLate 1 } else c
    if 64 ≤ c.writes.length then { c with wrDrop := true, wrDropped := c.wrDropped + 1 }
    else
      let c' : Scene := { c with writes := c.writes ++ [{ frame := n, line := l, reg := reg, val := v }] }
      c'.rollback (c.pos (n, l))

/-- TP_WHEN of an agent (R332). -/
def whenOf (s : State) (a : Nat) : When := s.tp.when_.get {} a

/-- A raster write by an agent, of a register or of none (R298, R303, R329). -/
def rasterWrite (s : State) (agent i : Nat) (reg : Option Nat) (v : Word) : State :=
  updScene s i (fun c => c.raster s.tick.toNat (whenOf s agent) agent reg v)

/-! ### Frame-latched changes (R301, R307, R364 to R367) -/

/-- The first frame that starts after a tick (R301). -/
def Scene.nextStart (c : Scene) (t : Nat) : Nat :=
  match c.beam t with
  | none => 0
  | some (n, _) => n + 1

def Latch.frame : Latch → Nat
  | .linetab n _ => n
  | .flip n _ _ _ => n

/-- A frame-latched change reaches a scene: it latches at the next frame start, and the
rendered lines from there are discarded. -/
def Scene.latch (c : Scene) (t : Nat) (mk : Nat → Latch) : Scene :=
  let n := c.nextStart t
  let c' : Scene := { c with latches := c.latches ++ [mk n] }
  c'.rollback (c.pos (n, 0))

/-- The line table in force in a frame. -/
def Scene.linetabFor (c : Scene) (n : Nat) : Word :=
  c.latches.foldl (fun v l => match l with
    | .linetab m x => if m ≤ n then x else v
    | _ => v) c.linetab

/-- The active values in force in a frame (R364, R365). -/
def Scene.activeFor (c : Scene) (n : Nat) : Tab Word :=
  c.latches.foldl (fun v l => match l with
    | .flip m x _ _ => if m ≤ n then x else v
    | _ => v) c.active

/-- Latch one change at the start of frame n (R301, R364 to R367). `live` tells a live
FENCE handle. -/
def Scene.latchOne (live : Word → Bool) (n : Nat) (c : Scene) : Latch → Scene
  | .linetab _ v => { c with linetab := v }
  | .flip _ sh f v =>
    let c := { c with active := sh, flipFrame := BitVec.ofNat 16 n, blockDue := true }
    if f = 0 then c
    else if live f && c.signals.length < 4 then { c with signals := c.signals ++ [(f, v)] }
    else { c with fenceDrop := true }

/-- Every frame-latched change of frames up to n latches (R301). -/
def Scene.latchTo (live : Word → Bool) (n : Nat) (c : Scene) : Scene :=
  let now := c.latches.filter (fun l => l.frame ≤ n)
  let c := now.foldl (Scene.latchOne live n) c
  { c with latches := c.latches.filter (fun l => n < l.frame), latched := max c.latched (n + 1) }

/-- Latch a scene's changes up to frame n. -/
def latchScene (s : State) (i n : Nat) : State :=
  updScene s i (Scene.latchTo (fun f => (fenceIndex s f).isSome) n)

/-! ### Line tables (R299, R326, R334) -/

/-- Read the table for one line from entry `i` on; `prev` is the LINE of the entry before.
It gives the changes in table order, whether an error ended or marred it, and at which entry a
poisoned doubleword cut it. -/
def readTable (base l : Nat) (stop : Option Nat) :
    Nat → State → Nat → Nat → State × List (Nat × Word) × Bool × Option Nat
  | 0, s, _, _ => (s, [], false, none)
  | fuel + 1, s, i, prev =>
    if stop = some i then (s, [], false, none)
    else
      match readReq s 12 (base + 8 * i) 8 with
      | (s, .error _) => (s, [], true, some i)
      | (s, .ok b) =>
        let w := leWord b
        let ln := fld w 0 10
        if ln < prev then (s, [], true, none)
        else if l < ln then (s, [], false, none)
        else
          let (s, r, e, k) :=
            if bit w 15 then (s, [], false, none) else readTable base l stop fuel s (i + 1) ln
          if ln = l then
            match leMask (fld w 16 8) with
            | some m => (s, (fld w 16 8, leWord (b.drop 4) &&& m) :: r, e, k)
            | none => (s, r, true, k)
          else (s, r, e, k)

/-- The line-effective registers of the line at a place, given what the line before left (R296):
the line table's entries first, then the raster writes in order of arrival. With them, whether the
table had an error, and the entry at which poison cut it (R326). -/
def lineRegs (s : State) (c : Scene) (p : Nat) (before : Tab Word) :
    State × Tab Word × Bool × Option Nat :=
  let n := p / c.total
  let lt := c.linetabFor n
  let (s, changes, err, cut) :=
    if bit lt 0 then
      readTable (fld lt 3 23 * 8) (p % c.total)
        ((c.ltStop.filter (fun k => k.1 / c.total = n)).map (·.2)) 1024 s 0 0
    else (s, [], false, none)
  let r := changes.foldl (fun t p => rset t p.1 p.2) before
  let r := (c.writes.filter (fun w => w.at c = p)).foldl (fun t w =>
    match w.reg with
    | some g => rset t g w.val
    | none => t) r
  (s, r, err, cut)

/-- The newest registers that stand before a place: the place they stand at, and what they hold.
The rendered line nearest before it gives them, else the last committed line. -/
def Scene.settled (c : Scene) (p : Nat) : Nat × Tab Word :=
  (c.lines.filter (fun r => r.at c < p)).foldl
    (fun a r => if a.1 ≤ r.at c then (r.at c + 1, r.regs) else a) (c.nextPos, c.regs)

/-- What the line before a place leaves (R296): each line since the newest registers adds its
line-table entries and raster writes, in the order of the lines. -/
def regsBefore (s : State) (c : Scene) (p : Nat) : State × Tab Word :=
  let (q, r) := c.settled p
  (List.range (p - q)).foldl (fun a k =>
    let x := lineRegs a.1 c (q + k) a.2
    (x.1, x.2.1)) (s, r)

/-! ### Events (R311 to R315) -/

/-- The bits of EVCTL (R331). -/
def kSOB : Nat := 0
def kLM : Nat := 1
def kFD : Nat := 2
def kUR : Nat := 3

/-- The level of a Deckhand's TP event queue (R315). -/
def evqLevel (s : State) (n : Nat) : State :=
  drivePriv s (n + 1) 2 (running s islTP && !(s.tp.evq.get {} n).q.isEmpty)

/-- The place of an event among those of its scene that carry the same stamp: UR, SOB, LM of
comparators 0 to 3, FD (R312). -/
def eventRank (kind comp : Nat) : Nat :=
  if kind = kUR then 0 else if kind = kSOB then 1 else if kind = kLM then 2 + comp else 6

/-- A queued entry comes after a new one of a tick: a later stamp, or the same stamp and scene and a
later place (R312, R315). -/
def evqLater (t : Nat) (e : Word) (x : Word × Nat) : Bool :=
  decide (t < x.2) || (x.2 = t && fld x.1 0 11 = fld e 0 11 &&
    decide (eventRank (fld e 11 2) (fld e 13 2) < eventRank (fld x.1 11 2) (fld x.1 13 2)))

/-- A staged record comes after a new one: an event of the same scene with the same stamp and a
later place (R312). -/
def recLater (r x : Rec) : Bool :=
  let rank (y : Rec) : Nat := eventRank (y.type.toNat - 0x10) (fld y.payload 30 2)
  x.source = r.source && x.stamp = r.stamp && x.epoch = r.epoch && !x.marker &&
    decide (0x10 ≤ x.type.toNat) && decide (x.type.toNat ≤ 0x13) && decide (rank r < rank x)

/-- Queue an entry of an event at a tick for a Deckhand (R315). -/
def evqPush (s : State) (n t : Nat) (e : Word) : State :=
  if !running s (islDeck n) then s
  else
    let q := s.tp.evq.get {} n
    let q := if 256 ≤ q.q.length then { q with drop := satAdd q.drop 1 }
      else { q with q := insertBefore (evqLater t e) (e, t) q.q }
    evqLevel (onTp s (fun x => { x with evq := x.evq.set {} n q })) n

/-- Raise an event of a scene at its tick (R311, R312, R314, R315, R333). -/
def sceneEvent (s : State) (i : Nat) (c : Scene) (kind t n line comp : Nat) : State :=
  let f := n % 65536
  let payload := if kind = kLM then pack [(0, f), (16, line), (30, comp)]
    else if kind = kUR then pack [(0, f), (16, line)] else w32 f
  let s :=
    if c.evHost.getLsbD kind then
      let r : Rec := { type := BitVec.ofNat 8 (0x10 + kind), island := 3, epoch := (isl s islTP).epoch,
                       source := handleOf s tSCENE i, stamp := BitVec.ofNat 32 t, payload := payload,
                       moor := c.moor }
      stageBefore (recLater r) s r
    else s
  let e := pack [(0, i), (11, kind), (13, comp), (15, line), (25, n % 128)]
  if c.evDeck.getLsbD kind then
    (List.range 8).foldl (fun s d => if c.dhMask.getLsbD d then evqPush s d t e else s) s
  else s

/-! ### Load and placement (R316 to R323, R335) -/

/-- The admitted load of a scene, in pipe clocks per second (R316). -/
def Scene.load (c : Scene) : Nat := (c.width + 32) * c.height * rateHz c.rate

/-- The admitted load of all scenes. -/
def totalLoad (s : State) : Nat := s.tp.scenes.foldl (fun a p => a + p.2.load) 0
/-- The admitted load of the scenes placed on a pipe. -/
def pipeLoad (s : State) (p : Nat) : Nat :=
  s.tp.scenes.foldl (fun a q => a + if q.2.pipe = p then q.2.load else 0) 0
/-- The admitted load of the scenes pinned to a pipe. -/
def pinnedLoad (s : State) (p : Nat) : Nat :=
  s.tp.scenes.foldl (fun a q => a + if q.2.pin = some p then q.2.load else 0) 0
/-- The unpinned pipe with the least admitted load, the lowest among equals (R318). An unpinned
pipe is one to which no scene is pinned; where every pipe has one, each pipe counts (DEDUCED,
log entry 44). -/
def placePipe (s : State) : Nat :=
  let free := (List.range 8).filter (fun p => !s.tp.scenes.any (fun q => q.2.pin = some p))
  let l := if free.isEmpty then List.range 8 else free
  l.foldl (fun b p => if pipeLoad s p < pipeLoad s b then p else b) (l.headD 0)

/-- Line-store bytes a scene's rendered lines take (R305). -/
def Scene.store (c : Scene) : Nat :=
  c.lines.length * (c.width * 3)
/-- Line-store bytes in use. -/
def storeUsed (s : State) : Nat := s.tp.scenes.foldl (fun a p => a + p.2.store) 0

/-- The place of the earliest eligible line of a scene (R304, R305): in the window, not
committed, not rendered, and with room in the line store. -/
def eligible (s : State) (c : Scene) : Option Nat :=
  match c.beam s.tick.toNat with
  | none => none
  | some b =>
    let p := c.pos b
    firstFrom (fun q => c.nextPos ≤ q && !c.lines.any (fun r => r.at c = q)
      && decide (storeUsed s + c.width * 3 ≤ 4194304)) 33 p

/-- The tick at which the line at a place commits (R308). -/
def Scene.commitTick (c : Scene) (p : Nat) : Nat :=
  c.tickOf (p / c.total) (p % c.total + 1)

/-- The scene and line a pipe renders next (R306). -/
def pipeChoice (s : State) (pipe : Nat) : Option (Nat × Nat) :=
  let l := s.tp.scenes.filterMap (fun p =>
    if p.2.pipe = pipe then (eligible s p.2).map (fun q => (p.2.commitTick q, p.1, q)) else none)
  match l with
  | [] => none
  | x :: r =>
    let b := r.foldl (fun m y => if y.1 < m.1 ∨ (y.1 = m.1 ∧ y.2.1 < m.2.1) then y else m) x
    some (b.2.1, b.2.2)

end Sys2Proof.Machine
end

