-- ==== Sys2Proof/Machine/Compose.lean ====
section
/-! DEFINITION. Composition of one line (chapter 08): planes, pattern banks, sprites,
palettes, overrides, keys, priorities, blending, LUTs, collisions and what errors do. -/

namespace Sys2Proof.Machine

/-! ### Reads (R373, R374) -/

/-- The composer's accumulator: the state after its Basin reads, and the TP_SC_LAYSTAT
bits the line sets. -/
structure Comp where
  s : State
  lay : Word := 0

def Comp.flag (c : Comp) (i : Nat) : Comp := { c with lay := c.lay ||| oneBit 32 i }

/-- Read as agent 12; none where the read meets poison. A fenced bank is treated like
poison (DEDUCED, log entry 20). -/
def Comp.read (c : Comp) (a n : Nat) : Comp × Option (List Byte) :=
  match readReq c.s 12 a n with
  | (s, .ok b) => ({ c with s := s }, some b)
  | (s, .error _) => ({ c with s := s }, none)

/-- A structure lies wholly in Basin at or above 0x0040_0000 (R373). -/
def structOk (a n : Nat) : Bool := 0x00400000 ≤ a && a + n ≤ 0x04000000

/-- The Basin address that an ADDR register of R378 names. -/
def addrOf (w : Word) : Nat := fld w 8 18 * 256

/-! ### Pattern banks (R336 to R340) -/

/-- Bits per pixel of a FORMAT (R336). -/
def fmtBits (f : Nat) : Nat := 2 ^ (f % 4)
/-- Bytes per tile of a FORMAT (R336). -/
def tileBytes (f : Nat) : Nat := 8 * fmtBits f

/-- The pages of a pattern bank as frame n of scene i reads it (R340). -/
def bankPages (s : State) (i n b : Nat) : Tab Nat :=
  let p := s.tp.banks.get {} b
  match p.old.find? (fun o => o.2.any (fun e => e.1 = i && n < e.2)) with
  | some o => o.1
  | none => p.pages

/-- The pixel value (x, y) of a tile (R337, R338); `bad` where it depends on poison, and
none where the tile lies outside the bank (DEDUCED, log entry 20). -/
inductive Pix where
  | val (v : Nat)
  | poison
  | outside
  deriving DecidableEq, Repr

def tilePix (c : Comp) (i n bank f tile x y : Nat) : Comp × Pix :=
  if 65536 ≤ tile then (c, .outside)
  else
    let r := fmtBits f
    let off := tile * tileBytes f + y * r
    match (bankPages c.s i n bank).find? (off / 65536) with
    | none => (c, .val 0)
    | some pg =>
      match c.read (pg * 65536 + off % 65536) r with
      | (c, some b) => (c, .val (leNat b / 2 ^ (r * x) % 2 ^ r))
      | (c, none) => (c, .poison)

/-! ### Colours (R349 to R351) -/

/-- What the composer knows of a line. -/
structure LineCtx where
  i : Nat
  frame : Nat
  y : Nat
  width : Nat
  regs : Tab Word
  act : Tab Word
  /-- The LUT area; none where it is invalid or poisoned. -/
  lut : Option (List Byte)

/-- The lowest-numbered override that matches (R351). -/
def overrideOf (k : LineCtx) (palB : Bool) (idx : Nat) : Option Word :=
  ((List.range 4).find? (fun j =>
      let w := rget k.regs (0x31 + 2 * j)
      bit w 15 && bit w 8 == palB && fld w 0 8 = idx)).map
    (fun j => rget k.regs (0x30 + 2 * j) &&& 0xFFFFFF)

/-- The colour of an opaque pixel of a plane; none where it is transparent after all. The override
comes after the palette lookup (R351): a pixel that takes its colour from one does not use the
palette's entry, poisoned or not (DEDUCED, log entry 20). -/
def colour (c : Comp) (k : LineCtx) (plane : Nat) (palB : Bool) (idx : Nat) : Comp × Option Word :=
  let a := addrOf (rget k.act (if palB then 0x69 else 0x68))
  if !structOk a 1024 then (c.flag (8 + plane), none)
  else
    match c.read (a + 4 * idx) 4, overrideOf k palB idx with
    | (c, _), some w => (c, some w)
    | (c, some b), none => (c, some (leWord b &&& 0xFFFFFF))
    | (c, none), none => (c.flag 5, none)

/-- An opaque candidate (R353): its key, plane, colour, blend, and for a sprite its index
and whether it takes part in collisions. -/
structure Cand where
  key : Nat
  plane : Nat
  col : Word
  blend : Nat
  sprite : Option (Nat × Bool) := none

/-- The candidate of a pixel value. -/
def mkCand (c : Comp) (k : LineCtx) (plane pri blend : Nat) (palB : Bool) (idx : Nat)
    (sprite : Option (Nat × Bool)) : Comp × List Cand :=
  match colour c k plane palB idx with
  | (c, none) => (c, [])
  | (c, some w) =>
    (c, [{ key := pri * 8 + plane, plane := plane, col := w, blend := min 16 blend, sprite := sprite }])

/-- Index and palette of a tile or sprite pixel (R350). -/
def tileIndex (f sub v : Nat) : Bool × Nat :=
  (16 ≤ sub, if f = 3 then v else (sub % 16 * 16 + v) % 256)

/-! ### Layers (R341 to R345) -/

def layReg (l j : Nat) : Nat := 0x40 + 8 * l + j

/-- The candidate of a tile layer at column x (R343, R352). -/
def tileCand (c : Comp) (k : LineCtx) (l x : Nat) : Comp × List Cand :=
  let ctrl := rget k.regs (layReg l 0)
  let scr := rget k.regs (layReg l 1)
  let g := rget k.act (layReg l 3)
  let map := addrOf (rget k.act (layReg l 2))
  let mw := 32 * 2 ^ fld g 0 2
  let mh := 32 * 2 ^ fld g 2 2
  if !structOk map (mw * mh * 4) then (c.flag (8 + l), [])
  else
    let mx := (x + fld scr 0 11) % (8 * mw)
    let my := (k.y + fld scr 16 11) % (8 * mh)
    match c.read (map + (my / 8 * mw + mx / 8) * 4) 4 with
    | (c, none) => (c.flag l, [])
    | (c, some b) =>
      let e := leWord b
      let px := if bit e 21 then 7 - mx % 8 else mx % 8
      let py := if bit e 22 then 7 - my % 8 else my % 8
      let f := fld g 8 2
      match tilePix c k.i k.frame (fld g 4 4) f (fld e 0 16) px py with
      | (c, .poison) => (c.flag l, [])
      | (c, .outside) => (c.flag (8 + l), [])
      | (c, .val v) =>
        if v = 0 ∧ bit e 25 = false then (c, [])
        else
          let (pb, idx) := tileIndex f (fld e 16 5) v
          mkCand c k l (fld e 23 2) (fld ctrl 0 5) pb idx none

/-- The candidate of L3 in bitmap mode at column x (R344, R345). -/
def bitmapCand (c : Comp) (k : LineCtx) (x : Nat) : Comp × List Cand :=
  let ctrl := rget k.regs (layReg 3 0)
  let scr := rget k.regs (layReg 3 1)
  let sz := rget k.act (layReg 3 4)
  let map := addrOf (rget k.act (layReg 3 2))
  let stride := fld sz 0 12
  let h := fld sz 16 12
  let bx := x + fld scr 0 11
  let by_ := k.y + fld scr 16 11
  if !structOk map (stride * h) then (c.flag 11, [])
  else if stride ≤ bx ∨ h ≤ by_ then (c, [])
  else
    match c.read (map + by_ * stride + bx) 1 with
    | (c, none) => (c.flag 3, [])
    | (c, some b) =>
      let v := leNat b
      if bit ctrl 24 ∧ v = fld ctrl 16 8 then (c, [])
      else mkCand c k 3 (fld ctrl 9 2) (fld ctrl 0 5) (bit ctrl 8) v none

/-- The candidate of layer l at column x (R356). -/
def layerCand (c : Comp) (k : LineCtx) (x l : Nat) : Comp × List Cand :=
  if !bit (rget k.regs 0x20) l then (c, [])
  else if l = 3 ∧ bit (rget k.act (layReg 3 3)) 12 then bitmapCand c k x
  else tileCand c k l x

/-! ### Sprites (R346 to R348) -/

/-- A sprite that a line shows: index and words 0 to 2. -/
structure Spr where
  j : Nat
  w0 : Word
  w1 : Word
  w2 : Word

def Spr.x (p : Spr) : Int := signed 12 (fld p.w0 0 12)
def Spr.y (p : Spr) : Int := signed 11 (fld p.w0 16 11)
def Spr.w (p : Spr) : Nat := 8 * (fld p.w1 16 3 + 1)
def Spr.h (p : Spr) : Nat := 8 * (fld p.w1 19 3 + 1)

/-- A sprite crosses line y (R347). -/
def Spr.crosses (p : Spr) (y width : Nat) : Bool :=
  bit p.w1 31 && decide (p.y ≤ y) && decide ((y : Int) < p.y + p.h)
    && decide (0 ≤ p.x + p.w - 1) && decide (p.x ≤ (width : Int) - 1)

/-- Read the table in ascending index and keep the sprites that cross the line; the first
64 are shown and more set SP_OVF (R347). A sprite whose first doubleword is poisoned is
not seen, and one whose second is poisoned is transparent (R374, DEDUCED, log entry 20). -/
def readSprites (base y width : Nat) : Nat → Comp → Nat → Nat → Comp × List Spr
  | 0, c, _, _ => (c, [])
  | fuel + 1, c, j, shown =>
    match c.read (base + 16 * j) 8 with
    | (c, none) => readSprites base y width fuel (c.flag 4) (j + 1) shown
    | (c, some b) =>
      let p : Spr := { j := j, w0 := leWord b, w1 := leWord (b.drop 4), w2 := 0 }
      if !p.crosses y width then readSprites base y width fuel c (j + 1) shown
      else if 64 ≤ shown then readSprites base y width fuel (c.flag 16) (j + 1) shown
      else
        match c.read (base + 16 * j + 8) 8 with
        | (c, none) => readSprites base y width fuel (c.flag 4) (j + 1) (shown + 1)
        | (c, some b) =>
          let (c, r) := readSprites base y width fuel c (j + 1) (shown + 1)
          (c, { p with w2 := leWord b } :: r)

/-- The sprites of a line. -/
def lineSprites (c : Comp) (k : LineCtx) : Comp × List Spr :=
  if !bit (rget k.regs 0x20) 4 then (c, [])
  else
    let a := addrOf (rget k.act 0x61)
    if !structOk a 4096 then (c.flag 12, [])
    else readSprites a k.y k.width 256 c 0 0

/-- The candidate of a shown sprite at column x (R348, R352, R355). -/
def spriteCand (c : Comp) (k : LineCtx) (x : Nat) (p : Spr) : Comp × List Cand :=
  if (x : Int) < p.x ∨ p.x + p.w ≤ x then (c, [])
  else
    let g := rget k.act 0x62
    let sx0 := ((x : Int) - p.x).toNat
    let sy0 := ((k.y : Int) - p.y).toNat
    let sx := if bit p.w1 27 then p.w - 1 - sx0 else sx0
    let sy := if bit p.w1 28 then p.h - 1 - sy0 else sy0
    let f := fld g 8 2
    let tile := fld p.w1 0 16 + sy / 8 * (p.w / 8) + sx / 8
    match tilePix c k.i k.frame (fld g 4 4) f tile (sx % 8) (sy % 8) with
    | (c, .poison) => (c.flag 4, [])
    | (c, .outside) => (c.flag 12, [])
    | (c, .val v) =>
      if v = 0 ∧ bit p.w2 1 = false then (c, [])
      else
        let (pb, idx) := tileIndex f (fld p.w1 22 5) v
        mkCand c k 4 (fld p.w1 29 2) (if bit p.w2 0 then fld (rget k.regs 0x60) 0 5 else 16) pb idx
          (some (p.j, bit p.w2 2))

/-! ### Stacking and blending (R353 to R357) -/

/-- Candidates of several sources, in order. -/
def gather {β : Type} (f : Comp → β → Comp × List Cand) : Comp → List β → Comp × List Cand
  | c, [] => (c, [])
  | c, b :: r =>
    let (c, x) := f c b
    let (c, y) := gather f c r
    (c, x ++ y)

/-- The control register that holds LUTSET and LUTEN of a plane. -/
def lutReg (plane : Nat) : Nat := if plane = 4 then 0x60 else layReg plane 0

/-- One channel through a LUT set (R357). -/
def lutByte (lut : List Byte) (set ch v : Nat) : Nat :=
  (lut.getD (0x300 * set + 256 * ch + v) 0).toNat

/-- A colour after its plane's pre-blend LUT (R357); an invalid or poisoned area acts as the
identity (R373, R374). -/
def preLut (k : LineCtx) (d : Cand) : Word :=
  let r := rget k.regs (lutReg d.plane)
  match bit r 7, k.lut with
  | true, some t =>
    let q := fld r 5 2
    pack [(16, lutByte t q 0 (fld d.col 16 8)), (8, lutByte t q 1 (fld d.col 8 8)),
          (0, lutByte t q 2 (fld d.col 0 8))]
  | _, _ => d.col

/-- One channel of R354. -/
def mix (a col dst lo : Nat) : Nat := ((a * (col / 2 ^ lo % 256) + (16 - a) * (dst / 2 ^ lo % 256) + 8) / 16) * 2 ^ lo

/-- One candidate over what lies beneath it (R354). -/
def blendOver (a : Nat) (col dst : Word) : Word :=
  let f := mix a col.toNat dst.toNat
  w32 (f 0 + f 8 + f 16)

/-- The candidates in ascending key; of equal keys, the given order holds (R353). -/
def stackOrder (l : List Cand) : List Cand :=
  (List.range 29).flatMap (fun q => l.filter (fun d => d.key = q))

/-- Compose one pixel (R354). -/
def composePixel (k : LineCtx) (l : List Cand) (dst : Word) : Word :=
  l.foldl (fun dst d => blendOver d.blend (preLut k d) dst) dst

/-! ### Collisions (R361) -/

/-- What a line's collisions set: sprites, SS, SL. -/
structure Coll where
  bits : BitVec 256 := 0
  ss : Bool := false
  sl : Bool := false

/-- The collisions at one pixel. -/
def collide (layers : Word) (l : List Cand) (a : Coll) : Coll :=
  let sp := l.filterMap (fun d => match d.sprite with
    | some (j, true) => some j
    | _ => none)
  let lay := l.any (fun d => d.sprite.isNone && bit layers d.plane)
  let ss := 2 ≤ sp.length
  let sl := !sp.isEmpty && lay
  if ss || sl then
    { bits := sp.foldl (fun m j => setBit m j true) a.bits, ss := a.ss || ss, sl := a.sl || sl }
  else a

/-! ### A line -/

/-- The pixels of a line from column x on. -/
def linePixels (k : LineCtx) (sp : List Spr) : Nat → Comp → Nat → Coll → Comp × List Word × Coll
  | 0, c, _, a => (c, [], a)
  | fuel + 1, c, x, a =>
    let (c, lay) := gather (fun c l => layerCand c k x l) c [0, 1, 2, 3]
    let (c, spr) := gather (fun c p => spriteCand c k x p) c sp.reverse
    let l := lay ++ spr
    let a := collide (rget k.regs 0x70) l a
    let w := composePixel k (stackOrder l) (rget k.regs 0x21 &&& 0xFFFFFF)
    let (c, r, a) := linePixels k sp fuel c (x + 1) a
    (c, w :: r, a)

/-- Read the LUT area as line 0 of a frame begins (R358): none where it is invalid or poisoned. -/
def readLut (s : State) (act : Tab Word) : State × Option (List Byte) :=
  let a := addrOf (rget act 0x22)
  if !structOk a 3072 then (s, none)
  else
    match readMem s 12 a 3072 with
    | (s, .ok b) => (s, some b)
    | (s, .error _) => (s, none)

/-- The LUT area that a frame's lines use: the one its line 0 read, else the last read. -/
def Scene.lutFor (c : Scene) (n : Nat) : Option (List Byte) :=
  match (c.luts.filter (fun p => p.1 ≤ n)).getLast? with
  | none => none
  | some p => p.2

/-- Render line (n, l) of scene i (R296, R299, R304, R353 to R362). A blanking line is
empty. -/
def renderLine (s : State) (i : Nat) (c : Scene) (p : Nat) : State × RLine :=
  let n := p / c.total
  let l := p % c.total
  let (s, before) := regsBefore s c p
  let (s, regs, bad, cut) := lineRegs s c p before
  let s := match cut with
    | some k => updScene s i (fun c => { c with ltStop := some (p, k) })
    | none => s
  let err := bad || cut.isSome
  if c.height ≤ l then (s, { frame := n, line := l, regs := regs, ltErr := err })
  else
    let act := c.activeFor n
    let (s, c) :=
      if l = 0 then
        let (s, t) := readLut s act
        let s := updScene s i (fun c => { c with luts := Tab.put (c.luts.filter (fun q => n ≤ q.1 + 2)) n t })
        (s, (sceneOf s i).getD c)
      else (s, c)
    let k : LineCtx := { i := i, frame := n, y := l, width := c.width, regs := regs, act := act,
                         lut := c.lutFor n }
    let m : Comp := { s := s }
    let (m, sp) := lineSprites (if l = 0 && k.lut.isNone then m.flag 6 else m) k
    let (m, pix, a) := linePixels k sp c.width m 0 {}
    (m.s, { frame := n, line := l, pix := pix, regs := regs, lay := m.lay, ltErr := err,
            coll := a.bits, ss := a.ss, sl := a.sl })

end Sys2Proof.Machine
end

