-- ==== Sys2Proof/Machine/Lane.lean ====
section
/-! DEFINITION. The lanes (chapter 12): modules, lane states, equalisers, lock, which
received frames are accepted, and cycle alignment. -/

namespace Sys2Proof.Machine

def onTl (s : State) (f : Towline → Towline) : State := { s with tl := f s.tl }
def laneOf (s : State) (l : Nat) : Lane := s.tl.lanes.get {} l
def updLane (s : State) (l : Nat) (f : Lane → Lane) : State :=
  onTl s (fun t => { t with lanes := t.lanes.upd {} l f })
/-- The lane's island runs. -/
def laneRuns (s : State) (l : Nat) : Bool := running s (islLane l)
/-- The number of the cycle in progress. -/
def cycleNo (s : State) : Word := s.tl.cyc.number

/-! ### Lane states (R479, R488, R489, R509) -/

/-- The state code of a lane (R479). TEST comes first, and a module that has not been read yet
is no module (DEDUCED, log entry 21). -/
def Lane.codeNow (x : Lane) : Nat :=
  if x.test ≠ 0 then 8
  else if !x.enable then 0
  else if !x.present || !x.read then 1
  else if x.kind = 0 then 2
  else if x.faulted then 9
  else if x.los then 3
  else if !x.blockLock then 4
  else if x.hiBer then 5
  else if x.aligned then 7
  else 6

/-- SFPn_TX_DIS is high in these states (R479). -/
def txDisOf (code : Nat) : Bool := code = 0 || code = 1 || code = 2 || code = 9

/-- The level that SFPn_TX_DIS is driven to: by the state (R479), and high while the module matches
no row, whatever the state (R476). -/
def Lane.txOff (x : Lane) : Bool := txDisOf x.code || (x.present && x.read && x.kind = 0)

/-- Drive SFPn_TX_DIS of a lane. -/
def driveTx (s : State) (l : Nat) : State :=
  let d := (laneOf s l).txOff
  if d = (laneOf s l).txDis then s
  else emit (updLane s l (fun x => { x with txDis := d })) (.txDis l d)

/-- A lane that leaves ALIGNING and ALIGNED loses alignment and any hit (R489). -/
def Lane.unalign (x : Lane) : Lane :=
  { x with aligned := false, hit := none, last := none,
           cntAlign := if x.aligned then x.cntAlign + 1 else x.cntAlign }

/-- The receiver has no signal to lock to: DISABLED, NO_MODULE, NO_SIGNAL and TEST. -/
def codeSilent (code : Nat) : Bool := code = 0 || code = 1 || code = 3 || code = 8

/-- A lane with no signal loses block lock, and searches for it afresh when the signal is
back (R487, the questions of chapter 12; DEDUCED, log entry 21). The loss counts unless the
lane was switched off or put under test. -/
def Lane.unlock (x : Lane) (code : Nat) : Lane :=
  { x with blockLock := false, hiBer := false,
           cntLock := if x.blockLock && (code = 1 || code = 3) then x.cntLock + 1 else x.cntLock }

/-- Take up the state that the inputs now give, and post LANE_STATE if it changed
(R489, R509). Nothing happens while the lane's island is fenced (R43). -/
def laneSettle (s : State) (l : Nat) : State :=
  if !laneRuns s l then s
  else
    let x := laneOf s l
    let c := x.codeNow
    if c = x.code then driveTx s l
    else
      let s := updLane s l (fun x =>
        let y := { x with code := c }
        let y := if codeSilent c then y.unlock c else y
        if c = 6 ∨ c = 7 then y else y.unalign)
      postRec (driveTx s l) (islLane l) 0x25 0 (pack [(0, l), (8, c)]) 0

/-- Change a lane, then take up its state. -/
def laneChange (s : State) (l : Nat) (f : Lane → Lane) : State := laneSettle (updLane s l f) l

/-- Loss of alignment of an aligned lane (R504). -/
def laneLose (s : State) (l : Nat) : State := laneChange s l Lane.unalign

/-- The receiver of a lane works: enabled, not in TEST, its island running. -/
def laneListens (s : State) (l : Nat) : Bool :=
  laneRuns s l && (laneOf s l).enable && (laneOf s l).test = 0

/-- The lane may put a frame on the wire (R476, R495). -/
def laneSends (s : State) (l : Nat) : Bool :=
  let x := laneOf s l
  laneRuns s l && x.enable && x.test = 0 && x.code ≠ 2

/-! ### Modules (R476 to R481, R510, R511) -/

/-- A byte of a management page. -/
def pb (p : List Byte) (i : Nat) : Nat := (p.getD i 0).toNat

/-- CC_BASE of SFF-8472: byte 63 is the low byte of the sum of bytes 0 to 62 (PRESUMED, log
entry 22). -/
def ccBase (p : List Byte) : Bool := pb p 63 = (List.range 63).foldl (fun a i => a + pb p i) 0 % 256

/-- The kind code of an identification page (R476); 0 matches no row. -/
def moduleKind (p : List Byte) : Nat :=
  let copper := 1 ≤ pb p 18 ∧ pb p 18 ≤ 7
  if !ccBase p ∨ pb p 0 ≠ 3 then 0
  else if pb p 3 / 16 % 2 = 1 then 1
  else if pb p 3 / 32 % 2 = 1 then 2
  else if pb p 8 / 4 % 2 = 1 ∧ copper then 3
  else if pb p 8 / 8 % 2 = 1 ∧ copper then 4
  else 0

/-- The equaliser preset of a kind and copper length (R481). -/
def preset (kind len : Nat) : Eq :=
  if kind ≤ 2 then { pre := 0, main := 40, post := 0 }
  else if len ≤ 3 then { pre := 0, main := 36, post := 2 }
  else { pre := 1, main := 32, post := 4 }

/-- A failed transaction of a cage's I2C port (R510). -/
def Lane.i2cFail (x : Lane) : Lane :=
  { x with i2cFails := x.i2cFails + 1, i2cErr := x.i2cErr || decide (2 ≤ x.i2cFails) }

/-- What a successful read of the identification page gives (R476, R481). -/
def Lane.identify (x : Lane) (p : List Byte) : Lane :=
  let k := moduleKind p
  { x with i2cFails := 0, i2cErr := false, read := true, kind := k,
           ddm := pb p 92 / 64 % 2 = 1,
           lengthM := if 3 ≤ k then p.getD 18 0 else 0,
           eq := if k = 0 ∨ x.freeze = true then x.eq else preset k (pb p 18) }

/-- A 16-bit quantity of a page, most significant byte first. -/
def pw (p : List Byte) (i : Nat) : Nat := pb p i * 256 + pb p (i + 1)

/-- A quantity is outside the alarm range of its thresholds (SFF-8472: high alarm, then low
alarm, in groups of eight bytes; PRESUMED, log entry 22). Temperature is signed. -/
def alarm (p : List Byte) (q v : Nat) : Bool :=
  if q = 0 then
    decide (signed 16 (pw p 0) < signed 16 v) || decide (signed 16 v < signed 16 (pw p 2))
  else decide (pw p (8 * q) < v) || decide (v < pw p (8 * q + 2))

/-- What a successful diagnostics read gives (R478). -/
def Lane.diagnose (x : Lane) (p : List Byte) : Lane :=
  { x with i2cFails := 0, i2cErr := false,
           temp := BitVec.ofNat 16 (pw p 96), vcc := BitVec.ofNat 16 (pw p 98),
           txPower := BitVec.ofNat 16 (pw p 102), rxPower := BitVec.ofNat 16 (pw p 104),
           alarms := BitVec.ofNat 5 ((List.range 5).foldl
             (fun a q => a + b2n (alarm p q (pw p (96 + 2 * q))) * 2 ^ q) 0) }

/-- MODULE_INSERTED (R477). -/
def execModuleInserted (lane : Fin 8) (s : State) : Host.Outcome State Fault Refusal :=
  .next (laneChange s lane (fun x => { x with present := true, read := false, kind := 0 }))

/-- The firmware reads a module through PI's I2C master (R27, R43): both must run. -/
def modulePort (s : State) : Bool := fwRuns s && running s islPI

/-- MODULE_READ (R476, R477, R481, R510): none stands for a failed transaction. -/
def execModuleRead (lane : Fin 8) (page : Option (List Byte)) (s : State) :
    Host.Outcome State Fault Refusal :=
  .next (if modulePort s && (laneOf s lane).present then
      laneChange s lane (fun x => match page with
        | none => x.i2cFail
        | some p => x.identify p)
    else s)

/-- MODULE_REMOVED (R479). -/
def execModuleRemoved (lane : Fin 8) (s : State) : Host.Outcome State Fault Refusal :=
  .next (laneChange s lane (fun x =>
    { x with present := false, read := false, kind := 0, ddm := false, lengthM := 0 }))

/-- RX_LOS_CHANGE (R479, R489). -/
def execRxLosChange (lane : Fin 8) (los : Bool) (s : State) : Host.Outcome State Fault Refusal :=
  .next (laneChange s lane (fun x => { x with los := los }))

/-- TX_FAULT (R511). -/
def execTxFault (lane : Fin 8) (s : State) : Host.Outcome State Fault Refusal :=
  .next (laneChange s lane (fun x => { x with faultIn := true, faulted := true }))

/-- TX_FAULT_PULSE (R511). -/
def execTxFaultPulse (lane : Fin 8) (s : State) : Host.Outcome State Fault Refusal :=
  .next (if fwRuns s && (laneOf s lane).faulted then emit s (.txPulse lane) else s)

/-- TX_FAULT_CLEARED (R511). -/
def execTxFaultCleared (lane : Fin 8) (s : State) : Host.Outcome State Fault Refusal :=
  .next (laneChange s lane (fun x => { x with faultIn := false, faulted := false }))

/-- DDM_POLL (R478, R510): none stands for a failed transaction. -/
def execDdmPoll (lane : Fin 8) (page : Option (List Byte)) (s : State) :
    Host.Outcome State Fault Refusal :=
  let x := laneOf s lane
  .next (if modulePort s && x.present && x.read && x.ddm then
      updLane s lane (fun x => match page with
        | none => x.i2cFail
        | some p => x.diagnose p)
    else s)

/-! ### Equalisers (R482 to R486) -/

/-- Move a value by a step, inside its range. -/
def nudge (lo hi v d : Int) : Int := max lo (min hi (v + d))

/-- EQ_ADAPT_STEP (R482): the steps the error gives, −1, 0 or 1 for the CTLE and for each
tap. -/
def execEqAdaptStep (lane : Fin 8) (ctle : Int) (taps : List Int) (s : State) :
    Host.Outcome State Fault Refusal :=
  if taps.length = 5 ∧ (ctle :: taps).all (fun d => -1 ≤ d && d ≤ 1) then
    let x := laneOf s lane
    .next (if laneRuns s lane && x.blockLock && !x.freeze then
        updLane s lane (fun x =>
          let e := { x.eq with
            ctle := BitVec.ofInt 4 (nudge 0 15 x.eq.ctle.toNat ctle),
            taps := (x.eq.taps.zip taps).map (fun p => BitVec.ofInt 6 (nudge (-31) 31 p.1.toInt p.2)) }
          { x with eq := e })
      else s)
  else .refused .illFormed

/-- End the POST trial under way: the step is kept only if the mean eye rose by 2
(R483). -/
def Lane.judge (x : Lane) : Lane :=
  match x.trial.test with
  | none => x
  | some (old, sum, n) =>
    let better := 0 < n && 0 < x.trial.n
      && decide (sum * x.trial.n + 2 * n * x.trial.n ≤ x.trial.sum * n)
    { x with eq := { x.eq with post := if better then x.eq.post else old },
             trial := { x.trial with test := none } }

/-- Start the next POST trial, in the other direction than the last (R483). -/
def Lane.tryPost (x : Lane) : Lane :=
  let p := x.eq.post
  let q : BitVec 4 := if x.trial.up then (if p = 0 then p else p - 1) else (if p = 15 then p else p + 1)
  { x with eq := { x.eq with post := q },
           trial := { up := !x.trial.up, test := some (p, x.trial.sum, x.trial.n) } }

/-- TX_POST_TRIAL (R483). -/
def execTxPostTrial (lane : Fin 8) (s : State) : Host.Outcome State Fault Refusal :=
  .next (if !laneRuns s lane then s
    else updLane s lane (fun x =>
      if x.freeze then { x with trial := { x.trial with test := none, sum := 0, n := 0 } }
      else if x.aligned && x.partnerEye ≠ 0 then x.judge.tryPost
      else
        let y := { x with trial := { x.trial with n := 0 } }
        { y.judge with trial := { up := x.trial.up } }))

/-- EYE_MEASURE (R484). -/
def execEyeMeasure (lane : Fin 8) (eye : Byte) (s : State) : Host.Outcome State Fault Refusal :=
  .next (if !laneRuns s lane then s
    else
      let x := laneOf s lane
      let low := if eye.toNat < 48 then x.lowMs + 1 else 0
      let high := if 64 < eye.toNat then x.highMs + 1 else 0
      let warn := !x.degraded && decide (100 ≤ low)
      let s := updLane s lane (fun x =>
        { x with eye := eye, minEye := if eye < x.minEye then eye else x.minEye,
                 lowMs := low, highMs := high,
                 degraded := warn || (x.degraded && decide (high < 1000)) })
      if warn then loopWarning s (islLane lane) 2 lane 2 else s)

/-- TL_EQ_TX, TL_EQ_RX and TL_EQ_DFE (R512). -/
def Eq.txWord (e : Eq) : Word := pack [(0, e.pre.toNat), (8, e.main.toNat), (16, e.post.toNat)]
def Eq.rxWord (e : Eq) : Word := e.ctle.setWidth 32
def Eq.dfeWord (e : Eq) : Word :=
  pack ((List.range 5).map (fun k => (6 * k, (e.taps.getD k 0).toNat)))

/-- The equaliser values that those words spell. -/
def eqOf (tx rx dfe : Word) : Eq :=
  { pre := tx.truncate 3, main := BitVec.ofNat 6 (fld tx 8 6), post := BitVec.ofNat 4 (fld tx 16 4),
    ctle := rx.truncate 4, taps := (List.range 5).map (fun k => BitVec.ofNat 6 (fld dfe (6 * k) 6)) }

/-- Where the firmware saves the taps of a lane: 16 bytes, the last word 1 once it has (DESIGN CHOICE,
log entry 59). -/
def tapsOf (l : Nat) : Nat := 0x003C0000 + 16 * l

/-- Save the taps of an unfrozen lane (R486). -/
def saveTaps (s : State) (l : Nat) : State :=
  let x := laneOf s l
  if laneRuns s l && !x.freeze then
    (writeReq s 2 (tapsOf l) ([x.eq.txWord, x.eq.rxWord, x.eq.dfeWord, 1].flatMap
      (fun w => leBytes 4 w.toNat))).1
  else s

/-- TAP_SAVE (R486). -/
def execTapSave (s : State) : Host.Outcome State Fault Refusal :=
  .next (if fwRuns s then (List.range 8).foldl saveTaps s else s)

/-- Load the saved taps of an unfrozen lane (R486); with none saved, or where they cannot be read, it
takes the preset of its module (log entry 59). -/
def loadTaps (s : State) (l : Nat) : State :=
  let x := laneOf s l
  if x.freeze then s
  else
    let first : Eq := if x.read then preset x.kind x.lengthM.toNat else {}
    match readReq s 2 (tapsOf l) 16 with
    | (s, .error _) => updLane s l (fun x => { x with eq := first })
    | (s, .ok b) =>
      let e := if leWord (b.drop 12) = 1 then eqOf (leWord b) (leWord (b.drop 4)) (leWord (b.drop 8)) else first
      updLane s l (fun x => { x with eq := e })

/-! ### Lock (R487 to R489) -/

/-- BLOCK_LOCK_GAINED (R487). -/
def execBlockLockGained (lane : Fin 8) (s : State) : Host.Outcome State Fault Refusal :=
  .next (if laneListens s lane then laneChange s lane (fun x => { x with blockLock := true }) else s)

/-- BLOCK_LOCK_LOST (R487, R489). -/
def execBlockLockLost (lane : Fin 8) (s : State) : Host.Outcome State Fault Refusal :=
  .next (if laneListens s lane && (laneOf s lane).blockLock then
      laneChange s lane (fun x => { x with blockLock := false, cntLock := x.cntLock + 1 })
    else s)

/-- HI_BER_WINDOW (R487): the invalid sync headers of one 125 µs window. -/
def execHiBerWindow (lane : Fin 8) (invalid : Nat) (s : State) :
    Host.Outcome State Fault Refusal :=
  .next (if laneListens s lane then
      laneChange s lane (fun x =>
        let h := decide (16 ≤ invalid)
        { x with hiBer := h, cntErrBlk := x.cntErrBlk + w32 invalid,
                 cntHiBer := if h && !x.hiBer then x.cntHiBer + 1 else x.cntHiBer })
    else s)

/-! ### Received frames (R473 to R475, R488, R490, R492) -/

/-- The Towline group address (R474). -/
def groupMac : List Byte := [0x03, 0x56, 0x59, 0x00, 0x00, 0x00]
/-- The lane's own address (R475), as it travels: most significant byte first (R19). -/
def laneMac (s : State) (l : Nat) : List Byte := beBytes 6 (s.otp.mac.toNat + l)

/-- The frame check sequence of IEEE 802.3 over the bytes before it, as it travels: least significant
byte first (R473; PRESUMED, log entry 59). -/
def fcsOf (b : List Byte) : List Byte := leBytes 4 (crc32 b).toNat

/-- A field of a frame, most significant byte first (R19): `n` bytes at offset `o` of it. -/
def rxAt (f : RxFrame) (o n : Nat) : Nat := beNat ((f.bytes.drop o).take n)
/-- The fields of the Towline header, which follows the EtherType (R490). -/
def rxType (f : RxFrame) : Nat := rxAt f 15 1
def rxAddr (f : RxFrame) : Nat := rxAt f 16 2
def rxLen (f : RxFrame) : Nat := rxAt f 18 2
def rxCycle (f : RxFrame) : Word := w32 (rxAt f 22 4)
def rxSession (f : RxFrame) : BitVec 16 := BitVec.ofNat 16 (rxAt f 26 2)
/-- The payload: LENGTH bytes, without the padding (R490). -/
def rxPayload (f : RxFrame) : List Byte := (f.bytes.drop 30).take (rxLen f)

/-- Why a lane drops a received frame: the counters of R512. -/
inductive Drop where
  /-- FCS, error block or length. -/
  | fcs
  /-- Address or EtherType. -/
  | filter
  /-- A bad header. -/
  | header
  /-- A stale session. -/
  | session
  deriving DecidableEq, Repr

/-- A frame came whole, with a correct FCS and a length that R474 allows. -/
def rxWhole (f : RxFrame) : Bool :=
  f.ended && f.errBlocks = 0 && 64 ≤ f.bytes.length && f.bytes.length ≤ 9216
    && f.bytes.drop (f.bytes.length - 4) = fcsOf (f.bytes.take (f.bytes.length - 4))

/-- The header checks of R492 but for SESSION. -/
def rxHeaderOk (f : RxFrame) (l : Nat) : Bool :=
  rxAt f 14 1 = 1 && [0x01, 0x03, 0x06, 0x08].contains (rxType f) && rxAt f 20 1 = 1 && rxAt f 21 1 = 0
    && rxAt f 28 2 = 0 && 34 + rxLen f ≤ f.bytes.length && (rxAddr f = 0xFFFF || rxAddr f / 256 = l)

/-- The first check that a received frame fails, in the order of R474; a stale SESSION is named before
another fault of the header (R474, R492; DEDUCED, log entry 59). -/
def rxCheck (s : State) (l : Nat) (f : RxFrame) : Option Drop :=
  if !rxWhole f then some .fcs
  else if (f.bytes.take 6 ≠ laneMac s l ∧ f.bytes.take 6 ≠ groupMac) ∨ rxAt f 12 2 ≠ 0x88B5 then some .filter
  else if rxSession f ≠ (laneOf s l).session then some .session
  else if !rxHeaderOk f l then some .header
  else none

/-- Count a dropped frame (R474, R492, R512). -/
def countDrop (s : State) (l : Nat) (d : Drop) : State :=
  updLane s l (fun x => match d with
    | .fcs => { x with cntFcs := x.cntFcs + 1 }
    | .filter => { x with cntFilter := x.cntFilter + 1 }
    | .header => { x with cntHdr := x.cntHdr + 1 }
    | .session => { x with cntSession := x.cntSession + 1 })

/-- The lane accepts frames at all: ALIGNING or ALIGNED (R488). -/
def laneOpen (s : State) (l : Nat) : Bool :=
  laneRuns s l && ((laneOf s l).code = 6 || (laneOf s l).code = 7)

/-- The error blocks inside a frame count wherever the receiver works (R512). -/
def countBlocks (s : State) (l : Nat) (f : RxFrame) : State :=
  if laneListens s l && f.errBlocks ≠ 0 then
    updLane s l (fun x => { x with cntErrBlk := x.cntErrBlk + w32 f.errBlocks })
  else s

/-- A received frame is accepted, or dropped and counted (R474, R488, R492). A lane that accepts no
frame counts none. -/
def rxAccept (s : State) (l : Nat) (f : RxFrame) : State × Bool :=
  let s := countBlocks s l f
  if !laneOpen s l then (s, false)
  else match rxCheck s l f with
    | some d => (countDrop s l d, false)
    | none => (updLane s l (fun x => { x with cntRx := x.cntRx + 1 }), true)

/-- RX_FRAME_DROP (R474, R488): a frame that passes every check is none of this row's. -/
def execRxFrameDrop (lane : Fin 8) (f : RxFrame) (s : State) : Host.Outcome State Fault Refusal :=
  .next (match rxAccept s lane f with
    | (t, false) => t
    | (_, true) => s)

/-- A frame of a TYPE, if it is accepted (R491): the rows of the frame types share this. -/
def onFrame (s : State) (l : Nat) (f : RxFrame) (type : Nat) (g : State → State) : State :=
  if rxType f ≠ type then s
  else match rxAccept s l f with
    | (t, false) => t
    | (t, true) => g t

/-! ### Cycle alignment (R501 to R505) -/

/-- How far an arrival lies from what is expected of it: after an earlier frame, by `n`
cycles (R503, R504). -/
def deviation (s : State) (first : Dword) (n : Nat) : Int :=
  (s.tick.toNat : Int) - first.toNat - n * s.tl.cyc.period

/-- The 16-bit DEV field; a deviation that does not fit it is a free value (log entry
23). -/
def setDev (s : State) (l : Nat) (d : Int) : State :=
  if -32768 ≤ d ∧ d ≤ 32767 then updLane s l (fun x => { x with dev := BitVec.ofInt 16 d })
  else
    let (s, v) := drawFree s
    updLane s l (fun x => { x with dev := v.truncate 16 })

/-- A recognised upstream CYCLE frame on an ALIGNING lane (R503). -/
def alignHit (s : State) (l : Nat) (cyc : Word) : State :=
  match (laneOf s l).hit with
  | none => updLane s l (fun x => { x with hit := some (s.tick, cyc) })
  | some (t, c) =>
    let d := deviation s t 1
    let s := setDev s l d
    if -50 ≤ d ∧ d ≤ 50 ∧ cyc = c + 1 then
      laneChange s l (fun x =>
        { x with aligned := true, alignTick := s.tick, hit := none, last := some (s.tick, cyc) })
    else updLane s l (fun x => { x with hit := some (s.tick, cyc) })

/-- A recognised upstream CYCLE frame on an ALIGNED lane (R504). -/
def alignCheck (s : State) (l : Nat) (cyc : Word) : State :=
  match (laneOf s l).last with
  | none => s
  | some (t, c) =>
    let d := deviation s t (cyc - c).toNat
    let s := setDev s l d
    if -50 ≤ d ∧ d ≤ 50 then updLane s l (fun x => { x with last := some (s.tick, cyc) })
    else laneLose s l

/-- A recognised upstream CYCLE frame (R498, R499, R501 to R504). -/
def cycleHeard (s : State) (l : Nat) (f : RxFrame) : State :=
  let eye := (rxPayload f).getD 0 0
  let s := updLane s l (fun x =>
    { x with cycleRx := rxCycle f, partnerEye := eye, partnerAligned := ((rxPayload f).getD 1 0).getLsbD 0,
             trial := { x.trial with sum := x.trial.sum + eye.toNat, n := x.trial.n + 1 } })
  if (laneOf s l).aligned then alignCheck s l (rxCycle f) else alignHit s l (rxCycle f)

/-- UPSTREAM_CYCLE (R498, R499, R501 to R504). -/
def execUpstreamCycle (lane : Fin 8) (bytes : List Byte) (errBlocks : Nat) (ended : Bool) (s : State) :
    Host.Outcome State Fault Refusal :=
  .next (let f : RxFrame := ⟨bytes, errBlocks, ended⟩
    onFrame s lane f 0x01 (fun s => cycleHeard s lane f))

/-- ALIGNMENT_LOSS (R504): two consecutive cycles have gone by without a recognised
upstream CYCLE frame. -/
def execAlignmentLoss (lane : Fin 8) (s : State) : Host.Outcome State Fault Refusal :=
  let x := laneOf s lane
  .next (if laneRuns s lane && x.aligned && decide (2 ≤ (cycleNo s - x.cycleRx).toNat) then
      laneLose s lane
    else s)

end Sys2Proof.Machine
end

