-- ==== Sys2Proof/Machine/Push.lean ====
section
/-! DEFINITION. Region push (chapter 10): patches, signatures, receivers and what they are
owed, staging, the region list, pieces and their form on the wire. -/

namespace Sys2Proof.Machine

/-! ### Receivers (R408, R409, R424) -/

/-- The number that stands for the local pit panel among the receivers; every smaller one
is a station index. -/
def panelId : Nat := 2048

def stationOf (s : State) (i : Nat) : Option Station := s.tl.stations.find? i
def recvOf (s : State) (r : Nat) : Recv :=
  if r = panelId then s.tp.panel.recv else s.tp.recv.get {} r
def updRecv (s : State) (r : Nat) (f : Recv → Recv) : State :=
  if r = panelId then onTp s (fun t => { t with panel := { t.panel with recv := f t.panel.recv } })
  else onTp s (fun t => { t with recv := t.recv.upd {} r f })

/-- A rectangle of the canvas or of patches. -/
structure Rect where
  x : Nat
  y : Nat
  w : Nat
  h : Nat
  deriving DecidableEq, Repr

/-- The scene a receiver shows. -/
def recvScene (s : State) (r : Nat) : Option Nat :=
  if r = panelId then s.tp.panel.scene else (stationOf s r).map (·.scene)

/-- The window of a receiver on a scene (R408). -/
def window (s : State) (r : Nat) (c : Scene) : Rect :=
  if r = panelId then
    let p := s.tp.panel
    { x := p.offX, y := p.offY, w := min c.width (p.offX + p.w) - p.offX,
      h := min c.height (p.offY + p.h) - p.offY }
  else
    match stationOf s r with
    | none => { x := 0, y := 0, w := 0, h := 0 }
    | some t => { x := 0, y := 0, w := min c.width t.panelW, h := min c.height t.panelH }

/-- The common part of two rectangles. -/
def Rect.meet (a b : Rect) : Rect :=
  let x := max a.x b.x
  let y := max a.y b.y
  { x := x, y := y, w := min (a.x + a.w) (b.x + b.w) - x, h := min (a.y + a.h) (b.y + b.h) - y }
def Rect.empty (a : Rect) : Bool := a.w = 0 || a.h = 0
def Rect.area (a : Rect) : Nat := a.w * a.h

/-- Patch columns and rows of a scene (R404). -/
def Scene.cols (c : Scene) : Nat := (c.width + 15) / 16
def Scene.rows (c : Scene) : Nat := (c.height + 15) / 16
/-- The bit of patch (col, row). -/
def patchBit (col row : Nat) : Nat := 64 * row + col
/-- The canvas rectangle of patches. -/
def Rect.canvas (a : Rect) : Rect := { x := 16 * a.x, y := 16 * a.y, w := 16 * a.w, h := 16 * a.h }

/-- The patches (as bits) of a scene that meet a canvas rectangle. -/
def patchesIn (c : Scene) (a : Rect) : BitVec 3072 :=
  (List.range c.rows).foldl (fun m r =>
    (List.range c.cols).foldl (fun m k =>
      if (a.meet (Rect.canvas { x := k, y := r, w := 1, h := 1 })).empty then m
      else setBit m (patchBit k r) true) m) 0

/-- How many bits are set. -/
def popCount {n : Nat} (m : BitVec n) : Nat :=
  (List.range n).foldl (fun a i => a + b2n (m.getLsbD i)) 0

/-- Owe a receiver its whole window (R424). -/
def oweAll (s : State) (r : Nat) : State :=
  match (recvScene s r).bind (sceneOf s) with
  | none => s
  | some c => updRecv s r (fun v => { v with owed := patchesIn c (window s r c) })

/-- Owe a receiver every patch that meets a piece's lines and columns within its window (R413,
R421): the patches of the scene that it shows now. -/
def owePiece (s : State) (r : Nat) (p : Piece) : State :=
  match (recvScene s r).bind (sceneOf s) with
  | none => s
  | some c =>
    updRecv s r (fun v => { v with
      owed := v.owed ||| patchesIn c (({ x := p.x, y := p.y, w := p.w, h := p.h } : Rect).meet (window s r c)) })

/-- The stations that show a scene and whose exchange has started, in ascending index. -/
def clones (s : State) (i : Nat) : List Nat :=
  (s.tl.stations.filter (fun p => p.2.started && p.2.scene = i)).map (·.1)

/-- The receivers of a scene: its clones, and the panel where it shows it (R408). -/
def receivers (s : State) (i : Nat) : List Nat :=
  clones s i ++ (if s.tp.panel.scene = some i then [panelId] else [])

/-- Pieces may be queued for a receiver: a station neither in CONFIG nor LOST (R414,
R528), or the panel. -/
def pushable (s : State) (r : Nat) : Bool :=
  if r = panelId then true
  else match stationOf s r with
    | none => false
    | some t => t.code = 2 || t.code = 3

/-! ### The push store (R410, R411, R423) -/

/-- A piece not yet sent needs a row. -/
def Piece.needs (p : Piece) (i : Nat) (g : Staged) : Bool :=
  p.sent.isNone && p.scene = i && p.frame = g.frame
    && decide (p.y < 16 * g.row + 16) && decide (16 * g.row < p.y + p.h)

/-- Every piece queued for any receiver. -/
def allPieces (s : State) : List Piece :=
  s.tp.panel.recv.pieces ++ s.tp.recv.flatMap (fun p => p.2.pieces)

/-- Free the rows of scene i up to a frame that no unsent piece needs (R423). -/
def freeRows (s : State) (i n : Nat) : State :=
  let ps := allPieces s
  updScene s i (fun c =>
    { c with staged := c.staged.filter (fun g => n < g.frame || ps.any (fun p => p.needs i g)) })

/-- Free rows of every scene whose list has been formed. -/
def freeAll (s : State) : State :=
  s.tp.scenes.foldl (fun s p =>
    if p.2.nextLine < p.2.height then
      (if 0 < p.2.nextFrame then freeRows s p.1 (p.2.nextFrame - 1) else s)
    else freeRows s p.1 p.2.nextFrame) s

/-- The staged rows of every scene as (address, size). -/
def stagedAll (s : State) : List (Nat × Nat) :=
  s.tp.scenes.flatMap (fun p => p.2.staged.map (fun g => (g.addr, g.bytes)))

/-- Bytes of the push store in use (R436). -/
def pushUsed (s : State) : Nat := (stagedAll s).foldl (fun a g => a + g.2) 0

/-- The push store: 6 MiB (R430). -/
def pushSize : Nat := 6 * 1048576

/-- The lowest address of the push store with room for `n` bytes, which starts the store or
follows a staged row (DESIGN CHOICE, log entry 24). -/
def pushFit (s : State) (n : Nat) : Option Nat :=
  let used := stagedAll s
  let base := s.tp.pushBase
  let free (a : Nat) : Bool := decide (a + n ≤ base + pushSize)
    && used.all (fun g => decide (a + n ≤ g.1) || decide (g.1 + g.2 ≤ a))
  let cand := (base :: used.map (fun g => g.1 + g.2)).filter free
  match cand with
  | [] => none
  | x :: r => some (r.foldl min x)

/-! ### Signatures (R405 to R407, R434) -/

/-- The bytes R, G, B of pixels. -/
def rgbBytes (l : List Word) : List Byte :=
  l.flatMap (fun w => [BitVec.ofNat 8 (fld w 16 8), BitVec.ofNat 8 (fld w 8 8), BitVec.ofNat 8 (fld w 0 8)])

/-- The pixels of a patch row in one frame, or none if a line of it did not commit. -/
def Scene.rowPixels (c : Scene) (row : Nat) : Option (List (List Word)) :=
  (List.range (min 16 (c.height - 16 * row))).mapM (fun j =>
    (c.rowLines.find? (fun p => p.1 = 16 * row + j)).map (·.2))

/-- The signature of one patch of a row (R405). -/
def signPatch (lines : List (List Word)) (col : Nat) : Word :=
  crc32 (lines.flatMap (fun l => rgbBytes ((l.drop (16 * col)).take 16)))

/-- The Basin address of a patch's word in the signature map (R436). -/
def Scene.sigWord (c : Scene) (col row : Nat) : Nat := c.sigAddr + 4 * (row * c.cols + col)

/-- Write a patch's word of the signature map; over poison the doubleword whole, with the
neighbour's newest signature (R434). -/
def writeSig (s : State) (c : Scene) (col row : Nat) (g : Word) (bad : Bool) : State × Option Err :=
  let a := c.sigWord col row
  if bad then
    let k := row * c.cols + col
    let k' := if k % 2 = 0 then k + 1 else k - 1
    let other := (c.sig.find? (patchBit (k' % c.cols) (k' / c.cols))).getD 0
    writeReq s 12 (a / 8 * 8) (if k % 2 = 0 then leBytes 4 g.toNat ++ leBytes 4 other.toNat
      else leBytes 4 other.toNat ++ leBytes 4 g.toNat)
  else writeReq s 12 a (leBytes 4 g.toNat)

/-- Sign one patch: compare with its map entry, and note it CHANGED where they differ (R406, R434).
An entry never signed differs from every signature (R407), and one that takes no write stays as it
was. -/
def signOne (s : State) (i row : Nat) (lines : List (List Word)) (col : Nat) : State :=
  match sceneOf s i with
  | none => s
  | some c =>
    let g := signPatch lines col
    let signed := (c.sig.find? (patchBit col row)).isSome
    match readReq s 12 (c.sigWord col row) 4 with
    | (s, v) =>
      let bad := match v with | .ok _ => false | .error _ => true
      let same := match v with | .ok b => signed && leWord b = g | .error _ => false
      if same then s
      else
        let s := updScene s i (fun c => { c with
          changed := setBit c.changed (patchBit col row) true, cntChanged := satAdd c.cntChanged 1 })
        match writeSig s c col row g bad with
        | (s, some _) => s
        | (s, none) => updScene s i (fun c => { c with sig := c.sig.put (patchBit col row) g })

/-! ### Dirty patches and staging (R409 to R411) -/

/-- The patches dirty for a receiver among the patches of some rows (R409). -/
def dirtyBits (s : State) (r : Nat) (c : Scene) (rowOk : Nat → Bool) : BitVec 3072 :=
  let m := patchesIn c (window s r c) &&& (c.changed ||| (recvOf s r).owed)
  (List.range c.rows).foldl (fun a q =>
    if rowOk q then a ||| (m &&& BitVec.ofNat 3072 ((2 ^ 64 - 1) * 2 ^ (64 * q))) else a) 0

/-- Owe patches to a receiver. -/
def oweBits (s : State) (r : Nat) (m : BitVec 3072) : State :=
  if m = 0 then s else updRecv s r (fun v => { v with owed := v.owed ||| m })

/-- The last line of a patch row committed or underran: sign and stage it (R406, R410,
R411). -/
def closeRow (s : State) (i n row : Nat) : State :=
  match sceneOf s i with
  | none => s
  | some c =>
    match c.rowPixels row with
    | none => s
    | some lines =>
      let s := (List.range c.cols).foldl (fun s k => signOne s i row lines k) s
      match sceneOf s i with
      | none => s
      | some c =>
        let rs := receivers s i
        if rs.all (fun r => dirtyBits s r c (fun q => q = row) = 0) then s
        else
          let b := lines.flatMap rgbBytes
          let defer (s : State) : State :=
            let s := rs.foldl (fun s r => oweBits s r (dirtyBits s r c (fun q => q = row))) s
            let s := onTp s (fun t => { t with pushDeferred := satAdd t.pushDeferred 1 })
            updScene s i (fun c => { c with psDeferred := true })
          match pushFit s b.length with
          | none => defer s
          | some a =>
            match writeMem s 12 a b with
            | (s, some _) => defer s
            | (s, none) =>
              updScene s i (fun c => { c with
                staged := c.staged ++ [{ frame := n, row := row, addr := a, bytes := b.length }],
                cntStaged := satAdd c.cntStaged 1 })

/-! ### The region list (R412) -/

/-- The maximal runs of set columns of a row, as patch rectangles. -/
def runsOf (m : BitVec 3072) (row : Nat) : Nat → Nat → Option Nat → List Rect
  | 0, k, start => match start with
    | none => []
    | some a => [{ x := a, y := row, w := k - a, h := 1 }]
  | fuel + 1, k, start =>
    if m.getLsbD (patchBit k row) then runsOf m row fuel (k + 1) (start.or (some k))
    else match start with
      | none => runsOf m row fuel (k + 1) none
      | some a => { x := a, y := row, w := k - a, h := 1 } :: runsOf m row fuel (k + 1) none

/-- Add a run of a row: it joins the rectangle with its span that ends just above it. -/
def joinRun (l : List Rect) (q : Rect) : List Rect :=
  if l.any (fun a => a.x = q.x && a.w = q.w && a.y + a.h = q.y) then
    l.map (fun a => if a.x = q.x && a.w = q.w && a.y + a.h = q.y then { a with h := a.h + 1 } else a)
  else l ++ [q]

/-- Insert by top row, then left column. -/
def insertRect (q : Rect) : List Rect → List Rect
  | [] => [q]
  | a :: r => if a.y < q.y ∨ (a.y = q.y ∧ a.x ≤ q.x) then a :: insertRect q r else q :: a :: r

/-- Steps 1 to 3. -/
def baseRects (c : Scene) (m : BitVec 3072) : List Rect :=
  let runs := (List.range c.rows).flatMap (fun r => runsOf m r c.cols 0 none)
  (runs.foldl joinRun []).foldl (fun l q => insertRect q l) []

/-- The bounding box of two rectangles. -/
def bbox (a b : Rect) : Rect :=
  let x := min a.x b.x
  let y := min a.y b.y
  { x := x, y := y, w := max (a.x + a.w) (b.x + b.w) - x, h := max (a.y + a.h) (b.y + b.h) - y }

/-- Patches of the bounding box in neither member. -/
def added (a b : Rect) : Nat := (bbox a b).area + (a.meet b).area - a.area - b.area

/-- The pair that step 4 merges: the fewest added patches, then the earliest pair. -/
def bestPair (ok : Nat → Bool) (l : List Rect) : Option (Nat × Nat) :=
  let n := l.length
  let pairs := (List.range n).flatMap (fun i => (List.range n).filterMap (fun j =>
    if i < j then
      match l[i]?, l[j]? with
      | some a, some b =>
        let q := bbox a b
        if (List.range q.h).all (fun k => ok (q.y + k)) then some (added a b, i, j) else none
      | _, _ => none
    else none))
  match pairs with
  | [] => none
  | p :: r =>
    let b := r.foldl (fun m q => if q.1 < m.1 then q else m) p
    some (b.2.1, b.2.2)

/-- Step 4: merge while more than 8 remain and a pair may merge. -/
def mergeRects (ok : Nat → Bool) : Nat → List Rect → List Rect
  | 0, l => l
  | fuel + 1, l =>
    if l.length ≤ 8 then l
    else match bestPair ok l with
      | none => l
      | some (i, j) =>
        match l[i]?, l[j]? with
        | some a, some b =>
          mergeRects ok fuel (insertRect (bbox a b) ((l.eraseIdx j).eraseIdx i))
        | _, _ => l

/-- The patches of a rectangle of patches. -/
def Rect.bits (a : Rect) : BitVec 3072 :=
  (List.range a.h).foldl (fun m r => m ||| BitVec.ofNat 3072 ((2 ^ a.w - 1) * 2 ^ patchBit a.x (a.y + r))) 0

/-! ### Pieces (R413 to R415) -/

/-- Bytes per pixel of a receiver (R417, R425). -/
def bytesPer (s : State) (r : Nat) : Nat :=
  if r = panelId then 2
  else match stationOf s r with
    | some t => if t.fmt = 0 then 2 else 3
    | none => 2

/-- The pieces of a clipped region (R415). -/
def cutPieces (i n k bpp : Nat) (a : Rect) : List Piece :=
  let per := 9163 / (a.w * bpp)
  let cnt := (a.h + per - 1) / per
  (List.range cnt).map (fun q =>
    { scene := i, frame := n, region := k, piece := q, pieces := cnt, x := a.x,
      y := a.y + q * per, w := a.w, h := min per (a.h - q * per) })

/-- Cancel the pieces of a receiver that have not been sent; where they are owed, owe their
patches (R413, R414, R431). -/
def cancelUnsent (s : State) (r : Nat) (owe : Bool) : State :=
  let gone := (recvOf s r).pieces.filter (fun p => p.sent.isNone)
  let s := updRecv s r (fun v => { v with
    pieces := v.pieces.filter (fun p => p.sent.isSome), cancelled := satAdd v.cancelled gone.length })
  if owe then gone.foldl (fun s p => owePiece s r p) s else s

/-- Give a receiver its pieces of a new list (R413, R414, R428). -/
def givePieces (s : State) (i n r : Nat) (rowOk : Nat → Bool) (list : List Rect) : State :=
  match sceneOf s i with
  | none => s
  | some c =>
    let dirty := dirtyBits s r c rowOk
    if !pushable s r then oweBits s r dirty
    else
      let w := window s r c
      let mine := (list.zipIdx).filter (fun q => q.1.bits &&& dirty != 0)
      let ps := mine.flatMap (fun q => cutPieces i n q.2 (bytesPer s r) (q.1.canvas.meet w))
      let clear := mine.foldl (fun m q => m ||| q.1.bits) 0
      let s := updRecv s r (fun v => { v with pieces := v.pieces ++ ps, owed := v.owed &&& ~~~ clear })
      if r = panelId ∧ !ps.isEmpty then
        onTp s (fun t => { t with panel := { t.panel with teWait := t.panel.teEn } })
      else s

/-- Form the region list of frame n (R412, R413): the unsent pieces of earlier lists are cancelled
first, so that what they carried is owed before the list is formed. -/
def formList (s : State) (i n : Nat) : State :=
  let rs := receivers s i
  let s := rs.foldl (fun s r => cancelUnsent s r true) s
  match sceneOf s i with
  | none => s
  | some c =>
    let rowOk (q : Nat) : Bool := c.staged.any (fun g => g.frame = n && g.row = q)
    let any := rs.foldl (fun m r => m ||| dirtyBits s r c rowOk) 0
    let l := mergeRects rowOk 3072 (baseRects c any)
    let list := l.take 8
    let left := (l.drop 8).foldl (fun m q => m ||| q.bits) 0
    let s := rs.foldl (fun s r => oweBits s r (dirtyBits s r c rowOk &&& left)) s
    let s := updScene s i (fun c => { c with
      psRegions := BitVec.ofNat 4 list.length, psTruncated := c.psTruncated || !(l.drop 8).isEmpty,
      psFrame := BitVec.ofNat 16 n })
    let s := rs.foldl (fun s r => givePieces s i n r rowOk list) s
    freeRows (updScene s i (fun c => { c with changed := 0 })) i n

/-! ### What a receiver is sent (R359, R416, R417, R435) -/

/-- One channel through a post-blend LUT; an empty one is the identity (R360). -/
def postByte (lut : List Byte) (ch v : Nat) : Nat :=
  if lut.isEmpty then v else (lut.getD (256 * ch + v) 0).toNat

/-- A pixel's bytes R, G, B in a receiver's format (R359, R417). -/
def pixelBytes (fmt : Nat) (lut : List Byte) (rgb : List Byte) : List Byte :=
  let ch (k : Nat) : Nat := postByte lut k (rgb.getD k 0).toNat
  let r := ch 0
  let g := ch 1
  let b := ch 2
  if fmt = 0 then
    [BitVec.ofNat 8 (r / 8 * 8 + g / 32), BitVec.ofNat 8 (g / 4 % 8 * 32 + b / 8)]
  else if fmt = 1 then
    [BitVec.ofNat 8 (r / 4 * 4), BitVec.ofNat 8 (g / 4 * 4), BitVec.ofNat 8 (b / 4 * 4)]
  else [BitVec.ofNat 8 r, BitVec.ofNat 8 g, BitVec.ofNat 8 b]

/-- Format a run of RGB bytes. -/
def formatRun (fmt : Nat) (lut : List Byte) : List Byte → List Byte
  | r :: g :: b :: l => pixelBytes fmt lut [r, g, b] ++ formatRun fmt lut l
  | _ => []

/-- Format and LUT of a receiver (R359, R425). -/
def formatOf (s : State) (r : Nat) : Nat × List Byte :=
  if r = panelId then (0, [])
  else match stationOf s r with
    | some t => (t.fmt, t.lut)
    | none => (0, [])

/-- The pixels of a piece from the push store, line by line; none where a read meets an
error (R434). -/
def pieceLines (i : Nat) (p : Piece) : Nat → State → Nat → State × Option (List Byte)
  | 0, s, _ => (s, some [])
  | fuel + 1, s, y =>
    match sceneOf s i with
    | none => (s, none)
    | some c =>
      match c.staged.find? (fun g => g.frame = p.frame && g.row = y / 16) with
      | none => (s, none)
      | some g =>
        let (s, v) := readMem s 12 (g.addr + (y % 16 * c.width + p.x) * 3) (3 * p.w)
        let (s, rest) := pieceLines i p fuel s (y + 1)
        match v, rest with
        | .ok b, some r => (s, some (b ++ r))
        | _, _ => (s, none)

/-- The DCS commands of a piece, each with its parameters (R416). -/
def dcsCommands (s : State) (r : Nat) (p : Piece) (pix : List Byte) : List (Byte × List Byte) :=
  let (ox, oy) := if r = panelId then (s.tp.panel.offX, s.tp.panel.offY) else (0, 0)
  let x := p.x - ox
  let y := p.y - oy
  let (fmt, lut) := formatOf s r
  [(0x2A, beBytes 2 x ++ beBytes 2 (x + p.w - 1)), (0x2B, beBytes 2 y ++ beBytes 2 (y + p.h - 1)),
    (0x2C, formatRun fmt lut pix)]

/-- The payload of a REGION frame (R435). -/
def regionPayload (s : State) (r : Nat) (p : Piece) (pix : List Byte) : List Byte :=
  beBytes 2 (p.frame % 65536) ++ [BitVec.ofNat 8 p.region, 0] ++ beBytes 2 p.piece
    ++ beBytes 2 p.pieces ++ (dcsCommands s r p pix).flatMap (fun x => x.1 :: x.2)

/-- Drop a piece whose pixels cannot be read (R434). -/
def dropPiece (s : State) (r : Nat) (p : Piece) : State :=
  let s := updRecv s r (fun v => { v with pieces := v.pieces.filter (fun q => q ≠ p) })
  freeAll (updScene (owePiece s r p) p.scene (fun c => { c with psEcc := true }))

/-- A piece of a station that was sent is lost (R421). -/
def losePiece (s : State) (r : Nat) (p : Piece) : State :=
  let s := updRecv s r (fun v => { v with
    pieces := v.pieces.filter (fun q => q ≠ p), lost := satAdd v.lost 1 })
  owePiece s r p

/-- The deadline of a sent piece has passed: the end of the fourth cycle after the one in
which it was sent (R421). -/
def pieceLate (s : State) (p : Piece) : Bool :=
  match p.sent with
  | none => false
  | some c => decide (5 ≤ (cycleNo s - c).toNat)

/-- PIECE_ACK_TIMEOUT (R421): the pieces of a station whose deadline has passed are lost. -/
def execPieceAckTimeout (station : Fin 2048) (s : State) : Host.Outcome State Fault Refusal :=
  .next (((recvOf s station).pieces.filter (pieceLate s)).foldl (fun s p => losePiece s station p) s)

/-- An agent that may write the refresh and kick registers (R403, R436). -/
def scriptAgent (a : Nat) : Bool := (2 ≤ a && a ≤ 10) || a = 15

/-- Write a Towpath register by its offset: an error for an agent that does not reach it or while TP
is fenced (R247, R298, R793). -/
def tpReach (s : State) (agent o : Nat) (f : State → State) : State :=
  reach s agent (0x20000000 + o) (scriptAgent agent) (running s islTP) true f

/-- TP_ST_REFRESH (R424, R436). -/
def execTpStRefresh (agent : Agent) (station : Fin 2048) (s : State) :
    Host.Outcome State Fault Refusal :=
  .next (tpReach s agent (0x40000C + 0x20 * station) (fun s => oweAll s station))

/-- TP_PNL_REFRESH (R424, R436). -/
def execTpPnlRefresh (agent : Agent) (s : State) : Host.Outcome State Fault Refusal :=
  .next (tpReach s agent 0x608 (fun s => oweAll s panelId))

end Sys2Proof.Machine
end

