-- ==== Sys2Proof/Machine/Station.lean ====
section
/-! DEFINITION. Stations and the cyclic exchange (chapter 13): states, inputs and the cut,
output writes, acknowledgement, configuration, and the frames a lane sends. -/

namespace Sys2Proof.Machine

def setStation (s : State) (i : Nat) (t : Station) : State :=
  onTl s (fun x => { x with stations := x.stations.put i t })
def updStation (s : State) (i : Nat) (f : Station → Station) : State :=
  match stationOf s i with
  | none => s
  | some t => setStation s i (f t)

/-- The lane of a station. -/
def Station.lane (t : Station) : Nat := t.addr / 256 % 8
/-- The indices of the stations, each once, in ascending order. -/
def stationIds (s : State) : List Nat := (s.tl.stations.map (·.1)).dedup
/-- The station that is served at an address. -/
def stationAt (s : State) (addr : Nat) : Option Nat :=
  (List.find? (fun p => p.2.started && p.2.addr = addr) s.tl.stations).map (·.1)

/-! ### The station record (R547) -/

/-- The address of a station's record (DEDUCED from the worked example of chapter 14, log entry 25). -/
def recordOf (i : Nat) : Nat := 0x00300000 + 256 * i

/-- Towline writes OUT_STATUS (R547). -/
def writeOutStatus (s : State) (i : Nat) : State :=
  match stationOf s i with
  | none => s
  | some t => (writeReq s 14 (recordOf i + 0x14)
      (leBytes 4 (pack [(0, t.lastSent.toNat), (16, b2n t.write.isSome), (24, t.code)]).toNat)).1

/-! ### States (R514, R527) -/

/-- The event mooring of a station: that of its scene, which R49 rebinds (R193). -/
def stationMoor (s : State) (t : Station) : Word := ((sceneOf s t.scene).map (·.moor)).getD 0

/-- Drop the AUDIO frame of a station that waits (R457, R458); its blocks stay uncarried. -/
def dropAudio (s : State) (i : Nat) : State :=
  match stationOf s i with
  | none => s
  | some t => updLane s (t.addr / 256 % 8) (fun x => { x with
      frames := x.frames.filter (fun f => !(f.type = 0x05 && f.station.toNat = t.addr % 256)) })

/-- Enter a state: STATION_STATE is posted on a change (R514), but not for a station that
DESTROY has named (R184). A write is abandoned when the
station becomes LOST, and its queued pieces are cancelled (R414, R526). -/
def setCode (s : State) (i code : Nat) : State :=
  match stationOf s i with
  | none => s
  | some t =>
    if t.code = code then s
    else
      let s := updStation s i (fun t => { t with code := code, write := if code = 4 then none else t.write })
      let s := if t.ending then s
        else postCycleRec s (islLane t.lane) 0x18 (handleOf s tSTATION i) (cycleNo s) (w32 code)
          (stationMoor s t)
      let s := if code = 4 then dropAudio (freeAll (cancelUnsent s i true)) i else s
      writeOutStatus s i

/-- The next CONFIG_ID: counted from 1, skipping 0 (DESIGN CHOICE, log entry 25). -/
def Station.newConfig (t : Station) : Station :=
  { t with configId := if t.configId = 0xFFFF then 1 else t.configId + 1, idAcked := false }

/-- Drop the OUT and AUDIO frames of a station that wait. -/
def dropFrames (s : State) (l addr : Nat) : State :=
  updLane s l (fun x => { x with
    frames := x.frames.filter (fun f => f.type = 0x07 || f.station.toNat ≠ addr % 256) })

/-- A station enters CONFIG (R527, R528): a new CONFIG_ID, and its misses start afresh. -/
def enterConfig (s : State) (i : Nat) : State :=
  match stationOf s i with
  | none => s
  | some t =>
    let s := updStation s i (fun t => { t.newConfig with misses := 0, clean := 0 })
    let s := dropFrames s t.lane t.addr
    setCode (freeAll (cancelUnsent s i true)) i 1

/-- A change of a lane's SESSION (R493, R526, R527, R544). -/
def newSession (s : State) (l : Nat) : State :=
  let s := updLane s l (fun x => { x with
    session := if x.session = 0xFFFF then 1 else x.session + 1, frames := [] })
  (stationIds s).foldl (fun s i =>
    match stationOf s i with
    | some t =>
      if t.lane = l then enterConfig (updStation s i (fun t => { t with write := none })) i else s
    | none => s) s

/-! ### The dropout threshold (R274, R286) -/

/-- The bounds in force. -/
def Station.limits (t : Station) : Nat × Nat := t.bounds.getD (3, 50)
/-- The threshold inside the bounds in force. -/
def Station.clamp (t : Station) : Station :=
  { t with thr := max t.limits.1 (min t.limits.2 t.thr) }

/-- Move a station's threshold by one, or report THRESHOLD_AT_BOUND (R272). -/
def adaptThr (s : State) (i : Nat) (up : Bool) : State :=
  match stationOf s i with
  | none => s
  | some t =>
    let n := if up then t.thr + 1 else t.thr - 1
    if t.limits.1 ≤ n ∧ n ≤ t.limits.2 ∧ n ≠ t.thr then setStation s i { t with thr := n }
    else loopWarning s (islLane t.lane) 3 i 6

/-- DROPOUT_THRESHOLD_LOWER (R274): 10,000 cycles have gone by without a miss. -/
def execDropoutThresholdLower (station : Fin 2048) (s : State) :
    Host.Outcome State Fault Refusal :=
  .next (match stationOf s station with
    | none => s
    | some t =>
      if 10000 ≤ t.clean then
        adaptThr (updStation s station (fun t => { t.clamp with clean := 0 })) station false
      else s)

/-! ### Acknowledgement (R523, R524) -/

/-- A sequence number is newer than another, or equal (R523). -/
def seqNewer (a b : BitVec 16) : Bool := 1 ≤ (a - b).toNat && (a - b).toNat ≤ 32767
def seqAtLeast (a b : BitVec 16) : Bool := a = b || seqNewer a b

/-- A reported OUT_SEQ acknowledges the writes it covers (R524). ACKED takes the newest
number it covers that was sent. -/
def ackSeq (s : State) (i : Nat) (q : BitVec 16) : State :=
  match stationOf s i with
  | none => s
  | some t =>
    let last := t.seqNext - 1
    let s :=
      if t.formed && seqAtLeast last q && seqNewer q t.acked then
        updStation s i (fun t => { t with acked := q })
      else s
    match t.write with
    | none => s
    | some w =>
      if seqAtLeast q w.seq then writeOutStatus (updStation s i (fun t => { t with write := none })) i
      else s

/-! ### IN, ACK and DIAG frames -/

/-- B(N) of the present cycle, and D(N) (R516). -/
def cutTick (s : State) : Nat := s.tl.cyc.tick.toNat + s.tl.cyc.period / 4

/-- Record why an IN frame gave no fresh input: the first reason in the order of REASON
counts (R517). A cycle that already has a fresh input keeps it. -/
def noteCand (t : Station) (reason len seq : Nat) (img : List Byte) : Station :=
  match t.cand with
  | none => { t with cand := some (reason, len, seq, img) }
  | some (q, _) =>
    if q = 0 then t
    else if reason = 0 ∨ reason < q then { t with cand := some (reason, len, seq, img) } else t

/-- The REASON of IN_INFO for an accepted IN frame of the present cycle, before D(N)
(R517). -/
def inReason (s : State) (l : Nat) (t : Station) (cyc : Word) (configured : Bool)
    (len : Nat) (payload : List Byte) : Nat :=
  if cyc ≠ cycleNo s then 2
  else if !configured ∨ len ≠ t.inLen ∨ payload.length < 4 + len then 3
  else if !((laneOf s l).aligned && (laneOf s l).alignTick.toNat < s.tick.toNat) then 4
  else if t.code = 4 ∨ t.code = 0 then 1
  else 0

/-- IN_INFO of a station record (R547). -/
def inInfo (fresh : Bool) (reason len seq : Nat) : Word :=
  pack [(0, b2n fresh), (1, reason), (8, len % 256), (16, seq % 65536)]

/-- An accepted IN frame of station i (R517, R524, R527). A frame of another cycle is taken
as late, and one that arrives in the tick of the cut corrects its record (DEDUCED, log
entry 26). -/
def inFrame (s : State) (l i : Nat) (cyc : Word) (payload : List Byte) : State :=
  let seq := beNat (payload.take 2)
  let s := if 2 ≤ payload.length then ackSeq s i (BitVec.ofNat 16 seq) else s
  let configured := (payload.getD 2 0).getLsbD 0
  let len := (payload.getD 3 0).toNat
  match stationOf s i with
  | none => s
  | some t =>
    let lost := t.code = 4
    let s :=
      if lost ∨ (!configured ∧ (t.code = 2 ∨ t.code = 3)) then
        enterConfig s i
      else s
    match stationOf s i with
    | none => s
    | some t =>
      let cy := s.tl.cyc
      if !cy.begun then s
      else if s.tick.toNat < cutTick s ∧ cy.tick.toNat ≤ s.tick.toNat ∧ !cy.cutDone then
        let r := inReason s l t cyc configured len payload
        setStation s i (noteCand t r len seq ((payload.drop 4).take len))
      else if cyc = cy.number then
        if !cy.cutDone then setStation s i (noteCand t 2 len seq [])
        else if s.tick.toNat = cutTick s ∧ t.info = 1 then
          let s := setStation s i { t with info := 2 }
          (writeReq s 14 (recordOf i + 8 * (cyc.toNat % 2) + 4) (leBytes 4 (inInfo false 2 len seq).toNat)).1
        else s
      else s

/-- What an accepted upstream frame of a TYPE does to the station it comes from, if one is served at
its ADDR. -/
def onStationFrame (s : State) (l : Nat) (f : RxFrame) (type : Nat) (g : State → Nat → State) : State :=
  onFrame s l f type (fun s => match (if rxAddr f = 0xFFFF then none else stationAt s (rxAddr f)) with
    | none => s
    | some i => g s i)

/-- IN_FRAME (R517, R524, R527). -/
def execInFrame (lane : Fin 8) (bytes : List Byte) (fin : RxEnd) (s : State) :
    Host.Outcome State Fault Refusal :=
  .next (let f : RxFrame := ⟨bytes, fin.errBlocks, fin.ended⟩
    onStationFrame s lane f 0x03 (fun s i => inFrame s lane i (rxCycle f) (rxPayload f)))

/-- The piece entries of an ACK payload (R546): FRAME, REGION, PIECE. -/
def ackEntries : Nat → List Byte → List (Nat × Nat × Nat)
  | 0, _ => []
  | n + 1, b =>
    if b.length < 6 then []
    else (beNat (b.take 2), (b.getD 2 0).toNat % 8, beNat ((b.drop 4).take 2)) :: ackEntries n (b.drop 6)

/-- An entry acknowledges a sent piece whose deadline has not passed (R421). -/
def ackPiece (s : State) (i : Nat) (e : Nat × Nat × Nat) : State :=
  updRecv s i (fun v => { v with pieces := v.pieces.filter (fun p =>
    !(p.sent.isSome && !pieceLate s p && p.frame % 65536 = e.1 && p.region = e.2.1 && p.piece = e.2.2)) })

/-- An accepted ACK frame of station i (R421, R524, R528, R529). -/
def ackFrame (s : State) (i : Nat) (payload : List Byte) : State :=
  let s := if 4 ≤ payload.length then ackSeq s i (BitVec.ofNat 16 (beNat ((payload.drop 2).take 2))) else s
  let s := if 2 ≤ payload.length then
      updStation s i (fun t => { t with
        idAcked := t.idAcked || decide (BitVec.ofNat 16 (beNat (payload.take 2)) = t.configId) })
    else s
  let n := min 1529 (beNat ((payload.drop 4).take 2))
  (ackEntries n (payload.drop 8)).foldl (fun s e => ackPiece s i e) s

/-- ACK_FRAME (R421, R524, R528, R529). -/
def execAckFrame (lane : Fin 8) (bytes : List Byte) (fin : RxEnd) (s : State) :
    Host.Outcome State Fault Refusal :=
  .next (let f : RxFrame := ⟨bytes, fin.errBlocks, fin.ended⟩
    onStationFrame s lane f 0x06 (fun s i => ackFrame s i (rxPayload f)))

/-- DIAG_FRAME (R546): an upstream DIAG frame is counted for its station; no KIND has any
other effect on the state. -/
def execDiagFrame (lane : Fin 8) (bytes : List Byte) (fin : RxEnd) (s : State) :
    Host.Outcome State Fault Refusal :=
  .next (let f : RxFrame := ⟨bytes, fin.errBlocks, fin.ended⟩
    onStationFrame s lane f 0x08 (fun s i =>
    updStation s i (fun t => { t with diag := satAdd t.diag 1 })))

/-! ### The input cut (R518, R519, R528, R543, R544) -/

/-- Write the image, IN_INFO and IN_STAMP of a cycle into the station record (R518). -/
def writeInput (s : State) (i : Nat) (n : Word) (fresh : Bool) (reason len seq : Nat)
    (img : List Byte) : State :=
  let b := n.toNat % 2
  let r := recordOf i
  let s := if fresh then
      (writeReq s 14 (r + 0x40 + 0x40 * b) (img ++ List.replicate (64 - img.length) 0)).1
    else s
  let s := (writeReq s 14 (r + 8 * b + 4) (leBytes 4 (inInfo fresh reason len seq).toNat)).1
  (writeReq s 14 (r + 8 * b) (leBytes 4 n.toNat)).1

/-- A fresh input of a station at the cut (R514, R528, R274). -/
def freshInput (s : State) (i : Nat) (n : Word) : State :=
  match stationOf s i with
  | none => s
  | some t =>
    let s := setStation s i { t with fresh := some n, misses := 0, clean := t.clean + 1 }
    let s :=
      if t.code = 1 then (if t.idAcked then oweAll (setCode s i 2) i else s)
      else if t.code = 3 then setCode s i 2
      else s
    if 0 < t.misses ∧ (t.code = 1 ∨ t.code = 3) then adaptThr s i true else s

/-- A cycle without fresh input (R514). -/
def missInput (s : State) (i : Nat) : State :=
  match stationOf s i with
  | none => s
  | some t =>
    let m := t.misses + 1
    let s := setStation s i { t with misses := m, clean := 0, stale := satAdd t.stale 1 }
    if t.thr ≤ m ∧ (t.code = 1 ∨ t.code = 2 ∨ t.code = 3) then setCode s i 4
    else if t.code = 2 then setCode s i 3
    else s

/-- Finalise the input of one station for cycle n (R518). -/
def finalise (s : State) (n : Word) (i : Nat) : State :=
  match stationOf s i with
  | none => s
  | some t =>
    if !t.started then s
    else
      let (reason0, len, seq, img) := t.cand.getD (1, 0, 0, [])
      let reason :=
        if !laneRuns s t.lane then 5
        else if !running s (islBank (bankOf (recordOf i))) then 6
        else reason0
      let fresh := reason = 0
      let s := setStation s i { t.clamp with cand := none, info := reason }
      let s := writeInput s i n fresh reason len seq img
      if fresh then freshInput s i n else missInput s i

/-- INPUT_CUT (R516, R518, R519): at D(N), once in a cycle. -/
def execInputCut (s : State) : Host.Outcome State Fault Refusal :=
  let c := s.tl.cyc
  .next (if !c.begun || c.cutDone then s
    else
      let s := atTick s (cutTick s)
      let s := (stationIds s).foldl (fun s i => finalise s c.number i) s
      let s := onTl s (fun t => { t with cyc := { t.cyc with cut := c.number, cutDone := true } })
      (List.range 8).foldl (fun s d => if running s (islDeck d) then raisePriv s (d + 1) 3 else s) s)

/-! ### Output writes (R520 to R526, R543) -/

/-- What a mode does to outputs (R46, R521): 0 none, 1 safe images, 2 scripts, 3 wash
masks, 4 forced. -/
def outputPolicy (m : BitVec 4) : Nat :=
  if m = mCOMMISSION then 1
  else if m = mRUN ∨ m = mDEGRADED then 2
  else if m = mWASH then 3
  else if m = mSERVICE then 4
  else 0

/-- (a and m) or (b and not m), byte by byte. -/
def maskMix (a b m : List Byte) : List Byte :=
  (a.zip (b.zip m)).map (fun p => (p.1 &&& p.2.2) ||| (p.2.1 &&& ~~~ p.2.2))

/-- A cycle number is older than another. -/
def cycOlder (a b : Word) : Bool := a ≠ b && (b - a).toNat < 2147483648

/-- OUT_COMMIT and the OUT image as Towline reads them at a boundary; `bad` when a read
meets poison (R543). -/
def readOut (s : State) (i len : Nat) : State × Option Word × Option (List Byte) × Bool :=
  let (s, c) := readReq s 14 (recordOf i + 0x10) 4
  match c with
  | .error e => (s, none, none, e = .ecc)
  | .ok b =>
    let (s, v) := readReq s 14 (recordOf i + 0xC0) len
    match v with
    | .ok img => (s, some (leWord b), some img, false)
    | .error e => (s, some (leWord b), none, e = .ecc)

/-- The image of the new write of a station at B(m), and whether it came from no script
(R521). -/
def outImage (policy : Nat) (t : Station) (want : Word) (commit : Option Word)
    (img : Option (List Byte)) : Option (List Byte × Bool) :=
  if t.fresh ≠ some want then none
  else if policy = 1 then some (t.safe.take t.outLen, true)
  else if policy = 4 then some ((maskMix t.force t.safe t.fmask).take t.outLen, true)
  else if commit = some want then
    match img with
    | none => none
    | some b =>
      if policy = 2 then some (b, false)
      else if policy = 3 then some (maskMix b t.safe t.mask, false)
      else none
  else none

/-- The payload of an OUT frame (R546). -/
def outPayload (w : OutWrite) (retry : Bool) : List Byte :=
  beBytes 4 w.based.toNat ++ beBytes 2 w.seq.toNat
    ++ [BitVec.ofNat 8 (b2n retry + 2 * b2n w.policy), BitVec.ofNat 8 w.image.length] ++ w.image

/-- Queue a downstream frame of a station for the present cycle (R515). -/
def queueFrame (s : State) (t : Station) (type : Nat) (payload : List Byte) : State :=
  updLane s t.lane (fun x => { x with frames := x.frames ++
    [{ lane := t.lane, type := BitVec.ofNat 8 type, station := BitVec.ofNat 8 t.addr,
       cycle := cycleNo s, seq := 0, session := x.session, payload := payload }] })

/-- A frame of a type waits for a station. -/
def waits (s : State) (t : Station) (type : Nat) : Bool :=
  (laneOf s t.lane).frames.any (fun f => f.type.toNat = type && f.station.toNat = t.addr % 256)

/-- Count commits that became no write (R522). -/
def countCommit (t : Station) (want : Word) (commit : Option Word) : Station :=
  match commit with
  | none => t
  | some c =>
    let t' := { t with commit := some c }
    if c = want then
      (if t.fresh ≠ some want then { t' with suppressed := satAdd t.suppressed 1 } else t')
    else match t.commit with
      | none => t'
      | some p => if cycOlder p c && cycOlder c want then { t' with late := satAdd t.late 1 } else t'

/-- Form, or resend, the output write of station i at B(m) (R521 to R526). -/
def formOutput (s : State) (m : Word) (i : Nat) : State :=
  match stationOf s i with
  | none => s
  | some t =>
    if !t.started ∨ t.outLen = 0 ∨ !(t.code = 2 ∨ t.code = 3) ∨ !laneRuns s t.lane then s
    else
      let want := m - 1
      let policy := outputPolicy s.sys.mode
      let (s, commit, img, bad) := readOut s i t.outLen
      let s := updStation s i (fun t =>
        let t := countCommit t want commit
        if bad then { t with eccOut := satAdd t.eccOut 1 } else t)
      match (if bad ∨ policy = 0 then none else outImage policy t want commit img) with
      | some (b, pol) =>
        let w : OutWrite := { based := want, seq := t.seqNext, image := b, policy := pol }
        let s := updLane s t.lane (fun x => { x with frames := x.frames.filter (fun f =>
          !(f.type = 0x02 && f.station.toNat = t.addr % 256)) })
        let s := updStation s i (fun t => { t with seqNext := t.seqNext + 1, formed := true,
                                                   lastSent := w.seq, write := some w })
        writeOutStatus (queueFrame s t 0x02 (outPayload w false)) i
      | none =>
        match t.write with
        | none => s
        | some w =>
          if policy = 0 ∨ waits s t 0x02 then s
          else queueFrame (updStation s i (fun t => { t with retries := satAdd t.retries 1 })) t 0x02
            (outPayload w true)

/-- Abandon the unacknowledged write of every station (R526). -/
def abandonWrites (s : State) : State :=
  (stationIds s).foldl (fun s i =>
    match stationOf s i with
    | none => s
    | some t =>
      if t.write.isNone then s
      else
        let s := updLane s t.lane (fun x => { x with frames := x.frames.filter (fun f =>
          !(f.type = 0x02 && f.station.toNat = t.addr % 256)) })
        writeOutStatus (updStation s i (fun t => { t with write := none })) i) s

/-! ### CONFIG and AUDIO frames (R457 to R459, R528 to R530, R546) -/

/-- PLAYOUT (R459). -/
def playout (period : Nat) : Nat := (5000 + 2 * period + 3124) / 3125 * 3125

/-- A station has a mix (R546). -/
def hasMix (s : State) (i : Nat) : Bool := s.cv.mixes.any (fun p => p.2.station = some i)

/-- The payload of a CONFIG frame (R546). -/
def configPayload (s : State) (i : Nat) (t : Station) : List Byte :=
  let p := s.tl.cyc.period
  beBytes 2 t.configId.toNat ++ beBytes 2 t.seqNext.toNat
    ++ [BitVec.ofNat 8 t.fmt, BitVec.ofNat 8 t.outLen, BitVec.ofNat 8 t.inLen, BitVec.ofNat 8 (b2n (hasMix s i))]
    ++ beBytes 2 t.hold ++ beBytes 2 t.panelW ++ beBytes 2 t.panelH ++ [0, 0] ++ beBytes 4 p
    ++ beBytes 4 (playout p) ++ t.safe.take t.outLen ++ List.replicate (64 - t.outLen) 0

/-- The station's configuration is still to be sent (R528, R529). -/
def Station.needsConfig (t : Station) : Bool :=
  t.started && (t.code = 1 || ((t.code = 2 || t.code = 3) && !t.idAcked))

/-- The stations of a lane in ascending station number. -/
def laneStations (s : State) (l : Nat) : List Nat :=
  (List.range 256).filterMap (fun k => (stationAt s (256 * l + k)))

/-- Queue the CONFIG frames of a lane for this cycle (R528, R529). -/
def queueConfigs (s : State) (l : Nat) : State :=
  (laneStations s l).foldl (fun s i =>
    match stationOf s i with
    | none => s
    | some t =>
      if t.needsConfig && !waits s t 0x07 then queueFrame s t 0x07 [] else s) s

/-- The blocks of a mix that a cycle starting at tick `c` may carry (R456, R457). -/
def readyBlocks (x : Mix) (c : Nat) : List (Nat × List Int) :=
  x.blocks.filter (fun b => b.1 * 50000 + 55000 ≤ c)

/-- The payload of an AUDIO frame (R469). -/
def audioPayload (l : List (Nat × List Int)) : List Byte :=
  match l with
  | [] => []
  | b :: _ =>
    beBytes 2 (b.1 % 65536) ++ [BitVec.ofNat 8 l.length, 0]
      ++ l.flatMap (fun q => q.2.flatMap (fun v => beBytes 2 (BitVec.ofInt 16 v).toNat))

/-- The mix of a station (R453). -/
def mixFor (s : State) (i : Nat) : Option (Nat × Mix) := List.find? (fun p => p.2.station = some i) s.cv.mixes

/-- Queue the AUDIO frame of station i at a boundary, in place of one that waits: every block that is
available and not yet carried, 32 at most. The blocks of a station that is sent none wait until a later
one is available (R457, R458, R465). -/
def queueAudioOf (s : State) (i : Nat) : State :=
  match stationOf s i, mixFor s i with
  | some t, some (_, x) =>
    let ready := readyBlocks x s.tl.cyc.tick.toNat
    if ready.isEmpty ∨ ¬(t.code = 2 ∨ t.code = 3) then s
    else queueFrame (dropAudio s i) t 0x05 (audioPayload (ready.drop (ready.length - 32)))
  | _, _ => s

def queueAudio (s : State) (l : Nat) : State := (laneStations s l).foldl queueAudioOf s

/-- The blocks that station i's AUDIO frame of the present cycle carried wait no more (R457). -/
def audioCarried (s : State) (i : Nat) : State :=
  match mixFor s i with
  | none => s
  | some (m, x) =>
    let left := x.blocks.filter (fun b => decide (s.tl.cyc.tick.toNat < b.1 * 50000 + 55000))
    { s with cv := { s.cv with mixes := s.cv.mixes.put m { x with blocks := left } } }

/-! ### Transmission (R495, R496, R515) -/

/-- The tick of the next boundary. -/
def nextBoundary (s : State) : Nat :=
  if s.tl.cyc.begun then s.tl.cyc.tick.toNat + s.tl.cyc.period else s.tick.toNat

/-- A frame of `n` payload bytes that starts now ends 100 ns before the next boundary at the
latest (R473, R496): 8 bytes of preamble and at least 64 of frame, at 25 bytes a tick. -/
def frameFits (s : State) (n : Nat) : Bool :=
  decide (s.tick.toNat + (max 64 (n + 34) + 8 + 24) / 25 + 5 ≤ nextBoundary s)

/-- The bytes of a frame before its preamble and FCS, padded to the least length (R473, R475,
R490). -/
def frameBody (s : State) (f : Frame) : List Byte :=
  let addr := if f.type = 0x01 then 0xFFFF else 256 * f.lane + f.station.toNat
  let b := groupMac ++ laneMac s f.lane ++ [0x88, 0xB5, 0x01, f.type] ++ beBytes 2 addr
    ++ beBytes 2 f.payload.length ++ [0, 0] ++ beBytes 4 f.cycle.toNat ++ beBytes 2 f.session.toNat
    ++ [0, 0] ++ f.payload
  b ++ List.replicate (60 - b.length) 0

/-- A frame on the wire: preamble and start-of-frame delimiter (PRESUMED, log entry 59), the frame and
its FCS (R473). -/
def frameWire (s : State) (f : Frame) : List Byte :=
  List.replicate 7 0x55 ++ [0xD5] ++ frameBody s f ++ fcsOf (frameBody s f)

/-- Send a frame with the lane's present SESSION, in the cycle of its sending (R490, R493, R512;
log entry 24). -/
def sendFrame (s : State) (f : Frame) : State :=
  let s := updLane s f.lane (fun x => { x with cntTx := x.cntTx + 1 })
  let f := { f with cycle := cycleNo s, session := (laneOf s f.lane).session }
  emit s (.frame f (frameWire s f))

/-- The order of the classes (R515). -/
def classOf (f : Frame) : Nat :=
  if f.type = 0x07 then 0 else if f.type = 0x02 then 1 else 2

/-- The frame of a lane's queue that goes next: of the lowest class, the oldest (R515);
a CONFIG frame only while fewer than 32 have gone in this cycle (R542). -/
def nextFrame (x : Lane) : Option Frame :=
  let l := x.frames.filter (fun f => f.type ≠ 0x07 || x.configs < 32)
  let best := l.foldl (fun m f => min m (classOf f)) 3
  l.find? (fun f => classOf f = best)

/-- Send a queued frame: a CONFIG frame is built as it goes and abandons the station's
unacknowledged write (R526, R530). -/
def sendQueued (s : State) (l : Nat) (f : Frame) : State :=
  let s := updLane s l (fun x => { x with frames := x.frames.erase f })
  if f.type = 0x07 then
    match stationAt s (256 * l + f.station.toNat) with
    | none => s
    | some i =>
      match stationOf s i with
      | none => s
      | some t =>
        let s := if t.write.isSome then
            writeOutStatus (dropFrames (updStation s i (fun t => { t with write := none })) l t.addr) i
          else s
        let s := updLane s l (fun x => { x with configs := x.configs + 1 })
        sendFrame s { f with payload := configPayload s i t }
  else if f.type = 0x05 then
    match stationAt s (256 * l + f.station.toNat) with
    | none => sendFrame s f
    | some i => audioCarried (sendFrame s f) i
  else sendFrame s f

/-- The first unsent piece of a lane's stations, in ascending station number (DESIGN CHOICE,
log entry 24). -/
def nextPiece (s : State) (l : Nat) : Option (Nat × Piece) :=
  (laneStations s l).findSome? (fun i =>
    if pushable s i then ((recvOf s i).pieces.find? (fun p => p.sent.isNone)).map (fun p => (i, p)) else none)

/-- Send the next REGION piece of a station (R416, R417, R435). -/
def sendPiece (s : State) (l i : Nat) (p : Piece) : State :=
  match stationOf s i with
  | none => s
  | some t =>
    match pieceLines p.scene p p.h s p.y with
    | (s, none) => dropPiece s i p
    | (s, some pix) =>
      let f : Frame := { lane := l, type := 0x04, station := BitVec.ofNat 8 t.addr, cycle := cycleNo s,
                         seq := 0, session := 0, payload := regionPayload s i p pix }
      let s := updRecv s i (fun v => { v with
        pieces := v.pieces.map (fun q => if q = p then { p with sent := some (cycleNo s) } else q),
        sent := satAdd v.sent 1 })
      freeAll (sendFrame s f)

/-- FRAME_TRANSMIT (R496, R515): the lane sends its next frame, if it may start now. -/
def execFrameTransmit (lane : Fin 8) (s : State) : Host.Outcome State Fault Refusal :=
  .next (if !laneSends s lane then s
    else
      match nextFrame (laneOf s lane) with
      | some f =>
        let n := if f.type = 0x07 then 88 else f.payload.length
        if frameFits s n then sendQueued s lane f else s
      | none =>
        if !running s islTP then s
        else match nextPiece s lane with
          | none => s
          | some (i, p) =>
            if frameFits s (19 + p.w * p.h * bytesPer s i) then sendPiece s lane i p else s)

end Sys2Proof.Machine
end

