-- ==== Sys2Proof/Machine/Gpio.lean ====
section
/-! DEFINITION. The general-purpose pins (chapter 18, R727 to R735, R747): set, clear,
toggle and masked writes, pads, filters and pin events. -/

namespace Sys2Proof.Machine

/-- The block's registers may be reached by an agent: the Lockkeeper, debug, and Deckhands
through ports (R45, R793). -/
def portAgent (a : Nat) : Bool := (2 ≤ a && a ≤ 10) || a = 15
/-- A firmware-owned register may be reached by an agent on the fabric (R45, R793). -/
def fwAgent (a : Nat) : Bool := a = 2 || a = 15

/-- What drives the pads: while HOLD is 1 the hold cells, in place of the registers (R747). -/
def Gpio.driving (g : Gpio) : Gpio :=
  if g.hold then { g with out := g.holdOut, dir := g.holdDir, cfg := g.holdCfg } else g

/-- A reset of PI (R735, R747): the hold cells take over the pads and the GP_ registers take their
reset values. -/
def Gpio.wipe (g : Gpio) : Gpio :=
  { pad := g.pad, before := g.before, changed := g.changed, hold := true, holdOut := g.driving.out,
    holdDir := g.driving.dir, holdCfg := g.driving.cfg, holdFw := if g.hold then g.holdFw else g.fw }

/-- The firmware writes back what it holds and releases the hold (R253, R747). -/
def Gpio.restore (g : Gpio) : Gpio :=
  if g.hold then { g.driving with fw := g.holdFw, hold := false } else g

/-- A field of GP_PIN(n) (R752). -/
def Gpio.pinCfg (g : Gpio) (n : Nat) : Word := (Tab.get 0 g.cfg n).setWidth 32
/-- The function of a pin; a FUNC that names none of the pin's acts as 0 (R733). -/
def Gpio.func (g : Gpio) (n : Nat) : Nat :=
  if (n = 8 ∨ n = 9) ∧ fld (g.pinCfg n) 0 4 = 1 then 1 else 0

/-- SQ0 or SQ1 is bound to a pin, and a frame is running (R713, R717). -/
def bindsPin (s : State) (n : Nat) : Bool :=
  (List.range 2).any (fun c =>
    let q := s.pi.sq.get {} c
    q.busy && bit q.cfg 16 && fld q.cfg 10 6 = n)

/-- The segment of the frame on SQ1 that drives SQ1_DC (R712): DC_PIN is set in it. -/
def dcSegment (s : State) : Option SqSeg :=
  let q := s.pi.sq.get {} 1
  let g := if q.held then q.panel.head?.map (·.1) else some (Tab.get {} q.segs q.at_)
  if q.busy then g.filter (fun g => bit g.phase 20) else none

/-- SQ1_DC is low (R712): the frame stands at the command phase of a segment with DC_PIN. -/
def dcLow (s : State) : Bool :=
  match dcSegment s with
  | none => false
  | some g => fld g.phase 0 2 ≠ 0 && (s.pi.sq.get {} 1).off = 0

/-- The level of the pad of a pin (R729, R730, R733, R747). The pad of a pin that a running
frame is bound to stays low until an early release reaches it (R717). SQ1_DC is high but for
R712 (DESIGN CHOICE, log entry 27). -/
def padLevel (s : State) (n : Nat) : Bool :=
  let g := s.gp.driving
  if g.func n = 1 then
    (if n = 9 then s.tl.cyc.begun && decide (ticksSince s s.tl.cyc.tick < 50) else !dcLow s)
  else if !g.dir.getLsbD n then g.pad.getLsbD n
  else if bindsPin s n then false
  else if g.out.getLsbD n then (if bit (g.pinCfg n) 14 then g.pad.getLsbD n else true)
  else false

/-- The pads now. -/
def padsNow (s : State) : BitVec 64 :=
  BitVec.ofNat 64 ((List.range 64).foldl (fun a n => a + b2n (padLevel s n) * 2 ^ n) 0)

/-- Change the pins, keeping what the pads were before this tick (R729). -/
def gpChange (s : State) (f : Gpio → Gpio) : State :=
  let old := padsNow s
  let g := f s.gp
  let g := if g.changed = s.tick then g else { g with before := old, changed := s.tick }
  { s with gp := g }

/-- GP_IN of a bank: the pads two PI clocks ago (R729). How far a frame that drives SQ1_DC has come
is not known, so that pad reads as a free value while one runs (log entry 27). -/
def gpIn (s : State) (bank : Nat) : State × Word :=
  let v := if s.gp.changed = s.tick then s.gp.before else padsNow s
  let w := BitVec.ofNat 32 (v.toNat / 2 ^ (32 * bank))
  if bank = 0 ∧ s.gp.func 8 = 1 ∧ (dcSegment s).isSome = true then
    let (s, f) := drawFree s
    (s, if f.getLsbD 0 then w ||| 0x100 else w &&& ~~~ 0x100)
  else (s, w)

/-- The bits of a bank's write that an agent may not change (R734). -/
def deniedBits (s : State) (agent : Nat) (mask : BitVec 64) : BitVec 64 :=
  if 3 ≤ agent ∧ agent ≤ 10 then mask &&& s.gp.fw else 0

/-- A write to OUT or DIR of the bits in `mask`, each to its bit in `val` (R728, R734). -/
def gpWrite (s : State) (agent : Nat) (dir : Bool) (mask val : BitVec 64) : State :=
  let bad := deniedBits s agent mask
  let m := mask &&& ~~~ bad
  gpChange s (fun g =>
    let g := if bad = 0 then g else { g with denied := true }
    if dir then { g with dir := (g.dir &&& ~~~ m) ||| (val &&& m) }
    else { g with out := (g.out &&& ~~~ m) ||| (val &&& m) })

/-- A bank's word among the 64 pins. -/
def bankBits (bank : Nat) (w : Word) : BitVec 64 := (w.setWidth 64) <<< (32 * bank)

/-- The mask and values of a masked write to pins 0 to 15 or 16 to 31 of a bank (R727). -/
def halfBits (bank : Nat) (high : Bool) (w : Word) : BitVec 64 × BitVec 64 :=
  let sh := if high then 16 else 0
  (bankBits bank (w32 (fld w 16 16) <<< sh), bankBits bank (w32 (fld w 0 16) <<< sh))

/-- Write a GP_ register by its offset: an error for an agent that does not reach it or while PI is
fenced (R247, R793). -/
def gpReach (s : State) (agent o : Nat) (f : State → State) : State :=
  reach s agent (0x28001000 + o) (portAgent agent) (running s islPI) true f

/-- GP_OUT (R727). -/
def execGpOut (agent : Agent) (bank : Fin 2) (value : Word) (s : State) :
    Host.Outcome State Fault Refusal :=
  .next (gpReach s agent (0x40 * bank + 0x04) (fun s => gpWrite s agent false (bankBits bank 0xFFFFFFFF) (bankBits bank value)))

/-- GP_OUT_SET (R727). -/
def execGpOutSet (agent : Agent) (bank : Fin 2) (value : Word) (s : State) :
    Host.Outcome State Fault Refusal :=
  .next (gpReach s agent (0x40 * bank + 0x08) (fun s => gpWrite s agent false (bankBits bank value) (bankBits bank value)))

/-- GP_OUT_CLR (R727). -/
def execGpOutClr (agent : Agent) (bank : Fin 2) (value : Word) (s : State) :
    Host.Outcome State Fault Refusal :=
  .next (gpReach s agent (0x40 * bank + 0x0C) (fun s => gpWrite s agent false (bankBits bank value) 0))

/-- GP_OUT_TGL (R727). -/
def execGpOutTgl (agent : Agent) (bank : Fin 2) (value : Word) (s : State) :
    Host.Outcome State Fault Refusal :=
  .next (gpReach s agent (0x40 * bank + 0x10) (fun s => gpWrite s agent false (bankBits bank value) (~~~ s.gp.out)))

/-- GP_OUT_MWL (R727). -/
def execGpOutMwl (agent : Agent) (bank : Fin 2) (value : Word) (s : State) :
    Host.Outcome State Fault Refusal :=
  .next (gpReach s agent (0x40 * bank + 0x14) (fun s =>
    gpWrite s agent false (halfBits bank false value).1 (halfBits bank false value).2))

/-- GP_OUT_MWH (R727). -/
def execGpOutMwh (agent : Agent) (bank : Fin 2) (value : Word) (s : State) :
    Host.Outcome State Fault Refusal :=
  .next (gpReach s agent (0x40 * bank + 0x18) (fun s =>
    gpWrite s agent false (halfBits bank true value).1 (halfBits bank true value).2))

/-- GP_DIR (R727). -/
def execGpDir (agent : Agent) (bank : Fin 2) (value : Word) (s : State) :
    Host.Outcome State Fault Refusal :=
  .next (gpReach s agent (0x40 * bank + 0x1C) (fun s => gpWrite s agent true (bankBits bank 0xFFFFFFFF) (bankBits bank value)))

/-- GP_DIR_MWL (R727). -/
def execGpDirMwl (agent : Agent) (bank : Fin 2) (value : Word) (s : State) :
    Host.Outcome State Fault Refusal :=
  .next (gpReach s agent (0x40 * bank + 0x20) (fun s =>
    gpWrite s agent true (halfBits bank false value).1 (halfBits bank false value).2))

/-- GP_DIR_MWH (R727). -/
def execGpDirMwh (agent : Agent) (bank : Fin 2) (value : Word) (s : State) :
    Host.Outcome State Fault Refusal :=
  .next (gpReach s agent (0x40 * bank + 0x24) (fun s =>
    gpWrite s agent true (halfBits bank true value).1 (halfBits bank true value).2))

/-- A write to GP_PIN(n) (R734, R752): only agents 2 and 15 write FW, and a reserved pin's
register is not changed by agents 3 to 10. A pin whose KIND becomes LEVEL drives its
source with its filtered level (R732). -/
def pinWrite (s : State) (agent n : Nat) (v : Word) : State :=
  if 3 ≤ agent ∧ agent ≤ 10 ∧ s.gp.fw.getLsbD n then
    { s with gp := { s.gp with denied := true } }
  else
    let s := gpChange s (fun g => { g with
      cfg := g.cfg.set 0 n (v.setWidth 15),
      fw := if 3 ≤ agent ∧ agent ≤ 10 then g.fw else setBit g.fw n (bit v 15) })
    if bit v 6 then driveShared s (0x60 + n) (s.gp.filt.getLsbD n) else s

/-- GPIO_PAD_CHANGE (R731): the outside drives a pad to a level. -/
def execGpioPadChange (pin : Fin 64) (level : Bool) (s : State) :
    Host.Outcome State Fault Refusal :=
  .next (gpChange s (fun g => { g with pad := setBit g.pad pin level }))

/-- GPIO_FILTERED_CHANGE (R731, R732): a pad has been stable for its filter time. -/
def execGpioFilteredChange (pin : Fin 64) (s : State) : Host.Outcome State Fault Refusal :=
  .next (if !running s islPI then s
    else
      let cfg := s.gp.pinCfg pin
      let v := padLevel s pin ^^ bit cfg 7
      let old := s.gp.filt.getLsbD pin
      if v = old then s
      else
        let s := { s with gp := { s.gp with filt := setBit s.gp.filt pin v } }
        let n := 0x60 + pin.val
        if bit cfg 6 then driveShared s n v
        else if (v && bit cfg 4) || (!v && bit cfg 5) then raiseShared s n
        else s)

end Sys2Proof.Machine
end

