-- ==== Sys2Proof/Machine/Serial.lean ====
section
/-! DEFINITION. The serial engines of island PI (chapter 18): frames on SQ0 and SQ1, the I2C
master and the AVSBus master. -/

namespace Sys2Proof.Machine

/-- Reach a firmware-owned register of PI by its offset: an error for another agent or while PI is
fenced (R45, R247). -/
def piReach (s : State) (agent o : Nat) (store : Bool) (f : State → State) : State :=
  reach s agent (0x28000000 + o) (fwAgent agent) (running s islPI) store f

def onPi (s : State) (f : Serial → Serial) : State := { s with pi := f s.pi }
def sqOf (s : State) (ch : Nat) : Sq := s.pi.sq.get {} ch
def updSq (s : State) (ch : Nat) (f : Sq → Sq) : State :=
  onPi s (fun p => { p with sq := p.sq.upd {} ch f })

/-! ### Segments (R704, R712, R748, R749) -/

def Sq.segAt (q : Sq) (k : Nat) : SqSeg := Tab.get {} q.segs k
def SqSeg.cmdBits (g : SqSeg) : Nat := fld g.phase 0 2
def SqSeg.read (g : SqSeg) : Bool := bit g.phase 18
def SqSeg.dc9 (g : SqSeg) : Bool := bit g.phase 19
def SqSeg.last (g : SqSeg) : Bool := bit g.phase 22
/-- Bits of a data unit (R711). -/
def SqSeg.unit (g : SqSeg) : Nat := if g.dc9 then 9 else 8

/-- The segments of a frame: up to the first LAST (R704); none where there is no LAST. -/
def Sq.frame (q : Sq) : Option (List SqSeg) :=
  match (List.range 4).find? (fun k => (q.segAt k).last) with
  | none => none
  | some n => some ((List.range (n + 1)).map q.segAt)

/-- A segment breaks R712: DC9, DC_PIN and a 9-bit command only on SQ1, with one lane in the
phases concerned (log entry 28). -/
def SqSeg.breaksDc (g : SqSeg) (ch : Nat) : Bool :=
  let pin := bit g.phase 20
  let dcUse := g.dc9 || pin || g.cmdBits = 2
  (dcUse && ch = 0)
    || (g.dc9 && fld g.phase 16 2 != 0)
    || (g.cmdBits = 2 && fld g.phase 2 2 != 0)
    || (pin && (fld g.phase 2 2 != 0 || fld g.phase 8 2 != 0 || fld g.phase 16 2 != 0))

/-- A frame that ends with BAD_SEG (R749). -/
def Sq.badSeg (q : Sq) (ch : Nat) : Bool :=
  match q.frame with
  | none => true
  | some l => l.any (fun g => fld g.phase 2 2 = 3 || fld g.phase 8 2 = 3 || fld g.phase 16 2 = 3
      || g.breaksDc ch)

/-- The last phase that a segment has. -/
def SqSeg.lastPhase (g : SqSeg) : Nat :=
  if g.len ≠ 0 then 3 else if fld g.phase 10 5 ≠ 0 then 2
  else if fld g.phase 4 3 ≠ 0 then 1 else 0

/-! ### The lines of a segment (R705, R706, R708, R712, R715) -/

/-- Lanes of a lane code (R748). -/
def laneCount (code : Nat) : Nat := 2 ^ code

def ioBit (b : Bool) : IoLevel := if b then .high else .low

/-- The lines of one clock that carries one, two or four bits, the earliest on the highest lane; with
fewer than four lanes IO2 and IO3 are high, and IO1 is sampled where it is not driven (R705, R706). -/
def driven : List Bool → IoLines
  | [d, c, b, a] => { io0 := ioBit a, io1 := ioBit b, io2 := ioBit c, io3 := ioBit d }
  | [b, a] => { io0 := ioBit a, io1 := ioBit b, io2 := .high, io3 := .high }
  | [a] => { io0 := ioBit a, io1 := .released, io2 := .high, io3 := .high }
  | _ => { io0 := .open_, io1 := .released, io2 := .high, io3 := .high }

/-- Bits over lanes, clock by clock. -/
def clocksOf (lanes : Nat) : Nat → List Bool → List IoLines
  | 0, _ => []
  | k + 1, l => driven (l.take lanes) :: clocksOf lanes k (l.drop lanes)

/-- Bits of a phase on its lanes. -/
def onLanes (code : Nat) (l : List Bool) : List IoLines :=
  clocksOf (laneCount code) (l.length / laneCount code) l

/-- The low `n` bits of a value, the most significant first (R705). -/
def msbFirst (n v : Nat) : List Bool := (List.range n).map (fun k => v.testBit (n - 1 - k))

/-- The command phase (R705, R712). -/
def SqSeg.cmdLines (g : SqSeg) : List IoLines :=
  let b := match g.cmdBits with
    | 0 => []
    | 1 => msbFirst 8 g.cmd.toNat
    | 2 => false :: msbFirst 8 g.cmd.toNat
    | _ => msbFirst 16 g.cmd.toNat
  onLanes (fld g.phase 2 2) b

/-- The bytes of the address phase; a code above 4 acts as 4 (DESIGN CHOICE, log entry 28). -/
def SqSeg.addrBytes (g : SqSeg) : Nat := min 4 (fld g.phase 4 3)

/-- The address phase: the low ADDR_BYTES bytes of ADDR (R705). -/
def SqSeg.addrLines (g : SqSeg) : List IoLines :=
  onLanes (fld g.phase 8 2) (msbFirst (8 * g.addrBytes) g.addr.toNat)

/-- The lines while a segment receives: the lanes it uses for data are released, IO1 where it is one
lane (R706). -/
def receiving (code : Nat) : IoLines :=
  if code = 0 then driven []
  else if code = 1 then { io0 := .released, io1 := .released, io2 := .high, io3 := .high }
  else { io0 := .released, io1 := .released, io2 := .released, io3 := .released }

/-- The dummy phase (R706); what a write drives on its lanes there the spec does not give. -/
def SqSeg.dummyLines (g : SqSeg) : List IoLines :=
  let code := fld g.phase 16 2
  List.replicate (fld g.phase 10 5) (if g.read then receiving code
    else if code = 0 then driven [] else { driven [] with io1 := .open_ })

/-- The first `bits` bits of the data phase (R705, R706, R712). -/
def SqSeg.dataLines (g : SqSeg) (b : List Byte) (bits : Nat) : List IoLines :=
  let code := fld g.phase 16 2
  if g.read then List.replicate (bits / laneCount code) (receiving code)
  else onLanes code ((b.flatMap (fun x =>
    (if g.dc9 then [true] else []) ++ msbFirst 8 x.toNat)).take bits)

/-- The phases of a segment with the level of SQ1_DC in each: low in the command phase of a segment
with DC_PIN, and high from the first address or data clock (R712). -/
def SqSeg.phases (g : SqSeg) (b : List Byte) (bits : Nat) : List (Bool × List IoLines) :=
  let dc := bit g.phase 20
  [(dc, g.cmdLines), (false, g.addrLines), (dc && g.addrBytes = 0 && g.cmdBits ≠ 0, g.dummyLines),
    (false, g.dataLines b bits)]

/-- SCLK rests high in modes 2 and 3 (R708). -/
def sclkIdle (mode : Nat) : Bool := decide (2 ≤ mode)

/-- One clock: the lines change as its first half begins and are sampled as its second begins, on the
edges of R708. -/
def halves (mode : Nat) (dc : Bool) (io : IoLines) : List SqHalf :=
  let first := decide (mode = 1 ∨ mode = 2)
  [{ sclk := first, io := io, dcLow := dc }, { sclk := !first, io := io, dcLow := dc }]

/-- A segment on the pins, up to `k` clocks of phase `p`; the whole phase where there is no `k`. -/
def SqSeg.wave (g : SqSeg) (mode p : Nat) (k : Option Nat) (b : List Byte) (bits : Nat) : List SqHalf :=
  let l := (g.phases b bits).zipIdx
  l.flatMap (fun x =>
    let n := if x.2 < p then x.1.2.length
      else if x.2 = p then k.getD x.1.2.length else 0
    (x.1.2.take n).flatMap (halves mode x.1.1))

/-- A segment of a channel on the trace; a break precedes any but the first that has SEL_BREAK, and a
SEL_GAP below 2 acts as 2 (R715, R748). -/
def Sq.segOut (q : Sq) (ch : Nat) (first : Bool) (g : SqSeg) (wave : List SqHalf) : Out :=
  .serial ch (if bit g.phase 21 && !first then some (max 2 (fld q.cfg 20 4)) else none)
    (fld q.cfg 0 8) (sclkIdle (fld q.cfg 8 2)) wave

/-! ### The run of a frame (R710, R711) -/

/-- What the present segment has put on the wire: the phases up to `k` clocks of phase `p`, with
`extra` bits of the data phase beyond its whole units. -/
def Sq.wireTo (q : Sq) (ch p : Nat) (k : Option Nat) (extra : Nat) : Out :=
  let g := q.segAt q.at_
  q.segOut ch (q.at_ = 0) g (g.wave (fld q.cfg 8 2) p k (q.sent ++ q.tx.take 1) (q.off * g.unit + extra))

/-- What the present segment has put on the wire, its whole units. -/
def Sq.wire (q : Sq) (ch : Nat) : Out := q.wireTo ch 3 none 0

/-- Move data of the present segment up to byte `lim`: what the FIFOs allow. -/
def Sq.moveData (q : Sq) (lim : Nat) : Sq :=
  let need := lim - q.off
  if (q.segAt q.at_).read then
    let k := min need (256 - q.rx.length)
    { q with rx := q.rx ++ (q.miso.take k ++ List.replicate (k - q.miso.length) 0xFF),
             miso := q.miso.drop k, off := q.off + k }
  else
    let k := min need q.tx.length
    { q with sent := q.sent ++ q.tx.take k, tx := q.tx.drop k, off := q.off + k }

/-- Run a frame up to byte `n` of segment `seg`, as far as its FIFOs allow; a segment that
ends before `seg` and is not the last is recorded. -/
def sqRun (ch seg n : Nat) : Nat → Sq → Sq × List Out
  | 0, q => (q, [])
  | fuel + 1, q =>
    let g := q.segAt q.at_
    if seg ≤ q.at_ ∧ (seg < q.at_ ∨ n ≤ q.off) then (q, [])
    else
      let q := q.moveData (if q.at_ = seg then min n g.len else g.len)
      if q.off < g.len ∨ g.last ∨ q.at_ = seg then (q, [])
      else
        let o := q.wire ch
        let (q, r) := sqRun ch seg n fuel { q with at_ := q.at_ + 1, off := 0, sent := [] }
        (q, o :: r)

/-- Run the frame in progress up to a point. -/
def sqTo (s : State) (ch seg n : Nat) : State :=
  let q := sqOf s ch
  if q.busy && !q.held then
    let (q, o) := sqRun ch seg n 5 q
    emits (updSq s ch (fun _ => q)) o
  else s

/-- Run the frame in progress as far as its FIFOs allow. -/
def sqAdvance (s : State) (ch : Nat) : State := sqTo s ch 4 0

/-- Every segment of the frame in progress is complete. -/
def Sq.complete (q : Sq) : Bool := (q.segAt q.at_).last && q.off = (q.segAt q.at_).len

/-- End a frame (R720): RESULT, SEG, PHASE, PROGRESS, DONE and the shared source. -/
def sqEnd (s : State) (ch result seg phase bits : Nat) : State :=
  let s := updSq s ch (fun q => { q with
    busy := false, done := true, result := result, seg := seg, phase := phase, bits := bits,
    at_ := 0, off := 0, sent := [], miso := [] })
  raiseShared s (0xA0 + ch)

/-- End the frame in progress where it stands, with what it has sent on the trace. -/
def sqStop (s : State) (ch result : Nat) : State :=
  let q := sqOf s ch
  let g := q.segAt q.at_
  sqEnd (emit s (q.wire ch)) ch result q.at_ (if result = 0 then g.lastPhase else 3) (q.off * g.unit)

/-- The bound select is released (R714, R717). -/
def Sq.released (q : Sq) (s : State) : Bool :=
  bit q.cfg 16 && s.gp.out.getLsbD (fld q.cfg 10 6)

/-- Start a frame (R714, R721, R749). -/
def sqGo (s : State) (ch : Nat) (miso : List Byte) : State :=
  let q := sqOf s ch
  if q.busy then updSq s ch (fun q => { q with goErr := true })
  else if q.released s then sqEnd s ch 2 0 0 0
  else if q.badSeg ch then sqEnd s ch 5 0 0 0
  else updSq s ch (fun q => { q with busy := true, at_ := 0, off := 0, sent := [], miso := miso })

/-- SQ_GO (R714, R721, R749): `miso` is what the peripheral sends, 0xFF beyond its end. -/
def execSqGo (agent : Agent) (ch : Fin 2) (miso : List Byte) (s : State) :
    Host.Outcome State Fault Refusal :=
  .next (piReach s agent (0x100 * ch + 0x04) true (fun s => sqGo s ch miso))

/-- A write to SQ_TXDATA: four bytes, as far as the FIFO has room (R710; log entry 28). -/
def sqTx (s : State) (ch : Nat) (v : Word) : State :=
  let s := sqAdvance s ch
  updSq s ch (fun q => { q with tx := q.tx ++ (leBytes 4 v.toNat).take (256 - q.tx.length) })

/-- A read of SQ_RXDATA: the four earliest bytes, zeros where fewer wait (R710). -/
def sqRx (s : State) (ch : Nat) : State × Word :=
  let s := sqAdvance s ch
  let w := leWord ((sqOf s ch).rx.take 4)
  (updSq s ch (fun q => { q with rx := q.rx.drop 4 }), w)

/-- SQ_TXDATA (R710, R711). -/
def execSqTxdata (agent : Agent) (ch : Fin 2) (value : Word) (s : State) :
    Host.Outcome State Fault Refusal :=
  .next (piReach s agent (0x100 * ch + 0x14) true (fun s => sqTx s ch value))

/-- SQ_RXDATA (R710, R711). -/
def execSqRxdata (agent : Agent) (ch : Fin 2) (s : State) : Host.Outcome State Fault Refusal :=
  .next (piReach s agent (0x100 * ch + 0x18) false (fun s =>
    let (s, w) := sqRx s ch
    emit s (.word agent w)))

/-- The first `r` bits of a byte, left-aligned with zeros below (R719). -/
def topBits (b : Byte) (r : Nat) : Byte := (b >>> (8 - r)) <<< (8 - r)

/-- Bits of a partial unit after the whole ones, under COMMIT_AT_RELEASE (R719): a received
byte enters the FIFO left-aligned, and a byte that was being sent is gone. -/
def Sq.partialUnit (q : Sq) (extra : Nat) : Sq :=
  let g := q.segAt q.at_
  if extra = 0 then q
  else if g.read then
    { q with rx := q.rx ++ [topBits (q.miso.getD 0 0xFF) (if g.dc9 then extra - 1 else extra)] }
  else { q with tx := q.tx.drop 1 }

/-- The clocks of a phase that a number of its bits takes. -/
def SqSeg.clocksIn (g : SqSeg) (phase bits : Nat) : Nat :=
  if phase = 0 then bits / laneCount (fld g.phase 2 2)
  else if phase = 1 then bits / laneCount (fld g.phase 8 2) else bits

/-- An early release at a point of the frame (R717 to R719, R743): segment, phase, and bits of
that phase clocked. A point that lies before what has already moved counts as that, and the start of
a segment that a break precedes stands for the break, whose segment is not sent (log entry 28). -/
def earlyRelease (s : State) (ch seg phase bits : Nat) : State :=
  let commit := bit (sqOf s ch).cfg 17
  let g := (sqOf s ch).segAt seg
  let clocked := bits
  let bits := min bits (g.len * g.unit)
  let whole := if commit then bits / g.unit else (bits + g.unit - 1) / g.unit
  let s := sqTo s ch seg (if phase = 3 then whole else 0)
  let q := sqOf s ch
  let there := q.at_ = seg ∧ q.off = (if phase = 3 then whole else 0)
  let extra := if there ∧ phase = 3 ∧ commit then bits % g.unit else 0
  let inBreak := q.at_ ≠ 0 ∧ phase = 0 ∧ bits = 0 ∧ bit g.phase 21
  let o := if there ∧ phase ≠ 3 then
      q.wireTo ch phase (if commit ∨ inBreak then some (g.clocksIn phase clocked) else none) 0
    else q.wireTo ch 3 none extra
  let s := updSq s ch (fun q => q.partialUnit extra)
  sqEnd (emit s o) ch 1 q.at_ (if there then phase else 3)
    (q.off * (q.segAt q.at_).unit + extra)

/-- EARLY_RELEASE (R717 to R719, R743). -/
def execEarlyRelease (ch : Fin 2) (seg phase : Fin 4) (bits : Nat) (s : State) :
    Host.Outcome State Fault Refusal :=
  let q := sqOf s ch
  .next (if running s islPI && q.busy && !q.held && q.released s then earlyRelease s ch seg phase bits
    else s)

/-! ### The I2C master (R736 to R738, R746, R750) -/

def updI2c (s : State) (f : I2c → I2c) : State := onPi s (fun p => { p with i2c := f p.i2c })

/-- End a transaction: RESULT, DONE and shared source 0xA2 (R738). -/
def i2cEnd (s : State) (result : Nat) : State :=
  raiseShared (updI2c s (fun x => { x with busy := false, done := true, result := result })) 0xA2

/-- The bytes that a transaction writes, and how many it reads; none where KIND or a length is
not one of R737. -/
def i2cShape (c : Word) : Option (Nat × Nat) :=
  let w := fld c 16 4
  let r := fld c 20 8
  let wok := decide (1 ≤ w ∧ w ≤ 8)
  let rok := decide (1 ≤ r ∧ r ≤ 128)
  if fld c 3 2 = 0 then (if wok then some (w, 0) else none)
  else if fld c 3 2 = 1 then (if rok then some (0, r) else none)
  else if fld c 3 2 = 2 then (if decide (1 ≤ w ∧ w ≤ 2) && rok then some (w, r) else none)
  else none

/-- The fields that SQ_I2C_CTRL holds: GO and the reserved bits read 0. -/
def i2cCtrlMask : Word := 0x0FFF7F3F

/-- Start a transaction (R737, R738, R746). `sdaLow` tells that SDA is low as it starts, and
`stuck` that the recovery pulses leave it low. A GO while one runs, or with a KIND or length
outside R737, starts nothing (DESIGN CHOICE, log entry 29). -/
def i2cGo (s : State) (value : Word) (sdaLow stuck : Bool) : State :=
  let s := updI2c s (fun x => { x with ctrl := value &&& i2cCtrlMask })
  match (if s.pi.i2c.busy then none else i2cShape value) with
  | none => s
  | some (w, r) =>
    let port := fld value 0 3
    let first := s.pi.i2c.recover.getLsbD port
    let s := updI2c s (fun x => { x with recover := setBit x.recover port false, cur := value &&& i2cCtrlMask })
    let s := if first || sdaLow then emit s (.i2cRecover port) else s
    if sdaLow && stuck then i2cEnd s 3
    else emit (updI2c s (fun x => { x with busy := true }))
      (.i2c port (fld value 8 7) (s.pi.i2c.wdata.take w) r)

/-- I2C_GO (R737): a write of `value` to SQ_I2C_CTRL with GO. -/
def execI2cGo (agent : Agent) (value : Word) (sdaLow stuck : Bool) (s : State) :
    Host.Outcome State Fault Refusal :=
  .next (piReach s agent 0x400 true (fun s => i2cGo s value sdaLow stuck))

/-- Replace the first bytes of a list. -/
def overlay (old b : List Byte) : List Byte := b.take old.length ++ old.drop b.length

/-- I2C_DONE (R738): `nack` tells that the address or a written byte was not acknowledged;
`bytes` is what the target sent, 0xFF beyond its end. -/
def execI2cDone (nack : Bool) (bytes : List Byte) (s : State) :
    Host.Outcome State Fault Refusal :=
  .next (if !running s islPI || !s.pi.i2c.busy then s
    else if nack then i2cEnd s 1
    else
      let n := ((i2cShape s.pi.i2c.cur).getD (0, 0)).2
      let got := bytes.take n ++ List.replicate (n - bytes.length) 0xFF
      i2cEnd (updI2c s (fun x => { x with rdata := overlay x.rdata got })) 0)

/-- I2C_STRETCH_TIMEOUT (R738). -/
def execI2cStretchTimeout (s : State) : Host.Outcome State Fault Refusal :=
  .next (if !running s islPI || !s.pi.i2c.busy then s else i2cEnd s 2)

/-! ### The AVSBus master (R739 to R741, R278, R750) -/

def avsOf (s : State) (n : Nat) : Avs := s.pi.avs.get {} n
def updAvs (s : State) (n : Nat) (f : Avs → Avs) : State :=
  onPi s (fun p => { p with avs := p.avs.upd {} n f })
def railOf (s : State) (n : Nat) : Rail := s.rails.get {} n
def updRail (s : State) (n : Nat) (f : Rail → Rail) : State :=
  { s with rails := s.rails.upd {} n f }

/-- End a transaction: RESULT, DONE and shared source 0xA3 (R741). -/
def avsEnd (s : State) (n result : Nat) : State :=
  raiseShared (updAvs s n (fun x => { x with op := none, done := true, result := result })) 0xA3

/-- Start a transaction: the voltage of a write must lie in 650 to 900 mV (R740). One that
finds its port busy starts nothing (DESIGN CHOICE, log entry 29). -/
def avsCmd (s : State) (n op mv : Nat) : State :=
  if (avsOf s n).op.isSome then s
  else if op = 1 ∧ (mv < 650 ∨ 900 < mv) then avsEnd s n 2
  else emit (updAvs s n (fun x => { x with op := some (op, mv) })) (.avs n op mv)

/-- VOLTAGE_WRITE (R739, R740). -/
def execVoltageWrite (agent : Agent) (rail : Fin 2) (mv : BitVec 16) (s : State) :
    Host.Outcome State Fault Refusal :=
  .next (piReach s agent (0x500 + 0x10 * rail) true (fun s => avsCmd s rail 1 mv.toNat))

/-- VOLTAGE_READ (R739). -/
def execVoltageRead (agent : Agent) (rail : Fin 2) (s : State) : Host.Outcome State Fault Refusal :=
  .next (piReach s agent (0x500 + 0x10 * rail) true (fun s => avsCmd s rail 2 0))

/-- STATUS_READ (R739). -/
def execStatusRead (agent : Agent) (rail : Fin 2) (s : State) : Host.Outcome State Fault Refusal :=
  .next (piReach s agent (0x500 + 0x10 * rail) true (fun s => avsCmd s rail 3 0))

/-- A failed transaction: three in a row lose the rail's bus (R278, R741). -/
def avsFail (s : State) (n : Nat) : State :=
  let s := avsEnd (updAvs s n (fun x => { x with fails := satAdd x.fails 1 })) n 1
  if 3 ≤ (avsOf s n).fails.toNat ∧ !(railOf s n).avsLost then
    loopWarning (updRail s n (fun r => { r with avsLost := true, loopRun := false })) islLK 0 n 3
  else s

/-- A transaction that succeeds: what it says of the rail, and a Status read after AVS_LOST
resumes the voltage loop (R278, R285). -/
def avsOk (s : State) (n op mv : Nat) (data : BitVec 16) : State :=
  let s := avsEnd (updAvs s n (fun x => { x with fails := 0 })) n 0
  updRail s n (fun r =>
    if op = 1 then { r with setMv := BitVec.ofNat 10 mv }
    else if op = 2 then { r with readMv := data.truncate 10 }
    else if r.avsLost then { r with avsLost := false, loopRun := true }
    else r)

/-- AVS_DONE (R741): `crcOk` is false for a bad CRC and for a data line that did not change. -/
def execAvsDone (rail : Fin 2) (crcOk : Bool) (ack : BitVec 2) (data : BitVec 16) (s : State) :
    Host.Outcome State Fault Refusal :=
  .next (if !running s islPI then s
    else match (avsOf s rail).op with
      | none => s
      | some (op, mv) =>
        let s := updAvs s rail (fun x => { x with ack := ack, data := data })
        if crcOk && ack = 0 then avsOk s rail op mv data else avsFail s rail)

end Sys2Proof.Machine
end

