-- ==== Sys2Proof/Machine/Panel.lean ====
section
/-! DEFINITION. The local pit panel on SQ1 (chapter 10, R425 to R433) and the ends of serial
frames, which let its next one go (chapter 18). -/

namespace Sys2Proof.Machine

def onPanel (s : State) (f : Panel → Panel) : State := onTp s (fun t => { t with panel := f t.panel })

/-- The DCS command of a start-up step, with its parameter (R427). -/
def stepBytes : PanelStep → Option (Byte × List Byte)
  | .exitSleep => some (0x11, [])
  | .pixelFormat => some (0x3A, [0x55])
  | .tearOn => some (0x35, [0x00])
  | .displayOn => some (0x29, [])
  | .displayOff => some (0x28, [])
  | .off => none
  | .wait => none
  | .on => none
  | .restart _ => none
  | .closing _ => none

/-- The step after one whose command has been sent (R427). -/
def nextStep (teEn : Bool) : PanelStep → PanelStep
  | .exitSleep => .wait
  | .pixelFormat => if teEn then .tearOn else .displayOn
  | .tearOn => .displayOn
  | .displayOn => .on
  | .displayOff => .off
  | .restart _ => .exitSleep
  | .closing _ => .displayOff
  | p => p

/-- The frame on SQ1 is a piece. -/
def PanelStep.piece : PanelStep → Bool
  | .on => true
  | .restart p => p
  | .closing p => p
  | _ => false

/-- The start-up sequence is running (R436, INIT). -/
def inStartUp (p : PanelStep) : Bool :=
  p = .exitSleep || p = .wait || p = .pixelFormat || p = .tearOn || p = .displayOn

/-- The segment of one DCS command in the form of a VARIANT (R725): `pix` for a pixel write, and LAST
on the last. -/
def panelSeg (variant : BitVec 2) (cmd : Byte) (data : List Byte) (last : Bool) : SqSeg × List Byte :=
  let pix := cmd = 0x2C
  let n := data.length
  let c : Word := cmd.setWidth 32
  let g : SqSeg :=
    if variant = 0 then { phase := pack [(0, 2), (19, 1), (22, b2n last)], cmd := c, len := n }
    else if variant = 1 then { phase := pack [(0, 1), (20, 1), (22, b2n last)], cmd := c, len := n }
    else { phase := pack [(0, 1), (4, 3), (16, if pix then 2 else 0), (21, 1), (22, b2n last)],
           cmd := if pix then 0x32 else 0x02, addr := c <<< 8, len := n }
  (g, data)

/-- The segments of a frame of DCS commands, each with its parameters. -/
def panelSegs (variant : BitVec 2) : List (Byte × List Byte) → List (SqSeg × List Byte)
  | [] => []
  | x :: r => panelSeg variant x.1 x.2 r.isEmpty :: panelSegs variant r

/-- Put a panel frame of DCS commands on SQ1 (R725, R726, R429). -/
def panelSend (s : State) (l : List (Byte × List Byte)) : State :=
  let s := updSq s 1 (fun q => { q with busy := true, held := true, panel := panelSegs s.tp.panel.variant l })
  emit (onPanel s (fun p => { p with busy := true })) (.panel (l.flatMap (fun x => x.1 :: x.2)))

/-- The segments of a panel frame, complete on the pins. -/
def panelWave (q : Sq) : Bool → List (SqSeg × List Byte) → List Out
  | _, [] => []
  | first, (g, b) :: r =>
    q.segOut 1 first g (g.wave (fld q.cfg 8 2) 3 none b (b.length * g.unit)) :: panelWave q false r

/-- A kept reply of the PANEL_CONFIG that the start-up is to follow is still unwritten (R427). -/
def panelAwaits (s : State) : Bool :=
  match s.tp.panel.await with
  | none => false
  | some (m, n) => decide (s.fw.placed.get 0 m < n)

/-- Start the next panel frame if SQ1 is free (R427 to R429): a start-up command, or the next
piece; a piece whose pixels cannot be read is dropped (R434). -/
def panelKickFuel : Nat → State → State
  | 0, s => s
  | fuel + 1, s =>
    let p := s.tp.panel
    if !running s islTP || !running s islPI || p.busy || (sqOf s 1).busy then s
    else
      match stepBytes p.step with
      | some b =>
        if panelAwaits s then s else panelSend (onPanel s (fun p => { p with await := none })) [b]
      | none =>
        if p.step ≠ .on ∨ p.teWait then s
        else
          match p.recv.pieces.find? (fun q => q.sent.isNone) with
          | none => s
          | some q =>
            match pieceLines q.scene q q.h s q.y with
            | (s, none) => panelKickFuel fuel (dropPiece s panelId q)
            | (s, some pix) =>
              let l := dcsCommands s panelId q pix
              let s := updRecv s panelId (fun v => { v with
                pieces := v.pieces.map (fun x => if x = q then { q with sent := some (cycleNo s) } else x) })
              freeAll (panelSend s l)

/-- Start the next panel frame if it may go. -/
def panelKick (s : State) : State := panelKickFuel (s.tp.panel.recv.pieces.length + 1) s

/-- The start-up begins once the reply of PANEL_CONFIG is written (R427). -/
def panelStart (s : State) : State := if s.tp.panel.await.isSome then panelKick s else s

/-- The panel frame on SQ1 is complete: a piece counts as delivered (R429). -/
def panelDone (s : State) : State :=
  let q := sqOf s 1
  let s := updSq (emits s (panelWave q true q.panel)) 1 (fun q => { q with panel := [] })
  let s := if s.tp.panel.step.piece then
      let s := onPanel s (fun p => { p with pieces := satAdd p.pieces 1 })
      updRecv s panelId (fun v => { v with
        pieces := v.pieces.filter (fun q => q.sent.isNone), sent := satAdd v.sent 1 })
    else s
  onPanel s (fun p => { p with busy := false, step := nextStep p.teEn p.step })

/-- The step after a panel frame that was cut short (R433). -/
def cutStep : PanelStep → PanelStep
  | .restart _ => .exitSleep
  | .closing _ => .displayOff
  | p => if inStartUp p then .exitSleep else p

/-- The panel is cut short (R433): the patches of a piece on SQ1 are owed again, and a start-up
sequence begins again. `abort` is set by a fence or reset of PI. How far a frame got is not on the
trace (log entry 2). -/
def panelCut (s : State) (abort : Bool) : State :=
  let p := s.tp.panel
  let s := if p.busy && p.step.piece then
      let cut := p.recv.pieces.filter (fun q => q.sent.isSome)
      let s := updRecv s panelId (fun v => { v with pieces := v.pieces.filter (fun q => q.sent.isNone) })
      onPanel (cut.foldl (fun s q => owePiece s panelId q) s) (fun p => { p with abort := p.abort || abort })
    else s
  onPanel (updSq s 1 (fun q => { q with panel := [] })) (fun p => { p with busy := false, step := cutStep p.step })

/-- SQ_FRAME_END (R720): a frame whose segments are all complete ends OK; a panel frame whose
feed is fenced does not. -/
def execSqFrameEnd (ch : Fin 2) (s : State) : Host.Outcome State Fault Refusal :=
  let s := panelStart s
  .next (if !running s islPI || !(sqOf s ch).busy then s
    else if (sqOf s ch).held then
      (if !running s islTP then s
       else
        let s := sqEnd (updSq s ch (fun q => { q with held := false })) ch 0 0 3 0
        panelKick (panelDone s))
    else
      let s := sqAdvance s ch
      if (sqOf s ch).complete then panelKick (sqStop s ch 0) else s)

/-- SQ_STALL_TIMEOUT (R742): a frame that its FIFOs have paused for 1 ms, or a panel frame
whose feed a fence of TP has stopped. -/
def execSqStallTimeout (ch : Fin 2) (s : State) : Host.Outcome State Fault Refusal :=
  .next (if !running s islPI || !(sqOf s ch).busy then s
    else if (sqOf s ch).held then
      (if running s islTP then s
       else panelCut (sqEnd (updSq s ch (fun q => { q with held := false })) ch 3 0 3 0) false)
    else
      let s := sqAdvance s ch
      if (sqOf s ch).complete then s else panelKick (sqStop s ch 3))

/-- PANEL_INIT_WAIT (R427): 120 ms have gone by since exit_sleep_mode. -/
def execPanelInitWait (s : State) : Host.Outcome State Fault Refusal :=
  .next (if s.tp.panel.step = .wait then panelKick (onPanel s (fun p => { p with step := .pixelFormat }))
    else s)

/-- TE_EDGE (R428): a rising edge on the TE pin. -/
def execTeEdge (s : State) : Host.Outcome State Fault Refusal :=
  .next (panelKick (onPanel s (fun p => { p with teWait := false })))

/-- TE_TIMEOUT (R428): 100 ms without an edge. -/
def execTeTimeout (s : State) : Host.Outcome State Fault Refusal :=
  .next (if s.tp.panel.teWait then
      panelKick (onPanel s (fun p => { p with teWait := false, teMiss := true }))
    else s)

end Sys2Proof.Machine
end

