-- ==== Sys2Proof/Machine/Scene.lean ====
section
/-! DEFINITION. What a scene's beam does in time (chapter 07): rendering, frame starts, line
commits and underruns, SOB and FD, comparators, the balancer; raster writes and flips. -/

namespace Sys2Proof.Machine


/-! ### Raster writes and flips -/

/-- A write to a line-effective or a shadowed register of a scene (R293, R329, R363). -/
def sceneRegWrite (s : State) (agent i reg : Nat) (v : Word) : State :=
  match leMask reg, shadowMask reg with
  | some m, _ => rasterWrite s agent i (some reg) (v &&& m)
  | none, some m => updScene s i (fun c => { c with shadow := rset c.shadow reg (v &&& m) })
  | none, none => s

/-- RASTER_WRITE (R293 to R298, R307): `reg` is the word index of a line-effective
register. -/
def execRasterWrite (agent : Agent) (scene : Fin 2048) (reg : Fin 256) (value : Word) (s : State) :
    Host.Outcome State Fault Refusal :=
  if (leMask reg).isSome then
    .next (tpReach s agent (0x100000 + 0x400 * scene + 4 * reg) (fun s => sceneRegWrite s agent scene reg value))
  else .refused .illFormed

/-- TP_SC_REDRAW (R303). -/
def execTpScRedraw (agent : Agent) (scene : Fin 2048) (s : State) :
    Host.Outcome State Fault Refusal :=
  .next (tpReach s agent (0x100038 + 0x400 * scene) (fun s => rasterWrite s agent scene none 0))

/-- TP_SC_FLIP (R364). -/
def flipWrite (s : State) (i : Nat) : State :=
  updScene s i (fun c => c.latch s.tick.toNat (fun n => .flip n c.shadow c.flipFence c.flipValue))

/-- TP_SC_FLIP (R364, R307). -/
def execTpScFlip (agent : Agent) (scene : Fin 2048) (s : State) : Host.Outcome State Fault Refusal :=
  .next (tpReach s agent (0x100208 + 0x400 * scene) (fun s => flipWrite s scene))

/-! ### Rendering (R304 to R306) -/

/-- LINE_RENDER (R304 to R306): a pipe renders the line it chooses. -/
def execLineRender (pipe : Fin 8) (s : State) : Host.Outcome State Fault Refusal :=
  .next (if !running s islTP then s
    else match pipeChoice s pipe with
      | none => s
      | some (i, p) =>
        match sceneOf s i with
        | none => s
        | some c =>
          let (s, r) := renderLine s i c p
          updScene s i (fun c => { c with lines := c.lines ++ [r] }))

/-! ### Frame starts (R301) -/

/-- The station's new post-blend LUT applies at the start of frame n of its scene (R195, R301, R360,
R424). -/
def applyLut (s : State) (i n k : Nat) : State :=
  match stationOf s k with
  | none => s
  | some t =>
    match t.pendLut with
    | none => s
    | some (j, m, l) =>
      if t.scene = i ∧ (j ≠ i ∨ m ≤ n) then
        oweAll (setStation s k { t with lut := l, pendLut := none }) k
      else s

/-- A waiting REBIND_STATION's scene part has taken effect (R192): the station is now bound to
the new scene. -/
def rebindSceneDone (s : State) (k : Nat) : State :=
  let s := s.fw.waiting.foldl (fun s p => match p.2 with
    | .rebind _ _ st (some n) _ _ =>
      (match stationOf s st with
      | some t => if st = k then setStation s k { t with home := n } else s
      | none => s)
    | _ => s) s
  onFw s (fun f => { f with waiting := f.waiting.map (fun p => match p.2 with
    | .rebind h c st _ a fe => if st = k then (p.1, .rebind h c st none a fe) else p
    | _ => p) })

/-- A station is to show a scene: a frame-latched change of that scene (R301, R307). -/
def bindScene (s : State) (k i : Nat) : State :=
  let n := ((sceneOf s i).map (fun c => c.nextStart s.tick.toNat)).getD 0
  let s := updScene s i (fun c => c.rollback (c.pos (n, 0)))
  updStation s k (fun t => { t with pendScene := some (i, n) })

/-- A station's new scene takes effect at the start of the scene's frame n (R301, R424). -/
def applyScene (s : State) (i n k : Nat) : State :=
  match stationOf s k with
  | none => s
  | some t =>
    match t.pendScene with
    | none => s
    | some (j, m) =>
      if j = i ∧ m ≤ n then
        let s := cancelUnsent s k false
        let s := setStation s k { t with scene := i, pendScene := none }
        freeAll (rebindSceneDone (oweAll s k) k)
      else s

/-- What takes effect at the start of frame n of a scene (R301). -/
def frameStart (s : State) (i n : Nat) : State :=
  let s := latchScene s i n
  (stationIds s).foldl (fun s k => applyLut (applyScene s i n k) i n k) s

/-- FRAME_START (R301): the next frame of a scene begins. -/
def execFrameStart (scene : Fin 2048) (s : State) : Host.Outcome State Fault Refusal :=
  .next (match sceneOf s scene with
    | none => s
    | some c =>
      if c.start.isNone || !running s islTP then s
      else frameStart (atTick s (c.frameTick c.latched)) scene c.latched)

/-! ### Pattern banks (R340) -/

/-- A scene has no more lines to render of frames before `n`. -/
def pastFrame (s : State) (e : Nat × Nat) : Bool :=
  match sceneOf s e.1 with
  | none => true
  | some c => decide (e.2 = 0) || decide (c.pos (e.2 - 1, c.height - 1) < c.nextPos)

/-- The replaced pages of a bank that no frame reads any more return to the pool. -/
def retireBank (s : State) (b : Nat) : State :=
  let p := s.tp.banks.get {} b
  let gone := p.old.filter (fun o => o.2.all (pastFrame s))
  if gone.isEmpty then s
  else
    let keep := p.old.filter (fun o => !o.2.all (pastFrame s))
    let held := (p.pages ++ keep.flatMap (fun o => o.1)).map (·.2)
    let free := ((gone.flatMap (fun o => o.1)).map (·.2)).filter (fun g => !held.contains g)
    let s := onTp s (fun t => { t with banks := t.banks.set {} b { p with old := keep } })
    onFw s (fun f => { f with fwRuns := f.fwRuns.filter (fun r => !free.contains r.1) })

/-- Retire replaced pages of every bank. -/
def retireBanks (s : State) : State :=
  (s.tp.banks.map (·.1)).foldl retireBank s

/-! ### Commits (R308, R309, R325) -/

/-- The event FD of frame n, at a tick (R311). -/
def raiseFd (s : State) (i n t : Nat) : State :=
  match sceneOf s i with
  | none => s
  | some c => sceneEvent s i c kFD t n c.height 0

/-- What becomes visible when a rendered line commits (R309, R362). -/
def Scene.commitLine (c : Scene) (r : RLine) : Scene :=
  let hit := r.coll ≠ 0
  let vis := r.line < c.height
  { c with regs := r.regs, laystat := c.laystat ||| r.lay, ltErr := c.ltErr || r.ltErr,
           coll := c.coll ||| r.coll, ss := c.ss || r.ss, sl := c.sl || r.sl,
           collFirst := if hit && !c.collValid then BitVec.ofNat 10 r.line else c.collFirst,
           collValid := c.collValid || hit,
           rowLines := if vis then c.rowLines ++ [(r.line, r.pix)] else c.rowLines }

/-- Past a line: its writes and its rendering are gone, and the next line is due (R297,
R308). -/
def Scene.passLine (c : Scene) (p : Nat) (under : Bool) : Scene :=
  let n := p / c.total
  let l := p % c.total
  { c with writes := c.writes.filter (fun w => p < w.at c), lines := c.lines.filter (fun r => p < r.at c),
           nextFrame := (p + 1) / c.total, nextLine := (p + 1) % c.total,
           comm := pack [(0, l), (10, b2n under), (16, n % 65536)] }

/-- PIN_OVERLOAD is due for an underrun (R323). -/
def pinOverload (s : State) (c : Scene) : Bool :=
  c.pin.isSome || decide (1020000000 < pinnedLoad s c.pipe)

/-- A line underruns (R308, R311, R323, R325): the register state still advances past it
(R293, R296; DEDUCED, log entry 31). -/
def underrun (s : State) (i : Nat) (c : Scene) (p t : Nat) : State :=
  let n := p / c.total
  let l := p % c.total
  let (s, before) := regsBefore s c p
  let (s, regs, _) := lineRegs s c p before
  let first := c.urFrame ≠ some n
  let s := updScene s i (fun c => Scene.passLine { c with
    regs := regs, ur := true, cntUr := satAdd c.cntUr 1, urFrame := some n } p true)
  let s := if first then sceneEvent s i c kUR t n l 0 else s
  if pinOverload s c then loopWarning s islTP 4 i 5 else s

/-- The end of a patch row, and of the visible lines, at a commit (R406, R412). -/
def endOfRow (s : State) (i n l t : Nat) : State :=
  match sceneOf s i with
  | none => s
  | some c =>
    if c.height ≤ l then s
    else if l % 16 = 15 ∨ l + 1 = c.height then
      let s := closeRow s i n (l / 16)
      let s := updScene s i (fun c => { c with rowLines := [] })
      if l + 1 = c.height then
        let s := formList s i n
        let s := if n < c.sobFrame then raiseFd s i n t else updScene s i (fun c => { c with fdDue := some n })
        panelKick s
      else s
    else s

/-- The next line of a scene reaches its commit tick. -/
def commitNext (s : State) (i : Nat) (c : Scene) : State :=
  let p := c.nextPos
  let n := p / c.total
  let l := p % c.total
  let t := c.commitTick p
  let s := frameStart (atTick s t) i n
  match sceneOf s i with
  | none => s
  | some c =>
    let (s, r) := match c.lines.find? (fun r => r.at c = p) with
      | some r => (s, some r)
      | none =>
        if c.height ≤ l then
          let (s, r) := renderLine s i c p
          (s, some r)
        else (s, none)
    let s := match r with
      | some r => updScene s i (fun c => (c.commitLine r).passLine p false)
      | none => underrun s i c p t
    retireBanks (endOfRow s i n l t)

/-- LINE_COMMIT (R308, R309, R325, R406, R412): the clock moves to the commit tick. -/
def execLineCommit (scene : Fin 2048) (s : State) : Host.Outcome State Fault Refusal :=
  .next (match sceneOf s scene with
    | none => s
    | some c => if c.start.isNone || !running s islTP then s else commitNext s scene c)

/-! ### SOB and LM (R311 to R313, R320, R327, R366, R369) -/

/-- Write registers of a scene into its scene block. -/
def writeBlock (s : State) (base : Nat) (regs : List Nat) (v : Tab Word) : State :=
  regs.foldl (fun s r => (writeReq s 12 (base + 4 * r) (leBytes 4 (rget v r).toNat)).1) s

/-- The start of blanking of frame n. -/
def raiseSob (s : State) (i n t : Nat) : State :=
  match sceneOf s i with
  | none => s
  | some c =>
    let s := sceneEvent s i c kSOB t n c.height 0
    let s := writeBlock s c.block leRegs c.regs
    let s := if c.blockDue then writeBlock s c.block shadowRegs c.active else s
    let s := c.signals.foldl (fun s f => match fenceIndex s f.1 with
      | none => s
      | some k => signalFence s islTP k f.2) s
    let s := updScene s i (fun c =>
      let c := { c with signals := [], blockDue := false, sobFrame := n + 1 }
      match c.moveTo with
      | none => c
      | some q => { c.discard 0 with pipe := q, moveTo := none })
    if c.fdDue = some n then raiseFd (updScene s i (fun c => { c with fdDue := none })) i n t else s

/-- SOB (R311, R320, R327, R366, R369): the clock moves to the start of blanking. -/
def execSob (scene : Fin 2048) (s : State) : Host.Outcome State Fault Refusal :=
  .next (match sceneOf s scene with
    | none => s
    | some c =>
      if c.start.isNone || !running s islTP then s
      else
        let n := c.sobFrame
        let t := c.tickOf n c.height
        raiseSob (frameStart (atTick s t) scene n) scene n t)

/-- LINE_MATCH (R311, R313): the comparator fires at its line of the next frame due; a line
that no frame has never fires. -/
def execLineMatch (scene : Fin 2048) (comp : Fin 4) (s : State) :
    Host.Outcome State Fault Refusal :=
  .next (match sceneOf s scene with
    | none => s
    | some c =>
      let m := c.lm.get {} comp
      if c.start.isNone || !running s islTP || !m.en || c.total ≤ m.line.toNat then s
      else
        let t := c.tickOf m.next m.line.toNat
        let s := atTick s t
        let s := updScene s scene (fun c => { c with lm := c.lm.set {} comp { m with next := m.next + 1 } })
        sceneEvent s scene c kLM t m.next m.line.toNat comp)

/-- A write to TP_SC_LMc (R313): it first fires at the first start tick of its line after
now, and in no frame before the one with which the scene resumed (R328). -/
def Scene.writeLm (c : Scene) (t comp : Nat) (v : Word) : Scene :=
  let line := fld v 0 10
  let next := match c.beam t with
    | none => 0
    | some (n, _) => max c.nextFrame (if c.tickOf n line ≤ t then n + 1 else n)
  { c with lm := c.lm.set {} comp { line := BitVec.ofNat 10 line, en := bit v 31, next := next } }

/-! ### TP event queues (R315, R332) -/

/-- A read of TP_EVQ (R332): agents 3 to 10; another agent reads 0. -/
def evqRead (s : State) (agent : Nat) : State × Word :=
  if 3 ≤ agent ∧ agent ≤ 10 then
    let q := s.tp.evq.get {} (agent - 3)
    match q.q with
    | [] => (s, 0xFFFFFFFF)
    | (e, _) :: r =>
      (evqLevel (onTp s (fun t => { t with evq := t.evq.set {} (agent - 3) { q with q := r } })) (agent - 3), e)
  else (s, 0)

/-- TP_EVQ (R332). -/
def execTpEvq (agent : Agent) (s : State) : Host.Outcome State Fault Refusal :=
  .next (reach s agent 0x20000080 (decide (2 ≤ agent.val)) (running s islTP) false (fun s =>
    let (s, w) := evqRead s agent
    emit s (.word agent w)))

/-! ### The balancer (R319, R321) -/

/-- The pipe with the largest, or smallest, busy fraction; the lowest among equals. -/
def pickPipe (better : Nat → Nat → Bool) (busy : List Nat) : Nat :=
  (List.range 8).foldl (fun b p => if better (busy.getD p 0) (busy.getD b 0) then p else b) 0

/-- The scene that moves: of the unpinned scenes on the busiest pipe, the one whose measured
load comes closest to half the difference without exceeding it. -/
def pickScene (s : State) (pipe half : Nat) (load : Tab Nat) : Option Nat :=
  let l := s.tp.scenes.filterMap (fun p =>
    let v := load.get 0 p.1
    if p.2.pipe = pipe ∧ p.2.pin.isNone ∧ p.2.moveTo.isNone ∧ 2 * v ≤ half then some (p.1, v) else none)
  match l with
  | [] => none
  | x :: r => some (r.foldl (fun b y => if b.2 < y.2 then y else b) x).1

/-- BALANCER_STEP (R319 to R321): the busy fraction of each pipe over the last 100 ms in
hundredths of a percent, and the measured load of each scene in the same measure. -/
def execBalancerStep (busy : List Nat) (load : List (Nat × Nat)) (s : State) :
    Host.Outcome State Fault Refusal :=
  .next (if !running s islTP then s
    else
      let pct : Tab (BitVec 7) := (List.range 8).foldl (fun m p =>
        Tab.set 0 m p (BitVec.ofNat 7 (min 100 (busy.getD p 0 / 100)))) []
      let s := onTp s (fun t => { t with busyPct := pct })
      let hi := pickPipe (fun a b => decide (b < a)) busy
      let lo := pickPipe (fun a b => decide (a < b)) busy
      let d := busy.getD hi 0 - busy.getD lo 0
      if !s.tp.balRun || d ≤ 1000 then s
      else match pickScene s hi d load with
        | none => s
        | some i =>
          let s := onTp s (fun t => { t with moves := satAdd t.moves 1 })
          updScene s i (fun c => { c with moveTo := some lo }))

end Sys2Proof.Machine
end

