-- ==== Sys2Proof/Machine/Blit.lean ====
section
/-! DEFINITION. The blitter (chapter 09): finding entries, descriptors and their checks,
clipping, the runs of R390, completion, and a fence of TP. -/

namespace Sys2Proof.Machine

def onBlt (s : State) (f : Blitter → Blitter) : State := onTp s (fun t => { t with blt := f t.blt })

/-- A 64 KiB page lies in a live user block (R172, R389). -/
def pageLive (s : State) (p : Nat) : Bool := s.fw.blocks.any (fun b => b.1 ≤ p && p < b.1 + b.2)

/-- Every page of a run of bytes lies in a live user block. -/
def bytesLive (s : State) (a n : Nat) : Bool :=
  n = 0 || (List.range ((a + n - 1) / 65536 - a / 65536 + 1)).all (fun k => pageLive s (a / 65536 + k))

/-! ### Entries (R381 to R385) -/

/-- The indices of the BLIT moorings, in ascending order. -/
def bltMoorings (s : State) : List Nat := (s.fw.moorings.filter (fun p => p.2.kind = 1)).map (·.1)

/-- The blitter reads PROD of a BLIT mooring (R385); a control block that cannot be read
shows nothing new. -/
def bltLook (s : State) (i : Nat) : State :=
  match s.fw.moorings.find? i with
  | none => s
  | some m =>
    if m.kind ≠ 1 then s
    else match readWord s 12 m.cb with
      | (s, some w) => onBlt s (fun b => { b with seen := b.seen.put i w })
      | (s, none) => s

/-- BLIT_POLL (R385). -/
def execBlitPoll (s : State) : Host.Outcome State Fault Refusal :=
  .next (if running s islTP then (bltMoorings s).foldl bltLook s else s)

/-- TP_BLT_KICK (R385, R403). -/
def execTpBltKick (agent : Agent) (mooring : Fin 16384) (s : State) :
    Host.Outcome State Fault Refusal :=
  .next (tpReach s agent 0x200 (fun s => bltLook s mooring))

/-- Advance CONS past the entry at `c` (R393, R400): where the control block takes no write, the
blitter keeps the new CONS, so that no blit starts again (log entry 32). -/
def bltAdvance (s : State) (agent i : Nat) (m : Moor) (c : Word) : State :=
  match writeReq s agent (m.cb + 4) (leBytes 4 (c + 1).toNat) with
  | (s, none) => onBlt s (fun b => { b with done := Tab.erase b.done i })
  | (s, some _) => onBlt s (fun b => { b with done := b.done.put i (c + 1) })

/-- CONS of a BLIT mooring; one that was kept is written again. -/
def bltCons (s : State) (i : Nat) (m : Moor) : State × Option Word :=
  match s.tp.blt.done.find? i with
  | none => readWord s 12 (m.cb + 4)
  | some d => (bltAdvance s 12 i m (d - 1), some d)

/-- The next mooring with an entry: round robin from the one after `last` (R385). -/
def nextBlt (s : State) : List Nat → State × Option (Nat × Moor × Word)
  | [] => (s, none)
  | i :: r =>
    match s.fw.moorings.find? i with
    | none => nextBlt s r
    | some m =>
      match s.tp.blt.seen.find? i, bltCons s i m with
      | some p, (s, some c) => if p = c then nextBlt s r else (s, some (i, m, c))
      | none, _ => nextBlt s r
      | _, (s, none) => nextBlt s r

/-! ### The descriptor (R386 to R388) -/

/-- A surface. -/
structure Surf where
  base : Nat
  stride : Nat
  fmt : Nat
  w : Nat
  h : Nat
  deriving DecidableEq, Repr

def Blit.op (b : Blit) : Nat := fld (b.entry.getD 0 0) 0 2
def Blit.word (b : Blit) (k : Nat) : Word := b.desc.getD k 0
def Blit.dst (b : Blit) : Surf :=
  { base := (b.word 0).toNat, stride := fld (b.word 1) 0 20, fmt := fld (b.word 1) 24 2,
    w := fld (b.word 2) 0 16, h := fld (b.word 2) 16 16 }
def Blit.src (b : Blit) : Surf :=
  { base := (b.word 3).toNat, stride := fld (b.word 4) 0 20, fmt := fld (b.word 4) 24 2,
    w := fld (b.word 5) 0 16, h := fld (b.word 5) 16 16 }

/-- Bytes of a pixel; 1 for the 1-bpp format, whose base and stride are in bytes. -/
def Surf.size (f : Surf) : Nat := if f.fmt = 1 then 2 else if f.fmt = 2 then 4 else 1
/-- The row length in bytes. -/
def Surf.row (f : Surf) : Nat := if f.fmt = 3 then (f.w + 7) / 8 else f.w * f.size
/-- BASE and STRIDE of a surface are valid (R387). -/
def Surf.valid (f : Surf) : Bool :=
  f.base % f.size = 0 && f.stride % f.size = 0 && decide (f.row ≤ f.stride)
/-- The bytes that pixels x to x + n - 1 of row y occupy: address and length. -/
def Surf.span (f : Surf) (x y n : Nat) : Nat × Nat :=
  if f.fmt = 3 then
    (f.base + y * f.stride + x / 8, (x % 8 + n + 7) / 8)
  else (f.base + y * f.stride + x * f.size, n * f.size)

/-- The reserved bits of a stride word. -/
def strideRsv (w : Word) : Bool := fld w 20 4 = 0 && fld w 26 6 = 0

/-- The descriptor is valid (R387). -/
def Blit.valid (b : Blit) : Bool :=
  let fill := b.op = 1
  strideRsv (b.word 1) && (fill || strideRsv (b.word 4))
    && b.word 13 = 0 && b.word 14 = 0 && b.word 15 = 0
    && decide (b.dst.fmt ≤ 2) && b.dst.valid
    && (fill || (b.src.valid && (if b.op = 3 then b.src.fmt = 3 else b.src.fmt = b.dst.fmt)))

def Blit.dx (b : Blit) : Nat := fld (b.word 6) 0 16
def Blit.dy (b : Blit) : Nat := fld (b.word 6) 16 16
def Blit.sx (b : Blit) : Nat := fld (b.word 7) 0 16
def Blit.sy (b : Blit) : Nat := fld (b.word 7) 16 16
def Blit.w0 (b : Blit) : Nat := fld (b.word 8) 0 16
def Blit.h0 (b : Blit) : Nat := fld (b.word 8) 16 16
/-- Width and height after clipping (R388). -/
def Blit.w (b : Blit) : Nat :=
  let n := min b.w0 (b.dst.w - b.dx)
  if b.op = 1 then n else min n (b.src.w - b.sx)
def Blit.h (b : Blit) : Nat :=
  let n := min b.h0 (b.dst.h - b.dy)
  if b.op = 1 then n else min n (b.src.h - b.sy)
/-- Clipping removed a pixel. -/
def Blit.clipped (b : Blit) : Bool := b.w * b.h ≠ b.w0 * b.h0
def Blit.empty (b : Blit) : Bool := b.w = 0 || b.h = 0

/-- The page check of R389. -/
def Blit.pagesOk (s : State) (b : Blit) : Bool :=
  b.empty || (List.range b.h).all (fun j =>
    let d := b.dst.span b.dx (b.dy + j) b.w
    let f := b.src.span b.sx (b.sy + j) b.w
    bytesLive s d.1 d.2 && (b.op = 1 || bytesLive s f.1 f.2))

/-! ### The runs (R390) -/

/-- A run: its row, first pixel and length, relative to the rectangle. -/
structure Run where
  j : Nat
  i : Nat
  n : Nat
  deriving DecidableEq, Repr

/-- The runs of a row, in processing order. -/
def Blit.rowRuns (b : Blit) (j : Nat) : List Run :=
  (List.range ((b.w + 15) / 16)).map (fun k =>
    let n := min 16 (b.w - 16 * k)
    if bit (b.entry.getD 0 0) 2 then { j := j, i := b.w - 16 * k - n, n := n }
    else { j := j, i := 16 * k, n := n })

/-- Every run, in processing order. -/
def Blit.runs (b : Blit) : List Run :=
  let rows := List.range b.h
  (if bit (b.entry.getD 0 0) 3 then rows.reverse else rows).flatMap b.rowRuns

/-- The source pixels of a run, from the bytes read. -/
def Blit.srcPix (b : Blit) (r : Run) (bytes : List Byte) : List Nat :=
  (List.range r.n).map (fun k =>
    if b.src.fmt = 3 then
      let x := (b.sx + r.i) % 8 + k
      ((bytes.getD (x / 8) 0).toNat / 2 ^ (x % 8)) % 2
    else leNat ((bytes.drop (k * b.src.size)).take b.src.size))

/-- The destination bytes of a run, none where a pixel is skipped. -/
def Blit.dstBytes (b : Blit) (r : Run) (pix : List Nat) : List (Option Byte) :=
  let z := b.dst.size
  let put (v : Nat) : List (Option Byte) := (leBytes z v).map some
  let skip : List (Option Byte) := List.replicate z none
  let fg := (b.word 9).toNat
  if b.op = 1 then (List.range r.n).flatMap (fun _ => put fg)
  else pix.flatMap (fun v =>
    if b.op = 0 then put v
    else if b.op = 2 then (if v = (b.word 11).toNat % 2 ^ (8 * z) then skip else put v)
    else if v = 1 then put fg
    else if bit (b.entry.getD 0 0) 4 then skip
    else put (b.word 10).toNat)

/-- A masked write of one doubleword's bytes from offset `off` on (R202a, R205): false where
it is refused, and whether it wrote. -/
def writeMaskDw (s : State) (agent d off : Nat) (b : List (Option Byte)) : State × Bool :=
  if b.all (·.isNone) then (s, true)
  else if off = 0 ∧ b.length = 8 ∧ b.all (·.isSome) then
    (fullWrite s d (BitVec.ofNat 64 (leNat (b.map (·.getD 0)))), true)
  else
    match fetchDw s agent d with
    | (s, some v, _) =>
      let old := leBytes 8 v.toNat
      let new := (List.range 8).map (fun k =>
        if k < off then old.getD k 0 else (b.getD (k - off) none).getD (old.getD k 0))
      (putDw s d (BitVec.ofNat 64 (leNat new)), true)
    | (s, none, _) => (s, false)

/-- The watched control blocks that a masked doubleword write touches (R649). -/
def signalMask (s : State) (a : Nat) (b : List (Option Byte)) : State :=
  (s.intc.watch.filter (fun p => (List.range 4).any (fun k =>
      let x := p.2.cb.toNat + k
      decide (a ≤ x) && ((b.getD (x - a) none).isSome)))).foldl (fun s p => signalMoor s p.2) s

/-- A masked write request: doubleword by doubleword, a refused one leaving the others
(R209). -/
def writeMask : Nat → State → Nat → Nat → List (Option Byte) → State × Option Err
  | 0, s, _, _, _ => (s, none)
  | fuel + 1, s, agent, a, b =>
    if b.isEmpty then (s, none)
    else
      let k := min (8 - a % 8) b.length
      let part := b.take k
      let (s, e) :=
        if part.all (·.isNone) then (s, none)
        else if !running s (islBank (bankOf a)) then (s, some Err.fenced)
        else match writeMaskDw s agent (a / 8) (a % 8) part with
          | (s, true) => (signalMask s a part, none)
          | (s, false) => (s, some Err.ecc)
      let (s, er) := writeMask fuel s agent (a + k) (b.drop k)
      (s, e.or er)

/-- RESULT of an error that stops a blit (R398, R399). -/
def errResult : Err → Nat
  | .fenced => 4
  | _ => 3

/-- One run: its read, then its write. -/
def blitRun (s : State) (b : Blit) (r : Run) : State × Option Nat :=
  let (s, src) := if b.op = 1 then (s, Except.ok [])
    else
      let f := b.src.span (b.sx + r.i) (b.sy + r.j) r.n
      readMem s 12 f.1 f.2
  match src with
  | .error e => (s, some (errResult e))
  | .ok bytes =>
    let d := b.dst.span (b.dx + r.i) (b.dy + r.j) r.n
    match writeMask 17 s 12 d.1 (b.dstBytes r (b.srcPix r bytes)) with
    | (s, none) => (s, none)
    | (s, some e) => (s, some (errResult e))

/-- Runs in order, up to the first that an error stops: how many were done, and RESULT. -/
def blitRuns (s : State) (b : Blit) : List Run → Nat → State × Nat × Nat
  | [], k => (s, k, 0)
  | r :: l, k =>
    match blitRun s b r with
    | (s, none) => blitRuns s b l (k + 1)
    | (s, some e) => (s, k, e)

/-! ### Start and completion (R386, R393, R401) -/

/-- What is decided before any pixel: the descriptor is read and checked. -/
def openBlit (s : State) (b : Blit) : State × Blit :=
  let a := (b.entry.getD 1 0).toNat
  if a % 64 ≠ 0 ∨ !pageLive s (a / 65536) then (s, { b with unread := true, result := some 0 })
  else
    match readMem s 12 a 64 with
    | (s, .error e) => (s, { b with result := some (errResult e) })
    | (s, .ok d) =>
      let b := { b with desc := (List.range 16).map (fun k => leWord (d.drop (4 * k))) }
      if !b.valid then (s, { b with result := some 1 })
      else if !b.pagesOk s then (s, { b with result := some 2 })
      else (s, b)

/-- Take an entry: consume an EPOCH marker, or start its blit (R384, R386). An entry that
cannot be read is left for the mooring's next turn (DESIGN CHOICE, log entry 32). -/
def takeEntry (s : State) (i : Nat) (m : Moor) (c : Word) : State :=
  let s := onBlt s (fun b => { b with last := i })
  match readMem s 12 (m.entry c) 16 with
  | (s, .error _) => s
  | (s, .ok e) =>
    let entry := (List.range 4).map (fun k => leWord (e.drop (4 * k)))
    if fld (entry.getD 0 0) 24 8 = 0xFF then bltAdvance s 12 i m c
    else
      let (s, b) := openBlit s { moor := i, cons := c, entry := entry }
      onBlt s (fun x => { x with cur := some b })

/-- BLIT_START (R384 to R386, R401). -/
def execBlitStart (s : State) : Host.Outcome State Fault Refusal :=
  .next (if !running s islTP || s.tp.blt.cur.isSome then s
    else
      let l := bltMoorings s
      let order := l.filter (fun i => s.tp.blt.last < i) ++ l.filter (fun i => i ≤ s.tp.blt.last)
      match nextBlt s order with
      | (s, none) => s
      | (s, some (i, m, c)) => takeEntry s i m c)

/-- The STATUS word (R402). -/
def statusWord (result : Nat) (clipped : Bool) (rows : Nat) : Word :=
  pack [(0, result), (4, b2n clipped), (16, min 65535 rows)]

/-- Write STATUS and the word after it as one full doubleword (R393). -/
def writeStatus (s : State) (agent : Nat) (b : Blit) (w : Word) : State :=
  (writeReq s agent ((b.entry.getD 1 0).toNat + 0x30) (leBytes 4 w.toNat ++ [0, 0, 0, 0])).1

/-- Signal a blit's fence (R393, R394). -/
def bltFence (s : State) (b : Blit) : State :=
  let f := b.entry.getD 2 0
  if f = 0 then s
  else match fenceIndex s f with
    | some k => signalFence s islTP k (b.entry.getD 3 0)
    | none => onBlt s (fun x => { x with fenceBad := true })

/-- The pixels of a blit, and its RESULT, CLIPPED and DONE_ROWS. -/
def blitPixels (s : State) (b : Blit) : State × Nat × Bool × Nat :=
  match b.result with
  | some r => (s, r, r = 2 && b.clipped, 0)
  | none =>
    if b.empty then (s, 0, b.clipped, 0)
    else
      let (s, k, r) := blitRuns s b b.runs 0
      (s, r, b.clipped, k / ((b.w + 15) / 16))

/-- BLIT_COMPLETE (R390 to R394, R401). -/
def execBlitComplete (s : State) : Host.Outcome State Fault Refusal :=
  .next (match s.tp.blt.cur with
    | none => s
    | some b =>
      if !running s islTP then s
      else
        let (s, r, cl, rows) := blitPixels s b
        let s := if b.unread then onBlt s (fun x => { x with descErr := true })
          else writeStatus s 12 b (statusWord r cl rows)
        let s := match s.fw.moorings.find? b.moor with
          | some m => bltAdvance s 12 b.moor m b.cons
          | none => s
        let s := onBlt s (fun x => { x with cur := none, blits := satAdd x.blits 1,
                                            results := if r = 0 then x.results else setBit x.results r true })
        bltFence s b)

/-! ### A fence of TP (R400) -/

/-- TP is fenced: the blit in progress stops where it is, after a number of its runs that
the specification does not give (a free value). -/
def blitStop (s : State) : State :=
  match s.tp.blt.cur with
  | none => s
  | some b =>
    let (s, v) := drawFree s
    let all := if b.result.isSome ∨ b.empty then [] else b.runs
    let (s, _) := blitRuns s b (all.take (v.toNat % (all.length + 1))) 0
    onBlt s (fun x => { x with cur := none, stopped := some b })

/-- After the release the firmware closes the stopped blit (R400). -/
def blitClose (s : State) : State :=
  match s.tp.blt.stopped with
  | none => s
  | some b =>
    let s := onBlt s (fun x => { x with stopped := none })
    let s := if b.unread then s else writeStatus s 2 b (statusWord 4 false 0)
    match s.fw.moorings.find? b.moor with
    | some m => bltAdvance s 2 b.moor m b.cons
    | none => s

end Sys2Proof.Machine
end

