-- ==== Sys2Proof/Machine/Sluice.lean ====
section
/-! DEFINITION. Sluice (chapter 17): channels, descriptors and their checks, bursts, the tail
re-check, appends, submission moorings, errors and stops. -/

namespace Sys2Proof.Machine

def onSl (s : State) (f : Sluice → Sluice) : State := { s with sl := f s.sl }
def chanOf (s : State) (n : Nat) : Chan := s.sl.chans.get {} n
def updChan (s : State) (n : Nat) (f : Chan → Chan) : State :=
  onSl s (fun x => { x with chans := x.chans.upd {} n f })

/-- Write a register of a channel by its offset: agents 2 to 10 and 15, while SL is not fenced
(R701, R247). -/
def slReach (s : State) (agent ch o : Nat) (f : State → State) : State :=
  reach s agent (0x22000000 + 0x20 * ch + o) (scriptAgent agent) (running s islSL) true f

/-- The STATUS codes of R700. -/
def slBAD_ARG : Nat := 0x13
def slFENCED : Nat := 0x20
def slECC : Nat := 0x21
def slABORTED : Nat := 0x22
def slDENIED : Nat := 0x40
def slHOST_ERR : Nat := 0x41

/-- The STATUS of an error completion of Basin (R696). -/
def slStatus : Err → Nat
  | .fenced => slFENCED
  | _ => slECC

/-! ### The descriptor (R666 to R670) -/

def Chan.word (c : Chan) (k : Nat) : Word := c.desc.getD k 0
def Chan.srcSpace (c : Chan) : Nat := fld (c.word 1) 0 2
def Chan.dstSpace (c : Chan) : Nat := fld (c.word 1) 2 2
def Chan.notify (c : Chan) : Bool := bit (c.word 1) 4
def Chan.src (c : Chan) : Nat := (c.word 2).toNat + fld (c.word 4) 0 16 * 2 ^ 32
def Chan.dst (c : Chan) : Nat := (c.word 3).toNat + fld (c.word 4) 16 16 * 2 ^ 32
def Chan.width (c : Chan) : Nat := fld (c.word 5) 0 16
def Chan.rows (c : Chan) : Nat := fld (c.word 5) 16 16
def Chan.srcStride (c : Chan) : Nat := fld (c.word 6) 0 16
def Chan.dstStride (c : Chan) : Nat := fld (c.word 6) 16 16
/-- The bytes the descriptor moves. -/
def Chan.total (c : Chan) : Nat := c.width * c.rows

/-- The end of what a side touches: one past its last byte. -/
def sideEnd (base stride width rows : Nat) : Nat := base + (rows - 1) * stride + width

/-- Every byte of a side lies below a limit; nothing is touched where nothing moves. -/
def sideBelow (c : Chan) (base stride lim : Nat) : Bool :=
  c.total = 0 || sideEnd base stride c.width c.rows ≤ lim

/-- The checks of R667. -/
def Chan.valid (c : Chan) : Bool :=
  c.srcSpace ≠ 3 && c.dstSpace < 2 && fld (c.word 1) 5 27 = 0
    && (c.word 0).toNat % 32 = 0
    && (c.srcSpace ≠ 0 || fld (c.word 4) 0 16 = 0) && (c.dstSpace ≠ 0 || fld (c.word 4) 16 16 = 0)
    && (c.srcSpace ≠ 0 || sideBelow c c.src c.srcStride 0x04000000)
    && (c.dstSpace ≠ 0 || sideBelow c c.dst c.dstStride 0x04000000)
    && (c.srcSpace ≠ 1 || sideBelow c c.src c.srcStride (2 ^ 48))
    && (c.dstSpace ≠ 1 || sideBelow c c.dst c.dstStride (2 ^ 48))
    && c.total ≤ 16777215 && (c.rows ≤ 1 || c.width ≤ c.dstStride)

/-- Every page of a Basin side lies in a live user block (R668). -/
def sidePages (s : State) (c : Chan) (base stride : Nat) : Bool :=
  c.total = 0 || (List.range c.rows).all (fun r => bytesLive s (base + r * stride) c.width)

/-- The page check of R668. -/
def Chan.pagesOk (s : State) (c : Chan) : Bool :=
  (c.srcSpace ≠ 0 || sidePages s c c.src c.srcStride)
    && (c.dstSpace ≠ 0 || sidePages s c c.dst c.dstStride)

/-- A byte the descriptor writes is also read by it (R671). -/
def Chan.overlaps (c : Chan) : Bool :=
  c.srcSpace = c.dstSpace && (List.range c.rows).any (fun r => (List.range c.rows).any (fun q =>
    let a := c.src + r * c.srcStride
    let b := c.dst + q * c.dstStride
    a < b + c.width && b < a + c.width))

/-! ### Stops (R686, R694 to R698) -/

/-- The first error in issue order stays (R694). -/
def Chan.note (c : Chan) (off st : Nat) : Chan :=
  match c.err with
  | some (o, _) => if off < o then { c with err := some (off, st) } else c
  | none => { c with err := some (off, st) }

/-- An error at an offset stops a channel (R694). -/
def Chan.fail (c : Chan) (off st : Nat) : Chan :=
  { Chan.note c off st with state := .stopping }

/-- A stop with no byte left to count and no RESULT (R686, R698). -/
def Chan.failBare (c : Chan) (st : Nat) : Chan :=
  { c with state := .stopping, desc := [], flight := [], err := some (0, st), result := false }

/-- A channel in STOPPED. -/
def Chan.toStopped (c : Chan) (st : Nat) (residue : BitVec 24) : Chan :=
  { c with state := .stopped, status := BitVec.ofNat 8 st, residue := residue, desc := [],
           flight := [], err := none, aborted := false, result := true }

/-- The signalling of a stop (R686, R694). -/
def stopSignal (s : State) (n st : Nat) (residue : BitVec 24) : State :=
  let c := chanOf s n
  let s := updChan s n (fun c => c.toStopped st residue)
  postRec (raiseShared s n) islSL 0x21 c.handle (pack [(0, st), (8, residue.toNat)]) c.moor

/-- Write STRIDE and RESULT of the current descriptor as one full doubleword (R674). -/
def writeResult (s : State) (agent : Nat) (c : Chan) (st residue : Nat) : State × Option Err :=
  writeReq s agent (c.cur.toNat + 0x18)
    (leBytes 4 (c.word 6).toNat ++ leBytes 4 (pack [(0, st), (8, residue)]).toNat)

/-- The residue of R695; one above 24 bits, which only an invalid descriptor has, is not
stated (a free value). -/
def residueOf (s : State) (c : Chan) : State × BitVec 24 :=
  let first := match c.err with
    | some (o, _) => if c.issued < o then c.issued else o
    | none => c.issued
  if c.total - first < 2 ^ 24 then (s, BitVec.ofNat 24 (c.total - first))
  else
    let (s, v) := drawFree s
    (s, v.setWidth 24)

/-- A stopping channel whose bursts have drained stops (R686, R694). -/
def stopChan (s : State) (n : Nat) : State :=
  let c := chanOf s n
  let st := if c.aborted then slABORTED else match c.err with
    | some (_, x) => x
    | none => slABORTED
  let (s, r) := residueOf s c
  let s := if c.result && !c.desc.isEmpty then (writeResult s 11 c st r.toNat).1 else s
  stopSignal s n st r

/-- SL_CHANNEL_STOPPED (R694). -/
def execSlChannelStopped (ch : Fin 64) (s : State) : Host.Outcome State Fault Refusal :=
  .next (let c := chanOf s ch
    if running s islSL && c.state = .stopping && c.flight.isEmpty then stopChan s ch else s)

/-! ### Fetch, completion and the tail (R667, R674 to R677) -/

/-- Go on to fetch a descriptor. -/
def Chan.toFetch (c : Chan) (a : Word) : Chan :=
  { c with state := .running, step := .fetch, cur := a.setWidth 26, desc := [], flight := [],
           issued := 0, err := none, aborted := false, result := true }

/-- A link leads to a descriptor: 32-byte aligned and in Basin (R666). Any other is refused as
a fetch that fails (DESIGN CHOICE, log entry 37). -/
def followLink (s : State) (n : Nat) (a : Word) : State :=
  if a.toNat % 32 ≠ 0 then updChan s n (fun c => Chan.failBare { c with cur := a.setWidth 26 } slBAD_ARG)
  else if 0x04000000 ≤ a.toNat then
    updChan s n (fun c => Chan.failBare { c with cur := a.setWidth 26 } slDENIED)
  else updChan s n (fun c => c.toFetch a)

/-- A descriptor completes (R674). -/
def completeDesc (s : State) (n : Nat) : State :=
  let c := chanOf s n
  match writeResult s 11 c 0 0 with
  | (s, some e) => updChan s n (fun c => c.fail c.total (slStatus e))
  | (s, none) =>
    let s := updChan s n (fun c => { c with done := c.done + 1 })
    let s := if c.notify then
        postRec (raiseShared s n) islSL 0x20 c.handle (c.done + 1) c.moor
      else s
    if c.next ≠ 0 then followLink s n c.next
    else updChan s n (fun c => { c with step := .recheck })

/-- What a fetch finds (R667, R668, R675, R698). -/
def fetchDesc (s : State) (n : Nat) : State :=
  let a := (chanOf s n).cur.toNat
  if !pageLive s (a / 65536) then updChan s n (fun c => c.failBare slDENIED)
  else
    match readMem s 11 a 32 with
    | (s, .error e) => updChan s n (fun c => c.failBare (slStatus e))
    | (s, .ok b) =>
      let w := (List.range 8).map (fun k => leWord (b.drop (4 * k)))
      let s := updChan s n (fun c => { c with desc := w, next := w.getD 0 0, issued := 0, step := .move })
      let c := chanOf s n
      if !c.valid then updChan s n (fun c => c.fail 0 slBAD_ARG)
      else if !c.pagesOk s then updChan s n (fun c => c.fail 0 slDENIED)
      else if c.total = 0 then completeDesc s n
      else s

/-- SL_DESCRIPTOR_FETCH (R667). -/
def execSlDescriptorFetch (ch : Fin 64) (s : State) : Host.Outcome State Fault Refusal :=
  .next (let c := chanOf s ch
    if running s islSL && c.state = .running && c.step = .fetch then fetchDesc s ch else s)

/-- Read the NEXT word of the descriptor in SL_CH_CUR and follow a link (R676, R677); `tail`
tells the tail re-check, which otherwise enters IDLE_AT_TAIL. A read that fails stops the
channel under the error rule (DEDUCED, log entry 37). -/
def readNext (s : State) (n : Nat) (tail : Bool) : State :=
  match readWord s 11 (chanOf s n).cur.toNat with
  | (s, none) =>
    let st := if running s (islBank (bankOf (chanOf s n).cur.toNat)) then slECC else slFENCED
    updChan s n (fun c => c.fail c.total st)
  | (s, some w) =>
    if w ≠ 0 then followLink s n w
    else if tail then raiseShared (updChan s n (fun c => { c with state := .idleAtTail })) n
    else s

/-- SL_TAIL_RECHECK (R676). -/
def execSlTailRecheck (ch : Fin 64) (s : State) : Host.Outcome State Fault Refusal :=
  .next (let c := chanOf s ch
    if running s islSL && c.state = .running && c.step = .recheck then readNext s ch true else s)

/-! ### Bursts (R672, R673, R689, R690) -/

/-- The next burst of a channel: the bytes of one row in one 256-byte block of the
destination, cut where a host source crosses 4 KiB (R672, R690; DEDUCED, log entry 37). -/
def Chan.burst (c : Chan) : Burst :=
  let r := c.issued / c.width
  let i := c.issued % c.width
  let src := c.src + r * c.srcStride + i
  let dst := c.dst + r * c.dstStride + i
  let n := min (c.width - i) (256 - dst % 256)
  { off := c.issued, src := if c.srcSpace = 2 then 0 else src, dst := dst,
    len := if c.srcSpace = 1 then min n (4096 - src % 4096) else n }

/-- A channel has a burst to issue and room for it (R673). -/
def canIssue (c : Chan) : Bool :=
  c.state = .running && c.step = .move && c.issued < c.total && c.flight.length < 8

/-- Bursts in flight in all channels. -/
def inFlight (s : State) : Nat := s.sl.chans.foldl (fun a p => a + p.2.flight.length) 0

/-- The channel whose turn it is at a priority: round robin from the one after the last. -/
def turnAt (s : State) (p : Nat) : Option Nat :=
  let l := (List.range 64).filter (fun n => canIssue (chanOf s n) && (chanOf s n).prio.toNat = p)
  let last := s.sl.served.get 63 p
  match l.find? (fun n => last < n) with
  | some n => some n
  | none => l.head?

/-- The channel that wins arbitration (R689). -/
def slTurn (s : State) : Option Nat :=
  (turnAt s 3).or ((turnAt s 2).or ((turnAt s 1).or (turnAt s 0)))

/-- The error that a host burst meets before it leaves (R690, R696). -/
def hostErr (s : State) : Option Nat :=
  if !running s islHI || hostInReset s then some slFENCED
  else if !s.pcie.busMaster then some slHOST_ERR
  else none

/-- Issue a channel's next burst; a host read leaves as one request, rounded outward to whole
4-byte units (R672, R690). -/
def issueBurst (s : State) (n : Nat) : State :=
  let c := chanOf s n
  let b := c.burst
  let host := c.srcSpace = 1 ∨ c.dstSpace = 1
  let e := if host then hostErr s else none
  let s := updChan s n (fun c => { c with flight := c.flight ++ [{ b with err := e, seq := s.sl.bursts }],
                                          issued := c.issued + b.len })
  let s := onSl s (fun x => { x with served := x.served.put c.prio.toNat n, bursts := x.bursts + 1 })
  if c.srcSpace = 1 ∧ e = none then
    emit s (.hostRead (BitVec.ofNat 64 (b.src / 4 * 4))
      ((b.src + b.len + 3) / 4 * 4 - b.src / 4 * 4))
  else s

/-- SL_BURST_ISSUE (R689). -/
def execSlBurstIssue (s : State) : Host.Outcome State Fault Refusal :=
  .next (if !running s islSL || 64 ≤ inFlight s then s
    else match slTurn s with
      | some n => issueBurst s n
      | none => s)

/-- The islands that a side of a burst lies in: at most 256 bytes reach two banks at most. -/
def sideIslands (space a len : Nat) : List Nat :=
  if space = 0 then [islBank (bankOf a), islBank (bankOf (a + len - 1))].eraseDups
  else if space = 1 then [islHI]
  else []

/-- The islands that a burst in flight waits for (R245). -/
def burstIslands (c : Chan) (b : Burst) : List Nat :=
  (sideIslands c.srcSpace b.src b.len ++ sideIslands c.dstSpace b.dst b.len).eraseDups

/-- The islands of the request that a burst waits to have performed first: its Basin read, or its
write where it reads nothing. A host read leaves as the burst is issued. -/
def firstIslands (c : Chan) (b : Burst) : List Nat :=
  if c.srcSpace = 2 then sideIslands c.dstSpace b.dst b.len
  else if c.srcSpace = 1 then []
  else sideIslands c.srcSpace b.src b.len

/-- Sluice is one agent: an older burst, of any channel, has a request to an island that this one's
first request goes to, and it is performed before it (R242, R256). -/
def burstHeld (s : State) (c : Chan) (b : Burst) : Bool :=
  s.sl.chans.any (fun p => p.2.flight.any (fun o =>
    decide (o.seq < b.seq) && (firstIslands p.2 o).any (fun i => (firstIslands c b).contains i)))

/-- Free bytes. -/
def freeBytes : Nat → State → State × List Byte
  | 0, s => (s, [])
  | n + 1, s =>
    let (s, v) := drawFree s
    let (s, r) := freeBytes n s
    (s, v.setWidth 8 :: r)

/-- The bytes a burst reads: of Basin, read outward to whole doublewords (R672), of the host,
or of the pattern (R670). -/
def burstData (s : State) (c : Chan) (b : Burst) (h : HostCpl) : State × Except Nat (List Byte) :=
  if c.srcSpace = 2 then
    (s, .ok ((List.range b.len).map (fun i =>
      (leBytes 4 (c.word 2).toNat).getD ((b.dst + i) % 4) 0)))
  else if c.srcSpace = 1 then
    match hostErr s, h with
    | some e, _ => (s, .error e)
    | none, .data d => (s, .ok ((List.range b.len).map (fun i => d.getD i 0xFF)))
    | none, .ep => (s, .error slECC)
    | none, .failed => (s, .error slHOST_ERR)
  else
    match readMem s 11 b.src b.len with
    | (s, .ok d) => (s, .ok d)
    | (s, .error e) => (s, .error (slStatus e))

/-- Write a burst's bytes (R672, R673, R697). -/
def burstWrite (s : State) (c : Chan) (b : Burst) (d : List Byte) : State × Option Nat :=
  if c.dstSpace = 1 then
    match hostErr s with
    | some e => (s, some e)
    | none => (emit s (.hostWrite (BitVec.ofNat 64 b.dst) d), none)
  else
    match writeReq s 11 b.dst d with
    | (s, none) => (s, none)
    | (s, some e) => (s, some (slStatus e))

/-- Perform a burst: what is unspecified by R671 is written as free bytes. -/
def doBurst (s : State) (c : Chan) (b : Burst) (h : HostCpl) : State × Option Nat :=
  match b.err with
  | some e => (s, some e)
  | none =>
    match burstData s c b h with
    | (s, .error e) => (s, some e)
    | (s, .ok d) =>
      let (s, d) := if c.overlaps then freeBytes b.len s else (s, d)
      burstWrite s c b d

/-- A burst of a channel ends (R673, R694), unless an older one must be performed first (R242): an
error stops the channel, and the last one of a descriptor completes it. -/
def endBurst (s : State) (n k : Nat) (h : HostCpl) : State :=
  let c := chanOf s n
  match c.flight[k]? with
  | none => s
  | some b =>
    if burstHeld s c b then s else
    let (s, e) := doBurst s c b h
    let s := updChan s n (fun c => { c with flight := c.flight.eraseIdx k })
    match e with
    | some st => updChan s n (fun c => c.fail b.off st)
    | none =>
      let c := chanOf s n
      if c.state = .running && c.flight.isEmpty && c.total ≤ c.issued then completeDesc s n else s

/-- SL_BURST_COMPLETE (R673): `burst` counts the bursts in flight from the oldest. -/
def execSlBurstComplete (ch : Fin 64) (burst : Fin 8) (host : HostCpl) (s : State) :
    Host.Outcome State Fault Refusal :=
  .next (if running s islSL then endBurst s ch burst host else s)

/-! ### Appends and commands (R677 to R688) -/

/-- Link HEAD into the NEXT word of SL_CH_TAIL (R678, R681). -/
def linkTail (s : State) (n : Nat) (head : Nat) : State × Bool :=
  let c := chanOf s n
  match writeReq s 11 c.tail.toNat (leBytes 4 head) with
  | (s, none) => (s, true)
  | (s, some e) =>
    (updChan s n (fun c => c.fail c.total (slStatus e)), false)

/-- An append of HEAD and LAST (R678). -/
def append (s : State) (n head last : Nat) : State :=
  let c := chanOf s n
  let l := BitVec.ofNat 26 (if last = 0 then head else last)
  match c.state with
  | .closed => s
  | .empty => updChan s n (fun c => { c.toFetch (w32 head) with tail := l })
  | .running =>
    match linkTail s n head with
    | (s, false) => s
    | (s, true) => updChan s n (fun c =>
        { c with next := if c.cur = c.tail && !c.desc.isEmpty then w32 head else c.next, tail := l })
  | .idleAtTail =>
    match linkTail s n head with
    | (s, false) => s
    | (s, true) => updChan s n (fun c => { c.toFetch (w32 head) with tail := l })
  | .stopping => updChan s n (fun c => { c with appendErr := true })
  | .stopped => updChan s n (fun c => { c with appendErr := true })

/-- DOORBELL (R677). -/
def doorbell (s : State) (n : Nat) : State :=
  if (chanOf s n).state = .idleAtTail then readNext s n false else s

/-- ABORT (R686). A channel that is fetching a descriptor has none to count or to write a
RESULT into; one at its tail re-check has residue 0 (DEDUCED, log entry 37). -/
def abort (s : State) (n : Nat) : State :=
  match (chanOf s n).state with
  | .running => updChan s n (fun c => { c with state := .stopping, aborted := true })
  | .empty => stopSignal s n slABORTED 0
  | .idleAtTail => stopSignal s n slABORTED 0
  | _ => s

/-- CLEAR (R687). -/
def clearChan (s : State) (n : Nat) : State :=
  let c := chanOf s n
  if c.state = .stopped ∨ c.state = .idleAtTail then
    updChan s n (fun c => { c with state := .empty, cur := 0, tail := 0, residue := 0, desc := [] })
  else s

/-- DOORBELL of SL_CH_CMD (R677). -/
def execSlDoorbell (agent : Agent) (ch : Fin 64) (s : State) : Host.Outcome State Fault Refusal :=
  .next (slReach s agent ch 0x18 (fun s => doorbell s ch))

/-- ABORT of SL_CH_CMD (R686). -/
def execSlAbort (agent : Agent) (ch : Fin 64) (s : State) : Host.Outcome State Fault Refusal :=
  .next (slReach s agent ch 0x18 (fun s => abort s ch))

/-- CLEAR of SL_CH_CMD (R687). -/
def execSlClear (agent : Agent) (ch : Fin 64) (s : State) : Host.Outcome State Fault Refusal :=
  .next (slReach s agent ch 0x18 (fun s => clearChan s ch))

/-- SL_APPEND (R678, R702): LAST comes from the agent's own SL_APPEND_LAST. -/
def execSlAppend (agent : Agent) (ch : Fin 64) (value : Word) (s : State) :
    Host.Outcome State Fault Refusal :=
  .next (slReach s agent ch 0x1C (fun s =>
    append s ch (fld value 5 21 * 32) (fld (s.sl.last.get 0 agent) 5 21 * 32)))

/-! ### Submission moorings (R682 to R685) -/

/-- The channel of a live DMA handle (R159, R161). -/
def chanIndex (s : State) (h : Word) : Option Nat :=
  let i := fld h 0 16
  if i < 64 ∧ h ≠ 0 ∧ (chanOf s i).state ≠ .closed ∧ (chanOf s i).handle = h then some i else none

/-- Perform one submission entry (R683 to R685). -/
def submitEntry (s : State) (w : List Word) : State :=
  let w0 := w.getD 0 0
  if fld w0 24 8 = 0xFF then s
  else
    let bad := onSl s (fun x => { x with submitErr := satAdd x.submitErr 1 })
    if fld w0 2 30 ≠ 0 then bad
    else
      match chanIndex s (w.getD 1 0) with
      | none => bad
      | some n =>
        match fld w0 0 2 with
        | 0 => append s n (fld (w.getD 2 0) 5 21 * 32) (fld (w.getD 3 0) 5 21 * 32)
        | 1 => doorbell s n
        | 2 => abort s n
        | _ => clearChan s n

/-- Perform the entries of a mooring from CONS up to PROD (R684). -/
def submitEntries : Nat → State → Moor → Word → Word → State
  | 0, s, _, _, _ => s
  | fuel + 1, s, m, prod, cons =>
    if prod = cons then s
    else
      match readMem s 11 (m.entry cons) 16 with
      | (s, .error _) => s
      | (s, .ok b) =>
        let s := submitEntry s ((List.range 4).map (fun k => leWord (b.drop (4 * k))))
        match writeReq s 11 (m.cb + 4) (leBytes 4 (cons + 1).toNat) with
        | (s, some _) => s
        | (s, none) => submitEntries fuel s m prod (cons + 1)

/-- Sluice polls one submission mooring. -/
def pollMoor (s : State) (i : Nat) : State :=
  match s.fw.moorings.find? i with
  | none => s
  | some m =>
    match readMem s 11 m.cb 8 with
    | (s, .error _) => s
    | (s, .ok b) => submitEntries m.size s m (leWord b) (leWord (b.drop 4))

/-- SL_SUBMIT_POLL (R684). -/
def execSlSubmitPoll (s : State) : Host.Outcome State Fault Refusal :=
  .next (if running s islSL then s.sl.submits.foldl (fun s p => pollMoor s p.2) s else s)

/-! ### Fences (R696, R697, R699) -/

/-- A burst's Basin or host side lies in an island. -/
def burstIn (c : Chan) (b : Burst) (i : Nat) : Bool := (burstIslands c b).contains i

/-- A fence of another island: the bursts in flight towards it get FENCED (R246, R696). -/
def slFenceOf (s : State) (i : Nat) : State :=
  onSl s (fun x => { x with chans := x.chans.map (fun p =>
    (p.1, { p.2 with flight := p.2.flight.map (fun b =>
      if b.err = none ∧ burstIn p.2 b i then { b with err := some slFENCED } else b) })) })

/-- SL is fenced: channels in RUNNING or STOPPING stop at once (R699). How many of the bursts
in flight were performed is not stated: a free value. -/
def slFence (s : State) : State :=
  (List.range 64).foldl (fun s n =>
    let (s, v) := if (chanOf s n).flight.isEmpty then (s, 0) else drawFree s
    let k := v.toNat % ((chanOf s n).flight.length + 1)
    let s := (((chanOf s n).flight.take k).filter (fun _ => (chanOf s n).srcSpace ≠ 1)).foldl (fun s b => (doBurst s (chanOf s n) b (.data [])).1) s
    updChan s n (fun c => { c with flight := [] })) s

/-- After the restore the firmware closes each channel that the fence stopped (R699). -/
def slRestore (s : State) : State :=
  (List.range 64).foldl (fun s n =>
    let c := chanOf s n
    if c.state = .running ∨ c.state = .stopping then
      let s := if c.desc.isEmpty then s else (writeResult s 2 c slFENCED c.total).1
      stopSignal s n slFENCED (BitVec.ofNat 24 c.total)
    else s) s

end Sys2Proof.Machine
end

