-- ==== Sys2Proof/Machine/Deck.lean ====
section
/-! DEFINITION. The Ceing cores' entries and returns (R566 to R572) and the deck kernel: its
tasks, dispatch, services, events and lock cells (R581 to R596). What the kernel does after an
entry is done in the same step as the entry (log entry 36). -/

namespace Sys2Proof.Machine

def onDh (s : State) (f : Decks → Decks) : State := { s with dh := f s.dh }
def coreOf (s : State) (n : Nat) : Core := s.dh.cores.get {} n
def updCore (s : State) (n : Nat) (f : Core → Core) : State :=
  onDh s (fun x => { x with cores := x.cores.upd {} n f })
def taskOf (s : State) (i : Nat) : Option Task := s.dh.tasks.find? i
def setTask (s : State) (i : Nat) (t : Task) : State :=
  onDh s (fun x => { x with tasks := x.tasks.put i t })
def updTask (s : State) (i : Nat) (f : Task → Task) : State :=
  match taskOf s i with
  | none => s
  | some t => setTask s i (f t)

/-- A core executes: its island is not fenced and it is not halted. -/
def coreRuns (s : State) (n : Nat) : Bool := running s (islDeck n) && !(coreOf s n).halted
/-- The deck kernel runs this core: a task is dispatched, or it has none to run. -/
def Core.deck (c : Core) : Bool := c.cur.isSome || c.idle

/-! ### Entries and returns (R566, R569, R570, R572, R607) -/

/-- The flags as DH_ESTAT holds them: Z [3], N [2], C [1], V [0]. -/
def Core.flags (c : Core) : Nat := b2n c.z * 8 + b2n c.n * 4 + b2n c.c * 2 + b2n c.v
def Core.setFlags (c : Core) (f : Nat) : Core :=
  { c with z := f.testBit 3, n := f.testBit 2, c := f.testBit 1, v := f.testBit 0 }

/-- DH_ESTAT at an entry: the flags, IE and LEVEL in force, and HELD. -/
def Core.status (c : Core) : BitVec 7 :=
  BitVec.ofNat 7 (c.flags + b2n c.ie * 16 + b2n c.kernel * 32 + 64)

/-- Entry: save, and jump to an offset from DH_VBASE. DH_EADDR keeps its value where no EA or
port is concerned (DEDUCED, log entry 35). -/
def Core.enter (c : Core) (code : Nat) (store : Bool) (epc : Cell) (ea : Option Word)
    (off : Cell) : Core :=
  { c with epc := epc, estat := c.status, ecode := BitVec.ofNat 8 code, estore := store,
           eaddr := ea.getD c.eaddr, kernel := true, ie := false, pc := c.vbase + off,
           waiting := false }

/-- `reti` (R570). -/
def Core.reti (c : Core) : Core :=
  { c.setFlags (c.estat.toNat % 16) with
      pc := c.epc, ie := c.estat.getLsbD 4, kernel := c.estat.getLsbD 5 }

/-! ### Tasks -/

/-- Effective priority (R581). -/
def Task.eff (t : Task) : Nat := t.locks.foldl (fun m p => max m p.2.toNat) t.prio.toNat

/-- The indices of a Deckhand's tasks, in ascending order. -/
def deckTasks (s : State) (n : Nat) : List Nat :=
  (s.dh.tasks.filter (fun p => p.2.deck = n)).map (·.1)

/-- A task becomes ready (R582). -/
def readyTask (s : State) (i : Nat) : State :=
  let k := s.dh.seq
  updTask (onDh s (fun x => { x with seq := k + 1 })) i (fun t =>
    { t with state := 1, wait := none, seq := k })

/-- Of two tasks, whether the first goes before the second (R582). -/
def before (a b : Task) : Bool := b.eff < a.eff || (a.eff = b.eff && a.seq < b.seq)

/-- The ready task the kernel would run (R582); none in HOLD (R594). -/
def pickTask (s : State) (n : Nat) : Option Nat :=
  if s.sys.mode = mHOLD then none
  else
    (s.dh.tasks.foldl (fun (m : Option (Nat × Task)) p =>
      if p.2.deck = n ∧ p.2.state = 1 then
        match m with
        | none => some p
        | some q => if before p.2 q.2 then some p else m
      else m) none).map (·.1)

/-- The task that owns a cell through LOCK on a Deckhand. -/
def localOwner (s : State) (n cell : Nat) : Option Nat :=
  (List.find? (fun p => p.2.deck = n && (Tab.find? p.2.locks cell).isSome) s.dh.tasks).map (·.1)

/-- One task blocked in LOCK passes its priority to the owner on its Deckhand (R592). -/
def passPrio (s : State) (t : Task) : State :=
  match t.wait with
  | some (.lock cell) =>
    match localOwner s t.deck cell with
    | none => s
    | some j => updTask s j (fun o =>
        if o.eff < t.eff then { o with locks := o.locks.put cell (BitVec.ofNat 4 t.eff) } else o)
  | _ => s

/-- Inheritance within a Deckhand, through chains of at most 32 tasks (R581, R592). -/
def inheritLocal (s : State) (n : Nat) : State :=
  (List.range 32).foldl (fun s _ =>
    (deckTasks s n).foldl (fun s i => match taskOf s i with
      | some t => if t.state = 3 then passPrio s t else s
      | none => s) s) s

/-- The kernel writes WR_PRIO (R583). -/
def writePrio (s : State) (n p : Nat) : State :=
  if running s (islBank 0) then
    weirSettle (updCtx s (n + 3) (fun c => { c with prio := BitVec.ofNat 4 p }))
  else s

/-- The stack of a task (R584; DESIGN CHOICE, log entry 36). -/
def stackOf (t : Task) : Nat := 0x00380000 + t.deck * 0x8000 + t.slot * 0x400

/-- The base registers of a task that starts (R584). -/
def startBases (t : Task) : Vector BReg 8 :=
  let empty : BReg := { floor := 1 }
  (((Vector.replicate 8 empty).setIfInBounds 0
      { base := 0x00400000, floor := 0x00400000, limit := 0x03FFFFFF }).setIfInBounds 1
      { base := w32 (recordOf 0), floor := w32 (recordOf 0), limit := w32 (recordOf 2047 + 0xFF),
        mode := 2 }).setIfInBounds 7
      { base := w32 (stackOf t + 0x400), floor := w32 (stackOf t), limit := w32 (stackOf t + 0x3FF),
        mode := 3 }

/-- The state a started task begins with (R574, R584). -/
def startCtx (t : Task) : Ctx :=
  { d := Vector.replicate 16 0, b := startBases t, p := Vector.replicate 4 0, flags := 0, ie := true,
    pc := BitVec.ofNat 16 t.cell, sel := (BitVec.ofNat 11 (t.scene.getD 0), 0, 0, 0, 0, 0),
    wlatch := (0, 0xFFFF), rlatch := (0, 0xFFFF), when_ := 0, last := 0 }

/-- TP_WHEN as a word, and back (R332). -/
def When.word (w : When) : Word :=
  pack [(0, w.line.toNat), (14, b2n w.nextFrame), (15, b2n w.en)]
def When.ofWord (v : Word) : When :=
  { line := BitVec.ofNat 10 (fld v 0 10), nextFrame := bit v 14, en := bit v 15 }

/-- What the kernel saves of the task it leaves, after an entry (R573, R574). -/
def saveCtx (s : State) (n : Nat) : Ctx :=
  let c := coreOf s n
  { d := c.d, b := c.b, p := c.p, flags := c.estat.extractLsb' 0 4, ie := c.estat.getLsbD 4,
    pc := c.epc, sel := (c.scene, c.station, c.voice, c.mix, c.lane, c.mb),
    wlatch := (c.wdata, c.wport), rlatch := (c.rdata, c.rport),
    when_ := (whenOf s (n + 3)).word, last := s.sl.last.get 0 (n + 3) }

/-- A core that takes up a task's context, as `reti` leaves it (R570, R573, R574, R584); DH_CODE
is the running task's code (DESIGN CHOICE, log entry 36). -/
def Core.take (c : Core) (i : Nat) (t : Task) (x : Ctx) : Core :=
  let c : Core := { c with d := x.d, b := x.b, p := x.p, epc := x.pc, scene := x.sel.1,
                           station := x.sel.2.1, voice := x.sel.2.2.1, mix := x.sel.2.2.2.1 }
  let c : Core := { c with lane := x.sel.2.2.2.2.1, mb := x.sel.2.2.2.2.2, wdata := x.wlatch.1,
                           wport := x.wlatch.2, rdata := x.rlatch.1, rport := x.rlatch.2 }
  let c : Core := { c with estat := BitVec.ofNat 7 (x.flags.toNat + b2n x.ie * 16),
                           cfloor := BitVec.ofNat 16 t.cell,
                           climit := BitVec.ofNat 16 (t.cell + t.len - 1) }
  let c : Core := { c with cur := some i, idle := false, waiting := false }
  c.reti

/-- Run a task (R582 to R584). -/
def runTask (s : State) (n i : Nat) : State :=
  match taskOf s i with
  | none => s
  | some t =>
    let x := t.ctx.getD (startCtx t)
    let s := updCore s n (fun c => c.take i t x)
    let s := onTp s (fun p => { p with when_ := p.when_.set {} (n + 3) (When.ofWord x.when_) })
    let s := onSl s (fun l => { l with last := l.last.set 0 (n + 3) x.last })
    let s := setTask s i { t with state := 2, ctx := none, since := s.tick }
    writePrio s n t.eff

/-- The kernel dispatches the next task, or has none to run. -/
def dispatch (s : State) (n : Nat) : State :=
  match pickTask s n with
  | some i => runTask s n i
  | none => updCore s n (fun c =>
      { c with cur := none, idle := true, ie := true, estat := c.estat &&& 0x3F })

/-- Release every cell a task owns through LOCK (R595). -/
def releaseLocks (s : State) (n i : Nat) : State :=
  match taskOf s i with
  | none => s
  | some t =>
    let s := t.locks.foldl (fun s p => (lockWriteReg s (n + 3) p.1).1) s
    updTask s i (fun t => { t with locks := [] })

/-- A task stops, in state 0 or 4 (R585, R587, R595); its cells are released (DEDUCED, log entry
36). -/
def stopTask (s : State) (i state : Nat) : State :=
  match taskOf s i with
  | none => s
  | some t =>
    updTask (releaseLocks s t.deck i) i (fun t =>
      { t with state := state, started := false, stopDue := false, ctx := none, wait := none,
               slots := [], mask := 0, ran := 0 })

/-- An exception in task level stops the task and posts SCRIPT_FAULT (R595). -/
def faultTask (s : State) (n i code : Nat) (pc : Cell) : State :=
  match taskOf s i with
  | none => s
  | some t =>
    let s := stopTask s i 4
    let s := updTask s i (fun t => { t with faultCode := BitVec.ofNat 8 code, faultPc := pc })
    postRec s (islDeck n) 0x24 (handleOf s tSCRIPT i) (pack [(0, code), (16, pc.toNat)]) t.moor

/-- The kernel's `sync` before a switch: a store error is raised while its task is current
(R567, R568). -/
def syncSwitch (s : State) (n i : Nat) : State :=
  let c := coreOf s n
  match c.storeErr with
  | [] => s
  | a :: _ =>
    let s := updCore s n (fun c => { c with storeErr := [], ecode := 7, estore := true, eaddr := a })
    if (taskOf s i).any (fun t => t.state = 4) then s else faultTask s n i 7 c.epc

/-- Ticks a task has run since its last yield (R588). -/
def ranTicks (s : State) (t : Task) : Nat :=
  if t.state = 2 then t.ran + ticksSince s t.since else t.ran

/-- The kernel switches from a task to the next one; a task that still runs is saved, stays
ready and keeps its place (R582, R594, log entry 36). -/
def switchFrom (s : State) (n i : Nat) : State :=
  let s := syncSwitch s n i
  let x := saveCtx s n
  let s := updTask s i (fun t =>
    if t.state = 2 then { t with state := 1, ctx := some x, ran := ranTicks s t } else t)
  dispatch (updCore s n (fun c => { c with cur := none })) n

/-- The end of the kernel's work after an entry: the task goes on, or another takes its
place (R582, R583). -/
def kernelExit (s : State) (n : Nat) : State :=
  let s := inheritLocal s n
  match (coreOf s n).cur with
  | none => dispatch s n
  | some i =>
    match taskOf s i with
    | none => dispatch (updCore s n (fun c => { c with cur := none })) n
    | some t =>
      let stay := t.state = 2 && s.sys.mode ≠ mHOLD && (match (pickTask s n).bind (taskOf s) with
        | some u => u.eff ≤ t.eff
        | none => true)
      if stay then
        writePrio (updCore s n (fun c => { c.reti with estat := c.estat &&& 0x3F })) n t.eff
      else switchFrom s n i

/-- The kernel looks again at what is ready: at once when it has no task, else by an entry when
the running task lets it in. -/
def reschedule (s : State) (n : Nat) : State :=
  let c := coreOf s n
  if !coreRuns s n || !c.deck then s
  else if c.cur.isNone then kernelExit s n
  else if c.ie then kernelExit (updCore s n (fun c => c.enter 0 false c.pc none 0)) n
  else s

/-! ### Exceptions (R565 to R567, R572, R595, R596) -/

/-- An exception of a core: `epc` is what DH_EPC takes. In kernel level with HELD it halts the
core. -/
def exception (s : State) (n code : Nat) (store : Bool) (epc : Cell) (ea : Option Word) : State :=
  let c := coreOf s n
  if c.kernel && c.estat.getLsbD 6 then updCore s n (fun c => { c with halted := true })
  else
    let s := updCore s n (fun c => c.enter code store epc ea 0x10)
    match c.cur with
    | some i => if c.kernel then s else kernelExit (faultTask s n i code epc) n
    | none => s

/-! ### Pending slots (R586) -/

/-- The slots of the kinds in a task's mask, the earliest first; of equal stamps, the lowest
kind. -/
def firstSlot (t : Task) : Option (Nat × Slot) :=
  t.slots.foldl (fun (m : Option (Nat × Slot)) p =>
    if t.mask.getLsbD p.1 then
      match m with
      | none => some p
      | some q => if p.2.stamp < q.2.stamp then some p else m
    else m) none

/-- What WAIT returns in the d registers (R585). -/
def waitResult (d : Vector Cell 16) (k : Nat) (x : Slot) : Vector Cell 16 :=
  let d := (d.setIfInBounds 0 (BitVec.ofNat 16 k)).setIfInBounds 1 x.d1
  let d := if k = 1 then d.setIfInBounds 2 x.d2 else d
  if k ≤ 4 then d.setIfInBounds 3 x.d3 else d

/-- A waiting task takes the pending event it waits for. -/
def wakeTask (s : State) (i : Nat) : State :=
  match taskOf s i with
  | none => s
  | some t =>
    if t.state = 3 ∧ t.wait = some .event then
      match firstSlot t with
      | none => s
      | some (k, x) =>
        let t : Task := { t with slots := Tab.erase t.slots k,
                                 ctx := t.ctx.map (fun c => { c with d := waitResult c.d k x }) }
        readyTask (setTask s i t) i
    else s

/-- An event reaches one task's slot (R586). -/
def fillSlot (s : State) (i k : Nat) (x : Slot) : State :=
  match taskOf s i with
  | none => s
  | some t =>
    if !t.started || !t.mask.getLsbD k then s
    else
      let t : Task := { t with missed := if (Tab.find? t.slots k).isSome then satAdd t.missed 1 else t.missed,
                               slots := Tab.put t.slots k x }
      wakeTask (setTask s i t) i

/-- An event reaches the tasks of a Deckhand; a scene event only those bound to its scene. -/
def fillAll (s : State) (n k : Nat) (scene : Option Nat) (x : Slot) : State :=
  (deckTasks s n).foldl (fun s i =>
    if scene.isNone ∨ (taskOf s i).any (fun t => t.scene = scene) then fillSlot s i k x else s) s

/-! ### Interrupts (R571, R586, R589, R593) -/

/-- The kernel drains its TP event queue into the slots; in HOLD it discards the entries
(R594). -/
def drainEvq : Nat → State → Nat → State
  | 0, s, _ => s
  | fuel + 1, s, n =>
    match (s.tp.evq.get {} n).q with
    | [] => s
    | (e, t) :: _ =>
      let s := (evqRead s (n + 3)).1
      let s := if s.sys.mode = mHOLD then s
        else fillAll s n (fld e 11 2) (some (fld e 0 11))
          { stamp := t, d1 := BitVec.ofNat 16 (fld e 15 10), d2 := BitVec.ofNat 16 (fld e 13 2),
            d3 := BitVec.ofNat 16 (fld e 25 7) }
      drainEvq fuel s n

/-- Priority inheritance from Weir (R593). -/
def takeInherit (s : State) (n : Nat) : State :=
  if !running s (islBank 0) then s
  else match inherit? s (n + 3) with
    | none => s
    | some (p, cell) =>
      match localOwner s n cell with
      | none => s
      | some i => updTask s i (fun t =>
          { t with locks := t.locks.put cell (BitVec.ofNat 4 (max p (Tab.get 0 t.locks cell).toNat)) })

/-- What the kernel does for one private source (R571). -/
def serveSource (s : State) (n i : Nat) : State :=
  let ev (s : State) (k d1 d3 : Nat) : State :=
    if s.sys.mode = mHOLD then s
    else fillAll s n k none
      { stamp := s.tick.toNat, d1 := BitVec.ofNat 16 d1, d2 := 0, d3 := BitVec.ofNat 16 d3 }
  if i = 1 then takeInherit s n
  else if i = 2 then (if running s islTP then drainEvq 256 s n else s)
  else if i = 3 then ev s 4 (fld s.tl.cyc.cut 0 16) (fld s.tl.cyc.cut 16 16)
  else if i = 4 then updCore s n (fun c => { c with heart := s.tick, timer := c.timer + 50000 })
  else if 6 ≤ i then ev s 5 i 0
  else s

/-- The kernel leaves a private source alone in HOLD, where its events wake no task: the source goes
on counting (R47, R635). The heartbeat and the inheritance go on, and the TP event queue drains. -/
def keepsCount (s : State) (i : Nat) : Bool := s.sys.mode = mHOLD && (i = 0 || i = 3 || 5 ≤ i)

/-- The kernel serves every pending private source of its target, in ascending order, and
acknowledges its events (log entry 36). -/
def serveAll (s : State) (n : Nat) : State :=
  (List.range 32).foldl (fun s i =>
    if pendPriv (n + 1) i (privSrc s (n + 1) i) && !keepsCount s i then
      serveSource (updPriv s (n + 1) i (fun x => { x with count := 0 })) n i
    else s) s

/-- INTERRUPT_ENTRY (R569): with IE 1 and a request presented. -/
def execInterruptEntry (core : Fin 8) (s : State) : Host.Outcome State Fault Refusal :=
  .next (let c := coreOf s core
    if !coreRuns s core || !c.ie || !requested s (core + 1) then s
    else
      let s := updCore s core (fun c => c.enter 0 false c.pc none 0)
      if c.deck then kernelExit (serveAll s core) core else s)

/-- STORE_ERROR (R567): the error completion of the oldest such store arrives. -/
def execStoreError (core : Fin 8) (s : State) : Host.Outcome State Fault Refusal :=
  .next (let c := coreOf s core
    if !coreRuns s core then s
    else match c.storeErr with
      | [] => s
      | a :: r =>
        exception (updCore s core (fun c => { c with storeErr := r })) core 7 true c.pc (some a))

/-! ### Services (R585 to R588, R591, R592) -/

/-- Write a result to d0 of the calling task. -/
def setD0 (s : State) (n : Nat) (v : Cell) : State :=
  updCore s n (fun c => { c with d := c.d.setIfInBounds 0 v })

/-- The pair d0:d1. -/
def Core.pair0 (c : Core) : Nat := (c.d[0]).toNat + (c.d[1]).toNat * 65536

/-- The calling task yields: its budget starts afresh, and a stop that waits takes effect
(R587). -/
def yieldTask (s : State) (i : Nat) : State :=
  match taskOf s i with
  | none => s
  | some t =>
    if t.stopDue then stopTask s i 0 else updTask s i (fun t => { t with ran := 0, since := s.tick })

/-- The calling task yields and, if it goes on, blocks. -/
def blockTask (s : State) (n i : Nat) (w : Wait) : State :=
  let x := saveCtx s n
  updTask (yieldTask s i) i (fun t =>
    if t.state = 2 then { t with state := 3, wait := some w, ctx := some x } else t)

/-- A read of a lock cell for a task: the task owns the cell, or does not; a cell that Weir
shows as this Deckhand's own with no task of record is given to it (log entry 36). -/
def lockTry (s : State) (n i cell : Nat) : State × Bool :=
  match lockReadReg s (n + 3) cell with
  | (s, .error _) => (s, false)
  | (s, .ok v) =>
    if v = 0 ∨ v.toNat = n + 3 then
      (updTask s i (fun t => { t with locks := t.locks.put cell 0 }), true)
    else (s, false)

/-- YIELD (R585). -/
def svcYield (s : State) (n i : Nat) : State :=
  let x := saveCtx s n
  let s := yieldTask s i
  match taskOf s i with
  | none => s
  | some t => if t.state = 2 then readyTask (setTask s i { t with ctx := some x }) i else s

/-- WAIT (R585, R586). -/
def svcWait (s : State) (n i : Nat) : State :=
  let c := coreOf s n
  let s := updTask s i (fun t => { t with mask := (c.d[0]).setWidth 6 })
  let s := blockTask s n i .event
  match taskOf s i with
  | none => s
  | some t =>
    match t.state, firstSlot t with
    | 3, some (k, x) =>
      let s := updCore s n (fun c => { c with d := waitResult c.d k x })
      updTask s i (fun t => { t with state := 2, wait := none, ctx := none,
                                     slots := Tab.erase t.slots k })
    | _, _ => s

/-- POST (R585): STATION_EVENT in the station's event mooring. A station that DESTROY has named
is unbound (R184; DEDUCED, log entry 44). -/
def svcPost (s : State) (n : Nat) : State :=
  let c := coreOf s n
  let k := (c.d[2]).toNat
  match stationOf s k with
  | none => setD0 s n 1
  | some t =>
    if t.ending then setD0 s n 1
    else setD0 (postRec s (islDeck n) 0x19 (handleOf s tSTATION k) (w32 c.pair0) (stationMoor s t)) n 0

/-- LOCK (R585, R592). -/
def svcLock (s : State) (n i : Nat) : State :=
  let cell := ((coreOf s n).d[0]).toNat
  if 1008 ≤ cell then setD0 s n 1
  else
    match localOwner s n cell with
    | some j => if j = i then setD0 s n 0 else blockTask (setD0 s n 0) n i (.lock cell)
    | none =>
      match lockTry s n i cell with
      | (s, true) => setD0 s n 0
      | (s, false) => blockTask (setD0 s n 0) n i (.lock cell)

/-- UNLOCK (R585). -/
def svcUnlock (s : State) (n i : Nat) : State :=
  let cell := ((coreOf s n).d[0]).toNat
  if (taskOf s i).any (fun t => (Tab.find? t.locks cell).isSome) then
    let s := (lockWriteReg s (n + 3) cell).1
    setD0 (updTask s i (fun t => { t with locks := Tab.erase t.locks cell })) n 0
  else setD0 s n 1

/-- SLEEP (R585). -/
def svcSleep (s : State) (n i : Nat) : State :=
  blockTask s n i (.sleep (s.tick.toNat + (coreOf s n).pair0))

/-- The service a `sys` number names; a number from 7 on answers BAD_ARG (R607). -/
def service (s : State) (n i k : Nat) : State :=
  match k with
  | 0 => svcYield s n i
  | 1 => svcWait s n i
  | 2 => svcPost s n
  | 3 => svcLock s n i
  | 4 => svcUnlock s n i
  | 5 => svcSleep s n i
  | 6 => stopTask s i 0
  | _ => setD0 s n 1

/-- `sys n` (R607): entry at DH_VBASE + 0x20 with n in DH_EADDR and DH_ECAUSE unchanged; the
deck kernel performs the service. `next` is the cell after the instruction. -/
def sysEntry (s : State) (n k : Nat) (next : Cell) : State :=
  let c := coreOf s n
  let s := updCore s n (fun c => c.enter c.ecode.toNat c.estore next (some (w32 k)) 0x20)
  match c.cur with
  | none => s
  | some i => if c.kernel then s else kernelExit (service s n i k) n

/-- A cell of the instruction lies outside CFLOOR to CLIMIT in task level (R553). -/
def fetchBad (c : Core) (len : Nat) : Bool :=
  !c.kernel && (List.range len).any (fun i =>
    let a := c.pc + BitVec.ofNat 16 i
    decide (a < c.cfloor) || decide (c.climit < a))

/-- A core begins an instruction: it runs, it has something to run, and a `wfi` has ended
(R608). -/
def coreBegins (s : State) (n : Nat) : Bool :=
  coreRuns s n && !(coreOf s n).idle && (!(coreOf s n).waiting || requested s (n + 1))

/-- Begin an instruction of `len` cells: FETCH first (R630), then what it does. -/
def begin_ (s : State) (n len : Nat) (f : State → State) : State :=
  if !coreBegins s n then s
  else
    let s := updCore s n (fun c => { c with waiting := false })
    let c := coreOf s n
    if fetchBad c len then exception s n 3 false c.pc none else f s

/-- `sys n`, and a service call by the task that runs on a core (R585, R607). -/
def callService (s : State) (n k : Nat) : State :=
  begin_ s n 1 (fun s => sysEntry s n k ((coreOf s n).pc + 1))

/-- YIELD (R585). -/
def execYieldService (core : Fin 8) (s : State) : Host.Outcome State Fault Refusal :=
  .next (callService s core 0)
/-- WAIT (R585, R586). -/
def execWaitService (core : Fin 8) (s : State) : Host.Outcome State Fault Refusal :=
  .next (callService s core 1)
/-- POST (R585). -/
def execPostService (core : Fin 8) (s : State) : Host.Outcome State Fault Refusal :=
  .next (callService s core 2)
/-- LOCK (R585, R592). -/
def execLockService (core : Fin 8) (s : State) : Host.Outcome State Fault Refusal :=
  .next (callService s core 3)
/-- UNLOCK (R585). -/
def execUnlockService (core : Fin 8) (s : State) : Host.Outcome State Fault Refusal :=
  .next (callService s core 4)
/-- SLEEP (R585). -/
def execSleepService (core : Fin 8) (s : State) : Host.Outcome State Fault Refusal :=
  .next (callService s core 5)
/-- EXIT (R585). -/
def execExitTask (core : Fin 8) (s : State) : Host.Outcome State Fault Refusal :=
  .next (callService s core 6)

/-- The kernel polls for the tasks blocked in LOCK whose cell no task of the Deckhand owns, in
the order in which it would run them (R592). -/
def pollLocks (s : State) (n : Nat) : State :=
  let l := (deckTasks s n).filterMap (fun i => (taskOf s i).map (fun t => (i, t)))
  (l.mergeSort (fun a b => before a.2 b.2)).foldl (fun s p =>
    match p.2.state, p.2.wait with
    | 3, some (.lock cell) =>
      if (localOwner s n cell).isSome then s
      else match lockTry s n p.1 cell with
        | (s, true) => readyTask s p.1
        | (s, false) => s
    | _, _ => s) s

/-- LOCK_POLL (R592). -/
def execLockPoll (core : Fin 8) (s : State) : Host.Outcome State Fault Refusal :=
  .next (if coreRuns s core && (coreOf s core).deck then reschedule (pollLocks s core) core else s)

/-- The tick a task sleeps until. -/
def sleepsUntil (t : Task) : Option Nat :=
  match t.state, t.wait with
  | 3, some (.sleep u) => some u
  | _, _ => none

/-- The sleeping task of a Deckhand that is due first, and when. -/
def firstSleeper (s : State) (n : Nat) : Option (Nat × Nat) :=
  (deckTasks s n).foldl (fun (m : Option (Nat × Nat)) i =>
    match (taskOf s i).bind sleepsUntil, m with
    | some u, some (j, v) => if u < v then some (i, u) else some (j, v)
    | some u, none => some (i, u)
    | none, m => m) none

/-- SLEEP_EXPIRY (R585): the clock moves to the tick of the sleeping task that is due first. -/
def execSleepExpiry (core : Fin 8) (s : State) : Host.Outcome State Fault Refusal :=
  .next (match firstSleeper s core with
    | none => s
    | some (i, u) =>
      if coreRuns s core && (coreOf s core).deck then reschedule (readyTask (atTick s u) i) core
      else s)

/-- BUDGET (R588): the clock moves to the end of the running task's 5 ms. A task with IE 0 lets
no timer in (DEDUCED, log entry 36). -/
def execBudgetExpiry (core : Fin 8) (s : State) : Host.Outcome State Fault Refusal :=
  .next (
    let c := coreOf s core
    match c.cur.bind (fun i => (taskOf s i).map (fun t => (i, t))) with
    | none => s
    | some (_, t) =>
      if coreRuns s core && c.ie && t.state = 2 then
        let s := atTick s (t.since.toNat + (250000 - t.ran))
        exception s core 12 false c.pc none
      else s)

/-! ### Timer and heartbeat (R589, R597) -/

/-- The next tick at or after now whose low word is a match. -/
def nextMatch (s : State) (m : Word) : Nat :=
  s.tick.toNat + (m - s.tick.truncate 32).toNat

/-- DH_TIMER_MATCH (R597): the clock moves to the match. -/
def execDhTimerMatch (core : Fin 8) (s : State) : Host.Outcome State Fault Refusal :=
  .next (if running s (islDeck core) then
      raisePriv (atTick s (nextMatch s (coreOf s core).timer)) (core + 1) 4
    else s)

/-- An agent reaches a core's DH_ registers: the Lockkeeper, debug, and the Deckhand itself
through its ports (R597). -/
def dhReach (agent n : Nat) : Bool := agent = 2 || agent = 15 || agent = n + 3

/-- A heartbeat (R589, R246). -/
def heartbeat (s : State) (n : Nat) : State := updCore s n (fun c => { c with heart := s.tick })

/-- DH_HEART (R589): a task may not write it (R561). -/
def execDhHeart (agent : Agent) (core : Fin 8) (s : State) : Host.Outcome State Fault Refusal :=
  .next (reach s agent (0x11100020 + 0x1000 * core) (dhReach agent core) (running s (islDeck core))
    true (fun s => heartbeat s core))

/-! ### Scripts, code, start, and the kernel's own start -/

/-- The deck kernel starts on a core: no task yet, its sources enabled at priority 1, its timer
1 ms away (DESIGN CHOICE, log entry 36). -/
def deckBoot (s : State) (n : Nat) : State :=
  let s := (List.range 31).foldl (fun s i =>
    updPriv s (n + 1) (i + 1) (fun x => { x with prio := 1, en := true })) s
  updCore s n (fun c => { c with idle := true, ie := true, cur := none, heart := s.tick,
                                 timer := s.tick.truncate 32 + 50000 })

/-- The cells of a code of bytes (R551). -/
def cellsOf : List Byte → List Cell
  | a :: b :: r => BitVec.ofNat 16 (a.toNat + 256 * b.toNat) :: cellsOf r
  | _ => []

/-- Store code in instruction RAM. -/
def putCode (s : State) (n cell : Nat) : List Cell → State
  | [] => s
  | v :: r => putCode (onDh s (fun x => { x with iram := x.iram.set 0 (65536 * n + cell) v })) n (cell + 1) r

/-- The first cell where code of a length fits beside the other tasks' code (R590; DESIGN
CHOICE, log entry 36). -/
def placeCode (s : State) (n i len : Nat) : Option Nat :=
  let used := (s.dh.tasks.filter (fun p => p.2.deck = n && p.1 ≠ i && p.2.len ≠ 0)).map
    (fun p => (p.2.cell, p.2.len))
  let starts := (0x2000 :: used.map (fun u => u.1 + u.2)).mergeSort (fun a b => a ≤ b)
  starts.find? (fun a => a + len ≤ 65536 && used.all (fun u => a + len ≤ u.1 || u.1 + u.2 ≤ a))

/-- A task starts, or starts again, from its first cell (R584). -/
def startTask (s : State) (i : Nat) : State :=
  match taskOf s i with
  | none => s
  | some t =>
    let t : Task := { t with started := true, stopDue := false, ctx := none, slots := [], mask := 0,
                             ran := 0 }
    readyTask (setTask s i t) i

/-- HOLD is entered at a boundary: the running tasks are preempted (R594). -/
def deckHold (s : State) : State :=
  (List.range 8).foldl (fun s n =>
    let c := coreOf s n
    if coreRuns s n && c.deck && c.cur.isSome then
      kernelExit (updCore s n (fun c => c.enter 0 false c.pc none 0)) n
    else s) s

/-- A kernel discards the counts of its private bank (R47, R635). -/
def discardBank (s : State) (n : Nat) : State :=
  if coreRuns s n && (coreOf s n).deck then
    (List.range 32).foldl (fun s i => updPriv s (n + 1) i (fun x => { x with count := 0 })) s
  else s

/-- HOLD is left: the counts are discarded (R635), every pending slot is emptied, and tasks go on
(R594). -/
def deckUnhold (s : State) : State :=
  let s := (List.range 8).foldl discardBank s
  let s := onDh s (fun x => { x with tasks := x.tasks.map (fun p => (p.1, { p.2 with slots := [] })) })
  (List.range 8).foldl (fun s n => reschedule s n) s

end Sys2Proof.Machine
end

