-- ==== Sys2Proof/Machine/Flags.lean ====
section
/-! DEFINITION. The flag computations of the Ceing instructions (R604, R605, R610, R612) and
the branch conditions. -/

namespace Sys2Proof.Machine

/-- Z and N from a result of 16 or 32 bits (R604). -/
def Core.zn {w : Nat} (c : Core) (r : BitVec w) : Core := { c with z := decide (r = 0), n := r.msb }

/-- C and V. -/
def Core.cv (c : Core) (cy ov : Bool) : Core := { c with c := cy, v := ov }

/-- A sum with carry in: the result, the carry out, and whether the signed result overflowed. -/
def addWith {w : Nat} (a b : BitVec w) (ci : Bool) : BitVec w × Bool × Bool :=
  let r := BitVec.ofNat w (a.toNat + b.toNat + b2n ci)
  (r, decide (2 ^ w ≤ a.toNat + b.toNat + b2n ci), decide (r.toInt ≠ a.toInt + b.toInt + b2n ci))

/-- A difference with borrow in: the result, the borrow, and whether the signed result
overflowed. -/
def subWith {w : Nat} (a b : BitVec w) (ci : Bool) : BitVec w × Bool × Bool :=
  let r := a - b - BitVec.ofNat w (b2n ci)
  (r, decide (a.toNat < b.toNat + b2n ci), decide (r.toInt ≠ a.toInt - b.toInt - b2n ci))

/-- The flags of an addition, subtraction or comparison. -/
def Core.arith {w : Nat} (c : Core) (x : BitVec w × Bool × Bool) : Core := (c.zn x.1).cv x.2.1 x.2.2

/-- "ZN, CV := 0". -/
def Core.logic {w : Nat} (c : Core) (r : BitVec w) : Core := (c.zn r).cv false false

/-- A shift or rotation by n: the result and C (R610). -/
inductive Shift where
  | shl | shr | sar | rol | ror
  deriving DecidableEq, Repr

/-- The result and C of a shift by 1 to 16 (R610). -/
def Shift.run (k : Shift) (v : Cell) (n : Nat) : Cell × Bool :=
  match k with
  | .shl => (v <<< n, v.getLsbD (16 - n))
  | .shr => (v >>> n, v.getLsbD (n - 1))
  | .sar => (v.sshiftRight n, v.getLsbD (n - 1))
  | .rol => let r := v.rotateLeft (n % 16); (r, r.getLsbD 0)
  | .ror => let r := v.rotateRight (n % 16); (r, r.getLsbD 15)

/-- The conditions of R605. -/
def Core.cond (c : Core) (cc : Nat) : Bool :=
  match cc with
  | 0 => true
  | 1 => c.z
  | 2 => !c.z
  | 3 => !c.c
  | 4 => c.c
  | 5 => c.n
  | 6 => !c.n
  | 7 => c.v
  | 8 => !c.v
  | 9 => !c.c && !c.z
  | 10 => c.c || c.z
  | 11 => c.n == c.v
  | 12 => c.n != c.v
  | 13 => !c.z && c.n == c.v
  | _ => c.z || c.n != c.v

end Sys2Proof.Machine
end

