-- ==== Sys2Proof/Machine/Operands.lean ====
section
/-! DEFINITION. The operands of the Ceing instructions: registers and pairs (R551), base
registers and effective addresses with their checks (R554 to R557), and how an instruction
begins (R553, R600, R601, R630). -/

namespace Sys2Proof.Machine

/-! ### Registers -/

def Core.dr (c : Core) (i : Fin 16) : Cell := c.d[i]
def Core.setD (c : Core) (i : Fin 16) (v : Cell) : Core := { c with d := c.d.set i v }
/-- The even register of a pair. -/
def lowReg (k : Fin 8) : Fin 16 := ⟨2 * k.val, by omega⟩
/-- The odd register of a pair. -/
def highReg (k : Fin 8) : Fin 16 := ⟨2 * k.val + 1, by omega⟩
/-- pair(k) (R551): d2k holds bits [15:0]. -/
def Core.pair (c : Core) (k : Fin 8) : Word := c.dr (highReg k) ++ c.dr (lowReg k)
def Core.setPair (c : Core) (k : Fin 8) (v : Word) : Core :=
  (c.setD (lowReg k) (v.setWidth 16)).setD (highReg k) (v.extractLsb' 16 16)
def Core.br (c : Core) (k : Fin 8) : BReg := c.b[k]
def Core.setB (c : Core) (k : Fin 8) (v : BReg) : Core := { c with b := c.b.set k v }
/-- Change BASE of a base register. -/
def Core.setBase (c : Core) (k : Fin 8) (v : Word) : Core := c.setB k { c.br k with base := v }
def Core.pr (c : Core) (k : Fin 4) : Cell := c.p[k]
def Core.setP (c : Core) (k : Fin 4) (v : Cell) : Core := { c with p := c.p.set k v }

/-- Size in bytes (R554). -/
def sizeBytes : Size → Nat
  | .byte => 1
  | .cell => 2
  | .pair => 4

/-! ### Exceptions of an operand -/

/-- An exception an operand or an access raises: its code and the EA or port concerned. -/
structure Exc where
  code : Nat
  ea : Option Word := none
  deriving DecidableEq, Repr

/-- ea(b, x): BASE + sext(x) modulo 2 ^ 32 (R554). -/
def Core.ea (c : Core) (b : Fin 8) (x : Cell) : Word := (c.br b).base + x.signExtend 32

/-- The writable offsets of STATION mode (R556). -/
def stationOk (o : Nat) : Bool := (0x10 ≤ o && o ≤ 0x13) || 0xC0 ≤ o

/-- The checks of a Basin operand, in the order ALIGN, RANGE, PAGE (R554 to R557, R630). -/
def checkData (s : State) (c : Core) (b : Fin 8) (x : Cell) (z : Size) (store : Bool) : Option Exc :=
  let r := c.br b
  let e := c.ea b x
  let last := e.toNat + sizeBytes z - 1
  let bad (k : Nat) : Option Exc := some { code := k, ea := some e }
  if e.toNat % sizeBytes z ≠ 0 then bad 5
  else if e.toNat < r.floor.toNat || r.limit.toNat < last || 0x03FFFFFF < last then bad 4
  else if store && r.mode = 1 then bad 4
  else if store && r.mode = 2 && !stationOk ((e - r.floor).toNat % 256) then bad 4
  else if store && r.mode = 0 && !c.kernel && !pageLive s (e.toNat / 65536) then bad 6
  else none

/-- A Basin load (R602): its bytes as a number, or DATA_ERR. -/
def loadData (s : State) (n : Nat) (e : Word) (z : Size) : State × Except Exc Nat :=
  match readReq s (n + 3) e.toNat (sizeBytes z) with
  | (s, .ok l) => (s, .ok (leNat l))
  | (s, .error _) => (s, .error { code := 7, ea := some e })

/-- A Basin store: it is performed, and an error completion waits for its arrival (R567). -/
def storeData (s : State) (n : Nat) (e : Word) (z : Size) (v : Nat) : State :=
  match writeReq s (n + 3) e.toNat (leBytes (sizeBytes z) v) with
  | (s, none) => s
  | (s, some _) => updCore s n (fun c => { c with storeErr := c.storeErr ++ [e] })

/-! ### How an instruction begins -/

/-- The PC goes to PC_next. -/
def Core.skip (c : Core) (len : Nat) : Core := { c with pc := c.pc + BitVec.ofNat 16 len }

/-- An instruction whose only effects are on its core's registers: `f` runs with the PC at
PC_next. -/
def regInstr (s : State) (n len : Nat) (f : Core → Core) : State :=
  begin_ s n len (fun s => updCore s n (fun c => f (c.skip len)))

/-- An instruction that raises PRIV in task level (R606, R558). -/
def privInstr (s : State) (n len : Nat) (f : State → State) : State :=
  begin_ s n len (fun s =>
    let c := coreOf s n
    if !c.kernel then exception s n 2 false c.pc none else f s)

end Sys2Proof.Machine
end

