-- ==== Sys2Proof/Machine/Ceing.lean ====
section
/-! DEFINITION. The Ceing instructions that make no data or port access (chapter 15): system,
register, immediate, unary, shift, pair, multiply, divide, base, port-base and branch
instructions, and undefined encodings. -/

namespace Sys2Proof.Machine

/-! ### System group (R606 to R608) -/

/-- `nop` (R606). -/
def execNopInstr (core : Fin 8) (s : State) : Host.Outcome State Fault Refusal :=
  .next (regInstr s core 1 (fun c => c))

/-- `sync` (R606, R567): a store error still to come is raised first, with the PC at the
`sync`. -/
def execSync (core : Fin 8) (s : State) : Host.Outcome State Fault Refusal :=
  .next (begin_ s core 1 (fun s =>
    let c := coreOf s core
    match c.storeErr with
    | [] => updCore s core (fun c => c.skip 1)
    | a :: r =>
      exception (updCore s core (fun c => { c with storeErr := r })) core 7 true c.pc (some a)))

/-- `reti` (R570). -/
def execReti (core : Fin 8) (s : State) : Host.Outcome State Fault Refusal :=
  .next (privInstr s core 1 (fun s => updCore s core (fun c => c.reti)))

/-- `wfi` (R608): it ends at once when a request is presented, and else waits. -/
def execWfi (core : Fin 8) (s : State) : Host.Outcome State Fault Refusal :=
  .next (privInstr s core 1 (fun s =>
    updCore s core (fun c => { c.skip 1 with waiting := !requested s (core + 1) })))

/-- `cli` (R606). -/
def execCli (core : Fin 8) (s : State) : Host.Outcome State Fault Refusal :=
  .next (regInstr s core 1 (fun c => { c with ie := false }))

/-- `sti` (R606). -/
def execSti (core : Fin 8) (s : State) : Host.Outcome State Fault Refusal :=
  .next (regInstr s core 1 (fun c => { c with ie := true }))

/-- `sys n` (R607). -/
def execSysCall (core : Fin 8) (k : Fin 64) (s : State) : Host.Outcome State Fault Refusal :=
  .next (callService s core k)

/-- `getf` (R606). -/
def execGetf (core : Fin 8) (rd : Fin 16) (s : State) : Host.Outcome State Fault Refusal :=
  .next (regInstr s core 1 (fun c => c.setD rd (BitVec.ofNat 16 c.flags)))

/-- `setf` (R606). -/
def execSetf (core : Fin 8) (rs : Fin 16) (s : State) : Host.Outcome State Fault Refusal :=
  .next (regInstr s core 1 (fun c => c.setFlags ((c.dr rs).toNat % 16)))

/-- `jr` (R606). -/
def execJr (core : Fin 8) (rs : Fin 16) (s : State) : Host.Outcome State Fault Refusal :=
  .next (regInstr s core 1 (fun c => { c with pc := c.dr rs }))

/-- `callr`: the target is read before d15 is written (R606). -/
def execCallr (core : Fin 8) (rs : Fin 16) (s : State) : Host.Outcome State Fault Refusal :=
  .next (regInstr s core 1 (fun c => { c.setD 15 c.pc with pc := c.dr rs }))

/-- `adr` (R606). -/
def execAdr (core : Fin 8) (rd : Fin 16) (rel : Cell) (s : State) :
    Host.Outcome State Fault Refusal :=
  .next (regInstr s core 2 (fun c => c.setD rd (c.pc + rel)))

/-! ### Register and immediate ALU (R609) -/

/-- An instruction of R609 on d and x. -/
inductive Alu where
  | mov | add | adc | sub | sbc | and | or | xor | cmp | tst
  deriving DecidableEq, Repr

/-- What an instruction of R609 does to register d. -/
def Alu.run (k : Alu) (c : Core) (rd : Fin 16) (x : Cell) : Core :=
  let v := c.dr rd
  match k with
  | .mov => (c.zn x).setD rd x
  | .add => let r := addWith v x false; (c.arith r).setD rd r.1
  | .adc => let r := addWith v x c.c; (c.arith r).setD rd r.1
  | .sub => let r := subWith v x false; (c.arith r).setD rd r.1
  | .sbc => let r := subWith v x c.c; (c.arith r).setD rd r.1
  | .and => (c.logic (v &&& x)).setD rd (v &&& x)
  | .or => (c.logic (v ||| x)).setD rd (v ||| x)
  | .xor => (c.logic (v ^^^ x)).setD rd (v ^^^ x)
  | .cmp => c.arith (subWith v x false)
  | .tst => c.logic (v &&& x)

/-- The register form: one cell. -/
def aluReg (k : Alu) (s : State) (core : Fin 8) (rd rs : Fin 16) : State :=
  regInstr s core 1 (fun c => k.run c rd (c.dr rs))
/-- The immediate form: two cells. -/
def aluImm (k : Alu) (s : State) (core : Fin 8) (rd : Fin 16) (x : Cell) : State :=
  regInstr s core 2 (fun c => k.run c rd x)

/-- `mov d, s` (R609). -/
def execMovReg (core : Fin 8) (rd rs : Fin 16) (s : State) : Host.Outcome State Fault Refusal :=
  .next (aluReg .mov s core rd rs)

/-- `add d, s` (R609). -/
def execAddReg (core : Fin 8) (rd rs : Fin 16) (s : State) : Host.Outcome State Fault Refusal :=
  .next (aluReg .add s core rd rs)

/-- `adc d, s` (R609). -/
def execAdcReg (core : Fin 8) (rd rs : Fin 16) (s : State) : Host.Outcome State Fault Refusal :=
  .next (aluReg .adc s core rd rs)

/-- `sub d, s` (R609). -/
def execSubReg (core : Fin 8) (rd rs : Fin 16) (s : State) : Host.Outcome State Fault Refusal :=
  .next (aluReg .sub s core rd rs)

/-- `sbc d, s` (R609). -/
def execSbcReg (core : Fin 8) (rd rs : Fin 16) (s : State) : Host.Outcome State Fault Refusal :=
  .next (aluReg .sbc s core rd rs)

/-- `and d, s` (R609). -/
def execAndReg (core : Fin 8) (rd rs : Fin 16) (s : State) : Host.Outcome State Fault Refusal :=
  .next (aluReg .and s core rd rs)

/-- `or d, s` (R609). -/
def execOrReg (core : Fin 8) (rd rs : Fin 16) (s : State) : Host.Outcome State Fault Refusal :=
  .next (aluReg .or s core rd rs)

/-- `xor d, s` (R609). -/
def execXorReg (core : Fin 8) (rd rs : Fin 16) (s : State) : Host.Outcome State Fault Refusal :=
  .next (aluReg .xor s core rd rs)

/-- `cmp d, s` (R609). -/
def execCmpReg (core : Fin 8) (rd rs : Fin 16) (s : State) : Host.Outcome State Fault Refusal :=
  .next (aluReg .cmp s core rd rs)

/-- `tst d, s` (R609). -/
def execTstReg (core : Fin 8) (rd rs : Fin 16) (s : State) : Host.Outcome State Fault Refusal :=
  .next (aluReg .tst s core rd rs)

/-- `movi d, #x` (R609). -/
def execMovi (core : Fin 8) (rd : Fin 16) (x : Cell) (s : State) :
    Host.Outcome State Fault Refusal :=
  .next (aluImm .mov s core rd x)

/-- `addi d, #x` (R609). -/
def execAddi (core : Fin 8) (rd : Fin 16) (x : Cell) (s : State) :
    Host.Outcome State Fault Refusal :=
  .next (aluImm .add s core rd x)

/-- `subi d, #x` (R609). -/
def execSubi (core : Fin 8) (rd : Fin 16) (x : Cell) (s : State) :
    Host.Outcome State Fault Refusal :=
  .next (aluImm .sub s core rd x)

/-- `andi d, #x` (R609). -/
def execAndi (core : Fin 8) (rd : Fin 16) (x : Cell) (s : State) :
    Host.Outcome State Fault Refusal :=
  .next (aluImm .and s core rd x)

/-- `ori d, #x` (R609). -/
def execOri (core : Fin 8) (rd : Fin 16) (x : Cell) (s : State) :
    Host.Outcome State Fault Refusal :=
  .next (aluImm .or s core rd x)

/-- `xori d, #x` (R609). -/
def execXori (core : Fin 8) (rd : Fin 16) (x : Cell) (s : State) :
    Host.Outcome State Fault Refusal :=
  .next (aluImm .xor s core rd x)

/-- `cmpi d, #x` (R609). -/
def execCmpi (core : Fin 8) (rd : Fin 16) (x : Cell) (s : State) :
    Host.Outcome State Fault Refusal :=
  .next (aluImm .cmp s core rd x)

/-- `tsti d, #x` (R609). -/
def execTsti (core : Fin 8) (rd : Fin 16) (x : Cell) (s : State) :
    Host.Outcome State Fault Refusal :=
  .next (aluImm .tst s core rd x)

/-! ### Unary and shift (R610) -/

/-- A shift by n: C, Z, N, and V := 0; by 0, d is unchanged and C := 0. -/
def Shift.apply (k : Shift) (c : Core) (rd : Fin 16) (n : Nat) : Core :=
  let r := if n = 0 then (c.dr rd, false) else k.run (c.dr rd) n
  ((c.zn r.1).cv r.2 false).setD rd r.1

/-- A shift by an immediate count of k + 1. -/
def shiftImm (k : Shift) (s : State) (core : Fin 8) (rd n : Fin 16) : State :=
  regInstr s core 1 (fun c => k.apply c rd (n.val + 1))
/-- A shift by s[3:0]. -/
def shiftReg (k : Shift) (s : State) (core : Fin 8) (rd rs : Fin 16) : State :=
  regInstr s core 1 (fun c => k.apply c rd ((c.dr rs).toNat % 16))

/-- `shl d, #n`, n being k + 1 (R610). -/
def execShl (core : Fin 8) (rd k : Fin 16) (s : State) : Host.Outcome State Fault Refusal :=
  .next (shiftImm .shl s core rd k)

/-- `shr d, #n`, n being k + 1 (R610). -/
def execShr (core : Fin 8) (rd k : Fin 16) (s : State) : Host.Outcome State Fault Refusal :=
  .next (shiftImm .shr s core rd k)

/-- `sar d, #n`, n being k + 1 (R610). -/
def execSar (core : Fin 8) (rd k : Fin 16) (s : State) : Host.Outcome State Fault Refusal :=
  .next (shiftImm .sar s core rd k)

/-- `rol d, #n`, n being k + 1 (R610). -/
def execRol (core : Fin 8) (rd k : Fin 16) (s : State) : Host.Outcome State Fault Refusal :=
  .next (shiftImm .rol s core rd k)

/-- `ror d, #n`, n being k + 1 (R610). -/
def execRor (core : Fin 8) (rd k : Fin 16) (s : State) : Host.Outcome State Fault Refusal :=
  .next (shiftImm .ror s core rd k)

/-- `shl d, s` (R610). -/
def execShlReg (core : Fin 8) (rd rs : Fin 16) (s : State) : Host.Outcome State Fault Refusal :=
  .next (shiftReg .shl s core rd rs)

/-- `shr d, s` (R610). -/
def execShrReg (core : Fin 8) (rd rs : Fin 16) (s : State) : Host.Outcome State Fault Refusal :=
  .next (shiftReg .shr s core rd rs)

/-- `sar d, s` (R610). -/
def execSarReg (core : Fin 8) (rd rs : Fin 16) (s : State) : Host.Outcome State Fault Refusal :=
  .next (shiftReg .sar s core rd rs)

/-- `rol d, s` (R610). -/
def execRolReg (core : Fin 8) (rd rs : Fin 16) (s : State) : Host.Outcome State Fault Refusal :=
  .next (shiftReg .rol s core rd rs)

/-- `ror d, s` (R610). -/
def execRorReg (core : Fin 8) (rd rs : Fin 16) (s : State) : Host.Outcome State Fault Refusal :=
  .next (shiftReg .ror s core rd rs)

/-- `neg d` (R610). -/
def execNegReg (core : Fin 8) (rd : Fin 16) (s : State) : Host.Outcome State Fault Refusal :=
  .next (regInstr s core 1 (fun c =>
    let r := subWith 0 (c.dr rd) false
    (c.arith r).setD rd r.1))

/-- `not d` (R610). -/
def execNotReg (core : Fin 8) (rd : Fin 16) (s : State) : Host.Outcome State Fault Refusal :=
  .next (regInstr s core 1 (fun c =>
    let r : Cell := ~~~ c.dr rd
    (c.logic r).setD rd r))

/-- `sxb d` (R610). -/
def execSxb (core : Fin 8) (rd : Fin 16) (s : State) : Host.Outcome State Fault Refusal :=
  .next (regInstr s core 1 (fun c =>
    let r : Cell := ((c.dr rd).setWidth 8).signExtend 16
    (c.logic r).setD rd r))

/-- `swpb d` (R610). -/
def execSwpb (core : Fin 8) (rd : Fin 16) (s : State) : Host.Outcome State Fault Refusal :=
  .next (regInstr s core 1 (fun c =>
    let r : Cell := (c.dr rd <<< 8) ||| (c.dr rd >>> 8)
    (c.logic r).setD rd r))

/-- `addq d, #k`, the constant being k + 1 (R610). -/
def execAddq (core : Fin 8) (rd k : Fin 16) (s : State) : Host.Outcome State Fault Refusal :=
  .next (regInstr s core 1 (fun c =>
    let r := addWith (c.dr rd) (BitVec.ofNat 16 (k.val + 1)) false
    (c.arith r).setD rd r.1))

/-- `subq d, #k`, the constant being k + 1 (R610). -/
def execSubq (core : Fin 8) (rd k : Fin 16) (s : State) : Host.Outcome State Fault Refusal :=
  .next (regInstr s core 1 (fun c =>
    let r := subWith (c.dr rd) (BitVec.ofNat 16 (k.val + 1)) false
    (c.arith r).setD rd r.1))

/-! ### Pairs, multiply and divide (R611, R612) -/

/-- `movp` (R611). -/
def execMovp (core : Fin 8) (k j : Fin 8) (s : State) : Host.Outcome State Fault Refusal :=
  .next (regInstr s core 1 (fun c => (c.zn (c.pair j)).setPair k (c.pair j)))

/-- `addp` (R611). -/
def execAddp (core : Fin 8) (k j : Fin 8) (s : State) : Host.Outcome State Fault Refusal :=
  .next (regInstr s core 1 (fun c =>
    let r := addWith (c.pair k) (c.pair j) false
    (c.arith r).setPair k r.1))

/-- `subp` (R611). -/
def execSubp (core : Fin 8) (k j : Fin 8) (s : State) : Host.Outcome State Fault Refusal :=
  .next (regInstr s core 1 (fun c =>
    let r := subWith (c.pair k) (c.pair j) false
    (c.arith r).setPair k r.1))

/-- `cmpp` (R611). -/
def execCmpp (core : Fin 8) (k j : Fin 8) (s : State) : Host.Outcome State Fault Refusal :=
  .next (regInstr s core 1 (fun c => c.arith (subWith (c.pair k) (c.pair j) false)))

/-- `mulu` (R611). -/
def execMulu (core : Fin 8) (k : Fin 8) (rs : Fin 16) (s : State) :
    Host.Outcome State Fault Refusal :=
  .next (regInstr s core 1 (fun c =>
    let r : Word := (c.dr (lowReg k)).setWidth 32 * (c.dr rs).setWidth 32
    (c.logic r).setPair k r))

/-- `muls` (R611). -/
def execMuls (core : Fin 8) (k : Fin 8) (rs : Fin 16) (s : State) :
    Host.Outcome State Fault Refusal :=
  .next (regInstr s core 1 (fun c =>
    let r : Word := (c.dr (lowReg k)).signExtend 32 * (c.dr rs).signExtend 32
    (c.logic r).setPair k r))

/-- The end of a division (R612): a quotient that does not fit sets V and C := 0 and leaves the
rest. -/
def Core.divided (c : Core) (k : Fin 8) (fits : Bool) (q r : Cell) : Core :=
  if fits then (((c.zn q).cv false false).setD (lowReg k) q).setD (highReg k) r
  else c.cv false true

/-- A division by s (R612): DIVZERO, or its result. -/
def divide (s : State) (core : Fin 8) (rs : Fin 16) (f : Core → Core) : State :=
  begin_ s core 1 (fun s =>
    let c := coreOf s core
    if c.dr rs = 0 then exception s core 11 false c.pc none
    else updCore s core (fun c => f (c.skip 1)))

/-- `divu` (R612). -/
def execDivu (core : Fin 8) (k : Fin 8) (rs : Fin 16) (s : State) :
    Host.Outcome State Fault Refusal :=
  .next (divide s core rs (fun c =>
    let a := (c.pair k).toNat
    let b := (c.dr rs).toNat
    c.divided k (a / b < 65536) (BitVec.ofNat 16 (a / b)) (BitVec.ofNat 16 (a % b))))

/-- `divs` (R612): truncation towards zero; the remainder takes the sign of the dividend. -/
def execDivs (core : Fin 8) (k : Fin 8) (rs : Fin 16) (s : State) :
    Host.Outcome State Fault Refusal :=
  .next (divide s core rs (fun c =>
    let a := (c.pair k).toInt
    let b := (c.dr rs).toInt
    let q := a.tdiv b
    c.divided k (decide (-32768 ≤ q) && decide (q ≤ 32767)) (BitVec.ofInt 16 q)
      (BitVec.ofInt 16 (a.tmod b))))

/-! ### Base registers (R617, R618) -/

/-- `bmov`: all four fields (R617). -/
def execBmov (core k j : Fin 8) (s : State) : Host.Outcome State Fault Refusal :=
  .next (regInstr s core 1 (fun c => c.setB k (c.br j)))

/-- `bsub` (R618): RANGE leaves the target unchanged. -/
def execBsub (core k j a b : Fin 8) (s : State) : Host.Outcome State Fault Refusal :=
  .next (begin_ s core 2 (fun s =>
    let c := coreOf s core
    let r := c.br j
    let f := r.base.toNat + (c.pair a).toNat
    let l := f + (c.pair b).toNat - 1
    if c.pair b = 0 ∨ f < r.floor.toNat ∨ r.limit.toNat < l then exception s core 4 false c.pc none
    else updCore s core (fun c => (c.skip 2).setB k
      { base := w32 f, floor := w32 f, limit := w32 l, mode := r.mode })))

/-- `bbase` (R617). -/
def execBbase (core k a : Fin 8) (s : State) : Host.Outcome State Fault Refusal :=
  .next (regInstr s core 1 (fun c => c.setBase k (c.pair a)))

/-- `badd` (R617). -/
def execBadd (core k a : Fin 8) (s : State) : Host.Outcome State Fault Refusal :=
  .next (regInstr s core 1 (fun c => c.setBase k ((c.br k).base + c.pair a)))

/-- `baddi` (R617). -/
def execBaddi (core k : Fin 8) (x : Cell) (s : State) : Host.Outcome State Fault Refusal :=
  .next (regInstr s core 2 (fun c => c.setBase k ((c.br k).base + x.signExtend 32)))

/-- `bget.b` (R617). -/
def execBgetB (core a k : Fin 8) (s : State) : Host.Outcome State Fault Refusal :=
  .next (regInstr s core 1 (fun c => c.setPair a (c.br k).base))

/-- `bget.f` (R617). -/
def execBgetF (core a k : Fin 8) (s : State) : Host.Outcome State Fault Refusal :=
  .next (regInstr s core 1 (fun c => c.setPair a (c.br k).floor))

/-- `bget.l` (R617). -/
def execBgetL (core a k : Fin 8) (s : State) : Host.Outcome State Fault Refusal :=
  .next (regInstr s core 1 (fun c => c.setPair a (c.br k).limit))

/-- `bget.m` (R617). -/
def execBgetM (core a k : Fin 8) (s : State) : Host.Outcome State Fault Refusal :=
  .next (regInstr s core 1 (fun c => c.setPair a ((c.br k).mode.setWidth 32)))

/-- `bset` (R558, R617). -/
def execBset (core k : Fin 8) (s : State) : Host.Outcome State Fault Refusal :=
  .next (privInstr s core 1 (fun s => updCore s core (fun c => (c.skip 1).setB k
    { base := c.pair 0, floor := c.pair 1, limit := c.pair 2, mode := (c.dr 6).setWidth 2 })))

/-! ### Port bases (R619) -/

/-- `pmov` (R619). -/
def execPmov (core : Fin 8) (k : Fin 4) (rs : Fin 16) (s : State) :
    Host.Outcome State Fault Refusal :=
  .next (regInstr s core 1 (fun c => c.setP k (c.dr rs)))

/-- `pget` (R619). -/
def execPget (core : Fin 8) (rd : Fin 16) (k : Fin 4) (s : State) :
    Host.Outcome State Fault Refusal :=
  .next (regInstr s core 1 (fun c => c.setD rd (c.pr k)))

/-- `padd` (R619). -/
def execPadd (core : Fin 8) (k : Fin 4) (rs : Fin 16) (s : State) :
    Host.Outcome State Fault Refusal :=
  .next (regInstr s core 1 (fun c => c.setP k (c.pr k + c.dr rs)))

/-- `pseti` (R619). -/
def execPseti (core : Fin 8) (k : Fin 4) (x : Cell) (s : State) :
    Host.Outcome State Fault Refusal :=
  .next (regInstr s core 2 (fun c => c.setP k x))

/-! ### Branches (R605, R620) -/

/-- Jump by an offset in cells from PC_next (R600). -/
def Core.jump (c : Core) (rel : Cell) : Core := { c with pc := c.pc + rel }

/-- `b<cc>` (R620). -/
def execBCc (core : Fin 8) (cc : Fin 15) (rel : BitVec 8) (s : State) :
    Host.Outcome State Fault Refusal :=
  .next (regInstr s core 1 (fun c => if c.cond cc then c.jump (rel.signExtend 16) else c))

/-- `b<cc>.l` (R620). -/
def execBCcL (core : Fin 8) (cc : Fin 15) (rel : Cell) (s : State) :
    Host.Outcome State Fault Refusal :=
  .next (regInstr s core 2 (fun c => if c.cond cc then c.jump rel else c))

/-- `call` (R620). -/
def execCallRel (core : Fin 8) (rel : Cell) (s : State) : Host.Outcome State Fault Refusal :=
  .next (regInstr s core 2 (fun c => (c.setD 15 c.pc).jump rel))

/-- `dbnz` (R620). -/
def execDbnz (core : Fin 8) (rs : Fin 16) (rel : BitVec 8) (s : State) :
    Host.Outcome State Fault Refusal :=
  .next (regInstr s core 1 (fun c =>
    let v := c.dr rs - 1
    let c := c.setD rs v
    if v ≠ 0 then c.jump (rel.signExtend 16) else c))

/-! ### Undefined encodings (R599, R621, R629, R632) -/

/-- The first cell of a prefix (R606). -/
def isPrefix (c : Nat) : Bool := 0x200 ≤ c && c < 0x240

/-- A first cell that is defined (R632). -/
def definedFirst (c : Nat) : Bool :=
  let op := c / 256 % 16
  match c / 4096 with
  | 0x0 => c ≤ 5 || (0x100 ≤ c && c < 0x140) || isPrefix c || (0x300 ≤ c && c < 0x320)
      || (0x400 ≤ c && c < 0x430)
  | 0x1 => op ≤ 9
  | 0x2 => op ≤ 9 || (op = 10 && c % 16 ≤ 3) || op = 11 || op = 12
  | 0x3 => (op ≤ 1 || op = 3 || (5 ≤ op && op ≤ 9)) && c % 16 = 0
  | 0x4 => op ≤ 3 && c / 16 % 2 = 0 && c % 2 = 0
  | 0x5 => op ≤ 3 && c / 128 % 2 = 0
  | 0x6 => let k := c / 512 % 8
    k ≤ 6 && c % 4 = 0 && ((k ≠ 3 && k ≠ 6) || c / 32 % 2 = 0)
  | 0x7 => let k := c / 512 % 8
    k ≤ 3 && c % 8 = 0 && (k % 2 = 0 || c / 32 % 2 = 0)
  | 0x8 => let kind := c / 1024 % 4
    let size := c / 256 % 4
    kind ≤ 2 && size ≤ 2 && (kind = 0 || size ≠ 0) && c % 4 = 0 && (kind = 0 || c / 16 % 2 = 0)
  | 0x9 => (op ≤ 8 || op = 15) && c / 128 % 2 = 0 && c / 8 % 2 = 0 && (op ≠ 4 || c % 8 = 0)
      && (op ≠ 15 || c / 16 % 8 = 0)
  | 0xA => op ≤ 3 && c / 64 % 4 = 0 && (op ≠ 3 || c % 16 = 0)
  | 0xB => op ≤ 14
  | 0xC => c % 256 = 0
  | 0xD => true
  | _ => false

/-- The number of cells of an instruction, by its first cell (R599). -/
def cellCount (c : Nat) : Nat :=
  match c / 4096 with
  | 0x0 => if c / 16 = 0x42 then 2 else 1
  | 0x3 => 2
  | 0x6 => 2
  | 0x7 => 2
  | 0x8 => 3
  | 0x9 => if c / 256 % 16 = 1 ∨ c / 256 % 16 = 4 then 2 else 1
  | 0xA => if c / 256 % 16 = 3 then 2 else 1
  | 0xC => 2
  | _ => 1

/-- The bsub cell holds 0 in [15:7] and [3] (R621). -/
def bsubCellOk (x : Nat) : Bool := x < 128 && x / 8 % 2 = 0

/-- One instruction without a prefix is undefined. -/
def undefinedPlain (c : Nat) (r : List Cell) : Bool :=
  !definedFirst c || (c / 256 = 0x91 && r.any (fun x => !bsubCellOk x.toNat))

/-- The cells are exactly those of one undefined encoding (R629): an undefined instruction, or
a prefix before anything but a defined instruction of formats L, O and X (R580). -/
def undefinedEncoding : List Cell → Bool
  | [] => false
  | c :: r =>
    if isPrefix c.toNat then
      match r with
      | [] => false
      | d :: r' => cellCount d.toNat = r'.length + 1
          && (d.toNat / 4096 < 6 || 8 < d.toNat / 4096 || undefinedPlain d.toNat r')
    else cellCount c.toNat = r.length + 1 && undefinedPlain c.toNat r

/-- ILLEGAL_ENCODING (R629): the cells of an undefined encoding raise ILLEGAL, after FETCH
(R630). -/
def execIllegalEncoding (core : Fin 8) (cells : List Cell) (s : State) :
    Host.Outcome State Fault Refusal :=
  if undefinedEncoding cells then
    .next (begin_ s core cells.length (fun s => exception s core 1 false (coreOf s core).pc none))
  else .refused .illFormed

end Sys2Proof.Machine
end

