-- ==== Sys2Proof/Machine/Reset.lean ====
section
/-! DEFINITION. Device-level reset, the resets of agents, and the warm restart of the
Lockkeeper (chapter 02, R123). -/

namespace Sys2Proof.Machine

/-- Change the SYS block. -/
def onSys (s : State) (f : Sys → Sys) : State := { s with sys := f s.sys }

/-! ### Bits of SYS_RESET_CAUSE (R92) -/

def rcPOR : Nat := 0
def rcPIN : Nat := 1
def rcHOST : Nat := 2
def rcJTAG : Nat := 3
def rcWDTDEV : Nat := 4
def rcWDTWARM : Nat := 5
def rcPERST : Nat := 6
def rcFENCEDEV : Nat := 7
def rcFENCEWARM : Nat := 8

/-- Hardware sets a bit of SYS_RESET_CAUSE. -/
def noteReset (s : State) (b : Nat) : State :=
  onSys s (fun x => { x with resetCause := setBit x.resetCause b true })

/-- What the cages drive, which no reset of the device changes. -/
def laneInputs (s : State) : Tab Lane :=
  (List.range 8).foldl (fun (t : Tab Lane) l =>
    let x := laneOf s l
    Tab.set {} t l { present := x.present, los := x.los, faultIn := x.faultIn }) []

/-- SFPn_TX_DIS goes high on every lane where it was low (R479). -/
def txDisAll (s : State) : List Out :=
  (List.range 8).filterMap (fun l => if (laneOf s l).txDis then none else some (.txDis l true))

/-- A device-level reset (R76, R77): every register, all of Basin, every handle, mooring and
binding. SYS_RESET_CAUSE, SYS_BOOT_RETAIN, the OTP, the flash and what stands outside the
device are kept, and SYS_TICK goes on (R28; DEDUCED, log entry 38). -/
def deviceReset (s : State) (b : Nat) : State :=
  noteReset { pending := s.pending, tick := s.tick, fresh := s.fresh, out := s.out ++ txDisAll s,
              pins := s.pins, otp := s.otp, flash := s.flash,
              flashBad := s.flashBad, gp := { pad := s.gp.pad },
              tl := { lanes := laneInputs s },
              sys := { powerOn := s.sys.powerOn, resetCause := s.sys.resetCause, triedA := s.sys.triedA, triedB := s.sys.triedB } } b

/-- Power-on reset (R77, R92, R94, R762): nothing is kept but what is outside the device, the
OTP and the flash. THERM_N is released (R774). -/
def powerOnReset (s : State) : State :=
  let r := deviceReset s rcPOR
  let r := if s.pins.thermN then r else emit r (.therm true)
  { r with tick := 0, pins := { r.pins with thermN := true }, sys := {} }

/-- POWER_ON_RESET (R762). -/
def execPowerOnReset (s : State) : Host.Outcome State Fault Refusal := .next (powerOnReset s)

/-- SYSTEM_REFERENCE_LOSS (R766). -/
def execSystemReferenceLoss (s : State) : Host.Outcome State Fault Refusal := .next (powerOnReset s)

/-- RST_N_RESET (R76, R770). A low RST_N during power-on reset only holds it (R762). -/
def execRstNReset (s : State) : Host.Outcome State Fault Refusal :=
  .next (if s.sys.powerOn then s else deviceReset s rcPIN)

/-- JTAG_SYSRESET (R76). -/
def execJtagSysreset (s : State) : Host.Outcome State Fault Refusal := .next (deviceReset s rcJTAG)

/-- TAP_RESET (R123): the debug agent is reset. -/
def execTapReset (s : State) : Host.Outcome State Fault Refusal := .next (agentReset s 15)

/-! ### PERST# (R70, R123, R653, R800) -/

/-- PERST (R800): the host agent is reset and the endpoint's configuration returns to its
reset values; no fence, no epoch (R70, R254). -/
def execPerst (s : State) : Host.Outcome State Fault Refusal :=
  .next (
    let s := noteReset { s with pins := { s.pins with perst := false }, pcie := {} } rcPERST
    agentReset s 1)

/-- PERST_RELEASE (R653): the IC hands over the held vectors, unless HI is still fenced. -/
def execPerstRelease (s : State) : Host.Outcome State Fault Refusal :=
  .next (
    let s := { s with pins := { s.pins with perst := true } }
    if running s islHI then vecRelease s else s)

/-! ### The warm restart of the Lockkeeper (R72, R73, R124, R183, R656, R808) -/

/-- Resets and restores of other islands that the firmware had begun start again from the
reset (R808). -/
def restartRecoveries (s : State) : State :=
  (List.range 15).foldl (fun s k =>
    updIsl s (k + 1) (fun x => match x.state with
      | .inReset | .restoring => { x with state := .fenced }
      | _ => x)) s

/-- The core of island LK is reset and its image is being reloaded: IS_STATE of LK shows
restoring until the firmware resumes (DEDUCED, log entry 38). -/
def warmRestart (s : State) (b : Nat) : State :=
  let s := icTargetReset (agentReset (noteReset s b) 2) 0
  let s := onSys s (fun x => { x with
    lkTimer := 0, lkEpc := 0, lkEstat := 0x20, lkEcause := 0, lkEaddr := 0, lkVbase := 0,
    lkWlatch := 0xFFFF0000, lkRlatch := 0xFFFF0000, lkRam := [], wdtArmed := false,
    reloading := true })
  let s := onFw s (fun f => { f with
    recordedMode := s.sys.mode, silent := !f.waiting.isEmpty, replies := [] })
  let s := { s with staging := s.staging.map (fun r => { r with await := none }) }
  updIsl (restartRecoveries s) islLK (fun x => { x with state := .restoring })

end Sys2Proof.Machine
end

