-- ==== Sys2Proof/Machine/Reply.lean ====
section
/-! DEFINITION. Replies to commands and the duplicate window (R154 to R158, R163 to R167,
R183). -/

namespace Sys2Proof.Machine

/-! ### Status codes (R185) -/

def stOK : Nat := 0x00
def stDUPLICATE : Nat := 0x01
def stBAD_HANDLE : Nat := 0x10
def stSTALE_HANDLE : Nat := 0x11
def stNO_RESOURCE : Nat := 0x12
def stBAD_ARG : Nat := 0x13
def stWRONG_MODE : Nat := 0x14
def stBUSY : Nat := 0x15
def stFENCED : Nat := 0x20
def stECC : Nat := 0x21
def stABORTED : Nat := 0x22
def stAUTH_FAIL : Nat := 0x30
def stINTERNAL : Nat := 0x3F

/-- The reply header (R155). -/
def replyHeader (h : Word) (count st orig : Nat) : Word :=
  pack [(0, st), (6, orig), (12, count), (16, fld h 16 8), (24, fld h 24 7 + 0x80)]

/-- A whole reply to a command with header `h`. -/
def replyWords (h : Word) (st : Nat) (w : List Word) : List Word :=
  replyHeader h w.length st st :: w

/-- The CRC-32 of payload words in little-endian byte order (R165). -/
def payloadCrc (w : List Word) : Word := crc32 (w.flatMap (fun x => leBytes 4 x.toNat))

/-- The duplicate window of a mailbox (R165). -/
def windowOf (s : State) (m : Nat) : List Kept := s.fw.windows.get [] m

/-- Keep a result: it replaces one with its TAG, and the window holds the 32 newest (R165,
R167). -/
def keepResult (s : State) (m : Nat) (k : Kept) : State :=
  let l := (windowOf s m).filter (fun x => fld x.header 16 8 ≠ fld k.header 16 8) ++ [k]
  onFw s (fun f => { f with windows := f.windows.set [] m (l.drop (l.length - 32)) })

/-- The command class Q, whose results are not kept (R166, R188). -/
def classQ (h : Word) : Bool := fld h 24 8 ≤ 4

/-- Record a result as R166 says. -/
def record (s : State) (m : Nat) (h crc : Word) (st : Nat) (w : List Word) : State :=
  if classQ h || st = stBUSY then s
  else keepResult s m { header := h, crc := crc, reply := replyWords h st w }

/-- The reply to a command: recorded, and sent. -/
def reply (s : State) (m : Nat) (h crc : Word) (st : Nat) (w : List Word) : State :=
  sendReply (record s m h crc st w) m (replyWords h st w)

/-- How many replies of a mailbox are kept for want of room. -/
def keptReplies (s : State) (m : Nat) : Nat := (s.fw.replies.filter (fun r => r.1 = m)).length

/-- The execution of a command of a mailbox begins: the records it causes await its reply (R34). -/
def causes (s : State) (m : Nat) : State :=
  onFw s (fun x => { x with causer := some (m, s.fw.placed.get 0 m + keptReplies s m + 1) })

/-- The execution ends: its records stay staged only until its reply is written (R34). -/
def caused (s : State) : State :=
  match s.fw.causer with
  | none => s
  | some c =>
    let s := onFw s (fun x => { x with causer := none })
    if s.fw.placed.get 0 c.1 < c.2 ∧ (keptReplies s c.1 ≠ 0 ∨ (s.fw.waiting.find? c.1).isSome) then s
    else { s with staging := s.staging.map (fun r => if r.await = some c then { r with await := none } else r) }

/-- A waiting command of a mailbox ends: it is recorded, and sent unless a warm restart
interrupted it (R183). -/
def endWaiting (s : State) (m : Nat) (h crc : Word) (st : Nat) (w : List Word) : State :=
  let quiet := s.fw.silent
  let s := onFw s (fun f =>
    let l := Tab.erase f.waiting m
    { f with waiting := l, silent := f.silent && !l.isEmpty })
  if quiet then record s m h crc st w else reply s m h crc st w

/-- The RESET command of an island replies (R199). -/
def resetReply (s : State) (island st : Nat) : State :=
  match (isl s island).resetCmd with
  | none => s
  | some m =>
    let s := updIsl s island (fun x => { x with resetCmd := none })
    match s.fw.waiting.find? m with
    | some (.reset h crc _) => endWaiting s m h crc st []
    | _ => s

end Sys2Proof.Machine
end

