-- ==== Sys2Proof/Machine/Fence.lean ====
section
/-! DEFINITION. How an island is fenced (R245 to R248, R277, R280, R281, R797, R807): the
causes, what the fence stops in each island, and the answer to a fence of the Lockkeeper
core. -/

namespace Sys2Proof.Machine

/-! ### The causes of R246 -/

def cTIMEOUT : Nat := 1
def cPARITY : Nat := 2
def cPLL : Nat := 3
def cMARGIN : Nat := 4
def cDEADMAN : Nat := 5
def cCOMMAND : Nat := 6
def cDEBUG : Nat := 7
def cWATCHDOG : Nat := 8

/-- The Deckhands of an island (R26). -/
def decksOf (i : Nat) : List Nat :=
  if i = 1 then [0, 1, 2, 3] else if i = 2 then [4, 5, 6, 7] else []

/-- 60 s in ticks (R280). -/
def minute : Nat := 3000000000

/-- The fences of an island that count now (R280; RECENT of R284). -/
def recentOf (s : State) (i : Nat) : List Dword :=
  (isl s i).recent.filter (fun t => decide (ticksSince s t ≤ minute))

/-! ### What a fence stops -/

/-- DH0 and DH1: claims on shared sources are released (R655), and the responses to what the
cores had passed out are discarded (R247). -/
def fenceDecks (s : State) (i : Nat) : State :=
  (decksOf i).foldl (fun s n =>
    updCore (icTargetFence s (n + 1)) n (fun c => { c with storeErr := [] })) s

/-- TP: pending raster writes, flips and uncommitted lines are lost (R327, R328, R375, R431). -/
def Scene.cutOff (c : Scene) : Scene :=
  { c with writes := [], lines := [], rowLines := [], signals := [], fdDue := none,
           latches := c.latches.filter (fun l => match l with
             | .linetab _ _ => true
             | .flip _ _ _ _ => false) }

/-- Every receiver (R408). -/
def allReceivers (s : State) : List Nat := stationIds s ++ [panelId]

/-- TP: the levels of the event queues (R247, R315). -/
def evqLevels (s : State) : State := (List.range 8).foldl evqLevel s

/-- TP: scenes, pieces and the blit in progress stop (R328, R375, R400, R431). -/
def fenceTp (s : State) : State :=
  let s := onTp (blitStop s) (fun t => { t with scenes := t.scenes.map (fun p => (p.1, p.2.cutOff)) })
  let s := (allReceivers s).foldl (fun s r => cancelUnsent s r false) s
  evqLevels (freeAll s)

/-- TL0 to TL3: frames that wait in the island's lanes are lost (R253). -/
def lanesOf (i : Nat) : List Nat := [2 * (i - 10), 2 * (i - 10) + 1]

def fenceTl (s : State) (i : Nat) : State :=
  (lanesOf i).foldl (fun s l => updLane s l (fun x => { x with frames := [] })) s

/-- PI: drive every LEVEL source of a pin, to its filtered level or held low (R247, R732). -/
def gpioLevels (s : State) : State :=
  (List.range 64).foldl (fun s n =>
    if bit (s.gp.pinCfg n) 6 then
      driveShared s (0x60 + n) (running s islPI && s.gp.filt.getLsbD n)
    else s) s

/-- A serial frame stops where it is (R744): what it has sent leaves the part; it ends after
the release. -/
def stopSq (s : State) (ch : Nat) : State :=
  if !(sqOf s ch).busy || (sqOf s ch).held then s
  else
    let s := sqAdvance s ch
    let q := sqOf s ch
    emit (updSq s ch (fun x => { x with
      seg := q.at_, phase := 3, bits := q.off * (q.segAt q.at_).unit })) (q.wire ch)

/-- PI: serial frames stop, and a panel piece or start-up sequence is cut short (R433, R744). -/
def fencePi (s : State) : State := gpioLevels (panelCut (stopSq (stopSq s 0) 1) true)

/-- BS0 to BS3: a fence of BS0 ends Weir operations (R232) and holds the inheritance signals
low. -/
def fenceBank (s : State) (i : Nat) : State := if i = 5 then weirSettle (weirFence s) else s

/-- A waiting REBIND_STATION needs an island: TP for its scene part, the TL island of the old
or the new address for its address part. -/
def rebindNeeds (s : State) (i st : Nat) (scene : Option Nat) (addr : Option (Dword × Nat)) : Bool :=
  (scene.isSome && i = islTP)
    || (match addr with
        | none => false
        | some (_, a) => i = islLane (a / 256 % 8) || (stationOf s st).any (fun t => i = islLane t.lane))

/-- Waiting commands that need the island will reply FENCED (R192). -/
def fenceRebinds (s : State) (i : Nat) : State :=
  onFw s (fun f => { f with waiting := f.waiting.map (fun p => match p.2 with
    | .rebind h c st sc ad fe => (p.1, .rebind h c st sc ad (fe || rebindNeeds s i st sc ad))
    | _ => p) })

/-- What the fence of an island stops (R43, R247). -/
def fenceEffects (s : State) (i : Nat) : State :=
  let s := if i = islSL then slFence s else slFenceOf s i
  let s := match i with
    | 1 | 2 => fenceDecks s i
    | 3 => fenceTp s
    | 5 | 6 | 7 | 8 => fenceBank s i
    | 10 | 11 | 12 | 13 => fenceTl s i
    | 15 => fencePi s
    | _ => s
  fenceRebinds s i

/-! ### Entering a fence -/

/-- A cause fences the island: it runs, or is being restored (R277, R807). PERST# holds HI in
reset. -/
def canFence (s : State) (i : Nat) : Bool :=
  ((isl s i).state = .running || (isl s i).state = .restoring)
    && !(i = islHI && hostInReset s) && !s.sys.inReset

/-- The Lockkeeper core: hardware answers every cause but DEBUG with a reset (R797), and the
third cause of a warm restart within 60 s with a device-level reset (R281). -/
def answerLk (s : State) (cause : Nat) : State :=
  let wdt := cause = cWATCHDOG
  let past := s.sys.restarts.filter (fun t => decide (ticksSince s t ≤ minute))
  if cause = cDEBUG then restartRecoveries s
  else if !s.sys.commissioned || decide (2 ≤ past.length) then
    deviceReset s (if wdt then rcWDTDEV else rcFENCEDEV)
  else warmRestart (onSys s (fun x => { x with restarts := s.tick :: past }))
    (if wdt then rcWDTWARM else rcFENCEWARM)

/-- R280 holds an island fenced. -/
def holds (s : State) (i : Nat) : Bool :=
  i ≠ islLK && i ≠ islHI && decide (3 ≤ (recentOf s i).length)

/-- The cause field as the ISLAND_FENCED record and IS_STATE hold it (R246, R280, R284). -/
def causeField (held : Bool) (cause : Nat) : Nat := if held then cause + 0x80 else cause

/-- Hardware fences an island on a cause (R246, R247, R277, R280). -/
def fenceIsland (s : State) (i cause : Nat) : State :=
  if !canFence s i then s
  else
    let first := running s i
    let s := updIsl s i (fun x => { x with recent := s.tick :: recentOf s i, total := satAdd x.total 1 })
    let held := holds s i
    let s := updIsl s i (fun x => { x with
      state := if held then .held else .fenced, cause := BitVec.ofNat 8 (causeField held cause) })
    let s := if first then fenceEffects s i else s
    let s := raisePriv (postRec s i 0x05 0 (pack [(0, i), (8, causeField held cause)]) 0) 0 19
    if i = islLK then answerLk s cause
    else if held then resetReply s i stFENCED
    else s

/-! ### The commands -/

/-- CROSSING_TIMEOUT (R244, R245, R247, R284): `issuer` is the island, and `agent` the agent in it,
whose request waited; the request ends with an error completion. The row gives no address and no
kind of access: those that the Lockkeeper's exception shows are free values (log entry 57). -/
def execCrossingTimeout (issuer : Waiter) (target : Fin 16) (s : State) :
    Host.Outcome State Fault Refusal :=
  .next (
    let out := running s issuer.island
    let s := fenceIsland (updIsl s issuer.island (fun x => { x with timeouts := satAdd x.timeouts 1 })) target cTIMEOUT
    if out then
      let (s, v) := drawFree s
      errTo s issuer.agent (v.toNat % 2 ^ 32)
        (v.getLsbD 32 && (List.range 4).any (fun b => target = islBank b)) (v.getLsbD 33) .fenced
    else s)

/-- STATE_PARITY (R246). -/
def execStateParity (island : Fin 16) (s : State) : Host.Outcome State Fault Refusal :=
  .next (fenceIsland s island cPARITY)

/-- PLL_UNLOCK (R246, R767). -/
def execPllUnlock (island : Fin 16) (s : State) : Host.Outcome State Fault Refusal :=
  .next (fenceIsland s island cPLL)

/-- MARGIN_LOST (R246): negative margin while the island's stretch is at its limit, the doubled
period of R264; an island that is not stretched has no such cause (R265). -/
def execMarginLost (island : Fin 16) (s : State) : Host.Outcome State Fault Refusal :=
  .next (if (isl s island).stretch then fenceIsland s island cMARGIN else s)

/-- The heartbeat of some deck kernel of the island is older than 10 ms (R246, R589). -/
def heartLost (s : State) (i : Nat) : Bool :=
  (decksOf i).any (fun n => decide (500000 < ticksSince s (coreOf s n).heart))

/-- DEADMAN (R246): a lost heartbeat, or in another island a sequencer that stalled, which the
command reports. -/
def execDeadman (island : Fin 16) (s : State) : Host.Outcome State Fault Refusal :=
  .next (if (decksOf island).isEmpty || heartLost s island then fenceIsland s island cDEADMAN else s)

/-- JTAG_FENCE (R246). -/
def execJtagFence (island : Fin 16) (s : State) : Host.Outcome State Fault Refusal :=
  .next (fenceIsland s island cDEBUG)

/-- Reach an IS_ or LK_ register (R45, R247, R284, R793), by its address. -/
def isReach (s : State) (agent ad : Nat) (f : State → State) : State :=
  issue s agent (fun s =>
    if fwAgent agent then f s else errTo s agent ad false true .unmapped)

/-- IS_CONTROL_FENCE (R246, R284). -/
def execIsControlFence (agent : Agent) (island : Fin 16) (s : State) :
    Host.Outcome State Fault Refusal :=
  .next (isReach s agent (0x27000008 + 256 * island.val) (fun s => fenceIsland s island cCOMMAND))

/-- LK_WATCHDOG_EXPIRY (R71, R72, R246, R797): the clock moves to the expiry. -/
def execLkWatchdogExpiry (s : State) : Host.Outcome State Fault Refusal :=
  .next (if s.sys.wdtArmed && running s islLK then
      fenceIsland (atTick s (s.sys.wdtStart.toNat + 50000000)) islLK cWATCHDOG
    else s)

/-- LK_WDT_KICK (R791). -/
def execLkWdtKick (agent : Agent) (s : State) : Host.Outcome State Fault Refusal :=
  .next (isReach s agent 0x10200040 (fun s =>
    if !running s islLK then errTo s agent 0x10200040 false true .fenced
    else if s.sys.wdtArmed then onSys s (fun x => { x with wdtStart := s.tick }) else s))

/-- LK_TIMER_MATCH (R790): the clock moves to the match. -/
def execLkTimerMatch (s : State) : Host.Outcome State Fault Refusal :=
  .next (if running s islLK then raisePriv (atTick s (nextMatch s s.sys.lkTimer)) 0 20 else s)

end Sys2Proof.Machine
end

