-- ==== Sys2Proof/Machine/Sound.lean ====
section
/-! DEFINITION. Chervil (chapter 11): generators, sample voices, envelopes, routes and mixes
on the sample grid, the ramps of a block boundary, and blocks that become available. -/

namespace Sys2Proof.Machine

def onCv (s : State) (f : Chervil → Chervil) : State := { s with cv := f s.cv }
def voiceOf (s : State) (v : Nat) : Option Voice := s.cv.voices.find? v
def setVoice (s : State) (v : Nat) (x : Voice) : State :=
  onCv s (fun c => { c with voices := c.voices.put v x })
def updVoice (s : State) (v : Nat) (f : Voice → Voice) : State :=
  match voiceOf s v with
  | none => s
  | some x => setVoice s v (f x)
def mixOf (s : State) (m : Nat) : Option Mix := s.cv.mixes.find? m
def setMix (s : State) (m : Nat) (x : Mix) : State :=
  onCv s (fun c => { c with mixes := c.mixes.put m x })
def updMix (s : State) (m : Nat) (f : Mix → Mix) : State :=
  match mixOf s m with
  | none => s
  | some x => setMix s m (f x)

/-- Chervil produces blocks: CV runs, and the mode is neither BOOT nor RECOVER (R464,
R468). -/
def cvRuns (s : State) : Bool := running s islCV && s.sys.mode ≠ mBOOT && s.sys.mode ≠ mRECOVER

/-- The tick at which sample n starts (R437). -/
def sampleTick (n : Nat) : Nat := n * 3125
/-- E(k) (R456). -/
def availTick (k : Nat) : Nat := k * 50000 + 55000

/-! ### Gains (R450) -/

/-- The largest m below 2 ^ n above `m` that the test accepts, bit by bit. -/
def bitSearch (ok : Nat → Bool) : Nat → Nat → Nat
  | 0, m => m
  | n + 1, m => bitSearch ok n (if ok (m + 2 ^ n) then m + 2 ^ n else m)

/-- G(g) (R450): 65,536 times 10 to the power −g/40, rounded: the largest m with
(2m − 1)^40 × 10^g at most 131,072^40. -/
def gainFactor (g : Nat) : Nat :=
  if 255 ≤ g then 0
  else bitSearch (fun m => decide ((2 * m - 1) ^ 40 * 10 ^ g ≤ 131072 ^ 40)) 17 0

/-! ### Generators (R439 to R441) -/

/-- Arithmetic shift right, towards minus infinity. -/
def asr (x : Int) (n : Nat) : Int := x / (2 ^ n : Nat)

/-- The generator's value (R440). -/
def Voice.gen (x : Voice) : Int :=
  if x.kind = 0 then (if x.acc.toNat / 2 ^ 20 ≤ x.duty.toNat then 32767 else -32767)
  else if x.kind = 1 then
    let t : Int := x.acc.toNat / 256
    if t < 32768 then 2 * t - 32768 else 98303 - 2 * t
  else if x.lfsr.getLsbD 0 then -32767 else 32767

/-- One shift of the noise LFSR (R441). -/
def lfsrShift (l : BitVec 15) (short : Bool) : BitVec 15 :=
  setBit (l >>> 1) 14 (l.getLsbD 0 ^^ l.getLsbD (if short then 6 else 1))

/-- The phase advances (R439, R441). -/
def Voice.advance (x : Voice) : Voice :=
  { x with acc := x.acc + x.freq,
           lfsr := if 2 ^ 24 ≤ x.acc.toNat + x.freq.toNat then lfsrShift x.lfsr x.short else x.lfsr }

/-! ### Sample voices (R442 to R446) -/

/-- The step table of IMA ADPCM (PRESUMED, log entry 34). -/
def imaSteps : List Nat :=
  [7, 8, 9, 10, 11, 12, 13, 14, 16, 17, 19, 21, 23, 25, 28, 31, 34, 37, 41, 45]
    ++ [50, 55, 60, 66, 73, 80, 88, 97, 107, 118, 130, 143, 157, 173, 190, 209, 230, 253, 279, 307]
    ++ [337, 371, 408, 449, 494, 544, 598, 658, 724, 796, 876, 963, 1060, 1166, 1282, 1411, 1552]
    ++ [1707, 1878, 2066, 2272, 2499, 2749, 3024, 3327, 3660, 4026, 4428, 4871, 5358, 5894, 6484]
    ++ [7132, 7845, 8630, 9493, 10442, 11487, 12635, 13899, 15289, 16818, 18500, 20350, 22385, 24623]
    ++ [27086, 29794, 32767]

/-- The index adjustment of IMA ADPCM. -/
def imaAdjust (code : Nat) : Int :=
  match code % 8 with
  | 4 => 2
  | 5 => 4
  | 6 => 6
  | 7 => 8
  | _ => -1

/-- Clamp to 16 bits; the Boolean tells that the clamp took effect. -/
def clamp16 (v : Int) : Int := max (-32768) (min 32767 v)

/-- Decode one 4-bit code (R443). -/
def imaDecode (d : Adpcm) (code : Nat) : Adpcm :=
  let st := imaSteps.getD d.index 7
  let diff := st / 8 + (if code / 4 % 2 = 1 then st else 0) + (if code / 2 % 2 = 1 then st / 2 else 0)
    + (if code % 2 = 1 then st / 4 else 0)
  { pred := clamp16 (if 8 ≤ code then d.pred - diff else d.pred + diff),
    index := (max 0 (min 88 ((d.index : Int) + imaAdjust code))).toNat }

/-- How many samples a voice's data holds (R443). -/
def Voice.length (x : Voice) : Nat := if x.fmt = 0 then x.bytes / 2 else x.bytes * 2

/-- LOOP_START as it acts (R445). -/
def Voice.loopAt (x : Voice) : Nat :=
  if x.fmt = 0 then x.loopStart.toNat else x.loopStart.toNat / 2 * 2

/-- Read bytes of a voice's data; none where the read meets an error (R467). -/
def readData (s : State) (x : Voice) (off n : Nat) : State × Option (List Byte) :=
  match x.pages with
  | none => (s, none)
  | some (p, _) =>
    match readReq s 13 (p * 65536 + off) n with
    | (s, .ok b) => (s, some b)
    | (s, .error _) => (s, none)

/-- The PCM16 sample i. -/
def pcmAt (s : State) (x : Voice) (i : Nat) : State × Option Int :=
  match readData s x (2 * i) 2 with
  | (s, some b) => (s, some (signed 16 (leNat b)))
  | (s, none) => (s, none)

/-- The ADPCM code of sample i. -/
def codeAt (s : State) (x : Voice) (i : Nat) : State × Option Nat :=
  match readData s x (i / 2) 1 with
  | (s, some b) => (s, some (leNat b / 16 ^ (i % 2) % 16))
  | (s, none) => (s, none)

/-- Decode up to `n` samples, saving the decoder when it reaches LOOP_START (R443, R444). -/
def decodeTo : Nat → State → Voice → Nat → State × Option Voice
  | 0, s, x, _ => (s, some x)
  | fuel + 1, s, x, n =>
    let x := if x.saved.isNone ∧ x.loopAt ≤ x.decoded then { x with saved := some x.dec } else x
    if n ≤ x.decoded then (s, some x)
    else
      match codeAt s x x.decoded with
      | (s, none) => (s, none)
      | (s, some c) =>
        let d := imaDecode x.dec c
        decodeTo fuel s { x with dec := d, decoded := x.decoded + 1, v0 := x.v1, v1 := d.pred } n

/-- The data samples s[i] and s[i + 1] at a voice's position (R442, R443); none where a read
meets an error. -/
def dataPair (s : State) (x : Voice) : State × Option (Voice × Int × Int) :=
  let i := x.pos
  let len := x.length
  if x.fmt = 0 then
    match pcmAt s x i with
    | (s, none) => (s, none)
    | (s, some a) =>
      let j := if i + 1 < len then i + 1 else if x.loopEn then x.loopAt else i
      match pcmAt s x j with
      | (s, none) => (s, none)
      | (s, some b) => (s, some (x, a, b))
  else
    match decodeTo 40 s x (min (i + 2) len) with
    | (s, none) => (s, none)
    | (s, some x) =>
      if i + 1 < len then (s, some (x, x.v0, x.v1))
      else if x.loopEn then
        match x.saved with
        | none => (s, some (x, x.v1, x.v1))
        | some d =>
          match codeAt s x x.loopAt with
          | (s, none) => (s, none)
          | (s, some c) => (s, some (x, x.v1, (imaDecode d c).pred))
      else (s, some (x, x.v1, x.v1))

/-- The decoder of a voice that loops back: the state saved at LOOP_START, at the code there
(R444). -/
def Voice.reload (x : Voice) : Voice :=
  { x with dec := x.saved.getD {}, decoded := if x.saved.isSome then x.loopAt else 0 }

/-- A looping voice that has passed its last sample goes back (R444); one advance may have passed
LOOP_START as well, and the decoder reaches it first. None where that read meets an error. A loop that
starts at or beyond the end gives a position the specification does not state: a free value (log entry
34). -/
def loopBack (s : State) (x : Voice) : State × Option Voice :=
  let len := x.length
  let ls := x.loopAt
  if ls < len then
    match (if x.fmt = 0 then (s, some x) else decodeTo 40 s x ls) with
    | (s, none) => (s, none)
    | (s, some x) => (s, some { x.reload with pos := ls + (x.pos - len) % (len - ls) })
  else
    let (s, v) := drawFree s
    (s, some { x.reload with pos := v.toNat % max 1 len })

/-! ### Envelope and keys (R447 to R449) -/

/-- A step of the envelope: code 0 reaches the target in one sample. -/
def envStep (c : Byte) : Nat := if c = 0 then 65535 else 1024 / c.toNat

/-- VOICE_ENDED (R446, R447, R467): ENDED, the count and the record. -/
def voiceEnded (s : State) (v : Nat) : State :=
  match voiceOf s v with
  | none => s
  | some x =>
    let s := setVoice s v { x with ended := true }
    let s := onCv s (fun c => { c with endedCount := satAdd c.endedCount 1 })
    postRec s islCV 0x23 (handleOf s tVOICE v) 0 x.moor

/-- The envelope's change in one sample (R447); the Boolean tells that a release ended. -/
def Voice.envelope (x : Voice) : Voice × Bool :=
  let l := x.level.toNat
  if x.phase = 1 then
    let n := min 65535 (l + envStep x.attack)
    ({ x with level := BitVec.ofNat 16 n, phase := if n = 65535 then 2 else 1 }, false)
  else if x.phase = 2 then
    let t := x.sustain.toNat * 257
    let n := max t (l - envStep x.decay)
    ({ x with level := BitVec.ofNat 16 n, phase := if n = t then 3 else 2 }, false)
  else if x.phase = 4 then
    let n := l - envStep x.release
    ({ x with level := BitVec.ofNat 16 n, phase := if n = 0 then 0 else 4 }, n = 0)
  else (x, false)

/-- Key-off (R449). -/
def Voice.keyOff (x : Voice) : Voice := if x.phase = 0 then x else { x with phase := 4 }

/-- What a pending write does (R448, R449, R470). -/
def Voice.apply (x : Voice) : VWrite → Voice
  | .keyOn keep => { x with phase := 1, acc := if keep then x.acc else 0, lfsr := 0x7FFF, pos := 0,
                            frac := 0, dec := {}, decoded := 0, v0 := 0, v1 := 0, saved := none }
  | .keyOff => x.keyOff
  | .reg o v =>
    if o = 0x04 then { x with freq := v.truncate 24 }
    else if o = 0x08 then { x with duty := v.truncate 4, short := bit v 4 }
    else if o = 0x0C then { x with amp := v.truncate 16 }
    else if o = 0x10 then
      { x with attack := BitVec.ofNat 8 (fld v 0 8), decay := BitVec.ofNat 8 (fld v 8 8),
               sustain := BitVec.ofNat 8 (fld v 16 8), release := BitVec.ofNat 8 (fld v 24 8) }
    else if o = 0x14 then { x with loopStart := v.truncate 24, loopEn := bit v 31 }
    else if o = 0x18 then { x with ended := x.ended && !bit v 5, ecc := x.ecc && !bit v 6 }
    else x

/-! ### One sample (R439 to R452) -/

/-- A voice whose data cannot be read (R467). -/
def voiceEcc (s : State) (v : Nat) (x : Voice) : State × Int :=
  (voiceEnded (setVoice s v { x with phase := 0, ecc := true }) v, 0)

/-- The value of a sample voice, and its advance (R442 to R446, R467). -/
def sampleValue (s : State) (v : Nat) (x : Voice) : State × Int :=
  match (if x.length ≤ x.pos ∧ x.loopEn ∧ 0 < x.length then loopBack s x else (s, some x)) with
  | (s, none) => voiceEcc s v x
  | (s, some x) =>
    if x.length ≤ x.pos then
      (voiceEnded (setVoice s v { x with phase := 0 }) v, 0)
    else
      match dataPair s x with
      | (s, none) => voiceEcc s v x
      | (s, some (x, a, b)) =>
        let p := x.pos * 4096 + x.frac + x.freq.toNat % 65536
        (setVoice s v { x with pos := p / 4096, frac := p % 4096 }, a + asr ((b - a) * x.frac) 12)

/-- One sample of one voice: its writes, its value after AMP and envelope (0 when IDLE), and
its advance. The value is taken before the phase and the level change (R439; DEDUCED, log
entry 33). -/
def voiceSample (s : State) (n v : Nat) : State × Int :=
  match voiceOf s v with
  | none => (s, 0)
  | some x =>
    let now := x.writes.filter (fun w => w.1 < sampleTick n)
    let x := now.foldl (fun x w => x.apply w.2) { x with writes := x.writes.filter (fun w => sampleTick n ≤ w.1) }
    let lvl : Int := x.level.toNat
    let (s, g) :=
      if x.kind = 3 then (if x.phase = 0 then (setVoice s v x, 0) else sampleValue s v x)
      else (setVoice s v x.advance, x.gen)
    match voiceOf s v with
    | none => (s, 0)
    | some y =>
      let val := if y.phase = 0 then 0 else asr (asr (g * x.amp.toNat) 16 * lvl) 16
      let (y, fin) := y.envelope
      let s := setVoice s v y
      (if fin then voiceEnded s v else s, val)

/-- A route's share of a value: gain and weight (R451, R454). -/
def share (val : Int) (gain w : Nat) : Int := asr (asr (val * gainFactor gain) 16 * w) 4

/-- A share whose gain ramps within one route (R454; the weights' division is exact,
DEDUCED, log entry 33). -/
def rampShare (val : Int) (old new j : Nat) : Int :=
  asr (val * (gainFactor old * (15 - j) + gainFactor new * (j + 1) : Nat)) 20

/-- What an input (a route or a parent) adds in sample j: `to` tells whether it goes where
asked, `val` its value. -/
def inputShare (val : Nat → Int) (now : Option (Nat × Nat)) (from_ : Option (Option (Nat × Nat)))
    (j : Nat) (here : Nat → Bool) : Int :=
  let one (r : Option (Nat × Nat)) (w : Nat) : Int :=
    match r with
    | some (k, g) => if here k then share (val k) g w else 0
    | none => 0
  match from_ with
  | none => one now 16
  | some old =>
    match old, now with
    | some (a, g), some (b, h) =>
      if a = b then (if here a then rampShare (val a) g h j else 0)
      else one old (15 - j) + one now (j + 1)
    | _, _ => one old (15 - j) + one now (j + 1)

/-- acc of a mix from its voices alone (R451). -/
def voiceSum (s : State) (vals : Tab Int) (m j : Nat) : Int :=
  s.cv.voices.foldl (fun a p =>
    a + inputShare (fun _ => Tab.get 0 vals p.1) p.2.route p.2.rampFrom j (fun k => k = m)) 0

/-- acc of a mix (R451): the parent adds its voices' sum (DEDUCED, log entry 33). -/
def mixAcc (s : State) (vals : Tab Int) (m : Nat) (x : Mix) (j : Nat) : Int :=
  voiceSum s vals m j
    + inputShare (fun k => voiceSum s vals k j)
        (x.parNow.map (fun p => (p.1, p.2))) (x.parFrom.map (fun o => o.map (fun p => (p.1, p.2)))) j
        (fun k => (mixOf s k).isSome)

/-- One sample of a mix (R451): its output joins the block in progress. -/
def mixSample (vals : Tab Int) (j : Nat) (s : State) (m : Nat) : State :=
  match mixOf s m with
  | none => s
  | some x =>
    let f : Nat := match x.gainFrom with
      | none => gainFactor x.gainNow.toNat * 16
      | some g => gainFactor g.toNat * (15 - j) + gainFactor x.gainNow.toNat * (j + 1)
    let raw := asr (mixAcc s vals m x j * f) 20
    let out := clamp16 raw
    setMix s m { x with
      samples := x.samples ++ [out],
      clips := if out = raw then x.clips else satAdd x.clips 1,
      peak := if x.peak.toNat < out.natAbs then BitVec.ofNat 16 out.natAbs else x.peak }

/-! ### Block boundaries (R454, R455) -/

/-- The last change that arrived before a tick, and the changes that still wait. -/
def lastBefore {α : Type} (t : Nat) (l : List (Nat × α)) : Option α × List (Nat × α) :=
  (((l.filter (fun c => c.1 < t)).getLast?).map (·.2), l.filter (fun c => t ≤ c.1))

def Voice.boundary (x : Voice) (t : Nat) : Voice :=
  let (c, rest) := lastBefore t x.next
  match c with
  | none => { x with rampFrom := none, next := rest }
  | some r => { x with rampFrom := if r = x.route then none else some x.route, route := r, next := rest }

def Mix.boundary (x : Mix) (t : Nat) : Mix :=
  let (c, rest) := lastBefore t x.next
  match c with
  | none => { x with gainFrom := none, parFrom := none, next := rest, samples := [] }
  | some (g, p) =>
    { x with gainFrom := if g = x.gainNow then none else some x.gainNow, gainNow := g,
             parFrom := if p = x.parNow then none else some x.parNow, parNow := p, next := rest,
             samples := [] }

/-- The boundary of the block that is due (R454, R455, R464): changes take effect, and HOLD
keys the voices off. -/
def blockBoundary (s : State) : State :=
  let t := s.cv.bound * 50000
  onCv s (fun c =>
    let off := match c.keyOffDue with
      | some h => decide (h < t)
      | none => false
    { c with
      voices := c.voices.map (fun p =>
        let x := p.2.boundary t
        (p.1, if off then x.keyOff else x))
      mixes := c.mixes.map (fun p => (p.1, p.2.boundary t))
      keyOffDue := if off then none else c.keyOffDue
      bound := c.bound + 1 })

/-- BLOCK_BOUNDARY (R454, R455, R464): the clock moves to the boundary. -/
def execBlockBoundary (s : State) : Host.Outcome State Fault Refusal :=
  .next (if cvRuns s && s.cv.bound * 16 = s.cv.sample then
      blockBoundary (atTick s (s.cv.bound * 50000))
    else s)

/-- Every sample of the block in progress is computed: it awaits E(k). -/
def endBlock (s : State) (k : Nat) : State :=
  onCv s (fun c => { c with mixes := c.mixes.map (fun p =>
    (p.1, if p.2.samples.length = 16 then { p.2 with done := p.2.done ++ [(k, p.2.samples)] } else p.2)) })

/-- One sample of every voice, with the values. -/
def allVoices (n : Nat) (s : State) : State × Tab Int :=
  (s.cv.voices.map (·.1)).foldl (fun a v =>
    let (s, x) := voiceSample a.1 n v
    (s, Tab.put a.2 v x)) (s, [])

/-- SAMPLE_TICK (R437 to R452): the clock moves to the sample's start; a block boundary that
is due with it comes first. -/
def execSampleTick (s : State) : Host.Outcome State Fault Refusal :=
  .next (if !cvRuns s then s
    else
      let n := s.cv.sample
      let s := atTick s (sampleTick n)
      let s := if s.cv.bound * 16 = n then blockBoundary s else s
      let (s, vals) := allVoices n s
      let s := (s.cv.mixes.map (·.1)).foldl (mixSample vals (n % 16)) s
      let s := onCv s (fun c => { c with sample := n + 1 })
      if n % 16 = 15 then endBlock s (n / 16) else s)

/-! ### Blocks that become available (R456, R461 to R463, R466, R468) -/

/-- Toward-zero division by 3. -/
def div3 (v : Int) : Int := if v < 0 then -((-v) / 3) else v / 3

/-- The 48 samples of a block in a port's slot (R463). -/
def portFrames (last : Int) : List Int → List Int
  | [] => []
  | x :: r => (List.range 3).map (fun (q : Nat) => last + div3 ((x - last) * q)) ++ portFrames x r

/-- The 32 bits of a slot: the 16 or 24 data bits of WIDTH left-justified, a 16-bit sample in the high
bits of 24 (R461, R462). -/
def slotWord (wide : Bool) (v : Int) : Word :=
  if wide then BitVec.ofInt 32 (v * 2 ^ 8) <<< 8 else BitVec.ofInt 32 v <<< 16

/-- The level of FS in BCLK period i of a frame (R461). -/
def fsAt (tdm : Bool) (i : Nat) : Bool := if tdm then i = 255 else 31 ≤ i && i < 63

/-- A frame of a port: its slots in order, each most significant bit first (R461). -/
def frameBits (tdm : Bool) (slots : List Word) : List AudBit :=
  ((slots.flatMap (fun w => (List.range 32).map (fun i => w.getLsbD (31 - i)))).zipIdx).map
    (fun p => { fs := fsAt tdm p.2, sd := p.1 })

/-- What the slots of the ports carry for one block: port, slot and the 48 samples. -/
abbrev Played := List (Nat × Nat × List Int)

/-- The 48 frames of port k: a slot at or beyond SLOTS, or with no mix, carries zero (R462). -/
def portWave (p : Port) (k : Nat) (played : Played) : List AudBit :=
  (List.range 48).flatMap (fun f => frameBits p.tdm ((List.range (if p.tdm then 8 else 2)).map (fun q =>
    match played.find? (fun x => x.1 = k && x.2.1 = q) with
    | some (_, _, l) => if q < p.slots.toNat then slotWord p.width (l.getD f 0) else 0
    | none => 0)))

/-- An enabled port drives its clocks and its frames (R461). A port is shown a block at a time (log
entry 33). -/
def drivePort (played : Played) (s : State) (k : Nat) : State :=
  let p := s.cv.ports.get {} k
  if p.enable then emit s (.audio k (if p.tdm then 1 else 4) (portWave p k played)) else s

def drivePorts (s : State) (played : Played) : State := [0, 1].foldl (drivePort played) s

/-- What a port plays in place of a block that is late (R460, R466). -/
def Mix.conceal (x : Mix) : List Int :=
  if x.concealed || x.prev.isEmpty then List.replicate 16 0 else x.prev.map (fun v => asr v 1)

/-- A later block of a mix is available: the older ones that a cycle's AUDIO frame could have carried
are dropped, and so is that frame, if it waits still (R457, R458). -/
def dropStale (s : State) (m : Nat) : State :=
  match mixOf s m with
  | none => s
  | some x => match x.station with
    | none => s
    | some i =>
      let s := setMix s m { x with blocks := x.blocks.filter (fun b => decide (s.tl.cyc.tick.toNat < availTick b.1)) }
      dropAudio s i

/-- Block k of a mix becomes available, or is late (R456, R466); a mix has no block before its
first. -/
def availMix (k : Nat) (late : List Nat) (a : State × Played) (m : Nat) : State × Played :=
  let (s, played) := a
  match mixOf s m with
  | none => (s, played)
  | some x =>
    if k < x.first then (s, played)
    else
      let got := (x.done.find? (fun b => b.1 = k)).map (·.2)
      let rest := x.done.filter (fun b => k < b.1)
      let ready := if late.contains m then none else got
      let s := if ready.isNone then
          onCv s (fun c => { c with overrun := true, lateBlocks := satAdd c.lateBlocks 1 })
        else s
      match x.station with
      | some _ =>
        (match ready with
          | some b =>
            let s := dropStale (setMix s m { x with done := rest }) m
            updMix s m (fun x => { x with blocks := x.blocks ++ [(k, b)] })
          | none => setMix s m { x with done := rest }, played)
      | none =>
        let play := ready.getD x.conceal
        (setMix s m { x with done := rest, prev := play, concealed := ready.isNone },
          played ++ [(x.port, x.slot, portFrames (x.prev.getLast?.getD 0) play)])

/-- BLOCK_AVAILABLE (R456, R463, R466, R468): the clock moves to E(k); `late` names the mixes whose
block a stretched clock has not finished. While CV is fenced no block is made available, and the
ports send zeros. -/
def execBlockAvailable (late : List Nat) (s : State) : Host.Outcome State Fault Refusal :=
  .next (if s.sys.mode = mBOOT ∨ s.sys.mode = mRECOVER then s
    else
      let k := s.cv.avail
      let s := onCv (atTick s (availTick k)) (fun c => { c with avail := k + 1 })
      if !cvRuns s then drivePorts s []
      else
        let (s, played) := (s.cv.mixes.map (·.1)).foldl (availMix k late) (s, [])
        drivePorts (onCv s (fun c => { c with block := BitVec.ofNat 16 k })) played)

/-- Chervil starts with the first block whose start tick comes after now (R468; DEDUCED for the end of
BOOT, log entry 33); the next E(k) may be of a block before it. -/
def cvStart (s : State) : State :=
  let t := s.tick.toNat
  let k := t / 50000 + 1
  onCv s (fun c => { c with
    sample := 16 * k, bound := k, avail := if t < 55000 then 0 else (t - 55000) / 50000 + 1,
    mixes := c.mixes.map (fun p => (p.1, { p.2 with first := k })) })

/-! ### Register writes (R448, R449, R452, R470, R471) -/

/-- Write a CV_ register by its offset: agents 2 to 10 and 15 may access it (R247, R470). -/
def cvReach (s : State) (agent o : Nat) (f : State → State) : State :=
  reach s agent (0x21000000 + o) (scriptAgent agent) (running s islCV) true f

/-- A write to a voice register reaches Chervil (R448). -/
def voiceWrite (s : State) (v : Nat) (w : VWrite) : State :=
  updVoice s v (fun x => { x with writes := x.writes ++ [(s.tick.toNat, w)] })

/-- KEY_ON (R449). -/
def execKeyOn (agent : Agent) (voice : Fin 512) (keepPhase : Bool) (s : State) :
    Host.Outcome State Fault Refusal :=
  .next (cvReach s agent (0x20 * voice) (fun s => voiceWrite s voice (.keyOn keepPhase)))

/-- KEY_OFF (R449). -/
def execKeyOff (agent : Agent) (voice : Fin 512) (s : State) : Host.Outcome State Fault Refusal :=
  .next (cvReach s agent (0x20 * voice) (fun s => voiceWrite s voice .keyOff))

/-- The targets of a mix's gain and parent, as its registers and the mode give them. -/
def Mix.target (x : Mix) : Byte × Option Parent :=
  (if x.silenced then 255 else x.gain,
   if x.parentEn then some (x.parent.toNat, x.parentGain.toNat) else none)

/-- A change of a mix's gain, parent or silence reaches Chervil (R454). -/
def touchMix (s : State) (m : Nat) (f : Mix → Mix) : State :=
  updMix s m (fun x =>
    let y := f x
    { y with next := y.next ++ [(s.tick.toNat, y.target)] })

/-- A mix may be the parent of another (R452). -/
def parentOk (s : State) (m k : Nat) : Bool :=
  m ≠ k && match mixOf s k with
    | some x => x.station.isSome && !x.parentEn
    | none => false

/-- A mix is silent in a mode (R46, R464). -/
def Mix.quiet (x : Mix) (mode : BitVec 4) : Bool := mode = mWASH && x.station.isSome && !x.washAudible

/-- The mixes that name a mix as their parent. -/
def childrenOf (s : State) (m : Nat) : List Nat :=
  (s.cv.mixes.filter (fun p => p.2.parentEn && p.2.parent.toNat = m)).map (·.1)

/-- A write to CV_MIX_CTRL (R46, R452, R454, R471). A mix that takes a parent is none itself: the
children that name it are told PARENT_ERR, and their parent input ramps out (DESIGN CHOICE, log entry
33). -/
def mixCtrlWrite (s : State) (m : Nat) (v : Word) : State :=
  let en := bit v 9
  let k := fld v 10 11
  let ok := !en || parentOk s m k
  let s := touchMix s m (fun x =>
    let y := { x with gain := BitVec.ofNat 8 (fld v 0 8), washAudible := bit v 8,
                      parentGain := BitVec.ofNat 8 (fld v 24 8) }
    let y := { y with silenced := y.quiet s.sys.mode }
    if ok then { y with parentEn := en, parent := BitVec.ofNat 11 k } else { y with parentErr := true })
  if ok && en && (mixOf s m).isSome then
    (childrenOf s m).foldl (fun s c =>
      touchMix s c (fun x => { x with parentEn := false, parentErr := true })) s
  else s

/-- A change of mode silences the station mixes whose WASH_AUDIBLE is 0, or restores every mix
(R464). -/
def silenceMixes (s : State) : State :=
  (s.cv.mixes.map (·.1)).foldl (fun s m =>
    match mixOf s m with
    | none => s
    | some x =>
      let q := x.quiet s.sys.mode
      if q = x.silenced then s else touchMix s m (fun x => { x with silenced := q })) s

end Sys2Proof.Machine
end

