-- ==== Sys2Proof/Machine/Recover.lean ====
section
/-! DEFINITION. How an island is reset, restored and released, and the EPOCH markers of a
release (R251 to R263, R276, R277, R486, R493, R544, R656). -/

namespace Sys2Proof.Machine

/-! ### Reset: the registers of an island (R252) -/

/-- DH0 and DH1: cores and instruction RAM; the firmware keeps its record of each script. -/
def wipeDeck (s : State) (n : Nat) : State :=
  let s := icTargetReset (agentReset s (n + 3)) (n + 1)
  onDh s (fun x => { x with
    cores := x.cores.set {} n {},
    iram := x.iram.filter (fun p => p.1 / 65536 ≠ n),
    tasks := x.tasks.map (fun p => if p.2.deck = n then
        (p.1, { p.2 with state := if p.2.state = 4 then 4 else 0, ctx := none, wait := none, mask := 0,
                         slots := [], locks := [], started := p.2.started && !p.2.stopDue,
                         stopDue := false, ran := 0 })
      else p) })

/-- A scene as a reset of TP leaves it: what the firmware and Basin keep. -/
def Scene.wipe (c : Scene) : Scene :=
  { width := c.width, height := c.height, blank := c.blank, rate := c.rate, moor := c.moor,
    block := c.block, madeAt := c.madeAt, start := c.start, evHost := c.evHost, dhMask := c.dhMask, pipe := c.pipe, pin := c.pin,
    sig := c.sig, sigAddr := c.sigAddr, sobFrame := c.sobFrame, nextFrame := c.nextFrame,
    latched := c.latched }

/-- The panel's configuration outlives a reset of TP. -/
def Panel.wipe (p : Panel) : Panel :=
  { p with teWait := false, teMiss := false, abort := false, recv := {}, pieces := 0 }

def wipeTp (s : State) : State :=
  onTp s (fun t =>
    { scenes := t.scenes.map (fun p => (p.1, p.2.wipe)), pushBase := t.pushBase, panel := t.panel.wipe,
      banks := t.banks, blt := { last := t.blt.last, done := t.blt.done, stopped := t.blt.stopped } })

/-- A voice as the firmware restores it (R253, R468): its configuration, and its phase as a
key-on leaves it. -/
def Voice.wipe (x : Voice) : Voice :=
  let r := match x.next.getLast? with
    | some (_, r) => r
    | none => x.route
  { kind := x.kind, moor := x.moor, freq := x.freq, duty := x.duty, short := x.short, amp := x.amp,
    attack := x.attack, decay := x.decay, sustain := x.sustain, release := x.release,
    loopStart := x.loopStart, loopEn := x.loopEn, fmt := x.fmt, pages := x.pages, bytes := x.bytes,
    route := r }

/-- A mix as the firmware restores it: its gain and parent are in force with weight 16
(R468). -/
def Mix.wipe (x : Mix) : Mix :=
  { station := x.station, port := x.port, slot := x.slot, moor := x.moor, gain := x.gain,
    washAudible := x.washAudible, parentEn := x.parentEn, parent := x.parent,
    parentGain := x.parentGain, silenced := x.silenced,
    gainNow := x.target.1, parNow := x.target.2 }

def wipeCv (s : State) : State :=
  onCv s (fun c =>
    { voices := c.voices.map (fun p => (p.1, p.2.wipe)), mixes := c.mixes.map (fun p => (p.1, p.2.wipe)),
      ports := c.ports, sample := c.sample, bound := c.bound, avail := c.avail, keyOffDue := c.keyOffDue })

/-- BS0 to BS3: the bank's registers; data, check bits and tags are kept (R213). Weir goes
with BS0 (R233). -/
def wipeBank (s : State) (b : Nat) : State :=
  let s := updBank s b (fun _ => {})
  if b = 0 then weirSettle { s with weir := {} } else s

def wipeSl (s : State) : State :=
  onSl s (fun x => { x with submitErr := 0, last := [], served := [] })

/-- A lane as a reset of its island leaves it: its configuration, its pins and its module, its
SESSION, and the equaliser values of a frozen lane (R486). -/
def Lane.wipe (x : Lane) : Lane :=
  { enable := x.enable, freeze := x.freeze, test := x.test, code := x.code, txDis := x.txDis,
    present := x.present, los := x.los, faultIn := x.faultIn, faulted := x.faulted, read := x.read,
    kind := x.kind, ddm := x.ddm, lengthM := x.lengthM, eq := if x.freeze then x.eq else {},
    session := x.session }

/-- The counters of a station's registers, which lie in its TL island (R549). -/
def Station.wipe (t : Station) : Station :=
  { t with stale := 0, suppressed := 0, late := 0, retries := 0, eccOut := 0, diag := 0 }

def wipeTl (s : State) (i : Nat) : State :=
  onTl ((lanesOf i).foldl (fun s l => updLane s l Lane.wipe) s) (fun t => { t with
    stations := t.stations.map (fun p => (p.1, if islLane p.2.lane = i then p.2.wipe else p.2)) })

/-- PI: FIFOs, buffers and status; the firmware restores the settings (R253). The end of a
frame or a transaction that the fence cut is still to be reported (R744). -/
def Sq.wipe (q : Sq) : Sq :=
  { cfg := q.cfg, busy := q.busy, held := q.held, seg := q.seg, phase := q.phase, bits := q.bits }

def wipePi (s : State) : State :=
  let s := onPi s (fun p =>
    { sq := p.sq.map (fun x => (x.1, x.2.wipe)),
      i2c := { ctrl := p.i2c.ctrl, busy := p.i2c.busy },
      avs := p.avs.map (fun x => (x.1, { op := x.2.op })) })
  { s with gp := s.gp.wipe }

/-- An island's reset asserts (R251, R252). -/
def wipe (s : State) (i : Nat) : State :=
  match i with
  | 1 | 2 => (decksOf i).foldl wipeDeck s
  | 3 => wipeTp s
  | 4 => wipeCv s
  | 5 | 6 | 7 | 8 => wipeBank s (i - 5)
  | 9 => wipeSl s
  | 10 | 11 | 12 | 13 => wipeTl s i
  | 14 => agentReset s 1
  | 15 => wipePi s
  | _ => s

/-- IS_CONTROL.RESET: only while fenced (R251, R284), and not while R280 holds the island. The core
of LK is reset by hardware alone (R797, R808). -/
def resetIsland (s : State) (i : Nat) : State :=
  if i ≠ islLK ∧ (isl s i).state = .fenced then wipe (updIsl s i (fun x => { x with state := .inReset })) i
  else s

/-- The order of R276: the banks, then the other islands in ascending number. -/
def recoveryOrder : List Nat := [5, 6, 7, 8, 1, 2, 3, 4, 9, 10, 11, 12, 13, 14, 15]

/-- The firmware recovers a fenced island: not one that R280 holds, and one whose fence has cause
DEBUG only on a RESET command (R199, R251, R280). -/
def recoverable (s : State) (i : Nat) : Bool :=
  (isl s i).state = .fenced && ((isl s i).cause.toNat ≠ cDEBUG || (isl s i).resetCmd.isSome)

/-- An island is being recovered, or a marker of a release is still to be written (R276), which no
fenced bank keeps from being written (log entry 58). -/
def recovering (s : State) : Bool :=
  (List.range 15).any (fun k => (isl s (k + 1)).state = .inReset || (isl s (k + 1)).state = .restoring)
    || (!bankFenced s && s.staging.any (·.marker))

/-- A write of IS_CONTROL.RESET: while the core of LK runs (R808). The firmware resets one island at
a time, in the order of R276. -/
def controlReset (s : State) (a i : Nat) : State :=
  if !running s islLK then s
  else if a = 2 ∧ (recovering s = true ∨ (recoveryOrder.find? (recoverable s)) ≠ some i) then s
  else resetIsland s i

/-! ### Restore (R253) -/

/-- A scene's registers from its scene block (R327, R369); a word that cannot be read keeps
its Reset value. -/
def restoreReg (base : Nat) (p : State × Tab Word) (reg : Nat) : State × Tab Word :=
  match readWord p.1 2 (base + 4 * reg) with
  | (s, none) => (s, p.2)
  | (s, some v) => (s, rset p.2 reg (v &&& ((leMask reg).getD ((shadowMask reg).getD 0))))

def restoreScene (s : State) (i : Nat) : State :=
  match sceneOf s i with
  | none => s
  | some c =>
    let (s, le) := leRegs.foldl (restoreReg c.block) (s, [])
    let (s, sh) := shadowRegs.foldl (restoreReg c.block) (s, [])
    updScene s i (fun c => { c with regs := le, active := sh, shadow := sh })

/-- The scripts of an island's Deckhands, in ascending index. -/
def scriptsOf (s : State) (i : Nat) : List Nat :=
  (s.dh.tasks.filter (fun p => (decksOf i).contains p.2.deck)).map (·.1)

/-- Instruction RAM from the firmware's copies, and each started task (R196, R253, R584). A copy that
cannot be read, for poison or a fenced bank, loads nothing and starts no task (DESIGN CHOICE, log
entry 44). -/
def restoreScript (s : State) (k : Nat) : State :=
  match taskOf s k with
  | none => s
  | some t =>
    match t.copy with
    | none => s
    | some (p, _) =>
      match readMem s 2 (p * 65536) (2 * t.len) with
      | (s, .error _) => s
      | (s, .ok b) =>
        let s := putCode s t.deck t.cell (cellsOf b)
        if t.started then startTask s k else s

def restore (s : State) (i : Nat) : State :=
  match i with
  | 1 | 2 => (scriptsOf s i).foldl restoreScript s
  | 3 => (s.tp.scenes.map (·.1)).foldl restoreScene s
  | 9 => slRestore s
  | 10 | 11 | 12 | 13 => (lanesOf i).foldl loadTaps s
  | 15 => { s with gp := s.gp.restore }
  | _ => s

/-- ISLAND_RESET_DONE (R251, R253, R808): the firmware restores the island. -/
def execIslandResetDone (island : Fin 16) (s : State) : Host.Outcome State Fault Refusal :=
  .next (if (isl s island).state = .inReset && running s islLK then
      restore (updIsl s island (fun x => { x with state := .restoring })) island
    else s)

/-! ### EPOCH markers (R257 to R259) -/

/-- The moorings that a release of an island names (R257), by handle; 0 is the device
mooring. A BLIT mooring names no event mooring (DEDUCED, log entry 40). -/
def markerHandles (s : State) (i : Nat) : List Word :=
  let every (p : Moor → Bool) : List Word :=
    (s.fw.moorings.filter (fun m => p m.2)).map (fun m => handleOf s tMOORING m.1)
  match i with
  | 0 => every (fun m => m.kind = 0)
  | 1 | 2 =>
    (s.dh.tasks.filter (fun p => (decksOf i).contains p.2.deck)).map (fun p => p.2.moor)
      ++ every (fun m => decide (m.kind ≠ 0) && (decksOf i).any (fun n => m.producer = n + 3))
  | 3 => s.tp.scenes.map (fun p => p.2.moor) ++ s.fw.fences.map (fun p => p.2.moor)
  | 4 => s.cv.voices.map (fun p => p.2.moor) ++ s.cv.mixes.map (fun p => p.2.moor)
  | 5 | 6 | 7 | 8 => every (fun _ => true)
  | 9 => s.sl.chans.filterMap (fun p => if p.2.state = .closed then none else some p.2.moor)
  | 10 | 11 | 12 | 13 =>
    (s.tl.stations.filter (fun p => islLane p.2.lane = i)).map (fun p => stationMoor s p.2)
  | _ => []

/-- The mooring indices of those handles, each once, without the device mooring. -/
def markerMoors (s : State) (i : Nat) : List Nat :=
  ((markerHandles s i).filterMap (fun h => if h = 0 then none else moorIndex s h)).eraseDups.filter
    (fun k => s.fw.deviceMoor ≠ some k)

/-- The marker of a release (R258). -/
def markerRec (s : State) (i : Nat) (prev : BitVec 16) (moor : Word) : Rec :=
  { type := 0x01, island := BitVec.ofNat 4 i, epoch := (isl s i).epoch, stamp := s.tick.truncate 32,
    payload := prev.setWidth 32, moor := moor, marker := true }

/-- One marker: an EVENT mooring takes it through the staging queue (R250); a BLIT or PLAIN
mooring at once (R259), or later where it is full (R279) or an older marker of the island waits
for it (R261). -/
def postMarker (i : Nat) (prev : BitVec 16) (s : State) (k : Nat) : State :=
  match s.fw.moorings.find? k with
  | none => s
  | some m =>
    let r := markerRec s i prev (handleOf s tMOORING k)
    if m.kind = 0 ∨ running s islLK = false ∨ s.staging.any (fun x => x.marker && x.island = r.island && x.moor = r.moor) then stage s r
    else match putMarker s k m r with
      | (s, true) => s
      | (s, false) => stage s r

/-- Every marker of a release that is not written yet, the device mooring's first. -/
def postMarkers (s : State) (i : Nat) (prev : BitVec 16) : State :=
  let done := (isl s i).marked
  ((markerMoors s i).filter (fun k => !done.contains k)).foldl (postMarker i prev)
    (stage s (markerRec s i prev 0))

/-- The BLIT and PLAIN moorings whose producer lies in the island (R257, R259). -/
def ownMoors (s : State) (i : Nat) : List Nat :=
  ((s.fw.moorings.filter (fun p => decide (p.2.kind ≠ 0)
      && (decksOf i).any (fun n => p.2.producer = n + 3))).map (·.1))

/-- The marker of the release to come, into one of those moorings (R259). -/
def premark (i : Nat) (s : State) (k : Nat) : State :=
  if (isl s i).marked.contains k then s
  else match s.fw.moorings.find? k with
    | none => s
    | some m =>
      let r := { markerRec s i (isl s i).epoch (handleOf s tMOORING k) with epoch := (isl s i).epoch + 1 }
      match putMarker s k m r with
      | (s, true) => updIsl s i (fun x => { x with marked := x.marked ++ [k] })
      | (s, false) => s

/-- The firmware writes those markers while the island is still held (R259). -/
def premarks (s : State) (i : Nat) : State := (ownMoors s i).foldl (premark i) s

/-- They are all written: the island may be released. -/
def premarked (s : State) (i : Nat) : Bool := (ownMoors s i).all (fun k => (isl s i).marked.contains k)

/-- The island runs again: its epoch increments, markers and ISLAND_RELEASED are posted
(R200, R254, R257). -/
def leaveFence (s : State) (i : Nat) : State :=
  let prev := (isl s i).epoch
  let s := updIsl s i (fun x => { x with state := .running, epoch := x.epoch + 1 })
  let s := updIsl (postMarkers s i prev) i (fun x => { x with marked := [] })
  postRec s i 0x06 0 (w32 i) 0

/-! ### What a release starts again -/

/-- A scene resumes with the first frame that starts after the release (R328). -/
def Scene.resume (c : Scene) (t : Nat) : Scene :=
  let n := c.nextStart t
  { c with nextFrame := n, nextLine := 0, sobFrame := n, latched := n, urFrame := none, ltStop := none,
           lm := c.lm.map (fun p => (p.1, { p.2 with next := max p.2.next n })) }

/-- TP: scenes, full pushes (R44, R424), the stopped blit (R400) and the event queues. -/
def releaseTp (s : State) : State :=
  let s := onTp s (fun t => { t with
    scenes := t.scenes.map (fun p => (p.1, p.2.resume s.tick.toNat)) })
  let s := (allReceivers s).foldl oweAll s
  panelKick (evqLevels (blitClose s))

/-- CV: the blocks in progress are lost, and blocks begin with the next that starts (R253,
R468). -/
def releaseCv (s : State) : State :=
  cvStart (onCv s (fun c => { c with mixes := c.mixes.map (fun p =>
    (p.1, { p.2 with samples := [], done := [], blocks := [], prev := [], concealed := false })) }))

/-- A restored deck kernel starts (R253). -/
def releaseDecks (s : State) (i : Nat) (restored : Bool) : State :=
  if restored then (decksOf i).foldl (fun s n => reschedule (deckBoot s n) n) s else s

/-- TL0 to TL3: each lane has a new SESSION (R493, R544). -/
def releaseTl (s : State) (i : Nat) : State :=
  (lanesOf i).foldl (fun s l => laneSettle (newSession s l) l) s

/-- PI: what the fence cut ends ABORTED, and each I2C port recovers first (R744 to R746). -/
def releasePi (s : State) : State :=
  let s := [0, 1].foldl (fun s ch =>
    let q := sqOf s ch
    if q.busy then sqEnd (updSq s ch (fun x => { x with held := false })) ch 4 q.seg q.phase q.bits
    else s) s
  let s := if s.pi.i2c.busy then i2cEnd s 4 else s
  let s := updI2c s (fun x => { x with recover := 0xFF })
  let s := [0, 1].foldl (fun s n => if (avsOf s n).op.isSome then avsEnd s n 3 else s) s
  panelKick (gpioLevels s)

def releaseEffects (s : State) (i : Nat) (restored : Bool) : State :=
  match i with
  | 0 => (List.range 8).foldl flushReplies s
  | 1 | 2 => releaseDecks s i restored
  | 3 => releaseTp s
  | 4 => releaseCv s
  | 5 => weirSettle s
  | 9 => if restored then s else slRestore s
  | 10 | 11 | 12 | 13 => releaseTl s i
  -- The endpoint keeps its configuration over a release without a reset (log entry 55).
  | 14 => if hostInReset s then s else vecRelease s
  | 15 => releasePi s
  | _ => s

/-- The release of an island's fence (R254, R257); a RESET of it then replies (R199). -/
def releaseIsland (s : State) (i : Nat) : State :=
  let restored := (isl s i).state = .restoring
  let s := match (isl s i).resetCmd with
    | some m => causes s m
    | none => s
  caused (resetReply (releaseEffects (leaveFence s i) i restored) i stOK)

/-- The firmware's release, once the markers that must come first are written (R259, R279). -/
def firmwareRelease (s : State) (i : Nat) : State :=
  let s := premarks s i
  if premarked s i then releaseIsland s i else s

/-- A write of IS_CONTROL.RELEASE: while the core of LK runs (R808), of an island that is restored,
or fenced on a cause other than DEBUG, which JTAG alone ends (R797); one that R280 holds stays
fenced, and the core of LK is released by R73 and R797 alone. -/
def controlRelease (s : State) (a i : Nat) : State :=
  if i = islLK ∨ running s islLK = false then s
  else match (isl s i).state with
    | .restoring => firmwareRelease s i
    | .fenced => if a = 2 ∧ (isl s i).cause.toNat = cDEBUG then s else firmwareRelease s i
    | _ => s

/-! ### The commands -/

/-- IS_CONTROL_RESET (R251, R276, R284, R808). -/
def execIsControlReset (agent : Agent) (island : Fin 16) (s : State) :
    Host.Outcome State Fault Refusal :=
  .next (isReach s agent (0x27000008 + 256 * island.val) (fun s => controlReset s agent island))

/-- IS_CONTROL_RELEASE (R253, R254, R284, R808). -/
def execIsControlRelease (agent : Agent) (island : Fin 16) (s : State) :
    Host.Outcome State Fault Refusal :=
  .next (isReach s agent (0x27000008 + 256 * island.val) (fun s => controlRelease s agent island))

/-- JTAG_FENCE_RELEASE (R797): a DEBUG fence ends without a reset. One that met the core of LK while
its image was being reloaded leaves the warm restart to end as R73 states. -/
def execJtagFenceRelease (island : Fin 16) (s : State) : Host.Outcome State Fault Refusal :=
  .next (if (isl s island).state = .fenced && (isl s island).cause.toNat = cDEBUG then
      if island = 0 ∧ s.sys.reloading = true then updIsl s 0 (fun x => { x with state := .restoring })
      else releaseIsland (if running s islLK then premarks s island else s) island
    else s)

end Sys2Proof.Machine
end

