-- ==== Sys2Proof/Machine/Loops.lean ====
section
/-! DEFINITION. Droop response, rails, the voltage and frequency loops and temperature (R264
to R274, R278, R282 to R286, R774). What the sensors read is part of the commands; when a loop
is due is the command's own doing. -/

namespace Sys2Proof.Machine

/-- The islands whose clock is generated on die (R26, R264, R265). -/
def ownClock (i : Nat) : Bool := i < 10 || i = 15

/-- The nominal clock of an island in kHz (R26). -/
def nominalKhz (i : Nat) : Nat :=
  match i with
  | 0 | 1 | 2 => 800000
  | 3 => 1200000
  | 4 => 400000
  | 5 | 6 | 7 | 8 => 1000000
  | 9 => 1000000
  | 14 => 250000
  | 15 => 100000
  | _ => 322270

/-- The lowest step of R271 at or above a floor (R283). -/
def floorK (i floor : Nat) : Nat :=
  ((List.range 9).map (· + 8)).foldl (fun m k =>
    if 16000 * floor ≤ k * nominalKhz i ∧ k < m then k else m) 16

/-! ### Droop (R264 to R267) -/

/-- DROOP_DETECTED (R264, R265, R267). -/
def execDroopDetected (island : Fin 16) (depthMv : BitVec 8) (s : State) :
    Host.Outcome State Fault Refusal :=
  .next (if !ownClock island || decide (depthMv.toNat < 30) then s
    else updIsl s island (fun x =>
      let x : Island := { x with depthMv := if x.depthMv < depthMv then depthMv else x.depthMv }
      if x.stretch then x
      else { x with stretch := true, stretchStart := s.tick, stretchMark := s.tick, droopCount := satAdd x.droopCount 1 }))

/-- STRETCH_END (R264): the microseconds of the stretch are counted as it ends. -/
def execStretchEnd (island : Fin 16) (s : State) : Host.Outcome State Fault Refusal :=
  .next (if (isl s island).stretch then
      updIsl s island (fun x => { x with
        stretch := false, stretchUs := satAdd x.stretchUs (ticksSince s x.stretchMark / 50) })
    else s)

/-- STRETCH_LONG (R267): the clock moves to the end of the first millisecond of the stretch. -/
def execStretchLong (island : Fin 16) (s : State) : Host.Outcome State Fault Refusal :=
  .next (if (isl s island).stretch then
      loopWarning (atTick s ((isl s island).stretchStart.toNat + 50000)) island 0xF island 7
    else s)

/-! ### The voltage loop (R268 to R270, R272, R273) -/

/-- The islands that a rail feeds (R268). -/
def railIslands (rail : Nat) : List Nat :=
  if rail = 0 then [0, 1, 2, 3, 4] else [5, 6, 7, 8, 9, 10, 11, 12, 13, 14, 15]

/-- The rail of an island. -/
def islandRail (i : Nat) : Nat := if i < 5 then 0 else 1

/-- A margin as the 8-bit field of IS_MARGIN holds it. -/
def marginField (m : Int) : BitVec 8 := BitVec.ofInt 8 (max (-128) (min 127 m))

/-- IS_MARGIN takes a reading (R284). -/
def noteMargin (s : State) (i : Nat) (m : Int) : State :=
  updIsl s i (fun x => { x with
    worstPs := marginField m,
    minPs := if (marginField m).toInt < x.minPs.toInt then marginField m else x.minPs })

/-- The caps of a rail's islands come into force at a step of its loop, each once its island runs
(R274, R283). -/
def takeCaps (s : State) (rail : Nat) : State :=
  (railIslands rail).foldl (fun s i =>
    if running s i then updIsl s i (fun x => { x with capAct := x.capMv, capOver := x.capOver && x.capAct = x.capMv })
    else s) s

/-- The lowest cap in force of a rail's islands, 900 where there is none (R271). -/
def railCap (s : State) (rail : Nat) : Nat :=
  (railIslands rail).foldl (fun m i =>
    let c := (isl s i).capAct.toNat
    if c = 0 then m else min m c) 900

/-- The ceiling of a rail: its lowest cap, but on rail 1 not below what the SerDes islands need
(R271, R273). -/
def railCeil (s : State) (rail needMv : Nat) : Nat :=
  if rail = 1 then min 900 (max (railCap s 1) needMv) else railCap s rail

/-- A cap below what the SerDes islands of rail 1 need: it is reported once, when the rail first does
not follow it (R273). -/
def capCheck (needMv : Nat) (s : State) (i : Nat) : State :=
  let x := isl s i
  let high := x.capAct ≠ 0 && decide (x.capAct.toNat < needMv)
  let s := if high && !x.capOver then policyConflict s islLK 0 i else s
  updIsl s i (fun x => { x with capOver := high })

/-- The ceiling of a rail follows its caps; on rail 1 a cap that it cannot follow is reported
(R271, R273). -/
def capRefused (s : State) (rail needMv : Nat) : State :=
  let s := takeCaps s rail
  let s := updRail s rail (fun r => { r with ceilMv := BitVec.ofNat 10 (railCeil s rail needMv) })
  if rail = 1 then (railIslands 1).foldl (capCheck needMv) s else s

/-- The present voltage of a rail: its setpoint, else the last read-back, else the regulators'
start-up voltage of 0.75 V (R270, R758; log entry 41). -/
def railNow (s : State) (rail : Nat) : Nat :=
  let r := railOf s rail
  if r.setMv ≠ 0 then r.setMv.toNat else if r.readMv ≠ 0 then r.readMv.toNat else 750

/-- The voltage that a step asks for (R269, R272): down to a cap, up by 5 mV where a margin is
below 50 ps, down by 5 mV where all have long been above 120 ps. -/
def railNext (ceil needMv now : Nat) (low settled : Bool) : Nat :=
  if ceil < now then max ceil (now - 5)
  else if low then min ceil (now + 5)
  else if settled then max (max 650 needMv) (now - 5)
  else now

/-- A rail that has reached 0.90 V with an island's margin still below 50 ps is reported once
(R286). -/
def railAtMax (s : State) (rail now : Nat) (low : Option (Nat × Int)) : State :=
  match low with
  | some (i, _) =>
    if 900 ≤ now ∧ (railOf s rail).atMax = false then
      loopWarning (updRail s rail (fun r => { r with atMax := true })) islLK 0 i 4
    else s
  | none => if now < 900 then updRail s rail (fun r => { r with atMax := false }) else s

/-- VOLTAGE_LOOP_STEP (R269, R272, R273, R286): `margins` are the margins in ps of the rail's
islands in ascending order, `settled` tells that all have been above 120 ps for 100 ms, and
`needMv` is what the SerDes islands of rail 1 need. -/
def execVoltageLoopStep (rail : Fin 2) (margins : List Int) (settled : Bool) (needMv : Nat)
    (s : State) : Host.Outcome State Fault Refusal :=
  .next (if !(railOf s rail).loopRun || !running s islPI then s
    else
      let l := (railIslands rail).zip margins
      let s := l.foldl (fun s p => noteMargin s p.1 p.2) s
      let s := capRefused s rail needMv
      let ceil := (railOf s rail).ceilMv.toNat
      let now := railNow s rail
      let low := l.find? (fun p => decide (p.2 < 50))
      let quiet := settled && l.all (fun p => decide (120 < p.2))
      let need := if rail.val = 1 then needMv else 0
      let s := railAtMax s rail now low
      let next := railNext ceil need now low.isSome quiet
      if next = now then s else avsCmd s rail 1 next)

/-! ### The frequency loop (R271, R272) -/

/-- FREQUENCY_LOOP_STEP (R271, R272): `held` tells that the margin has stayed below 30 ps for
100 µs, or above 80 ps for 100 ms. A floor comes into force once its island runs (R283), and only a
running island's clock is stepped. -/
def execFrequencyLoopStep (island : Fin 16) (margin : Int) (held : Bool) (s : State) :
    Host.Outcome State Fault Refusal :=
  .next (
    let s := noteMargin s island margin
    let s := if running s island then updIsl s island (fun x => { x with floorAct := x.floorMhz }) else s
    let x := isl s island
    let rail := islandRail island
    let k := x.k.toNat
    if !ownClock island || !held || !running s island then s
    else if margin < 30 then
      (if 8 < k ∧ (railOf s rail).ceilMv.toNat ≤ railNow s rail then
        let s := updIsl s island (fun x => { x with k := BitVec.ofNat 5 (k - 1) })
        if railCap s rail < 900 then policyConflict s islLK 0 island
        else if k - 1 < floorK island x.floorAct.toNat then loopWarning s islLK 1 island 1
        else s
      else s)
    else if 80 < margin ∧ k < 16 ∧ x.temp.toInt ≤ 300 then
      updIsl s island (fun x => { x with k := BitVec.ofNat 5 (k + 1) })
    else s)

/-! ### Temperature (R282, R774) -/

/-- IS_TEMP takes a reading, in half degrees, and THERM_N follows (R774). -/
def noteTemp (s : State) (i : Nat) (t : BitVec 11) : State :=
  let s := updIsl s i (fun x => { x with temp := t })
  let hot := (List.range 16).any (fun j => decide (290 ≤ (isl s j).temp.toInt))
  let cool := (List.range 16).all (fun j => decide ((isl s j).temp.toInt < 280))
  let level := if hot then false else if cool then true else s.pins.thermN
  if level = s.pins.thermN then s
  else emit { s with pins := { s.pins with thermN := level } } (.therm level)

/-- THERM_N (R774): a reading of an island's temperature. -/
def execThermN (island : Fin 16) (temp : BitVec 11) (s : State) : Host.Outcome State Fault Refusal :=
  .next (noteTemp s island temp)

/-- TEMP_HIGH (R282): a reading above 150 °C. -/
def execTempHigh (island : Fin 16) (temp : BitVec 11) (s : State) : Host.Outcome State Fault Refusal :=
  .next (
    let s := noteTemp s island temp
    if temp.toInt ≤ 300 then s
    else
      let s := if ownClock island then updIsl s island (fun x => { x with k := 8 }) else s
      loopWarning s island 1 island 8)

end Sys2Proof.Machine
end

