-- ==== Sys2Proof/Machine/Boot.lean ====
section
/-! DEFINITION. The boot ROM: verification of an image, the stages of the reset sequence,
the way to COMMISSION, and how a warm restart ends (R73, R78 to R89). -/

namespace Sys2Proof.Machine

/-! ### Images (R81, R86, R89) -/

/-- Where an image's bytes come from: `n` bytes from an offset on. -/
abbrev ImageBytes := Nat → Nat → List Byte

/-- `n` bytes of the flash. -/
def flashBytes (s : State) (base : Nat) : ImageBytes := fun off n =>
  (List.range n).map (fun i => Tab.get 0xFF s.flash (base + off + i))

/-- Slot 1 (A) and slot 2 (B) in the flash (R81). -/
def slotBase (k : Nat) : Nat := if k = 1 then 0x00100000 else 0x00200000

/-- A little-endian field of an image header (R89). -/
def hdr (g : ImageBytes) (off n : Nat) : Nat := leNat (g off n)

def imgMagic (g : ImageBytes) : Nat := hdr g 0x00 4
def imgKey (g : ImageBytes) : Nat := hdr g 0x06 1
def imgVersion (g : ImageBytes) : Nat := hdr g 0x08 4
def imgRollback (g : ImageBytes) : Nat := hdr g 0x0C 4
def imgLength (g : ImageBytes) : Nat := hdr g 0x10 4
def imgLoad (g : ImageBytes) : Nat := hdr g 0x14 4
def imgEntry (g : ImageBytes) : Nat := hdr g 0x18 4
def imgSequence (g : ImageBytes) : Nat := hdr g 0x1C 4

/-- Check 3 of R86. A KEY_INDEX above 3 names no key hash and fails check 4. -/
def headerOk (g : ImageBytes) : Bool :=
  decide (hdr g 0x04 2 = 1 ∧ imgLength g ≤ 0x80000 ∧ imgLoad g + imgLength g ≤ 0x80000
    ∧ imgLoad g ≤ imgEntry g ∧ imgEntry g < imgLoad g + imgLength g)

/-- The OTP key hash of an index (R87). -/
def keyHashOf (s : State) (k : Nat) : List Byte :=
  Tab.get (List.replicate 32 0) s.otp.keyHash k

/-- Verification by R86: 0, or the code of the first check that fails. `payload` is none where the
copy of the payload in Basin cannot be read, which fails check 7. -/
def verifyImage (s : State) (readOk : Bool) (g : ImageBytes) (payload : Option (List Byte)) : Nat :=
  if !readOk then 7
  else if imgMagic g ≠ 0x4B4C4B41 then 1
  else if !headerOk g then 2
  else if 4 ≤ imgKey g ∨ sha256 (g 0x80 64) ≠ keyHashOf s (imgKey g) then 3
  else if s.otp.revoked.getLsbD (imgKey g) then 4
  else if imgRollback g < s.otp.rollback.toNat then 5
  else if payload.any (fun p => ecdsaP256 (g 0x80 64) (g 0xC0 64) (sha256 (g 0 0xC0 ++ p))) then 0
  else 6

/-- An image whose payload follows its header (R89). -/
def verifyWhole (s : State) (readOk : Bool) (g : ImageBytes) : Nat :=
  verifyImage s readOk g (if headerOk g then some (g 0x100 (imgLength g)) else none)

/-- Verification of a slot in the flash, which island PI reads (R27); one that a failed write has left
unverifiable gives the code of that write (R198). -/
def verifySlot (s : State) (k : Nat) (readOk : Bool) : Nat :=
  if !(readOk && running s islPI) then 7
  else match Tab.find? s.flashBad k with
    | some c => c
    | none => verifyWhole s true (flashBytes s (slotBase k))

/-- The slot that R81 tries first, by which headers are readable. -/
def firstSlotOf (s : State) (headA headB : Bool) : Nat :=
  let a := imgSequence (flashBytes s (slotBase 1))
  let b := imgSequence (flashBytes s (slotBase 2))
  if headA && headB && decide (a < b) then 2 else 1

/-- Where in Basin the boot ROM puts the payload to verify it (R87; DESIGN CHOICE, log entry 53). -/
def imageBase : Nat := 0

/-- The boot ROM copies a payload into Basin and reads it there; none where Basin gives an error
(R87). -/
def copyPayload (s : State) (p : List Byte) (hit : Option (Fin 65536)) : State × Option (List Byte) :=
  match writeMem s 2 imageBase p with
  | (s, some _) => (s, none)
  | (s, none) =>
    let s := match hit with
      | some d => if 8 * d.val < p.length then strikeDw s (imageBase / 8 + d.val) else s
      | none => s
    match readMem s 2 imageBase p.length with
    | (s, .ok b) => (s, some b)
    | (s, .error _) => (s, none)

/-- The boot ROM verifies a slot (R86, R87): the code, and the payload that it verified. -/
def bootVerify (s : State) (k : Nat) (r : SlotReads) : State × Nat × List Byte :=
  let g := flashBytes s (slotBase k)
  if !(r.header && r.payload && running s islPI) then (s, 7, [])
  else match Tab.find? s.flashBad k with
    | some c => (s, c, [])
    | none =>
      if imgMagic g ≠ 0x4B4C4B41 ∨ headerOk g = false then (s, verifyImage s true g none, [])
      else
        let (s, p) := copyPayload s (g 0x100 (imgLength g)) r.hit
        (s, verifyImage s true g p, p.getD [])

/-- The verified payload in instruction RAM, and what the firmware knows of its image (R87, R89). An
image whose FW_VERSION major is not 3 is verified, loaded and run by the same rules: R12 withdraws
them there and gives nothing in their place (DESIGN CHOICE, log entry 53). -/
def loadImage (s : State) (k : Nat) (p : List Byte) : State :=
  let g := flashBytes s (slotBase k)
  let s := onSys s (fun x => { x with lkRam := pokeList [] (imgLoad g) p, reloading := false })
  onFw s (fun f => { f with version := w32 (imgVersion g), imgRollback := w32 (imgRollback g),
                            imgKey := BitVec.ofNat 2 (imgKey g) })

/-! ### Modes (R55, R60, R91) -/

/-- SYS_MODE takes a new mode (R91), and the change is recorded with the number of the first
cycle in it (R60). -/
def enterMode (s : State) (m : BitVec 4) (cause : Nat) : State :=
  let old := s.sys.mode
  let s := onSys s (fun x => { x with
    mode := m, prevMode := old, cause := BitVec.ofNat 4 cause, changeCount := x.changeCount + 1 })
  postCycleRec s islLK 0x03 0 (cycleNo s) (pack [(0, old.toNat), (4, m.toNat), (8, cause)]) 0

/-! ### The reset sequence (R78 to R85) -/

/-- A slot's TRIED bit (R94). -/
def tried (s : State) (k : Nat) : Bool := if k = 1 then s.sys.triedA else s.sys.triedB

def setTried (s : State) (k : Nat) (b : Bool) : State :=
  onSys s (fun x => if k = 1 then { x with triedA := b } else { x with triedB := b })

def setFail (s : State) (k code : Nat) : State :=
  onSys s (fun x => if k = 1 then { x with failA := BitVec.ofNat 4 code }
    else { x with failB := BitVec.ofNat 4 code })

/-- Try one slot: skip it, reject it, or start it (R82, R86, R93). -/
def trySlot (s : State) (k : Nat) (r : SlotReads) : State × Bool :=
  if tried s k then (setFail s k 9, false)
  else
    let (s, c, p) := bootVerify s k r
    if c ≠ 0 then (setFail s k c, false)
    else
      let s := loadImage (setTried s k true) k p
      (onSys s (fun x => { x with slot := BitVec.ofNat 2 k, stage := 6, wdtArmed := true, wdtStart := s.tick }),
        true)

/-- RECOVER with a cause (R80, R85); the boot ROM opens pages 0 to 15 to the host (R136). -/
def toRecover (s : State) (cause : Nat) : State :=
  setGuards (enterMode (onSys s (fun x => { x with stage := 7 })) mRECOVER cause) 0 16 3

/-- Stages 4 to 6 (R81 to R85). -/
def bootSlots (s : State) (sfdp : Sfdp) (readA readB : SlotReads) : State :=
  let s := onSys s (fun x => { x with
    stage := 5, sfdpOk := sfdp.ok, addr4 := sfdp.ok && sfdp.addr4,
    readLanes := if sfdp.ok then BitVec.ofNat 2 sfdp.lanes.val else 0 })
  let k := firstSlotOf s readA.header readB.header
  let rd (k : Nat) : SlotReads := if k = 1 then readA else readB
  match trySlot s k (rd k) with
  | (s, true) => s
  | (s, false) =>
    match trySlot s (3 - k) (rd (3 - k)) with
    | (s, true) => s
    | (s, false) => toRecover s 5

/-- RESET_RELEASE (R78 to R85): a device-level reset is released. `basinOk` is the result of
stage 2, `strapLow` what stage 3 samples, `sfdp` what stage 4 finds, and `readA` and `readB`
what the reads of a slot meet. What a command did to the device while it was held in
reset does not last. -/
def execResetRelease (basinOk strapLow : Bool) (sfdp : Sfdp) (readA readB : SlotReads) (s : State) :
    Host.Outcome State Fault Refusal :=
  .next (if !s.sys.inReset then s
    else
      let cause := s.sys.resetCause
      let s := deviceReset s rcPOR
      let s := onSys s (fun x => { x with resetCause := cause, inReset := false, powerOn := false, stage := 2 })
      if !basinOk then onSys s (fun x => { x with basinFail := true, halted := true })
      else if strapLow then toRecover (onSys s (fun x => { x with strap := true })) 6
      else bootSlots s sfdp readA readB)

/-! ### COMMISSION (R83, R270, R430) -/

/-- The push store's first page (R430; DESIGN CHOICE, log entry 42). -/
def pushPage : Nat := 64

/-- FIRMWARE_COMMISSION_REACHED (R55, R83, R270, R430). -/
def execFirmwareCommissionReached (s : State) : Host.Outcome State Fault Refusal :=
  .next (if s.sys.inReset || s.sys.commissioned || s.sys.stage ≠ 6 || !running s islLK then s
    else
      let k := s.sys.slot.toNat
      let s := onSys s (fun x => { x with commissioned := true })
      let s := updRail (updRail s 0 (fun r => { r with loopRun := true })) 1 (fun r => { r with loopRun := true })
      let s := onTp s (fun t => { t with pushBase := pushPage * 65536 })
      let s := onFw s (fun f => { f with fwRuns := f.fwRuns.put pushPage (pushSize / 65536) })
      let s := (List.range 8).foldl (fun s n => deckBoot s n) s
      let s := cvStart (enterMode (setTried s k false) mCOMMISSION 0)
      if tried s (3 - k) then
        postRec s islLK 0x04 0 (pack [(0, s.sys.failA.toNat), (4, s.sys.failB.toNat)]) 0
      else s)

/-! ### The end of a warm restart (R73, R183, R250, R254) -/

/-- The device-level reset that ends a warm restart which cannot resume: of the kind whose
cause began it (DEDUCED, log entry 38). -/
def failedRestart (s : State) : State :=
  deviceReset s (if (isl s islLK).cause.toNat = cWATCHDOG then rcWDTDEV else rcFENCEDEV)

/-- WARM_RESTART_RESUME (R73, R87, R250, R254): `reads` is what the reads of the slot meet, `modeOk`
tells that the recorded mode can be read. FAIL_A and FAIL_B keep what the boot left (R93; log entry
53). -/
def execWarmRestartResume (reads : SlotReads) (modeOk : Bool) (s : State) :
    Host.Outcome State Fault Refusal :=
  .next (if (isl s islLK).state ≠ .restoring then s
    else
      let k := s.sys.slot.toNat
      let (s, c, p) := bootVerify s k reads
      if !modeOk || c ≠ 0 then failedRestart s
      else
        let s := loadImage s k p
        let s := onSys s (fun x => { x with wdtArmed := true, wdtStart := s.tick })
        let s := onFw s (fun f => { f with restarted := true, wdStart := s.tick })
        releaseIsland s islLK)

end Sys2Proof.Machine
end

