-- ==== Sys2Proof/Machine/Cycle.lean ====
section
/-! DEFINITION. The Towline cycle boundary: mode changes and what they do, what takes effect
at a boundary, and the frames of the new cycle (R46 to R65, R69, R73, R289, R495, R497, R521
to R529, R594, R798). -/

namespace Sys2Proof.Machine

/-! ### Modes (R55, R56, R64, R69, R798) -/

/-- The targets that SET_MODE may name in a mode (R55). -/
def mayGo (m t : BitVec 4) : Bool :=
  if m = mCOMMISSION then t = mRUN || t = mSERVICE || t = mHOLD
  else if m = mRUN then t = mCOMMISSION || t = mWASH || t = mSERVICE || t = mHOLD
  else if m = mDEGRADED then t = mWASH || t = mSERVICE || t = mHOLD
  else if m = mWASH then t = mRUN || t = mHOLD
  else if m = mSERVICE then t = mCOMMISSION || t = mRUN || t = mHOLD
  else if m = mHOLD then t = mCOMMISSION || t = mRUN || t = mSERVICE
  else false

/-- The modes in which the host watchdog acts (R64). -/
def watched (m : BitVec 4) : Bool := m = mRUN || m = mDEGRADED || m = mWASH

/-- A mode that runs cycles: the firmware's six (R46). -/
def cyclic (m : BitVec 4) : Bool := m ≠ mBOOT && m ≠ mRECOVER

/-- The host watchdog's period has run out (R62, R64). -/
def wdOut (s : State) : Bool :=
  s.fw.wdPeriod ≠ 0 && decide (s.fw.wdPeriod * 50000 ≤ ticksSince s s.fw.wdStart)

/-- HOST_WATCHDOG_EXPIRY (R62, R64): the clock moves to the end of the period. The firmware tests the
watchdog at the next boundary, so a command that it accepts before that starts the period afresh
(R63). -/
def execHostWatchdogExpiry (s : State) : Host.Outcome State Fault Refusal :=
  .next (if !fwRuns s || s.fw.wdPeriod = 0 then s
    else atTick s (s.fw.wdStart.toNat + s.fw.wdPeriod * 50000))

/-- Host watchdog expiry cancels a SET_MODE in progress (R69). -/
def cancelSetMode (s : State) : State :=
  onFw s (fun f => { f with waiting := f.waiting.map (fun p => match p.2 with
    | .setMode h c t a _ => (p.1, .setMode h c t a true)
    | _ => p) })

/-! ### What a mode change does -/

/-- A REBIND_STATION whose scene part waits is cancelled: ABORTED, and neither part is made that has
not taken effect (R52, R187; DEDUCED, log entry 43). -/
def abortRebind (s : State) (k : Nat) : State :=
  s.fw.waiting.foldl (fun s p => match p.2 with
    | .rebind h c st (some _) _ _ => if st = k then endWaiting s p.1 h c stABORTED [] else s
    | _ => s) s

/-- Stations with a wash scene show it, or their own scene again (R49). -/
def washScenes (s : State) (on : Bool) : State :=
  (stationIds s).foldl (fun s k =>
    match stationOf s k with
    | none => s
    | some t =>
      match t.wash with
      | none => s
      | some w => bindScene (abortRebind s k) k (if on then w else t.home)) s

/-- Forcing ends (R197). -/
def endForcing (s : State) : State :=
  (stationIds s).foldl (fun s k => updStation s k (fun t =>
    { t with force := List.replicate 64 0, fmask := List.replicate 64 0, pendForce := none })) s

/-- What a change of mode does beside SYS_MODE (R46 to R50, R197, R464, R526, R594). -/
def modeEffects (s : State) (old new : BitVec 4) : State :=
  let s := if outputPolicy old = outputPolicy new then s else abandonWrites s
  let s := if old = mSERVICE then endForcing s else s
  let s := if old = mWASH then washScenes s false else s
  let s := silenceMixes (if new = mWASH then washScenes s true else s)
  let s := if old = mHOLD then deckUnhold s else s
  if new = mHOLD then deckHold (onCv s (fun c => { c with keyOffDue := some s.tick.toNat })) else s

/-- A mode change at a boundary. -/
def changeMode (s : State) (m : BitVec 4) (cause : Nat) : State :=
  let old := s.sys.mode
  modeEffects (enterMode s m cause) old m

/-- The automatic change that is due (R55, R57, R64, R798). -/
def autoMode (s : State) : State :=
  if watched s.sys.mode && wdOut s then changeMode (cancelSetMode s) mHOLD 4
  else if s.sys.mode = mRUN ∧ anyFenced s = true then changeMode s mDEGRADED 2
  else if s.sys.mode = mDEGRADED ∧ anyFenced s = false then changeMode s mRUN 3
  else s

/-- A SET_MODE that is due (R55, R56, R59, R69, R798). -/
def dueMode (s : State) (m : Nat) (h crc : Word) (t : BitVec 4) (cancelled : Bool) : State :=
  if cancelled then endWaiting s m h crc stABORTED []
  else if t = s.sys.mode then endWaiting s m h crc stOK [t.setWidth 32]
  else if !mayGo s.sys.mode t then endWaiting s m h crc stWRONG_MODE []
  else
    let divert := t = mRUN ∧ anyFenced s = true
    let new := if divert then mDEGRADED else t
    let old := s.sys.mode
    let s := enterMode s new (if divert then 2 else 1)
    modeEffects (endWaiting s m h crc stOK [new.setWidth 32]) old new

/-- Every SET_MODE accepted before the boundary's tick (R798). -/
def dueModes (s : State) (at_ : Nat) : State :=
  s.fw.waiting.foldl (fun s p => match p.2 with
    | .setMode h c t a x =>
      if a.toNat < at_ then caused (dueMode (causes s p.1) p.1 h c t x) else s
    | _ => s) s

/-- SYS_MODE after a warm restart (R73). -/
def afterRestart (s : State) : State :=
  if !s.fw.restarted then s
  else
    let m := s.fw.recordedMode
    let s := onSys s (fun x => { x with mode := m })
    enterMode (onFw s (fun f => { f with restarted := false })) m 7

/-- The modes at a boundary: the firmware decides them, so none changes while it does not run
(R74). -/
def boundaryModes (s : State) (at_ : Nat) : State :=
  if !fwRuns s then s
  else
    dueModes (autoMode (afterRestart s)) at_

/-! ### What else takes effect at a boundary -/

/-- A station's exchange ends, and its index is free (R194, R805). -/
def endStation (s : State) (k : Nat) (t : Station) : State :=
  let s := dropFrames s t.lane t.addr
  let s := updLane s t.lane (fun x => { x with
    frames := x.frames.filter (fun f => f.station.toNat ≠ t.addr % 256) })
  let s := onTl s (fun x => { x with stations := Tab.erase x.stations k })
  freeAll (onTp s (fun x => { x with recv := Tab.erase x.recv k }))

/-- A station's changes: its end, its start, its defaults, its forcing (R193 to R195, R197,
R529), each of a command accepted before the boundary's tick (R798). A station that starts is a
frame-latched change of its scene (R301, R307). -/
def boundaryStation (at_ : Nat) (s : State) (k : Nat) : State :=
  match stationOf s k with
  | none => s
  | some t =>
    if t.ending && decide (t.endAt.toNat < at_) then endStation s k t
    else
      let fresh := !t.started && decide (t.boundAt.toNat < at_)
      let t := match t.pendDef with
        | none => t
        | some (w, a, m) =>
          if w.toNat < at_ then { t.newConfig with safe := a, mask := m, pendDef := none } else t
      let t := match t.pendForce with
        | none => t
        | some (w, v, m) =>
          if w.toNat < at_ then { t with force := v, fmask := m, pendForce := none } else t
      let s := setStation s k { t with started := t.started || fresh }
      if fresh then
        oweAll (updScene s t.scene (fun c => c.rollback (c.pos (c.nextStart at_, 0)))) k
      else s

/-- The address part of a waiting REBIND_STATION (R192, R527): unsent pieces are cancelled, pieces
sent and not acknowledged are lost, and the whole window is owed (R424). -/
def moveStation (s : State) (k a : Nat) : State :=
  match stationOf s k with
  | none => s
  | some t =>
    let s := dropFrames s t.lane t.addr
    let s := setStation s k { t with addr := a, write := none }
    let s := enterConfig s k
    let s := ((recvOf s k).pieces.filter (fun p => p.sent.isSome)).foldl (fun s p => losePiece s k p) s
    oweAll s k

/-- Every address part that waits takes effect, unless a fence ended its command or it was accepted
in the boundary's tick (R798). -/
def boundaryRebinds (s : State) (at_ : Nat) : State :=
  if !fwRuns s then s
  else s.fw.waiting.foldl (fun s p => match p.2 with
    | .rebind h c st sc (some (w, a)) false =>
      if w.toNat < at_ then
        caused (onFw (moveStation (causes s p.1) st a) (fun f => { f with
          waiting := Tab.put f.waiting p.1 (.rebind h c st sc none false) }))
      else s
    | _ => s) s

/-- Beams start, each of a scene created before the boundary's tick (R289, R798). -/
def startBeams (s : State) (at_ : Nat) : State :=
  onTp s (fun t => { t with scenes := t.scenes.map (fun p =>
    (p.1, if p.2.start.isNone && decide (p.2.madeAt.toNat < at_) then
        { p.2 with start := some (BitVec.ofNat 64 at_) } else p.2)) })

/-! ### The frames of the new cycle -/

/-- The downstream CYCLE frame of a lane (R490, R495, R497). -/
def cycleFrame (s : State) (l : Nat) : Frame :=
  { lane := l, type := 0x01, station := 0xFF, cycle := cycleNo s, seq := 0, session := 0,
    payload := beBytes 8 s.tl.cyc.tick.toNat ++ beBytes 4 s.tl.cyc.period }

/-- One lane at a boundary: its CYCLE frame, then what it queues. -/
def boundaryLane (s : State) (l : Nat) : State :=
  let s := updLane s l (fun x => { x with configs := 0 })
  let s := if laneSends s l then sendFrame s (cycleFrame s l) else s
  if laneRuns s l then queueAudio (queueConfigs s l) l else s

/-- The cycle begins (R495, R507, R516). -/
def beginCycle (s : State) (at_ : Nat) : State :=
  let s := atTick s at_
  let due := s.tl.cyc.nextPeriod.filter (fun p => p.1.toNat < at_)
  onTl s (fun t => { t with cyc := { t.cyc with
    begun := true, number := if t.cyc.begun then t.cyc.number + 1 else t.cyc.number,
    tick := BitVec.ofNat 64 at_, period := (due.map (·.2)).getD t.cyc.period,
    nextPeriod := if due.isSome then none else t.cyc.nextPeriod, cutDone := false } })

/-- Everything a boundary does. -/
def cycleBoundary (s : State) : State :=
  let at_ := nextBoundary s
  let s := boundaryModes (beginCycle s at_) at_
  let s := (stationIds s).foldl (boundaryStation at_) s
  let s := startBeams (boundaryRebinds s at_) at_
  let s := (stationIds s).foldl (fun s k => formOutput s (cycleNo s) k) s
  (List.range 8).foldl boundaryLane s

/-- CYCLE_BOUNDARY (R495): the clock moves to the boundary. BOOT and RECOVER have none
(R46). -/
def execCycleBoundary (s : State) : Host.Outcome State Fault Refusal :=
  .next (if s.sys.inReset || !cyclic s.sys.mode then s else cycleBoundary s)

end Sys2Proof.Machine
end

