-- ==== Sys2Proof/Machine/RegSys.lean ====
section
/-! DEFINITION. Register reads and writes of the shared blocks, by offset: SYS, the
Lockkeeper's own registers, the mailboxes, the host window, Weir, the banks, island control
and the interrupt controller (chapters 02, 03, 05, 06, 16 and 20). -/

namespace Sys2Proof.Machine

/-- The word listed at an offset; every other offset reads as RSV (R24, R45). -/
def pick (o : Nat) (l : List (Nat × Word)) : Word :=
  ((l.find? (fun p => p.1 = o)).map (·.2)).getD 0

/-- Read a register: an error for an agent that does not reach it, or while its island is
fenced (R247, R793). -/
def guardR (ok up : Bool) (s : State) (f : State → State × Word) : State × Except Err Word :=
  if !ok then (s, .error .unmapped)
  else if !up then (s, .error .fenced)
  else let (s, w) := f s; (s, .ok w)

/-- Write a register under the same checks. -/
def guardW (ok up : Bool) (s : State) (f : State → State) : State × Option Err :=
  if !ok then (s, some .unmapped)
  else if !up then (s, some .fenced)
  else (f s, none)

/-! ### SYS (R90 to R95, R153, R794, R795) -/

def sysWord (x : Sys) (o : Nat) : Word := pick o [
  (0x10, 0x00B12160),
  (0x20, pack [(0, x.mode.toNat), (4, x.prevMode.toNat), (8, x.cause.toNat), (16, x.changeCount.toNat)]),
  (0x24, x.resetCause.setWidth 32),
  (0x28, pack [(0, x.stage.toNat), (4, x.slot.toNat), (8, x.failA.toNat), (12, x.failB.toNat),
    (16, b2n x.sfdpOk), (17, b2n x.addr4), (18, x.readLanes.toNat), (20, b2n x.strap),
    (21, b2n x.basinFail)]),
  (0x2C, pack [(0, b2n x.triedA), (1, b2n x.triedB)])]

/-- A read of a SYS register; a read of SYS_TICK_LO latches the high word (R153). -/
def sysRead (s : State) (a o : Nat) : State × Word :=
  if o = 0 then
    (onSys s (fun x => { x with tickHi := x.tickHi.set 0 a ((s.tick >>> 32).truncate 32) }),
      s.tick.truncate 32)
  else if o = 4 then (s, s.sys.tickHi.get 0 a)
  else (s, sysWord s.sys o)

/-- A write to a SYS register (R92, R94, R794, R795): the Lockkeeper clears reset causes, and
the Lockkeeper and debug write SYS_BOOT_RETAIN, while the core of LK runs. -/
def sysWrite (s : State) (a o : Nat) (v : Word) : State :=
  if !running s islLK then s
  else if o = 0x24 ∧ a = 2 then
    onSys s (fun x => { x with resetCause := x.resetCause &&& ~~~ v.setWidth 9 })
  else if o = 0x2C ∧ fwAgent a = true then
    onSys s (fun x => { x with triedA := bit v 0, triedB := bit v 1 })
  else s

/-! ### The Lockkeeper's private range (R789 to R791) -/

/-- REMAIN_MS of the Lockkeeper watchdog (R791). -/
def wdtRemain (s : State) : Nat := (50000000 - ticksSince s s.sys.wdtStart) / 50000

def lkWord (s : State) (o : Nat) : Word :=
  let x := s.sys
  pick o [(0x00, 0x20), (0x04, x.lkEpc.setWidth 32), (0x08, x.lkEstat), (0x0C, x.lkEcause),
    (0x10, x.lkEaddr), (0x14, x.lkVbase.setWidth 32), (0x1C, x.lkTimer), (0x30, x.lkWlatch),
    (0x34, x.lkRlatch),
    (0x44, if x.wdtArmed then pack [(0, 1), (16, wdtRemain s)] else 0)]

def lkRegWrite (s : State) (o : Nat) (v : Word) : State :=
  onSys s (fun x =>
    if o = 0x04 then { x with lkEpc := v.setWidth 18 }
    else if o = 0x08 then { x with lkEstat := (v &&& 0x7F) ||| 0x20 }
    else if o = 0x14 then { x with lkVbase := v.setWidth 18 }
    else if o = 0x1C then { x with lkTimer := v }
    else if o = 0x30 then { x with lkWlatch := v }
    else if o = 0x34 then { x with lkRlatch := v }
    else if o = 0x40 ∧ x.wdtArmed = true then { x with wdtStart := s.tick }
    else x)

/-- A read in the private range, by its offset. The contents of the boot ROM are not given:
a free value (log entry 46). -/
def lkRead (s : State) (o : Nat) : State × Word :=
  if o < 0x80000 then
    (s, leWord ((List.range 4).map (fun i => Tab.get 0 s.sys.lkRam (o + i))))
  else if 0x100000 ≤ o ∧ o < 0x110000 then
    let (s, v) := drawFree s
    (s, v.truncate 32)
  else if 0x200000 ≤ o ∧ o < 0x200100 then (s, lkWord s (o - 0x200000))
  else (s, 0)

def lkWrite (s : State) (o : Nat) (v : Word) : State :=
  if o < 0x80000 then
    onSys s (fun x => { x with lkRam := pokeList x.lkRam o (leBytes 4 v.toNat) })
  else if 0x200000 ≤ o ∧ o < 0x200100 then lkRegWrite s (o - 0x200000) v
  else s

/-! ### The mailboxes (R98, R118, R145 to R150, R799) -/

/-- MB_TX_STATUS (R146). -/
def Queue.txWord (q : Queue) : Word :=
  pack [(0, q.free), (4, b2n q.openStamp.isSome), (8, (q.openStamp.getD 0).toNat),
    (16, q.discard.toNat)]

/-- MB_RX_STATUS (R147). -/
def Queue.rxWord (q : Queue) : Word :=
  pack [(0, q.words.length), (4, (q.words.filter (·.eom)).length),
    (8, ((q.words.head?.map (fun (x : QWord) => x.stamp)).getD 0).toNat), (12, b2n q.words.head?.isSome)]

/-- MB_RX_META (R148). -/
def Side.metaWord (x : Side) : Word :=
  pack [(0, x.metaStamp.toNat), (4, b2n x.metaEom), (5, b2n x.metaValid)]

/-- The offsets of a side's registers (R145), the burst aliases among them. -/
def sideReg (o : Nat) : Bool :=
  o = 0 || o = 4 || o = 8 || o = 0x10 || o = 0x14 || o = 0x18 || o = 0x20 || o = 0x24
    || (0x40 ≤ o && o < 0x60)

def mbSideRead (s : State) (a m : Nat) (b aligned : Bool) (o : Nat) : State × Word :=
  if !sideReg o then (s, 0)
  else if !(aligned && sideAllows m b a) then (flagSide s m b iACCESS_ERR, 0)
  else if o = 0x10 then rxPop s m b
  else
    let x := mbxOf s m
    let d := sideOf x b
    (s, pick o [(8, (txQueue x b).txWord), (0x14, d.metaWord), (0x18, (txQueue x (!b)).rxWord),
      (0x20, d.status.setWidth 32), (0x24, d.enable.setWidth 32)])

/-- Clear bits of MB_IRQ_STATUS (R149); the interrupt follows (R109). -/
def clearIrq (s : State) (m : Nat) (b : Bool) (v : Word) : State :=
  let d := sideOf (mbxOf s m) b
  let s := updMbx s m (fun y => y.setSide b { d with status := d.status &&& ~~~ v.setWidth 8 })
  if m < 8 ∧ b = false then s else driveSide s m b

def mbSideWrite (s : State) (a m : Nat) (b aligned : Bool) (o : Nat) (v : Word) : State :=
  if !sideReg o then s
  else if !(aligned && sideAllows m b a) then flagSide s m b iACCESS_ERR
  else if o = 0 ∨ 0x40 ≤ o then enqueue s a m b v false
  else if o = 4 then enqueue s a m b v true
  else if o = 0x20 then clearIrq s m b v
  else if o = 0x24 then irqEnWrite s a m b true v
  else s

/-- A read in the range of a mailbox, by its offset within the mailbox. -/
def mbRead (s : State) (a m : Nat) (aligned : Bool) (o : Nat) : State × Word :=
  if 24 ≤ m then (s, 0)
  else if o = 0x200 ∨ o = 0x204 then
    (if !(aligned && lockAllows m a) then (lockErr s m, 0)
     else if o = 0x204 then (s, (mbxOf s m).lock.setWidth 32)
     else let (s, w) := mbLockRead s a m true; (s, w.getD 0))
  else if o < 0x100 then mbSideRead s a m false aligned o
  else if o < 0x200 then mbSideRead s a m true aligned (o - 0x100)
  else (s, 0)

def mbWrite (s : State) (a m : Nat) (aligned : Bool) (o : Nat) (v : Word) : State :=
  if 24 ≤ m then s
  else if o = 0x200 then mbLockWrite s a m aligned
  else if o = 0x204 then (if aligned && lockAllows m a then s else lockErr s m)
  else if o < 0x100 then mbSideWrite s a m false aligned o v
  else if o < 0x200 then mbSideWrite s a m true aligned (o - 0x100) v
  else s

/-! ### The host window (R151, R152) -/

/-- MB_WIN_GUARDk (R151). -/
def guardWord (s : State) (k : Nat) : Word :=
  pack ((List.range 16).map (fun j => (2 * j, (s.win.guards.get 0 (16 * k + j)).toNat)))

/-- A read of a host-window register; COUNT is RC. -/
def winRead (s : State) (o : Nat) : State × Word :=
  let w := s.win
  if o = 0 then
    (onWin s (fun w => { w with count := 0 }), pack [(0, w.status.toNat), (24, w.count.toNat)])
  else if o = 4 then
    (s, pack [(0, w.errAddr.toNat), (26, b2n w.errBar0), (31, b2n w.errValid)])
  else if 0x100 ≤ o ∧ o < 0x200 then (s, guardWord s ((o - 0x100) / 4))
  else (s, 0)

def winWrite (s : State) (o : Nat) (v : Word) : State :=
  if o = 0 then
    onWin s (fun w =>
      let st := w.status &&& ~~~ v.setWidth 6
      if st = 0 then { w with status := 0, errAddr := 0, errBar0 := false, errValid := false }
      else { w with status := st })
  else if 0x100 ≤ o ∧ o < 0x200 then
    (List.range 16).foldl (fun s j =>
      setGuards s (16 * ((o - 0x100) / 4) + j) 1 (BitVec.ofNat 2 (fld v (2 * j) 2))) s
  else s

/-! ### Weir (R214, R218, R237 to R240) -/

/-- The context registers, which read 0 and drop writes for an agent without one (R214). -/
def ctxReg (o : Nat) : Bool := (0x100 ≤ o && o ≤ 0x120) || o = 0x200 || o = 0x204

def ctxWord (s : State) (a o : Nat) : Word :=
  let c := ctxOf s a
  pick o [(0x100, c.addr.setWidth 32), (0x104, c.cmp.setWidth 32), (0x108, (c.cmp >>> 32).setWidth 32),
    (0x10C, c.new.setWidth 32), (0x110, (c.new >>> 32).setWidth 32),
    (0x118, c.old.setWidth 32), (0x11C, (c.old >>> 32).setWidth 32),
    (0x120, pack [(0, c.result.toNat), (4, b2n c.corrected), (5, b2n c.op)]),
    (0x200, c.prio.setWidth 32),
    (0x204, match inherit? s a with
      | some (p, n) => pack [(0, p), (16, n), (31, 1)]
      | none => 0),
    (0x208, (isl s (islBank 0)).epoch.setWidth 32)]

def lockInfo (c : LockCell) : Word :=
  pack [(0, c.owner.toNat), (4, c.reservee.toNat), (8, b2n c.broken), (16, c.waiters.toNat)]

/-- A read in 0x2600_0000 to 0x2607_FFFF, by its offset. -/
def weirRead (s : State) (a o : Nat) : State × Except Err Word :=
  if !weirAgent a && ctxReg o && running s (islBank 0) then (s, .ok 0)
  else if 0x10000 ≤ o ∧ o < 0x12000 ∧ o % 8 = 0 then lockReadReg s a ((o - 0x10000) / 8)
  else guardR (weirAgent a) (running s (islBank 0)) s (fun s =>
    if o = 0x118 ∨ o = 0x11C ∨ o = 0x120 then
      let s := weirWait s a
      (s, ctxWord s a o)
    else
      let s := weirCatch s a
      (s, if 0x10000 ≤ o ∧ o < 0x12000 then lockInfo (cellOf s ((o - 0x10000) / 8)) else ctxWord s a o))

/-- A write of a context register (R218, R237, R242). -/
def ctxWrite (s : State) (a o : Nat) (v : Word) : State :=
  weirTake s a (if o = 0x114 then .go (bit v 0) else .write o v)

def weirWrite (s : State) (a o : Nat) (v : Word) : State × Option Err :=
  if !weirAgent a && ctxReg o && running s (islBank 0) then (s, none)
  else if 0x10000 ≤ o ∧ o < 0x12000 ∧ o % 8 = 0 then lockWriteReg s a ((o - 0x10000) / 8)
  else guardW (weirAgent a) (running s (islBank 0)) s (fun s => ctxWrite s a o v)

/-! ### The banks (R241) -/

/-- BS_INJECT (R236, R241). -/
def Bank.injectWord (b : Bank) : Word :=
  pack [(0, b.checkFlip.toNat), (8, b.dataBitA.toNat), (14, b2n b.enA), (16, b.dataBitB.toNat),
    (22, b2n b.enB), (31, b2n b.arm)]

def bankRead (s : State) (b o : Nat) : State × Word :=
  let r := bankRegs s b
  let w := pick o [(0x00, r.ceCount), (0x04, r.ueCount),
    (0x08, pack [(0, r.errAddr.toNat), (31, b2n r.errValid)]),
    (0x0C, pack [(0, r.syndrome.toNat), (8, b2n r.errUe), (12, r.errAgent.toNat)]),
    (0x10, pack [(0, r.scrubPos.toNat), (24, r.passes.toNat)]),
    (0x14, w32 (poisonCount s b)), (0x18, r.injectWord)]
  (if o = 0 then updBank s b (fun x => { x with ceCount := 0 })
   else if o = 4 then updBank s b (fun x => { x with ueCount := 0 })
   else s, w)

def bankWrite (s : State) (b o : Nat) (v : Word) : State :=
  if o = 0x18 then
    updBank s b (fun x => { x with
      checkFlip := v.setWidth 8, dataBitA := BitVec.ofNat 6 (fld v 8 6), enA := bit v 14,
      dataBitB := BitVec.ofNat 6 (fld v 16 6), enB := bit v 22, arm := bit v 31 })
  else s

/-- A read in 0x2608_0000 and above, by its offset: bank b at b × 0x1000. -/
def bsRead (s : State) (a o : Nat) : State × Except Err Word :=
  if 0x4000 ≤ o then guardR (fwAgent a) true s (fun s => (s, 0))
  else guardR (fwAgent a) (running s (islBank (o / 0x1000))) s
    (fun s => bankRead s (o / 0x1000) (o % 0x1000))

/-- A write in 0x2608_0000 and above: the Lockkeeper alone writes BS_INJECT, in SERVICE alone
(R236); any other write changes nothing. -/
def bsWrite (s : State) (a o : Nat) (v : Word) : State × Option Err :=
  if 0x4000 ≤ o then guardW (fwAgent a) true s id
  else guardW (fwAgent a) (running s (islBank (o / 0x1000))) s
    (fun s => if a = 2 ∧ s.sys.mode = mSERVICE then bankWrite s (o / 0x1000) (o % 0x1000) v else s)

/-! ### Island control (R284, R285) -/

/-- STATE of IS_STATE: HI shows 3 while PERST# holds the host agent in reset (R70). -/
def islandCode (s : State) (i : Nat) : Nat :=
  match (isl s i).state with
  | .running => if i = islHI ∧ hostInReset s = true then 3 else 0
  | .fencing => 1
  | .fenced => 2
  | .inReset => 3
  | .restoring => 4
  | .held => 5

/-- IS_STRETCH_TIME: the stretches that ended, and the present one so far (R284). -/
def stretchTime (s : State) (x : Island) : Word :=
  if x.stretch then satAdd x.stretchUs (ticksSince s x.stretchMark / 50) else x.stretchUs

/-- The requests that wait for an answer of an island (R245, R284): the bursts of Sluice in flight
toward it, the Weir operations in progress in its bank, and the requests that wait at Weir. -/
def outstanding (s : State) (i : Nat) : Nat :=
  let bursts := s.sl.chans.foldl (fun n p =>
    n + (p.2.flight.filter (fun b => burstIslands p.2 b |>.contains i)).length) 0
  let ops := (s.weir.ctx.filter (fun p => p.2.busy.any (fun o => i = islBank (bankOf o.2.1)))).length
  let held := if i = islBank 0 then s.weir.ctx.foldl (fun n p => n + p.2.waits.length) 0 else 0
  bursts + ops + held

def islandWord (s : State) (i o : Nat) : Word :=
  let x := isl s i
  pick o [(0x00, pack [(0, islandCode s i), (8, x.cause.toNat)]), (0x04, x.epoch.setWidth 32),
    (0x0C, pack [(0, x.k.toNat), (5, b2n x.stretch), (16, x.floorMhz.toNat)]),
    (0x10, pack [(0, x.worstPs.toNat), (8, x.minPs.toNat), (16, x.capMv.toNat)]),
    (0x14, pack [(0, x.droopCount.toNat), (16, x.depthMv.toNat)]),
    (0x18, stretchTime s x), (0x1C, x.temp.setWidth 32),
    (0x20, pack [(0, min 15 (recentOf s i).length), (16, x.total.toNat)]),
    (0x24, pack [(0, min 255 (outstanding s i)), (8, x.timeouts.toNat)])]

/-- The RC fields of an island's registers. -/
def Island.readClear (x : Island) (now : Dword) (o : Nat) : Island :=
  if o = 0x10 then { x with minPs := 0x7F }
  else if o = 0x14 then { x with droopCount := 0, depthMv := 0 }
  else if o = 0x18 then { x with stretchUs := 0, stretchMark := now }
  else if o = 0x24 then { x with timeouts := 0 }
  else x

def railWord (s : State) (n : Nat) : Word :=
  let r := railOf s n
  pack [(0, r.setMv.toNat), (10, r.readMv.toNat), (20, r.ceilMv.toNat), (30, b2n r.avsLost),
    (31, b2n r.loopRun)]

/-- IS_FENCE_MAP with HI as islandCode shows it (R285). -/
def fenceMapWord (s : State) : Word :=
  pack ((List.range 16).map (fun i => (i, b2n (islandCode s i ≠ 0))))

def isRead (s : State) (o : Nat) : State × Word :=
  if o < 0x1000 then
    (updIsl s (o / 0x100) (fun x => x.readClear s.tick (o % 0x100)), islandWord s (o / 0x100) (o % 0x100))
  else (s, pick o [(0x1000, fenceMapWord s), (0x1004, railWord s 0), (0x1008, railWord s 1)])

def isWrite (s : State) (a o : Nat) (v : Word) : State :=
  let i := o / 0x100
  if 0x1000 ≤ o then s
  else if o % 0x100 = 0x08 then
    let s := if bit v 0 then fenceIsland s i cCOMMAND else s
    let s := if bit v 1 then controlReset s a i else s
    if bit v 2 then controlRelease s a i else s
  else if o % 0x100 = 0x0C then updIsl s i (fun x => { x with floorMhz := BitVec.ofNat 12 (fld v 16 12) })
  else if o % 0x100 = 0x10 then updIsl s i (fun x => { x with capMv := BitVec.ofNat 10 (fld v 16 10) })
  else s

/-! ### The interrupt controller (R660 to R663) -/

def Kind.code : Kind → Nat
  | .edge => 0
  | .level => 1
  | .soft => 2

/-- IC_SH_CFG or IC_PR_CFG (R663). -/
def Src.cfgWord (x : Src) (k : Kind) (shared : Bool) : Word :=
  pack ([(0, x.prio.toNat), (4, b2n x.en), (6, k.code)]
    ++ if shared then [(5, b2n x.mode), (8, x.targets.toNat), (20, x.target.toNat)] else [])

/-- IC_SH_STATE or IC_PR_STATE (R663). -/
def Src.stateWord (x : Src) (k : Kind) (shared : Bool) : Word :=
  pack [(0, x.count.toNat), (8, b2n (k = .level && x.input)), (9, b2n x.ovf),
    (10, b2n x.holder.isSome), (11, b2n x.perr), (12, if shared then x.holder.getD 0 else 0)]

/-- Write a source's configuration (R663). -/
def Src.setCfg (x : Src) (shared : Bool) (v : Word) : Src :=
  let y := { x with prio := v.setWidth 4, en := bit v 4 }
  if shared then
    { y with mode := bit v 5, targets := BitVec.ofNat 9 (fld v 8 9), target := BitVec.ofNat 4 (fld v 20 4) }
  else y

/-- Write a source's state: OVF and PERR are W1C, DISCARD clears COUNT (R663). -/
def Src.setState (x : Src) (v : Word) : Src :=
  { x with ovf := x.ovf && !bit v 9, perr := x.perr && !bit v 11,
           count := if bit v 31 then 0 else x.count }

/-- A source register's bank and number and whether it is the state word, by the offset
within the IC; none outside both tables. -/
def srcAt (o : Nat) : Option (Bool × Nat × Nat × Bool) :=
  if 0x800 ≤ o ∧ o < 0x1000 then some (true, 0, (o - 0x800) / 8, o % 8 = 4)
  else if 0x1000 ≤ o ∧ o < 0x1900 then
    some (false, (o - 0x1000) / 0x100, (o % 0x100) / 8, o % 8 = 4)
  else none

def srcWord (s : State) (shared : Bool) (t n : Nat) (st : Bool) : Word :=
  let x := if shared then sharedSrc s n else privSrc s t n
  let k := if shared then sharedKind s n else privKind t n
  if st then x.stateWord k shared else x.cfgWord k shared

/-- The pending bits of a target for sources `base` to `base` + 31 (R636, R661). -/
def pendBits (s : State) (t base : Nat) : Word :=
  pack ((pendingList s t).filterMap (fun p =>
    if base ≤ p.1 ∧ p.1 < base + 32 then some (p.1 - base, 1) else none))

/-- IC_TSTATUS of a target (R662). -/
def tstatusWord (s : State) (t : Nat) : Word :=
  let x := targetOf s t
  pack [(0, effThresh s t), (4, (claimed s t).length), (8, b2n (requested s t)),
    (9, b2n x.completeErr), (10, b2n x.raiseErr), (16, x.spurious.toNat)]

def targetRead (s : State) (a t o : Nat) : State × Word :=
  if o = 0 then claimRead s a
  else if o = 0x0C then
    (updTarget s t (fun x => { x with spurious := 0 }), tstatusWord s t)
  else if o = 0x10 then (s, pendBits s t 0)
  else if 0x20 ≤ o ∧ o < 0x40 then (s, pendBits s t (0x100 + 8 * (o - 0x20)))
  else (s, pick o [(0x08, (targetOf s t).thresh.setWidth 32), (0x40, claimWord (bestClaim s t))])

/-- The word of a watch entry (R661). -/
def watchWord (s : State) (w : Nat) (second : Bool) : Word :=
  match s.intc.watch.find? w with
  | none => 0
  | some x => if second then pack [(0, x.signal.toNat), (8, x.consumer.toNat)]
    else pack [(0, x.cb.toNat), (31, 1)]

/-- A read in the IC range, by its offset (R660, R661). -/
def icRead (s : State) (a o : Nat) : State × Word :=
  if o < 0x100 then
    match agentTarget s a with
    | some t => targetRead s a t o
    | none => (s, 0)
  else match srcAt o with
    | some (sh, t, n, st) => (s, if 2 ≤ a ∧ a ≤ 10 then srcWord s sh t n st else 0)
    | none =>
      if a ≠ 2 then (s, 0)
      else if 0x2000 ≤ o ∧ o < 0x6000 then (s, watchWord s ((o - 0x2000) / 8) (o % 8 = 4))
      else (s, pick o [(0x104, s.intc.dbgTarget.setWidth 32), (0x140, s.intc.vecHeld.setWidth 32),
        (0x144, (s.intc.vecHeld >>> 32).setWidth 32), (0x148, w32 s.intc.watch.length)])

/-- A write to a watch entry by the Lockkeeper (R661, log entry 47). -/
def watchWrite (s : State) (w : Nat) (second : Bool) (v : Word) : State :=
  let old := s.intc.watch.find? w
  let new : Tab Watch :=
    match second, old with
    | true, none => s.intc.watch
    | true, some x =>
      s.intc.watch.put w { x with signal := v.setWidth 6, consumer := BitVec.ofNat 4 (fld v 8 4) }
    | false, _ =>
      if bit v 31 then
        let x : Watch := old.getD { cb := 0, signal := 0, consumer := 0 }
        s.intc.watch.put w { x with cb := v.setWidth 26 &&& 0x3FFFFF0 }
      else s.intc.watch.erase w
  onIntc s (fun c => { c with watch := new })

def icWrite (s : State) (a o : Nat) (v : Word) : State :=
  if o = 0x04 then completeWrite s a v
  else if o = 0x100 then raiseWrite s a v
  else if o < 0x100 then
    match agentTarget s a with
    | none => s
    | some t => updTarget s t (fun x =>
      if o = 0x08 then { x with thresh := v.setWidth 4 }
      else if o = 0x0C then
        { x with completeErr := x.completeErr && !bit v 9, raiseErr := x.raiseErr && !bit v 10 }
      else x)
  else match srcAt o with
    | some (sh, t, n, st) =>
      if mayWriteSrc a sh t then
        updNamed s sh t n (fun x => if st then x.setState v else x.setCfg sh v)
      else s
    | none =>
      if a ≠ 2 then s
      else if o = 0x104 then onIntc s (fun c => { c with dbgTarget := v.setWidth 4 })
      else if 0x2000 ≤ o ∧ o < 0x6000 then watchWrite s ((o - 0x2000) / 8) (o % 8 = 4) v
      else s

end Sys2Proof.Machine
end

