-- ==== Sys2Proof/Machine/RegBlocks.lean ====
section
/-! DEFINITION. Register reads and writes of Towpath, Chervil, Sluice, the lanes, the
peripheral island and the Deckhand cores, by offset (chapters 07 to 14, 17, 18 and 20). -/

namespace Sys2Proof.Machine

/-! ### Towpath: one scene (R329 to R331, R376 to R379) -/

/-- TP_SC_BEAM (R290, R331). -/
def Scene.beamWord (c : Scene) (t : Nat) : Word :=
  match c.beam t with
  | none => 0
  | some (n, l) => pack [(0, l), (10, b2n (c.height ≤ l)), (16, n % 65536)]

/-- TP_SC_STATUS (R331). -/
def Scene.statusWord (c : Scene) : Word :=
  pack [(0, 1), (1, c.pipe), (4, b2n c.pin.isSome), (5, b2n c.moveTo.isSome), (8, b2n c.late),
    (9, b2n c.wrDrop), (10, b2n c.ur), (11, b2n c.ltErr), (16, c.lastAgent.toNat)]

/-- TP_SC_FLIP_STATUS (R379). -/
def Scene.flipWord (c : Scene) : Word :=
  pack [(0, min 7 (c.latches.filter (fun l => match l with
      | .flip _ _ _ _ => true
      | .linetab _ _ => false)).length),
    (8, b2n c.fenceDrop), (16, c.flipFrame.toNat)]

def Scene.lmWord (c : Scene) (k : Nat) : Word :=
  pack [(0, (c.lm.get {} k).line.toNat), (31, b2n (c.lm.get {} k).en)]

/-- A register of a scene, by offset; a line-effective register as the last committed line
left it, a shadowed one with its active value (R293, R363). -/
def Scene.word (c : Scene) (t o : Nat) : Word :=
  if 0x80 ≤ o ∧ (leMask (o / 4)).isSome then rget c.regs (o / 4)
  else if 0x80 ≤ o ∧ (shadowMask (o / 4)).isSome then rget c.active (o / 4)
  else if 0x1E0 ≤ o ∧ o < 0x200 then w32 (c.coll.toNat / 2 ^ (8 * (o - 0x1E0)))
  else pick o [(0x00, pack [(0, c.width), (16, c.height), (26, c.rate), (31, 1)]),
    (0x04, pack [(0, c.blank), (16, c.total)]), (0x08, w32 c.period),
    (0x0C, (c.start.getD 0).truncate 32), (0x10, c.beamWord t), (0x14, c.comm),
    (0x18, c.statusWord),
    (0x1C, pack [(0, c.cntRollback.toNat), (16, c.cntUr.toNat), (24, c.cntLate.toNat)]),
    (0x20, c.lmWord 0), (0x24, c.lmWord 1), (0x28, c.lmWord 2), (0x2C, c.lmWord 3),
    (0x30, pack [(0, c.evHost.toNat), (4, c.evDeck.toNat), (8, c.dhMask.toNat)]),
    (0x34, c.linetab), (0x8C, c.laystat),
    (0x1C4, pack [(0, c.collFirst.toNat), (15, b2n c.collValid), (16, b2n c.ss), (17, b2n c.sl)]),
    (0x200, c.flipFence), (0x204, c.flipValue), (0x20C, c.flipWord)]

/-- The RC fields of a scene's registers. -/
def Scene.readClear (c : Scene) (o : Nat) : Scene :=
  if o = 0x1C then { c with cntRollback := 0, cntUr := 0, cntLate := 0 }
  else if o = 0x1C4 then { c with collFirst := 0, collValid := false, ss := false, sl := false }
  else if 0x1E0 ≤ o ∧ o < 0x200 then
    { c with coll := c.coll &&& ~~~ (BitVec.ofNat 256 (0xFFFFFFFF * 2 ^ (8 * (o - 0x1E0)))) }
  else c

def sceneRead (s : State) (i o : Nat) : State × Word :=
  match sceneOf s i with
  | none => (s, 0)
  | some c => (setScene s i (c.readClear o), c.word s.tick.toNat o)

/-- A write to a register of a scene that acts at once (R300, R313, R331, R379). -/
def Scene.plainWrite (c : Scene) (t o : Nat) (v : Word) : Scene :=
  if o = 0x18 then
    { c with late := c.late && !bit v 8, wrDrop := c.wrDrop && !bit v 9, ur := c.ur && !bit v 10,
             ltErr := c.ltErr && !bit v 11 }
  else if 0x20 ≤ o ∧ o < 0x30 then c.writeLm t ((o - 0x20) / 4) v
  else if o = 0x30 then { c with evDeck := BitVec.ofNat 4 (fld v 4 4) }
  else if o = 0x34 then c.latch t (fun n => .linetab n (v &&& 0x03FFFFF9))
  else if o = 0x8C then { c with laystat := c.laystat &&& ~~~ v }
  else if o = 0x200 then { c with flipFence := v }
  else if o = 0x204 then { c with flipValue := v }
  else if o = 0x20C then { c with fenceDrop := c.fenceDrop && !bit v 8 }
  else c

def sceneWrite (s : State) (a i o : Nat) (v : Word) : State :=
  if o = 0x38 then rasterWrite s a i none 0
  else if o = 0x208 then flipWrite s i
  else if 0x80 ≤ o ∧ ((leMask (o / 4)).isSome || (shadowMask (o / 4)).isSome) = true then
    sceneRegWrite s a i (o / 4) v
  else updScene s i (fun c => c.plainWrite s.tick.toNat o v)

/-! ### Towpath: per-agent and global registers (R332, R335, R403, R436) -/

/-- TP_WHEN, TP_EVQ and TP_EVQ_STATUS, which every agent may name (R332). -/
def evqStatus (s : State) (a : Nat) : State × Word :=
  if 3 ≤ a ∧ a ≤ 10 then
    let q := s.tp.evq.get {} (a - 3)
    (onTp s (fun t => { t with evq := t.evq.set {} (a - 3) { q with drop := 0 } }),
      pack [(0, q.q.length), (16, q.drop.toNat)])
  else (s, 0)

/-- The TP_PIPE_ registers; a load past its 11 bits reads as 2,047 (DESIGN CHOICE, log entry 31). -/
def pipeWord (s : State) (p o : Nat) : Word :=
  pick o [(0, pack [(0, (s.tp.busyPct.get 0 p).toNat),
      (16, (s.tp.scenes.filter (fun q => q.2.pipe = p)).length)]),
    (4, pack [(0, min 2047 (pipeLoad s p / 1000000)), (16, min 2047 (pinnedLoad s p / 1000000))]),
    (8, w32 (s.tp.scenes.foldl (fun n q => n + if q.2.pipe = p then q.2.store else 0) 0 / 1024))]

/-- TP_PS_ registers of a scene (R436). -/
def psRead (s : State) (i o : Nat) : State × Word :=
  match sceneOf s i with
  | none => (s, 0)
  | some c =>
    (if o = 4 then setScene s i { c with cntChanged := 0, cntStaged := 0 } else s,
      pick o [(0, pack [(0, c.psRegions.toNat), (4, b2n c.psTruncated), (5, b2n c.psDeferred),
          (6, b2n c.psEcc), (16, c.psFrame.toNat)]),
        (4, pack [(0, c.cntChanged.toNat), (16, c.cntStaged.toNat)]), (8, w32 c.sigAddr)])

def psWrite (s : State) (i o : Nat) (v : Word) : State :=
  if o = 0 then updScene s i (fun c => { c with
    psTruncated := c.psTruncated && !bit v 4, psDeferred := c.psDeferred && !bit v 5,
    psEcc := c.psEcc && !bit v 6 })
  else s

/-- TP_ST_ registers of a station index (R436). -/
def stPushRead (s : State) (i o : Nat) : State × Word :=
  let r := recvOf s i
  let t := stationOf s i
  (if o = 4 then updRecv s i (fun r => { r with sent := 0 })
   else if o = 8 then updRecv s i (fun r => { r with lost := 0, cancelled := 0 }) else s,
    pick o [(0, pack [(0, (t.map (fun t => t.scene)).getD 0), (11, b2n t.isSome),
        (16, popCount r.owed)]),
      (4, r.sent), (8, pack [(0, r.lost.toNat), (16, r.cancelled.toNat)])])

/-- TP_PNL_STATUS (R436). -/
def panelStatus (s : State) : Word :=
  let p := s.tp.panel
  pack [(0, b2n p.scene.isSome), (1, b2n (inStartUp p.step)), (2, b2n (p.busy && p.step.piece)),
    (8, b2n p.teMiss), (9, b2n p.abort), (16, popCount p.recv.owed)]

/-- TP_BLT_STATUS (R403). -/
def bltStatus (s : State) : Word :=
  match s.tp.blt.cur with
  | none => 0
  | some b => pack [(0, 1), (2, b.moor)]

/-- A global Towpath register below 0x1000 that is not banked. -/
def tpGlobalRead (s : State) (o : Nat) : State × Word :=
  let s' :=
    if o = 0x104 then onTp s (fun t => { t with moves := 0 })
    else if o = 0x580 then onTp s (fun t => { t with pushDeferred := 0 })
    else if o = 0x20C then onBlt s (fun b => { b with blits := 0 })
    else if o = 0x604 then onPanel s (fun p => { p with pieces := 0 })
    else s
  (s',
    if 0x300 ≤ o ∧ o < 0x400 then
      match (bltMoorings s)[(o - 0x300) / 4]? with
      | some m => pack [(0, m), (31, 1)]
      | none => 0
    else if 0x400 ≤ o ∧ o < 0x480 then
      pack ((List.range 32).map (fun j => (j, b2n (pageLive s (8 * (o - 0x400) + j)))))
    else pick o [(0x100, w32 (totalLoad s / 1000000)),
      (0x104, pack [(0, b2n s.tp.balRun), (8, s.tp.moves.toNat)]), (0x204, bltStatus s),
      (0x208, pack [(0, s.tp.blt.results.toNat), (5, b2n s.tp.blt.fenceBad), (6, b2n s.tp.blt.descErr)]),
      (0x20C, s.tp.blt.blits),
      (0x580, pack [(0, pushUsed s / 1024), (16, s.tp.pushDeferred.toNat)]),
      (0x600, panelStatus s), (0x604, s.tp.panel.pieces)])

def tpGlobalWrite (s : State) (a o : Nat) (v : Word) : State :=
  if o = 0x40 then onTp s (fun t => { t with when_ := t.when_.set {} a (When.ofWord v) })
  else if o = 0x104 then onTp s (fun t => { t with balRun := bit v 0 })
  else if o = 0x200 then bltLook s (fld v 0 14)
  else if o = 0x208 then onBlt s (fun b => { b with
    results := b.results &&& ~~~ v.setWidth 5, fenceBad := b.fenceBad && !bit v 5,
    descErr := b.descErr && !bit v 6 })
  else if o = 0x600 then onPanel s (fun p => { p with
    teMiss := p.teMiss && !bit v 8, abort := p.abort && !bit v 9 })
  else if o = 0x608 then oweAll s panelId
  else s

/-- A read in the Towpath range, by its offset (R45, R788). -/
def tpRead (s : State) (a o : Nat) : State × Except Err Word :=
  let up := running s islTP
  if o = 0x40 then guardR true up s (fun s => (s, if scriptAgent a then (whenOf s a).word else 0))
  else if o = 0x80 then guardR true up s (fun s => evqRead s a)
  else if o = 0x84 then guardR true up s (fun s => evqStatus s a)
  else guardR (if 0x1000 ≤ o ∧ o < 0x1100 then fwAgent a else scriptAgent a) up s (fun s =>
    if o < 0x1000 then tpGlobalRead s o
    else if o < 0x1100 then (s, pipeWord s ((o - 0x1000) / 0x20) (o % 0x20))
    else if 0x100000 ≤ o ∧ o < 0x300000 then sceneRead s ((o - 0x100000) / 0x400) (o % 0x400)
    else if 0x400000 ≤ o ∧ o < 0x410000 then stPushRead s ((o - 0x400000) / 0x20) (o % 0x20)
    else if 0x480000 ≤ o ∧ o < 0x488000 then psRead s ((o - 0x480000) / 0x10) (o % 0x10)
    else (s, 0))

def tpWrite (s : State) (a o : Nat) (v : Word) : State × Option Err :=
  let up := running s islTP
  if (o = 0x40 ∧ scriptAgent a = false) ∨ o = 0x80 ∨ o = 0x84 then guardW true up s id
  else guardW (if 0x1000 ≤ o ∧ o < 0x1100 then fwAgent a else scriptAgent a) up s (fun s =>
    if o < 0x1000 then tpGlobalWrite s a o v
    else if 0x100000 ≤ o ∧ o < 0x300000 then sceneWrite s a ((o - 0x100000) / 0x400) (o % 0x400) v
    else if 0x400000 ≤ o ∧ o < 0x410000 then
      (if o % 0x20 = 0x0C then oweAll s ((o - 0x400000) / 0x20) else s)
    else if 0x480000 ≤ o ∧ o < 0x488000 then psWrite s ((o - 0x480000) / 0x10) (o % 0x10) v
    else s)

/-! ### Chervil (R470, R471) -/

/-- CV_V_STATUS (R470). -/
def Voice.statusWord (x : Voice) : Word :=
  pack [(0, x.phase), (3, x.kind), (5, b2n x.ended), (6, b2n x.ecc), (16, x.level.toNat)]

/-- CV_V_ROUTE (R470): the newest route asked for (R454). -/
def Voice.routeWord (x : Voice) : Word :=
  match ((x.next.getLast?).map (·.2)).getD x.route with
  | none => 0
  | some (m, g) => pack [(0, m), (11, 1), (16, g)]

def Voice.word (x : Voice) (o : Nat) : Word := pick o [(0x04, x.freq.setWidth 32),
  (0x08, pack [(0, x.duty.toNat), (4, b2n x.short)]), (0x0C, x.amp.setWidth 32),
  (0x10, pack [(0, x.attack.toNat), (8, x.decay.toNat), (16, x.sustain.toNat), (24, x.release.toNat)]),
  (0x14, pack [(0, x.loopStart.toNat), (31, b2n x.loopEn)]), (0x18, x.statusWord),
  (0x1C, x.routeWord)]

def voiceRegWrite (s : State) (v o : Nat) (w : Word) : State :=
  if o = 0 then
    (if fld w 0 2 = 1 then voiceWrite s v (.keyOn (bit w 2))
     else if fld w 0 2 = 2 then voiceWrite s v .keyOff else s)
  else if o ≤ 0x18 then voiceWrite s v (.reg o w)
  else s

/-- The voices routed to a mix (R471). -/
def voicesOn (s : State) (m : Nat) : Nat :=
  (s.cv.voices.filter (fun p =>
    (((p.2.next.getLast?).map (·.2)).getD p.2.route).map (·.1) = some m)).length

/-- CV_MIX_STATUS (R471). -/
def mixStatus (s : State) (m : Nat) (x : Mix) : Word :=
  pack [(0, 1), (1, b2n x.station.isNone), (2, b2n x.parentErr), (3, b2n x.silenced),
    (16, voicesOn s m)]

/-- CV_MIX_TARGET (R471). -/
def mixTarget (s : State) (x : Mix) : Word :=
  match x.station with
  | none => pack [(1, x.slot), (4, x.port)]
  | some k => w32 (((stationOf s k).map (fun t => t.addr)).getD 0)

def mixRead (s : State) (m o : Nat) : State × Word :=
  match mixOf s m with
  | none => (s, 0)
  | some x =>
    (if o = 0xC then setMix s m { x with peak := 0, clips := 0 } else s,
      pick o [(0, pack [(0, x.gain.toNat), (8, b2n x.washAudible), (9, b2n x.parentEn),
          (10, x.parent.toNat), (24, x.parentGain.toNat)]),
        (4, mixStatus s m x), (8, mixTarget s x), (0xC, pack [(0, x.peak.toNat), (16, x.clips.toNat)])])

def mixWrite (s : State) (m o : Nat) (v : Word) : State :=
  if o = 0 then mixCtrlWrite s m v
  else if o = 4 then updMix s m (fun x => { x with parentErr := x.parentErr && !bit v 2 })
  else s

def portWord (p : Port) : Word :=
  pack [(0, b2n p.enable), (1, p.slots.toNat), (5, b2n p.width), (6, b2n p.tdm)]

/-- A read in the Chervil range, by its offset. -/
def cvRead (s : State) (a o : Nat) : State × Except Err Word :=
  guardR (scriptAgent a) (running s islCV) s (fun s =>
    if o < 0x4000 then (s, ((voiceOf s (o / 0x20)).map (fun x => x.word (o % 0x20))).getD 0)
    else if o < 0x4200 then
      (if o = 0x4108 then onCv s (fun c => { c with lateBlocks := 0, endedCount := 0 }) else s,
        pick o [(0x4000, portWord (s.cv.ports.get {} 0)), (0x4010, portWord (s.cv.ports.get {} 1)),
          (0x4100, s.cv.block.setWidth 32), (0x4104, w32 (b2n s.cv.overrun)),
          (0x4108, pack [(0, s.cv.lateBlocks.toNat), (16, s.cv.endedCount.toNat)])])
    else if 0x10000 ≤ o ∧ o < 0x18000 then mixRead s ((o - 0x10000) / 0x10) (o % 0x10)
    else (s, 0))

def cvWrite (s : State) (a o : Nat) (v : Word) : State × Option Err :=
  guardW (scriptAgent a) (running s islCV) s (fun s =>
    if o < 0x4000 then voiceRegWrite s (o / 0x20) (o % 0x20) v
    else if o = 0x4104 then onCv s (fun c => { c with overrun := c.overrun && !bit v 0 })
    else if 0x10000 ≤ o ∧ o < 0x18000 then mixWrite s ((o - 0x10000) / 0x10) (o % 0x10) v
    else s)

/-! ### Sluice (R701, R702) -/

def ChState.code : ChState → Nat
  | .empty => 0
  | .running => 1
  | .idleAtTail => 2
  | .stopping => 3
  | .stopped => 4
  | .closed => 7

/-- SL_CH_STATE (R701). -/
def Chan.stateWord (c : Chan) : Word :=
  pack [(0, c.state.code), (4, c.prio.toNat), (8, c.status.toNat), (16, b2n c.appendErr),
    (20, c.flight.length)]

def Chan.regWord (c : Chan) (o : Nat) : Word := pick o [(0x00, if c.state = .closed then 0 else c.handle),
  (0x04, c.stateWord), (0x08, c.cur.setWidth 32), (0x0C, c.tail.setWidth 32),
  (0x10, c.residue.setWidth 32), (0x14, c.done)]

def chanWrite (s : State) (a n o : Nat) (v : Word) : State :=
  if (chanOf s n).state = .closed then s
  else if o = 0x04 then updChan s n (fun c => { c with appendErr := c.appendErr && !bit v 16 })
  else if o = 0x18 then
    (if fld v 0 2 = 1 then doorbell s n else if fld v 0 2 = 2 then abort s n
     else if fld v 0 2 = 3 then clearChan s n else s)
  else if o = 0x1C then append s n (fld v 5 21 * 32) (fld (s.sl.last.get 0 a) 5 21 * 32)
  else s

/-- SL_STATUS (R701). -/
def slStatusWord (s : State) : Word :=
  let l := s.sl.chans.map (fun p => p.2.state)
  pack [(0, (l.filter (fun x => x ≠ .closed)).length),
    (16, (l.filter (fun x => x = .running || x = .stopping)).length)]

def slRead (s : State) (a o : Nat) : State × Except Err Word :=
  guardR (scriptAgent a) (running s islSL) s (fun s =>
    if o < 0x800 then (s, (chanOf s (o / 0x20)).regWord (o % 0x20))
    else if 0x900 ≤ o ∧ o < 0xA00 then
      (s, match s.sl.submits.find? ((o - 0x900) / 4) with
        | some m => pack [(0, m), (31, 1)]
        | none => 0)
    else (if o = 0x808 then onSl s (fun x => { x with submitErr := 0 }) else s,
      pick o [(0x800, s.sl.last.get 0 a), (0x804, slStatusWord s), (0x808, s.sl.submitErr)]))

def slWrite (s : State) (a o : Nat) (v : Word) : State × Option Err :=
  guardW (scriptAgent a) (running s islSL) s (fun s =>
    if o < 0x800 then chanWrite s a (o / 0x20) (o % 0x20) v
    else if o = 0x800 then onSl s (fun x => { x with last := x.last.set 0 a (v &&& 0x03FFFFE0) })
    else s)

/-! ### Lanes and stations (R512, R549) -/

/-- TL_STATE (R512). -/
def Lane.stateWord (x : Lane) : Word :=
  pack [(0, x.code), (4, b2n x.blockLock), (5, b2n x.hiBer), (6, b2n x.aligned), (7, b2n x.freeze),
    (8, b2n x.partnerAligned), (16, x.session.toNat)]

/-- TL_MOD_STATUS (R512). -/
def Lane.modWord (x : Lane) : Word :=
  pack [(0, b2n x.present), (1, b2n x.los), (2, b2n x.faultIn), (3, b2n x.txDis),
    (4, x.kind), (7, b2n x.i2cErr), (8, x.alarms.toNat), (16, x.lengthM.toNat)]

def Lane.word (x : Lane) (o : Nat) : Word := pick o [(0x00, x.stateWord),
  (0x04, pack [(0, x.dev.toNat), (16, b2n x.hit.isSome)]), (0x08, x.cycleRx),
  (0x10, x.eq.txWord), (0x14, x.eq.rxWord), (0x18, x.eq.dfeWord),
  (0x1C, pack [(0, x.eye.toNat), (8, x.partnerEye.toNat), (16, x.minEye.toNat)]),
  (0x20, x.modWord), (0x24, pack [(0, x.temp.toNat), (16, x.vcc.toNat)]),
  (0x28, pack [(0, x.txPower.toNat), (16, x.rxPower.toNat)]), (0x40, x.cntRx), (0x44, x.cntTx),
  (0x48, x.cntFcs), (0x4C, x.cntFilter), (0x50, x.cntHdr), (0x54, x.cntSession),
  (0x58, x.cntErrBlk), (0x5C, pack [(0, x.cntLock.toNat), (16, x.cntHiBer.toNat)]),
  (0x60, x.cntAlign), (0x64, pack [(0, x.test.toNat), (2, b2n x.testSync), (3, x.testErrors.toNat)]),
  (0x80, pack [(0, b2n x.enable), (1, b2n x.freeze), (2, x.test.toNat)])]

/-- What the checker of a test pattern has found: whether it is synchronised and the errors it has
counted depend on what the partner sends (free values; log entry 1). -/
def testNote (s : State) (l : Nat) : State :=
  let (s, v) := drawFree s
  let e : BitVec 29 := (v >>> 3).setWidth 29
  updLane s l (fun x => { x with
    testSync := v.getLsbD 0, testErrors := if e < x.testErrors then x.testErrors else e })

/-- The pattern of a lane is to change: what the checker found stays. -/
def testKeep (s : State) (l : Nat) (test : BitVec 2) : State :=
  if (laneOf s l).test != 0 && test != (laneOf s l).test then testNote s l else s

def laneRead (s : State) (l o : Nat) : State × Word :=
  let s := if o = 0x64 && (laneOf s l).test != 0 then testNote s l else s
  (if o = 0x1C then updLane s l (fun x => { x with minEye := 0xFF }) else s, (laneOf s l).word o)

/-- A write to TL_CTRL (R493, R512): a lane that becomes enabled takes a new session. -/
def laneCtrl (s : State) (l : Nat) (en freeze : Bool) (test : BitVec 2) : State :=
  let was := (laneOf s l).enable
  let s := updLane s l (fun x => { x with enable := en, freeze := freeze, test := test })
  laneSettle (if en && !was then newSession s l else s) l

/-- TL_ST_ registers of a station (R549). -/
def Station.word (t : Station) (o : Nat) : Word := pick o [
  (0, pack [(0, t.code), (4, b2n t.write.isSome), (5, min 2047 t.misses), (16, t.thr)]),
  (4, pack [(0, t.seqNext.toNat), (16, t.acked.toNat)]),
  (8, pack [(0, t.stale.toNat), (16, t.suppressed.toNat), (24, t.late.toNat)]),
  (0xC, pack [(0, t.retries.toNat), (16, t.eccOut.toNat), (24, t.diag.toNat)])]

def Station.readClear (t : Station) (o : Nat) : Station :=
  if o = 8 then { t with stale := 0, suppressed := 0, late := 0 }
  else if o = 0xC then { t with retries := 0, eccOut := 0, diag := 0 }
  else t

/-- A read in the Towline range, by its offset; a station's registers lie in the island of its
lane (R193). -/
def tlRead (s : State) (a o : Nat) : State × Except Err Word :=
  if o < 0x8000 then
    guardR (scriptAgent a) (laneRuns s (o / 0x1000)) s (fun s => laneRead s (o / 0x1000) (o % 0x1000))
  else if 0x800000 ≤ o ∧ o < 0x808000 then
    match stationOf s ((o - 0x800000) / 0x10) with
    | none => guardR (scriptAgent a) true s (fun s => (s, 0))
    | some t => guardR (scriptAgent a) (laneRuns s t.lane) s (fun s =>
        (setStation s ((o - 0x800000) / 0x10) (t.readClear (o % 0x10)), t.word (o % 0x10)))
  else guardR (scriptAgent a) true s (fun s => (s, pick o [(0x80F000, s.tl.cyc.cut)]))

def tlWrite (s : State) (a o : Nat) (v : Word) : State × Option Err :=
  if o < 0x8000 then
    guardW (scriptAgent a) (laneRuns s (o / 0x1000)) s (fun s =>
      if a = 2 ∧ o % 0x1000 = 0x80 then
        laneCtrl (testKeep s (o / 0x1000) (BitVec.ofNat 2 (fld v 2 2))) (o / 0x1000) (bit v 0) (bit v 1)
          (BitVec.ofNat 2 (fld v 2 2))
      else s)
  else guardW (scriptAgent a) true s id

/-! ### The peripheral island (R748, R750 to R752) -/

/-- SQ_STATUS (R748). -/
def Sq.statusWord (q : Sq) : Word :=
  pack [(0, b2n q.busy), (1, b2n q.done), (2, b2n q.goErr), (3, b2n q.held), (4, q.result),
    (8, q.seg), (10, q.phase)]

/-- A register of a segment. -/
def SqSeg.word (g : SqSeg) (o : Nat) : Word :=
  pick o [(0, g.phase), (4, g.cmd), (8, g.addr), (0xC, w32 g.len)]

def SqSeg.write (g : SqSeg) (o : Nat) (v : Word) : SqSeg :=
  if o = 0 then { g with phase := v &&& 0x007F7F7F }
  else if o = 4 then { g with cmd := v &&& 0xFFFF }
  else if o = 8 then { g with addr := v }
  else { g with len := fld v 0 16 }

def sqRead (s : State) (ch o : Nat) : State × Word :=
  let s := panelStart s
  if o = 0x18 then sqRx s ch
  else if 0x40 ≤ o ∧ o < 0x80 then (s, ((sqOf s ch).segAt ((o - 0x40) / 0x10)).word (o % 0x10))
  else
    let s := if o = 0x10 then sqAdvance s ch else s
    let q := sqOf s ch
    (s, pick o [(0, q.cfg), (0x08, q.statusWord), (0x0C, w32 q.bits),
      (0x10, pack [(0, 256 - q.tx.length), (16, q.rx.length)])])

def sqWrite (s : State) (ch o : Nat) (v : Word) : State :=
  if o = 0x04 then sqGo s ch []
  else if o = 0x14 then sqTx s ch v
  else if 0x40 ≤ o ∧ o < 0x80 then updSq s ch (fun q => { q with
    segs := q.segs.set {} ((o - 0x40) / 0x10) ((q.segAt ((o - 0x40) / 0x10)).write (o % 0x10) v) })
  else updSq s ch (fun q =>
    if o = 0 then { q with cfg := v &&& 0x07F3FFFF }
    else if o = 0x08 then { q with done := q.done && !bit v 1, goErr := q.goErr && !bit v 2 }
    else q)

def i2cRead (s : State) (o : Nat) : Word :=
  let x := s.pi.i2c
  if 0x440 ≤ o ∧ o < 0x4C0 then leWord (x.rdata.drop (o - 0x440))
  else pick o [(0x400, x.ctrl), (0x404, pack [(0, b2n x.busy), (1, b2n x.done), (2, x.result)]),
    (0x408, leWord x.wdata), (0x40C, leWord (x.wdata.drop 4))]

def i2cWrite (s : State) (o : Nat) (v : Word) : State :=
  if o = 0x400 then
    (if bit v 6 then i2cGo s v false false
     else updI2c s (fun x => { x with ctrl := v &&& i2cCtrlMask }))
  else updI2c s (fun x =>
    if o = 0x404 then { x with done := x.done && !bit v 1 }
    else if o = 0x408 then { x with wdata := leBytes 4 v.toNat ++ x.wdata.drop 4 }
    else if o = 0x40C then { x with wdata := x.wdata.take 4 ++ leBytes 4 v.toNat }
    else x)

def avsRead (s : State) (n o : Nat) : Word :=
  let x := avsOf s n
  pick o [(4, pack [(0, x.data.toNat), (16, x.ack.toNat)]),
    (8, pack [(0, b2n x.op.isSome), (1, b2n x.done), (2, x.result), (16, x.fails.toNat)])]

def avsWrite (s : State) (n o : Nat) (v : Word) : State :=
  if o = 0 then (if fld v 0 2 = 0 then s else avsCmd s n (fld v 0 2) (fld v 16 16))
  else if o = 8 then updAvs s n (fun x => { x with done := x.done && !bit v 1 })
  else s

/-- A firmware-owned register of PI, below offset 0x1000. -/
def piRead (s : State) (o : Nat) : State × Word :=
  if o < 0x200 then sqRead s (o / 0x100) (o % 0x100)
  else if 0x400 ≤ o ∧ o < 0x500 then (s, i2cRead s o)
  else if 0x500 ≤ o ∧ o < 0x520 then (s, avsRead s ((o - 0x500) / 0x10) (o % 0x10))
  else (s, 0)

def piWrite (s : State) (o : Nat) (v : Word) : State :=
  if o < 0x200 then sqWrite s (o / 0x100) (o % 0x100) v
  else if 0x400 ≤ o ∧ o < 0x500 then i2cWrite s o v
  else if 0x500 ≤ o ∧ o < 0x520 then avsWrite s ((o - 0x500) / 0x10) (o % 0x10) v
  else s

/-- A bank's half of the 64 pins. -/
def bankWord (b : BitVec 64) (bank : Nat) : Word := (b >>> (32 * bank)).setWidth 32

/-- A GP_ register, by its offset from 0x2800_1000 (R751, R752). -/
def gpRead (s : State) (o : Nat) : State × Word :=
  let k := o / 0x40
  if o < 0x80 ∧ o % 0x40 = 0 then gpIn s k
  else (s,
    if o < 0x80 then pick (o % 0x40) [(0x04, bankWord s.gp.out k), (0x1C, bankWord s.gp.dir k)]
    else if o = 0x80 then pack [(0, b2n s.gp.denied), (1, b2n s.gp.hold)]
    else if 0x100 ≤ o ∧ o < 0x200 then
      s.gp.pinCfg ((o - 0x100) / 4) ||| w32 (b2n (s.gp.fw.getLsbD ((o - 0x100) / 4)) * 0x8000)
    else 0)

def gpRegWrite (s : State) (a o : Nat) (v : Word) : State :=
  let k := o / 0x40
  let r := o % 0x40
  if o < 0x80 then
    (if r = 0x04 then gpWrite s a false (bankBits k 0xFFFFFFFF) (bankBits k v)
     else if r = 0x08 then gpWrite s a false (bankBits k v) (bankBits k v)
     else if r = 0x0C then gpWrite s a false (bankBits k v) 0
     else if r = 0x10 then gpWrite s a false (bankBits k v) (~~~ s.gp.out)
     else if r = 0x14 then gpWrite s a false (halfBits k false v).1 (halfBits k false v).2
     else if r = 0x18 then gpWrite s a false (halfBits k true v).1 (halfBits k true v).2
     else if r = 0x1C then gpWrite s a true (bankBits k 0xFFFFFFFF) (bankBits k v)
     else if r = 0x20 then gpWrite s a true (halfBits k false v).1 (halfBits k false v).2
     else if r = 0x24 then gpWrite s a true (halfBits k true v).1 (halfBits k true v).2
     else s)
  else if o = 0x80 then { s with gp := { s.gp with denied := s.gp.denied && !bit v 0 } }
  else if 0x100 ≤ o ∧ o < 0x200 then pinWrite s a ((o - 0x100) / 4) v
  else s

/-- A read in the range of PI, by its offset. -/
def periRead (s : State) (a o : Nat) : State × Except Err Word :=
  if o < 0x1000 then guardR (fwAgent a) (running s islPI) s (fun s => piRead s o)
  else guardR (portAgent a) (running s islPI) s (fun s => gpRead s (o - 0x1000))

def periWrite (s : State) (a o : Nat) (v : Word) : State × Option Err :=
  if o < 0x1000 then guardW (fwAgent a) (running s islPI) s (fun s => piWrite s o v)
  else guardW (portAgent a) (running s islPI) s (fun s => gpRegWrite s a (o - 0x1000) v)

/-! ### Deckhand cores (R597) and instruction RAM -/

/-- A DH_ register of core n. -/
def Core.word (c : Core) (n o : Nat) : Word := pick o [
  (0x00, pack [(0, n), (4, n + 3)]), (0x04, c.epc.setWidth 32), (0x08, c.estat.setWidth 32),
  (0x0C, pack [(0, c.ecode.toNat), (8, b2n c.estore)]), (0x10, c.eaddr),
  (0x14, c.vbase.setWidth 32), (0x18, pack [(0, c.cfloor.toNat), (16, c.climit.toNat)]),
  (0x1C, c.timer), (0x24, pack [(0, c.scene.toNat), (16, c.station.toNat)]),
  (0x28, pack [(0, c.voice.toNat), (16, c.mix.toNat)]), (0x2C, pack [(0, c.lane.toNat), (4, c.mb.toNat)]),
  (0x30, pack [(0, c.wdata.toNat), (16, c.wport.toNat)]),
  (0x34, pack [(0, c.rdata.toNat), (16, c.rport.toNat)])]

/-- A write to a DH_ register at a tick. -/
def Core.regWrite (c : Core) (t : Dword) (o : Nat) (v : Word) : Core :=
  let lo : Cell := v.setWidth 16
  let hi : Cell := (v >>> 16).setWidth 16
  if o = 0x04 then { c with epc := lo }
  else if o = 0x08 then { c with estat := v.setWidth 7 }
  else if o = 0x14 then { c with vbase := lo }
  else if o = 0x18 then { c with cfloor := lo, climit := hi }
  else if o = 0x1C then { c with timer := v }
  else if o = 0x20 then { c with heart := t }
  else if o = 0x24 then { c with scene := v.setWidth 11, station := hi.setWidth 11 }
  else if o = 0x28 then { c with voice := v.setWidth 9, mix := hi.setWidth 11 }
  else if o = 0x2C then { c with lane := v.setWidth 3, mb := BitVec.ofNat 3 (fld v 4 3) }
  else if o = 0x30 then { c with wdata := lo, wport := hi }
  else if o = 0x34 then { c with rdata := lo, rport := hi }
  else c

/-- A word of instruction RAM: cells 2 o / 4 and the next (R45, log entry 46). -/
def iramWord (s : State) (n o : Nat) : Word :=
  pack [(0, (s.dh.iram.get 0 (65536 * n + o / 2)).toNat),
    (16, (s.dh.iram.get 0 (65536 * n + o / 2 + 1)).toNat)]

def iramWrite (s : State) (n o : Nat) (v : Word) : State :=
  onDh s (fun x => { x with
    iram := (x.iram.set 0 (65536 * n + o / 2) (v.setWidth 16)).set 0 (65536 * n + o / 2 + 1)
      ((v >>> 16).setWidth 16) })

/-- A read and a write of DH_ registers of core n, at offset o: a Deckhand reaches its own through
its ports alone, not through this range (R45, R597). -/
def dhRead (s : State) (a n o : Nat) : State × Except Err Word :=
  if 8 ≤ n then guardR (fwAgent a) true s (fun s => (s, 0))
  else guardR (fwAgent a) (running s (islDeck n)) s (fun s => (s, (coreOf s n).word n o))

def dhWrite (s : State) (a n o : Nat) (v : Word) : State × Option Err :=
  if 8 ≤ n then guardW (fwAgent a) true s id
  else guardW (fwAgent a) (running s (islDeck n)) s
    (fun s => updCore s n (fun c => c.regWrite s.tick o v))

/-- A read and a write of instruction RAM, core n at n × 0x2_0000. -/
def ramRead (s : State) (a o : Nat) : State × Except Err Word :=
  guardR (fwAgent a) (running s (islDeck (o / 0x20000))) s
    (fun s => (s, iramWord s (o / 0x20000) (o % 0x20000)))

def ramWrite (s : State) (a o : Nat) (v : Word) : State × Option Err :=
  guardW (fwAgent a) (running s (islDeck (o / 0x20000))) s
    (fun s => iramWrite s (o / 0x20000) (o % 0x20000) v)

/-- A read in 0x1100_0000 to 0x111F_FFFF, by its offset: instruction RAM, then from 0x10_0000 on
the DH_ registers of core n at n × 0x1000 (R45). -/
def deckRead (s : State) (a o : Nat) : State × Except Err Word :=
  if o < 0x100000 then ramRead s a o else dhRead s a (o / 0x1000 - 0x100) (o % 0x1000)

/-- A write in the same range. -/
def deckWrite (s : State) (a o : Nat) (v : Word) : State × Option Err :=
  if o < 0x100000 then ramWrite s a o v else dhWrite s a (o / 0x1000 - 0x100) (o % 0x1000) v

end Sys2Proof.Machine
end

