-- ==== Sys2Proof/Machine/Regs.lean ====
section
/-! DEFINITION. Register accesses on the fabric and through BAR0: the map of R45 and R144, and
the rows of R24 and R153. -/

namespace Sys2Proof.Machine

/-- What answers on the fabric (R45). -/
inductive Area where
  | basin | lk | deck | tp | cv | sl | tl | ic | win | mb | weir | bs | isl | peri | sys
  deriving DecidableEq, Repr

/-- The map of R45: what answers at a fabric address, and the offset there; none where nothing
does (R42). -/
def areaOf (ad : Nat) : Option (Area × Nat) :=
  if ad < 0x04000000 then some (.basin, ad)
  else if ad < 0x10000000 then none
  else if ad < 0x11000000 then some (.lk, ad - 0x10000000)
  else if ad < 0x11200000 then some (.deck, ad - 0x11000000)
  else if ad < 0x20000000 then none
  else if ad < 0x21000000 then some (.tp, ad - 0x20000000)
  else if ad < 0x22000000 then some (.cv, ad - 0x21000000)
  else if ad < 0x23000000 then some (.sl, ad - 0x22000000)
  else if ad < 0x24000000 then some (.tl, ad - 0x23000000)
  else if ad < 0x25000000 then some (.ic, ad - 0x24000000)
  else if 0x25030000 ≤ ad ∧ ad < 0x25030200 then some (.win, ad - 0x25030000)
  else if ad < 0x26000000 then some (.mb, ad - 0x25000000)
  else if ad < 0x26080000 then some (.weir, ad - 0x26000000)
  else if ad < 0x27000000 then some (.bs, ad - 0x26080000)
  else if ad < 0x28000000 then some (.isl, ad - 0x27000000)
  else if ad < 0x29000000 then some (.peri, ad - 0x28000000)
  else if 0x2F000000 ≤ ad ∧ ad < 0x30000000 then some (.sys, ad - 0x2F000000)
  else none

/-- An aligned read at an offset of an area. -/
def areaRead (s : State) (a o : Nat) : Area → State × Except Err Word
  | .basin =>
    match readReq s a o 4 with
    | (s, .ok b) => (s, .ok (leWord b))
    | (s, .error e) => (s, .error e)
  | .lk => guardR (fwAgent a) (running s islLK) s (fun s => lkRead s o)
  | .deck => deckRead s a o
  | .tp => tpRead s a o
  | .cv => cvRead s a o
  | .sl => slRead s a o
  | .tl => tlRead s a o
  | .ic => guardR true true s (fun s => icRead s a o)
  | .win => guardR (fwAgent a) true s (fun s => winRead s o)
  | .mb => guardR true true s (fun s => mbRead s a (o / 0x1000) true (o % 0x1000))
  | .weir => weirRead s a o
  | .bs => bsRead s a o
  | .isl => guardR (fwAgent a) true s (fun s => isRead s o)
  | .peri => periRead s a o
  | .sys => guardR true true s (fun s => sysRead s a o)

/-- An aligned write of a word at an offset of an area. -/
def areaWrite (s : State) (a o : Nat) (v : Word) : Area → State × Option Err
  | .basin => writeReq s a o (leBytes 4 v.toNat)
  | .lk => guardW (fwAgent a) (running s islLK) s (fun s => lkWrite s o v)
  | .deck => deckWrite s a o v
  | .tp => tpWrite s a o v
  | .cv => cvWrite s a o v
  | .sl => slWrite s a o v
  | .tl => tlWrite s a o v
  | .ic => (icWrite s a o v, none)
  | .win => guardW (fwAgent a) true s (fun s => winWrite s o v)
  | .mb => (mbWrite s a (o / 0x1000) true (o % 0x1000) v, none)
  | .weir => weirWrite s a o v
  | .bs => bsWrite s a o v
  | .isl => guardW (fwAgent a) true s (fun s => isWrite s a o v)
  | .peri => periWrite s a o v
  | .sys => (sysWrite s a o v, none)

/-- An aligned read of a fabric address in a register range or in Basin (R42, R45, R793). -/
def fabricRead (s : State) (a ad : Nat) : State × Except Err Word :=
  match areaOf ad with
  | some (x, o) => areaRead s a o x
  | none => (s, .error .unmapped)

/-- An aligned write of a word to a fabric address (R42, R45, R793, R794). -/
def fabricWrite (s : State) (a ad : Nat) (v : Word) : State × Option Err :=
  match areaOf ad with
  | some (x, o) => areaWrite s a o v x
  | none => (s, some .unmapped)

/-! ### The host's BAR0 (R138, R144, R801) -/

/-- A BAR0 offset in side A or the lock of MB0 to MB7. -/
def hostMb (o : Nat) : Bool :=
  o < 0x8000 && (o % 0x1000 < 0x60 || o % 0x1000 = 0x200 || o % 0x1000 = 0x204)

/-- What answers in BAR0 (R144, R801). -/
inductive HostArea where
  | mb | table | pbaLow | pbaHigh | win | sys
  deriving DecidableEq, Repr

/-- The map of BAR0: what answers, and the offset there. -/
def hostAreaOf (o : Nat) : Option (HostArea × Nat) :=
  if hostMb o then some (.mb, o)
  else if 0x20000 ≤ o ∧ o < 0x20400 then some (.table, o - 0x20000)
  else if o = 0x21000 then some (.pbaLow, 0)
  else if o = 0x21004 then some (.pbaHigh, 0)
  else if 0x30000 ≤ o ∧ o < 0x30200 then some (.win, o - 0x30000)
  else if 0xF0000 ≤ o ∧ o < 0x100000 then some (.sys, o - 0xF0000)
  else none

/-- A host read of BAR0: a DWORD of the MSI-X table or of the pending bits, a mailbox
register, a host-window register or a SYS register; 0 elsewhere. -/
def hostRead (s : State) (o : Nat) (aligned : Bool) : State × Word :=
  match hostAreaOf o with
  | some (.mb, o) => mbRead s 1 (o / 0x1000) aligned (o % 0x1000)
  | some (.table, o) => (s, leWord ((s.pcie.table.get {} (o / 16)).bytes.drop (o % 16)))
  | some (.pbaLow, _) => (s, s.pcie.pba.setWidth 32)
  | some (.pbaHigh, _) => (s, (s.pcie.pba >>> 32).setWidth 32)
  | some (.win, o) => winRead s o
  | some (.sys, o) => sysRead s 1 o
  | none => (s, 0)

/-- The bytes of a word that the byte enables of an access select. -/
def selected (v : Word) (sel : BitVec 4) : List (Option Byte) :=
  (List.range 4).map (fun i =>
    if sel.getLsbD i then some ((v >>> (8 * i)).setWidth 8) else none)

/-- A host write to BAR0 of the selected bytes from an offset on; what is read-only is dropped, and
the MSI-X table takes exactly those bytes (R801). -/
def hostWrite (s : State) (o : Nat) (sel : BitVec 4) (v : Word) : State :=
  match hostAreaOf (o / 4 * 4) with
  | some (.mb, b) => mbWrite s 1 (b / 0x1000) (sel = 15 && o % 4 = 0) (b % 0x1000) v
  | some (.table, b) => msixFlush (msixWrite s (b + o % 4) (selected v sel))
  | _ => s

/-! ### The commands -/

/-- The offset of a fabric address in the mailboxes, which answer every access (R118). -/
def mailboxOffset (ad : Nat) : Option Nat :=
  if 0x25000000 ≤ ad ∧ ad < 0x25018000 then some (ad - 0x25000000) else none

/-- A register read by an agent: for the host `addr` is an offset in BAR0. An access that is
not an aligned word reaches no register (R796). -/
def regRead (s : State) (a : Nat) (addr : Word) (aligned : Bool) : State :=
  let ok := aligned && addr.toNat % 4 = 0
  let ad := addr.toNat / 4 * 4
  if a = 1 then
    (if hostReach s then let (s, w) := hostRead s ad ok; emit s (.word 1 w) else s)
  else match mailboxOffset ad with
    | some o =>
      let (s, w) := mbRead s a (o / 0x1000) ok (o % 0x1000)
      emit s (.word a w)
    | none =>
      match (if ok then fabricRead s a ad else (s, .error .unmapped)) with
      | (s, .ok w) => emit s (.word a w)
      | (s, .error e) => errTo s a addr.toNat (decide (ad < 0x04000000)) false e

/-- A register write by an agent: `sel` are the bytes from `addr` on that it selects. -/
def regWrite (s : State) (a : Nat) (addr : Word) (sel : BitVec 4) (v : Word) : State :=
  let ok := sel = 15 && addr.toNat % 4 = 0
  let ad := addr.toNat / 4 * 4
  if a = 1 then (if hostReach s then hostWrite s addr.toNat sel v else s)
  else match mailboxOffset ad with
    | some o => mbWrite s a (o / 0x1000) ok (o % 0x1000) v
    | none =>
      match (if ok then fabricWrite s a ad v else (s, some .unmapped)) with
      | (s, none) => s
      | (s, some e) => errTo s a addr.toNat (decide (ad < 0x04000000)) true e

/-- REGISTER_WRITE (R24): a write to a register acts on its fields by their access codes. -/
def execRegisterWrite (agent : Agent) (addr : Word) (sel : BitVec 4) (value : Word) (s : State) :
    Host.Outcome State Fault Refusal :=
  .next (issue s agent (fun s => regWrite s agent addr sel value))

/-- RC_FIELD_READ (R24, R792): a read of a register, whose RC fields then take their Reset
value. -/
def execRcFieldRead (agent : Agent) (addr : Word) (aligned : Bool) (s : State) :
    Host.Outcome State Fault Refusal :=
  .next (issue s agent (fun s => regRead s agent addr aligned))

/-- SYS_TICK_LO (R153). -/
def execSysTickLo (agent : Agent) (s : State) : Host.Outcome State Fault Refusal :=
  .next (issue s agent (fun s =>
    if agent = 1 && !hostReach s then s
    else
      let (s, w) := sysRead s agent 0
      emit s (.word agent w)))

end Sys2Proof.Machine
end

