-- ==== Sys2Proof/Machine/Access.lean ====
section
/-! DEFINITION. The Ceing instructions that make a data or a port access, and the repeat
prefixes (R554 to R564, R576 to R580, R613 to R616, R622 to R625, R630). -/

namespace Sys2Proof.Machine

/-! ### Ports (R559 to R564) -/

/-- What a port reaches (R560): a DH_ register of the accessing core itself, by its offset, which
is no fabric address, or a register at a fabric address. -/
inductive PortTarget where
  | own (o : Nat)
  | fabric (a : Nat)
  deriving DecidableEq, Repr

/-- The register that a port of core n reaches (R560); none where the port is unmapped. -/
def portAddr (c : Core) (n q : Nat) : Option PortTarget :=
  let at_ (lo base : Nat) : Option PortTarget := some (.fabric (base + (q - lo) / 2 * 4))
  if q < 0x80 then some (.own (q / 2 * 4))
  else if q < 0xA0 then at_ 0x80 0x2F000000
  else if 0x1000 ≤ q ∧ q < 0x1200 then at_ 0x1000 (0x20100000 + c.scene.toNat * 0x400)
  else if 0x1200 ≤ q ∧ q < 0x1600 then at_ 0x1200 0x20000000
  else if 0x1600 ≤ q ∧ q < 0x1610 then at_ 0x1600 (0x20400000 + c.station.toNat * 0x20)
  else if 0x1610 ≤ q ∧ q < 0x1618 then at_ 0x1610 (0x20480000 + c.scene.toNat * 0x10)
  else if 0x2000 ≤ q ∧ q < 0x2010 then at_ 0x2000 (0x21000000 + c.voice.toNat * 0x20)
  else if 0x2010 ≤ q ∧ q < 0x2018 then at_ 0x2010 (0x21010000 + c.mix.toNat * 0x10)
  else if 0x2100 ≤ q ∧ q < 0x2200 then at_ 0x2100 0x21004000
  else if 0x3000 ≤ q ∧ q < 0x3800 then at_ 0x3000 0x22000000
  else if 0x4000 ≤ q ∧ q < 0x4080 then at_ 0x4000 (0x23000000 + c.lane.toNat * 0x1000)
  else if 0x4080 ≤ q ∧ q < 0x4088 then at_ 0x4080 (0x23800000 + c.station.toNat * 0x10)
  else if 0x4088 ≤ q ∧ q < 0x408A then at_ 0x4088 0x2380F000
  else if 0x5000 ≤ q ∧ q < 0x6000 then at_ 0x5000 0x24000000
  else if 0x6000 ≤ q ∧ q < 0x6040 then at_ 0x6000 (0x25000100 + (8 + n) * 0x1000)
  else if 0x6200 ≤ q ∧ q < 0x6400 then at_ 0x6200 (0x25010000 + c.mb.toNat * 0x1000)
  else if 0x7000 ≤ q ∧ q < 0x7200 then at_ 0x7000 0x26000000
  else if 0x8000 ≤ q ∧ q < 0x9000 then at_ 0x8000 0x26010000
  else if 0x9000 ≤ q ∧ q < 0x9100 then at_ 0x9000 0x28001000
  else none

/-- A task may make an access of this kind at a mapped port (R560, R561): the offset within
the region decides where only some of its registers are open to tasks. -/
def taskPort (q : Nat) (write : Bool) : Bool :=
  let o (lo : Nat) : Nat := (q - lo) / 2 * 4
  if q < 0x80 then !write || (0x24 ≤ o 0 && o 0 ≤ 0x2C)
  else if q < 0xA0 then !write && o 0x80 ≠ 0x2C
  else if 0x1200 ≤ q ∧ q < 0x1600 then
    !(o 0x1200 = 0x80 || o 0x1200 = 0x84 || o 0x1200 = 0x100 || o 0x1200 = 0x104
      || (0x300 ≤ o 0x1200 && o 0x1200 < 0x480))
  else if 0x1610 ≤ q ∧ q < 0x1618 then o 0x1610 ≠ 8
  else if 0x2100 ≤ q ∧ q < 0x2200 then !(o 0x2100 = 0 || o 0x2100 = 0x10)
  else if 0x3000 ≤ q ∧ q < 0x3800 then !(0x900 ≤ o 0x3000 && o 0x3000 < 0xA00)
  else if 0x4000 ≤ q ∧ q < 0x4080 then o 0x4000 ≠ 0x80
  else if 0x5000 ≤ q ∧ q < 0x6200 then false
  else if 0x7000 ≤ q ∧ q < 0x7200 then !(write && o 0x7000 = 0x200)
  else if 0x8000 ≤ q ∧ q < 0x9000 then o 0x8000 / 8 ≤ 1007
  else true

/-- q(p, x) (R559). -/
def Core.port (c : Core) (p : Fin 4) (x : Cell) : Nat := (c.pr p + x).toNat

/-- The checks of a port operand, ALIGN then PORT (R561, R562, R630). -/
def checkPort (c : Core) (n q : Nat) (pair write : Bool) : Option Exc :=
  if pair && q % 2 ≠ 0 then some { code := 5, ea := some (w32 q) }
  else if !c.kernel && ((portAddr c n q).isNone || !taskPort q write) then
    some { code := 8, ea := some (w32 q) }
  else none

/-- A read of what a port reaches: a core register needs no fabric access (R560, R597). -/
def portTargetRead (s : State) (n : Nat) : PortTarget → State × Except Err Word
  | .own o => (s, .ok ((coreOf s n).word n o))
  | .fabric a => fabricRead s (n + 3) a

/-- A write of what a port reaches. -/
def portTargetWrite (s : State) (n : Nat) (v : Word) : PortTarget → State × Option Err
  | .own o => (updCore s n (fun c => c.regWrite s.tick o v), none)
  | .fabric a => fabricWrite s (n + 3) a v

/-- One read for a port: IOERR where it returns an error completion, or in kernel level
where nothing is mapped (R564, log entry 48). -/
def portFetch (s : State) (n q : Nat) : State × Except Exc Word :=
  let bad : Exc := { code := 9, ea := some (w32 q) }
  match portAddr (coreOf s n) n q with
  | none => (s, .error bad)
  | some a =>
    match portTargetRead s n a with
    | (s, .ok w) => (s, .ok w)
    | (s, .error _) => (s, .error bad)

/-- One write for a port. -/
def portStore (s : State) (n q : Nat) (v : Word) : State × Option Exc :=
  let bad : Exc := { code := 9, ea := some (w32 q) }
  match portAddr (coreOf s n) n q with
  | none => (s, some bad)
  | some a =>
    match portTargetWrite s n v a with
    | (s, none) => (s, none)
    | (s, some _) => (s, some bad)

/-- A single-cell port read (R563). -/
def portReadCell (s : State) (n q : Nat) : State × Except Exc Nat :=
  let c := coreOf s n
  if q % 2 = 0 then
    match portFetch s n q with
    | (s, .ok w) =>
      (updCore s n (fun c => { c with rdata := (w >>> 16).setWidth 16, rport := BitVec.ofNat 16 q }),
        .ok (fld w 0 16))
    | (s, .error e) => (s, .error e)
  else if c.rport.toNat + 1 = q then (s, .ok c.rdata.toNat)
  else
    match portFetch s n q with
    | (s, .ok w) => (s, .ok (fld w 16 16))
    | (s, .error e) => (s, .error e)

/-- A single-cell port write (R563). -/
def portWriteCell (s : State) (n q v : Nat) : State × Option Exc :=
  let c := coreOf s n
  if q % 2 = 0 then
    (updCore s n (fun c => { c with wdata := BitVec.ofNat 16 v, wport := BitVec.ofNat 16 q }), none)
  else
    portStore s n q (pack [(0, if c.wport.toNat + 1 = q then c.wdata.toNat else 0), (16, v % 65536)])

/-! ### Accesses as moves between operands -/

/-- An operand of an access. -/
inductive Opd where
  | reg (r : Fin 16)
  | pair (k : Fin 8)
  | mem (b : Fin 8) (x : Cell)
  | port (p : Fin 4) (x : Cell)
  deriving DecidableEq, Repr

/-- An access as a move: its source, its destination, its size, and whether a byte is
sign-extended (R613, R614, R616). -/
structure Move where
  src : Opd
  dst : Opd
  size : Size
  sext : Bool := false
  deriving DecidableEq, Repr

def sizeOf (pair : Bool) : Size := if pair then .pair else .cell

def moveOf : Access → Move
  | .ldB rd b x => { src := .mem b x, dst := .reg rd, size := .byte }
  | .ldSb rd b x => { src := .mem b x, dst := .reg rd, size := .byte, sext := true }
  | .ld rd b x => { src := .mem b x, dst := .reg rd, size := .cell }
  | .ldP k b x => { src := .mem b x, dst := .pair k, size := .pair }
  | .stB rs b x => { src := .reg rs, dst := .mem b x, size := .byte }
  | .st rs b x => { src := .reg rs, dst := .mem b x, size := .cell }
  | .stP k b x => { src := .pair k, dst := .mem b x, size := .pair }
  | .inCell rd p x => { src := .port p x, dst := .reg rd, size := .cell }
  | .inPair k p x => { src := .port p x, dst := .pair k, size := .pair }
  | .outCell rs p x => { src := .reg rs, dst := .port p x, size := .cell }
  | .outPair k p x => { src := .pair k, dst := .port p x, size := .pair }
  | .mvm z f g x y => { src := .mem f x, dst := .mem g y, size := z }
  | .inm pr f p x y => { src := .port p y, dst := .mem f x, size := sizeOf pr }
  | .outm pr f p x y => { src := .mem f x, dst := .port p y, size := sizeOf pr }

/-- The cells of an access instruction (R599). -/
def accessLen : Access → Nat
  | .mvm _ _ _ _ _ => 3
  | .inm _ _ _ _ _ => 3
  | .outm _ _ _ _ _ => 3
  | _ => 2

/-- The checks of one operand (R630). -/
def checkOpd (s : State) (n : Nat) (z : Size) (write : Bool) : Opd → Option Exc
  | .mem b x => checkData s (coreOf s n) b x z write
  | .port p x => checkPort (coreOf s n) n ((coreOf s n).port p x) (z = .pair) write
  | _ => none

/-- The value of a source operand. -/
def readOpd (s : State) (n : Nat) (z : Size) : Opd → State × Except Exc Nat
  | .reg r => (s, .ok ((coreOf s n).dr r).toNat)
  | .pair k => (s, .ok ((coreOf s n).pair k).toNat)
  | .mem b x => loadData s n ((coreOf s n).ea b x) z
  | .port p x =>
    let q := (coreOf s n).port p x
    if z = .pair then
      match portFetch s n q with
      | (s, .ok w) => (s, .ok w.toNat)
      | (s, .error e) => (s, .error e)
    else portReadCell s n q

/-- Write a destination operand. -/
def writeOpd (s : State) (n : Nat) (z : Size) (v : Nat) : Opd → State × Option Exc
  | .reg r => (updCore s n (fun c => c.setD r (BitVec.ofNat 16 v)), none)
  | .pair k => (updCore s n (fun c => c.setPair k (w32 v)), none)
  | .mem b x => (storeData s n ((coreOf s n).ea b x) z v, none)
  | .port p x =>
    let q := (coreOf s n).port p x
    if z = .pair then portStore s n q (w32 v) else portWriteCell s n q v

/-- Sign extension of a byte to a cell. -/
def sext8 (v : Nat) : Nat := if v < 128 then v else v + 0xFF00

/-- Perform an access once: the checks of both operands, then the move (R630). -/
def doMove (s : State) (n : Nat) (m : Move) : State × Option Exc :=
  match (checkOpd s n m.size false m.src).or (checkOpd s n m.size true m.dst) with
  | some e => (s, some e)
  | none =>
    match readOpd s n m.size m.src with
    | (s, .error e) => (s, some e)
    | (s, .ok v) => writeOpd s n m.size (if m.sext then sext8 v else v) m.dst

/-- Raise an exception of an access at its instruction or prefix. -/
def raiseExc (s : State) (n : Nat) (e : Exc) : State :=
  exception s n e.code false (coreOf s n).pc e.ea

/-- An access instruction without a prefix. -/
def accessInstr (s : State) (n : Nat) (a : Access) : State :=
  begin_ s n (accessLen a) (fun s =>
    match doMove s n (moveOf a) with
    | (s, some e) => raiseExc s n e
    | (s, none) => updCore s n (fun c => c.skip (accessLen a)))

/-! ### Repeat prefixes (R576 to R580, R622 to R625) -/

/-- The base registers an access reaches Basin through, each once. -/
def Move.bases (m : Move) : List (Fin 8) :=
  match m.src, m.dst with
  | .mem f _, .mem g _ => if f = g then [f] else [f, g]
  | .mem f _, _ => [f]
  | _, .mem g _ => [g]
  | _, _ => []

/-- The port base an access uses. -/
def Move.portBase (m : Move) : Option (Fin 4) :=
  match m.src, m.dst with
  | .port p _, _ => some p
  | _, .port p _ => some p
  | _, _ => none

/-- The operands after an iteration (R576, R622), then the count. -/
def Core.advance (c : Core) (m : Move) (dc : Fin 16) (stride : Bool) : Core :=
  let c := m.bases.foldl (fun c b => c.setBase b ((c.br b).base + w32 (sizeBytes m.size))) c
  let c := match m.portBase, stride with
    | some p, true => c.setP p (c.pr p + BitVec.ofNat 16 (sizeBytes m.size / 2))
    | _, _ => c
  c.setD dc (c.dr dc - 1)

/-- A prefixed instruction may be left at an iteration boundary (R569, R577, R628). -/
def mayStop (s : State) (n : Nat) : Bool :=
  ((coreOf s n).ie && requested s (n + 1)) || !(coreOf s n).storeErr.isEmpty

/-- The iterations of a prefix: the state, the exception that ended them, and whether the
prefix is done. `stop` counts the iterations until an early end. -/
def iterate (n : Nat) (m : Move) (dc : Fin 16) (stride : Bool) :
    Nat → Option Nat → State → State × Option Exc × Bool
  | 0, _, s => (s, none, false)
  | fuel + 1, stop, s =>
    if (coreOf s n).dr dc = 0 then (s, none, true)
    else if stop = some 0 && mayStop s n then (s, none, false)
    else
      match doMove s n m with
      | (s, some e) => (s, some e, false)
      | (s, none) =>
        iterate n m dc stride fuel (stop.map (· - 1))
          (updCore s n (fun c => c.advance m dc stride))

/-- A prefix with its instruction (R577 to R580): PC stays at the prefix until dc is 0. A run
of more than 65,536 iterations goes on with the next command. -/
def repeat_ (s : State) (n : Nat) (dc : Fin 16) (a : Access) (stride short : Bool)
    (stop : Option Nat) : State :=
  begin_ s n (1 + accessLen a) (fun s =>
    if short && decide (32 < ((coreOf s n).dr dc).toNat) then raiseExc s n { code := 10 }
    else
      match iterate n (moveOf a) dc stride 65537 stop s with
      | (s, some e, _) => raiseExc s n e
      | (s, none, false) => s
      | (s, none, true) => updCore s n (fun c => c.skip (1 + accessLen a)))

/-- An early end comes after at least one iteration (R577). -/
def stopAfter (stop : Option Nat) : Option Nat := stop.filter (fun k => 1 ≤ k)

/-! ### The commands -/

/-- `rep` (R577). -/
def execRepInstr (core : Fin 8) (dc : Fin 16) (acc : Access) (stop : Option Nat) (s : State) :
    Host.Outcome State Fault Refusal :=
  .next (repeat_ s core dc acc false false (stopAfter stop))

/-- `rep.i` (R577). -/
def execRepI (core : Fin 8) (dc : Fin 16) (acc : Access) (stop : Option Nat) (s : State) :
    Host.Outcome State Fault Refusal :=
  .next (repeat_ s core dc acc true false (stopAfter stop))

/-- `reps` (R578). -/
def execReps (core : Fin 8) (dc : Fin 16) (acc : Access) (s : State) :
    Host.Outcome State Fault Refusal :=
  .next (repeat_ s core dc acc false true none)

/-- `reps.i` (R578). -/
def execRepsI (core : Fin 8) (dc : Fin 16) (acc : Access) (s : State) :
    Host.Outcome State Fault Refusal :=
  .next (repeat_ s core dc acc true true none)

/-- `ld.b` (R613). -/
def execLdB (core : Fin 8) (rd : Fin 16) (b : Fin 8) (x : Cell) (s : State) :
    Host.Outcome State Fault Refusal :=
  .next (accessInstr s core (.ldB rd b x))

/-- `ld.sb` (R613). -/
def execLdSb (core : Fin 8) (rd : Fin 16) (b : Fin 8) (x : Cell) (s : State) :
    Host.Outcome State Fault Refusal :=
  .next (accessInstr s core (.ldSb rd b x))

/-- `ld` (R613). -/
def execLd (core : Fin 8) (rd : Fin 16) (b : Fin 8) (x : Cell) (s : State) :
    Host.Outcome State Fault Refusal :=
  .next (accessInstr s core (.ld rd b x))

/-- `ld.p` (R613). -/
def execLdP (core : Fin 8) (k b : Fin 8) (x : Cell) (s : State) :
    Host.Outcome State Fault Refusal :=
  .next (accessInstr s core (.ldP k b x))

/-- `st.b` (R613). -/
def execStB (core : Fin 8) (rs : Fin 16) (b : Fin 8) (x : Cell) (s : State) :
    Host.Outcome State Fault Refusal :=
  .next (accessInstr s core (.stB rs b x))

/-- `st` (R613). -/
def execSt (core : Fin 8) (rs : Fin 16) (b : Fin 8) (x : Cell) (s : State) :
    Host.Outcome State Fault Refusal :=
  .next (accessInstr s core (.st rs b x))

/-- `st.p` (R613). -/
def execStP (core : Fin 8) (k b : Fin 8) (x : Cell) (s : State) :
    Host.Outcome State Fault Refusal :=
  .next (accessInstr s core (.stP k b x))

/-- `in` (R614). -/
def execInCell (core : Fin 8) (rd : Fin 16) (p : Fin 4) (x : Cell) (s : State) :
    Host.Outcome State Fault Refusal :=
  .next (accessInstr s core (.inCell rd p x))

/-- `in.p` (R614). -/
def execInPair (core : Fin 8) (k : Fin 8) (p : Fin 4) (x : Cell) (s : State) :
    Host.Outcome State Fault Refusal :=
  .next (accessInstr s core (.inPair k p x))

/-- `out` (R614). -/
def execOutCell (core : Fin 8) (rs : Fin 16) (p : Fin 4) (x : Cell) (s : State) :
    Host.Outcome State Fault Refusal :=
  .next (accessInstr s core (.outCell rs p x))

/-- `out.p` (R614). -/
def execOutPair (core : Fin 8) (k : Fin 8) (p : Fin 4) (x : Cell) (s : State) :
    Host.Outcome State Fault Refusal :=
  .next (accessInstr s core (.outPair k p x))

/-- `mvm` (R616). -/
def execMvm (core : Fin 8) (size : Size) (f g : Fin 8) (x y : Cell) (s : State) :
    Host.Outcome State Fault Refusal :=
  .next (accessInstr s core (.mvm size f g x y))

/-- `inm` (R616). -/
def execInm (core : Fin 8) (pair : Bool) (f : Fin 8) (p : Fin 4) (x y : Cell) (s : State) :
    Host.Outcome State Fault Refusal :=
  .next (accessInstr s core (.inm pair f p x y))

/-- `outm` (R616). -/
def execOutm (core : Fin 8) (pair : Bool) (f : Fin 8) (p : Fin 4) (x y : Cell) (s : State) :
    Host.Outcome State Fault Refusal :=
  .next (accessInstr s core (.outm pair f p x y))

end Sys2Proof.Machine
end

