-- ==== Sys2Proof/Machine/Command.lean ====
section
/-! DEFINITION. How the Lockkeeper takes, checks and answers a command (chapter 04, R154 to
R170, R182, R188), and the commands of classes Q and M (R189 to R191, R548, R598, R806). -/

namespace Sys2Proof.Machine

/-! ### Commands and their outcomes -/

/-- The classes of R51 and R188. -/
inductive Cls where
  | q | m | c | d | sv | i
  deriving DecidableEq, Repr

/-- A command as the Lockkeeper has read it (R154): its mailbox, header, payload CRC and
payload. -/
structure Cmd where
  mb : Nat
  header : Word
  crc : Word
  words : List Word
  deriving DecidableEq, Repr

/-- FLAGS (R154). -/
def Cmd.flags (c : Cmd) : Nat := fld c.header 0 12
/-- Payload word wk; 0 where the message is shorter. -/
def Cmd.w (c : Cmd) (k : Nat) : Word := c.words.getD (k - 1) 0

/-- How the execution of a command ends. -/
inductive Res where
  /-- A reply: its status and payload. -/
  | done (s : State) (st : Nat) (w : List Word)
  /-- It waits (R158, R199). -/
  | wait (s : State) (w : Waiting)
  /-- No reply (R199). -/
  | silent (s : State)

/-! ### Taking a message (R53, R54, R157, R158) -/

/-- The boot ROM serves MB0 (R54). -/
def inRecover (s : State) : Bool :=
  s.sys.mode = mRECOVER && !s.sys.inReset && running s islLK

/-- A RESET of an island is executing: it does not release the Lockkeeper (R158, R199). -/
def resetting (s : State) : Bool :=
  s.fw.waiting.any (fun p => match p.2 with
    | .reset _ _ _ => true
    | _ => false)

/-- A mailbox can be served now: the firmware runs, no RESET of an island is executing, nothing
waits on that mailbox, and nothing is left from a warm restart (R158, R183); or the boot ROM
serves MB0. -/
def serves (s : State) (mb : Nat) : Bool :=
  if inRecover s then mb = 0
  else fwRuns s && !s.fw.silent && !resetting s && (Tab.find? s.fw.waiting mb).isNone

/-- The words of the message at the head of a queue (R99). -/
def headWords : List QWord → List Word
  | [] => []
  | w :: r => if w.eom then [w.data] else w.data :: headWords r

/-- A message is committed in queue AB of a mailbox. -/
def hasMsg (s : State) (mb : Nat) : Bool := !(mbxOf s mb).ab.words.isEmpty

/-- The round-robin turn of a mailbox has come: no mailbox that can be served and holds a message
comes before it (R157). -/
def itsTurn (s : State) (mb : Nat) : Bool :=
  (List.range ((mb + 8 - s.fw.turn % 8) % 8)).all (fun k =>
    let m := (s.fw.turn + k) % 8
    !(serves s m && hasMsg s m))

/-- A message of a mailbox is the one that is served now: in its turn, and none that was committed
before it is left in the queue (R157; log entry 44). -/
def takes (s : State) (mb : Nat) (l : List Word) : Bool :=
  serves s mb && itsTurn s mb && (!hasMsg s mb || headWords (mbxOf s mb).ab.words = l)

/-- Read `n` words of a mailbox (R106). -/
def popWords (s : State) (mb : Nat) : Nat → State
  | 0 => s
  | n + 1 => popWords (rxPop s mb true).1 mb n

/-- The message leaves queue AB where it stands there (log entry 44), the turn passes on (R157), and
the host watchdog starts afresh (R63). -/
def takeMsg (s : State) (mb : Nat) (l : List Word) : State :=
  let s := if hasMsg s mb then popWords s mb l.length else s
  onFw s (fun f => { f with wdStart := s.tick, turn := (mb + 1) % 8 })

/-! ### Checks (R51, R52, R161, R163, R165) -/

/-- A class is accepted in the present mode (R51, R54). `rec` marks a recovery command. -/
def accepted (s : State) (cls : Cls) (rec : Bool) : Bool :=
  if s.sys.mode = mRECOVER then rec
  else match cls with
    | .sv | .i => s.sys.mode = mSERVICE
    | .q | .m | .c | .d => true

/-- A status for a check: OK where it holds. -/
def need (ok : Bool) (st : Nat) : Nat := if ok then stOK else st

/-- The status of the first check that fails (R163). -/
def firstFail : List Nat → Nat
  | [] => stOK
  | x :: r => if x = stOK then firstFail r else x

/-- Go on where every check holds; otherwise reply with the first status and no effect
(R164). -/
def guarded (s : State) (checks : List Nat) (f : State → Res) : Res :=
  if firstFail checks = stOK then f s else .done s (firstFail checks) []

/-- How many indices a type has (R159). -/
def indexRange (t : Nat) : Nat := [0, 2048, 2048, 512, 2048, 64, 4096, 16384, 256].getD t 0

/-- An index holds an object; a station that DESTROY has named is none any more. -/
def objectLive (s : State) (t i : Nat) : Bool :=
  if t = tSCENE then (sceneOf s i).isSome
  else if t = tSTATION then (stationOf s i).any (fun x => !x.ending)
  else if t = tVOICE then (voiceOf s i).isSome
  else if t = tMIX then (mixOf s i).isSome
  else if t = tDMA then decide ((chanOf s i).state ≠ .closed)
  else if t = tFENCE then (Tab.find? s.fw.fences i).isSome
  else if t = tMOORING then (Tab.find? s.fw.moorings i).isSome
  else if t = tSCRIPT then (taskOf s i).isSome
  else false

def handleType (h : Word) : Nat := fld h 28 4
def handleIndex (h : Word) : Nat := fld h 0 16

/-- The status of a handle argument that accepts some types (R161). -/
def handleStatus (s : State) (types : List Nat) (h : Word) : Nat :=
  let t := handleType h
  let i := handleIndex h
  if h = 0 ∨ ¬ types.contains t ∨ indexRange t ≤ i then stBAD_HANDLE
  else if handleOf s t i ≠ h then stSTALE_HANDLE
  else need (objectLive s t i) stBAD_HANDLE

/-- Every type of R159. -/
def anyType : List Nat := [1, 2, 3, 4, 5, 6, 7, 8]

/-- The handle argument in wk; a word that the message does not have is a wrong COUNT, not a
handle. -/
def Cmd.handle (c : Cmd) (s : State) (k : Nat) (types : List Nat) : Nat :=
  if c.words.length < k then stOK else handleStatus s types (c.w k)

/-- A handle argument that may be 0. -/
def Cmd.handle0 (c : Cmd) (s : State) (k : Nat) (types : List Nat) : Nat :=
  if c.w k = 0 then stOK else c.handle s k types

/-- An event mooring, or 0 for the device mooring (R188). -/
def Cmd.mooring (c : Cmd) (s : State) (k : Nat) : Nat :=
  let st := c.handle0 s k [tMOORING]
  if st ≠ stOK ∨ c.w k = 0 ∨ c.words.length < k then st
  else need ((Tab.find? s.fw.moorings (handleIndex (c.w k))).any (fun m => m.kind = 0)) stBAD_HANDLE

/-- COUNT is that of the catalogue (R188), and FLAGS has no bit set outside a mask. -/
def Cmd.shape (c : Cmd) (count flags : Nat) : Nat :=
  need (c.words.length = count && decide (c.flags &&& (4095 - flags) = 0)) stBAD_ARG

/-- Bits outside a mask are reserved (R163). -/
def rsv (w mask : Word) : Nat := need (w &&& ~~~ mask = 0) stBAD_ARG

/-- Islands that the effect needs (R40). -/
def needs (s : State) (l : List Nat) : Nat := need (l.all (fun i => running s i)) stFENCED

/-- The four bank islands. -/
def banks : List Nat := [5, 6, 7, 8]

/-- The banks that bytes a to a + n - 1 lie in (R201). -/
def banksOf (a n : Nat) : List Nat :=
  if 1024 ≤ n then banks
  else ((List.range (n / 256 + 2)).filter (fun k => (a / 256 + k) * 256 < a + n)).map
    (fun k => islBank ((a / 256 + k) % 4))

/-- A REBIND_STATION waits on a station (R182). -/
def rebindWaits (s : State) (k : Nat) : Bool :=
  s.fw.waiting.any (fun p => match p.2 with
    | .rebind _ _ st _ _ _ => decide (st = k)
    | _ => false)

/-- No REBIND_STATION waits on the station that wk names (R182). -/
def Cmd.free (c : Cmd) (s : State) (k : Nat) : Nat :=
  need (!(handleType (c.w k) = tSTATION && rebindWaits s (handleIndex (c.w k)))) stBUSY

/-! ### The reply -/

/-- The kept result that a command repeats (R165). -/
def duplicateOf (s : State) (c : Cmd) : Option Kept :=
  (windowOf s c.mb).find? (fun k => k.header = c.header && k.crc = c.crc)

/-- The DUPLICATE reply (R155, R165). -/
def replyDuplicate (s : State) (c : Cmd) (k : Kept) : State :=
  let w := k.reply.tail
  sendReply s c.mb (replyHeader c.header w.length stDUPLICATE (fld (k.reply.headD 0) 0 6) :: w)

/-- The end of an execution: its reply, or its place among the commands that wait. -/
def finish (c : Cmd) : Res → State
  | .done s st w => reply s c.mb c.header c.crc st w
  | .wait s w => onFw s (fun f => { f with waiting := Tab.put f.waiting c.mb w })
  | .silent s => s

/-- A command that a firmware fault ends has had no effect: INTERNAL, and an INTERNAL_FAULT record
(R163 check 8, R186). Checks 1 to 7, ECC and the like come before it (log entry 44). -/
def faulting (fault : Bool) (s : State) (r : Res) : Res :=
  let bad : Res := .done (internalFault s) stINTERNAL []
  if !fault then r
  else match r with
    | .done _ st _ => if st = stOK then bad else r
    | _ => bad

/-- A whole command (R163): taken, and then a duplicate, refused by its mode, or run. -/
def runCommand (s : State) (c : Cmd) (cls : Cls) (rec fault : Bool) (run : Cmd → State → Res) : State :=
  let s := takeMsg s c.mb (c.header :: c.words)
  match duplicateOf s c with
  | some k => replyDuplicate s c k
  | none =>
    if accepted s cls rec then
      let s := causes s c.mb
      caused (finish c (faulting fault s (run c s)))
    else finish c (.done s stWRONG_MODE [])

/-- The command that a message of a row spells (R154). -/
def cmdOf (op : Nat) (mb : Fin 8) (msg : Msg) : Cmd :=
  { mb := mb, header := pack [(0, msg.flags.toNat), (12, msg.words.length), (16, msg.tag.toNat), (24, op)],
    crc := payloadCrc msg.words, words := msg.words }

/-- A row of the catalogue: a message of at most seven payload words that is taken. -/
def command (op : Nat) (cls : Cls) (rec : Bool) (mb : Fin 8) (msg : Msg) (s : State)
    (run : Cmd → State → Res) : Host.Outcome State Fault Refusal :=
  if msg.words.length ≤ 7 then
    let c := cmdOf op mb msg
    .next (if takes s mb (c.header :: c.words) then runCommand s c cls rec msg.fault run else s)
  else .refused .illFormed

/-- What follows a command's reply. -/
def onNext (o : Host.Outcome State Fault Refusal) (f : State → State) : Host.Outcome State Fault Refusal :=
  match o with
  | .next s => .next (f s)
  | .fault x => .fault x
  | .refused x => .refused x

/-! ### UNDEFINED_OPCODE (R154, R163, R166) -/

/-- The opcodes of the catalogue (R188). -/
def opcodes : List Nat :=
  [0x01, 0x02, 0x03, 0x04, 0x08, 0x09, 0x10, 0x11, 0x12, 0x13, 0x14, 0x15, 0x16, 0x17, 0x18, 0x19]
    ++ [0x1A, 0x1B, 0x1C, 0x1D, 0x1E, 0x1F, 0x20, 0x21, 0x2F, 0x30, 0x31, 0x32, 0x33, 0x40, 0x41, 0x42]
    ++ [0x50, 0x51, 0x52, 0x53, 0x54]

/-- A message that check 1 of R163 refuses: no opcode of the catalogue, or a COUNT that is not
the number of payload words. -/
def malformed (header : Word) (words : List Word) : Bool :=
  words.length ≤ 7 && (!opcodes.contains (fld header 24 8) || decide (fld header 12 4 ≠ words.length))

/-- UNDEFINED_OPCODE (R163 check 1): BAD_ARG, not recorded (R166). -/
def execUndefinedOpcode (mb : Fin 8) (header : Word) (words : List Word) (s : State) :
    Host.Outcome State Fault Refusal :=
  if malformed header words then
    .next (if takes s mb (header :: words) then
        sendReply (takeMsg s mb (header :: words)) mb (replyWords header stBAD_ARG [])
      else s)
  else .refused .illFormed

/-! ### The Basin pool (R171, R172) -/

/-- The runs of pages in use: user blocks and firmware-owned runs. -/
def poolRuns (s : State) : List (Nat × Nat) := s.fw.blocks ++ s.fw.fwRuns

/-- Free pages of the pool (R189). -/
def poolFree (s : State) : Nat := 960 - (poolRuns s).foldl (fun a r => a + r.2) 0

/-- The lowest run of `n` free pages of the pool (DESIGN CHOICE, log entry 44). -/
def poolFit (s : State) (n : Nat) : Option Nat :=
  firstFrom (fun p => decide (p + n ≤ 1024)
    && (poolRuns s).all (fun r => decide (p + n ≤ r.1) || decide (r.1 + r.2 ≤ p))) 960 64

/-- Bytes a to a + n - 1 lie wholly in one user block (R188). -/
def inBlock (s : State) (a n : Nat) : Bool :=
  decide (1 ≤ n) && s.fw.blocks.any (fun b => decide (b.1 * 65536 ≤ a)
    && decide (a + n ≤ (b.1 + b.2) * 65536))

/-- The status of an address argument with its length (R188). -/
def inUser (s : State) (a n : Nat) : Nat := need (inBlock s a n) stBAD_ARG

/-- The firmware zeroes pages by full writes (R192, R338). Bytes that nothing has written read
as 0, so only the first doubleword of each bank is written here, which an armed BS_INJECT
meets (R236). -/
def zeroPages (s : State) (p n : Nat) : State :=
  let a := p * 65536
  let e := (p + n) * 65536
  let out (k lo hi : Nat) : Bool := decide (k < lo) || decide (hi ≤ k)
  let s := onBasin s (fun x => { x with
    bytes := x.bytes.filter (fun q => out q.1 a e),
    synd := x.synd.filter (fun q => out q.1 (a / 8) (e / 8)),
    tags := x.tags.filter (fun q => out q.1 (a / 8) (e / 8)) })
  (List.range 4).foldl (fun s b => fullWrite s ((a + 256 * b) / 8) 0) s

/-- Pages of the pool become firmware-owned, zeroed (R172). -/
def takePages (s : State) (n : Nat) : Option (State × Nat) :=
  (poolFit s n).map (fun p => (zeroPages (onFw s (fun f => { f with fwRuns := Tab.put f.fwRuns p n })) p n, p))

/-- A firmware-owned run of pages returns to the pool. -/
def freeRun (s : State) (r : Option (Nat × Nat)) : State :=
  match r with
  | none => s
  | some (p, _) => onFw s (fun f => { f with fwRuns := Tab.erase f.fwRuns p })

/-! ### Class Q (R189, R548, R598, R806) -/

/-- IDENTIFY (R169, R189). -/
def execIdentify (mb : Fin 8) (msg : Msg) (s : State) : Host.Outcome State Fault Refusal :=
  command 0x01 .q true mb msg s (fun c s => guarded s [c.shape 0 1] (fun s =>
    let rom := inRecover s
    let s := if c.flags % 2 = 1 then onFw s (fun f => { f with windows := Tab.erase f.windows mb }) else s
    .done s stOK [if rom then 0 else s.fw.version, sysWord s.sys 0x10,
      pack [(0, s.sys.mode.toNat), (4, s.sys.slot.toNat), (8, b2n rom)]]))

/-- STATUS (R189). -/
def execStatusCommand (mb : Fin 8) (msg : Msg) (s : State) : Host.Outcome State Fault Refusal :=
  command 0x02 .q true mb msg s (fun c s => guarded s [c.shape 0 0] (fun s =>
    .done s stOK [pack [(0, fenceMap s), (16, s.sys.mode.toNat)], w32 (poolFree s),
      pack [(0, 2048 - s.tp.scenes.length), (16, 2048 - s.tl.stations.length)],
      w32 (16384 - s.fw.moorings.length)]))

/-- A register's word in a QUERY reply: 0 while its island is fenced (R806). -/
def upWord (s : State) (i : Nat) (w : Word) : Word := if running s i then w else 0

/-- Words w2 and on of a QUERY reply (R548, R598, R806). -/
def queryWords (s : State) (t i : Nat) : List Word :=
  if t = tSCENE then
    match sceneOf s i with
    | none => []
    | some c => [1, upWord s islTP (c.beamWord s.tick.toNat), w32 c.block, upWord s islTP c.statusWord]
  else if t = tSTATION then
    match stationOf s i with
    | none => []
    | some x => [pack [(0, x.code), (16, x.thr)], w32 (recordOf i), x.fresh.getD 0,
        pack [(0, x.seqNext.toNat), (16, b2n x.write.isSome)], x.configId.setWidth 32,
        w32 (min 65535 x.misses)]
  else if t = tVOICE then
    match voiceOf s i with
    | none => []
    | some x => [1, upWord s islCV x.statusWord, upWord s islCV x.routeWord]
  else if t = tMIX then
    match mixOf s i with
    | none => []
    | some x => [1, upWord s islCV (mixStatus s i x), upWord s islCV (mixTarget s x)]
  else if t = tDMA then
    [1, upWord s islSL (chanOf s i).stateWord, upWord s islSL (chanOf s i).done]
  else if t = tFENCE then
    match Tab.find? s.fw.fences i with
    | none => []
    | some f => [if f.signalled then 2 else 1, f.value]
  else if t = tMOORING then
    match Tab.find? s.fw.moorings i with
    | none => []
    | some m => [1, w32 m.ring, w32 m.cb, m.w3]
  else
    match taskOf s i with
    | none => []
    | some x => [pack [(0, x.state), (8, x.prio.toNat), (12, x.deck), (16, x.eff)],
        pack [(0, x.faultCode.toNat), (16, x.faultPc.toNat)], x.missed,
        pack [(0, x.len), (16, if x.len = 0 then 0 else x.cell)]]

/-- QUERY (R189, R548, R598, R806). -/
def execQueryCommand (mb : Fin 8) (msg : Msg) (s : State) : Host.Outcome State Fault Refusal :=
  command 0x03 .q false mb msg s (fun c s =>
    guarded s [c.handle s 1 anyType, c.shape 1 0, c.free s 1] (fun s =>
      .done s stOK (c.w 1 :: queryWords s (handleType (c.w 1)) (handleIndex (c.w 1)))))

/-- NOP (R189): any payload. -/
def execNopCommand (mb : Fin 8) (msg : Msg) (s : State) : Host.Outcome State Fault Refusal :=
  command 0x04 .q true mb msg s (fun c s =>
    guarded s [c.shape c.words.length 0] (fun s => .done s stOK []))

/-! ### Class M (R55, R65, R190, R191) -/

/-- A SET_MODE is in progress (R65). -/
def modePending (s : State) : Bool :=
  s.fw.waiting.any (fun p => match p.2 with
    | .setMode _ _ _ _ _ => true
    | _ => false)

/-- SET_MODE (R55, R65, R190): a target that R55 does not allow is WRONG_MODE; the present mode
is OK at once. -/
def execSetMode (mb : Fin 8) (msg : Msg) (s : State) : Host.Outcome State Fault Refusal :=
  command 0x08 .m false mb msg s (fun c s =>
    let t := BitVec.ofNat 4 (fld (c.w 1) 0 4)
    guarded s [need (msg.words.isEmpty || t = s.sys.mode || mayGo s.sys.mode t) stWRONG_MODE,
        c.shape 1 0, rsv (c.w 1) 0xF, need (!modePending s) stBUSY] (fun s =>
      if t = s.sys.mode then .done s stOK [t.setWidth 32]
      else .wait s (.setMode c.header c.crc t s.tick false)))

/-- SET_WATCHDOG (R62, R191). -/
def execSetWatchdog (mb : Fin 8) (msg : Msg) (s : State) : Host.Outcome State Fault Refusal :=
  command 0x09 .m false mb msg s (fun c s =>
    let n := (c.w 1).toNat
    guarded s [c.shape 1 0, need (n = 0 || decide (10 ≤ n ∧ n ≤ 60000)) stBAD_ARG] (fun s =>
      .done (onFw s (fun f => { f with wdPeriod := n, wdStart := s.tick })) stOK []))

end Sys2Proof.Machine
end

