-- ==== Sys2Proof/Machine/CommandObj.lean ====
section
/-! DEFINITION. The commands that create and destroy the memory-side objects of the host
(chapter 04, R171 to R174, R192, R194, R802, R803): user blocks, moorings, scenes, fence
objects, channels, voices, mixes and scripts. -/

namespace Sys2Proof.Machine

/-! ### Indices (R159, R160) -/

/-- An index cannot be given to a new object: it holds one, or it is that of a station whose
exchange has not ended (R805). -/
def taken (s : State) (t i : Nat) : Bool :=
  if t = tSTATION then (stationOf s i).isSome else objectLive s t i

/-- The lowest free index of a type (DESIGN CHOICE, log entry 44). -/
def freeIndex (s : State) (t : Nat) : Option Nat :=
  firstFrom (fun i => !taken s t i) (indexRange t) 0

/-- Go on with a free index of a type (R37). -/
def withIndex (s : State) (t : Nat) (f : Nat → Res) : Res :=
  match freeIndex s t with
  | some i => f i
  | none => .done s stNO_RESOURCE []

/-- The reply of a command that has created an object (R192). -/
def created (s : State) (t i : Nat) : Res := .done s stOK [handleOf s t i]

/-- The generation after one (R160). -/
def nextGen (g : BitVec 12) : BitVec 12 := if g = 0xFFF then 1 else g + 1

/-- DESTROY of an index: its generation increments (R160), and no record that has not been
written names the handle any more (R184). -/
def retireHandle (s : State) (t i : Nat) : State :=
  let h := handleOf s t i
  let s := onFw s (fun f => { f with
    gens := Tab.set 1 f.gens (65536 * t + i) (nextGen (genOf s t i)),
    held := f.held.filter (fun r => r.source ≠ h) })
  stagingLevel { s with staging := s.staging.filter (fun r => r.source ≠ h) }

/-! ### User blocks (R172, R192) -/

/-- BASIN_ALLOC (R172, R192). -/
def execBasinAlloc (mb : Fin 8) (msg : Msg) (s : State) : Host.Outcome State Fault Refusal :=
  command 0x10 .c false mb msg s (fun c s =>
    let n := fld (c.w 1) 0 11
    guarded s [c.shape 1 0, rsv (c.w 1) 0x307FF, need (decide (1 ≤ n ∧ n ≤ 1024)) stBAD_ARG,
        needs s banks] (fun s =>
      match poolFit s n with
      | none => .done s stNO_RESOURCE []
      | some p =>
        let s := zeroPages (onFw s (fun f => { f with blocks := Tab.put f.blocks p n })) p n
        let g : BitVec 2 := if bit (c.w 1) 16 then 3 else if bit (c.w 1) 17 then 1 else 0
        .done (setGuards s p n g) stOK [w32 (p * 65536)]))

/-- The structures that shadowed registers name (R341 to R348, R358, R373, R378): the address and the
length of each. L3 in bitmap mode names its bitmap. -/
def structsOf (t : Tab Word) : List (Nat × Nat) :=
  ([0, 1, 2, 3].map (fun l =>
    let g := rget t (layReg l 3)
    let sz := rget t (layReg l 4)
    (addrOf (rget t (layReg l 2)),
      if l = 3 ∧ bit g 12 then fld sz 0 12 * fld sz 16 12
      else 32 * 2 ^ fld g 0 2 * (32 * 2 ^ fld g 2 2) * 4)))
    ++ [(addrOf (rget t 0x22), 3072), (addrOf (rget t 0x61), 4096), (addrOf (rget t 0x68), 1024),
        (addrOf (rget t 0x69), 1024)]

/-- The 1,024 entries of a line table that a TP_SC_LINETAB value enables (R299, R324). -/
def tableOf (v : Word) : List (Nat × Nat) := if bit v 0 then [(fld v 3 23 * 8, 8192)] else []

/-- What a scene names in Basin: its block, the structures of its active values and of its pending
flips, and its line tables (R192). -/
def Scene.areas (c : Scene) : List (Nat × Nat) :=
  (c.block, 1024) :: structsOf c.active ++ tableOf c.linetab
    ++ c.latches.flatMap (fun l => match l with
      | .flip _ t _ _ => structsOf t
      | .linetab _ v => tableOf v)

/-- A live mooring or scene names a byte of a user block (R192). A station's record and images lie in
firmware-owned Basin, so that it names none. -/
def blockNamed (s : State) (a e : Nat) : Bool :=
  let hits (q : Nat × Nat) : Bool := decide (q.1 < e) && decide (a < q.1 + q.2)
  s.fw.moorings.any (fun m => hits (m.2.ring, 16 * m.2.size) || hits (m.2.cb, 16))
    || s.tp.scenes.any (fun c => c.2.areas.any hits)

/-- BASIN_FREE (R192): the address is that of a user block. -/
def execBasinFree (mb : Fin 8) (msg : Msg) (s : State) : Host.Outcome State Fault Refusal :=
  command 0x11 .c false mb msg s (fun c s =>
    let a := (c.w 1).toNat
    let p := a / 65536
    let n := Tab.get 0 s.fw.blocks p
    guarded s [c.shape 1 0, need (a % 65536 = 0 && n ≠ 0) stBAD_ARG,
        need (!blockNamed s a (a + n * 65536)) stBUSY] (fun s =>
      .done (setGuards (onFw s (fun f => { f with blocks := Tab.erase f.blocks p })) p n 0) stOK []))

/-! ### Moorings (R174, R192, R381, R649, R682, R802, R803) -/

/-- The host or a Deckhand (R802). -/
def isProducer (a : Nat) : Bool := a = 1 || (3 ≤ a && a ≤ 10)

/-- The pairs of R802 for a KIND. -/
def pairOk (kind prod cons : Nat) : Bool :=
  if kind = 0 then prod = 0 && (1 ≤ cons && cons ≤ 10)
  else if kind = 1 then isProducer prod && cons = 12
  else if kind = 2 then
    (isProducer prod && cons = 11) || ((1 ≤ prod && prod ≤ 10) && (1 ≤ cons && cons ≤ 10))
  else false

/-- SIGNAL for a consumer (R192, R381, R682). -/
def signalOk (cons sig : Nat) : Bool :=
  sig = 0 || (if cons = 1 then 8 ≤ sig else cons ≤ 10 && sig ≤ 31)

/-- The mooring has a watch entry (R649). -/
def Moor.watched (m : Moor) : Bool := m.signal ≠ 0 && !(m.kind = 0 && m.consumer = 1)

/-- A submission mooring (R682). -/
def Moor.submits (m : Moor) : Bool := m.kind = 2 && m.consumer = 11

/-- Write the held records; what a marker holds up is left (R803). -/
def deliverHeld : List Rec → State → State × List Rec
  | [], s => (s, [])
  | r :: l, s =>
    match deliver s r with
    | (s, true) => deliverHeld l s
    | (s, false) => (s, r :: l)

/-- A new device mooring takes the held records, then counts those beyond the 64th and takes
their OVERFLOW record (R180, R803). -/
def openDevice (s : State) (i : Nat) : State :=
  let n := s.fw.heldDropped
  let l := s.fw.held
  let (s, rest) := deliverHeld l (onFw s (fun f => { f with deviceMoor := some i, held := [], heldDropped := 0 }))
  let s := stagingLevel { s with staging := rest ++ s.staging }
  match Tab.find? s.fw.moorings i with
  | none => s
  | some m =>
    if n = 0 then s
    else
      match readCb s m with
      | (s, some (prod, cons, dropped, _)) =>
        let m := { m with since := m.since + n }
        let s := addDropped (setMoor s i m) m dropped n
        if m.full prod cons then s else (putOverflow s i m prod cons).1
      | (s, none) => setMoor s i { m with since := m.since + n, kept := m.kept + n }

/-- The watch entry of a mooring (R649). -/
def Moor.watch (m : Moor) : Watch :=
  { cb := BitVec.ofNat 26 m.cb, signal := BitVec.ofNat 6 m.signal, consumer := BitVec.ofNat 4 m.consumer }

def setWatch (s : State) (t : Tab Watch) : State := { s with intc := { s.intc with watch := t } }

/-- The watch entry and the submission slot of a new mooring (R649, R682). -/
def registerMoor (s : State) (i : Nat) (m : Moor) : State :=
  let s := match firstFrom (fun k => (Tab.find? s.intc.watch k).isNone) 2048 0 with
    | some k => if m.watched then setWatch s (Tab.put s.intc.watch k m.watch) else s
    | none => s
  match firstFrom (fun k => (Tab.find? s.sl.submits k).isNone) 64 0 with
  | some k => if m.submits then onSl s (fun x => { x with submits := Tab.put x.submits k i }) else s
  | none => s

/-- How many moorings a test accepts. -/
def countMoors (s : State) (p : Moor → Bool) : Nat := (s.fw.moorings.filter (fun m => p m.2)).length

/-- CREATE_MOORING (R174, R192, R381, R654, R682, R802, R803). -/
def execCreateMooring (mb : Fin 8) (msg : Msg) (s : State) : Host.Outcome State Fault Refusal :=
  command 0x12 .c false mb msg s (fun c s =>
    let m : Moor := { ring := (c.w 1).toNat, cb := (c.w 2).toNat, w3 := c.w 3 }
    let dev := c.flags % 2 = 1
    guarded s [c.shape 3 1, rsv (c.w 3) 0x003FFF3F,
        need (decide (4 ≤ fld m.w3 0 4 ∧ fld m.w3 0 4 ≤ 12) && pairOk m.kind m.producer m.consumer
          && signalOk m.consumer m.signal && (!dev || m.kind = 0)) stBAD_ARG,
        need (m.ring % (16 * m.size) = 0 && m.cb % 16 = 0) stBAD_ARG,
        inUser s m.ring (16 * m.size), inUser s m.cb 16, needs s (banksOf m.cb 16),
        need (!(dev && s.fw.deviceMoor.isSome)) stBUSY,
        need (!(m.kind = 1 && decide (64 ≤ countMoors s (fun x => x.kind = 1)))
          && !(m.submits && decide (64 ≤ countMoors s Moor.submits))
          && !(m.watched && decide (2048 ≤ s.intc.watch.length))) stNO_RESOURCE] (fun s =>
      withIndex s tMOORING (fun i =>
        let s := (writeMem s 2 m.cb (List.replicate 16 0)).1
        let s := registerMoor (setMoor s i m) i m
        created (if dev then openDevice s i else s) tMOORING i)))

/-! ### Scenes (R192, R288, R289, R316 to R318, R370, R407) -/

/-- Bytes of a scene's signature map (R404, R436). -/
def sigBytes (c : Scene) : Nat := 4 * c.cols * c.rows

/-- Where a signature map goes in firmware-owned Basin: the lowest room below the station
records, or a page of the pool (DESIGN CHOICE, log entry 44). -/
def placeSig (s : State) (n : Nat) : Option (State × Nat) :=
  let used := s.tp.scenes.map (fun p => (p.2.sigAddr, sigBytes p.2))
  let cand := 0x00100000 :: used.map (fun u => (u.1 + u.2 + 255) / 256 * 256)
  match cand.filter (fun a => decide (a + n ≤ 0x00300000)
      && used.all (fun u => decide (a + n ≤ u.1) || decide (u.1 + u.2 ≤ a))) with
  | x :: r => some (s, r.foldl min x)
  | [] => (takePages s 1).map (fun q => (q.1, q.2 * 65536))

/-- CREATE_SCENE fills the signature map with a value that no signature equals (R407): the
state lists no signature, and the words stored are a free value (log entry 44). -/
def fillSig (s : State) (c : Scene) : State :=
  let (s, v) := drawFree s
  (List.range ((sigBytes c + 7) / 8)).foldl (fun s k => fullWrite s (c.sigAddr / 8 + k) v) s

/-- The registers of a kind among the 896 bytes at offsets 0x080 to 0x3FF of a scene block
(R370). -/
def blockRegs (b : List Byte) (regs : List Nat) (mask : Nat → Option Word) : Tab Word :=
  regs.foldl (fun t r => rset t r (leWord (b.drop (4 * r - 0x80)) &&& (mask r).getD 0)) []

/-- The scene that CREATE_SCENE asks for, before its registers are loaded. -/
def newScene (c : Cmd) : Scene :=
  { width := fld (c.w 1) 0 11, height := fld (c.w 1) 16 10, rate := fld (c.w 1) 26 3,
    blank := fld (c.w 2) 0 8, evHost := BitVec.ofNat 4 (fld (c.w 2) 8 4), moor := c.w 4,
    block := (c.w 3).toNat }

/-- The limits of R288 and the classes of R287. -/
def Scene.ok (c : Scene) : Bool :=
  decide (64 ≤ c.width ∧ c.width ≤ 1024 ∧ c.width % 8 = 0 ∧ 16 ≤ c.height ∧ c.height ≤ 768
    ∧ 4 ≤ c.blank ∧ c.rate ≤ 4)

/-- CREATE_SCENE (R192, R288, R316 to R318, R370, R407). A block that cannot be read for ECC
gives ECC (R163, R187). -/
def execCreateScene (mb : Fin 8) (msg : Msg) (s : State) : Host.Outcome State Fault Refusal :=
  command 0x13 .c false mb msg s (fun c s =>
    let x := newScene c
    guarded s [c.mooring s 4, c.shape 4 0, rsv (c.w 1) 0x1FFF07FF, rsv (c.w 2) 0xFFF,
        need (x.ok && x.block % 256 = 0) stBAD_ARG, inUser s x.block 1024,
        needs s (islTP :: banks), need (decide (totalLoad s + x.load ≤ 8160000000)) stNO_RESOURCE] (fun s =>
      withIndex s tSCENE (fun i =>
        if (placeSig s (sigBytes x)).isNone then .done s stNO_RESOURCE []
        else match readMem s 2 (x.block + 0x80) 0x380 with
        | (s, .error _) => .done s stECC []
        | (s, .ok b) =>
          match placeSig s (sigBytes x) with
          | none => .done s stNO_RESOURCE []
          | some (s, a) =>
            let x := { x with madeAt := s.tick, regs := blockRegs b leRegs leMask, active := blockRegs b shadowRegs shadowMask,
                              shadow := blockRegs b shadowRegs shadowMask, pipe := placePipe s, sigAddr := a }
            created (setScene (fillSig s x) i x) tSCENE i)))

/-! ### Voices, mixes, channels, fences (R192, R453, R464, R664) -/

/-- CREATE_VOICE (R192). -/
def execCreateVoice (mb : Fin 8) (msg : Msg) (s : State) : Host.Outcome State Fault Refusal :=
  command 0x16 .c false mb msg s (fun c s =>
    guarded s [c.mooring s 2, c.shape 2 0, rsv (c.w 1) 3, needs s [islCV]] (fun s =>
      withIndex s tVOICE (fun i =>
        created (setVoice s i { kind := fld (c.w 1) 0 2, moor := c.w 2 }) tVOICE i)))

/-- The station, or the slot of a local port, has a mix (R453). -/
def mixExists (s : State) (station : Option Nat) (port slot : Nat) : Bool :=
  s.cv.mixes.any (fun p => decide (p.2.station = station)
    && (station.isSome || (p.2.port = port && p.2.slot = slot)))

/-- CREATE_MIX (R46, R192, R453, R464): the samples of the block in progress before it are zero. -/
def execCreateMix (mb : Fin 8) (msg : Msg) (s : State) : Host.Outcome State Fault Refusal :=
  command 0x17 .c false mb msg s (fun c s =>
    let st : Option Nat := if c.w 1 = 0 then none else some (handleIndex (c.w 1))
    let port := if st.isSome then 0 else fld (c.w 2) 0 1
    let slot := if st.isSome then 0 else fld (c.w 2) 1 3
    guarded s [c.handle0 s 1 [tSTATION], c.shape 2 1, rsv (c.w 2) 0xF, needs s [islCV], c.free s 1,
        need (!mixExists s st port slot) stBUSY] (fun s =>
      withIndex s tMIX (fun i =>
        let x : Mix := { station := st, port := port, slot := slot, washAudible := c.flags % 2 = 1,
                         first := s.cv.sample / 16, samples := List.replicate (s.cv.sample % 16) 0 }
        let q := x.quiet s.sys.mode
        created (setMix s i { x with silenced := q, gainNow := if q then 255 else 0 }) tMIX i)))

/-- ROUTE_VOICE (R192, R454). -/
def execRouteVoice (mb : Fin 8) (msg : Msg) (s : State) : Host.Outcome State Fault Refusal :=
  command 0x18 .c false mb msg s (fun c s =>
    let r : Option Route := if c.w 2 = 0 then none else some (handleIndex (c.w 2), fld (c.w 3) 0 8)
    guarded s [c.handle s 1 [tVOICE], c.handle0 s 2 [tMIX], c.shape 3 0, rsv (c.w 3) 0xFF,
        needs s [islCV]] (fun s =>
      .done (updVoice s (handleIndex (c.w 1)) (fun x => { x with next := x.next ++ [(s.tick.toNat, r)] }))
        stOK []))

/-- OPEN_CHANNEL (R192, R664). -/
def execOpenChannel (mb : Fin 8) (msg : Msg) (s : State) : Host.Outcome State Fault Refusal :=
  command 0x19 .c false mb msg s (fun c s =>
    guarded s [c.mooring s 2, c.shape 2 0, rsv (c.w 1) 3, needs s [islSL]] (fun s =>
      withIndex s tDMA (fun i =>
        let h := handleOf s tDMA i
        created (updChan s i (fun _ => { state := .empty, handle := h, moor := c.w 2,
                                         prio := BitVec.ofNat 2 (fld (c.w 1) 0 2) })) tDMA i)))

/-- CREATE_FENCE (R192). -/
def execCreateFence (mb : Fin 8) (msg : Msg) (s : State) : Host.Outcome State Fault Refusal :=
  command 0x1A .c false mb msg s (fun c s =>
    guarded s [c.mooring s 1, c.shape 1 0] (fun s =>
      withIndex s tFENCE (fun i =>
        created (onFw s (fun f => { f with fences := Tab.put f.fences i { moor := c.w 1 } })) tFENCE i)))

/-! ### Scripts (R192, R581, R584, R587) -/

/-- The Lockkeeper sets DH_MASK of a scene from the scripts bound to it (R315). -/
def setDhMask (s : State) (scene : Option Nat) : State :=
  match scene with
  | none => s
  | some i => updScene s i (fun c => { c with
      dhMask := s.dh.tasks.foldl (fun m p => if p.2.scene = some i then setBit m p.2.deck true else m) 0 })

/-- The lowest stack of a Deckhand that no task has (R581; DESIGN CHOICE, log entry 36). -/
def freeStack (s : State) (n : Nat) : Option Nat :=
  firstFrom (fun k => !s.dh.tasks.any (fun p => p.2.deck = n && p.2.slot = k)) 32 0

/-- CREATE_SCRIPT (R192, R581). A script of a scene needs TP as well, for its DH_MASK (R40, R315). -/
def execCreateScript (mb : Fin 8) (msg : Msg) (s : State) : Host.Outcome State Fault Refusal :=
  command 0x1B .c false mb msg s (fun c s =>
    let n := fld (c.w 1) 0 3
    let sc : Option Nat := if c.w 2 = 0 then none else some (handleIndex (c.w 2))
    guarded s [c.handle0 s 2 [tSCENE], c.mooring s 3, c.shape 3 0, rsv (c.w 1) 0xF7,
        needs s (islDeck n :: (if sc.isSome then [islTP] else []))] (fun s =>
      match freeStack s n with
      | none => .done s stNO_RESOURCE []
      | some k => withIndex s tSCRIPT (fun i =>
          let t : Task := { deck := n, prio := BitVec.ofNat 4 (fld (c.w 1) 4 4), scene := sc,
                            moor := c.w 3, slot := k }
          created (setDhMask (setTask s i t) sc) tSCRIPT i)))

/-- SCRIPT_CONTROL start: a started task goes on; where the island is fenced the task only
counts as started (R196). -/
def startScript (s : State) (i : Nat) (t : Task) : State :=
  if t.started then updTask s i (fun t => { t with stopDue := false })
  else if !running s (islDeck t.deck) then updTask s i (fun t => { t with started := true, stopDue := false })
  else reschedule (startTask s i) t.deck

/-- SCRIPT_CONTROL stop: at once for a waiting or ready task, at the next yield of a running
one (R587); where the island is fenced the task only no longer counts as started (R196). -/
def stopScript (s : State) (i : Nat) (t : Task) : State :=
  if !running s (islDeck t.deck) then updTask s i (fun t => { t with started := false })
  else if t.state = 2 then updTask s i (fun t => { t with stopDue := true })
  else if t.state = 1 ∨ t.state = 3 then reschedule (stopTask s i 0) t.deck
  else s

/-- SCRIPT_CONTROL (R192, R196, R584, R587). -/
def execScriptControl (mb : Fin 8) (msg : Msg) (s : State) : Host.Outcome State Fault Refusal :=
  command 0x1C .c false mb msg s (fun c s =>
    let i := handleIndex (c.w 1)
    let start := bit (c.w 2) 0
    guarded s [c.handle s 1 [tSCRIPT], c.shape 2 0, rsv (c.w 2) 1,
        need (!(start && (taskOf s i).any (fun t => t.len = 0))) stBUSY] (fun s =>
      match taskOf s i with
      | none => .done s stBAD_HANDLE []
      | some t => .done (if start then startScript s i t else stopScript s i t) stOK []))

/-! ### DESTROY (R160, R184, R194) -/

/-- A station, script, the panel or a waiting REBIND_STATION names a scene (R194). -/
def sceneNamed (s : State) (i : Nat) : Bool :=
  s.tl.stations.any (fun p => !p.2.ending
      && (p.2.home = i || p.2.scene = i || decide (p.2.wash = some i) || p.2.pendScene.any (fun q => q.1 = i)))
    || s.dh.tasks.any (fun p => decide (p.2.scene = some i))
    || decide (s.tp.panel.scene = some i)
    || s.fw.waiting.any (fun p => match p.2 with
      | .rebind _ _ _ sc _ _ => decide (sc = some i)
      | _ => false)

/-- One of the `k` entries of a mooring from `n` on names a fence object; one that cannot be read
counts as naming it (DEDUCED, log entry 44). -/
def entryNames (h : Word) (m : Moor) : Nat → Word → State → State × Bool
  | 0, _, s => (s, false)
  | k + 1, n, s =>
    match readMem s 2 (m.entry n + 8) 4 with
    | (s, .error _) => (s, true)
    | (s, .ok b) => if leWord b = h then (s, true) else entryNames h m k (n + 1) s

/-- An entry of a BLIT mooring that waits to be executed names a fence object (R382, R393). The
entry of a stopped blit never signals (R400). -/
def blitNames (h : Word) (i : Nat) (m : Moor) (s : State) : State × Bool :=
  match readCb s m with
  | (s, none) => (s, true)
  | (s, some (prod, cons, _, _)) =>
    let cons := (s.tp.blt.done.find? i).getD cons
    let past : Word := if s.tp.blt.stopped.any (fun b => b.moor = i) then cons + 1 else cons
    entryNames h m (min m.size (prod - past).toNat) past s

/-- A pending flip, a latched one, or a blit will signal a fence object (R194, R366, R393). -/
def fenceNamed (s : State) (h : Word) : State × Bool :=
  if s.tp.scenes.any (fun p => p.2.signals.any (fun x => x.1 = h)
      || p.2.latches.any (fun l => match l with
        | .flip _ _ f _ => decide (f = h)
        | .linetab _ _ => false))
    || s.tp.blt.cur.any (fun b => decide (b.entry.getD 2 0 = h)) then (s, true)
  else (s.fw.moorings.filter (fun p => p.2.kind = 1)).foldl
    (fun r p => if r.2 then r else blitNames h p.1 p.2 r.1) (s, false)

/-- A live object names an event mooring (R194). -/
def moorNamed (s : State) (h : Word) : Bool :=
  s.tp.scenes.any (fun p => p.2.moor = h) || s.cv.voices.any (fun p => p.2.moor = h)
    || s.cv.mixes.any (fun p => p.2.moor = h) || s.fw.fences.any (fun p => p.2.moor = h)
    || s.dh.tasks.any (fun p => p.2.moor = h)
    || s.sl.chans.any (fun p => decide (p.2.state ≠ .closed) && p.2.moor = h)

/-- A script uses a mooring: one lives on the Deckhand that produces or consumes there
(DEDUCED, log entry 44). -/
def scriptUses (s : State) (m : Moor) : Bool :=
  s.dh.tasks.any (fun p => p.2.deck + 3 = m.producer || p.2.deck + 3 = m.consumer)

/-- The blitter uses a BLIT mooring: a blit of it is not closed, or PROD differs from CONS
(R194). One whose control block cannot be read counts as used (DEDUCED, log entry 44). -/
def blitterUses (s : State) (i : Nat) (m : Moor) : State × Bool :=
  if m.kind ≠ 1 then (s, false)
  else if (s.tp.blt.cur.toList ++ s.tp.blt.stopped.toList).any (fun b => b.moor = i) then (s, true)
  else match readCb s m with
    | (s, none) => (s, true)
    | (s, some (p, q, _, _)) => (s, decide (p ≠ q))

/-- The object of a mooring goes: its watch entry and its submission slot with it. -/
def dropMoor (s : State) (i : Nat) (m : Moor) : State :=
  let s := onFw s (fun f => { f with
    moorings := Tab.erase f.moorings i,
    deviceMoor := if f.deviceMoor = some i then none else f.deviceMoor })
  let s := match List.find? (fun p => m.watched && decide (p.2 = m.watch)) s.intc.watch with
    | some p => setWatch s (Tab.erase s.intc.watch p.1)
    | none => s
  let s := onSl s (fun x => { x with submits := x.submits.filter (fun p => p.2 ≠ i) })
  onBlt s (fun b => { b with seen := Tab.erase b.seen i, done := Tab.erase b.done i })

/-- A scene no longer holds any replaced pages of a bank (R340). -/
def PBank.forget (p : PBank) (i : Nat) : PBank :=
  { p with old := p.old.map (fun o => (o.1, o.2.filter (fun e => e.1 ≠ i))) }

/-- A scene goes: its beam stops at once, its rows and its map are free, and it reads no replaced
tiles any more. -/
def dropScene (s : State) (i : Nat) : State :=
  let page := ((sceneOf s i).map (fun c => c.sigAddr / 65536)).getD 0
  let s := onTp s (fun t => { t with scenes := Tab.erase t.scenes i,
                                     banks := t.banks.map (fun b => (b.1, b.2.forget i)) })
  let s := if 64 ≤ page then onFw s (fun f => { f with fwRuns := Tab.erase f.fwRuns page }) else s
  retireBanks s

/-- A voice goes, unrouted at once, and its sample storage returns to the pool. -/
def dropVoice (s : State) (v : Nat) : State :=
  let s := freeRun s ((voiceOf s v).bind (fun x => x.pages))
  onCv s (fun c => { c with voices := Tab.erase c.voices v })

/-- A mix goes: a mix whose parent it was names none any more, and its parent input ramps
out (R452, R454). -/
def dropMix (s : State) (m : Nat) : State :=
  let kids := childrenOf s m
  let s := match (mixOf s m).bind (·.station) with
    | some i => dropAudio s i
    | none => s
  let s := onCv s (fun c => { c with mixes := Tab.erase c.mixes m })
  kids.foldl (fun s k => touchMix s k (fun x => { x with parentEn := false })) s

/-- A script goes: its task stops, and its code space is free, in instruction RAM and in the pool. -/
def dropScript (s : State) (i : Nat) : State :=
  match taskOf s i with
  | none => s
  | some t =>
    let s := freeRun (stopTask s i 0) t.copy
    let s := onDh s (fun x => { x with tasks := Tab.erase x.tasks i })
    reschedule (setDhMask s t.scene) t.deck

/-- The object of a handle goes (R194). -/
def dropObject (s : State) (t i : Nat) : State :=
  if t = tSCENE then dropScene s i
  else if t = tSTATION then updStation s i (fun x => { x with ending := true, endAt := s.tick })
  else if t = tVOICE then dropVoice s i
  else if t = tMIX then dropMix s i
  else if t = tDMA then updChan s i (fun _ => {})
  else if t = tFENCE then onFw s (fun f => { f with fences := Tab.erase f.fences i })
  else if t = tMOORING then
    match Tab.find? s.fw.moorings i with
    | none => s
    | some m => dropMoor s i m
  else dropScript s i

/-- The islands that the object's removal needs (R40). -/
def dropNeeds (s : State) (t i : Nat) : List Nat :=
  if t = tSCENE then [islTP]
  else if t = tSTATION then ((stationOf s i).map (fun x => islLane x.lane)).toList
  else if t = tVOICE ∨ t = tMIX then [islCV]
  else if t = tDMA then [islSL]
  else if t = tSCRIPT then
    ((taskOf s i).map (fun x => islDeck x.deck :: (if x.scene.isSome then [islTP] else []))).getD []
  else []

/-- The BUSY column of R194. -/
def dropBusy (s : State) (t i : Nat) (h : Word) : State × Bool :=
  if t = tSCENE then (s, sceneNamed s i)
  else if t = tSTATION then (s, hasMix s i)
  else if t = tMIX then (s, decide (voicesOn s i ≠ 0))
  else if t = tDMA then
    (s, decide ((chanOf s i).state = .running) || decide ((chanOf s i).state = .stopping))
  else if t = tFENCE then fenceNamed s h
  else if t = tMOORING then
    match Tab.find? s.fw.moorings i with
    | none => (s, false)
    | some m =>
      if moorNamed s h || scriptUses s m then (s, true) else blitterUses s i m
  else if t = tSCRIPT then (s, (taskOf s i).any (fun x => x.state = 2))
  else (s, false)

/-- DESTROY (R52, R160, R182, R184, R194). -/
def execDestroyObject (mb : Fin 8) (msg : Msg) (s : State) : Host.Outcome State Fault Refusal :=
  command 0x2F .c false mb msg s (fun c s =>
    let h := c.w 1
    let t := handleType h
    let i := handleIndex h
    guarded s [need (!(s.sys.mode = mWASH && t = tSTATION)) stWRONG_MODE, c.handle s 1 anyType,
        c.shape 1 0, needs s (dropNeeds s t i), c.free s 1] (fun s =>
      match dropBusy s t i h with
      | (s, true) => .done s stBUSY []
      | (s, false) => .done (retireHandle (dropObject s t i) t i) stOK []))

end Sys2Proof.Machine
end

