-- ==== Sys2Proof/Machine/CommandBind.lean ====
section
/-! DEFINITION. The commands that bind stations and configure lanes, loops, the pit panel and
the audio ports (chapter 04, R182, R192, R193, R805; R283, R424 to R427, R462, R506, R513,
R724). -/

namespace Sys2Proof.Machine

/-! ### Binding (R182, R192, R193, R805) -/

/-- The addresses that count as bound (R805): those of the stations, one whose exchange has
not ended among them, and those that a waiting REBIND_STATION will take. -/
def boundAddrs (s : State) : List Nat :=
  s.tl.stations.map (fun p => p.2.addr)
    ++ s.fw.waiting.filterMap (fun p => match p.2 with
      | .rebind _ _ _ _ a _ => a.map (·.2)
      | _ => none)

/-- The bound addresses of a lane. -/
def boundOn (s : State) (l : Nat) : List Nat := (boundAddrs s).filter (fun a => a / 256 % 8 = l)

/-- An address can be bound: it is not bound, and its lane is enabled. -/
def bindable (s : State) (a : Nat) : Bool :=
  !(boundAddrs s).contains a && (laneOf s (a / 256 % 8)).enable

/-- The station that BIND_STATION asks for (R193, R360, R514). -/
def newStation (c : Cmd) : Station :=
  { addr := fld (c.w 1) 0 11, home := handleIndex (c.w 2), scene := handleIndex (c.w 2),
    wash := if c.w 5 = 0 then none else some (handleIndex (c.w 5)),
    fmt := fld (c.w 1) 12 2, outLen := fld (c.w 1) 16 7, inLen := fld (c.w 1) 24 7,
    hold := fld (c.w 3) 0 16, panelW := fld (c.w 3) 16 11, panelH := fld (c.w 4) 0 10 }

/-- The ranges of R193. -/
def Station.ok (t : Station) : Bool :=
  decide (t.fmt ≤ 2 ∧ t.outLen ≤ 64 ∧ t.inLen ≤ 64 ∧ 64 ≤ t.panelW ∧ t.panelW ≤ 1024
    ∧ 16 ≤ t.panelH ∧ t.panelH ≤ 768)

/-- The index that a new station would take; 0 where none is free. -/
def nextStation (s : State) : Nat := (freeIndex s tSTATION).getD 0

/-- The pool page that holds a station's defaults (R172), taken where none of its 64 stations has it
yet (DESIGN CHOICE, log entry 44). -/
def defaultsPage (s : State) (i : Nat) : Option State :=
  if (Tab.find? s.fw.defPages (i / 64)).isSome then some s
  else (takePages s 1).map (fun q => onFw q.1 (fun f => { f with defPages := Tab.put f.defPages (i / 64) q.2 }))

/-- BIND_STATION (R52, R193, R527, R805). A full lane is NO_RESOURCE before BUSY, for each of its
256 addresses is bound. Its record is zeroed: the process images (DEDUCED, log entry 44). -/
def execBindStation (mb : Fin 8) (msg : Msg) (s : State) : Host.Outcome State Fault Refusal :=
  command 0x14 .c false mb msg s (fun c s =>
    let t := newStation c
    let n := nextStation s
    guarded s [need (s.sys.mode ≠ mWASH) stWRONG_MODE, c.handle s 2 [tSCENE], c.handle0 s 5 [tSCENE],
        c.shape 5 0, rsv (c.w 1) 0x7F7F37FF, rsv (c.w 3) 0x07FFFFFF, rsv (c.w 4) 0x3FF,
        need t.ok stBAD_ARG, needs s [islLane t.lane, islTP, islBank (bankOf (recordOf n))],
        need (decide ((boundOn s t.lane).length < 256)) stNO_RESOURCE,
        need (bindable s t.addr) stBUSY] (fun s =>
      withIndex s tSTATION (fun i =>
        match defaultsPage s i with
        | none => .done s stNO_RESOURCE []
        | some s =>
          let s := (writeMem s 2 (recordOf i) (List.replicate 256 0)).1
          created (enterConfig (setStation s i { t with boundAt := s.tick }) i) tSTATION i)))

/-- The scene and address parts of a REBIND_STATION that do not keep what the station has
(R192). -/
def rebindParts (c : Cmd) (t : Station) : Option Nat × Option Nat :=
  let a := (c.w 3).toNat
  (if c.w 2 = 0 ∨ handleIndex (c.w 2) = t.home then none else some (handleIndex (c.w 2)),
   if a = 0xFFFF ∨ a = t.addr then none else some a)

/-- REBIND_STATION (R52, R158, R182, R192, R805). -/
def execRebindStation (mb : Fin 8) (msg : Msg) (s : State) : Host.Outcome State Fault Refusal :=
  command 0x15 .c false mb msg s (fun c s =>
    let i := handleIndex (c.w 1)
    let a := (c.w 3).toNat
    guarded s [need (s.sys.mode ≠ mWASH) stWRONG_MODE, c.handle s 1 [tSTATION], c.handle0 s 2 [tSCENE],
        c.shape 3 0, need (a = 0xFFFF || decide (a < 2048)) stBAD_ARG] (fun s =>
      match stationOf s i with
      | none => .done s stBAD_HANDLE []
      | some t =>
        let (sc, ad) := rebindParts c t
        guarded s [needs s (if sc.isSome then [islTP] else []),
            needs s (match ad with
              | some b => [islLane t.lane, islLane (b / 256 % 8)]
              | none => []),
            c.free s 1, need (ad.all (bindable s)) stBUSY] (fun s =>
          if sc.isNone && ad.isNone then .done s stOK []
          else .wait (match sc with
            | some k => bindScene s i k
            | none => s) (.rebind c.header c.crc i sc (ad.map (fun b => (s.tick, b))) false))))

/-- REBIND_STATION_COMPLETE (R158, R192, R805): the command replies once both parts have taken
effect, or FENCED once a fence has met a part that waited; that part is not made. -/
def execRebindStationComplete (mb : Fin 8) (s : State) : Host.Outcome State Fault Refusal :=
  .next (if !fwRuns s then s
    else match Tab.find? s.fw.waiting mb with
      | some (.rebind h crc i sc _ true) =>
        let s := if sc.isSome then updStation s i (fun t => { t with pendScene := none }) else s
        endWaiting s mb h crc stFENCED []
      | some (.rebind h crc _ none none false) => endWaiting s mb h crc stOK []
      | _ => s)

/-! ### Cycle and lanes (R192, R506, R507, R513) -/

/-- SET_CYCLE (R192, R506, R507). -/
def execSetCycle (mb : Fin 8) (msg : Msg) (s : State) : Host.Outcome State Fault Refusal :=
  command 0x1D .c false mb msg s (fun c s =>
    let n := (c.w 1).toNat
    guarded s [c.shape 1 0, need (decide (12500 ≤ n ∧ n ≤ 1600000)) stBAD_ARG,
        need ((List.range 8).all (fun l => !(laneOf s l).enable)) stBUSY] (fun s =>
      .done (onTl s (fun t => { t with cyc :=
        if t.cyc.begun then { t.cyc with nextPeriod := some (s.tick, n) }
        else { t.cyc with period := n } })) stOK []))

/-- LANE_CONFIG (R192, R493, R513). -/
def execLaneConfig (mb : Fin 8) (msg : Msg) (s : State) : Host.Outcome State Fault Refusal :=
  command 0x1E .c false mb msg s (fun c s =>
    let l := fld (c.w 1) 0 3
    let en := bit (c.w 1) 8
    guarded s [c.shape 1 0, rsv (c.w 1) 0x107, needs s [islLane l],
        need (en || (boundOn s l).isEmpty) stBUSY] (fun s =>
      let s := laneCtrl s l en (laneOf s l).freeze (laneOf s l).test
      .done s stOK [(laneOf s l).stateWord &&& 0xFFFF]))

/-! ### Loop policies (R272 to R274, R283, R321) -/

/-- The handle argument of SET_LOOP_POLICY, for loops 3 and 4 (R283). -/
def policyHandle (s : State) (c : Cmd) : Nat :=
  if fld (c.w 1) 0 4 = 3 then c.handle s 2 [tSTATION]
  else if fld (c.w 1) 0 4 = 4 then c.handle s 2 [tSCENE]
  else stOK

/-- The values of a loop policy are in their ranges (R283). -/
def policyOk (c : Cmd) : Bool :=
  let t := (c.w 2).toNat
  let v := (c.w 3).toNat
  let u := (c.w 4).toNat
  if c.w 1 = 0 then t < 16 && (v = 0 || decide (650 ≤ v ∧ v ≤ 900)) && u = 0
  else if c.w 1 = 1 then t < 16 && !(10 ≤ t && t ≤ 14) && decide (1000 * v ≤ nominalKhz t) && u = 0
  else if c.w 1 = 2 then t < 8 && v ≤ 1 && u = 0
  else if c.w 1 = 3 then (v = 0 && u = 0) || decide (1 ≤ v ∧ v ≤ u ∧ u ≤ 65535)
  else if c.w 1 = 4 then c.w 3 &&& ~~~ 0x107 = 0 && u = 0
  else false

/-- The island that a policy of loops 2 to 4 needs (R283). -/
def policyNeeds (s : State) (c : Cmd) : List Nat :=
  if c.w 1 = 2 then [islLane ((c.w 2).toNat)]
  else if c.w 1 = 3 then ((stationOf s (handleIndex (c.w 2))).map (fun t => islLane t.lane)).toList
  else if c.w 1 = 4 then [islTP]
  else []

/-- A scene's pin (R321): a pin to another pipe moves the scene at its next SOB. -/
def Scene.pinTo (c : Scene) (w : Word) : Scene :=
  if bit w 8 then
    { c with pin := some (fld w 0 3), moveTo := if fld w 0 3 = c.pipe then none else some (fld w 0 3) }
  else { c with pin := none }

/-- The policy takes its values; zero values remove it (R283). It acts at the next step of its
loop, so a threshold moves into new bounds at the next cut (R274). -/
def setPolicy (s : State) (c : Cmd) : State :=
  let t := (c.w 2).toNat
  if c.w 1 = 0 then updIsl s t (fun x => { x with capMv := BitVec.ofNat 10 (c.w 3).toNat })
  else if c.w 1 = 1 then updIsl s t (fun x => { x with floorMhz := BitVec.ofNat 12 (c.w 3).toNat })
  else if c.w 1 = 2 then laneCtrl s t (laneOf s t).enable (bit (c.w 3) 0) (laneOf s t).test
  else if c.w 1 = 3 then
    updStation s (handleIndex (c.w 2)) (fun x =>
      { x with bounds := if c.w 3 = 0 then none else some ((c.w 3).toNat, (c.w 4).toNat) })
  else updScene s (handleIndex (c.w 2)) (fun x => x.pinTo (c.w 3))

/-- SET_LOOP_POLICY (R182, R192, R283). -/
def execSetLoopPolicy (mb : Fin 8) (msg : Msg) (s : State) : Host.Outcome State Fault Refusal :=
  command 0x1F .c false mb msg s (fun c s =>
    guarded s [policyHandle s c, c.shape 4 0, need (policyOk c) stBAD_ARG, needs s (policyNeeds s c),
        if c.w 1 = 3 then c.free s 2 else stOK] (fun s => .done (setPolicy s c) stOK []))

/-! ### The local pit panel (R424 to R428, R724) -/

/-- The pins that are firmware-reserved for a panel (R724). -/
def panelPins (p : Panel) : List Nat :=
  if p.scene.isSome then [1, p.tePin.toNat] ++ (if p.variant = 1 then [8] else []) else []

/-- SQ1 and the pins for a panel that names a scene (R724): MODE 0, DIV 10, WORD_STRICT,
SEL_GAP 4, bound to GA1; GA8 has function SQ1_DC for VARIANT 1. -/
def panelWire (s : State) (old new : Panel) : State :=
  let s := updSq s 1 (fun q => if new.scene.isSome then
      { q with cfg := (q.cfg &&& 0x07000000) ||| 0x0041040A } else q)
  gpChange s (fun g =>
    let f := (panelPins new).foldl (fun f n => setBit f n true)
      ((panelPins old).foldl (fun f n => setBit f n false) g.fw)
    { g with fw := f,
             cfg := if new.scene.isSome ∧ new.variant = 1 then
                 g.cfg.set 0 8 ((g.cfg.get 0 8 &&& 0x7FF0) ||| 1)
               else g.cfg })

/-- The panel that PANEL_CONFIG asks for; a frame now on SQ1 is not interrupted (R429). -/
def newPanel (c : Cmd) (p : Panel) : Panel :=
  if c.w 1 = 0 then
    { p with scene := none, teWait := false, recv := { p.recv with owed := 0, pieces := [] },
             step := if p.busy then .closing p.step.piece else .displayOff }
  else
    let p : Panel := { p with
      scene := some (handleIndex (c.w 1)), offX := fld (c.w 2) 0 11, offY := fld (c.w 2) 16 10,
      w := fld (c.w 3) 0 11, h := fld (c.w 3) 16 10, variant := BitVec.ofNat 2 (fld (c.w 4) 0 2),
      tePin := BitVec.ofNat 6 (fld (c.w 4) 8 6), teEn := bit (c.w 4) 14 }
    { p with teWait := false, recv := { p.recv with owed := 0, pieces := [] },
             step := if p.busy then .restart p.step.piece else .exitSleep }

/-- The start-up follows the reply of the command that runs (R427). -/
def panelAfterReply (s : State) : State :=
  onPanel s (fun p => { p with await := if p.scene.isSome then s.fw.causer else none })

/-- TE_PIN and VARIANT (R426, R724). -/
def panelOk (c : Cmd) : Bool :=
  let pin := fld (c.w 4) 8 6
  fld (c.w 4) 0 2 ≠ 3 && (c.w 1 = 0 || (pin ≠ 0 && pin ≠ 1 && pin ≠ 8))

/-- PANEL_CONFIG (R192, R424 to R427, R724): it needs TP and PI. -/
def execPanelConfig (mb : Fin 8) (msg : Msg) (s : State) : Host.Outcome State Fault Refusal :=
  onNext (command 0x20 .c false mb msg s (fun c s =>
    guarded s [c.handle0 s 1 [tSCENE], c.shape 4 0, rsv (c.w 2) 0x03FF07FF, rsv (c.w 3) 0x03FF07FF,
        rsv (c.w 4) 0x7F03, need (panelOk c) stBAD_ARG, needs s [islTP, islPI]] (fun s =>
      let old := s.tp.panel
      let s := onPanel (cancelUnsent s panelId false) (newPanel c)
      let s := panelWire s old s.tp.panel
      .done (panelKick (panelAfterReply (freeAll (oweAll s panelId)))) stOK []))) panelStart

/-! ### Audio ports (R192, R461, R462) -/

/-- AUDIO_PORT_CONFIG (R192, R462). -/
def execAudioPortConfig (mb : Fin 8) (msg : Msg) (s : State) : Host.Outcome State Fault Refusal :=
  command 0x21 .c false mb msg s (fun c s =>
    let k := fld (c.w 1) 0 1
    let n := fld (c.w 1) 2 4
    let p : Port := { enable := bit (c.w 1) 1, slots := BitVec.ofNat 4 n, width := bit (c.w 1) 6,
                      tdm := bit (c.w 1) 7 }
    guarded s [c.shape 2 0, rsv (c.w 1) 0xFF, rsv (c.w 2) 0,
        need (decide (1 ≤ n ∧ n ≤ 8) && (p.tdm || decide (n ≤ 2))) stBAD_ARG, needs s [islCV],
        need (!s.cv.mixes.any (fun q => q.2.station.isNone && q.2.port = k && decide (n ≤ q.2.slot))) stBUSY]
      (fun s => .done (onCv s (fun x => { x with ports := Tab.set {} x.ports k p })) stOK []))

end Sys2Proof.Machine
end

