-- ==== Sys2Proof/Machine/CommandData.lean ====
section
/-! DEFINITION. The commands of classes D and S (chapter 04, R173, R195 to R197; R336 to R340,
R442, R443). -/

namespace Sys2Proof.Machine

/-! ### Sources and pages (R173) -/

/-- Read the whole source, then go on; poison ends in ECC (R173). -/
def withSource (s : State) (a n : Nat) (f : State → List Byte → Res) : Res :=
  match readMem s 2 a n with
  | (s, .ok b) => f s b
  | (s, .error .fenced) => .done s stFENCED []
  | (s, .error _) => .done s stECC []

/-- The stored entries of one page, moved to another that holds none. -/
def moveEntries {α : Type} (t : Tab α) (src dst size : Nat) : Tab α :=
  (t.filter (fun q => decide (src ≤ q.1) && decide (q.1 < src + size))).foldl
    (fun t q => Tab.put t (q.1 - src + dst) q.2) t

/-- A fresh page takes what another holds, check bits and tags as they stand (DEDUCED, log
entry 44). -/
def copyPage (s : State) (src dst : Nat) : State :=
  onBasin s (fun x => { x with
    bytes := moveEntries x.bytes (src * 65536) (dst * 65536) 65536,
    synd := moveEntries x.synd (src * 8192) (dst * 8192) 8192,
    tags := moveEntries x.tags (src * 8192) (dst * 8192) 8192 })

/-! ### LOAD_TILES (R195, R336 to R340) -/

/-- Fresh pages for bank pages p to p + n - 1, each with the content of the page it replaces
(R338, R340). -/
def freshPages : Nat → State → Tab Nat → Nat → State × Tab Nat
  | 0, s, t, _ => (s, t)
  | n + 1, s, t, p =>
    match takePages s 1 with
    | none => (s, t)
    | some (s, q) =>
      let s := match Tab.find? t p with
        | some old => copyPage s old q
        | none => s
      freshPages n s (Tab.put t p q) (p + 1)

/-- Write bytes at an offset of a bank, page by page. -/
def writeBank : Nat → State → Tab Nat → Nat → List Byte → State
  | 0, s, _, _, _ => s
  | fuel + 1, s, t, off, b =>
    if b.isEmpty then s
    else
      let k := min (65536 - off % 65536) b.length
      let s := match Tab.find? t (off / 65536) with
        | some q => (writeMem s 2 (q * 65536 + off % 65536) (b.take k)).1
        | none => s
      writeBank fuel s t (off + k) (b.drop k)

/-- A GEOM register, as it stands or as a pending flip will set it, names a bank (R340). -/
def Scene.namesBank (c : Scene) (b : Nat) : Bool :=
  let names (t : Tab Word) : Bool := [0x43, 0x4B, 0x53, 0x5B, 0x62].any (fun r => fld (rget t r) 4 4 = b)
  names c.active || c.latches.any (fun l => match l with
    | .flip _ sh _ _ => names sh
    | .linetab _ _ => false)

/-- The bank's pages are replaced: frames that started before read the old ones, and lines
rendered ahead of the next frame start are discarded and counted (R301, R307, R340). -/
def swapBank (s : State) (b : Nat) (new : Tab Nat) : State :=
  let t := s.tick.toNat
  let users := (s.tp.scenes.filter (fun p => p.2.namesBank b)).map (fun p => (p.1, p.2.nextStart t))
  let p := s.tp.banks.get {} b
  let s := onTp s (fun x => { x with
    banks := x.banks.set {} b { pages := new, old := p.old ++ [(p.pages, users)] },
    scenes := x.scenes.map (fun q => if q.2.namesBank b then
        (q.1, q.2.rollback (q.2.pos (q.2.nextStart t, 0)))
      else q) })
  retireBank s b

/-- LOAD_TILES (R173, R195, R336 to R340). -/
def execLoadTiles (mb : Fin 8) (msg : Msg) (s : State) : Host.Outcome State Fault Refusal :=
  command 0x30 .d false mb msg s (fun c s =>
    let b := fld (c.w 2) 0 4
    let f := fld (c.w 2) 4 4
    let off := (c.w 3).toNat * tileBytes f
    let n := (c.w 4).toNat * tileBytes f
    let first := off / 65536
    let k := (off + n - 1) / 65536 + 1 - first
    guarded s [c.shape 4 0, rsv (c.w 2) 0xFF, rsv (c.w 3) 0xFFFF,
        need (decide (f ≤ 3 ∧ 1 ≤ (c.w 4).toNat ∧ (c.w 3).toNat + (c.w 4).toNat ≤ 65536)) stBAD_ARG,
        inUser s (c.w 1).toNat n, needs s banks, need (decide (k ≤ poolFree s)) stNO_RESOURCE] (fun s =>
      withSource s (c.w 1).toNat n (fun s data =>
        let (s, new) := freshPages k s (s.tp.banks.get {} b).pages first
        .done (swapBank (writeBank (k + 1) s new off data) b new) stOK [])))

/-! ### LOAD_SAMPLES (R195, R442, R443) -/

/-- LOAD_SAMPLES (R173, R195): its data go into a run of pages of the pool (DESIGN CHOICE, log
entry 44). More than 2^24 samples is BAD_ARG (R465; DEDUCED, log entry 44). -/
def execLoadSamples (mb : Fin 8) (msg : Msg) (s : State) : Host.Outcome State Fault Refusal :=
  command 0x31 .d false mb msg s (fun c s =>
    let v := handleIndex (c.w 3)
    let n := fld (c.w 2) 0 30
    let f := fld (c.w 2) 30 2
    let k := (n + 65535) / 65536
    guarded s [c.handle s 3 [tVOICE],
        need (decide (c.words.length < 3) || (voiceOf s v).any (fun x => x.kind = 3)) stBAD_HANDLE,
        c.shape 3 0, need (f ≤ 1) stBAD_ARG,
        need (decide ((if f = 0 then n / 2 else 2 * n) ≤ 2 ^ 24)) stBAD_ARG, inUser s (c.w 1).toNat n, needs s (islCV :: banks),
        need ((voiceOf s v).any (fun x => x.phase = 0)) stBUSY,
        need ((poolFit s k).isSome) stNO_RESOURCE] (fun s =>
      withSource s (c.w 1).toNat n (fun s data =>
        match takePages s k with
        | none => .done s stNO_RESOURCE []
        | some (s, p) =>
          let s := (writeMem s 2 (p * 65536) data).1
          let s := freeRun s ((voiceOf s v).bind (fun x => x.pages))
          .done (updVoice s v (fun x => { x with fmt := f, pages := some (p, k), bytes := n })) stOK [])))

/-! ### LOAD_SCRIPT (R195, R196, R590) -/

/-- Where the firmware's copy of a code of `k` pages goes: into the pages that it has, or a new run of
the pool (R172; DESIGN CHOICE, log entry 44). -/
def copyRun (s : State) (t : Task) (k : Nat) : Option (State × Nat) :=
  match t.copy with
  | some (p, n) => if n = k then some (s, p) else (takePages s k).map (fun q => (freeRun q.1 t.copy, q.2))
  | none => takePages s k

/-- LOAD_SCRIPT (R172, R195, R196): the firmware's copy in Basin is replaced, and instruction RAM with
it; where the Deckhand's island is fenced, only the copy, whatever the task's state. -/
def execLoadScript (mb : Fin 8) (msg : Msg) (s : State) : Host.Outcome State Fault Refusal :=
  command 0x32 .d false mb msg s (fun c s =>
    let i := handleIndex (c.w 1)
    let n := (c.w 3).toNat
    let t? := taskOf s i
    let d := (t?.map (fun t => t.deck)).getD 0
    let up := running s (islDeck d)
    let k := (n + 65535) / 65536
    guarded s [c.handle s 1 [tSCRIPT], c.shape 3 0, need (n % 2 = 0) stBAD_ARG,
        inUser s (c.w 2).toNat n, needs s banks,
        need (!up || t?.any (fun t => t.state = 0 || t.state = 4)) stBUSY,
        need ((placeCode s d i (n / 2)).isSome && (t?.bind (fun t => copyRun s t k)).isSome)
          stNO_RESOURCE] (fun s =>
      withSource s (c.w 2).toNat n (fun s data =>
        let cell := (placeCode s d i (n / 2)).getD 0
        match t?.bind (fun t => copyRun s t k) with
        | none => .done s stNO_RESOURCE []
        | some (s, p) =>
          let s := (writeMem s 2 (p * 65536) data).1
          let s := updTask s i (fun t => { t with len := n / 2, copy := some (p, k), cell := cell })
          .done (if up then putCode s d cell (cellsOf data) else s) stOK [])))

/-! ### LOAD_DEFAULTS and FORCE_OUTPUT (R195, R197) -/

/-- The TL island of the station that w1 names. -/
def stationTl (s : State) (c : Cmd) : List Nat :=
  ((stationOf s (handleIndex (c.w 1))).map (fun t => islLane t.lane)).toList

/-- Where the firmware keeps a station's defaults (R172; log entry 44). -/
def defaultsAt (s : State) (i : Nat) : Nat := s.fw.defPages.get 0 (i / 64) * 65536 + i % 64 * 1024

/-- LOAD_DEFAULTS (R172, R182, R195): into the firmware's storage, and to Towline and Towpath when each
part takes effect. -/
def execLoadDefaults (mb : Fin 8) (msg : Msg) (s : State) : Host.Outcome State Fault Refusal :=
  command 0x33 .d false mb msg s (fun c s =>
    let a := (c.w 2).toNat
    guarded s [c.handle s 1 [tSTATION], c.shape 2 0, inUser s a 0x380,
        needs s (islTP :: stationTl s c ++ banks), c.free s 1] (fun s =>
      withSource s a 0x380 (fun s b =>
        let i := handleIndex (c.w 1)
        let s := (writeMem s 2 (defaultsAt s i) b).1
        .done (updStation s i (fun t => { t with
          pendDef := some (s.tick, b.take 64, (b.drop 64).take 64),
          pendLut := some (t.scene, ((sceneOf s t.scene).map (fun x => x.nextStart s.tick.toNat)).getD 0,
            b.drop 128) })) stOK [])))

/-- FORCE_OUTPUT (R182, R197). -/
def execForceOutput (mb : Fin 8) (msg : Msg) (s : State) : Host.Outcome State Fault Refusal :=
  command 0x40 .sv false mb msg s (fun c s =>
    let a := (c.w 2).toNat
    guarded s [c.handle s 1 [tSTATION], c.shape 2 0, inUser s a 0x80,
        needs s (stationTl s c ++ banksOf a 0x80), c.free s 1] (fun s =>
      withSource s a 0x80 (fun s b =>
        .done (updStation s (handleIndex (c.w 1)) (fun t => { t with
          pendForce := some (s.tick, b.take 64, b.drop 64) })) stOK [])))

/-! ### LANE_TEST and DIAG_READ (R197) -/

/-- LANE_TEST (R197, R495): BUSY while a station is bound on the lane, whatever the pattern. -/
def execLaneTest (mb : Fin 8) (msg : Msg) (s : State) : Host.Outcome State Fault Refusal :=
  command 0x41 .sv false mb msg s (fun c s =>
    let l := fld (c.w 1) 0 3
    guarded s [c.shape 1 0, rsv (c.w 1) 0x37, needs s [islLane l], need ((boundOn s l).isEmpty) stBUSY]
      (fun s => .done (laneCtrl (testKeep s l (BitVec.ofNat 2 (fld (c.w 1) 4 2))) l
        (laneOf s l).enable (laneOf s l).freeze (BitVec.ofNat 2 (fld (c.w 1) 4 2))) stOK []))

/-- Read words one after another as agent 2, up to the first error (R197). -/
def diagWords : Nat → State → Nat → State × Except Err (List Word)
  | 0, s, _ => (s, .ok [])
  | n + 1, s, a =>
    match fabricRead s 2 a with
    | (s, .error e) => (s, .error e)
    | (s, .ok w) =>
      match diagWords n s (a + 4) with
      | (s, .ok l) => (s, .ok (w :: l))
      | (s, .error e) => (s, .error e)

/-- What each of the words answers, by itself. -/
def diagErrs (s : State) (a n : Nat) : List (Option Err) :=
  (List.range n).map (fun k => match (fabricRead s 2 (a + 4 * k)).2 with
    | .ok _ => none
    | .error e => some e)

/-- DIAG_READ (R163, R197): a word that nothing answers is BAD_ARG (check 5) and one behind a fence
FENCED (check 6), before any word is read (R164). -/
def execDiagRead (mb : Fin 8) (msg : Msg) (s : State) : Host.Outcome State Fault Refusal :=
  command 0x42 .sv false mb msg s (fun c s =>
    let a := (c.w 1).toNat
    let n := (c.w 2).toNat
    guarded s [c.shape 2 0, need (a % 4 = 0 && decide (1 ≤ n ∧ n ≤ 6)) stBAD_ARG] (fun s =>
      guarded s [need (!(diagErrs s a n).contains (some .unmapped)) stBAD_ARG,
          need (!(diagErrs s a n).contains (some .fenced)) stFENCED] (fun s =>
        match diagWords n s a with
        | (s, .ok l) => .done s stOK l
        | (s, .error _) => .done s stECC [])))

end Sys2Proof.Machine
end

