-- ==== Sys2Proof/Machine/CommandImage.lean ====
section
/-! DEFINITION. The commands of class I (chapter 04, R198, R199; R75, R84, R86, R88, R280). -/

namespace Sys2Proof.Machine

/-! ### Images (R75, R84, R86, R88, R198) -/

/-- The bytes of an image that a source holds. -/
def sourceBytes (b : List Byte) : ImageBytes := fun off n => (b.drop off).take n

/-- The source holds the header, and the payload of a header that passes checks 2 and 3 of
R86. R198 does not say which code a shorter source gives; the model takes it for a read that did not
complete (DESIGN CHOICE, log entry 53). -/
def sourceWhole (b : List Byte) : Bool :=
  let g := sourceBytes b
  256 ≤ b.length && (imgMagic g ≠ 0x4B4C4B41 || !headerOk g || 256 + imgLength g ≤ b.length)

/-- The slot that the boot ROM writes in RECOVER (R88). Its checks of the two slots leave FAIL_A and
FAIL_B as the boot set them, as those of IMAGE_CONFIRM and of a warm restart do: R86 says that a check
sets the code, R93 that the boot ROM alone writes it (DESIGN CHOICE, log entry 53). -/
def recoverSlot (s : State) (readA readB : Bool) : Nat :=
  let a := verifySlot s 1 readA = 0
  let b := verifySlot s 2 readB = 0
  if a ∧ b then 3 - firstSlotOf s true true
  else if a then 2
  else 1

/-- The slot that IMAGE_WRITE writes (R75, R88). -/
def targetSlot (s : State) (readA readB : Bool) : Nat :=
  if inRecover s then recoverSlot s readA readB else 3 - s.sys.slot.toNat

/-- Write an image into a slot. -/
def writeSlot (s : State) (k : Nat) (b : List Byte) : State :=
  { s with
    flash := (b.zipIdx).foldl (fun t p => Tab.set 0xFF t (slotBase k + p.2) p.1) s.flash,
    flashBad := Tab.erase s.flashBad k }

/-- A flash write that failed: the slot is unverifiable (R198). Which check fails, and the
SEQUENCE that R81 reads there, are free values (log entry 44). -/
def spoilSlot (s : State) (k : Nat) : State :=
  let (s, v) := drawFree s
  let q := (leBytes 4 (v.toNat / 2 ^ 32)).zipIdx
  { s with
    flash := q.foldl (fun t p => Tab.set 0xFF t (slotBase k + 0x1C + p.2) p.1) s.flash,
    flashBad := Tab.put s.flashBad k (1 + v.toNat % 7) }

/-- The source of IMAGE_WRITE (R198). -/
def imageSource (s : State) (a n : Nat) : Nat :=
  if inRecover s then need (decide (1 ≤ n ∧ a + n ≤ 0x100000)) stBAD_ARG else inUser s a n

/-- IMAGE_WRITE (R75, R84, R86, R88, R198): `flashOk` tells that the flash write completes,
`readA` and `readB` that the reads of a slot do. -/
def execImageWrite (mb : Fin 8) (msg : Msg) (flashOk readA readB : Bool) (s : State) :
    Host.Outcome State Fault Refusal :=
  command 0x50 .i true mb msg s (fun c s =>
    let a := (c.w 1).toNat
    let n := (c.w 2).toNat
    guarded s [c.shape 2 0, imageSource s a n, needs s (islPI :: banksOf a n)] (fun s =>
      withSource s a n (fun s b =>
        let g := sourceBytes b
        let code := verifyWhole s (sourceWhole b) g
        if code ≠ 0 then .done s stAUTH_FAIL [w32 code]
        else
          let k := targetSlot s readA readB
          if flashOk then
            .done (setTried (writeSlot s k (b.take (256 + imgLength g))) k false) stOK [w32 k]
          else .done (spoilSlot s k) stINTERNAL [])))

/-- IMAGE_CONFIRM (R198): `readOk` tells that the reads of the slot complete. -/
def execImageConfirm (mb : Fin 8) (msg : Msg) (readOk : Bool) (s : State) :
    Host.Outcome State Fault Refusal :=
  command 0x51 .i true mb msg s (fun c s =>
    let k := (c.w 1).toNat
    guarded s [c.shape 1 0, need (k = 1 || k = 2) stBAD_ARG, needs s [islPI]] (fun s =>
      .done s stOK [w32 (verifySlot s k readOk)]))

/-- ROLLBACK_ADVANCE (R198). -/
def execRollbackAdvance (mb : Fin 8) (msg : Msg) (s : State) : Host.Outcome State Fault Refusal :=
  command 0x52 .i false mb msg s (fun c s =>
    guarded s [c.shape 1 0, need (decide ((c.w 1).toNat ≤ s.fw.imgRollback.toNat)) stBAD_ARG] (fun s =>
      let v := if s.otp.rollback.toNat < (c.w 1).toNat then c.w 1 else s.otp.rollback
      .done { s with otp := { s.otp with rollback := v } } stOK [v]))

/-- KEY_REVOKE (R198). -/
def execKeyRevoke (mb : Fin 8) (msg : Msg) (s : State) : Host.Outcome State Fault Refusal :=
  command 0x53 .i false mb msg s (fun c s =>
    let k := fld (c.w 1) 0 2
    let r := setBit s.otp.revoked k true
    guarded s [c.shape 1 0, rsv (c.w 1) 3, need (k ≠ s.fw.imgKey.toNat && r ≠ 0xF) stBAD_ARG] (fun s =>
      .done { s with otp := { s.otp with revoked := r } } stOK []))

/-! ### RESET (R199, R280) -/

/-- RESET with island scope: the island is fenced if it is not, the count of R280 starts afresh, a
hold ends, and the firmware resets and releases the island in its turn (R199, R276, R280). -/
def resetScope (s : State) (c : Cmd) (i : Nat) : State :=
  let s := updIsl s i (fun x => { x with recent := [] })
  let s := fenceIsland s i cCOMMAND
  updIsl s i (fun x => { x with
    recent := [], resetCmd := some c.mb,
    state := if x.state = .held then .fenced else x.state,
    cause := x.cause &&& 0x7F })

/-- RESET (R54, R199, R280). -/
def execResetCommand (mb : Fin 8) (msg : Msg) (s : State) : Host.Outcome State Fault Refusal :=
  command 0x54 .i (!bit (msg.words.headD 0) 0) mb msg s (fun c s =>
    let isle := bit (c.w 1) 0
    let i := fld (c.w 1) 4 4
    guarded s [c.shape 1 0, rsv (c.w 1) 0xF1, need (!(isle && (i = 0 || i = 14))) stBAD_ARG] (fun s =>
      if isle then .wait (resetScope s c i) (.reset c.header c.crc i)
      else .silent (deviceReset s rcHOST)))

end Sys2Proof.Machine
end

