-- ==== Sys2Proof/Machine/Dispatch.lean ====
section
/-! DEFINITION. The dispatch: one arm per command, each one call of its meaning. -/

namespace Sys2Proof.Machine

/-- What one command does to the state, apart from the queue. -/
def exec (i : Instr) (s : State) : Host.Outcome State Fault Refusal :=
  match i with
  | .powerOnReset => Sys2Proof.Machine.execPowerOnReset s
  | .systemReferenceLoss => Sys2Proof.Machine.execSystemReferenceLoss s
  | .rstNReset => Sys2Proof.Machine.execRstNReset s
  | .jtagSysreset => Sys2Proof.Machine.execJtagSysreset s
  | .tapReset => Sys2Proof.Machine.execTapReset s
  | .perst => Sys2Proof.Machine.execPerst s
  | .resetRelease basinOk strapLow sfdp readA readB => Sys2Proof.Machine.execResetRelease basinOk strapLow sfdp readA readB s
  | .firmwareCommissionReached => Sys2Proof.Machine.execFirmwareCommissionReached s
  | .lkWatchdogExpiry => Sys2Proof.Machine.execLkWatchdogExpiry s
  | .lkWdtKick agent => Sys2Proof.Machine.execLkWdtKick agent s
  | .warmRestartResume reads modeOk => Sys2Proof.Machine.execWarmRestartResume reads modeOk s
  | .cycleBoundary => Sys2Proof.Machine.execCycleBoundary s
  | .hostWatchdogExpiry => Sys2Proof.Machine.execHostWatchdogExpiry s
  | .mbTxData agent mb sideB aligned value => Sys2Proof.Machine.execMbTxData agent mb sideB aligned value s
  | .mbTxDataAlias agent mb sideB first words => Sys2Proof.Machine.execMbTxDataAlias agent mb sideB first words s
  | .mbTxDoorbell agent mb sideB aligned value => Sys2Proof.Machine.execMbTxDoorbell agent mb sideB aligned value s
  | .mbRxData agent mb sideB aligned => Sys2Proof.Machine.execMbRxData agent mb sideB aligned s
  | .mbLockRead agent mb aligned => Sys2Proof.Machine.execMbLockRead agent mb aligned s
  | .mbLockWrite agent mb aligned => Sys2Proof.Machine.execMbLockWrite agent mb aligned s
  | .mbIrqEnWrite agent mb sideB aligned value => Sys2Proof.Machine.execMbIrqEnWrite agent mb sideB aligned value s
  | .hostBar2Write addr data ep bar0 => Sys2Proof.Machine.execHostBar2Write addr data ep bar0 s
  | .hostBar2Read addr len => Sys2Proof.Machine.execHostBar2Read addr len s
  | .pcieConfigWrite w => Sys2Proof.Machine.execPcieConfigWrite w s
  | .undefinedOpcode mb header words => Sys2Proof.Machine.execUndefinedOpcode mb header words s
  | .identify mb msg => Sys2Proof.Machine.execIdentify mb msg s
  | .statusCommand mb msg => Sys2Proof.Machine.execStatusCommand mb msg s
  | .queryCommand mb msg => Sys2Proof.Machine.execQueryCommand mb msg s
  | .nopCommand mb msg => Sys2Proof.Machine.execNopCommand mb msg s
  | .setMode mb msg => Sys2Proof.Machine.execSetMode mb msg s
  | .setWatchdog mb msg => Sys2Proof.Machine.execSetWatchdog mb msg s
  | .basinAlloc mb msg => Sys2Proof.Machine.execBasinAlloc mb msg s
  | .basinFree mb msg => Sys2Proof.Machine.execBasinFree mb msg s
  | .createMooring mb msg => Sys2Proof.Machine.execCreateMooring mb msg s
  | .createScene mb msg => Sys2Proof.Machine.execCreateScene mb msg s
  | .bindStation mb msg => Sys2Proof.Machine.execBindStation mb msg s
  | .rebindStation mb msg => Sys2Proof.Machine.execRebindStation mb msg s
  | .rebindStationComplete mb => Sys2Proof.Machine.execRebindStationComplete mb s
  | .createVoice mb msg => Sys2Proof.Machine.execCreateVoice mb msg s
  | .createMix mb msg => Sys2Proof.Machine.execCreateMix mb msg s
  | .routeVoice mb msg => Sys2Proof.Machine.execRouteVoice mb msg s
  | .openChannel mb msg => Sys2Proof.Machine.execOpenChannel mb msg s
  | .createFence mb msg => Sys2Proof.Machine.execCreateFence mb msg s
  | .createScript mb msg => Sys2Proof.Machine.execCreateScript mb msg s
  | .scriptControl mb msg => Sys2Proof.Machine.execScriptControl mb msg s
  | .setCycle mb msg => Sys2Proof.Machine.execSetCycle mb msg s
  | .laneConfig mb msg => Sys2Proof.Machine.execLaneConfig mb msg s
  | .setLoopPolicy mb msg => Sys2Proof.Machine.execSetLoopPolicy mb msg s
  | .panelConfig mb msg => Sys2Proof.Machine.execPanelConfig mb msg s
  | .audioPortConfig mb msg => Sys2Proof.Machine.execAudioPortConfig mb msg s
  | .destroyObject mb msg => Sys2Proof.Machine.execDestroyObject mb msg s
  | .loadTiles mb msg => Sys2Proof.Machine.execLoadTiles mb msg s
  | .loadSamples mb msg => Sys2Proof.Machine.execLoadSamples mb msg s
  | .loadScript mb msg => Sys2Proof.Machine.execLoadScript mb msg s
  | .loadDefaults mb msg => Sys2Proof.Machine.execLoadDefaults mb msg s
  | .forceOutput mb msg => Sys2Proof.Machine.execForceOutput mb msg s
  | .laneTest mb msg => Sys2Proof.Machine.execLaneTest mb msg s
  | .diagRead mb msg => Sys2Proof.Machine.execDiagRead mb msg s
  | .imageWrite mb msg flashOk readA readB => Sys2Proof.Machine.execImageWrite mb msg flashOk readA readB s
  | .imageConfirm mb msg readOk => Sys2Proof.Machine.execImageConfirm mb msg readOk s
  | .rollbackAdvance mb msg => Sys2Proof.Machine.execRollbackAdvance mb msg s
  | .keyRevoke mb msg => Sys2Proof.Machine.execKeyRevoke mb msg s
  | .resetCommand mb msg => Sys2Proof.Machine.execResetCommand mb msg s
  | .eventRecordDelivery => Sys2Proof.Machine.execEventRecordDelivery s
  | .basinReadRequest agent addr len => Sys2Proof.Machine.execBasinReadRequest agent addr len s
  | .basinWriteRequest agent addr data => Sys2Proof.Machine.execBasinWriteRequest agent addr data s
  | .scrubRead bank => Sys2Proof.Machine.execScrubRead bank s
  | .weirCas agent => Sys2Proof.Machine.execWeirCas agent s
  | .weirSwap agent => Sys2Proof.Machine.execWeirSwap agent s
  | .weirOperationDone agent => Sys2Proof.Machine.execWeirOperationDone agent s
  | .lockCellRead agent cell => Sys2Proof.Machine.execLockCellRead agent cell s
  | .lockCellWrite agent cell => Sys2Proof.Machine.execLockCellWrite agent cell s
  | .reservationLapse cell => Sys2Proof.Machine.execReservationLapse cell s
  | .waiterLapse agent cell => Sys2Proof.Machine.execWaiterLapse agent cell s
  | .crossingTimeout issuer target => Sys2Proof.Machine.execCrossingTimeout issuer target s
  | .stateParity island => Sys2Proof.Machine.execStateParity island s
  | .pllUnlock island => Sys2Proof.Machine.execPllUnlock island s
  | .marginLost island => Sys2Proof.Machine.execMarginLost island s
  | .deadman island => Sys2Proof.Machine.execDeadman island s
  | .jtagFence island => Sys2Proof.Machine.execJtagFence island s
  | .jtagFenceRelease island => Sys2Proof.Machine.execJtagFenceRelease island s
  | .isControlFence agent island => Sys2Proof.Machine.execIsControlFence agent island s
  | .isControlReset agent island => Sys2Proof.Machine.execIsControlReset agent island s
  | .islandResetDone island => Sys2Proof.Machine.execIslandResetDone island s
  | .isControlRelease agent island => Sys2Proof.Machine.execIsControlRelease agent island s
  | .droopDetected island depthMv => Sys2Proof.Machine.execDroopDetected island depthMv s
  | .stretchEnd island => Sys2Proof.Machine.execStretchEnd island s
  | .stretchLong island => Sys2Proof.Machine.execStretchLong island s
  | .voltageLoopStep rail margins settled needMv => Sys2Proof.Machine.execVoltageLoopStep rail margins settled needMv s
  | .frequencyLoopStep island margin held => Sys2Proof.Machine.execFrequencyLoopStep island margin held s
  | .tempHigh island temp => Sys2Proof.Machine.execTempHigh island temp s
  | .thermN island temp => Sys2Proof.Machine.execThermN island temp s
  | .dropoutThresholdLower station => Sys2Proof.Machine.execDropoutThresholdLower station s
  | .rasterWrite agent scene reg value => Sys2Proof.Machine.execRasterWrite agent scene reg value s
  | .tpScRedraw agent scene => Sys2Proof.Machine.execTpScRedraw agent scene s
  | .lineRender pipe => Sys2Proof.Machine.execLineRender pipe s
  | .frameStart scene => Sys2Proof.Machine.execFrameStart scene s
  | .lineCommit scene => Sys2Proof.Machine.execLineCommit scene s
  | .sob scene => Sys2Proof.Machine.execSob scene s
  | .lineMatch scene comp => Sys2Proof.Machine.execLineMatch scene comp s
  | .tpEvq agent => Sys2Proof.Machine.execTpEvq agent s
  | .balancerStep busy load => Sys2Proof.Machine.execBalancerStep busy load s
  | .tpScFlip agent scene => Sys2Proof.Machine.execTpScFlip agent scene s
  | .blitPoll => Sys2Proof.Machine.execBlitPoll s
  | .tpBltKick agent mooring => Sys2Proof.Machine.execTpBltKick agent mooring s
  | .blitStart => Sys2Proof.Machine.execBlitStart s
  | .blitComplete => Sys2Proof.Machine.execBlitComplete s
  | .frameTransmit lane => Sys2Proof.Machine.execFrameTransmit lane s
  | .pieceAckTimeout station => Sys2Proof.Machine.execPieceAckTimeout station s
  | .tpStRefresh agent station => Sys2Proof.Machine.execTpStRefresh agent station s
  | .tpPnlRefresh agent => Sys2Proof.Machine.execTpPnlRefresh agent s
  | .panelInitWait => Sys2Proof.Machine.execPanelInitWait s
  | .teEdge => Sys2Proof.Machine.execTeEdge s
  | .teTimeout => Sys2Proof.Machine.execTeTimeout s
  | .sampleTick => Sys2Proof.Machine.execSampleTick s
  | .blockBoundary => Sys2Proof.Machine.execBlockBoundary s
  | .blockAvailable late => Sys2Proof.Machine.execBlockAvailable late s
  | .keyOn agent voice keepPhase => Sys2Proof.Machine.execKeyOn agent voice keepPhase s
  | .keyOff agent voice => Sys2Proof.Machine.execKeyOff agent voice s
  | .moduleInserted lane => Sys2Proof.Machine.execModuleInserted lane s
  | .moduleRead lane page => Sys2Proof.Machine.execModuleRead lane page s
  | .moduleRemoved lane => Sys2Proof.Machine.execModuleRemoved lane s
  | .rxLosChange lane los => Sys2Proof.Machine.execRxLosChange lane los s
  | .txFault lane => Sys2Proof.Machine.execTxFault lane s
  | .txFaultPulse lane => Sys2Proof.Machine.execTxFaultPulse lane s
  | .ddmPoll lane page => Sys2Proof.Machine.execDdmPoll lane page s
  | .eqAdaptStep lane ctle taps => Sys2Proof.Machine.execEqAdaptStep lane ctle taps s
  | .txPostTrial lane => Sys2Proof.Machine.execTxPostTrial lane s
  | .eyeMeasure lane eye => Sys2Proof.Machine.execEyeMeasure lane eye s
  | .tapSave => Sys2Proof.Machine.execTapSave s
  | .blockLockGained lane => Sys2Proof.Machine.execBlockLockGained lane s
  | .blockLockLost lane => Sys2Proof.Machine.execBlockLockLost lane s
  | .hiBerWindow lane invalid => Sys2Proof.Machine.execHiBerWindow lane invalid s
  | .rxFrameDrop lane f => Sys2Proof.Machine.execRxFrameDrop lane f s
  | .upstreamCycle lane bytes errBlocks ended => Sys2Proof.Machine.execUpstreamCycle lane bytes errBlocks ended s
  | .alignmentLoss lane => Sys2Proof.Machine.execAlignmentLoss lane s
  | .inFrame lane bytes fin => Sys2Proof.Machine.execInFrame lane bytes fin s
  | .ackFrame lane bytes fin => Sys2Proof.Machine.execAckFrame lane bytes fin s
  | .diagFrame lane bytes fin => Sys2Proof.Machine.execDiagFrame lane bytes fin s
  | .inputCut => Sys2Proof.Machine.execInputCut s
  | .dhTimerMatch core => Sys2Proof.Machine.execDhTimerMatch core s
  | .lkTimerMatch => Sys2Proof.Machine.execLkTimerMatch s
  | .dhHeart agent core => Sys2Proof.Machine.execDhHeart agent core s
  | .sysTickLo agent => Sys2Proof.Machine.execSysTickLo agent s
  | .interruptEntry core => Sys2Proof.Machine.execInterruptEntry core s
  | .storeError core => Sys2Proof.Machine.execStoreError core s
  | .illegalEncoding core cells => Sys2Proof.Machine.execIllegalEncoding core cells s
  | .nopInstr core => Sys2Proof.Machine.execNopInstr core s
  | .sync core => Sys2Proof.Machine.execSync core s
  | .reti core => Sys2Proof.Machine.execReti core s
  | .wfi core => Sys2Proof.Machine.execWfi core s
  | .cli core => Sys2Proof.Machine.execCli core s
  | .sti core => Sys2Proof.Machine.execSti core s
  | .sysCall core k => Sys2Proof.Machine.execSysCall core k s
  | .repInstr core dc acc stop => Sys2Proof.Machine.execRepInstr core dc acc stop s
  | .reps core dc acc => Sys2Proof.Machine.execReps core dc acc s
  | .repI core dc acc stop => Sys2Proof.Machine.execRepI core dc acc stop s
  | .repsI core dc acc => Sys2Proof.Machine.execRepsI core dc acc s
  | .getf core rd => Sys2Proof.Machine.execGetf core rd s
  | .setf core rs => Sys2Proof.Machine.execSetf core rs s
  | .jr core rs => Sys2Proof.Machine.execJr core rs s
  | .callr core rs => Sys2Proof.Machine.execCallr core rs s
  | .adr core rd rel => Sys2Proof.Machine.execAdr core rd rel s
  | .movReg core rd rs => Sys2Proof.Machine.execMovReg core rd rs s
  | .addReg core rd rs => Sys2Proof.Machine.execAddReg core rd rs s
  | .adcReg core rd rs => Sys2Proof.Machine.execAdcReg core rd rs s
  | .subReg core rd rs => Sys2Proof.Machine.execSubReg core rd rs s
  | .sbcReg core rd rs => Sys2Proof.Machine.execSbcReg core rd rs s
  | .andReg core rd rs => Sys2Proof.Machine.execAndReg core rd rs s
  | .orReg core rd rs => Sys2Proof.Machine.execOrReg core rd rs s
  | .xorReg core rd rs => Sys2Proof.Machine.execXorReg core rd rs s
  | .cmpReg core rd rs => Sys2Proof.Machine.execCmpReg core rd rs s
  | .tstReg core rd rs => Sys2Proof.Machine.execTstReg core rd rs s
  | .movi core rd x => Sys2Proof.Machine.execMovi core rd x s
  | .addi core rd x => Sys2Proof.Machine.execAddi core rd x s
  | .subi core rd x => Sys2Proof.Machine.execSubi core rd x s
  | .andi core rd x => Sys2Proof.Machine.execAndi core rd x s
  | .ori core rd x => Sys2Proof.Machine.execOri core rd x s
  | .xori core rd x => Sys2Proof.Machine.execXori core rd x s
  | .cmpi core rd x => Sys2Proof.Machine.execCmpi core rd x s
  | .tsti core rd x => Sys2Proof.Machine.execTsti core rd x s
  | .shl core rd k => Sys2Proof.Machine.execShl core rd k s
  | .shr core rd k => Sys2Proof.Machine.execShr core rd k s
  | .sar core rd k => Sys2Proof.Machine.execSar core rd k s
  | .rol core rd k => Sys2Proof.Machine.execRol core rd k s
  | .ror core rd k => Sys2Proof.Machine.execRor core rd k s
  | .shlReg core rd rs => Sys2Proof.Machine.execShlReg core rd rs s
  | .shrReg core rd rs => Sys2Proof.Machine.execShrReg core rd rs s
  | .sarReg core rd rs => Sys2Proof.Machine.execSarReg core rd rs s
  | .rolReg core rd rs => Sys2Proof.Machine.execRolReg core rd rs s
  | .rorReg core rd rs => Sys2Proof.Machine.execRorReg core rd rs s
  | .negReg core rd => Sys2Proof.Machine.execNegReg core rd s
  | .notReg core rd => Sys2Proof.Machine.execNotReg core rd s
  | .sxb core rd => Sys2Proof.Machine.execSxb core rd s
  | .swpb core rd => Sys2Proof.Machine.execSwpb core rd s
  | .addq core rd k => Sys2Proof.Machine.execAddq core rd k s
  | .subq core rd k => Sys2Proof.Machine.execSubq core rd k s
  | .movp core k j => Sys2Proof.Machine.execMovp core k j s
  | .addp core k j => Sys2Proof.Machine.execAddp core k j s
  | .subp core k j => Sys2Proof.Machine.execSubp core k j s
  | .cmpp core k j => Sys2Proof.Machine.execCmpp core k j s
  | .mulu core k rs => Sys2Proof.Machine.execMulu core k rs s
  | .muls core k rs => Sys2Proof.Machine.execMuls core k rs s
  | .divu core k rs => Sys2Proof.Machine.execDivu core k rs s
  | .divs core k rs => Sys2Proof.Machine.execDivs core k rs s
  | .ldB core rd b x => Sys2Proof.Machine.execLdB core rd b x s
  | .ldSb core rd b x => Sys2Proof.Machine.execLdSb core rd b x s
  | .ld core rd b x => Sys2Proof.Machine.execLd core rd b x s
  | .ldP core k b x => Sys2Proof.Machine.execLdP core k b x s
  | .stB core rs b x => Sys2Proof.Machine.execStB core rs b x s
  | .st core rs b x => Sys2Proof.Machine.execSt core rs b x s
  | .stP core k b x => Sys2Proof.Machine.execStP core k b x s
  | .inCell core rd p x => Sys2Proof.Machine.execInCell core rd p x s
  | .inPair core k p x => Sys2Proof.Machine.execInPair core k p x s
  | .outCell core rs p x => Sys2Proof.Machine.execOutCell core rs p x s
  | .outPair core k p x => Sys2Proof.Machine.execOutPair core k p x s
  | .mvm core size f g x y => Sys2Proof.Machine.execMvm core size f g x y s
  | .inm core pair f p x y => Sys2Proof.Machine.execInm core pair f p x y s
  | .outm core pair f p x y => Sys2Proof.Machine.execOutm core pair f p x y s
  | .bmov core k j => Sys2Proof.Machine.execBmov core k j s
  | .bsub core k j a b => Sys2Proof.Machine.execBsub core k j a b s
  | .bbase core k a => Sys2Proof.Machine.execBbase core k a s
  | .badd core k a => Sys2Proof.Machine.execBadd core k a s
  | .baddi core k x => Sys2Proof.Machine.execBaddi core k x s
  | .bgetB core a k => Sys2Proof.Machine.execBgetB core a k s
  | .bgetF core a k => Sys2Proof.Machine.execBgetF core a k s
  | .bgetL core a k => Sys2Proof.Machine.execBgetL core a k s
  | .bgetM core a k => Sys2Proof.Machine.execBgetM core a k s
  | .bset core k => Sys2Proof.Machine.execBset core k s
  | .pmov core k rs => Sys2Proof.Machine.execPmov core k rs s
  | .pget core rd k => Sys2Proof.Machine.execPget core rd k s
  | .padd core k rs => Sys2Proof.Machine.execPadd core k rs s
  | .pseti core k x => Sys2Proof.Machine.execPseti core k x s
  | .bCc core cc rel => Sys2Proof.Machine.execBCc core cc rel s
  | .bCcL core cc rel => Sys2Proof.Machine.execBCcL core cc rel s
  | .callRel core rel => Sys2Proof.Machine.execCallRel core rel s
  | .dbnz core rs rel => Sys2Proof.Machine.execDbnz core rs rel s
  | .yieldService core => Sys2Proof.Machine.execYieldService core s
  | .waitService core => Sys2Proof.Machine.execWaitService core s
  | .postService core => Sys2Proof.Machine.execPostService core s
  | .lockService core => Sys2Proof.Machine.execLockService core s
  | .lockPoll core => Sys2Proof.Machine.execLockPoll core s
  | .unlockService core => Sys2Proof.Machine.execUnlockService core s
  | .sleepService core => Sys2Proof.Machine.execSleepService core s
  | .sleepExpiry core => Sys2Proof.Machine.execSleepExpiry core s
  | .exitTask core => Sys2Proof.Machine.execExitTask core s
  | .budgetExpiry core => Sys2Proof.Machine.execBudgetExpiry core s
  | .icClaim agent => Sys2Proof.Machine.execIcClaim agent s
  | .icComplete agent value => Sys2Proof.Machine.execIcComplete agent value s
  | .icRaise agent value => Sys2Proof.Machine.execIcRaise agent value s
  | .discardCount agent shared target src => Sys2Proof.Machine.execDiscardCount agent shared target src s
  | .icParityError shared target src => Sys2Proof.Machine.execIcParityError shared target src s
  | .slDoorbell agent ch => Sys2Proof.Machine.execSlDoorbell agent ch s
  | .slAbort agent ch => Sys2Proof.Machine.execSlAbort agent ch s
  | .slClear agent ch => Sys2Proof.Machine.execSlClear agent ch s
  | .slAppend agent ch value => Sys2Proof.Machine.execSlAppend agent ch value s
  | .slSubmitPoll => Sys2Proof.Machine.execSlSubmitPoll s
  | .slDescriptorFetch ch => Sys2Proof.Machine.execSlDescriptorFetch ch s
  | .slBurstIssue => Sys2Proof.Machine.execSlBurstIssue s
  | .slBurstComplete ch burst host => Sys2Proof.Machine.execSlBurstComplete ch burst host s
  | .slTailRecheck ch => Sys2Proof.Machine.execSlTailRecheck ch s
  | .slChannelStopped ch => Sys2Proof.Machine.execSlChannelStopped ch s
  | .sqGo agent ch miso => Sys2Proof.Machine.execSqGo agent ch miso s
  | .sqTxdata agent ch value => Sys2Proof.Machine.execSqTxdata agent ch value s
  | .sqRxdata agent ch => Sys2Proof.Machine.execSqRxdata agent ch s
  | .sqFrameEnd ch => Sys2Proof.Machine.execSqFrameEnd ch s
  | .sqStallTimeout ch => Sys2Proof.Machine.execSqStallTimeout ch s
  | .earlyRelease ch seg phase bits => Sys2Proof.Machine.execEarlyRelease ch seg phase bits s
  | .gpOut agent bank value => Sys2Proof.Machine.execGpOut agent bank value s
  | .gpOutSet agent bank value => Sys2Proof.Machine.execGpOutSet agent bank value s
  | .gpOutClr agent bank value => Sys2Proof.Machine.execGpOutClr agent bank value s
  | .gpOutTgl agent bank value => Sys2Proof.Machine.execGpOutTgl agent bank value s
  | .gpOutMwl agent bank value => Sys2Proof.Machine.execGpOutMwl agent bank value s
  | .gpOutMwh agent bank value => Sys2Proof.Machine.execGpOutMwh agent bank value s
  | .gpDir agent bank value => Sys2Proof.Machine.execGpDir agent bank value s
  | .gpDirMwl agent bank value => Sys2Proof.Machine.execGpDirMwl agent bank value s
  | .gpDirMwh agent bank value => Sys2Proof.Machine.execGpDirMwh agent bank value s
  | .gpioPadChange pin level => Sys2Proof.Machine.execGpioPadChange pin level s
  | .gpioFilteredChange pin => Sys2Proof.Machine.execGpioFilteredChange pin s
  | .i2cGo agent value sdaLow stuck => Sys2Proof.Machine.execI2cGo agent value sdaLow stuck s
  | .i2cDone nack bytes => Sys2Proof.Machine.execI2cDone nack bytes s
  | .i2cStretchTimeout => Sys2Proof.Machine.execI2cStretchTimeout s
  | .voltageWrite agent rail mv => Sys2Proof.Machine.execVoltageWrite agent rail mv s
  | .voltageRead agent rail => Sys2Proof.Machine.execVoltageRead agent rail s
  | .statusRead agent rail => Sys2Proof.Machine.execStatusRead agent rail s
  | .avsDone rail crcOk ack data => Sys2Proof.Machine.execAvsDone rail crcOk ack data s
  | .registerWrite agent addr sel value => Sys2Proof.Machine.execRegisterWrite agent addr sel value s
  | .rcFieldRead agent addr aligned => Sys2Proof.Machine.execRcFieldRead agent addr aligned s
  | .perstRelease => Sys2Proof.Machine.execPerstRelease s
  | .txFaultCleared lane => Sys2Proof.Machine.execTxFaultCleared lane s
  | .msixTableWrite offset bytes => Sys2Proof.Machine.execMsixTableWrite offset bytes s

end Sys2Proof.Machine
end

