-- ==== Sys2Proof/WellFormed.lean ====
section
/-! DEFINITION. The operands that a command can carry. A command outside these checks is no
command of the block: it is refused by name. -/

namespace Sys2Proof

/-- The payload words of a command message (R154): at most seven. -/
def Msg.wf (m : Msg) : Bool := m.words.length ≤ 7

/-- A run of `n` bytes, at least one, that lies within one aligned block of `size` bytes. -/
def runWithin (size a n : Nat) : Bool := 1 ≤ n && a % size + n ≤ size

/-- The steps of one adaptation (R482): one for the CTLE and one for each of the five taps,
each −1, 0 or 1. -/
def eqSteps (ctle : Int) (taps : List Int) : Bool :=
  decide (taps.length = 5) && (ctle :: taps).all (fun d => -1 ≤ d && d ≤ 1)

/-- The operands of a command are those that its row can carry. -/
def Instr.wf : Instr → Bool
  -- R103: the words of one write lie in the eight aliases.
  | .mbTxDataAlias _ _ _ first words => 1 ≤ words.length && first.val + words.length ≤ 8
  -- R130: a host request crosses no 4 KiB page; only a poisoned request is one to BAR0 (R134).
  -- R117: a write carries at most 256 bytes.
  | .hostBar2Write addr data ep bar0 =>
    runWithin 4096 addr.val data.length && data.length ≤ 256 && (!bar0 || ep)
  | .hostBar2Read addr len => runWithin 4096 addr.val len
  -- R229: a request on the fabric lies in one granule.
  | .basinReadRequest _ addr len => runWithin 256 addr.val len
  | .basinWriteRequest _ addr data => runWithin 256 addr.val data.length
  -- R801: the bytes lie in the table.
  | .msixTableWrite offset bytes => offset.val + bytes.length ≤ 1024
  -- R163: check 1 refuses the message.
  | .undefinedOpcode _ header words => Machine.malformed header words
  -- R293: the register is line-effective.
  | .rasterWrite _ _ reg _ => (Machine.leMask reg).isSome
  | .eqAdaptStep _ ctle taps => eqSteps ctle taps
  -- R629: the cells are those of an undefined encoding.
  | .illegalEncoding _ cells => Machine.undefinedEncoding cells
  -- R154: a message has at most seven payload words.
  | .identify _ msg => msg.wf
  | .statusCommand _ msg => msg.wf
  | .queryCommand _ msg => msg.wf
  | .nopCommand _ msg => msg.wf
  | .setMode _ msg => msg.wf
  | .setWatchdog _ msg => msg.wf
  | .basinAlloc _ msg => msg.wf
  | .basinFree _ msg => msg.wf
  | .createMooring _ msg => msg.wf
  | .createScene _ msg => msg.wf
  | .bindStation _ msg => msg.wf
  | .rebindStation _ msg => msg.wf
  | .createVoice _ msg => msg.wf
  | .createMix _ msg => msg.wf
  | .routeVoice _ msg => msg.wf
  | .openChannel _ msg => msg.wf
  | .createFence _ msg => msg.wf
  | .createScript _ msg => msg.wf
  | .scriptControl _ msg => msg.wf
  | .setCycle _ msg => msg.wf
  | .laneConfig _ msg => msg.wf
  | .setLoopPolicy _ msg => msg.wf
  | .panelConfig _ msg => msg.wf
  | .audioPortConfig _ msg => msg.wf
  | .destroyObject _ msg => msg.wf
  | .loadTiles _ msg => msg.wf
  | .loadSamples _ msg => msg.wf
  | .loadScript _ msg => msg.wf
  | .loadDefaults _ msg => msg.wf
  | .forceOutput _ msg => msg.wf
  | .laneTest _ msg => msg.wf
  | .diagRead _ msg => msg.wf
  | .imageWrite _ msg _ _ _ => msg.wf
  | .imageConfirm _ msg _ => msg.wf
  | .rollbackAdvance _ msg => msg.wf
  | .keyRevoke _ msg => msg.wf
  | .resetCommand _ msg => msg.wf
  -- Every other row carries any operands of its types.
  | .powerOnReset | .systemReferenceLoss | .rstNReset | .jtagSysreset | .tapReset | .perst
  | .resetRelease _ _ _ _ _ | .firmwareCommissionReached | .lkWatchdogExpiry | .lkWdtKick _
  | .warmRestartResume _ _ | .cycleBoundary | .hostWatchdogExpiry | .mbTxData _ _ _ _ _
  | .mbTxDoorbell _ _ _ _ _ | .mbRxData _ _ _ _ | .mbLockRead _ _ _ | .mbLockWrite _ _ _
  | .mbIrqEnWrite _ _ _ _ _ | .pcieConfigWrite _ | .rebindStationComplete _
  | .eventRecordDelivery | .scrubRead _ | .weirCas _ | .weirSwap _ | .weirOperationDone _
  | .lockCellRead _ _ | .lockCellWrite _ _ | .reservationLapse _ | .waiterLapse _ _
  | .crossingTimeout _ _ | .stateParity _ | .pllUnlock _ | .marginLost _ | .deadman _
  | .jtagFence _ | .jtagFenceRelease _ | .isControlFence _ _ | .isControlReset _ _
  | .islandResetDone _ | .isControlRelease _ _ | .droopDetected _ _ | .stretchEnd _
  | .stretchLong _ | .voltageLoopStep _ _ _ _ | .frequencyLoopStep _ _ _ | .tempHigh _ _
  | .thermN _ _ | .dropoutThresholdLower _ | .tpScRedraw _ _ | .lineRender _ | .frameStart _
  | .lineCommit _ | .sob _ | .lineMatch _ _ | .tpEvq _ | .balancerStep _ _ | .tpScFlip _ _
  | .blitPoll | .tpBltKick _ _ | .blitStart | .blitComplete | .frameTransmit _
  | .pieceAckTimeout _ | .tpStRefresh _ _ | .tpPnlRefresh _ | .panelInitWait | .teEdge
  | .teTimeout | .sampleTick | .blockBoundary | .blockAvailable _ | .keyOn _ _ _ | .keyOff _ _
  | .moduleInserted _ | .moduleRead _ _ | .moduleRemoved _ | .rxLosChange _ _ | .txFault _
  | .txFaultPulse _ | .ddmPoll _ _ | .txPostTrial _ | .eyeMeasure _ _ | .tapSave
  | .blockLockGained _ | .blockLockLost _ | .hiBerWindow _ _ | .rxFrameDrop _ _
  | .upstreamCycle _ _ _ _ | .alignmentLoss _ | .inFrame _ _ _ | .ackFrame _ _ _ | .diagFrame _ _ _ | .inputCut | .dhTimerMatch _ | .lkTimerMatch | .dhHeart _ _ | .sysTickLo _
  | .interruptEntry _ | .storeError _ | .nopInstr _ | .sync _ | .reti _ | .wfi _ | .cli _
  | .sti _ | .sysCall _ _ | .repInstr _ _ _ _ | .reps _ _ _ | .repI _ _ _ _ | .repsI _ _ _
  | .getf _ _ | .setf _ _ | .jr _ _ | .callr _ _ | .adr _ _ _ | .movReg _ _ _ | .addReg _ _ _
  | .adcReg _ _ _ | .subReg _ _ _ | .sbcReg _ _ _ | .andReg _ _ _ | .orReg _ _ _ | .xorReg _ _ _
  | .cmpReg _ _ _ | .tstReg _ _ _ | .movi _ _ _ | .addi _ _ _ | .subi _ _ _ | .andi _ _ _
  | .ori _ _ _ | .xori _ _ _ | .cmpi _ _ _ | .tsti _ _ _ | .shl _ _ _ | .shr _ _ _ | .sar _ _ _
  | .rol _ _ _ | .ror _ _ _ | .shlReg _ _ _ | .shrReg _ _ _ | .sarReg _ _ _ | .rolReg _ _ _
  | .rorReg _ _ _ | .negReg _ _ | .notReg _ _ | .sxb _ _ | .swpb _ _ | .addq _ _ _ | .subq _ _ _
  | .movp _ _ _ | .addp _ _ _ | .subp _ _ _ | .cmpp _ _ _ | .mulu _ _ _ | .muls _ _ _
  | .divu _ _ _ | .divs _ _ _ | .ldB _ _ _ _ | .ldSb _ _ _ _ | .ld _ _ _ _ | .ldP _ _ _ _
  | .stB _ _ _ _ | .st _ _ _ _ | .stP _ _ _ _ | .inCell _ _ _ _ | .inPair _ _ _ _
  | .outCell _ _ _ _ | .outPair _ _ _ _ | .mvm _ _ _ _ _ _ | .inm _ _ _ _ _ _
  | .outm _ _ _ _ _ _ | .bmov _ _ _ | .bsub _ _ _ _ _ | .bbase _ _ _ | .badd _ _ _
  | .baddi _ _ _ | .bgetB _ _ _ | .bgetF _ _ _ | .bgetL _ _ _ | .bgetM _ _ _ | .bset _ _
  | .pmov _ _ _ | .pget _ _ _ | .padd _ _ _ | .pseti _ _ _ | .bCc _ _ _ | .bCcL _ _ _
  | .callRel _ _ | .dbnz _ _ _ | .yieldService _ | .waitService _ | .postService _
  | .lockService _ | .lockPoll _ | .unlockService _ | .sleepService _ | .sleepExpiry _
  | .exitTask _ | .budgetExpiry _ | .icClaim _ | .icComplete _ _ | .icRaise _ _
  | .discardCount _ _ _ _ | .icParityError _ _ _ | .slDoorbell _ _ | .slAbort _ _ | .slClear _ _
  | .slAppend _ _ _ | .slSubmitPoll | .slDescriptorFetch _ | .slBurstIssue
  | .slBurstComplete _ _ _ | .slTailRecheck _ | .slChannelStopped _ | .sqGo _ _ _
  | .sqTxdata _ _ _ | .sqRxdata _ _ | .sqFrameEnd _ | .sqStallTimeout _ | .earlyRelease _ _ _ _
  | .gpOut _ _ _ | .gpOutSet _ _ _ | .gpOutClr _ _ _ | .gpOutTgl _ _ _ | .gpOutMwl _ _ _
  | .gpOutMwh _ _ _ | .gpDir _ _ _ | .gpDirMwl _ _ _ | .gpDirMwh _ _ _ | .gpioPadChange _ _
  | .gpioFilteredChange _ | .i2cGo _ _ _ _ | .i2cDone _ _ | .i2cStretchTimeout
  | .voltageWrite _ _ _ | .voltageRead _ _ | .statusRead _ _ | .avsDone _ _ _ _
  | .registerWrite _ _ _ _ | .rcFieldRead _ _ _ | .perstRelease | .txFaultCleared _ => true

end Sys2Proof
end

