-- ==== Sys2Proof/Safety.lean ====
section
/-! DEFINITION. What claims about the block are stated in: the canonical form of Basin's
bytes, and the state that a run keeps. -/

namespace Sys2Proof.Machine

/-- Basin's bytes are in canonical form: addresses strictly rising, and no entry equal to
what an unlisted address reads as, which is 0 (R78). -/
def Memory.wf (m : List Host.Cell) : Bool := Tab.wf 0 m

/-- The byte that an address of Basin holds: 0 where none is listed (R78). -/
def Memory.byte (m : List Host.Cell) (a : Nat) : Byte := Tab.get 0 m a

/-- The invariant of every step: Basin's bytes are in canonical form. -/
def State.memOk (s : State) : Prop := Memory.wf s.basin.bytes = true

/-- One-time-programmable storage only takes on bits (R87): no revocation is undone, the
rollback counter never falls, and nothing else is written by the part itself. -/
structure Otp.Grows (x y : Otp) : Prop where
  keyHash : y.keyHash = x.keyHash
  rollback : x.rollback.toNat ≤ y.rollback.toNat
  revoked : x.revoked &&& y.revoked = x.revoked
  mac : y.mac = x.mac
  subVendor : y.subVendor = x.subVendor
  subId : y.subId = x.subId
  subProgrammed : y.subProgrammed = x.subProgrammed

/-! ### What a command may change -/

/-- The parts of the state that a command may change. `cyc` is the Towline cycle, `tl` all of
Towline. -/
inductive Part where
  | tick | fresh | out | pins | otp | flash | flashBad | sys | basin | weir | islands | rails
  | staging | intc | mbx | win | pcie | fw | gp | pi | tp | tl | cyc | cv | sl | dh
  deriving DecidableEq, Repr

/-- State `t` follows state `s`, and only the parts in `l` may differ. Whatever a command does, the
queue is left alone, the trace is only appended to, free values are drawn in order, Basin's bytes
keep their canonical form, and one-time-programmable bits are never cleared. -/
structure Follows (l : List Part) (s t : State) : Prop where
  pending : t.pending = s.pending
  trace : s.out <+: t.out
  drawn : s.fresh ≤ t.fresh
  mem : s.memOk → t.memOk
  grows : s.otp.Grows t.otp
  tick : .tick ∉ l → t.tick = s.tick
  fresh : .fresh ∉ l → t.fresh = s.fresh
  out : .out ∉ l → t.out = s.out
  pins : .pins ∉ l → t.pins = s.pins
  otp : .otp ∉ l → t.otp = s.otp
  flash : .flash ∉ l → t.flash = s.flash
  flashBad : .flashBad ∉ l → t.flashBad = s.flashBad
  sys : .sys ∉ l → t.sys = s.sys
  basin : .basin ∉ l → t.basin = s.basin
  weir : .weir ∉ l → t.weir = s.weir
  islands : .islands ∉ l → t.islands = s.islands
  rails : .rails ∉ l → t.rails = s.rails
  staging : .staging ∉ l → t.staging = s.staging
  intc : .intc ∉ l → t.intc = s.intc
  mbx : .mbx ∉ l → t.mbx = s.mbx
  win : .win ∉ l → t.win = s.win
  pcie : .pcie ∉ l → t.pcie = s.pcie
  fw : .fw ∉ l → t.fw = s.fw
  gp : .gp ∉ l → t.gp = s.gp
  pi : .pi ∉ l → t.pi = s.pi
  tp : .tp ∉ l → t.tp = s.tp
  tl : .tl ∉ l → t.tl = s.tl
  cyc : .cyc ∉ l → t.tl.cyc = s.tl.cyc
  cv : .cv ∉ l → t.cv = s.cv
  sl : .sl ∉ l → t.sl = s.sl
  dh : .dh ∉ l → t.dh = s.dh

/-- The parts of the state that each command may change: its own block, and what its records,
interrupts and errors reach. -/
def partsOf : Instr → List Part
  | .powerOnReset | .systemReferenceLoss =>
    [.tick, .out, .pins, .sys, .basin, .weir, .islands, .rails, .staging, .intc, .mbx, .win,
     .pcie, .fw, .gp, .pi, .tp, .tl, .cyc, .cv, .sl, .dh]
  | .rstNReset | .jtagSysreset | .resetRelease _ _ _ _ _ | .warmRestartResume _ _ =>
    [.out, .sys, .basin, .weir, .islands, .rails, .staging, .intc, .mbx, .win, .pcie, .fw, .gp,
     .pi, .tp, .tl, .cyc, .cv, .sl, .dh]
  | .tapReset =>
    [.out, .weir, .intc, .mbx, .pcie, .fw]
  | .perst =>
    [.out, .pins, .sys, .weir, .intc, .mbx, .pcie, .fw]
  | .firmwareCommissionReached =>
    [.sys, .rails, .staging, .intc, .fw, .tp, .cv, .dh]
  | .lkWatchdogExpiry =>
    [.tick, .fresh, .out, .sys, .basin, .weir, .islands, .rails, .staging, .intc, .mbx, .win,
     .pcie, .fw, .gp, .pi, .tp, .tl, .cyc, .cv, .sl, .dh]
  | .lkWdtKick _ =>
    [.fresh, .out, .sys]
  | .cycleBoundary =>
    [.tick, .out, .sys, .basin, .weir, .staging, .intc, .mbx, .pcie, .fw, .tp, .tl, .cyc, .cv,
     .sl, .dh]
  | .hostWatchdogExpiry =>
    [.tick]
  | .mbTxData _ _ _ _ _ | .mbTxDataAlias _ _ _ _ _ | .mbTxDoorbell _ _ _ _ _ | .mbRxData _ _ _ _
  | .undefinedOpcode _ _ _ =>
    [.out, .intc, .mbx, .pcie, .fw]
  | .mbLockRead _ _ _ | .mbLockWrite _ _ _ | .mbIrqEnWrite _ _ _ _ _ =>
    [.out, .intc, .mbx, .pcie]
  | .hostBar2Write _ _ _ _ =>
    [.out, .basin, .staging, .intc, .win, .pcie, .fw]
  | .hostBar2Read _ _ =>
    [.out, .basin, .staging, .intc, .win, .fw]
  | .pcieConfigWrite _ | .msixTableWrite _ _ =>
    [.out, .pcie]
  | .identify _ _ | .statusCommand _ _ | .queryCommand _ _ | .nopCommand _ _ | .setMode _ _
  | .setWatchdog _ _ | .createFence _ _ | .imageConfirm _ _ _ =>
    [.fresh, .out, .staging, .intc, .mbx, .pcie, .fw]
  | .basinAlloc _ _ =>
    [.fresh, .out, .basin, .staging, .intc, .mbx, .win, .pcie, .fw]
  | .basinFree _ _ =>
    [.fresh, .out, .staging, .intc, .mbx, .win, .pcie, .fw]
  | .createMooring _ _ =>
    [.fresh, .out, .basin, .staging, .intc, .mbx, .pcie, .fw, .sl]
  | .createScene _ _ | .loadTiles _ _ =>
    [.fresh, .out, .basin, .staging, .intc, .mbx, .pcie, .fw, .tp]
  | .bindStation _ _ | .laneConfig _ _ | .laneTest _ _ =>
    [.fresh, .out, .basin, .staging, .intc, .mbx, .pcie, .fw, .tp, .tl]
  | .rebindStation _ _ =>
    [.fresh, .out, .staging, .intc, .mbx, .pcie, .fw, .tp, .tl]
  | .rebindStationComplete _ =>
    [.out, .intc, .mbx, .pcie, .fw, .tl]
  | .createVoice _ _ | .createMix _ _ | .routeVoice _ _ | .audioPortConfig _ _ =>
    [.fresh, .out, .staging, .intc, .mbx, .pcie, .fw, .cv]
  | .openChannel _ _ =>
    [.fresh, .out, .staging, .intc, .mbx, .pcie, .fw, .sl]
  | .createScript _ _ =>
    [.fresh, .out, .staging, .intc, .mbx, .pcie, .fw, .tp, .dh]
  | .scriptControl _ _ =>
    [.fresh, .out, .basin, .weir, .staging, .intc, .mbx, .pcie, .fw, .tp, .sl, .dh]
  | .setCycle _ _ =>
    [.fresh, .out, .staging, .intc, .mbx, .pcie, .fw, .tl, .cyc]
  | .setLoopPolicy _ _ =>
    [.fresh, .out, .basin, .islands, .staging, .intc, .mbx, .pcie, .fw, .tp, .tl]
  | .panelConfig _ _ =>
    [.fresh, .out, .basin, .staging, .intc, .mbx, .pcie, .fw, .gp, .pi, .tp]
  | .destroyObject _ _ =>
    [.fresh, .out, .basin, .weir, .staging, .intc, .mbx, .pcie, .fw, .tp, .tl, .cv, .sl, .dh]
  | .loadSamples _ _ =>
    [.fresh, .out, .basin, .staging, .intc, .mbx, .pcie, .fw, .cv]
  | .loadScript _ _ =>
    [.fresh, .out, .basin, .staging, .intc, .mbx, .pcie, .fw, .dh]
  | .loadDefaults _ _ | .forceOutput _ _ =>
    [.fresh, .out, .basin, .staging, .intc, .mbx, .pcie, .fw, .tl]
  | .diagRead _ _ | .rcFieldRead _ _ _ =>
    [.fresh, .out, .sys, .basin, .weir, .islands, .staging, .intc, .mbx, .win, .pcie, .fw, .pi,
     .tp, .tl, .cv, .sl]
  | .imageWrite _ _ _ _ _ =>
    [.fresh, .out, .flash, .flashBad, .sys, .basin, .staging, .intc, .mbx, .pcie, .fw]
  | .rollbackAdvance _ _ | .keyRevoke _ _ =>
    [.fresh, .out, .otp, .staging, .intc, .mbx, .pcie, .fw]
  | .resetCommand _ _ | .crossingTimeout _ _ | .stateParity _ | .pllUnlock _ | .marginLost _
  | .deadman _ | .jtagFence _ | .isControlFence _ _ | .repInstr _ _ _ _ | .reps _ _ _
  | .repI _ _ _ _ | .repsI _ _ _ | .ldB _ _ _ _ | .ldSb _ _ _ _ | .ld _ _ _ _ | .ldP _ _ _ _
  | .stB _ _ _ _ | .st _ _ _ _ | .stP _ _ _ _ | .inCell _ _ _ _ | .inPair _ _ _ _ | .outCell _ _ _ _
  | .outPair _ _ _ _ | .mvm _ _ _ _ _ _ | .inm _ _ _ _ _ _ | .outm _ _ _ _ _ _
  | .registerWrite _ _ _ _ =>
    [.fresh, .out, .sys, .basin, .weir, .islands, .rails, .staging, .intc, .mbx, .win, .pcie,
     .fw, .gp, .pi, .tp, .tl, .cyc, .cv, .sl, .dh]
  | .eventRecordDelivery | .tapSave =>
    [.out, .basin, .staging, .intc, .pcie, .fw]
  | .basinReadRequest _ _ _ =>
    [.fresh, .out, .sys, .basin, .staging, .intc, .fw]
  | .basinWriteRequest _ _ _ =>
    [.fresh, .out, .sys, .basin, .staging, .intc, .pcie, .fw]
  | .scrubRead _ =>
    [.basin, .staging, .intc, .fw]
  | .weirCas _ | .weirSwap _ =>
    [.fresh, .out, .sys, .weir, .intc]
  | .weirOperationDone _ =>
    [.out, .basin, .weir, .staging, .intc, .pcie, .fw]
  | .lockCellRead _ _ | .lockCellWrite _ _ =>
    [.fresh, .out, .sys, .basin, .weir, .staging, .intc, .pcie, .fw]
  | .reservationLapse _ | .waiterLapse _ _ =>
    [.weir, .intc]
  | .jtagFenceRelease _ =>
    [.out, .basin, .weir, .islands, .staging, .intc, .mbx, .pcie, .fw, .pi, .tp, .tl, .cv, .sl,
     .dh]
  | .isControlReset _ _ =>
    [.fresh, .out, .sys, .basin, .weir, .islands, .intc, .mbx, .pcie, .fw, .gp, .pi, .tp, .tl,
     .cv, .sl, .dh]
  | .islandResetDone _ =>
    [.out, .basin, .islands, .staging, .intc, .pcie, .fw, .gp, .tp, .tl, .sl, .dh]
  | .isControlRelease _ _ =>
    [.fresh, .out, .sys, .basin, .weir, .islands, .staging, .intc, .mbx, .pcie, .fw, .pi, .tp,
     .tl, .cv, .sl, .dh]
  | .droopDetected _ _ | .stretchEnd _ =>
    [.islands]
  | .stretchLong _ =>
    [.tick, .staging, .intc, .fw]
  | .voltageLoopStep _ _ _ _ =>
    [.out, .islands, .rails, .staging, .intc, .fw, .pi]
  | .frequencyLoopStep _ _ _ =>
    [.islands, .staging, .intc, .fw]
  | .tempHigh _ _ =>
    [.out, .pins, .islands, .staging, .intc, .fw]
  | .thermN _ _ =>
    [.out, .pins, .islands]
  | .dropoutThresholdLower _ | .eyeMeasure _ _ =>
    [.staging, .intc, .fw, .tl]
  | .rasterWrite _ _ _ _ | .tpScRedraw _ _ | .tpScFlip _ _ | .tpStRefresh _ _ | .tpPnlRefresh _ =>
    [.fresh, .out, .sys, .tp]
  | .lineRender _ | .blitPoll =>
    [.basin, .staging, .intc, .fw, .tp]
  | .frameStart _ =>
    [.tick, .fw, .tp, .tl]
  | .lineCommit _ =>
    [.tick, .out, .basin, .staging, .intc, .pcie, .fw, .pi, .tp, .tl]
  | .sob _ =>
    [.tick, .out, .basin, .staging, .intc, .pcie, .fw, .tp, .tl]
  | .lineMatch _ _ =>
    [.tick, .staging, .intc, .fw, .tp]
  | .tpEvq _ =>
    [.fresh, .out, .sys, .intc, .tp]
  | .balancerStep _ _ | .pieceAckTimeout _ =>
    [.tp]
  | .tpBltKick _ _ =>
    [.fresh, .out, .sys, .basin, .staging, .intc, .fw, .tp]
  | .blitStart | .blitComplete =>
    [.out, .basin, .staging, .intc, .pcie, .fw, .tp]
  | .frameTransmit _ =>
    [.out, .basin, .staging, .intc, .pcie, .fw, .tp, .tl, .cv]
  | .panelInitWait | .teEdge | .teTimeout | .sqFrameEnd _ | .sqStallTimeout _ =>
    [.out, .basin, .staging, .intc, .fw, .pi, .tp]
  | .sampleTick =>
    [.tick, .fresh, .basin, .staging, .intc, .fw, .cv]
  | .blockBoundary =>
    [.tick, .cv]
  | .blockAvailable _ =>
    [.tick, .out, .tl, .cv]
  | .keyOn _ _ _ | .keyOff _ _ =>
    [.fresh, .out, .sys, .cv]
  | .moduleInserted _ | .moduleRead _ _ | .moduleRemoved _ | .rxLosChange _ _ | .txFault _
  | .blockLockGained _ | .blockLockLost _ | .hiBerWindow _ _ | .alignmentLoss _ | .txFaultCleared _
  =>
    [.out, .staging, .intc, .fw, .tl]
  | .txFaultPulse _ =>
    [.out]
  | .ddmPoll _ _ | .eqAdaptStep _ _ _ | .txPostTrial _ | .rxFrameDrop _ _ | .diagFrame _ _ _ =>
    [.tl]
  | .upstreamCycle _ _ _ _ =>
    [.fresh, .out, .staging, .intc, .fw, .tl]
  | .inFrame _ _ _ | .ackFrame _ _ _ =>
    [.out, .basin, .staging, .intc, .pcie, .fw, .tp, .tl]
  | .inputCut =>
    [.tick, .out, .basin, .staging, .intc, .pcie, .fw, .tp, .tl, .cyc]
  | .dhTimerMatch _ | .lkTimerMatch =>
    [.tick, .intc]
  | .dhHeart _ _ =>
    [.fresh, .out, .sys, .dh]
  | .sysTickLo _ =>
    [.out, .sys]
  | .interruptEntry _ | .storeError _ | .illegalEncoding _ _ | .nopInstr _ | .sync _ | .reti _
  | .wfi _ | .cli _ | .sti _ | .sysCall _ _ | .getf _ _ | .setf _ _ | .jr _ _ | .callr _ _
  | .adr _ _ _ | .movReg _ _ _ | .addReg _ _ _ | .adcReg _ _ _ | .subReg _ _ _ | .sbcReg _ _ _
  | .andReg _ _ _ | .orReg _ _ _ | .xorReg _ _ _ | .cmpReg _ _ _ | .tstReg _ _ _ | .movi _ _ _
  | .addi _ _ _ | .subi _ _ _ | .andi _ _ _ | .ori _ _ _ | .xori _ _ _ | .cmpi _ _ _ | .tsti _ _ _
  | .shl _ _ _ | .shr _ _ _ | .sar _ _ _ | .rol _ _ _ | .ror _ _ _ | .shlReg _ _ _ | .shrReg _ _ _
  | .sarReg _ _ _ | .rolReg _ _ _ | .rorReg _ _ _ | .negReg _ _ | .notReg _ _ | .sxb _ _ | .swpb _ _
  | .addq _ _ _ | .subq _ _ _ | .movp _ _ _ | .addp _ _ _ | .subp _ _ _ | .cmpp _ _ _ | .mulu _ _ _
  | .muls _ _ _ | .divu _ _ _ | .divs _ _ _ | .bmov _ _ _ | .bsub _ _ _ _ _ | .bbase _ _ _
  | .badd _ _ _ | .baddi _ _ _ | .bgetB _ _ _ | .bgetF _ _ _ | .bgetL _ _ _ | .bgetM _ _ _
  | .bset _ _ | .pmov _ _ _ | .pget _ _ _ | .padd _ _ _ | .pseti _ _ _ | .bCc _ _ _ | .bCcL _ _ _
  | .callRel _ _ | .dbnz _ _ _ | .yieldService _ | .waitService _ | .postService _ | .lockService _
  | .lockPoll _ | .unlockService _ | .sleepService _ | .exitTask _ =>
    [.out, .basin, .weir, .staging, .intc, .pcie, .fw, .tp, .sl, .dh]
  | .sleepExpiry _ | .budgetExpiry _ =>
    [.tick, .out, .basin, .weir, .staging, .intc, .pcie, .fw, .tp, .sl, .dh]
  | .icClaim _ =>
    [.out, .intc]
  | .icComplete _ _ | .icRaise _ _ | .discardCount _ _ _ _ =>
    [.intc]
  | .icParityError _ _ _ =>
    [.fresh, .staging, .intc, .fw]
  | .slDoorbell _ _ =>
    [.fresh, .out, .sys, .basin, .staging, .intc, .fw, .sl]
  | .slAbort _ _ =>
    [.fresh, .out, .sys, .staging, .intc, .fw, .sl]
  | .slClear _ _ =>
    [.fresh, .out, .sys, .sl]
  | .slAppend _ _ _ =>
    [.fresh, .out, .sys, .basin, .staging, .intc, .pcie, .fw, .sl]
  | .slSubmitPoll | .slDescriptorFetch _ =>
    [.out, .basin, .staging, .intc, .pcie, .fw, .sl]
  | .slBurstIssue =>
    [.out, .sl]
  | .slBurstComplete _ _ _ | .slChannelStopped _ =>
    [.fresh, .out, .basin, .staging, .intc, .pcie, .fw, .sl]
  | .slTailRecheck _ =>
    [.basin, .staging, .intc, .fw, .sl]
  | .sqGo _ _ _ | .i2cGo _ _ _ _ | .voltageWrite _ _ _ | .voltageRead _ _ | .statusRead _ _ =>
    [.fresh, .out, .sys, .intc, .pi]
  | .sqTxdata _ _ _ | .sqRxdata _ _ =>
    [.fresh, .out, .sys, .pi]
  | .earlyRelease _ _ _ _ =>
    [.out, .intc, .pi]
  | .gpOut _ _ _ | .gpOutSet _ _ _ | .gpOutClr _ _ _ | .gpOutTgl _ _ _ | .gpOutMwl _ _ _
  | .gpOutMwh _ _ _ | .gpDir _ _ _ | .gpDirMwl _ _ _ | .gpDirMwh _ _ _ =>
    [.fresh, .out, .sys, .gp]
  | .gpioPadChange _ _ =>
    [.gp]
  | .gpioFilteredChange _ =>
    [.intc, .gp]
  | .i2cDone _ _ | .i2cStretchTimeout =>
    [.intc, .pi]
  | .avsDone _ _ _ _ =>
    [.rails, .staging, .intc, .fw, .pi]
  | .perstRelease =>
    [.out, .pins, .intc, .pcie]

/-! ### What a command message does -/

/-- A command message is taken in state `s`, is neither a repeat of a kept result nor turned away
by its mode, and is executed in state `u` (R34, R51, R54, R157, R158, R163, R165). -/
structure Executes (s : State) (c : Cmd) (cls : Cls) (rec : Bool) (u : State) : Prop where
  fits : c.words.length ≤ 7
  taken : takes s c.mb (c.header :: c.words) = true
  state : u = causes (takeMsg s c.mb (c.header :: c.words)) c.mb
  fresh : duplicateOf u c = none
  mode : accepted u cls rec = true

/-- A command answers a next state: the reply, with its status and payload, from state `t`, after which
the records it has caused may be delivered (R34, R155, R156, R166). -/
def Replies (i : Instr) (s t : State) (c : Cmd) (st : Nat) (w : List Word) : Prop :=
  exec i s = .next (caused (reply t c.mb c.header c.crc st w))

/-! ### What an instruction of a Ceing core does -/

/-- A core may execute an instruction of `len` cells: its island runs, it is not halted, it has
something to run, no `wfi` holds it, and every cell may be fetched (R553, R608). -/
def CoreReady (s : State) (n : Fin 8) (len : Nat) : Prop :=
  coreBegins s n = true ∧ fetchBad (coreOf s n) len = false

/-- Nothing but core `n` differs between two states. -/
def OnlyCore (s t : State) (n : Nat) : Prop :=
  (∀ m, m ≠ n → coreOf t m = coreOf s m) ∧ { t with dh := { t.dh with cores := s.dh.cores } } = s

/-- A command answers a next state in which core `n` is `c`, and nothing else has changed. -/
def CoreGets (i : Instr) (s : State) (n : Nat) (c : Core) : Prop :=
  ∃ t, exec i s = .next t ∧ coreOf t n = c ∧ OnlyCore s t n

/-- A core past an instruction of `len` cells (R600), with no `wfi` in progress. -/
def Core.past (c : Core) (len : Nat) : Core :=
  { c with pc := c.pc + BitVec.ofNat 16 len, waiting := false }

/-- The flags Z and N that a result gives, with C and V as stated (R604). -/
def Core.flagged {w : Nat} (c : Core) (r : BitVec w) (cy ov : Bool) : Core :=
  { c with z := decide (r = 0), n := r.msb, c := cy, v := ov }

/-- A register and the flags of what is written to it. -/
def Core.result (c : Core) (rd : Fin 16) (r : Cell) (cy ov : Bool) : Core :=
  { c.flagged r cy ov with d := c.d.set rd r }

/-- A pair and the flags of what is written to it (R551). -/
def Core.resultPair (c : Core) (k : Fin 8) (r : Word) (cy ov : Bool) : Core :=
  { c.flagged r cy ov with
      d := (c.d.set (lowReg k) (r.setWidth 16)).set (highReg k) (r.extractLsb' 16 16) }

end Sys2Proof.Machine
end

