-- ==== Sys2Proof/Certificates/Slice0/Obligations.lean ====
section
/-! DEFINITION. The statements for the provers. -/

open Sys2Proof Sys2Proof.Machine

/-! ### The queue and the step -/

/-- A step takes the command at the front of the queue and has its effect on the state with the
queue's rest. The queue is the model's (log entry 50). -/
def Obligations.StepTakesTheFrontCommand : Prop :=
  ∀ (c : Instr) (q : List Instr) (s : State),
    step (s.withPending (c :: q)) = exec c (s.withPending q)


/-- On an empty queue the block idles, and one tick goes by (the model's choice, log entry 50). -/
def Obligations.AnEmptyQueueLetsOneTickGoBy : Prop :=
  ∀ s : State, s.pending = [] → step s = .next { s with tick := s.tick + 1 }

/-- A command is refused exactly where its operands are none that its row can carry. Which operands
those are is log entry 52. -/
def Obligations.OnlyIllFormedCommandsAreRefused : Prop :=
  ∀ (i : Instr) (s : State),
    (i.wf = false → exec i s = .refused .illFormed) ∧ (i.wf = true → ∃ t, exec i s = .next t)

/-- What every command leaves alone: the queue, what has left the device, and every part of the
state that `partsOf` does not list for it. The queue and the trace of what has left the device are
the model's (log entries 2 and 50). -/
def Obligations.EveryCommandChangesOnlyItsParts : Prop :=
  ∀ (i : Instr) (s t : State), exec i s = .next t → Follows (partsOf i) s t

/-- Basin's bytes keep their canonical form over every step, from any state. The form, and that an
unlisted byte reads as 0, are the model's (log entry 51). -/
def Obligations.EveryStepKeepsBasinCanonical : Prop :=
  ∀ s t : State, s.memOk → step s = .next t → t.memOk

/-- One-time-programmable storage only takes on bits, over every step from any state. -/
def Obligations.EveryStepOnlyAddsToTheOtp : Prop :=
  ∀ s t : State, step s = .next t → s.otp.Grows t.otp

/-- The state after reset has Basin in canonical form. The form is the model's (log entry 51). -/
def Obligations.ResetHasBasinCanonical : Prop := State.reset.memOk


/-! ### Reset, boot and watchdogs (chapter 02) -/

/-- R76, R77, R92, R762, R766: a device-level reset brings every register to its reset value. What
stands outside the device, the OTP and the flash are kept, and so are SYS_RESET_CAUSE and
SYS_BOOT_RETAIN, but for a power-on reset, during which a low RST_N only holds it. Kept with them, as
the model reads R28, is SYS_TICK (log entry 38). -/
def Obligations.DeviceLevelResetsClearTheDevice : Prop :=
  ∀ s : State,
    let cleared (i : Instr) (powerOn : Bool) (tick : Dword) (sys : Sys) : Prop :=
      ∃ t, exec i s = .next t ∧
        t = { State.reset with
          pending := s.pending, tick := tick, out := t.out, otp := s.otp, flash := s.flash,
          flashBad := s.flashBad, fresh := s.fresh, sys := sys, tl := t.tl,
          pins := { s.pins with thermN := powerOn || s.pins.thermN },
          gp := { pad := s.gp.pad } } ∧
        { t.tl with lanes := [] } = {} ∧
        (∀ l : Fin 8, laneOf t l =
          { present := (laneOf s l).present, los := (laneOf s l).los, faultIn := (laneOf s l).faultIn }) ∧
        s.out <+: t.out ∧
        ∀ l : Fin 8, (laneOf s l).txDis = false → Out.txDis l true ∈ t.out.drop s.out.length
    let kept (bit : Nat) : Sys :=
      { powerOn := s.sys.powerOn, resetCause := setBit s.sys.resetCause bit true,
        triedA := s.sys.triedA, triedB := s.sys.triedB }
    cleared .powerOnReset true 0 {} ∧ cleared .systemReferenceLoss true 0 {} ∧
    cleared .jtagSysreset false s.tick (kept 3) ∧
    (s.sys.powerOn = false → cleared .rstNReset false s.tick (kept 1)) ∧
    (s.sys.powerOn = true → exec .rstNReset s = .next s)

/-- R70, R123 to R127, R653, R800: the resets of the debug and host agents free their locks, empty
the queues that the agent alone receives, and end its open messages; PERST# also returns the
endpoint to its reset values, and its release hands over the vectors that were held. Replies that
were kept for want of room may then fill a queue that the reset emptied (R156). ABORT is set for a
queue that was empty too, as the model reads R124 (log entry 39). -/
def Obligations.AgentResetsEndWhatTheAgentHeld : Prop :=
  ∀ (m : Fin 24) (sideB : Bool) (s : State),
    let ended (a : Nat) (t : State) : Prop :=
      let x := mbxOf s m
      let y := mbxOf t m
      (if x.lock.toNat = a then y.lock = 0 ∧
        (sideOf y false).status.getLsbD 7 = true ∧ (sideOf y true).status.getLsbD 7 = true
       else y.lock = x.lock) ∧
      (onlyAgent m (!sideB) = some a → (sideOf y sideB).status.getLsbD 2 = true ∧
        (takeReply s.fw.replies m = none →
          (txQueue y sideB).words = [] ∧ (txQueue y sideB).opened = [])) ∧
      (onlyAgent m (!sideB) ≠ some a → (txQueue x sideB).words <+: (txQueue y sideB).words ∧
        (takeReply s.fw.replies m = none → (txQueue y sideB).words = (txQueue x sideB).words)) ∧
      (txQueue y sideB).openStamp ≠ some (BitVec.ofNat 4 a) ∧
      (txQueue y sideB).discard.getLsbD a = false
    (∃ t, exec .tapReset s = .next t ∧ ended 15 t) ∧
    (∃ t, exec .perst s = .next t ∧ ended 1 t ∧ t.pins.perst = false ∧
      t.pcie = {} ∧ t.sys = { s.sys with resetCause := setBit s.sys.resetCause 6 true }) ∧
    (∃ t, exec .perstRelease s = .next t ∧ t.pins = { s.pins with perst := true } ∧
      (running s islHI = false → t = { s with pins := t.pins }) ∧
      (running s islHI = true → t.intc = { s.intc with vecHeld := 0 } ∧
        (s.pcie.busMaster = false → t.out = s.out ∧
          t.pcie = { s.pcie with pba := s.pcie.pba ||| s.intc.vecHeld })))

/-- R78 to R85, R87: the boot ROM halts where Basin fails, enters RECOVER by the strap or where no slot
starts, and else starts the first slot, in the order of R81, that is neither tried nor fails its
verification, from the copy of its payload in Basin, which the model places at its first byte (log
entry 53). No slot starts whose copy meets an uncorrectable error. R55, R60, R83: the firmware reaches COMMISSION from a started slot, clears that slot's
TRIED bit alone, and posts BOOT_FALLBACK where the other slot's is set. -/
def Obligations.TheBootRomStartsAnImageThatReachesCommission : Prop :=
  (∀ (basinOk strapLow : Bool) (sfdp : Sfdp) (readA readB : SlotReads) (s : State),
    let run := exec (.resetRelease basinOk strapLow sfdp readA readB) s
    let rd (k : Nat) : SlotReads := if k = 1 then readA else readB
    let image (k : Nat) : ImageBytes := flashBytes s (slotBase k)
    let first : Nat := if readA.header && readB.header && decide
      (imgSequence (image 1) < imgSequence (image 2)) then 2 else 1
    let code (k : Nat) : Nat := if (rd k).header && (rd k).payload then
      (match Tab.find? s.flashBad k with
        | some c => c
        | none => verifyWhole s true (image k)) else 7
    let bad (k : Nat) : Bool := tried s k || decide (code k ≠ 0)
    let slot : Option Nat := if !bad first then some first else if !bad (3 - first) then some (3 - first)
      else none
    let recover (t : State) (cause : BitVec 4) : Prop :=
      t.sys.mode = 1 ∧ t.sys.prevMode = 0 ∧ t.sys.cause = cause ∧ t.sys.stage = 7 ∧
      (∀ p : Nat, p < 1024 → t.win.guards.get 0 p = if p < 16 then 3 else 0) ∧
      t.staging.map (fun r => (r.type, r.payload)) = [(3, pack [(4, 1), (8, cause.toNat)])]
    (s.sys.inReset = false → run = .next s) ∧
    (s.sys.inReset = true → ∃ t, run = .next t ∧ t.sys.inReset = false ∧
      t.sys.resetCause = s.sys.resetCause ∧ t.fw.gens = [] ∧
      (basinOk = false ∨ strapLow = true → t.basin = {}) ∧
      (basinOk = false → t.sys.halted = true ∧ t.sys.basinFail = true ∧ t.sys.mode = 0 ∧ t.sys.stage = 2) ∧
      (basinOk = true → strapLow = true → t.sys.strap = true ∧ recover t 6) ∧
      (basinOk = true → strapLow = false →
        t.sys.sfdpOk = sfdp.ok ∧ (t.sys.mode = 0 ∨ t.sys.mode = 1 ∧ t.sys.cause = 5) ∧
        (∀ (k : Nat) (d : Fin 65536), t.sys.stage = 6 → t.sys.slot = BitVec.ofNat 2 k →
          (k = 1 ∨ k = 2) → Tab.find? s.flashBad k = none → (rd k).hit = some d →
          imgLength (image k) ≤ 8 * d.val) ∧
        (readA.hit = none → readB.hit = none → match slot with
          | none => recover t 5 ∧ (∀ k : Nat, k = 1 ∨ k = 2 → (if k = 1 then t.sys.failA else t.sys.failB) =
              BitVec.ofNat 4 (if tried s k then 9 else code k))
          | some k => t.sys.slot = BitVec.ofNat 2 k ∧ t.sys.stage = 6 ∧ t.sys.mode = 0 ∧
              tried t k = true ∧ tried t (3 - k) = tried s (3 - k) ∧
              t.sys.wdtArmed = true ∧ t.sys.wdtStart = s.tick ∧
              (Tab.find? s.flashBad k = none → ∀ i < imgLength (image k), Memory.byte t.basin.bytes i =
                Tab.get 0xFF s.flash (slotBase k + 0x100 + i)))))) ∧
  (∀ s : State,
    let k := s.sys.slot.toNat
    let go := !s.sys.inReset && !s.sys.commissioned && decide (s.sys.stage = 6) && running s islLK
    (go = false → exec .firmwareCommissionReached s = .next s) ∧
    (go = true → ∃ t, exec .firmwareCommissionReached s = .next t ∧
      t.basin = s.basin ∧ t.sys = { s.sys with
        commissioned := true, mode := 2, prevMode := s.sys.mode, cause := 0,
        changeCount := s.sys.changeCount + 1, triedA := decide (k ≠ 1) && s.sys.triedA,
        triedB := decide (k = 1) && s.sys.triedB } ∧
      (∀ r : Fin 2, railOf t r = { railOf s r with loopRun := true }) ∧
      (k = 1 ∨ k = 2 → s.staging = [] → t.staging.map (fun r => r.type) =
        if (if k = 1 then s.sys.triedB else s.sys.triedA) then [3, 4] else [3])))

/-- R71 to R73, R250, R254, R281, R791: the Lockkeeper watchdog, its start, and how a warm restart
ends: the image is copied to Basin and verified there again. How a warm restart that cannot resume is
recorded, and the state shown meanwhile, are the model's reading (log entry 38). -/
def Obligations.TheLockkeeperWatchdogRestartsTheLockkeeper : Prop :=
  ∀ (a : Agent) (reads : SlotReads) (modeOk : Bool) (s : State),
    let late := atTick s (s.sys.wdtStart.toNat + 50000000)
    let lk := isl s 0
    let past := s.sys.restarts.filter (fun x => decide (ticksSince late x ≤ minute))
    let copy := bootVerify s s.sys.slot.toNat reads
    (fwAgent a = true → running s 0 = true →
      (s.sys.wdtArmed = true →
        exec (.lkWdtKick a) s = .next { s with sys := { s.sys with wdtStart := s.tick } }) ∧
      (s.sys.wdtArmed = false → exec (.lkWdtKick a) s = .next s)) ∧
    (s.sys.wdtArmed = true → running s 0 = true →
      ∃ t, exec .lkWatchdogExpiry s = .next t ∧ t.tick = late.tick ∧
        (s.sys.commissioned = false ∨ 2 ≤ past.length →
          t.sys = { powerOn := s.sys.powerOn, resetCause := setBit s.sys.resetCause 4 true,
                    triedA := s.sys.triedA, triedB := s.sys.triedB } ∧ t.basin = {}) ∧
        (s.sys.commissioned = true → past.length < 2 →
          t.sys.restarts = late.tick :: past ∧ t.sys.mode = s.sys.mode ∧ t.sys.resetCause = setBit s.sys.resetCause 5 true ∧
          t.sys.wdtArmed = false ∧ (isl t 0).state = .restoring ∧ (isl t 0).cause = 8 ∧
          t.fw.recordedMode = s.sys.mode ∧ t.fw.replies = [] ∧ t.basin.bytes = s.basin.bytes)) ∧
    (lk.state = .restoring → ∃ t, exec (.warmRestartResume reads modeOk) s = .next t ∧
      (modeOk = true → copy.2.1 = 0 →
        running t 0 = true ∧ (isl t 0).epoch = lk.epoch + 1 ∧ t.sys.mode = s.sys.mode ∧
        t.sys.wdtArmed = true ∧ t.sys.wdtStart = s.tick) ∧
      (modeOk = false ∨ copy.2.1 ≠ 0 →
        t.sys.inReset = true ∧ t.sys.mode = 0 ∧ t.basin = {} ∧
        t.sys.resetCause = setBit s.sys.resetCause (if lk.cause = 8 then 4 else 7) true))

/-! ### Mailboxes, the host window and the endpoint (chapter 03) -/

/-- R98 to R103, R105, R118 to R121: what a word written to a transmit register does to its queue
and to the status of the two sides. A word of debug on the firmware's side may let replies follow
that were kept for want of room (R156). That a clash of stamps in a full queue is no overflow is the
model's choice (log entry 54). R103: a write that covers several aliases enqueues its words in
ascending address order, each as a word written to MB_TX_DATA. -/
def Obligations.WrittenWordsEnterTheirQueueOrAreLost : Prop :=
  (∀ (a : Agent) (m : Fin 24) (b eom aligned : Bool) (v : Word) (s : State),
    let i : Instr := if eom then .mbTxDoorbell a m b aligned v else .mbTxData a m b aligned v
    let x := mbxOf s m
    let q := txQueue x b
    let stamp : BitVec 4 := BitVec.ofNat 4 a
    let lost (q : Queue) : Queue := if eom then q else { q with discard := setBit q.discard a true }
    let word : QWord := { data := v, stamp := stamp, eom := eom }
    let full := decide (8 ≤ q.words.length + q.opened.length)
    let gives (r : Queue) (flag : Option (Bool × Nat)) : Prop :=
      ∃ t, exec i s = .next t ∧ r.words <+: (txQueue (mbxOf t m) b).words ∧
        txQueue (mbxOf t m) (!b) = txQueue x (!b) ∧ (mbxOf t m).lock = x.lock ∧
        (∀ k, k ≠ m.val → mbxOf t k = mbxOf s k) ∧
        (∀ f n, flag = some (f, n) → (sideOf (mbxOf t m) f).status.getLsbD n = true) ∧
        (b = false ∨ takeReply s.fw.replies m = none → txQueue (mbxOf t m) b = r ∧
          ∀ side, sideOf (mbxOf t m) side = { sideOf x side with
            status := match flag with
              | some (f, n) => if f = side then setBit (sideOf x side).status n true
                               else (sideOf x side).status
              | none => (sideOf x side).status })
    (agentOut s a = false ∨ hostMisses s a m b = true → exec i s = .next s) ∧
    (agentOut s a = true → hostMisses s a m b = false →
      (aligned = false ∨ sideAllows m b a = false → gives q (some (b, 6))) ∧
      (aligned = true → sideAllows m b a = true →
        (q.discard.getLsbD a = true →
          gives (if eom then { q with discard := setBit q.discard a false } else q) none) ∧
        (q.discard.getLsbD a = false →
          (q.openStamp ≠ none → q.openStamp ≠ some stamp → gives (lost q) (some (b, 4))) ∧
          (q.openStamp = none ∨ q.openStamp = some stamp →
            (full = true → gives (lost { q with opened := [] }) (some (b, 3))) ∧
            (full = false →
              (eom = true → gives { q with words := q.words ++ q.opened ++ [word], opened := [] }
                (some (!b, 0))) ∧
              (eom = false → gives { q with opened := q.opened ++ [word] } none))))))) ∧
  (∀ (a : Agent) (m : Fin 24) (b : Bool) (first next : Fin 8) (v : Word) (r : List Word) (s : State),
    exec (.mbTxDataAlias a m b first [v]) s = exec (.mbTxData a m b true v) s ∧
    (r ≠ [] → next.val = first.val + 1 → first.val + 1 + r.length ≤ 8 →
      ∃ t, exec (.mbTxData a m b true v) s = .next t ∧
        exec (.mbTxDataAlias a m b first (v :: r)) s = exec (.mbTxDataAlias a m b next r) t ∧
        ∃ u, exec (.mbTxDataAlias a m b first (v :: r)) s = .next u))

/-- R106, R107, R110, R112, R113, R799: a read of MB_RX_DATA, of MB_LOCK, and writes to MB_LOCK and
MB_IRQ_EN, by an agent that may make them; an agent whose island does not run makes none (R247). -/
def Obligations.MailboxReadsAndLocksAnswer : Prop :=
  ∀ (a : Agent) (m : Fin 24) (b : Bool) (v : Word) (s : State),
    let x := mbxOf s m
    let q := txQueue x (!b)
    (agentOut s a = false →
      exec (.mbRxData a m b true) s = .next s ∧ exec (.mbIrqEnWrite a m b true v) s = .next s ∧
      exec (.mbLockRead a m true) s = .next s ∧ exec (.mbLockWrite a m true) s = .next s) ∧
    (agentOut s a = true → hostMisses s a m b = false → sideAllows m b a = true →
      (q.words = [] → ∃ t, exec (.mbRxData a m b true) s = .next t ∧
        t.out.getLast? = some (.word a 0) ∧ txQueue (mbxOf t m) (!b) = q ∧
        (sideOf (mbxOf t m) b).metaValid = false ∧
        (sideOf (mbxOf t m) b).status = setBit (sideOf x b).status 5 true) ∧
      (∀ (w : QWord) (r : List QWord), q.words = w :: r →
        ∃ t, exec (.mbRxData a m b true) s = .next t ∧
          t.out.getLast? = some (.word a w.data) ∧ r <+: (txQueue (mbxOf t m) (!b)).words ∧
          (takeReply s.fw.replies m = none → txQueue (mbxOf t m) (!b) = { q with words := r }) ∧
          (sideOf (mbxOf t m) b).metaStamp = w.stamp ∧ (sideOf (mbxOf t m) b).metaEom = w.eom ∧
          (sideOf (mbxOf t m) b).metaValid = true ∧
          (r = [] → q.opened = [] → (sideOf (mbxOf t m) (!b)).status.getLsbD 1 = true)) ∧
      (∃ t, exec (.mbIrqEnWrite a m b true v) s = .next t ∧
        sideOf (mbxOf t m) b = { sideOf x b with enable := v.setWidth 8 } ∧
        sideOf (mbxOf t m) (!b) = sideOf x (!b) ∧ (mbxOf t m).ab = x.ab ∧ (mbxOf t m).ba = x.ba ∧
        (∀ k, k ≠ m.val → mbxOf t k = mbxOf s k))) ∧
    (agentOut s a = true → hostMisses s a m false = false → lockAllows m a = true →
      (x.lock = 0 → exec (.mbLockRead a m true) s = .next (emit
        (updMbx s m (fun y => { y with lock := BitVec.ofNat 4 a })) (.word a 0))) ∧
      (x.lock ≠ 0 → exec (.mbLockRead a m true) s =
        .next (emit s (.word a (x.lock.setWidth 32)))) ∧
      (x.lock.toNat = a.val ∨ a.val = 15 → exec (.mbLockWrite a m true) s =
        .next (updMbx s m (fun y => { y with lock := 0 }))) ∧
      (x.lock.toNat ≠ a.val → a.val ≠ 15 → exec (.mbLockWrite a m true) s = .next s))

/-- R130, R131, R133 to R135, R137, R152: what the guards and the state of the banks let the host do
in Basin. A window error is counted and recorded once. The address of an error is that of the
request, as the model reads R152 (log entry 39). -/
def Obligations.TheHostWindowAnswersByItsGuards : Prop :=
  ∀ (addr : BasinAddr) (n : Nat) (d : List Byte) (bar0 : Bool) (s u : State),
    let guard := s.win.guards.get 0 (addr.val / 65536)
    let error (s : State) (bit : Nat) (bar0 : Bool) : State :=
      postRec { s with win := { s.win with
        status := setBit s.win.status bit true, count := satAdd s.win.count 1,
        errAddr := if s.win.status = 0 then BitVec.ofNat 26 addr else s.win.errAddr,
        errBar0 := if s.win.status = 0 then bar0 else s.win.errBar0,
        errValid := if s.win.status = 0 then true else s.win.errValid } }
        14 0x07 (w32 (b2n bar0)) (pack [(0, addr.val), (26, 2 ^ bit)]) 0
    1 ≤ n → addr.val % 4096 + n ≤ 4096 → 1 ≤ d.length → d.length ≤ 256 →
      addr.val % 4096 + d.length ≤ 4096 →
      (hostReach s = false → exec (.hostBar2Read addr n) s = .next s ∧
        exec (.hostBar2Write addr d false false) s = .next s) ∧
      (hostReach s = true →
        (guard.getLsbD 0 = false → exec (.hostBar2Read addr n) s =
          .next (emit (error s 0 false) (.bytes 1 (List.replicate n 0)))) ∧
        (∀ b, guard.getLsbD 0 = true → readMem s 1 addr n = (u, .ok b) →
          exec (.hostBar2Read addr n) s = .next (emit u (.bytes 1 b))) ∧
        (∀ e, guard.getLsbD 0 = true → readMem s 1 addr n = (u, .error e) →
          ∃ t, exec (.hostBar2Read addr n) s = .next t ∧ t.out = u.out ++ [.ep n] ∧
            t.basin = u.basin) ∧
        exec (.hostBar2Write addr d true bar0) s =
          .next (emit (error { s with pcie := { s.pcie with aerPoison := true } } 5 bar0) .aer) ∧
        (guard.getLsbD 1 = false →
          exec (.hostBar2Write addr d false false) s = .next (error s 1 false)) ∧
        (guard.getLsbD 1 = true → writeMem s 1 addr d = (u, none) →
          exec (.hostBar2Write addr d false false) s = .next u))

/-- R139, R142, R143, R801: configuration writes, the MSI-X table and what either lets go. -/
def Obligations.EndpointWritesTakeEffectAndFreeVectors : Prop :=
  ∀ (on mask : Bool) (base : Dword) (setting : BitVec 4) (v : Fin 64) (k : Fin 16) (x : Byte)
    (s : State),
    let flushed (i : Instr) (p : Pcie) : Prop :=
      ∃ t, exec i s = .next t ∧ { t.pcie with pba := s.pcie.pba } = p ∧
        t = { s with pcie := t.pcie, out := t.out } ∧
        ∀ n : Fin 64, t.pcie.pba.getLsbD n = (s.pcie.pba.getLsbD n && !msixOpen t n) ∧
          (s.pcie.pba.getLsbD n = true → msixOpen t n = true →
            Out.msix n (t.pcie.table.get {} n).addr (t.pcie.table.get {} n).data ∈ t.out)
    let entry := s.pcie.table.get {} v
    let bytes := (leBytes 8 entry.addr.toNat ++ leBytes 4 entry.data.toNat ++
      leBytes 4 entry.ctrl.toNat).set k x
    (cfgReach s = true →
      flushed (.pcieConfigWrite (.command on)) { s.pcie with busMaster := on } ∧
      flushed (.pcieConfigWrite (.msixControl on mask))
        { s.pcie with msixEnable := on, funcMask := mask } ∧
      flushed (.pcieConfigWrite (.power on)) { s.pcie with d3hot := on } ∧
      flushed (.pcieConfigWrite (.bar0 base)) { s.pcie with bar0 := base } ∧
      flushed (.pcieConfigWrite (.bar2 base)) { s.pcie with bar2 := base } ∧
      flushed (.pcieConfigWrite (.completionTimeout setting)) { s.pcie with cplTimeout := setting } ∧
      flushed (.pcieConfigWrite .aerClear) { s.pcie with aerPoison := false }) ∧
    (hostReach s = true → ∀ o : Fin 1024, o.val = 16 * v.val + k.val →
      flushed (.msixTableWrite o [some x]) { s.pcie with
        table := s.pcie.table.set {} v {
          addr := BitVec.ofNat 64 (leNat (bytes.take 8)), data := leWord (bytes.drop 8),
          ctrl := leWord (bytes.drop 12) &&& 1 } } ∧
      flushed (.msixTableWrite o [none]) s.pcie)

/-- R34, R176, R178, R180, R803: the delivery of the oldest staged record: into the device mooring's ring
and past its PROD, with a message for a host that had consumed everything; or held where no device
mooring exists. Nothing moves while the firmware does not run, and a record waits until the reply of
the command that caused it is written. -/
def Obligations.ARecordIsDeliveredIntoItsMooring : Prop :=
  ∀ (r : Rec) (l : List Rec) (i : Nat) (m : Moor) (prod cons dropped e : Word) (s u v w : State),
    s.staging = r :: l → r.marker = false →
      (r.held s = true → l = [] → exec .eventRecordDelivery s = .next s) ∧ (r.held s = false →
      (fwRuns s = false → exec .eventRecordDelivery s = .next s) ∧
      (fwRuns s = true → r.moor = 0 → s.fw.deviceMoor = none →
        (s.fw.held.filter (fun x => !x.marker)).length < 64 →
        exec .eventRecordDelivery s = .next (stagingLevel { s with
          fw := { s.fw with held := s.fw.held ++ [r] }, staging := l })) ∧
      (fwRuns s = true → moorIndex s r.moor = some i → s.fw.moorings.find? i = some m →
        m.kept = 0 → m.since = 0 → readCb s m = (u, some (prod, cons, dropped, e)) →
        (prod - cons).toNat < m.size → writeMem u 2 (m.ring + prod.toNat % m.size * 16) r.bytes = (v, none) →
        w = (writeMem v 2 m.cb (leBytes 4 (prod + 1).toNat)).1 →
        let told := if m.kind = 0 ∧ m.consumer = 1 ∧ m.signal ≠ 0 ∧ prod = cons then
          vectorReq w m.signal else w
        exec .eventRecordDelivery s = .next (stagingLevel { told with
          staging := l ++ told.staging.drop (l.length + 1) })))

/-! ### The Lockkeeper command set (chapter 04) -/

/-- R51, R155, R156, R163, R165, R166: how a command is answered. The reply enters queue BA of its
mailbox with the firmware's stamp, its last word with EOM; the result is kept unless the class is Q
or the status BUSY. A repeat is answered by the kept result, a class S command outside SERVICE by
WRONG_MODE, an opcode that the catalogue does not have by BAD_ARG, and a command during which the
firmware faults by INTERNAL, behind an INTERNAL record (R186). How a message is taken from its queue,
and that a fault replaces only the reply OK, are the model's reading (log entry 44). -/
def Obligations.CommandsAreAnsweredAndKept : Prop :=
  ∀ (mb : Fin 8) (tag : BitVec 8) (header : Word) (words : List Word) (k : Kept) (st : Nat)
    (w : List Word) (s u : State),
    let nop := cmdOf 4 mb ⟨tag, 0, words, true⟩
    let c := cmdOf 0x40 mb ⟨tag, 0, words, false⟩
    let stamped (l : List Word) : List QWord :=
      l.zipIdx.map (fun p => { data := p.1, stamp := 2, eom := decide (p.2 + 1 = l.length) })
    (replyFits s mb (1 + w.length) = true → takeReply s.fw.replies mb = none →
      let t := reply s mb header (payloadCrc words) st w
      (mbxOf t mb).ba.words = (mbxOf s mb).ba.words ++
        stamped (pack [(0, st), (6, st), (12, w.length), (16, fld header 16 8),
          (24, fld header 24 7 + 0x80)] :: w) ∧
      (sideOf (mbxOf t mb) false).status.getLsbD 0 = true ∧
      (if fld header 24 8 ≤ 4 ∨ st = 0x15 then t.fw.windows = s.fw.windows
       else ∃ r, (windowOf t mb).getLast? = some r ∧ r.header = header ∧ r.crc = payloadCrc words)) ∧
    (words.length ≤ 7 → takes s mb (c.header :: words) = true → u = takeMsg s mb (c.header :: words) →
      (duplicateOf u c = some k → exec (.forceOutput mb ⟨tag, 0, words, false⟩) s =
        .next (replyDuplicate u c k)) ∧
      (duplicateOf u c = none → u.sys.mode ≠ 6 → exec (.forceOutput mb ⟨tag, 0, words, false⟩) s =
        .next (reply u mb c.header c.crc 0x14 []))) ∧
    (malformed header words = true → takes s mb (header :: words) = true → u = takeMsg s mb (header :: words) →
      exec (.undefinedOpcode mb header words) s = .next (sendReply u mb (replyWords header 0x13 []))) ∧
    (Executes s nop .q true u → Replies (.nopCommand mb ⟨tag, 0, words, true⟩) s
      (postRec (drawFree u).1 0 0x0B 0 ((drawFree u).2.truncate 32) 0) nop 0x3F [])

/-- R55, R62, R65, R158, R189 to R192, R507, R548, R806: the commands of classes Q and M, and
SET_CYCLE. How a command is taken, and SET_MODE to the present mode, are the model's reading (log
entry 44), as is the boundary of a new period (log entry 5). -/
def Obligations.QueryAndMachineCommandsAnswer : Prop :=
  ∀ (mb : Fin 8) (tag : BitVec 8) (clear : Bool) (x : Word) (any : List Word) (s u : State),
    let c (op : Nat) (w : List Word) : Cmd := cmdOf op mb ⟨tag, 0, w, false⟩
    let flags : BitVec 12 := if clear then 1 else 0
    let ident := cmdOf 1 mb ⟨tag, flags, [], false⟩
    (Executes s ident .q true u → Replies (.identify mb ⟨tag, flags, [], false⟩) s
      (if clear then { u with fw := { u.fw with windows := Tab.erase u.fw.windows mb } } else u) ident 0
      [if inRecover u then 0 else u.fw.version, 0x00B12160,
       pack [(0, u.sys.mode.toNat), (4, u.sys.slot.toNat), (8, b2n (inRecover u))]]) ∧
    (Executes s (c 2 []) .q true u → Replies (.statusCommand mb ⟨tag, 0, [], false⟩) s u (c 2 []) 0
      [pack [(0, fenceMap u), (16, u.sys.mode.toNat)], w32 (poolFree u),
       pack [(0, 2048 - u.tp.scenes.length), (16, 2048 - u.tl.stations.length)],
       w32 (16384 - u.fw.moorings.length)]) ∧
    (Executes s (c 3 [x]) .q false u → handleStatus u anyType x = 0 →
      (handleType x = 2 → rebindWaits u (handleIndex x) = false) →
      Replies (.queryCommand mb ⟨tag, 0, [x], false⟩) s u (c 3 [x]) 0
        (x :: queryWords u (handleType x) (handleIndex x))) ∧
    (Executes s (c 4 any) .q true u →
      Replies (.nopCommand mb ⟨tag, 0, any, false⟩) s u (c 4 any) 0 []) ∧
    (Executes s (c 8 [x]) .m false u → x.toNat < 16 →
      let target := BitVec.ofNat 4 x.toNat
      (mayGo u.sys.mode target = false → target ≠ u.sys.mode →
        Replies (.setMode mb ⟨tag, 0, [x], false⟩) s u (c 8 [x]) 0x14 []) ∧
      (mayGo u.sys.mode target = true ∨ target = u.sys.mode → modePending u = true →
        Replies (.setMode mb ⟨tag, 0, [x], false⟩) s u (c 8 [x]) 0x15 []) ∧
      (target = u.sys.mode → modePending u = false →
        Replies (.setMode mb ⟨tag, 0, [x], false⟩) s u (c 8 [x]) 0 [x]) ∧
      (mayGo u.sys.mode target = true → target ≠ u.sys.mode → modePending u = false →
        exec (.setMode mb ⟨tag, 0, [x], false⟩) s = .next (onFw u (fun f => { f with
          causer := none, waiting := Tab.put f.waiting mb
            (.setMode (c 8 [x]).header (c 8 [x]).crc target u.tick false) })))) ∧
    (Executes s (c 9 [x]) .m false u → x = 0 ∨ 10 ≤ x.toNat ∧ x.toNat ≤ 60000 →
      Replies (.setWatchdog mb ⟨tag, 0, [x], false⟩) s
        (onFw u (fun f => { f with wdPeriod := x.toNat, wdStart := u.tick })) (c 9 [x]) 0 []) ∧
    (Executes s (c 0x1D [x]) .c false u → 12500 ≤ x.toNat → x.toNat ≤ 1600000 →
      (∀ l : Fin 8, (laneOf u l).enable = false) →
      Replies (.setCycle mb ⟨tag, 0, [x], false⟩) s { u with tl := { u.tl with cyc :=
        if u.tl.cyc.begun then { u.tl.cyc with nextPeriod := some (u.tick, x.toNat) }
        else { u.tl.cyc with period := x.toNat } } } (c 0x1D [x]) 0 [])

/-- R172, R192: BASIN_ALLOC gives a zeroed run of free pages of the pool and sets its guards, and
BASIN_FREE takes it back. How a command is taken, and that a block takes the first place where it
fits, are the model's reading (log entry 44). -/
def Obligations.UserBlocksAreAllocatedAndFreed : Prop :=
  ∀ (mb : Fin 8) (tag : BitVec 8) (x : Word) (s u : State),
    let c (op : Nat) : Cmd := cmdOf op mb ⟨tag, 0, [x], false⟩
    let n := fld x 0 11
    let guard : BitVec 2 := if bit x 16 then 3 else if bit x 17 then 1 else 0
    let clear (r : Nat × Nat) (p : Nat) : Prop := p + n ≤ r.1 ∨ r.1 + r.2 ≤ p
    (Executes s (c 0x10) .c false u → x &&& ~~~ 0x307FF = 0 → 1 ≤ n → n ≤ 1024 →
      (∀ b : Fin 4, running u (islBank b) = true) →
      (poolFit u n = none → Replies (.basinAlloc mb ⟨tag, 0, [x], false⟩) s u (c 0x10) 0x12 []) ∧
      (∀ p, poolFit u n = some p → (∀ b : Fin 4, (bankRegs u b).arm = false) →
        64 ≤ p ∧ p + n ≤ 1024 ∧ (∀ r ∈ u.fw.blocks ++ u.fw.fwRuns, clear r p) ∧
        ∃ t, Replies (.basinAlloc mb ⟨tag, 0, [x], false⟩) s t (c 0x10) 0 [w32 (p * 65536)] ∧
          t.fw = { u.fw with blocks := Tab.put u.fw.blocks p n } ∧
          (∀ a, Memory.byte t.basin.bytes a =
            if p * 65536 ≤ a ∧ a < (p + n) * 65536 then 0 else Memory.byte u.basin.bytes a) ∧
          (∀ q, t.win.guards.get 0 q = if p ≤ q ∧ q < p + n then guard else u.win.guards.get 0 q))) ∧
    (let p := x.toNat / 65536
     let size := Tab.get 0 u.fw.blocks p
     Executes s (c 0x11) .c false u → x.toNat % 65536 = 0 → size ≠ 0 →
      (blockNamed u x.toNat (x.toNat + size * 65536) = true →
        Replies (.basinFree mb ⟨tag, 0, [x], false⟩) s u (c 0x11) 0x15 []) ∧
      (blockNamed u x.toNat (x.toNat + size * 65536) = false →
        ∃ t, Replies (.basinFree mb ⟨tag, 0, [x], false⟩) s t (c 0x11) 0 [] ∧
          t.fw = { u.fw with blocks := Tab.erase u.fw.blocks p } ∧ t.basin = u.basin ∧
          (∀ q, t.win.guards.get 0 q = if p ≤ q ∧ q < p + size then 0 else u.win.guards.get 0 q)))

/-- R159, R160, R174, R192, R288, R649, R664, R682: the commands that create an object: it stands at
a free index with what its command asks for, and the reply carries its handle. How a command is
taken, and which index is free, are the model's reading (log entry 44). -/
def Obligations.ObjectsAreCreatedAsAsked : Prop :=
  ∀ (mb : Fin 8) (tag : BitVec 8) (w1 w2 w3 w4 : Word) (i : Nat) (s u r : State),
    let msg (w : List Word) : Msg := ⟨tag, 0, w, false⟩
    let made (op t : Nat) (w : List Word) (instr : Instr) (holds : State → Prop) : Prop :=
      ∃ v, Replies instr s v (cmdOf op mb (msg w)) 0 [handleOf u t i] ∧ v.fw.gens = u.fw.gens ∧ holds v
    let runs (op : Nat) (w : List Word) : Prop := Executes s (cmdOf op mb (msg w)) .c false u
    let moorOk (h : Word) : Prop := h = 0 ∨ handleStatus u [7] h = 0 ∧
      (Tab.find? u.fw.moorings (handleIndex h)).any (fun m => m.kind = 0) = true
    let m : Moor := { ring := w1.toNat, cb := w2.toNat, w3 := w3 }
    (runs 0x12 [w1, w2, w3] → w3 &&& ~~~ 0x003FFF3F = 0 → 4 ≤ fld w3 0 4 → fld w3 0 4 ≤ 12 →
      pairOk m.kind m.producer m.consumer = true → signalOk m.consumer m.signal = true →
      m.ring % (16 * m.size) = 0 → m.cb % 16 = 0 → inBlock u m.ring (16 * m.size) = true →
      inBlock u m.cb 16 = true → (∀ b ∈ banksOf m.cb 16, running u b = true) →
      countMoors u (fun x => x.kind = 1) < 64 → countMoors u Moor.submits < 64 →
      u.intc.watch.length < 2048 → freeIndex u 7 = some i →
      made 0x12 7 [w1, w2, w3] (.createMooring mb (msg [w1, w2, w3])) (fun v =>
        Tab.find? v.fw.moorings i = some m ∧ v.fw.deviceMoor = u.fw.deviceMoor)) ∧
    (∀ b, runs 0x13 [w1, w2, w3, w4] → moorOk w4 → w1 &&& ~~~ 0x1FFF07FF = 0 → w2 &&& ~~~ 0xFFF = 0 →
      (let x := newScene (cmdOf 0x13 mb (msg [w1, w2, w3, w4]))
       x.ok = true → w3.toNat % 256 = 0 → inBlock u w3.toNat 1024 = true →
       (∀ k ∈ islTP :: banks, running u k = true) → totalLoad u + x.load ≤ 8160000000 →
       readMem u 2 (w3.toNat + 0x80) 0x380 = (r, .ok b) → (placeSig u (sigBytes x)).isSome = true →
       (placeSig r (sigBytes x)).isSome = true →
       freeIndex u 1 = some i →
       made 0x13 1 [w1, w2, w3, w4] (.createScene mb (msg [w1, w2, w3, w4])) (fun v =>
        ∃ y, sceneOf v i = some y ∧ y.width = fld w1 0 11 ∧ y.height = fld w1 16 10 ∧
          y.rate = fld w1 26 3 ∧ y.blank = fld w2 0 8 ∧ y.moor = w4 ∧ y.block = w3.toNat ∧
          y.evHost.toNat = fld w2 8 4 ∧
          rget y.regs 0x20 = leWord b &&& 0x1F ∧
          rget y.regs 0x21 = leWord (b.drop 4) &&& 0xFFFFFF))) ∧
    (runs 0x16 [w1, w2] → moorOk w2 → w1.toNat < 4 → running u islCV = true → freeIndex u 3 = some i →
      made 0x16 3 [w1, w2] (.createVoice mb (msg [w1, w2])) (fun v =>
        v = setVoice u i { kind := w1.toNat, moor := w2 })) ∧
    (runs 0x17 [w1, w2] → w2.toNat < 16 → running u islCV = true →
      (w1 = 0 ∨ handleStatus u [2] w1 = 0 ∧ rebindWaits u (handleIndex w1) = false) →
      (let st := if w1 = 0 then none else some (handleIndex w1)
       let port := if w1 = 0 then fld w2 0 1 else 0
       let slot := if w1 = 0 then fld w2 1 3 else 0
       let quiet := st.isSome && decide (u.sys.mode = 5)
       mixExists u st port slot = false → freeIndex u 4 = some i →
       made 0x17 4 [w1, w2] (.createMix mb (msg [w1, w2])) (fun v =>
        v = setMix u i { station := st, port := port, slot := slot, first := u.cv.sample / 16,
                         samples := List.replicate (u.cv.sample % 16) 0, silenced := quiet,
                         gainNow := if quiet then 255 else 0 }))) ∧
    (runs 0x19 [w1, w2] → moorOk w2 → w1.toNat < 4 → running u islSL = true → freeIndex u 5 = some i →
      made 0x19 5 [w1, w2] (.openChannel mb (msg [w1, w2])) (fun v =>
        v = updChan u i (fun _ => { state := .empty, handle := handleOf u 5 i, moor := w2,
                                    prio := BitVec.ofNat 2 w1.toNat }))) ∧
    (runs 0x1A [w1] → moorOk w1 → freeIndex u 6 = some i →
      made 0x1A 6 [w1] (.createFence mb (msg [w1])) (fun v =>
        v = { u with fw := { u.fw with fences := Tab.put u.fw.fences i { moor := w1 } } })) ∧
    (∀ k, runs 0x1B [w1, w2, w3] → w2 = 0 ∨ handleStatus u [1] w2 = 0 → moorOk w3 →
      w1 &&& ~~~ 0xF7 = 0 → running u (islDeck (fld w1 0 3)) = true →
      (w2 ≠ 0 → running u islTP = true) →
      freeStack u (fld w1 0 3) = some k → freeIndex u 8 = some i →
      made 0x1B 8 [w1, w2, w3] (.createScript mb (msg [w1, w2, w3])) (fun v =>
        taskOf v i = some {
          deck := fld w1 0 3, prio := BitVec.ofNat 4 (fld w1 4 4),
          scene := if w2 = 0 then none else some (handleIndex w2), moor := w3, slot := k } ∧
        ∀ j, j ≠ i → taskOf v j = taskOf u j))

/-- R160, R194, R196, R587: SCRIPT_CONTROL, and DESTROY: the object is gone, its generation has
moved on, and none of its records waits. How a command is taken, and when a script is BUSY, are the
model's reading (log entry 44). -/
def Obligations.ScriptsAreControlledAndObjectsDestroyed : Prop :=
  ∀ (mb : Fin 8) (tag : BitVec 8) (h w2 : Word) (k : Task) (s u v : State),
    let c (op : Nat) (w : List Word) : Cmd := cmdOf op mb ⟨tag, 0, w, false⟩
    let t := handleType h
    let i := handleIndex h
    (Executes s (c 0x1C [h, w2]) .c false u → handleStatus u [8] h = 0 → taskOf u i = some k →
      w2.toNat ≤ 1 →
      (w2 = 1 → k.len = 0 → Replies (.scriptControl mb ⟨tag, 0, [h, w2], false⟩) s u (c 0x1C [h, w2]) 0x15 []) ∧
      (w2 = 1 → k.len ≠ 0 → Replies (.scriptControl mb ⟨tag, 0, [h, w2], false⟩) s
        (if k.started then updTask u i (fun t => { t with stopDue := false })
         else if running u (islDeck k.deck) then reschedule (startTask u i) k.deck
         else updTask u i (fun t => { t with started := true, stopDue := false })) (c 0x1C [h, w2]) 0 []) ∧
      (w2 = 0 → Replies (.scriptControl mb ⟨tag, 0, [h, w2], false⟩) s
        (if running u (islDeck k.deck) = false then updTask u i (fun t => { t with started := false })
         else if k.state = 2 then updTask u i (fun t => { t with stopDue := true })
         else if k.state = 1 ∨ k.state = 3 then reschedule (stopTask u i 0) k.deck
         else u) (c 0x1C [h, w2]) 0 [])) ∧
    (Executes s (c 0x2F [h]) .c false u → handleStatus u anyType h = 0 →
      ¬ (u.sys.mode = 5 ∧ t = 2) → (∀ k ∈ dropNeeds u t i, running u k = true) →
      (t = 2 → rebindWaits u i = false) →
      (dropBusy u t i h = (v, true) →
        Replies (.destroyObject mb ⟨tag, 0, [h], false⟩) s v (c 0x2F [h]) 0x15 []) ∧
      (dropBusy u t i h = (v, false) →
        ∃ d, Replies (.destroyObject mb ⟨tag, 0, [h], false⟩) s d (c 0x2F [h]) 0 [] ∧
          objectLive d t i = false ∧
          genOf d t i = (if genOf u t i = 0xFFF then 1 else genOf u t i + 1) ∧
          ∀ r ∈ d.staging ++ d.fw.held, r.source ≠ h))

/-- R158, R182, R192, R193, R283, R424, R454, R462, R513, R527, R805: the commands that bind
stations, route voices and configure lanes, loops, the panel and the audio ports. How a command is
taken is the model's reading (log entry 44). -/
def Obligations.BindingAndConfigurationCommandsTakeEffect : Prop :=
  ∀ (mb : Fin 8) (tag : BitVec 8) (w1 w2 w3 w4 w5 : Word) (i : Nat) (x : Station) (v : Voice)
    (s u : State),
    let msg (w : List Word) : Msg := ⟨tag, 0, w, false⟩
    let c (op : Nat) (w : List Word) : Cmd := cmdOf op mb (msg w)
    let runs (op : Nat) (w : List Word) : Prop := Executes s (c op w) .c false u
    let st := newStation (c 0x14 [w1, w2, w3, w4, w5])
    let rb := c 0x15 [w1, w2, w3]
    let scene : Option Nat := if w2 = 0 ∨ handleIndex w2 = x.home then none else some (handleIndex w2)
    let addr : Option Nat :=
      if w3.toNat = 0xFFFF ∨ w3.toNat = x.addr then none else some w3.toNat
    let lane := fld w1 0 3
    (runs 0x14 [w1, w2, w3, w4, w5] → u.sys.mode ≠ 5 → handleStatus u [1] w2 = 0 →
      (w5 = 0 ∨ handleStatus u [1] w5 = 0) → w1 &&& ~~~ 0x7F7F37FF = 0 → w3 &&& ~~~ 0x07FFFFFF = 0 →
      w4 &&& ~~~ 0x3FF = 0 → st.ok = true → bindable u st.addr = true →
      (∀ k ∈ [islLane st.lane, islTP, islBank (bankOf (recordOf i))], running u k = true) →
      (boundOn u st.lane).length < 256 → freeIndex u 2 = some i → (defaultsPage u i).isSome = true →
      ∃ t y, Replies (.bindStation mb (msg [w1, w2, w3, w4, w5])) s t (c 0x14 [w1, w2, w3, w4, w5]) 0
          [handleOf u 2 i] ∧ stationOf t i = some y ∧ y.code = 1 ∧ y.addr = fld w1 0 11 ∧
        y.home = handleIndex w2 ∧ y.scene = handleIndex w2 ∧ y.outLen = fld w1 16 7 ∧
        y.inLen = fld w1 24 7 ∧ y.hold = fld w3 0 16 ∧ y.panelW = fld w3 16 11 ∧ y.panelH = fld w4 0 10) ∧
    (runs 0x15 [w1, w2, w3] → u.sys.mode ≠ 5 → handleStatus u [2] w1 = 0 →
      (w2 = 0 ∨ handleStatus u [1] w2 = 0) → (w3.toNat = 0xFFFF ∨ w3.toNat < 2048) →
      stationOf u (handleIndex w1) = some x → rebindWaits u (handleIndex w1) = false →
      (scene = none → addr = none →
        Replies (.rebindStation mb (msg [w1, w2, w3])) s u rb 0 []) ∧
      (¬ (scene = none ∧ addr = none) → (scene ≠ none → running u islTP = true) →
        (∀ a, addr = some a → bindable u a = true ∧ running u (islLane x.lane) = true ∧
          running u (islLane (a / 256 % 8)) = true) →
        exec (.rebindStation mb (msg [w1, w2, w3])) s = .next
          (let t := match scene with
             | none => u
             | some n => bindScene u (handleIndex w1) n
           onFw t (fun f => { f with
             causer := none, waiting := Tab.put f.waiting mb
               (.rebind rb.header rb.crc (handleIndex w1) scene (addr.map (fun a => (u.tick, a))) false) })))) ∧
    (∀ (h crc : Word) (k : Nat), fwRuns s = true →
      (Tab.find? s.fw.waiting mb = some (.rebind h crc k none none false) →
        exec (.rebindStationComplete mb) s = .next (endWaiting s mb h crc 0 [])) ∧
      (∀ a, Tab.find? s.fw.waiting mb = some (.rebind h crc k none a true) →
        exec (.rebindStationComplete mb) s = .next (endWaiting s mb h crc 0x20 [])) ∧
      (∀ n a, Tab.find? s.fw.waiting mb = some (.rebind h crc k (some n) a true) →
        exec (.rebindStationComplete mb) s = .next (endWaiting
          (updStation s k (fun t => { t with pendScene := none })) mb h crc 0x20 []))) ∧
    (runs 0x18 [w1, w2, w3] → handleStatus u [3] w1 = 0 → voiceOf u (handleIndex w1) = some v →
      (w2 = 0 ∨ handleStatus u [4] w2 = 0) → w3.toNat < 256 → running u islCV = true →
      Replies (.routeVoice mb (msg [w1, w2, w3])) s
        (setVoice u (handleIndex w1) { v with next := v.next ++
          [(u.tick.toNat, if w2 = 0 then none else some (handleIndex w2, w3.toNat))] })
        (c 0x18 [w1, w2, w3]) 0 []) ∧
    (runs 0x1E [w1] → w1 &&& ~~~ 0x107 = 0 → running u (islLane lane) = true →
      (bit w1 8 = true ∨ boundOn u lane = []) →
      ∃ t, Replies (.laneConfig mb (msg [w1])) s t (c 0x1E [w1]) 0 [(laneOf t lane).stateWord &&& 0xFFFF] ∧
        (laneOf t lane).enable = bit w1 8 ∧
        ∀ l : Fin 8, l.val ≠ lane → (laneOf t l).enable = (laneOf u l).enable) ∧
    (runs 0x1F [0, w2, w3, 0] → w2.toNat < 16 → (w3 = 0 ∨ 650 ≤ w3.toNat ∧ w3.toNat ≤ 900) →
      Replies (.setLoopPolicy mb (msg [0, w2, w3, 0])) s
        (updIsl u w2.toNat (fun x => { x with capMv := BitVec.ofNat 10 w3.toNat }))
        (c 0x1F [0, w2, w3, 0]) 0 []) ∧
    (runs 0x1F [3, w2, w3, w4] → handleStatus u [2] w2 = 0 → stationOf u (handleIndex w2) = some x →
      rebindWaits u (handleIndex w2) = false → running u (islLane x.lane) = true →
      1 ≤ w3.toNat → w3.toNat ≤ w4.toNat → w4.toNat ≤ 65535 →
      Replies (.setLoopPolicy mb (msg [3, w2, w3, w4])) s
        (setStation u (handleIndex w2) { x with bounds := some (w3.toNat, w4.toNat) })
        (c 0x1F [3, w2, w3, w4]) 0 []) ∧
    (runs 0x20 [w1, w2, w3, w4] → handleStatus u [1] w1 = 0 → w2 &&& ~~~ 0x03FF07FF = 0 →
      w3 &&& ~~~ 0x03FF07FF = 0 → w4 &&& ~~~ 0x7F03 = 0 → fld w4 0 2 ≠ 3 →
      ¬ [0, 1, 8].contains (fld w4 8 6) → running u islTP = true → running u islPI = true →
      ∃ t, exec (.panelConfig mb (msg [w1, w2, w3, w4])) s = .next (panelStart (caused
          (reply t mb (c 0x20 [w1, w2, w3, w4]).header (c 0x20 [w1, w2, w3, w4]).crc 0 []))) ∧
        t.tp.panel.scene = some (handleIndex w1) ∧ t.tp.panel.w = fld w3 0 11 ∧
        t.tp.panel.h = fld w3 16 10 ∧ t.tp.panel.variant.toNat = fld w4 0 2 ∧
        t.tp.panel.tePin.toNat = fld w4 8 6 ∧ t.gp.fw.getLsbD 1 = true ∧
        t.gp.fw.getLsbD (fld w4 8 6) = true ∧ (sqOf t 1).cfg.getLsbD 16 = true) ∧
    (runs 0x21 [w1, 0] → w1.toNat < 256 → 1 ≤ fld w1 2 4 → fld w1 2 4 ≤ 8 →
      (bit w1 7 = true ∨ fld w1 2 4 ≤ 2) → running u islCV = true → u.cv.mixes = [] →
      Replies (.audioPortConfig mb (msg [w1, 0])) s
        (onCv u (fun x => { x with
          ports := Tab.set {} x.ports (fld w1 0 1)
            { enable := bit w1 1, slots := BitVec.ofNat 4 (fld w1 2 4), width := bit w1 6, tdm := bit w1 7 } }))
        (c 0x21 [w1, 0]) 0 [])

/-- R173, R195 to R197, R336 to R340, R442, R443, R590: the commands that load data from a user
block that reads without an error, and the lane test and the diagnostic read. How a command is
taken, where storage is found, and LANE_TEST on a lane with bound stations are the model's reading
(log entry 44). -/
def Obligations.DataAndServiceCommandsTakeEffect : Prop :=
  ∀ (mb : Fin 8) (tag : BitVec 8) (w1 w2 w3 w4 : Word) (x : Station) (v : Voice) (k : Task)
    (b : List Byte) (s u r : State),
    let msg (w : List Word) : Msg := ⟨tag, 0, w, false⟩
    let c (op : Nat) (w : List Word) : Cmd := cmdOf op mb (msg w)
    let up (l : List Nat) : Prop := ∀ i ∈ l, running u i = true
    let tile := tileBytes (fld w2 4 4)
    let pages := (w3.toNat * tile + w4.toNat * tile - 1) / 65536 + 1 - w3.toNat * tile / 65536
    (Executes s (c 0x30 [w1, w2, w3, w4]) .d false u → w2 &&& ~~~ 0xFF = 0 → w3.toNat ≤ 0xFFFF →
      fld w2 4 4 ≤ 3 → 1 ≤ w4.toNat → w3.toNat + w4.toNat ≤ 65536 →
      inBlock u w1.toNat (w4.toNat * tile) = true → up banks → pages ≤ poolFree u →
      readMem u 2 w1.toNat (w4.toNat * tile) = (r, .ok b) →
      (let bank := fld w2 0 4
       let fresh := freshPages pages r (r.tp.banks.get {} bank).pages (w3.toNat * tile / 65536)
       Replies (.loadTiles mb (msg [w1, w2, w3, w4])) s
        (swapBank (writeBank (pages + 1) fresh.1 fresh.2 (w3.toNat * tile) b) bank fresh.2)
        (c 0x30 [w1, w2, w3, w4]) 0 [])) ∧
    (let i := handleIndex w3
     let n := fld w2 0 30
     Executes s (c 0x31 [w1, w2, w3]) .d false u → handleStatus u [3] w3 = 0 →
      voiceOf u i = some v → v.kind = 3 → v.phase = 0 → fld w2 30 2 ≤ 1 →
      (if fld w2 30 2 = 0 then n / 2 else 2 * n) ≤ 2 ^ 24 →
      inBlock u w1.toNat n = true → up (islCV :: banks) →
      (poolFit u ((n + 65535) / 65536)).isSome = true → readMem u 2 w1.toNat n = (r, .ok b) →
      (∀ q p, takePages r ((n + 65535) / 65536) = some (q, p) →
        ∃ t y, Replies (.loadSamples mb (msg [w1, w2, w3])) s t (c 0x31 [w1, w2, w3]) 0 [] ∧
          t.basin = (writeMem q 2 (p * 65536) b).1.basin ∧
          voiceOf t i = some y ∧ y.fmt = fld w2 30 2 ∧ y.bytes = n ∧
          y.pages = some (p, (n + 65535) / 65536))) ∧
    (let i := handleIndex w1
     Executes s (c 0x32 [w1, w2, w3]) .d false u → handleStatus u [8] w1 = 0 → taskOf u i = some k →
      (running u (islDeck k.deck) = false ∨ k.state = 0 ∨ k.state = 4) → w3.toNat % 2 = 0 → inBlock u w2.toNat w3.toNat = true →
      up banks → readMem u 2 w2.toNat w3.toNat = (r, .ok b) →
      (∀ cell q p, placeCode u k.deck i (w3.toNat / 2) = some cell →
        placeCode r k.deck i (w3.toNat / 2) = some cell →
        (copyRun u k ((w3.toNat + 65535) / 65536)).isSome = true → taskOf r i = some k →
        copyRun r k ((w3.toNat + 65535) / 65536) = some (q, p) →
        let t := updTask (writeMem q 2 (p * 65536) b).1 i (fun t => { t with
          len := w3.toNat / 2, copy := some (p, (w3.toNat + 65535) / 65536), cell := cell })
        Replies (.loadScript mb (msg [w1, w2, w3])) s
          (if running u (islDeck k.deck) then putCode t k.deck cell (cellsOf b) else t)
          (c 0x32 [w1, w2, w3]) 0 [])) ∧
    (let i := handleIndex w1
     let lane := [islLane x.lane]
     stationOf u i = some x → handleStatus u [2] w1 = 0 → rebindWaits u i = false →
      (Executes s (c 0x33 [w1, w2]) .d false u → inBlock u w2.toNat 0x380 = true →
        up (islTP :: lane ++ banks) → readMem u 2 w2.toNat 0x380 = (r, .ok b) →
        let q := (writeMem r 2 (defaultsAt r i) b).1
        Replies (.loadDefaults mb (msg [w1, w2])) s (updStation q i (fun t => { t with
          pendDef := some (q.tick, b.take 64, (b.drop 64).take 64),
          pendLut := some (t.scene, ((sceneOf q t.scene).map (fun y => y.nextStart q.tick.toNat)).getD 0,
            b.drop 128) }))
          (c 0x33 [w1, w2]) 0 []) ∧
      (Executes s (c 0x40 [w1, w2]) .sv false u → inBlock u w2.toNat 0x80 = true →
        up (lane ++ banksOf w2.toNat 0x80) → readMem u 2 w2.toNat 0x80 = (r, .ok b) →
        Replies (.forceOutput mb (msg [w1, w2])) s
          (updStation r i (fun t => { t with pendForce := some (r.tick, b.take 64, b.drop 64) }))
          (c 0x40 [w1, w2]) 0 [])) ∧
    (let l := fld w1 0 3
     Executes s (c 0x41 [w1]) .sv false u → w1 &&& ~~~ 0x37 = 0 → running u (islLane l) = true →
      (boundOn u l ≠ [] → Replies (.laneTest mb (msg [w1])) s u (c 0x41 [w1]) 0x15 []) ∧
      (boundOn u l = [] → Replies (.laneTest mb (msg [w1])) s
        (laneCtrl (if (laneOf u l).test ≠ 0 ∧ BitVec.ofNat 2 (fld w1 4 2) ≠ (laneOf u l).test
            then testNote u l else u) l (laneOf u l).enable (laneOf u l).freeze (BitVec.ofNat 2 (fld w1 4 2)))
        (c 0x41 [w1]) 0 [])) ∧
    (Executes s (c 0x42 [w1, w2]) .sv false u → w1.toNat % 4 = 0 → 1 ≤ w2.toNat → w2.toNat ≤ 6 →
      let errs := diagErrs u w1.toNat w2.toNat
      (some .unmapped ∈ errs → Replies (.diagRead mb (msg [w1, w2])) s u (c 0x42 [w1, w2]) 0x13 []) ∧
      (some .unmapped ∉ errs → some .fenced ∈ errs →
        Replies (.diagRead mb (msg [w1, w2])) s u (c 0x42 [w1, w2]) 0x20 []) ∧
      (∀ l : List Word, some .unmapped ∉ errs → some .fenced ∉ errs →
        diagWords w2.toNat u w1.toNat = (r, .ok l) →
        Replies (.diagRead mb (msg [w1, w2])) s r (c 0x42 [w1, w2]) 0 l) ∧
      (∀ e, some .unmapped ∉ errs → some .fenced ∉ errs →
        diagWords w2.toNat u w1.toNat = (r, .error e) →
        Replies (.diagRead mb (msg [w1, w2])) s r (c 0x42 [w1, w2]) 0x21 []))

/-- R75, R84, R86 to R88, R198, R199, R280: the image commands, the one-time-programmable storage,
and RESET. How a command is taken, and what a failed IMAGE_WRITE leaves, are the model's reading
(log entry 44). -/
def Obligations.ImageAndResetCommandsTakeEffect : Prop :=
  ∀ (mb : Fin 8) (tag : BitVec 8) (w1 w2 : Word) (flashOk readA readB readOk : Bool) (b : List Byte)
    (s u r : State),
    let msg (w : List Word) : Msg := ⟨tag, 0, w, false⟩
    let c (op : Nat) (w : List Word) : Cmd := cmdOf op mb (msg w)
    let i : Instr := .imageWrite mb (msg [w1, w2]) flashOk readA readB
    let g := sourceBytes b
    let code := verifyWhole r (sourceWhole b) g
    let slot := targetSlot r readA readB
    (Executes s (c 0x50 [w1, w2]) .i true u → imageSource u w1.toNat w2.toNat = 0 →
      (∀ k ∈ islPI :: banksOf w1.toNat w2.toNat, running u k = true) →
      readMem u 2 w1.toNat w2.toNat = (r, .ok b) →
      (code ≠ 0 → Replies i s r (c 0x50 [w1, w2]) 0x30 [w32 code]) ∧
      (code = 0 → flashOk = true → Replies i s
        (setTried (writeSlot r slot (b.take (256 + imgLength g))) slot false)
        (c 0x50 [w1, w2]) 0 [w32 slot]) ∧
      (code = 0 → flashOk = false → ∃ t, Replies i s t (c 0x50 [w1, w2]) 0x3F [] ∧
        (∃ n, Tab.find? t.flashBad slot = some n ∧ n ≠ 0) ∧ t.sys = r.sys ∧ t.fresh = r.fresh + 1)) ∧
    (Executes s (c 0x51 [w1]) .i true u → w1 = 1 ∨ w1 = 2 →
      (running u islPI = true → Replies (.imageConfirm mb (msg [w1]) readOk) s u (c 0x51 [w1]) 0
        [w32 (verifySlot u w1.toNat readOk)]) ∧
      (running u islPI = false →
        Replies (.imageConfirm mb (msg [w1]) readOk) s u (c 0x51 [w1]) 0x20 [])) ∧
    (Executes s (c 0x52 [w1]) .i false u →
      (u.fw.imgRollback.toNat < w1.toNat →
        Replies (.rollbackAdvance mb (msg [w1])) s u (c 0x52 [w1]) 0x13 []) ∧
      (w1.toNat ≤ u.fw.imgRollback.toNat →
        let v : Word := w32 (max w1.toNat u.otp.rollback.toNat)
        Replies (.rollbackAdvance mb (msg [w1])) s { u with otp := { u.otp with rollback := v } }
          (c 0x52 [w1]) 0 [v])) ∧
    (Executes s (c 0x53 [w1]) .i false u → w1.toNat < 4 →
      let revoked := setBit u.otp.revoked w1.toNat true
      (w1.toNat = u.fw.imgKey.toNat ∨ revoked = 0xF →
        Replies (.keyRevoke mb (msg [w1])) s u (c 0x53 [w1]) 0x13 []) ∧
      (w1.toNat ≠ u.fw.imgKey.toNat → revoked ≠ 0xF →
        Replies (.keyRevoke mb (msg [w1])) s { u with otp := { u.otp with revoked := revoked } }
          (c 0x53 [w1]) 0 [])) ∧
    (Executes s (c 0x54 [0]) .i true u →
      exec (.resetCommand mb (msg [0])) s = .next (deviceReset u 2)) ∧
    (∀ k : Fin 16, k.val ≠ 0 → k.val ≠ 14 → w1.toNat = 16 * k.val + 1 →
      Executes s (c 0x54 [w1]) .i false u → running u k = true → u.sys.inReset = false →
      ∃ t, exec (.resetCommand mb (msg [w1])) s = .next t ∧ (isl t k).state = .fenced ∧
        (isl t k).cause = 6 ∧
        (isl t k).recent = [] ∧ (isl t k).resetCmd = some mb.val ∧
        ∃ h q, Tab.find? t.fw.waiting mb = some (.reset h q k))

/-! ### Basin and Weir (chapter 05) -/

/-- R202a, R205, R209, R229: where no doubleword that a request touches has an error and no
injection is armed, a write stores its bytes and no others, and a read returns the bytes stored. In
a fenced bank both end in an error completion and store nothing. An agent whose own island is fenced
sends no request (R247). What the Lockkeeper's exception shows of an error completion is the model's
reading (log entry 57). -/
def Obligations.BasinRequestsReadAndWriteTheirBytes : Prop :=
  ∀ (a : Agent) (addr : BasinAddr) (n : Nat) (d : List Byte) (s : State),
    let clean (n : Nat) : Prop := ∀ x, addr.val ≤ x → x < addr.val + n →
      (dwTag s (x / 8)).vote = false ∧ dwSynd s (x / 8) = 0
    let bank := bankOf addr
    1 ≤ n → addr.val % 256 + n ≤ 256 → 1 ≤ d.length → addr.val % 256 + d.length ≤ 256 →
      (agentOut s a = false →
        exec (.basinReadRequest a addr n) s = .next s ∧
        exec (.basinWriteRequest a addr d) s = .next s) ∧
      (agentOut s a = true → running s (islBank bank) = false →
        exec (.basinReadRequest a addr n) s = .next (errTo s a addr true false .fenced) ∧
        exec (.basinWriteRequest a addr d) s = .next (errTo s a addr true true .fenced)) ∧
      (agentOut s a = true → running s (islBank bank) = true → clean n →
        ∃ t, exec (.basinReadRequest a addr n) s = .next t ∧
          t.out = s.out ++ [.bytes a ((List.range n).map (fun i => Memory.byte s.basin.bytes (addr.val + i)))] ∧
          t.basin = { s.basin with tags := t.basin.tags } ∧ t = { s with basin := t.basin, out := t.out }) ∧
      (agentOut s a = true → running s (islBank bank) = true → clean d.length →
        (bankRegs s bank).arm = false →
        ∃ t, exec (.basinWriteRequest a addr d) s = .next t ∧
          (∀ x, Memory.byte t.basin.bytes x =
            if addr.val ≤ x ∧ x < addr.val + d.length then d.getD (x - addr.val) 0
            else Memory.byte s.basin.bytes x) ∧
          (∀ x, addr.val ≤ x → x < addr.val + d.length →
            (dwTag t (x / 8)).vote = false ∧ dwSynd t (x / 8) = 0) ∧
          t.basin.banks = s.basin.banks)

/-- R203 to R208, R211: an inverted data bit is corrected where it is read, the correction counted
and written back; a doubleword that no code word explains is poisoned, counted and recorded once,
and gives no data; a scrub read does either without a requester, and steps on. -/
def Obligations.ErrorsAreCorrectedOrPoisoned : Prop :=
  ∀ (a : Agent) (k : Fin 8388608) (i : Fin 64) (s : State),
    let addr : BasinAddr := ⟨8 * k.val, by omega⟩
    let bank := bankOf addr
    let b := bankRegs s bank
    let dw := dwData s k
    agentOut s a = true → running s (islBank bank) = true → (dwTag s k).vote = false →
      (dwSynd s k = column i →
        ∃ t, exec (.basinReadRequest a addr 8) s = .next t ∧
          t.out = s.out ++ [.bytes a (leBytes 8 (dw ^^^ oneBit 64 i).toNat)] ∧
          dwData t k = dw ^^^ oneBit 64 i ∧ dwSynd t k = 0 ∧
          (bankRegs t bank).ceCount = satAdd b.ceCount 1 ∧ (bankRegs t bank).ueCount = b.ueCount) ∧
      (classify (dwSynd s k) = .bad →
        ∃ t, exec (.basinReadRequest a addr 8) s = .next t ∧ t.out = s.out ++ [.error a .ecc] ∧
          (dwTag t k).vote = true ∧ (bankRegs t bank).ueCount = satAdd b.ueCount 1 ∧
          (bankRegs t bank).errAddr = BitVec.ofNat 26 (8 * k.val) ∧
          dwData t k = dw ∧
          (s.staging.length < 1024 → ∃ r, t.staging = s.staging ++ [r] ∧ r.type = 8 ∧
            r.island.toNat = islBank bank ∧ r.payload = w32 (8 * k.val))) ∧
      (∀ n : Fin 4, running s (islBank n) = true →
        (let p := (bankRegs s n).scrubPos
         let d := addrOfIndex n p.toNat / 8
         ∃ t, exec (.scrubRead n) s = .next t ∧ t.out = s.out ∧
          (bankRegs t n).scrubPos = p + 1 ∧
          (bankRegs t n).passes =
            (if p = BitVec.allOnes 21 then (bankRegs s n).passes + 1 else (bankRegs s n).passes) ∧
          ((dwTag s d).vote = false → dwSynd s d = column i →
            dwData t d = dwData s d ^^^ oneBit 64 i ∧ dwSynd t d = 0 ∧
            (bankRegs t n).ceCount = satAdd (bankRegs s n).ceCount 1)))

/-- R214 to R218: a compare-and-swap and a swap, from the write that starts one to its end, on a
doubleword without an error. R220, R221, R223 to R225, R228: a lock cell: who takes it, who waits,
who gets it next. -/
def Obligations.WeirSwapsDoublewordsAndKeepsLockCells : Prop :=
  (∀ (a : Agent) (s : State),
    let c := ctxOf s a
    let ends (s : State) (op : Bool) (result : BitVec 4) : State := updCtx s a (fun c => { c with
      busy := none, result := result, old := 0, corrected := false, op := op })
    let go (swap : Bool) : Instr := if swap then .weirSwap a else .weirCas a
    agentOut s a = true → running s (islBank 0) = true → weirAgent a = true →
      (∀ swap, c.busy = none → c.waits = [] →
        (c.addr.toNat % 8 ≠ 0 → exec (go swap) s = .next (ends s swap 4)) ∧
        (c.addr.toNat % 8 = 0 → 3 ≤ a.val → a.val ≤ 10 → c.addr.toNat < 0x00400000 →
          exec (go swap) s = .next (ends s swap 5)) ∧
        (c.addr.toNat % 8 = 0 → ¬ (3 ≤ a.val ∧ a.val ≤ 10 ∧ c.addr.toNat < 0x00400000) →
          exec (go swap) s = .next
            (if running s (islBank (bankOf c.addr.toNat)) then
              updCtx s a (fun c => { c with busy := some (swap, c.addr.toNat, c.cmp, c.new) })
             else ends s swap 3))) ∧
      (∀ swap, c.busy ≠ none ∨ c.waits ≠ [] → exec (go swap) s =
        .next (updCtx s a (fun c => { c with waits := c.waits ++ [.go swap] }))) ∧
      (∀ (swap : Bool) (ad : Nat) (cmp new : Dword),
        c.busy = some (swap, ad, cmp, new) → c.waits = [] → ad % 8 = 0 →
        running s (islBank (bankOf ad)) = true → (dwTag s (ad / 8)).vote = false →
        dwSynd s (ad / 8) = 0 → (bankRegs s (bankOf ad)).arm = false →
        ∃ t, exec (.weirOperationDone a) s = .next t ∧
          (let equal := decide (dwData s (ad / 8) = cmp)
           ctxOf t a = { c with
            busy := none, old := dwData s (ad / 8), corrected := false, op := swap,
            result := if swap || equal then 0 else 1 } ∧
           dwData t (ad / 8) = (if swap || equal then new else dwData s (ad / 8)) ∧
           ∀ x, x < ad ∨ ad + 8 ≤ x → Memory.byte t.basin.bytes x = Memory.byte s.basin.bytes x))) ∧
  (∀ (a : Agent) (n : Fin 1024) (s : State),
    -- What the agent's waiting requests leave before its access to the cell (R242).
    let v := weirCatch s a
    let settled (s : State) (c : LockCell) : State := weirSettle (setCell s n c)
    let next (s : State) (waiters : BitVec 16) (by' : Nat) : BitVec 4 :=
      match chooseWaiter s waiters by' with
      | some w => BitVec.ofNat 4 w
      | none => 0
    running s (islBank 0) = true → weirAgent a = true →
      (let c := cellOf v n
       agentOut s a = true →
        ((ctxOf s a).waits = [] → v = s) ∧
        (c.owner = 0 → (c.reservee = 0 ∨ c.reservee.toNat = a.val) →
          exec (.lockCellRead a n) s = .next (emit (settled v { c with
            owner := BitVec.ofNat 4 a, reservee := 0, waiters := setBit c.waiters a false })
            (.word a 0))) ∧
        (c.owner.toNat = a.val →
          exec (.lockCellRead a n) s = .next (emit (weirSettle v) (.word a (w32 a)))) ∧
        (c.owner ≠ 0 → c.owner.toNat ≠ a.val → exec (.lockCellRead a n) s = .next (emit
          (settled v { c with waiters := setBit c.waiters a true })
          (.word a (c.owner.setWidth 32)))) ∧
        (c.owner = 0 → c.reservee ≠ 0 → c.reservee.toNat ≠ a.val →
          exec (.lockCellRead a n) s = .next (emit
            (settled v { c with waiters := setBit c.waiters a true })
            (.word a (c.reservee.setWidth 32 ||| 0x10)))) ∧
        (c.owner ≠ 0 → c.owner.toNat = a.val ∨ a.val = 15 → exec (.lockCellWrite a n) s =
          .next (settled v { c with
            owner := 0, reservee := next v c.waiters a, broken := false })) ∧
        (c.owner ≠ 0 → c.owner.toNat ≠ a.val → a.val ≠ 15 →
          exec (.lockCellWrite a n) s = .next (weirSettle v))) ∧
      (agentOut s a = false → exec (.lockCellRead a n) s = .next s ∧
        exec (.lockCellWrite a n) s = .next s) ∧
      (let c := cellOf s n
       (c.reservee ≠ 0 → (let left := setBit c.waiters c.reservee.toNat false
        exec (.reservationLapse n) s = .next (settled s { c with
          owner := 0, waiters := left, reservee := next s left c.reservee.toNat }))) ∧
       exec (.waiterLapse a n) s = .next (settled s { c with waiters := setBit c.waiters a false })))

/-- R224: on a release of a lock cell by its owner, the cell becomes free where nobody waits;
otherwise it is reserved for one that waits, than which none that waits has a higher priority, and
none of equal priority stands nearer after the releasing agent in the order of agent IDs, which
wraps from 15 to 2. -/
def Obligations.AReleaseChoosesTheFirstOfTheHighestWaiters : Prop :=
  ∀ (a : Agent) (n : Fin 1024) (s : State),
    let v := weirCatch s a
    agentOut s a = true → running s (islBank 0) = true → weirAgent a = true →
      (cellOf v n).owner.toNat = a.val →
      ∃ t, exec (.lockCellWrite a n) s = .next t ∧ (cellOf t n).owner = 0 ∧
        (let waits (x : Nat) : Prop := 2 ≤ x ∧ x ≤ 15 ∧ (cellOf v n).waiters.getLsbD x = true
         let w := (cellOf t n).reservee.toNat
         ((∀ x, ¬ waits x) → w = 0) ∧
         (∀ y, waits y → waits w ∧ ∀ x, waits x →
          (ctxOf v x).prio.toNat ≤ (ctxOf v w).prio.toNat ∧
          ((ctxOf v x).prio.toNat = (ctxOf v w).prio.toNat →
            (w + 13 - a.val) % 14 ≤ (x + 13 - a.val) % 14)))

/-! ### Islands and loops (chapter 06) -/

/-- R246, R247, R277, R280, R284, R797: each cause fences its island: the epoch stays, the fence is
counted, its cause is held and the Lockkeeper is told; the third within 60 s is held until a RESET
command. No other island changes but for the issuer of a crossing that timed out, and the request
that waited there ends with an error completion. What the state of LK shows through a warm restart,
and what the Lockkeeper's own exception shows, are the model's reading (log entries 38 and 57). -/
def Obligations.EachCauseFencesItsIsland : Prop :=
  ∀ (a : Agent) (k issuer : Fin 16) (s : State),
    let x := isl s k
    let held := decide (2 ≤ (recentOf s k).length) && decide (k.val ≠ 14)
    let fences (i : Instr) (cause : Nat) (quiet : Prop) : Prop :=
      ∃ t, exec i s = .next t ∧
        (isl t k).state = (if held then .held else .fenced) ∧
        (isl t k).cause = BitVec.ofNat 8 (if held then cause + 0x80 else cause) ∧
        (isl t k).epoch = x.epoch ∧ (isl t k).total = satAdd x.total 1 ∧
        (privSrc t 0 19).count ≠ 0 ∧ (quiet → t.sys = s.sys) ∧
        ∀ j, j ≠ k.val → (isl t j).state = (isl s j).state ∧ (isl t j).epoch = (isl s j).epoch
    (canFence s k = true → k.val ≠ 0 →
      fences (.crossingTimeout ⟨a, issuer⟩ k) 1 (a.val ≠ 2 ∨ running s issuer = false) ∧
      fences (.stateParity k) 2 True ∧ fences (.pllUnlock k) 3 True ∧
      (x.stretch = true → fences (.marginLost k) 4 True) ∧
      (decksOf k = [] ∨ heartLost s k = true → fences (.deadman k) 5 True) ∧
      (fwAgent a = true → agentOut s a = true → fences (.isControlFence a k) 6 True) ∧
      fences (.jtagFence k) 7 True) ∧
    (x.stretch = false → exec (.marginLost k) s = .next s) ∧
    (canFence s k = false → exec (.stateParity k) s = .next s ∧ exec (.pllUnlock k) s = .next s ∧
      exec (.marginLost k) s = .next s ∧ exec (.deadman k) s = .next s ∧
      exec (.jtagFence k) s = .next s ∧
      (fwAgent a = true → exec (.isControlFence a k) s = .next s) ∧
      ∃ t, exec (.crossingTimeout ⟨a, issuer⟩ k) s = .next t ∧ (isl t k).state = x.state ∧
        (isl t issuer).timeouts = satAdd (isl s issuer).timeouts 1 ∧
        (running s issuer = true → t.out = s.out ++ [.error a .fenced]) ∧
        (running s issuer = false → { t with islands := s.islands } = s)) ∧
    (canFence s 0 = true → s.sys.commissioned = true →
      (s.sys.restarts.filter (fun r => ticksSince s r ≤ minute)).length < 2 →
      (∃ t, exec (.stateParity 0) s = .next t ∧ (isl t 0).state = .restoring ∧
        t.sys.mode = s.sys.mode ∧ t.sys.resetCause = setBit s.sys.resetCause 8 true) ∧
      (∃ t, exec (.jtagFence 0) s = .next t ∧ (isl t 0).state = .fenced ∧ t.sys = s.sys))

/-- R199, R213, R251, R253, R254, R259, R276, R280, R284, R797, R808: the way back from a fence: a
reset, the restore, and the release, which counts the island's epoch up. Basin keeps its bytes
through a reset. The core of LK must run for them; the firmware resets one island at a time, in the
order of R276, whose reading is log entry 58, and releases it when the markers of its BLIT and PLAIN
moorings are written. -/
def Obligations.AFencedIslandIsResetRestoredAndReleased : Prop :=
  ∀ (a : Agent) (k : Fin 16) (s : State),
    let x := isl s k
    let others (t : State) : Prop := ∀ j, j ≠ k.val → isl t j = isl s j
    (fwAgent a = true → running s 0 = true → k.val ≠ 0 → x.state = .fenced →
      a.val = 15 ∨ (recovering s = false ∧ recoveryOrder.find? (recoverable s) = some k.val) →
      ∃ t, exec (.isControlReset a k) s = .next t ∧ isl t k = { x with state := .inReset } ∧ others t ∧
        t.basin.bytes = s.basin.bytes ∧ t.basin.tags = s.basin.tags) ∧
    (fwAgent a = true → running s 0 = false ∨ k.val = 0 ∨ x.state ≠ .fenced ∨
        (a.val = 2 ∧ (recovering s = true ∨ recoveryOrder.find? (recoverable s) ≠ some k.val)) →
      exec (.isControlReset a k) s = .next s) ∧
    (x.state = .inReset → running s 0 = true →
      ∃ t, exec (.islandResetDone k) s = .next t ∧ isl t k = { x with state := .restoring } ∧ others t) ∧
    (fwAgent a = true → running s 0 = true → k.val ≠ 0 →
      x.state = .restoring ∨ (x.state = .fenced ∧ (a.val = 15 ∨ x.cause ≠ 7)) →
      (premarked (premarks s k) k = true → ∃ t, exec (.isControlRelease a k) s = .next t ∧
        isl t k = { x with state := .running, epoch := x.epoch + 1, resetCmd := none, marked := [] } ∧
        others t) ∧
      (premarked (premarks s k) k = false →
        exec (.isControlRelease a k) s = .next (premarks s k))) ∧
    (fwAgent a = true → running s 0 = false ∨ k.val = 0 ∨ x.state = .held ∨ x.state = .inReset ∨
        x.state = .running ∨ (x.state = .fenced ∧ a.val = 2 ∧ x.cause = 7) →
      exec (.isControlRelease a k) s = .next s) ∧
    (x.state = .fenced → x.cause = 7 → k.val ≠ 0 ∨ s.sys.reloading = false →
      ∃ t, exec (.jtagFenceRelease k) s = .next t ∧
        isl t k = { x with state := .running, epoch := x.epoch + 1, resetCmd := none, marked := [] } ∧
        others t) ∧
    (x.state = .fenced → x.cause = 7 → k.val = 0 → s.sys.reloading = true →
      ∃ t, exec (.jtagFenceRelease k) s = .next t ∧ isl t k = { x with state := .restoring } ∧
        others t ∧ { t with islands := s.islands } = s) ∧
    (x.state ≠ .fenced ∨ x.cause ≠ 7 → exec (.jtagFenceRelease k) s = .next s)

/-- R264 to R267, R282, R774: a droop of 30 mV begins a stretch, which is counted as it ends and
reported where it is long; a reading above 150 °C slows the island, and THERM_N follows the
readings. The island that a record names, and whole microseconds, are the model's choice (log entry
41). -/
def Obligations.DroopsAndTemperaturesAreAnswered : Prop :=
  ∀ (k : Fin 16) (depth : BitVec 8) (temp : BitVec 11) (s : State),
    let x := isl s k
    let own := decide (k.val < 10 ∨ k.val = 15)
    let read := updIsl s k (fun x => { x with temp := temp })
    let hot := decide (∃ j : Fin 16, 290 ≤ (isl read j).temp.toInt)
    let cool := decide (∀ j : Fin 16, (isl read j).temp.toInt < 280)
    let level := if hot then false else if cool then true else s.pins.thermN
    let noted : State := if level = s.pins.thermN then read
      else { read with pins := { s.pins with thermN := level }, out := s.out ++ [.therm level] }
    (own → 30 ≤ depth.toNat → exec (.droopDetected k depth) s = .next (updIsl s k (fun x => { x with
      depthMv := if x.depthMv < depth then depth else x.depthMv, stretch := true,
      stretchStart := if x.stretch then x.stretchStart else s.tick,
      stretchMark := if x.stretch then x.stretchMark else s.tick,
      droopCount := if x.stretch then x.droopCount else satAdd x.droopCount 1 }))) ∧
    (own = false ∨ depth.toNat < 30 → exec (.droopDetected k depth) s = .next s) ∧
    (x.stretch = true → exec (.stretchEnd k) s = .next (updIsl s k (fun x => { x with
      stretch := false, stretchUs := satAdd x.stretchUs (ticksSince s x.stretchMark / 50) }))) ∧
    (x.stretch = true → exec (.stretchLong k) s =
      .next (loopWarning (atTick s (x.stretchStart.toNat + 50000)) k 0xF k 7)) ∧
    exec (.thermN k temp) s = .next noted ∧
    (300 < temp.toInt → exec (.tempHigh k temp) s = .next (loopWarning
      (if own then updIsl noted k (fun x => { x with k := 8 }) else noted) k 1 k 8))

/-- R269 to R273: a step of the voltage loop of a rail, and a step of an
island's frequency loop. Where the spec leaves the loops open, the model's choice is log entry 41.
-/
def Obligations.VoltageAndFrequencyLoopsStep : Prop :=
  ∀ (rail : Fin 2) (margins : List Int) (settled held : Bool) (needMv : Nat) (k : Fin 16) (m : Int)
    (s : State),
    let volts (n : Nat) : Nat := if (railOf s n).setMv ≠ 0 then (railOf s n).setMv.toNat
      else if (railOf s n).readMv ≠ 0 then (railOf s n).readMv.toNat else 750
    let now := volts rail
    let fed := if rail.val = 0 then [0, 1, 2, 3, 4] else [5, 6, 7, 8, 9, 10, 11, 12, 13, 14, 15]
    let cap := railCap (takeCaps s rail) rail
    let ceil := if rail.val = 1 then min 900 (max cap needMv) else cap
    let need := if rail.val = 1 then needMv else 0
    let next := if ceil < now then max ceil (now - 5)
      else if margins.any (fun p => decide (p < 50)) then min ceil (now + 5)
      else if settled && margins.all (fun p => decide (120 < p)) then max (max 650 need) (now - 5)
      else now
    let field (m : Int) : BitVec 8 := BitVec.ofInt 8 (max (-128) (min 127 m))
    let x := isl s k
    let own : Nat := if k.val < 5 then 0 else 1
    ((railOf s rail).loopRun = true → running s islPI = true → margins.length = fed.length →
      (avsOf s rail).op = none → 650 ≤ next → next ≤ 900 →
      ∃ t, exec (.voltageLoopStep rail margins settled needMv) s = .next t ∧
        (next = now → t.pi = s.pi ∧ t.out = s.out) ∧
        (next ≠ now → (avsOf t rail).op = some (1, next) ∧ t.out = s.out ++ [.avs rail 1 next]) ∧
        (railOf t rail).ceilMv = BitVec.ofNat 10 ceil ∧ (railOf t rail).setMv = (railOf s rail).setMv ∧
        ∀ p ∈ fed.zip margins, (isl t p.1).worstPs = field p.2) ∧
    ((railOf s rail).loopRun = false ∨ running s islPI = false →
      exec (.voltageLoopStep rail margins settled needMv) s = .next s) ∧
    (∃ t, exec (.frequencyLoopStep k m held) s = .next t ∧ (isl t k).worstPs = field m ∧
      (k.val < 10 ∨ k.val = 15 → held = true → running s k = true →
        (m < 30 → 8 < x.k.toNat → (railOf s own).ceilMv.toNat ≤ volts own → (isl t k).k = x.k - 1) ∧
        (80 < m → x.k.toNat < 16 → x.temp.toInt ≤ 300 → (isl t k).k = x.k + 1)) ∧
      (held = false ∨ running s k = false ∨ (10 ≤ k.val ∧ k.val ≠ 15) ∨ (30 ≤ m ∧ m ≤ 80) →
        (isl t k).k = x.k) ∧
      ∀ j, j ≠ k.val → isl t j = isl s j)

/-! ### Scenes and the beam (chapters 07 and 08) -/

/-- R247, R290, R293 to R295, R297, R298, R303, R307, R364: a raster write of a register or of
TP_SC_REDRAW takes the effect line that the beam line and the writer's TP_WHEN give it, and rolls
the scene back from there; a write to TP_SC_FLIP waits for the next frame. -/
def Obligations.RasterWritesAndFlipsReachTheirScene : Prop :=
  ∀ (a : Agent) (i : Fin 2048) (reg : Fin 256) (v mask : Word) (start : Dword) (c : Scene)
    (n b : Nat) (s : State),
    let w := whenOf s a
    let line := w.line.toNat
    let next : Nat := n * c.total + b + 1
    let late := w.en && !w.nextFrame && decide (line ≤ b)
    let place : Nat :=
      if !w.en then next
      else if w.nextFrame then (n + 1) * c.total + line
      else if b < line then n * c.total + line else next
    let back (c : Scene) (e : Nat) : Scene := { c with
      lines := c.lines.filter (fun r => r.at c < e), ltStop := c.ltStop.filter (fun k => k.1 < e),
      cntRollback := satAdd c.cntRollback (c.lines.filter (fun r => e ≤ r.at c)).length }
    let seen : Scene := { c with lastAgent := BitVec.ofNat 4 a }
    let raster (reg : Option Nat) (v : Word) : Scene :=
      if w.en && decide (c.total ≤ line) then { seen with wrDrop := true }
      else
        let d : Scene := if late then { seen with late := true, cntLate := satAdd c.cntLate 1 } else seen
        if 64 ≤ c.writes.length then { d with wrDrop := true, wrDropped := c.wrDropped + 1 }
        else back { d with writes := c.writes ++
          [{ frame := place / c.total, line := place % c.total, reg := reg, val := v }] } place
    let at' : Nat := 0x20100000 + 0x400 * i.val
    leMask reg = some mask →
      (agentOut s a = false → exec (.rasterWrite a i reg v) s = .next s ∧
        exec (.tpScRedraw a i) s = .next s ∧ exec (.tpScFlip a i) s = .next s) ∧
      (agentOut s a = true → scriptAgent a = false →
        exec (.rasterWrite a i reg v) s = .next (emit s (.error a .unmapped))) ∧
      (agentOut s a = true → scriptAgent a = true → running s islTP = false →
        exec (.rasterWrite a i reg v) s =
          .next (errTo s a (at' + 4 * reg.val) false true .fenced) ∧
        exec (.tpScRedraw a i) s = .next (errTo s a (at' + 0x38) false true .fenced) ∧
        exec (.tpScFlip a i) s = .next (errTo s a (at' + 0x208) false true .fenced)) ∧
      (agentOut s a = true → scriptAgent a = true → running s islTP = true →
        (sceneOf s i = none → exec (.rasterWrite a i reg v) s = .next s) ∧
        (sceneOf s i = some c → c.start = some start → b < c.total →
          c.tickOf n b ≤ s.tick.toNat → s.tick.toNat < c.tickOf n (b + 1) →
          exec (.rasterWrite a i reg v) s = .next (setScene s i (raster (some reg) (v &&& mask))) ∧
          exec (.tpScRedraw a i) s = .next (setScene s i (raster none 0)) ∧
          exec (.tpScFlip a i) s = .next (setScene s i (back { c with
            latches := c.latches ++ [.flip (n + 1) c.shadow c.flipFence c.flipValue] }
            ((n + 1) * c.total)))))

/-- R301, R304 to R306, R308, R309, R311, R319 to R321, R325, R332, R364, R365: the start of a
frame, the line that a pipe chooses to render, its commit or underrun, the start of blanking, the
comparators, the Deckhands' queues, and the balancer. Among pipes equally busy the balancer takes
the lowest in number, the model's choice (log entry 41). -/
def Obligations.FramesLinesAndEventsFollowTheBeam : Prop :=
  ∀ (i : Fin 2048) (start : Dword) (c : Scene) (s : State),
    let p := c.nextPos
    let l := p % c.total
    let due (t : Nat) : Dword := (atTick s t).tick
    let gives (c : Instr) (tick : Dword) (f : Scene → Prop) : Prop :=
      ∃ t d, exec c s = .next t ∧ t.tick = tick ∧ sceneOf t i = some d ∧ f d
    running s islTP = true → sceneOf s i = some c → c.start = some start →
      (gives (.frameStart i) (due (c.frameTick c.latched)) (fun d =>
        d.linetab = c.linetabFor c.latched ∧ d.active = c.activeFor c.latched ∧
        d.latches = c.latches.filter (fun x => c.latched < x.frame) ∧ d.latched = c.latched + 1)) ∧
      (∀ t k x, exec (.frameStart i) s = .next t → stationOf s k = some x → ∃ y, stationOf t k = some y ∧
        y.scene = (if ∃ m, m ≤ c.latched ∧ x.pendScene = some (i.val, m) then i.val else x.scene) ∧
        (∀ j m l, x.pendLut = some (j, m, l) → y.scene = i.val → j ≠ i.val ∨ m ≤ c.latched → y.lut = l) ∧
        (x.pendLut = none ∨ y.scene ≠ i.val → y.lut = x.lut)) ∧
      (∀ (pipe : Fin 8) (q : Nat), pipeChoice s pipe = some (i.val, q) →
        (∃ x, (i.val, x) ∈ s.tp.scenes ∧ x.pipe = pipe ∧ eligible s x = some q ∧
          (∀ b, x.beam s.tick.toNat = some b → x.pos b ≤ q ∧ q ≤ x.pos b + 32) ∧
          x.nextPos ≤ q ∧ (∀ r ∈ x.lines, r.at x ≠ q) ∧
          (∀ k e m, (k, e) ∈ s.tp.scenes → e.pipe = pipe → eligible s e = some m →
            x.commitTick q ≤ e.commitTick m ∧ (x.commitTick q = e.commitTick m → i.val ≤ k))) ∧
        (gives (.lineRender pipe) s.tick (fun d => ∃ r,
          d.lines = c.lines ++ [r] ∧ r.frame = q / c.total ∧ r.line = q % c.total))) ∧
      (∀ r, c.lines.find? (fun r => r.at c = p) = some r →
        gives (.lineCommit i) (due (c.commitTick p)) (fun d =>
          d.regs = r.regs ∧ d.laystat = c.laystat ||| r.lay ∧ d.coll = c.coll ||| r.coll ∧
          d.nextFrame = (p + 1) / c.total ∧ d.nextLine = (p + 1) % c.total ∧
          d.comm = pack [(0, l), (16, p / c.total % 65536)] ∧
          d.lines = c.lines.filter (fun r => p < r.at c) ∧ d.cntUr = c.cntUr)) ∧
      (c.lines.find? (fun r => r.at c = p) = none → l < c.height →
        gives (.lineCommit i) (due (c.commitTick p)) (fun d =>
          d.ur = true ∧ d.cntUr = satAdd c.cntUr 1 ∧ d.urFrame = some (p / c.total) ∧
          d.laystat = c.laystat ∧ d.coll = c.coll ∧ d.collValid = c.collValid ∧
          d.comm = pack [(0, l), (10, 1), (16, p / c.total % 65536)] ∧
          d.nextFrame = (p + 1) / c.total ∧ d.nextLine = (p + 1) % c.total)) ∧
      (gives (.sob i) (due (c.tickOf c.sobFrame c.height)) (fun d =>
        d.sobFrame = c.sobFrame + 1 ∧ d.signals = [] ∧ d.blockDue = false ∧
        d.pipe = c.moveTo.getD c.pipe ∧ d.moveTo = none ∧
        d.lines = (if c.moveTo.isSome then [] else c.lines) ∧ d.cntRollback = c.cntRollback ∧
        d.fdDue = (if c.fdDue = some c.sobFrame then none else c.fdDue))) ∧
      (∀ comp : Fin 4,
        let m := Tab.get {} c.lm comp
        let x := c.tickOf m.next m.line.toNat
        (m.en = false ∨ c.total ≤ m.line.toNat → exec (.lineMatch i comp) s = .next s) ∧
        (m.en = true → m.line.toNat < c.total → exec (.lineMatch i comp) s = .next (sceneEvent
          (setScene (atTick s x) i { c with lm := Tab.set {} c.lm comp { m with next := m.next + 1 } })
          i c 1 x m.next m.line.toNat comp))) ∧
      (∀ (a : Agent), 3 ≤ a.val → a.val ≤ 10 → agentOut s a = true →
        let q := Tab.get {} s.tp.evq (a.val - 3)
        (q.q = [] → exec (.tpEvq a) s = .next (emit s (.word a 0xFFFFFFFF))) ∧
        (∀ e x r, q.q = (e, x) :: r → ∃ t, exec (.tpEvq a) s = .next t ∧
          t.out.getLast? = some (.word a e) ∧ Tab.get {} t.tp.evq (a.val - 3) = { q with q := r })) ∧
      (∀ (busy : List Nat) (load : List (Nat × Nat)) (hi lo : Fin 8),
        let of (k : Nat) : Nat := busy.getD k 0
        let d := of hi - of lo
        let may (k : Nat) (e : Scene) : Prop :=
          e.pipe = hi ∧ e.pin = none ∧ e.moveTo = none ∧ 2 * Tab.get 0 load k ≤ d
        (∀ k : Fin 8, of k ≤ of hi ∧ (of k = of hi → hi ≤ k)) →
        (∀ k : Fin 8, of lo ≤ of k ∧ (of k = of lo → lo ≤ k)) →
          (s.tp.balRun = false ∨ d ≤ 1000 → ∃ t, exec (.balancerStep busy load) s = .next t ∧
            t.tp.scenes = s.tp.scenes ∧ t.tp.moves = s.tp.moves) ∧
          (s.tp.balRun = true → 1000 < d → may i c →
            (∀ k e, k ≠ i.val → (k, e) ∈ s.tp.scenes → may k e → Tab.get 0 load k < Tab.get 0 load i) →
            ∃ t, exec (.balancerStep busy load) s = .next t ∧ t.tp.moves = satAdd s.tp.moves 1 ∧
              sceneOf t i = some { c with moveTo := some lo.val } ∧
              ∀ k, k ≠ i.val → sceneOf t k = sceneOf s k))

/-! ### The blitter (chapter 09) -/

/-- R384 to R386, R401, R387, R389: a kick and a poll read PROD of the BLIT moorings, and a start
takes the next entry in round-robin order and decides, before any pixel, whether its runs are to be
done. -/
def Obligations.TheBlitterFindsAndOpensEntries : Prop :=
  ∀ (a : Agent) (k : Fin 16384) (s : State),
    let l := bltMoorings s
    let order := l.filter (fun i => s.tp.blt.last < i) ++ l.filter (fun i => i ≤ s.tp.blt.last)
    (agentOut s a = false → exec (.tpBltKick a k) s = .next s) ∧
    (agentOut s a = true → scriptAgent a = false →
      exec (.tpBltKick a k) s = .next (emit s (.error a .unmapped))) ∧
    (agentOut s a = true → scriptAgent a = true → running s islTP = false →
      exec (.tpBltKick a k) s = .next (errTo s a 0x20000200 false true .fenced)) ∧
    (running s islTP = false → exec .blitPoll s = .next s ∧ exec .blitStart s = .next s) ∧
    (running s islTP = true →
      (∀ m u w, agentOut s a = true → scriptAgent a = true →
        Tab.find? s.fw.moorings k = some m → m.kind = 1 →
        readWord s 12 m.cb = (u, some w) →
        exec (.tpBltKick a k) s = .next (onBlt u (fun b => { b with seen := Tab.put b.seen k w }))) ∧
      ((∀ d, (dwTag s d).vote = false ∧ dwSynd s d = 0) → (∀ n : Fin 4, running s (islBank n) = true) →
        ∃ t, exec .blitPoll s = .next t ∧ t.basin.bytes = s.basin.bytes ∧
          ∀ i m, Tab.find? s.fw.moorings i = some m → m.kind = 1 → Tab.get 0 t.tp.blt.seen i =
            leWord ((List.range 4).map (fun j => Memory.byte s.basin.bytes (m.cb + j)))) ∧
      (s.tp.blt.cur.isSome → exec .blitStart s = .next s) ∧
      (∀ u, s.tp.blt.cur = none → nextBlt s order = (u, none) → exec .blitStart s = .next u) ∧
      (∀ u i m c v e, s.tp.blt.cur = none → nextBlt s order = (u, some (i, m, c)) →
        readMem (onBlt u (fun b => { b with last := i })) 12 (m.entry c) 16 = (v, .ok e) →
        let w (k : Nat) : Word := leWord (e.drop (4 * k))
        let at' := (w 1).toNat
        (fld (w 0) 24 8 = 0xFF → exec .blitStart s = .next (bltAdvance v 12 i m c)) ∧
        (fld (w 0) 24 8 ≠ 0xFF → ∃ t b, exec .blitStart s = .next t ∧ t.tp.blt.cur = some b ∧
          t.tp.blt.last = i ∧ b.moor = i ∧ b.cons = c ∧ b.entry = [w 0, w 1, w 2, w 3] ∧
          (at' % 64 ≠ 0 ∨ pageLive s (at' / 65536) = false →
            b.unread = true ∧ b.result = some 0 ∧ t.basin = v.basin) ∧
          (at' % 64 = 0 → pageLive s (at' / 65536) = true → b.unread = false ∧
            ∀ x d, readMem v 12 at' 64 = (x, .ok d) →
              b.desc = (List.range 16).map (fun k => leWord (d.drop (4 * k))) ∧
              b.result = (if b.valid = false then some 1
                else if b.pagesOk s = false then some 2 else none)))))

/-- R390, R388, R393, R394, R402: the end of a blit counts it, signals its fence, and, where no
doubleword of Basin has an error, every bank runs and no injection is armed, writes STATUS, advances
CONS, and stores to no byte beside these but those of the clipped rectangle's rows, each of which
FILL leaves at FG. -/
def Obligations.ABlitStoresToItsRectangleAndCompletes : Prop :=
  ∀ (b : Blit) (s : State),
    let byte (s : State) (x : Nat) : Byte := Memory.byte s.basin.bytes x
    let word (s : State) (x : Nat) : Word := leWord ((List.range 4).map (fun j => byte s (x + j)))
    let runs := b.result.isNone && !b.empty
    let at' := (b.entry.getD 1 0).toNat + 0x30
    let fence := b.entry.getD 2 0
    let row (j : Nat) : Nat := (b.dst.span b.dx (b.dy + j) b.w).1
    let pixel (x : Nat) : Prop := runs = true ∧ ∃ j < b.h, row j ≤ x ∧ x < row j + b.w * b.dst.size
    let status (x : Nat) : Prop := b.unread = false ∧ at' ≤ x ∧ x < at' + 8
    let cons (x : Nat) : Prop := ∃ m, Tab.find? s.fw.moorings b.moor = some m ∧ m.cb + 4 ≤ x ∧ x < m.cb + 8
    let r := b.result.getD 0
    let clipped := b.clipped && (b.result.isNone || decide (r = 2))
    (s.tp.blt.cur = none → exec .blitComplete s = .next s) ∧
    (s.tp.blt.cur = some b → running s islTP = true → ∃ t, exec .blitComplete s = .next t ∧
      t.tp.blt.cur = none ∧ t.tp.blt.blits = satAdd s.tp.blt.blits 1 ∧
      t.tp.blt.descErr = (s.tp.blt.descErr || b.unread) ∧
      t.tp.blt.fenceBad = (s.tp.blt.fenceBad || (decide (fence ≠ 0) && (fenceIndex s fence).isNone)) ∧
      (∀ k x, fence ≠ 0 → fenceIndex s fence = some k → Tab.find? s.fw.fences k = some x →
        Tab.find? t.fw.fences k = some { x with signalled := true, value := b.entry.getD 3 0 }) ∧
      ((∀ d, (dwTag s d).vote = false ∧ dwSynd s d = 0) →
        (∀ n : Fin 4, running s (islBank n) = true ∧ (bankRegs s n).arm = false) →
        (∀ x, ¬ pixel x → ¬ status x → ¬ cons x → byte t x = byte s x) ∧
        (t.tp.blt.results = if r = 0 then s.tp.blt.results else setBit s.tp.blt.results r true) ∧
        (b.unread = false → (∀ x, status x → ¬ cons x) →
          word t at' = statusWord r clipped (if runs then b.h else 0) ∧ word t (at' + 4) = 0) ∧
        (∀ m, Tab.find? s.fw.moorings b.moor = some m → (∀ x, cons x → ¬ pixel x ∧ ¬ status x) →
          word t (m.cb + 4) = b.cons + 1) ∧
        (b.op = 1 → b.dst.valid = true → b.dst.fmt ≤ 2 →
          ∀ x, pixel x → ¬ status x → ¬ cons x →
            byte t x = (leBytes b.dst.size (b.word 9).toNat).getD ((x - b.dst.base) % b.dst.size) 0)))

/-! ### Region push and the pit panel (chapter 10) -/

/-- R421, R424, R427 to R429: pieces that were not acknowledged in time are lost and owed again, a
refresh owes a receiver its whole window, and the panel's start-up and tearing waits end. That the
first unsent piece goes first is the model's choice (log entry 24). -/
def Obligations.PiecesAreOwedLostAndSentToThePanel : Prop :=
  ∀ (a : Agent) (k : Fin 2048) (s : State),
    let old := recvOf s k
    let late := old.pieces.filter (pieceLate s)
    let p := s.tp.panel
    let free := running s islTP && running s islPI && !p.busy && !(sqOf s 1).busy
    let put (q : Panel) : State := { s with tp := { s.tp with panel := q } }
    let sent (q : Panel) (b : Byte) (l : List Byte) : State :=
      emit (updSq (put { q with busy := true, await := none }) 1 (fun q => { q with
        busy := true, held := true, panel := panelSegs p.variant [(b, l)] })) (.panel (b :: l))
    (∃ t, exec (.pieceAckTimeout k) s = .next t ∧
      (recvOf t k).pieces = old.pieces.filter (fun q => !pieceLate s q) ∧
      (recvOf t k).lost = satAdd old.lost late.length ∧ (recvOf t k).sent = old.sent ∧
      old.owed &&& (recvOf t k).owed = old.owed ∧
      (∀ q j c, q ∈ late → recvScene s k = some j → sceneOf s j = some c →
        let m := patchesIn c (({ x := q.x, y := q.y, w := q.w, h := q.h } : Rect).meet (window s k c))
        m &&& (recvOf t k).owed = m) ∧
      (∀ j, j ≠ k.val → recvOf t j = recvOf s j)) ∧
    (agentOut s a = false →
      exec (.tpStRefresh a k) s = .next s ∧ exec (.tpPnlRefresh a) s = .next s) ∧
    (agentOut s a = true → scriptAgent a = false →
      exec (.tpStRefresh a k) s = .next (emit s (.error a .unmapped)) ∧
      exec (.tpPnlRefresh a) s = .next (emit s (.error a .unmapped))) ∧
    (agentOut s a = true → scriptAgent a = true → running s islTP = false →
      exec (.tpStRefresh a k) s =
        .next (errTo s a (0x2040000C + 0x20 * k.val) false true .fenced) ∧
      exec (.tpPnlRefresh a) s = .next (errTo s a 0x20000608 false true .fenced)) ∧
    (agentOut s a = true → scriptAgent a = true → running s islTP = true →
      (∀ x c, stationOf s k = some x → sceneOf s x.scene = some c →
        exec (.tpStRefresh a k) s = .next (updRecv s k (fun v => { v with
          owed := patchesIn c ⟨0, 0, min c.width x.panelW, min c.height x.panelH⟩ }))) ∧
      (stationOf s k = none → exec (.tpStRefresh a k) s = .next s) ∧
      (∀ i c, p.scene = some i → sceneOf s i = some c →
        exec (.tpPnlRefresh a) s = .next (put { p with recv := { p.recv with
          owed := patchesIn c ⟨p.offX, p.offY, min c.width (p.offX + p.w) - p.offX,
            min c.height (p.offY + p.h) - p.offY⟩ } })) ∧
      (p.scene = none → exec (.tpPnlRefresh a) s = .next s)) ∧
    (p.step = .wait →
      (free = true → panelAwaits s = false →
        exec .panelInitWait s = .next (sent { p with step := .pixelFormat } 0x3A [0x55])) ∧
      (free = false ∨ panelAwaits s = true →
        exec .panelInitWait s = .next (put { p with step := .pixelFormat }))) ∧
    (p.step ≠ .wait → exec .panelInitWait s = .next s) ∧
    (free = false → exec .teEdge s = .next (put { p with teWait := false })) ∧
    (p.teWait = false → exec .teTimeout s = .next s) ∧
    (p.teWait = true → free = false →
      exec .teTimeout s = .next (put { p with teWait := false, teMiss := true })) ∧
    (∀ q u pix, p.step = .on → free = true → p.recv.pieces.find? (fun q => q.sent.isNone) = some q →
      pieceLines q.scene q q.h (put { p with teWait := false }) q.y = (u, some pix) →
      ∃ t, exec .teEdge s = .next t ∧ t.tp.panel.teWait = false ∧ t.tp.panel.busy = true ∧
        (sqOf t 1).busy = true ∧ (sqOf t 1).held = true ∧
        t.out = s.out ++ [.panel ([0x2A] ++ beBytes 2 (q.x - p.offX) ++ beBytes 2 (q.x - p.offX + q.w - 1)
          ++ [0x2B] ++ beBytes 2 (q.y - p.offY) ++ beBytes 2 (q.y - p.offY + q.h - 1) ++ [0x2C]
          ++ formatRun 0 [] pix)] ∧
        t.tp.panel.recv.pieces =
          p.recv.pieces.map (fun x => if x = q then { q with sent := some (cycleNo s) } else x))

/-! ### Chervil (chapter 11) -/

/-- R437, R439 to R441, R447 to R452, R456, R463, R466: key writes wait for a sample, a sample of
every voice and mix is computed at its tick, a block boundary starts the ramps of what changed
before it, and a block is made available or is late at E(k), when the older blocks that a frame could
have carried are dropped; while CV is fenced the ports send zeros. The order inside one sample, and
that a port is shown a block at a time, are the model's reading (log entry 33). -/
def Obligations.VoicesAndMixesFollowTheSampleGrid : Prop :=
  ∀ (a : Agent) (v : Fin 512) (keep : Bool) (x : Voice) (s : State),
    let n := s.cv.sample
    let due (t : Nat) : Dword := (atTick s t).tick
    let reg : Nat := 0x21000000 + 0x20 * v.val
    (agentOut s a = false →
      exec (.keyOn a v keep) s = .next s ∧ exec (.keyOff a v) s = .next s) ∧
    (agentOut s a = true → scriptAgent a = false →
      exec (.keyOn a v keep) s = .next (emit s (.error a .unmapped)) ∧
      exec (.keyOff a v) s = .next (emit s (.error a .unmapped))) ∧
    (agentOut s a = true → scriptAgent a = true → running s islCV = false →
      exec (.keyOn a v keep) s = .next (errTo s a reg false true .fenced) ∧
      exec (.keyOff a v) s = .next (errTo s a reg false true .fenced)) ∧
    (agentOut s a = true → scriptAgent a = true → running s islCV = true → voiceOf s v = some x →
      exec (.keyOn a v keep) s =
        .next (setVoice s v { x with writes := x.writes ++ [(s.tick.toNat, .keyOn keep)] }) ∧
      exec (.keyOff a v) s =
        .next (setVoice s v { x with writes := x.writes ++ [(s.tick.toNat, .keyOff)] })) ∧
    (cvRuns s = false → exec .sampleTick s = .next s ∧ exec .blockBoundary s = .next s) ∧
    (s.sys.mode.toNat < 2 → ∀ late, exec (.blockAvailable late) s = .next s) ∧
    (2 ≤ s.sys.mode.toNat → running s islCV = false → ∀ late, ∃ t l,
      exec (.blockAvailable late) s = .next t ∧ t.out = s.out ++ l ∧
      t = { s with tick := due (s.cv.avail * 50000 + 55000), out := t.out,
                   cv := { s.cv with avail := s.cv.avail + 1 } } ∧
      ∀ k, k = 0 ∨ k = 1 → (Tab.get {} s.cv.ports k).enable = true →
        ∃ q w, .audio k q w ∈ l ∧ ∀ b ∈ w, b.sd = false) ∧
    (cvRuns s = true →
      (∃ t, exec .sampleTick s = .next t ∧ t.tick = due (3125 * n) ∧ t.cv.sample = n + 1) ∧
      (s.cv.bound * 16 ≠ n → exec .blockBoundary s = .next s) ∧
      (s.cv.bound * 16 = n → ∃ t, exec .blockBoundary s = .next t ∧ t.tick = due (s.cv.bound * 50000) ∧
        t.cv.bound = s.cv.bound + 1 ∧ t.cv.sample = n ∧
        (∀ m y, mixOf s m = some y → ∃ z, mixOf t m = some z ∧ z.samples = [] ∧
          (y.next = [] → z.gainNow = y.gainNow ∧ z.gainFrom = none ∧ z.parNow = y.parNow ∧ z.parFrom = none) ∧
          (∀ b g p, y.next = [(b, g, p)] → b < s.cv.bound * 50000 → z.gainNow = g ∧ z.parNow = p ∧
            z.gainFrom = (if g = y.gainNow then none else some y.gainNow) ∧
            z.parFrom = (if p = y.parNow then none else some y.parNow) ∧ z.next = []) ∧
          (∀ b g p, y.next = [(b, g, p)] → s.cv.bound * 50000 ≤ b →
            z.gainNow = y.gainNow ∧ z.parNow = y.parNow ∧ z.next = y.next)) ∧
        (∀ h, voiceOf s v = some x → s.cv.keyOffDue = some h → h < s.cv.bound * 50000 →
          t.cv.keyOffDue = none ∧ ∃ y, voiceOf t v = some y ∧
            y.phase = (if x.phase = 0 then 0 else 4))) ∧
      (∀ late, let k := s.cv.avail
        ∃ t, exec (.blockAvailable late) s = .next t ∧ t.tick = due (k * 50000 + 55000) ∧
          t.cv.avail = k + 1 ∧ t.cv.block = BitVec.ofNat 16 k ∧
          (∀ m y, mixOf s m = some y → k < y.first → mixOf t m = some y) ∧
          (∀ m y st b, mixOf s m = some y → y.station = some st → y.first ≤ k →
            late.contains m = false →
            (y.done.find? (fun q => q.1 = k)) = some (k, b) → ∃ z, mixOf t m = some z ∧
              z.blocks = y.blocks.filter (fun q => s.tl.cyc.tick.toNat < q.1 * 50000 + 55000)
                ++ [(k, b)] ∧
              z.done = y.done.filter (fun q => k < q.1)) ∧
          (∀ m y st, mixOf s m = some y → y.station = some st → y.first ≤ k →
            late.contains m = true ∨ (y.done.find? (fun q => q.1 = k)) = none →
            t.cv.overrun = true ∧ ∃ z, mixOf t m = some z ∧ z.blocks = y.blocks)))

/-- R439 to R441, R446 to R449: one sample of one voice: the value that its generator, AMP and the
envelope give, its advance, and the envelope's next level. That the value is taken before the
advance is the model's reading (log entry 33). -/
def Obligations.AVoiceSoundsItsGeneratorUnderItsEnvelope : Prop :=
  ∀ (n v : Nat) (x : Voice) (s : State),
    let u := (voiceSample s n v).1
    let val := (voiceSample s n v).2
    let l := x.level.toNat
    let carry := 2 ^ 24 ≤ x.acc.toNat + x.freq.toNat
    let step (c : Byte) : Nat := if c = 0 then 65535 else 1024 / c.toNat
    let gen : Int :=
      if x.kind = 0 then (if x.acc.toNat / 2 ^ 20 ≤ x.duty.toNat then 32767 else -32767)
      else if x.kind = 1 then (if x.acc.toNat / 256 < 32768 then 2 * (x.acc.toNat / 256 : Nat) - 32768
        else 98303 - 2 * (x.acc.toNat / 256 : Nat))
      else if x.lfsr.getLsbD 0 then -32767 else 32767
    (voiceOf s v = none → u = s ∧ val = 0) ∧
    (voiceOf s v = some x → x.kind < 3 → (∀ w ∈ x.writes, 3125 * n ≤ w.1) →
      val = (if x.phase = 0 then 0 else gen * x.amp.toNat / 65536 * l / 65536) ∧
      ∃ y, voiceOf u v = some y ∧ y.acc = x.acc + x.freq ∧ y.writes = x.writes ∧
        (carry → y.lfsr = setBit (x.lfsr >>> 1) 14
          (x.lfsr.getLsbD 0 ^^ x.lfsr.getLsbD (if x.short then 6 else 1))) ∧
        (¬ carry → y.lfsr = x.lfsr) ∧
        (x.phase = 0 ∨ x.phase = 3 → y.level = x.level ∧ y.phase = x.phase ∧ y.ended = x.ended) ∧
        (x.phase = 1 → y.level.toNat = min 65535 (l + step x.attack) ∧ y.ended = x.ended ∧
          y.phase = (if y.level.toNat = 65535 then 2 else 1)) ∧
        (x.phase = 2 → y.level.toNat = max (x.sustain.toNat * 257) (l - step x.decay) ∧
          y.ended = x.ended ∧ y.phase = (if y.level.toNat = x.sustain.toNat * 257 then 3 else 2)) ∧
        (x.phase = 4 → y.level.toNat = l - step x.release ∧
          y.phase = (if y.level = 0 then 0 else 4) ∧ y.ended = (x.ended || decide (y.level = 0)) ∧
          u.cv.endedCount = (if y.level = 0 then satAdd s.cv.endedCount 1 else s.cv.endedCount))) ∧
    (voiceOf s v = some x → x.kind < 3 → ∀ w keep, x.writes = [(w, .keyOn keep)] → w < 3125 * n →
      ∃ y, voiceOf u v = some y ∧ y.writes = [] ∧ y.acc = (if keep then x.acc else 0) + x.freq ∧
        y.level.toNat = min 65535 (l + step x.attack)) ∧
    (voiceOf s v = some x → x.kind < 3 → x.phase ≠ 0 → ∀ w, x.writes = [(w, .keyOff)] → w < 3125 * n →
      ∃ y, voiceOf u v = some y ∧ y.writes = [] ∧ y.level.toNat = l - step x.release)

/-! ### The lanes (chapter 12) -/

/-- R476 to R478, R481 to R484, R486, R510, R511: modules, diagnostics and equalisers. What changes
an input of a lane's state lets the lane take its state up (`laneSettle`). The layout of the
module's pages is presumed (log entry 22), and where in Basin the taps are saved is the model's
choice (log entry 59). -/
def Obligations.ModulesAndEqualisersChangeTheirLane : Prop :=
  ∀ (l : Fin 8) (p : List Byte) (eye : Byte) (ctle : Int) (taps : List Int) (s : State),
    let x := laneOf s l
    let is (i : Instr) (y : Lane) : Prop := ∃ t, exec i s = .next t ∧
      t = { s with tl := { s.tl with lanes := t.tl.lanes } } ∧ laneOf t l = y ∧
      ∀ k, k ≠ l.val → laneOf t k = laneOf s k
    let settles (i : Instr) (y : Lane) : Prop := exec i s = .next (laneSettle (updLane s l (fun _ => y)) l)
    let failed : Lane := { x with i2cFails := x.i2cFails + 1, i2cErr := x.i2cErr || decide (2 ≤ x.i2cFails) }
    let ok : Lane := { x with i2cFails := 0, i2cErr := false }
    let kind := moduleKind p
    let copper := pb p 18
    let fresh : Eq :=
      if kind ≤ 2 then { pre := 0, main := 40, post := 0, ctle := 8, taps := [0, 0, 0, 0, 0] }
      else if copper ≤ 3 then { pre := 0, main := 36, post := 2, ctle := 8, taps := [0, 0, 0, 0, 0] }
      else { pre := 1, main := 32, post := 4, ctle := 8, taps := [0, 0, 0, 0, 0] }
    let cl (lo hi v : Int) : Int := max lo (min hi v)
    let low := if eye.toNat < 48 then x.lowMs + 1 else 0
    let high := if 64 < eye.toNat then x.highMs + 1 else 0
    let warn := !x.degraded && decide (100 ≤ low)
    let word (s : State) (a : Nat) : Word :=
      leWord ((List.range 4).map (fun j => Memory.byte s.basin.bytes (a + j)))
    let taps' (k : Nat) : Nat := 0x003C0000 + 16 * k
    settles (.moduleInserted l) { x with present := true, read := false, kind := 0 } ∧
    settles (.moduleRemoved l)
      { x with present := false, read := false, kind := 0, ddm := false, lengthM := 0 } ∧
    settles (.rxLosChange l true) { x with los := true } ∧
    settles (.rxLosChange l false) { x with los := false } ∧
    settles (.txFault l) { x with faultIn := true, faulted := true } ∧
    settles (.txFaultCleared l) { x with faultIn := false, faulted := false } ∧
    (fwRuns s = true → x.faulted = true → exec (.txFaultPulse l) s = .next (emit s (.txPulse l))) ∧
    (fwRuns s = false ∨ x.faulted = false → exec (.txFaultPulse l) s = .next s) ∧
    (fwRuns s = true → running s islPI = true → x.present = true →
      settles (.moduleRead l none) failed ∧
      settles (.moduleRead l (some p)) { ok with
        read := true, kind := kind, ddm := (p.getD 92 0).getLsbD 6,
        lengthM := if 3 ≤ kind then p.getD 18 0 else 0,
        eq := if kind = 0 ∨ x.freeze = true then x.eq else fresh }) ∧
    (fwRuns s = true → running s islPI = true → x.present = true → x.read = true → x.ddm = true →
      is (.ddmPoll l none) failed ∧
      ∃ al, is (.ddmPoll l (some p)) { ok with
        temp := BitVec.ofNat 16 (pw p 96), vcc := BitVec.ofNat 16 (pw p 98),
        txPower := BitVec.ofNat 16 (pw p 102), rxPower := BitVec.ofNat 16 (pw p 104), alarms := al } ∧
        ∀ q < 5, al.getLsbD q = alarm p q (pw p (96 + 2 * q))) ∧
    (fwRuns s = false ∨ running s islPI = false ∨ x.present = false →
      exec (.moduleRead l (some p)) s = .next s ∧ exec (.ddmPoll l (some p)) s = .next s) ∧
    (taps.length = 5 → (ctle :: taps).all (fun d => decide (-1 ≤ d) && decide (d ≤ 1)) = true →
      (laneRuns s l = true → x.blockLock = true → x.freeze = false →
        is (.eqAdaptStep l ctle taps) { x with eq := { x.eq with
          ctle := BitVec.ofInt 4 (cl 0 15 (x.eq.ctle.toNat + ctle)),
          taps := (x.eq.taps.zip taps).map (fun q => BitVec.ofInt 6 (cl (-31) 31 (q.1.toInt + q.2))) } }) ∧
      (laneRuns s l = false ∨ x.blockLock = false ∨ x.freeze = true →
        exec (.eqAdaptStep l ctle taps) s = .next s)) ∧
    (laneRuns s l = true → x.freeze = true → ∃ y, is (.txPostTrial l) y ∧ y.eq = x.eq ∧ y.trial.test = none) ∧
    (laneRuns s l = true → x.freeze = false → x.aligned = true → x.partnerEye ≠ 0 →
      let kept : BitVec 4 := match x.trial.test with
        | none => x.eq.post
        | some (old, sum, n) =>
          if 0 < n ∧ 0 < x.trial.n ∧ sum * x.trial.n + 2 * n * x.trial.n ≤ x.trial.sum * n then x.eq.post
          else old
      ∃ y, is (.txPostTrial l) y ∧ y.eq = { x.eq with post := y.eq.post } ∧
        y.eq.post.toNat = (if x.trial.up then kept.toNat - 1 else min 15 (kept.toNat + 1)) ∧
        y.trial = { up := !x.trial.up, test := some (kept, x.trial.sum, x.trial.n) }) ∧
    (laneRuns s l = true → ∃ t, exec (.eyeMeasure l eye) s = .next t ∧
      laneOf t l = { x with
        eye := eye, minEye := if eye.toNat < x.minEye.toNat then eye else x.minEye, lowMs := low,
        highMs := high, degraded := warn || (x.degraded && decide (high < 1000)) } ∧
      (warn = false → t.staging = s.staging) ∧
      (warn = true → s.staging.length < 1024 → ∃ r, t.staging = s.staging ++ [r] ∧ r.type = 0x0A ∧
        r.island.toNat = islLane l ∧ r.payload = pack [(0, 2), (4, l.val), (16, 2)])) ∧
    (fwRuns s = true → running s (islBank (bankOf 0x3C0000)) = true →
      (bankRegs s (bankOf 0x3C0000)).arm = false →
      ∃ t, exec .tapSave s = .next t ∧ t.tl = s.tl ∧
        (∀ k : Fin 8, laneRuns s k = true → (laneOf s k).freeze = false →
          let e := (laneOf s k).eq
          word t (taps' k) = pack [(0, e.pre.toNat), (8, e.main.toNat), (16, e.post.toNat)] ∧
          word t (taps' k + 4) = e.ctle.setWidth 32 ∧
          word t (taps' k + 8) = pack ((List.range 5).map (fun q => (6 * q, (e.taps.getD q 0).toNat))) ∧
          word t (taps' k + 12) = 1) ∧
        ∀ a, (∀ k : Fin 8, laneRuns s k = true → (laneOf s k).freeze = false →
          a < taps' k ∨ taps' k + 16 ≤ a) → Memory.byte t.basin.bytes a = Memory.byte s.basin.bytes a) ∧
    (∀ i : Fin 16, i.val = islLane l → (isl s i).state = .inReset → running s 0 = true →
      x.freeze = false → running s (islBank (bankOf 0x3C0000)) = true →
      (∀ d, (dwTag s d).vote = false ∧ dwSynd s d = 0) → word s (taps' l + 12) = 1 →
      ∃ t, exec (.islandResetDone i) s = .next t ∧
        (laneOf t l).eq = eqOf (word s (taps' l)) (word s (taps' l + 4)) (word s (taps' l + 8)))

/-- R474, R476, R479, R487 to R490, R492, R498, R501 to R504, R509: the state that a lane's inputs
give it and what a change of state does, block lock and hi_ber, which received frames are dropped and
counted, and alignment by two hits. The place of TEST in the order of states, and what a change of
state clears, are the model's reading (log entry 21), as are the order of a frame's checks and the
bytes of its FCS (log entry 59). -/
def Obligations.LanesTakeUpTheirStateAndAlign : Prop :=
  ∀ (l : Fin 8) (n : Nat) (f : RxFrame) (s : State),
    let x := laneOf s l
    let code : Nat :=
      if x.test ≠ 0 then 8 else if x.enable = false then 0 else if x.present = false ∨ x.read = false then 1
      else if x.kind = 0 then 2 else if x.faulted then 9 else if x.los then 3
      else if x.blockLock = false then 4 else if x.hiBer then 5 else if x.aligned then 7 else 6
    let dark := code = 0 || code = 1 || code = 2 || code = 9 || (x.present && x.read && decide (x.kind = 0))
    let silent := code = 0 || code = 1 || code = 3 || code = 8
    let settles (i : Instr) (y : Lane) : Prop := exec i s = .next (laneSettle (updLane s l (fun _ => y)) l)
    let gets (i : Instr) (y : Lane) : Prop := exec i s = .next (updLane s l (fun _ => y))
    let listens := laneRuns s l && x.enable && decide (x.test = 0)
    let opened := laneRuns s l && (decide (x.code = 6) || decide (x.code = 7))
    -- The frame: its fields, and the checks on it.
    let be (o k : Nat) : Nat := beNat ((f.bytes.drop o).take k)
    let len := f.bytes.length
    let whole : Prop := f.ended = true ∧ f.errBlocks = 0 ∧ 64 ≤ len ∧ len ≤ 9216 ∧
      f.bytes.drop (len - 4) = leBytes 4 (crc32 (f.bytes.take (len - 4))).toNat
    let here : Prop := (f.bytes.take 6 = beBytes 6 (s.otp.mac.toNat + l) ∨
      f.bytes.take 6 = [0x03, 0x56, 0x59, 0x00, 0x00, 0x00]) ∧ be 12 2 = 0x88B5
    let session : BitVec 16 := BitVec.ofNat 16 (be 26 2)
    let header : Prop := be 14 1 = 1 ∧ (be 15 1 = 1 ∨ be 15 1 = 3 ∨ be 15 1 = 6 ∨ be 15 1 = 8) ∧
      be 20 1 = 1 ∧ be 21 1 = 0 ∧ be 28 2 = 0 ∧ 34 + be 18 2 ≤ len ∧
      (be 16 2 = 0xFFFF ∨ be 16 2 / 256 = l.val)
    let cyc : Word := BitVec.ofNat 32 (be 22 4)
    let payload := (f.bytes.drop 30).take (be 18 2)
    let blocks : Prop := f.errBlocks ≠ 0 ∧ listens = true
    let struck : Lane := { x with cntErrBlk := x.cntErrBlk + BitVec.ofNat 32 f.errBlocks }
    let drops (i : Instr) : Prop :=
      (¬ whole → blocks → gets i { struck with cntFcs := x.cntFcs + 1 }) ∧
      (¬ whole → ¬ blocks → gets i { x with cntFcs := x.cntFcs + 1 }) ∧
      (whole → ¬ here → gets i { x with cntFilter := x.cntFilter + 1 }) ∧
      (whole → here → session ≠ x.session → gets i { x with cntSession := x.cntSession + 1 }) ∧
      (whole → here → session = x.session → ¬ header → gets i { x with cntHdr := x.cntHdr + 1 })
    let heard : Lane := { x with
      cntRx := x.cntRx + 1, cycleRx := cyc, partnerEye := payload.getD 0 0,
      partnerAligned := (payload.getD 1 0).getLsbD 0,
      trial := { x.trial with sum := x.trial.sum + (payload.getD 0 0).toNat, n := x.trial.n + 1 } }
    let gap (t : Dword) (k : Nat) : Int := (s.tick.toNat : Int) - t.toNat - k * s.tl.cyc.period
    let unalign (y : Lane) : Lane := { y with
      aligned := false, hit := none, last := none, cntAlign := y.cntAlign + 1 }
    (laneRuns s l = false → laneSettle s l = s) ∧
    (laneRuns s l = true → code = x.code → laneSettle s l =
      if dark = x.txDis then s
      else emit (updLane s l (fun x => { x with txDis := dark })) (.txDis l dark)) ∧
    (laneRuns s l = true → code ≠ x.code →
      let t := laneSettle s l
      let y := laneOf t l
      y.code = code ∧ y.blockLock = (x.blockLock && !silent) ∧ y.hiBer = (x.hiBer && !silent) ∧
      y.cntLock = (if x.blockLock && (code = 1 || code = 3) then x.cntLock + 1 else x.cntLock) ∧
      y.aligned = (x.aligned && (code = 6 || code = 7)) ∧
      y.hit = (if code = 6 ∨ code = 7 then x.hit else none) ∧
      y.cntAlign = (if x.aligned && !(code = 6 || code = 7) then x.cntAlign + 1 else x.cntAlign) ∧
      y.eq = x.eq ∧ y.session = x.session ∧ y.txDis = dark ∧
      t.out = s.out ++ (if dark = x.txDis then [] else [.txDis l dark]) ∧
      (s.staging.length < 1024 → ∃ r, t.staging = s.staging ++ [r] ∧ r.type = 0x25 ∧ r.source = 0 ∧
        r.island.toNat = islLane l ∧ r.cycle = false ∧ r.stamp = s.tick.truncate 32 ∧
        r.payload = pack [(0, l.val), (8, code)]) ∧
      ∀ k, k ≠ l.val → laneOf t k = laneOf s k) ∧
    (listens = true →
      settles (.blockLockGained l) { x with blockLock := true } ∧
      (x.blockLock = true →
        settles (.blockLockLost l) { x with blockLock := false, cntLock := x.cntLock + 1 }) ∧
      settles (.hiBerWindow l n) { x with
        hiBer := decide (16 ≤ n), cntErrBlk := x.cntErrBlk + BitVec.ofNat 32 n,
        cntHiBer := if 16 ≤ n ∧ x.hiBer = false then x.cntHiBer + 1 else x.cntHiBer }) ∧
    (listens = false → exec (.blockLockGained l) s = .next s ∧ exec (.blockLockLost l) s = .next s ∧
      exec (.hiBerWindow l n) s = .next s) ∧
    (be 15 1 ≠ 1 → exec (.upstreamCycle l f.bytes f.errBlocks f.ended) s = .next s) ∧
    (opened = true →
      drops (.rxFrameDrop l f) ∧ (be 15 1 = 1 → drops (.upstreamCycle l f.bytes f.errBlocks f.ended)) ∧
      (whole → here → session = x.session → header → exec (.rxFrameDrop l f) s = .next s) ∧
      (whole → here → session = x.session → header → be 15 1 = 1 →
        (x.aligned = false → x.hit = none →
          gets (.upstreamCycle l f.bytes f.errBlocks f.ended) { heard with hit := some (s.tick, cyc) }) ∧
        (∀ t c, x.aligned = false → x.hit = some (t, c) → -50 ≤ gap t 1 → gap t 1 ≤ 50 →
          cyc = c + 1 → settles (.upstreamCycle l f.bytes f.errBlocks f.ended) { heard with
            dev := BitVec.ofInt 16 (gap t 1), aligned := true, alignTick := s.tick, hit := none,
            last := some (s.tick, cyc) }) ∧
        (∀ t c, x.aligned = false → x.hit = some (t, c) →
          gap t 1 < -50 ∨ 50 < gap t 1 ∨ cyc ≠ c + 1 →
          ∃ d, exec (.upstreamCycle l f.bytes f.errBlocks f.ended) s = .next d ∧
            laneOf d l = { heard with dev := (laneOf d l).dev, hit := some (s.tick, cyc) }) ∧
        (∀ t c, x.aligned = true → x.last = some (t, c) →
          (-50 ≤ gap t (cyc - c).toNat → gap t (cyc - c).toNat ≤ 50 →
            gets (.upstreamCycle l f.bytes f.errBlocks f.ended) { heard with
              dev := BitVec.ofInt 16 (gap t (cyc - c).toNat), last := some (s.tick, cyc) }) ∧
          (-32768 ≤ gap t (cyc - c).toNat → gap t (cyc - c).toNat < -50 →
            settles (.upstreamCycle l f.bytes f.errBlocks f.ended)
              (unalign { heard with dev := BitVec.ofInt 16 (gap t (cyc - c).toNat) })) ∧
          (50 < gap t (cyc - c).toNat → gap t (cyc - c).toNat ≤ 32767 →
            settles (.upstreamCycle l f.bytes f.errBlocks f.ended)
              (unalign { heard with dev := BitVec.ofInt 16 (gap t (cyc - c).toNat) }))))) ∧
    (opened = false →
      (blocks → gets (.rxFrameDrop l f) struck ∧ (be 15 1 = 1 → gets (.upstreamCycle l f.bytes f.errBlocks f.ended) struck)) ∧
      (¬ blocks → exec (.rxFrameDrop l f) s = .next s ∧ exec (.upstreamCycle l f.bytes f.errBlocks f.ended) s = .next s)) ∧
    (laneRuns s l = true → x.aligned = true → 2 ≤ (cycleNo s - x.cycleRx).toNat →
      settles (.alignmentLoss l) (unalign x)) ∧
    (laneRuns s l = false ∨ x.aligned = false ∨ (cycleNo s - x.cycleRx).toNat < 2 →
      exec (.alignmentLoss l) s = .next s)

/-! ### Stations and the cyclic exchange (chapter 13, and the modes of chapter 02) -/

/-- R272, R274, R421, R423, R473, R475, R490, R493, R496, R515 to R519, R524, R527 to R530, R546: what
IN, ACK and DIAG frames do to their station, the input cut, the dropout threshold, and the frames
that a lane sends, to their bytes on the wire. An IN frame of another cycle, and one in the tick of
the cut, are the model's reading (log entry 26); the preamble, and the order of the bytes of an
address and of the FCS, are presumed (log entry 59). -/
def Obligations.StationsExchangeTheirFrames : Prop :=
  ∀ (l : Fin 8) (k : Nat) (f : RxFrame) (x : Station) (s : State),
    let c := s.tl.cyc
    let lane := laneOf s l
    let b := rxPayload f
    let heard := updLane s l (fun y => { y with cntRx := y.cntRx + 1 })
    let seqOf (b : List Byte) : BitVec 16 := BitVec.ofNat 16 (beNat (b.take 2))
    let covers (q : BitVec 16) : Prop := ∃ w, x.write = some w ∧ seqAtLeast q w.seq = true
    let len := (b.getD 3 0).toNat
    let reason : Nat :=
      if rxCycle f ≠ c.number then 2
      else if len ≠ x.inLen ∨ b.length < 4 + len then 3
      else if lane.aligned = false ∨ s.tick.toNat ≤ lane.alignTick.toNat then 4 else 0
    let thr := max x.limits.1 (min x.limits.2 x.thr)
    -- The bytes of a frame that is sent.
    let wire (g : Frame) : List Byte :=
      let body := [0x03, 0x56, 0x59, 0x00, 0x00, 0x00] ++ beBytes 6 (s.otp.mac.toNat + g.lane)
        ++ [0x88, 0xB5, 0x01, g.type]
        ++ beBytes 2 (if g.type = 0x01 then 0xFFFF else 256 * g.lane + g.station.toNat)
        ++ beBytes 2 g.payload.length ++ [0x00, 0x00] ++ beBytes 4 g.cycle.toNat
        ++ beBytes 2 g.session.toNat ++ [0x00, 0x00] ++ g.payload
      let padded := body ++ List.replicate (60 - body.length) 0
      [0x55, 0x55, 0x55, 0x55, 0x55, 0x55, 0x55, 0xD5] ++ padded ++ leBytes 4 (crc32 padded).toNat
    (∀ i type, (i, type) ∈ [(.inFrame l f.bytes ⟨f.errBlocks, f.ended⟩, 3), (.ackFrame l f.bytes ⟨f.errBlocks, f.ended⟩, 6), (.diagFrame l f.bytes ⟨f.errBlocks, f.ended⟩, 8)] →
      (rxType f ≠ type → exec i s = .next s) ∧
      (rxType f = type → laneOpen s l = false → exec i s = .next (countBlocks s l f)) ∧
      (rxType f = type → laneOpen s l = true →
        (∀ why, rxCheck s l f = some why → exec i s = .next (countDrop (countBlocks s l f) l why)) ∧
        (rxCheck s l f = none → rxAddr f = 0xFFFF ∨ stationAt s (rxAddr f) = none →
          exec i s = .next heard))) ∧
    (laneOpen s l = true → rxCheck s l f = none → rxAddr f ≠ 0xFFFF →
      stationAt s (rxAddr f) = some k → stationOf s k = some x →
        (rxType f = 8 →
          exec (.diagFrame l f.bytes ⟨f.errBlocks, f.ended⟩) s = .next (setStation heard k { x with diag := satAdd x.diag 1 })) ∧
        (rxType f = 3 → x.code = 2 ∨ x.code = 3 → (b.getD 2 0).getLsbD 0 = true → c.begun = true →
          c.cutDone = false → c.tick.toNat ≤ s.tick.toNat →
          s.tick.toNat < c.tick.toNat + c.period / 4 → x.cand = none →
          2 ≤ b.length → ∃ t y, exec (.inFrame l f.bytes ⟨f.errBlocks, f.ended⟩) s = .next t ∧ stationOf t k = some y ∧
            y.cand = some (reason, len, beNat (b.take 2), (b.drop 4).take len) ∧ y.code = x.code ∧
            (covers (seqOf b) → y.write = none) ∧ (¬ covers (seqOf b) → y.write = x.write)) ∧
        (rxType f = 3 → x.code = 4 → 2 ≤ b.length →
          ∃ t y, exec (.inFrame l f.bytes ⟨f.errBlocks, f.ended⟩) s = .next t ∧ stationOf t k = some y ∧
          y.code = 1 ∧ y.misses = 0 ∧ y.configId = (if x.configId = 0xFFFF then 1 else x.configId + 1)) ∧
        (rxType f = 6 → 4 ≤ b.length →
          ∃ t y, exec (.ackFrame l f.bytes ⟨f.errBlocks, f.ended⟩) s = .next t ∧ stationOf t k = some y ∧
          y.idAcked = (x.idAcked || decide (seqOf b = x.configId)) ∧ y.code = x.code ∧
          (covers (seqOf (b.drop 2)) → y.write = none) ∧
          (¬ covers (seqOf (b.drop 2)) → y.write = x.write) ∧
          (∀ p ∈ (recvOf t k).pieces, p ∈ (recvOf s k).pieces) ∧
          ∀ p ∈ (recvOf s k).pieces, p ∈ (recvOf t k).pieces ∨ (p.sent.isSome ∧ pieceLate s p = false ∧
            (p.frame % 65536, p.region, p.piece) ∈
              ackEntries (min 1529 (beNat ((b.drop 4).take 2))) (b.drop 8)))) ∧
    (∀ n : Fin 2048, stationOf s n = some x → x.limits.1 ≤ x.limits.2 →
      (x.clean < 10000 → exec (.dropoutThresholdLower n) s = .next s) ∧
      (10000 ≤ x.clean → x.limits.1 < thr → exec (.dropoutThresholdLower n) s =
        .next (setStation s n { x with thr := thr - 1, clean := 0 })) ∧
      (10000 ≤ x.clean → thr = x.limits.1 → exec (.dropoutThresholdLower n) s =
        .next (loopWarning (setStation s n { x with thr := thr, clean := 0 }) (islLane x.lane) 3 n 6))) ∧
    (c.begun = false ∨ c.cutDone = true → exec .inputCut s = .next s) ∧
    (c.begun = true → c.cutDone = false → ∃ t, exec .inputCut s = .next t ∧
      t.tick = (atTick s (c.tick.toNat + c.period / 4)).tick ∧
      t.tl.cyc = { c with cut := c.number, cutDone := true } ∧
      (∀ d : Fin 8, running s (islDeck d) = true → (∀ w ∈ s.intc.watch, w.2.signal.toNat ≠ 3) →
        privSrc t (d + 1) 3 = (privSrc s (d + 1) 3).events 1) ∧
      (∀ n, stationOf s n = some x → x.started = true → x.limits.1 ≤ x.limits.2 →
        ∃ y, stationOf t n = some y ∧
        (let why : Nat := if laneRuns s x.lane = false then 5
           else if running s (islBank (bankOf (recordOf n))) = false then 6
           else (x.cand.map (fun q => q.1)).getD 1
         y.info = why ∧ y.cand = none ∧
         y.thr = (if why = 0 ∧ 0 < x.misses ∧ (x.code = 1 ∨ x.code = 3) ∧ thr + 1 ≤ x.limits.2
           then thr + 1 else thr) ∧
         (why = 0 → y.fresh = some c.number ∧ y.misses = 0 ∧ y.clean = x.clean + 1 ∧ y.stale = x.stale ∧
           y.code = (if x.code = 3 ∨ (x.code = 1 ∧ x.idAcked = true) then 2 else x.code)) ∧
         (why ≠ 0 → y.fresh = x.fresh ∧ y.misses = x.misses + 1 ∧ y.clean = 0 ∧
           y.stale = satAdd x.stale 1 ∧
           y.code = (if thr ≤ x.misses + 1 ∧ (x.code = 1 ∨ x.code = 2 ∨ x.code = 3) then 4
             else if x.code = 2 then 3 else x.code))))) ∧
    (laneSends s l = false → exec (.frameTransmit l) s = .next s) ∧
    (∀ f, laneSends s l = true → nextFrame lane = some f → f.type ≠ 0x07 →
      (frameFits s f.payload.length = false → exec (.frameTransmit l) s = .next s) ∧
      (frameFits s f.payload.length = true → f.lane = l.val → ∃ t, exec (.frameTransmit l) s = .next t ∧
        (let g : Frame := { f with cycle := c.number, session := lane.session }
         t.out = s.out ++ [.frame g (wire g)]) ∧
        laneOf t l = { lane with frames := lane.frames.erase f, cntTx := lane.cntTx + 1 })) ∧
    (∀ f, laneSends s l = true → nextFrame lane = some f → f.type = 0x07 → f.lane = l.val →
      frameFits s 88 = true → stationAt s (256 * l.val + f.station.toNat) = some k →
      stationOf s k = some x → x.write = none → ∃ t, exec (.frameTransmit l) s = .next t ∧
        (let g : Frame := { f with
          cycle := c.number, session := lane.session, payload := configPayload s k x }
         t.out = s.out ++ [.frame g (wire g)]) ∧
        laneOf t l = { lane with
          frames := lane.frames.erase f, configs := lane.configs + 1, cntTx := lane.cntTx + 1 }) ∧
    (laneSends s l = true → nextFrame lane = none → running s islTP = false →
      exec (.frameTransmit l) s = .next s) ∧
    (∀ p u pix, laneSends s l = true → nextFrame lane = none → running s islTP = true →
      nextPiece s l = some (k, p) → stationOf s k = some x → k < 2048 →
      frameFits s (19 + p.w * p.h * bytesPer s k) = true → pieceLines p.scene p p.h s p.y = (u, some pix) →
      ∃ t, exec (.frameTransmit l) s = .next t ∧
        (let g : Frame := ⟨l, 0x04, BitVec.ofNat 8 x.addr, c.number, 0, lane.session,
          regionPayload s k p pix⟩
         t.out = s.out ++ [.frame g (wire g)]) ∧
        (recvOf t k).sent = satAdd (recvOf s k).sent 1 ∧
        (recvOf t k).pieces =
          (recvOf s k).pieces.map (fun q => if q = p then { p with sent := some c.number } else q))

/-- R46, R55, R57, R62 to R64, R69, R289, R490, R495, R497, R507, R516, R798: a cycle boundary begins the next
cycle, sends a CYCLE frame on every lane that sends, starts the beams that wait, and makes the mode
change that is due of itself; the host watchdog has HOLD entered at the next boundary, which ends a
SET_MODE that waits. What waits for the boundary is the model's reading (log entry 43), and the first
cycle number its choice (log entry 5). -/
def Obligations.ACycleBoundaryBeginsTheNextCycle : Prop :=
  ∀ s : State,
    let c := s.tl.cyc
    let b := if c.begun then c.tick.toNat + c.period else s.tick.toNat
    let at' : Dword := BitVec.ofNat 64 b
    let num := if c.begun then c.number + 1 else c.number
    let due := c.nextPeriod.filter (fun p => p.1.toNat < b)
    let period := (due.map (·.2)).getD c.period
    let m := s.sys.mode
    let awake := !s.sys.inReset && decide (2 ≤ m.toNat)
    let guarded := decide (m = 3 ∨ m = 4 ∨ m = 5)
    let late := (atTick s (s.fw.wdStart.toNat + s.fw.wdPeriod * 50000))
    (∀ m, m = 0 ∨ m = 1 → m = s.sys.mode → exec .cycleBoundary s = .next s) ∧
    (s.sys.inReset = true → exec .cycleBoundary s = .next s) ∧
    (awake = true → ∃ t, exec .cycleBoundary s = .next t ∧ t.tick = (atTick s b).tick ∧
      t.tl.cyc = { c with begun := true, number := num, tick := at', period := period,
                          nextPeriod := if due.isSome then none else c.nextPeriod,
                          cutDone := false } ∧
      (∀ l : Fin 8, laneSends s l = true → ∃ wire, Out.frame
        { lane := l, type := 0x01, station := 0xFF, cycle := num, seq := 0, session := (laneOf s l).session,
          payload := beBytes 8 at'.toNat ++ beBytes 4 period } wire ∈ t.out.drop s.out.length) ∧
      (∀ i x, sceneOf s i = some x → ∃ y, sceneOf t i = some y ∧
        y.start = (if x.start.isNone ∧ x.madeAt.toNat < b then some at' else x.start)) ∧
      (fwRuns s = false → t.sys = s.sys) ∧
      (fwRuns s = true → s.fw.restarted = false → s.fw.waiting = [] →
        ∀ to' cause, to' = (if guarded && wdOut (atTick s b) then 7
            else if m = 3 ∧ anyFenced s = true then 4
            else if m = 4 ∧ anyFenced s = false then 3 else m) →
          cause = (if guarded && wdOut (atTick s b) then 4 else if m = 3 then 2 else 3) →
          t.sys = (if to' = m then s.sys else { s.sys with
            mode := to', prevMode := m, cause := cause, changeCount := s.sys.changeCount + 1 }))) ∧
    (fwRuns s = false ∨ s.fw.wdPeriod = 0 → exec .hostWatchdogExpiry s = .next s) ∧
    (fwRuns s = true → s.fw.wdPeriod ≠ 0 → exec .hostWatchdogExpiry s = .next late) ∧
    -- A SET_MODE that waits where the boundary finds the period run out ends ABORTED.
    (awake = true → fwRuns s = true → s.fw.restarted = false → guarded = true →
      wdOut (atTick s b) = true → ∀ (mb : Fin 8) h w g a x,
        s.fw.waiting = [(mb.val, .setMode h w g a x)] → a.toNat < b → classQ h = false →
        ∃ t, exec .cycleBoundary s = .next t ∧ t.sys.mode = 7 ∧ t.fw.waiting = [] ∧
          (windowOf t mb).getLast? = some { header := h, crc := w, reply := replyWords h 0x22 [] })

/-! ### The cores and the deck kernel (chapter 14) -/

/-- R565 to R567, R569, R572, R595, R607, R608, R612, R618, R629: what a core does when an exception
is raised, an interrupt is presented, a store error arrives, or `sys` is executed: it saves its
state and enters, or is halted; a task that raised an exception is stopped with its code. That
DH_EADDR stays where no address is concerned, and what the deck kernel does with an entry, are the
model's reading (log entries 35 and 36). -/
def Obligations.CoresTakeExceptionsAndInterrupts : Prop :=
  ∀ (n : Fin 8) (cells : List Cell) (k j a b : Fin 8) (rs : Fin 16) (q : Fin 64) (s : State),
    let c := coreOf s n
    let enter (code : Byte) (store : Bool) (epc : Cell) (ea : Word) (off : Cell) : Core := { c with
      epc := epc, ecode := code, estore := store, eaddr := ea, kernel := true, ie := false,
      pc := c.vbase + off, waiting := false,
      estat := BitVec.ofNat 7 (64 + 32 * b2n c.kernel + 16 * b2n c.ie
        + 8 * b2n c.z + 4 * b2n c.n + 2 * b2n c.c + b2n c.v) }
    let bare := c.kernel || c.cur.isNone
    let held := c.kernel && c.estat.getLsbD 6
    let raises (i : Instr) (code : Byte) : Prop :=
      (held = true → CoreGets i s n { c with halted := true, waiting := false }) ∧
      (held = false → bare = true → CoreGets i s n (enter code false c.pc c.eaddr 0x10)) ∧
      (∀ g t, c.kernel = false → c.cur = some g →
        s.dh.tasks.filter (fun p => p.1 = g) = [(g, t)] →
        ∃ u x, exec i s = .next u ∧ taskOf u g = some x ∧ x.state = 4 ∧ x.faultCode = code ∧
          x.faultPc = c.pc)
    let from' := (c.br j).base.toNat + (c.pair a).toNat
    let upto := from' + (c.pair b).toNat - 1
    (CoreReady s n cells.length → undefinedEncoding cells = true → raises (.illegalEncoding n cells) 1) ∧
    (coreBegins s n = true → fetchBad c 1 = true → raises (.nopInstr n) 3) ∧
    (CoreReady s n 1 → c.kernel = false →
      raises (.reti n) 2 ∧ raises (.wfi n) 2 ∧ raises (.bset n k) 2) ∧
    (CoreReady s n 1 → c.d[rs] = 0 → raises (.divu n k rs) 11 ∧ raises (.divs n k rs) 11) ∧
    (CoreReady s n 2 →
      c.pair b = 0 ∨ from' < (c.br j).floor.toNat ∨ (c.br j).limit.toNat < upto →
      raises (.bsub n k j a b) 4) ∧
    (CoreReady s n 1 → bare = true →
      CoreGets (.sysCall n q) s n (enter c.ecode c.estore (c.pc + 1) (BitVec.ofNat 32 q) 0x20)) ∧
    (∀ e r, c.storeErr = e :: r →
      (CoreReady s n 1 → held = false → bare = true → CoreGets (.sync n) s n
        { enter 7 true c.pc e 0x10 with storeErr := r }) ∧
      (coreRuns s n = true → held = true →
        CoreGets (.storeError n) s n { c with storeErr := r, halted := true }) ∧
      (coreRuns s n = true → held = false → bare = true → CoreGets (.storeError n) s n
        { enter 7 true c.pc e 0x10 with storeErr := r })) ∧
    (coreRuns s n = false ∨ c.storeErr = [] → exec (.storeError n) s = .next s) ∧
    (coreRuns s n = false ∨ c.ie = false ∨ requested s (n + 1) = false →
      exec (.interruptEntry n) s = .next s) ∧
    (coreRuns s n = true → c.ie = true → requested s (n + 1) = true →
      (c.deck = false → CoreGets (.interruptEntry n) s n (enter 0 false c.pc c.eaddr 0)) ∧
      (c.deck = true → ∃ u, exec (.interruptEntry n) s = .next u ∧
        (pendPriv (n + 1) 4 (privSrc s (n + 1) 4) = true →
          (coreOf u n).heart = s.tick ∧ (coreOf u n).timer = c.timer + 50000)))

/-- R581, R582, R585 to R588, R592, R595, R607: the services of the deck kernel. The caller goes on
or leaves its core; for the effects on it, no other task of its Deckhand is ready. What the deck
kernel does after an entry is in the step of the entry (the model's choice, log entry 36). -/
def Obligations.ServicesActOnTheCallingTask : Prop :=
  ∀ (n : Fin 8) (i : Nat) (t : Task) (s : State),
    let c := coreOf s n
    let arg := (c.d[0]).toNat
    let stays (call : Instr) (d : Vector Cell 16) (f : State → Task → Prop) : Prop :=
      ∃ u x, exec call s = .next u ∧ taskOf u i = some x ∧ x.state = 2 ∧ f u x ∧
        (coreOf u n).cur = some i ∧ (coreOf u n).pc = c.pc + 1 ∧ (coreOf u n).d = d ∧
        (coreOf u n).b = c.b ∧ (coreOf u n).p = c.p ∧ (coreOf u n).kernel = false ∧
        (coreOf u n).ie = c.ie
    let leaves (call : Instr) (state : Nat) (f : State → Task → Prop) : Prop :=
      ∃ u x, exec call s = .next u ∧ taskOf u i = some x ∧ x.state = state ∧ f u x ∧
        (coreOf u n).cur = none ∧ (coreOf u n).idle = true
    let kept (d : Vector Cell 16) (x : Task) : Prop :=
      ∃ y, x.ctx = some y ∧ y.d = d ∧ y.pc = c.pc + 1 ∧ y.b = c.b ∧ y.p = c.p
    let once := s.dh.tasks.filter (fun p => p.1 = i) = [(i, t)] ∧ t.deck = n.val
    let cell := arg
    let station := (c.d[2]).toNat
    (exec (.sysCall n 0) s = exec (.yieldService n) s ∧ exec (.sysCall n 1) s = exec (.waitService n) s ∧
      exec (.sysCall n 2) s = exec (.postService n) s ∧ exec (.sysCall n 3) s = exec (.lockService n) s ∧
      exec (.sysCall n 4) s = exec (.unlockService n) s ∧
      exec (.sysCall n 5) s = exec (.sleepService n) s ∧ exec (.sysCall n 6) s = exec (.exitTask n) s) ∧
    (once → CoreReady s n 1 → c.cur = some i → c.kernel = false → c.storeErr = [] → t.state = 2 →
      s.sys.mode ≠ 7 → (∀ p ∈ s.dh.tasks, p.1 ≠ i → p.2.deck = n.val → p.2.state ≠ 1) →
      (t.stopDue = true → leaves (.yieldService n) 0 (fun _ x => x.started = false) ∧
        leaves (.waitService n) 0 (fun _ x => x.started = false) ∧
        leaves (.sleepService n) 0 (fun _ x => x.started = false)) ∧
      (t.stopDue = false →
        stays (.yieldService n) c.d (fun _ x => x.seq = s.dh.seq ∧ x.ran = 0) ∧
        (let m : Task := { t with mask := (c.d[0]).setWidth 6 }
         (firstSlot m = none → leaves (.waitService n) 3 (fun _ x =>
           x.wait = some .event ∧ x.mask = m.mask ∧ kept c.d x)) ∧
         (∀ k y, firstSlot m = some (k, y) → stays (.waitService n) (waitResult c.d k y) (fun _ x =>
           x.mask = m.mask ∧ x.slots = Tab.erase t.slots k))) ∧
        leaves (.sleepService n) 3 (fun _ x =>
          x.wait = some (.sleep (s.tick.toNat + (c.pair 0).toNat)) ∧ kept c.d x) ∧
        (∀ j, localOwner s n cell = some j → j ≠ i → cell < 1008 → leaves (.lockService n) 3 (fun _ x =>
          x.wait = some (.lock cell) ∧ kept (c.d.set 0 0) x)) ∧
        (∀ v, localOwner s n cell = none → cell < 1008 → (lockReadReg s (n + 3) cell).2 = .ok v →
          v ≠ 0 → v.toNat ≠ n + 3 → leaves (.lockService n) 3 (fun _ x =>
            x.wait = some (.lock cell) ∧ kept (c.d.set 0 0) x))) ∧
      (stationOf s station = none →
        stays (.postService n) (c.d.set 0 1) (fun u _ => u.staging = s.staging)) ∧
      (∀ x, stationOf s station = some x → x.ending = false → s.staging.length < 1024 →
        stays (.postService n) (c.d.set 0 0) (fun u _ => ∃ r, u.staging = s.staging ++ [r] ∧
          r.type = 0x19 ∧ r.source = handleOf s 2 station ∧ r.payload = c.pair 0 ∧
          r.island.toNat = islDeck n ∧ r.moor = stationMoor s x)) ∧
      (1008 ≤ cell → stays (.lockService n) (c.d.set 0 1) (fun _ _ => True)) ∧
      (cell < 1008 → localOwner s n cell = some i → stays (.lockService n) (c.d.set 0 0) (fun _ _ => True)) ∧
      (cell < 1008 → localOwner s n cell = none → (lockReadReg s (n + 3) cell).2 = .ok 0 →
        stays (.lockService n) (c.d.set 0 0) (fun _ x => (Tab.find? x.locks cell).isSome)) ∧
      ((Tab.find? t.locks cell).isSome → stays (.unlockService n) (c.d.set 0 0) (fun _ x =>
        Tab.find? x.locks cell = none)) ∧
      ((Tab.find? t.locks cell).isNone → stays (.unlockService n) (c.d.set 0 1) (fun _ _ => True)) ∧
      (∀ k : Fin 64, 7 ≤ k.val → stays (.sysCall n k) (c.d.set 0 1) (fun _ _ => True)) ∧
      leaves (.exitTask n) 0 (fun _ x => x.started = false ∧ x.ctx = none ∧ x.locks = [])) ∧
    (coreRuns s n = false ∨ c.deck = false → exec (.lockPoll n) s = .next s) ∧
    (∀ cell, once → coreRuns s n = true → c.deck = true → c.cur ≠ some i → t.state = 3 →
      t.wait = some (.lock cell) → (∀ p ∈ s.dh.tasks, p.1 ≠ i → ∀ m, p.2.wait ≠ some (.lock m)) →
      localOwner s n cell = none → (lockReadReg s (n + 3) cell).2 = .ok 0 →
      ∃ u x, exec (.lockPoll n) s = .next u ∧ taskOf u i = some x ∧ (x.state = 1 ∨ x.state = 2) ∧
        x.wait = none ∧ (Tab.find? x.locks cell).isSome) ∧
    (firstSleeper s n = none → exec (.sleepExpiry n) s = .next s) ∧
    (∀ v, firstSleeper s n = some (i, v) → (taskOf s i).bind sleepsUntil = some v ∧
      (∀ j ∈ deckTasks s n, ∀ w, (taskOf s j).bind sleepsUntil = some w → v ≤ w) ∧
      (coreRuns s n = true → c.deck = true →
        exec (.sleepExpiry n) s = .next (reschedule (readyTask (atTick s v) i) n))) ∧
    (c.cur = none → exec (.budgetExpiry n) s = .next s) ∧
    (once → coreRuns s n = true → c.cur = some i → c.kernel = false → c.ie = true → t.state = 2 →
      ∃ u x, exec (.budgetExpiry n) s = .next u ∧ u.tick = (atTick s (t.since.toNat + (250000 - t.ran))).tick ∧
        taskOf u i = some x ∧ x.state = 4 ∧ x.faultCode = 12 ∧ x.faultPc = c.pc)

/-! ### Data and port accesses, and the repeat prefixes (chapters 14 and 15) -/

/-- R553 to R557, R560 to R564, R567, R576 to R578, R602, R613, R614, R616, R622: loads, stores and
port accesses move their value; an operand that its checks refuse raises its exception before any
effect; a prefix repeats its instruction until its count is 0. `begun` is the state in which an
instruction acts, with no `wfi` in progress. A kernel-level access to an unmapped port raises IOERR,
as the model reads R564 (log entry 48). -/
def Obligations.AccessesMoveTheirValueAndPrefixesRepeatThem : Prop :=
  ∀ (n : Fin 8) (r dc : Fin 16) (k b g : Fin 8) (p : Fin 4) (x y : Cell) (z : Size) (s : State),
    let c := coreOf s n
    let a := n.val + 3
    let begun := updCore s n (fun c => { c with waiting := false })
    let gets (i : Instr) (u : State) (d : Core) : Prop :=
      ∃ t, exec i s = .next t ∧ coreOf t n = d ∧ OnlyCore u t n
    let ea (b : Fin 8) (x : Cell) : Word := c.b[b].base + x.signExtend 32
    let fits (b : Fin 8) (x : Cell) (size : Nat) : Prop := (ea b x).toNat % size = 0 ∧
      c.b[b].floor.toNat ≤ (ea b x).toNat ∧ (ea b x).toNat + size - 1 ≤ c.b[b].limit.toNat ∧
      (ea b x).toNat + size - 1 ≤ 0x03FFFFFF
    let open' (b : Fin 8) (x : Cell) : Prop := c.b[b].mode ≠ 1 ∧
      (c.b[b].mode = 2 → stationOk ((ea b x - c.b[b].floor).toNat % 256) = true) ∧
      (c.b[b].mode = 0 → c.kernel = true ∨ pageLive s ((ea b x).toNat / 65536) = true)
    let at' (size : Nat) (u : State) (l : List Byte) : Prop :=
      readReq begun a (ea b x).toNat size = (u, .ok l)
    let pairOf (d : Core) (v : Nat) : Core := { d with
      d := (d.d.set (lowReg k) (BitVec.ofNat 16 v)).set (highReg k) (BitVec.ofNat 16 (v / 65536)) }
    let p2 := c.past 2
    let p3 := c.past 3
    let trap (i : Instr) (code : Byte) (v : Word) : Prop := c.kernel = true → c.estat.getLsbD 6 = false →
      ∃ t, exec i s = .next t ∧ OnlyCore s t n ∧ (coreOf t n).pc = c.vbase + 0x10 ∧
        (coreOf t n).epc = c.pc ∧ (coreOf t n).ecode = code ∧ (coreOf t n).eaddr = v ∧
        (coreOf t n).d = c.d ∧ (coreOf t n).b = c.b ∧ (coreOf t n).p = c.p
    let q (p : Fin 4) (x : Cell) : Nat := (c.p[p] + x).toNat
    let mayIn (w : Bool) : Prop := c.kernel = true ∨ taskPort (q p x) w = true
    let fabric (u : State) (f : PortTarget) (w : Word) : Prop :=
      portAddr c n (q p x) = some f ∧ portTargetRead begun n f = (u, .ok w)
    let latched (d : Core) (w : Word) : Core := { d with rdata := (w >>> 16).setWidth 16, rport := c.p[p] + x }
    (CoreReady s n 2 →
      -- loads
      (∀ u l, fits b x 1 → at' 1 u l → gets (.ldB n r b x) u { p2 with d := c.d.set r (BitVec.ofNat 16 (leNat l)) } ∧
        gets (.ldSb n r b x) u { p2 with d := c.d.set r ((BitVec.ofNat 8 (leNat l)).signExtend 16) }) ∧
      (∀ u l, fits b x 2 → at' 2 u l → gets (.ld n r b x) u { p2 with d := c.d.set r (BitVec.ofNat 16 (leNat l)) }) ∧
      (∀ u l, fits b x 4 → at' 4 u l → gets (.ldP n k b x) u (pairOf p2 (leNat l))) ∧
      -- stores
      (∀ u, open' b x →
        (fits b x 1 → writeReq begun a (ea b x).toNat (leBytes 1 (c.d[r]).toNat) = (u, none) →
          gets (.stB n r b x) u p2) ∧
        (fits b x 2 → writeReq begun a (ea b x).toNat (leBytes 2 (c.d[r]).toNat) = (u, none) →
          gets (.st n r b x) u p2) ∧
        (fits b x 4 → writeReq begun a (ea b x).toNat (leBytes 4 (c.pair k).toNat) = (u, none) →
          gets (.stP n k b x) u p2) ∧
        (∀ e, fits b x 2 → writeReq begun a (ea b x).toNat (leBytes 2 (c.d[r]).toNat) = (u, some e) →
          gets (.st n r b x) u { p2 with storeErr := c.storeErr ++ [ea b x] })) ∧
      -- the checks of a Basin operand
      ((ea b x).toNat % 2 ≠ 0 → trap (.ld n r b x) 5 (ea b x) ∧ trap (.st n r b x) 5 (ea b x)) ∧
      ((ea b x).toNat % 4 ≠ 0 → trap (.ldP n k b x) 5 (ea b x) ∧ trap (.stP n k b x) 5 (ea b x)) ∧
      (¬ fits b x 1 → trap (.ldB n r b x) 4 (ea b x) ∧ trap (.ldSb n r b x) 4 (ea b x) ∧
        trap (.stB n r b x) 4 (ea b x)) ∧
      (fits b x 1 → c.b[b].mode = 1 → trap (.stB n r b x) 4 (ea b x)) ∧
      -- ports
      (∀ u f w, fabric u f w →
        (mayIn false → (q p x) % 2 = 0 →
          gets (.inCell n r p x) u { latched p2 w with d := c.d.set r (w.setWidth 16) } ∧
          gets (.inPair n k p x) u (pairOf p2 w.toNat)) ∧
        (mayIn false → (q p x) % 2 = 1 → c.rport.toNat + 1 ≠ q p x →
          gets (.inCell n r p x) u { p2 with d := c.d.set r ((w >>> 16).setWidth 16) })) ∧
      (∀ f, mayIn false → portAddr c n (q p x) = some f → (q p x) % 2 = 1 → c.rport.toNat + 1 = q p x →
        CoreGets (.inCell n r p x) s n { p2 with d := c.d.set r c.rdata }) ∧
      (∀ f, mayIn true → portAddr c n (q p x) = some f →
        ((q p x) % 2 = 0 →
          CoreGets (.outCell n r p x) s n { p2 with wdata := c.d[r], wport := c.p[p] + x }) ∧
        (∀ u, (q p x) % 2 = 1 → portTargetWrite begun n (BitVec.ofNat 32
            ((if c.wport.toNat + 1 = q p x then c.wdata.toNat else 0) + 65536 * (c.d[r]).toNat)) f
              = (u, none) →
          gets (.outCell n r p x) u { coreOf u n with pc := (coreOf u n).pc + 2 }) ∧
        (∀ u, (q p x) % 2 = 0 → portTargetWrite begun n (c.pair k) f = (u, none) →
          gets (.outPair n k p x) u { coreOf u n with pc := (coreOf u n).pc + 2 })) ∧
      ((q p x) % 2 = 1 → trap (.inPair n k p x) 5 (BitVec.ofNat 32 (q p x)) ∧
        trap (.outPair n k p x) 5 (BitVec.ofNat 32 (q p x))) ∧
      (portAddr c n (q p x) = none → (q p x) % 2 = 0 → trap (.inPair n k p x) 9 (BitVec.ofNat 32 (q p x)))) ∧
    -- moves
    (CoreReady s n 3 →
      (∀ u l w, checkData s c b x z false = none → checkData s c g y z true = none →
        at' (sizeBytes z) u l → writeReq u a (ea g y).toNat l = (w, none) → gets (.mvm n z b g x y) w p3) ∧
      (∀ u v f w, open' b x → portAddr c n (q p y) = some f → c.kernel = true ∨ taskPort (q p y) false = true →
        portTargetRead begun n f = (u, .ok v) → coreOf u n = coreOf begun n → (q p y) % 2 = 0 →
        (fits b x 4 → writeReq u a (ea b x).toNat (leBytes 4 v.toNat) = (w, none) →
          gets (.inm n true b p x y) w p3) ∧
        (fits b x 2 → writeReq u a (ea b x).toNat (leBytes 2 (v.toNat % 65536)) = (w, none) →
          ∃ t, exec (.inm n false b p x y) s = .next t ∧ (coreOf t n).pc = c.pc + 3 ∧
            t.basin = w.basin ∧ (coreOf t n).rdata = (v >>> 16).setWidth 16)) ∧
      (∀ u l f w, portAddr c n (q p y) = some f → c.kernel = true ∨ taskPort (q p y) true = true →
        (q p y) % 2 = 0 →
        (fits b x 4 → at' 4 u l → portTargetWrite u n (leWord l) f = (w, none) →
          gets (.outm n true b p x y) w { coreOf w n with pc := (coreOf w n).pc + 3 }) ∧
        (fits b x 2 → at' 2 u l →
          gets (.outm n false b p x y) u { p3 with wdata := BitVec.ofNat 16 (leNat l), wport := c.p[p] + y }))) ∧
    -- prefixes
    (∀ (acc : Access) (i : Instr) (stride : Bool),
      i ∈ [Instr.repInstr n dc acc none, Instr.reps n dc acc] ∧ stride = false ∨
        i ∈ [Instr.repI n dc acc none, Instr.repsI n dc acc] ∧ stride = true →
      let len := 1 + accessLen acc
      let m := moveOf acc
      CoreReady s n len →
        (c.d[dc] = 0 → CoreGets i s n (c.past len)) ∧
        (∀ u, c.d[dc] ≠ 0 →
          (c.d[dc]).toNat ≤ 32 ∨ i = .repInstr n dc acc none ∨ i = .repI n dc acc none →
          doMove begun n m = (u, none) → m.dst ≠ .reg dc →
          (∀ j, m.dst = .pair j → lowReg j ≠ dc ∧ highReg j ≠ dc) →
          let w := updCore u n (fun d => d.advance m dc stride)
          (coreOf w n).d[dc] = c.d[dc] - 1 ∧
          (∀ f, (coreOf w n).b[f].base = if f ∈ m.bases
            then (coreOf u n).b[f].base + BitVec.ofNat 32 (sizeBytes m.size) else (coreOf u n).b[f].base) ∧
          (∀ f, (coreOf w n).p[f] = if stride = true ∧ m.portBase = some f
            then (coreOf u n).p[f] + BitVec.ofNat 16 (sizeBytes m.size / 2) else (coreOf u n).p[f]) ∧
          (c.d[dc] = 1 → ∃ t, exec i s = .next t ∧ OnlyCore w t n ∧
            coreOf t n = { coreOf w n with pc := (coreOf w n).pc + BitVec.ofNat 16 len }) ∧
          (CoreReady w n len → (coreOf w n).waiting = false → exec i s = exec i w) ∧
          (mayStop w n = true → 1 < (c.d[dc]).toNat →
            exec (.repInstr n dc acc (some 1)) s = .next (updCore u n (fun d => d.advance m dc false)) ∧
            exec (.repI n dc acc (some 1)) s = .next (updCore u n (fun d => d.advance m dc true))))) ∧
    (∀ acc, CoreReady s n (1 + accessLen acc) → 32 < (c.d[dc]).toNat →
      trap (.reps n dc acc) 10 c.eaddr ∧ trap (.repsI n dc acc) 10 c.eaddr)

/-! ### Registers and timers (chapters 02, 05, 06, 14, 16 and 20) -/

/-- R24, R42, R92, R94, R118, R151, R152, R153, R241, R285, R589, R597, R790, R793 to R796: an
access that is not an aligned word, or that nothing answers, ends in an error; a read returns the
register, and its RC fields take their reset value; a write acts on the fields that may be written;
the timers raise their sources. Details of single registers are the model's reading (log entries 45
and 47). -/
def Obligations.RegistersFollowTheirAccessCodes : Prop :=
  ∀ (a : Agent) (addr v : Word) (b : Fin 4) (i : Fin 16) (j : Fin 64) (n : Fin 8) (s : State),
    let read (addr : Nat) : Instr := .rcFieldRead a (BitVec.ofNat 32 addr) true
    let write (addr : Nat) : Instr := .registerWrite a (BitVec.ofNat 32 addr) 0xF v
    let basin := decide (addr.toNat / 4 * 4 < 0x04000000)
    let tells (w : Word) (t : State) : State := emit t (.word a w)
    let x := bankRegs s b
    let y := isl s i
    let bank := 0x26080000 + 0x1000 * b.val
    let own := 0x27000000 + 0x100 * i.val
    let deck := n.val + 3
    let up := running s islLK
    (agentOut s a = false → ∀ aligned sel, exec (.rcFieldRead a addr aligned) s = .next s ∧
      exec (.registerWrite a addr sel v) s = .next s ∧ exec (.sysTickLo a) s = .next s) ∧
    (agentOut s a = true → a.val ≠ 1 → mailboxOffset (addr.toNat / 4 * 4) = none →
      (∀ aligned, aligned = false ∨ addr.toNat % 4 ≠ 0 ∨ areaOf (addr.toNat / 4 * 4) = none →
        exec (.rcFieldRead a addr aligned) s = .next (errTo s a addr.toNat basin false .unmapped)) ∧
      (∀ sel, sel ≠ 0xF ∨ addr.toNat % 4 ≠ 0 ∨ areaOf (addr.toNat / 4 * 4) = none →
        exec (.registerWrite a addr sel v) s =
          .next (errTo s a addr.toNat basin true .unmapped))) ∧
    (a.val = 1 → hostReach s = false → ∀ aligned sel, exec (.rcFieldRead a addr aligned) s = .next s ∧
      exec (.registerWrite a addr sel v) s = .next s ∧ exec (.sysTickLo a) s = .next s) ∧
    (agentOut s a = true → a.val ≠ 1 ∨ hostReach s = true →
      ∃ t, exec (.sysTickLo a) s = .next t ∧ t.out = s.out ++ [.word a (s.tick.setWidth 32)] ∧
        Tab.get 0 t.sys.tickHi a = (s.tick >>> 32).setWidth 32) ∧
    (a.val ≠ 1 →
      exec (read 0x2F000000) s = exec (.sysTickLo a) s ∧
      (agentOut s a = true →
        exec (read 0x2F000004) s = .next (tells (Tab.get 0 s.sys.tickHi a) s) ∧
        exec (read 0x2F000024) s = .next (tells (s.sys.resetCause.setWidth 32) s)) ∧
      exec (write 0x2F000024) s = .next (if up = true ∧ a.val = 2 then
        { s with sys := { s.sys with resetCause := s.sys.resetCause &&& ~~~ v.setWidth 9 } } else s) ∧
      exec (write 0x2F00002C) s = .next (if up = true ∧ (a.val = 2 ∨ a.val = 15) then
        { s with sys := { s.sys with triedA := v.getLsbD 0, triedB := v.getLsbD 1 } } else s)) ∧
    (agentOut s a = true → a.val ≠ 1 → a.val ≠ 2 → a.val ≠ 15 →
      exec (read bank) s = .next (emit s (.error a .unmapped)) ∧
      exec (write (bank + 0x18)) s = .next (emit s (.error a .unmapped)) ∧
      exec (read own) s = .next (emit s (.error a .unmapped))) ∧
    (agentOut s a = true → a.val = 2 ∨ a.val = 15 →
      (running s (islBank b) = false →
        exec (read bank) s = .next (errTo s a bank false false .fenced) ∧
        exec (write (bank + 0x18)) s = .next (errTo s a (bank + 0x18) false true .fenced)) ∧
      (running s (islBank b) = true →
        exec (read bank) s = .next (tells x.ceCount (updBank s b (fun x => { x with ceCount := 0 }))) ∧
        exec (read (bank + 4)) s = .next (tells x.ueCount (updBank s b (fun x => { x with ueCount := 0 }))) ∧
        exec (write (bank + 0x18)) s = .next (if a.val ≠ 2 ∨ s.sys.mode ≠ 6 then s
          else updBank s b (fun x => { x with
          checkFlip := v.setWidth 8, dataBitA := v.extractLsb' 8 6, enA := v.getLsbD 14,
          dataBitB := v.extractLsb' 16 6, enB := v.getLsbD 22, arm := v.getLsbD 31 })) ∧
        exec (write bank) s = .next s) ∧
      exec (read (own + 4)) s = .next (tells (y.epoch.setWidth 32) (updIsl s i (fun y => y))) ∧
      exec (read (own + 0x18)) s = .next (tells
        (if y.stretch then satAdd y.stretchUs (ticksSince s y.stretchMark / 50) else y.stretchUs)
        (updIsl s i (fun y => { y with stretchUs := 0, stretchMark := s.tick }))) ∧
      exec (read (own + 0x14)) s = .next (tells (pack [(0, y.droopCount.toNat), (16, y.depthMv.toNat)])
        (updIsl s i (fun y => { y with droopCount := 0, depthMv := 0 }))) ∧
      exec (write (own + 0x0C)) s =
        .next (updIsl s i (fun y => { y with floorMhz := v.extractLsb' 16 12 })) ∧
      exec (read 0x25030000) s = .next (tells (pack [(0, s.win.status.toNat), (24, s.win.count.toNat)])
        { s with win := { s.win with count := 0 } }) ∧
      (s.win.status &&& ~~~ v.setWidth 6 = 0 → exec (write 0x25030000) s = .next { s with win := { s.win with
        status := 0, errAddr := 0, errBar0 := false, errValid := false } }) ∧
      (∃ t, exec (write (0x25030100 + 4 * j.val)) s = .next t ∧ t = { s with win := { s.win with
          guards := t.win.guards } } ∧
        ∀ p, Tab.get 0 t.win.guards p =
          if p / 16 = j.val then v.extractLsb' (2 * (p % 16)) 2 else Tab.get 0 s.win.guards p)) ∧
    (running s (islDeck n) = true → ∃ t, exec (.dhTimerMatch n) s = .next t ∧
      (s.tick.toNat + 2 ^ 32 ≤ 2 ^ 64 →
        s.tick.toNat ≤ t.tick.toNat ∧ t.tick.setWidth 32 = (coreOf s n).timer) ∧
      privSrc t (n + 1) 4 = (privSrc s (n + 1) 4).events 1) ∧
    (running s (islDeck n) = false → exec (.dhTimerMatch n) s = .next s) ∧
    (up = true → ∃ t, exec .lkTimerMatch s = .next t ∧
      (s.tick.toNat + 2 ^ 32 ≤ 2 ^ 64 →
        s.tick.toNat ≤ t.tick.toNat ∧ t.tick.setWidth 32 = s.sys.lkTimer) ∧
      privSrc t 0 20 = (privSrc s 0 20).events 1) ∧
    (up = false → exec .lkTimerMatch s = .next s) ∧
    (agentOut s a = false → exec (.dhHeart a n) s = .next s) ∧
    (agentOut s a = true → a.val = 2 ∨ a.val = 15 ∨ a.val = deck →
      (running s (islDeck n) = true → CoreGets (.dhHeart a n) s n { coreOf s n with heart := s.tick }) ∧
      (running s (islDeck n) = false → exec (.dhHeart a n) s =
        .next (errTo s a (0x11100020 + 0x1000 * n.val) false true .fenced))) ∧
    (agentOut s a = true → a.val ≠ 2 → a.val ≠ 15 → a.val ≠ deck →
      exec (.dhHeart a n) s = .next (emit s (.error a .unmapped)))

/-! ### The interrupt controller (chapter 16) -/

/-- R638: what a read of IC_CLAIM by an agent does to its target. The source that it selects is
pending, lies above the effective threshold, has the highest priority of all that are so, and is the
lowest in number of those, the private ones standing first; it is put in service, and its number,
COUNT and PRIO are returned. If no source qualifies, SRC 0x3FF is returned and SPURIOUS counted. -/
def Obligations.AClaimTakesTheHighestPendingSource : Prop :=
  ∀ (a : Agent) (t : Nat) (s : State), agentTarget s a = some t → a.val ≠ 15 →
    agentOut s a = true →
    let able (p : Nat × Src) : Prop := p ∈ pendingList s t ∧ effThresh s t < p.2.prio.toNat
    (∀ src x, bestClaim s t = some (src, x) →
      able (src, x) ∧
      (∀ p, able p → p.2.prio.toNat ≤ x.prio.toNat ∧ (p.2.prio.toNat = x.prio.toNat → src ≤ p.1)) ∧
      ∃ u, exec (.icClaim a) s = .next u ∧
        u.out = s.out ++ [.word a (pack [(0, src), (16, x.count.toNat), (24, x.prio.toNat)])] ∧
        u = { s with intc := u.intc, out := u.out } ∧
        (∀ n : Fin 256, src = 256 + n.val → sharedSrc u n = { sharedSrc s n with holder := some t } ∧
          ∀ m, m ≠ n.val → sharedSrc u m = sharedSrc s m) ∧
        (∀ n : Fin 32, src = n.val → privSrc u t n = { privSrc s t n with holder := some t } ∧
          ∀ m, m < 32 → m ≠ n.val → privSrc u t m = privSrc s t m)) ∧
    (bestClaim s t = none →
      ((∀ p, ¬ able p) ∨ 4 ≤ (claimed s t).length) ∧
      exec (.icClaim a) s = .next (emit
        (updTarget s t (fun x => { x with spurious := satAdd x.spurious 1 })) (.word a 0x3FF)))

/-- R640: a completion reduces the COUNT of a source in service for the writer by ACK and takes it
out of service; any other is ignored and sets COMPLETE_ERR. R645, R658, R660, R663: what a debug
claim, a software event, a discard and a parity error do; that the Lockkeeper's rewriting after a
parity error belongs to that command is the model's reading (log entry 47). -/
def Obligations.InterruptSourcesAreClaimedAndCompleted : Prop :=
  ∀ (a : Agent) (v : Word) (shared : Bool) (target : Fin 9) (n : Fin 256) (t : Nat) (s : State),
    let own := agentOut s a && decide (agentTarget s a = some t)
    let ofCore := decide (3 ≤ a.val ∧ a.val ≤ 10 ∧ target.val + 2 = a.val)
    let update (shared : Bool) (t n : Nat) (f : Src → Src) : State :=
      if shared then updShared s n f else if n < 32 then updPriv s t n f else s
    let source (shared : Bool) (t n : Nat) : Src := if shared then sharedSrc s n else privSrc s t n
    let named (shared : Bool) (n : Nat) : Prop := (shared ∨ n < 32) ∧ fld v 0 10 = n + 256 * b2n shared
    let raiseErr : State := updTarget s t (fun x => { x with raiseErr := true })
    (own → a.val = 15 →
      exec (.icClaim a) s = .next (emit s (.word a (claimWord (bestClaim s t))))) ∧
    (own → named shared n → (source shared t n).holder = some t → exec (.icComplete a v) s = .next
        (update shared t n (fun y => { y with
          holder := none, count := BitVec.ofNat 8 (y.count.toNat - fld v 16 8) }))) ∧
    (own → (∀ (sh : Bool) (m : Fin 256), named sh m → (source sh t m).holder ≠ some t) →
      exec (.icComplete a v) s = .next (updTarget s t (fun x => { x with completeErr := true }))) ∧
    (own → fld v 0 8 = n.val → bit v 8 = shared →
      ((shared = true → sharedKind s n = .soft) → (shared = false → n.val < 32 ∧ fld v 9 4 = target.val ∧
          privKind target n = .soft) →
        exec (.icRaise a v) s = .next (update shared target n (fun x => { x with
          count := satAdd x.count 1, ovf := x.ovf || decide (x.count = 255) }))) ∧
      (shared = true → sharedKind s n ≠ .soft → exec (.icRaise a v) s = .next raiseErr) ∧
      (shared = false → 32 ≤ n.val ∨ 8 < fld v 9 4 ∨ privKind (fld v 9 4) n ≠ .soft →
        exec (.icRaise a v) s = .next raiseErr)) ∧
    (agentOut s a = false → exec (.icClaim a) s = .next s ∧ exec (.icComplete a v) s = .next s ∧
      exec (.icRaise a v) s = .next s ∧ exec (.discardCount a shared target n) s = .next s) ∧
    (agentOut s a = true → a.val = 2 ∨ (ofCore ∧ shared = false) →
      exec (.discardCount a shared target n) s =
        .next (update shared target n (fun x => { x with count := 0 }))) ∧
    (¬ (a.val = 2 ∨ (ofCore ∧ shared = false)) →
      exec (.discardCount a shared target n) s = .next s) ∧
    (fwRuns s = false → exec (.icParityError shared target n) s =
      .next (update shared target n (fun x => { x with en := false, perr := true }))) ∧
    (fwRuns s = true → let p := update shared target n (fun x => { x with perr := true })
      ∃ w, exec (.icParityError shared target n) s =
        .next (postRec { p with fresh := s.fresh + 1 } 0 0x0B 0 w 0))

/-! ### Sluice (chapter 17) -/

/-- R677, R678, R686, R687, R694: the commands of a channel, by its state, and its stop. -/
def Obligations.SluiceChannelCommandsActByState : Prop :=
  ∀ (a : Agent) (ch : Fin 64) (v : Word) (s u : State),
    let c := chanOf s ch
    let head := fld v 5 21 * 32
    let last := fld (s.sl.last.get 0 a) 5 21 * 32
    let tail : BitVec 26 := BitVec.ofNat 26 (if last = 0 then head else last)
    let fetching (c : Chan) (at' : Nat) : Chan := { c with
      state := .running, step := .fetch, cur := BitVec.ofNat 26 at', desc := [], flight := [],
      issued := 0, err := none, aborted := false, result := true }
    let stopped (s : State) (st : Nat) (residue : BitVec 24) : State :=
      postRec (raiseShared (updChan s ch (fun c => { c with
          state := .stopped, status := BitVec.ofNat 8 st, residue := residue, desc := [],
          flight := [], err := none, aborted := false, result := true })) ch)
        9 0x21 c.handle (pack [(0, st), (8, residue.toNat)]) c.moor
    let parked : Bool := c.state = .empty || c.state = .idleAtTail
    let ending : Bool := c.state = .stopping || c.state = .stopped
    running s islSL = true →
      (agentOut s a = true → scriptAgent a = true →
        (c.state ≠ .idleAtTail → exec (.slDoorbell a ch) s = .next s) ∧
        (c.state = .idleAtTail → readWord s 11 c.cur.toNat = (u, some 0) →
          exec (.slDoorbell a ch) s = .next u) ∧
        (∀ link : Word, c.state = .idleAtTail → readWord s 11 c.cur.toNat = (u, some link) →
          link ≠ 0 → link.toNat % 32 = 0 → link.toNat < 0x04000000 →
          exec (.slDoorbell a ch) s = .next (updChan u ch (fun c => fetching c link.toNat))) ∧
        (c.state = .running → exec (.slAbort a ch) s =
          .next (updChan s ch (fun c => { c with state := .stopping, aborted := true }))) ∧
        (parked → exec (.slAbort a ch) s = .next (stopped s 0x22 0)) ∧
        (ending → exec (.slAbort a ch) s = .next s) ∧
        (c.state = .stopped ∨ c.state = .idleAtTail → exec (.slClear a ch) s =
          .next (updChan s ch (fun c => { c with
            state := .empty, cur := 0, tail := 0, residue := 0, desc := [] }))) ∧
        (c.state ≠ .stopped → c.state ≠ .idleAtTail → exec (.slClear a ch) s = .next s) ∧
        (c.state = .empty → exec (.slAppend a ch v) s =
          .next (updChan s ch (fun c => { fetching c head with tail := tail }))) ∧
        (c.state = .running → writeReq s 11 c.tail.toNat (leBytes 4 head) = (u, none) →
          exec (.slAppend a ch v) s = .next (updChan u ch (fun c => { c with
            next := if c.cur = c.tail && !c.desc.isEmpty then w32 head else c.next,
            tail := tail }))) ∧
        (c.state = .idleAtTail → writeReq s 11 c.tail.toNat (leBytes 4 head) = (u, none) →
          exec (.slAppend a ch v) s =
            .next (updChan u ch (fun c => { fetching c head with tail := tail }))) ∧
        (ending → exec (.slAppend a ch v) s =
          .next (updChan s ch (fun c => { c with appendErr := true })))) ∧
      (∀ off st : Nat, c.state = .stopping → c.flight = [] → c.result = true → c.desc ≠ [] →
        c.total < 2 ^ 24 → c.aborted = false → c.err = some (off, st) →
        (let left := c.total - min c.issued off
         exec (.slChannelStopped ch) s =
          .next (stopped (writeResult s 11 c st left).1 st (BitVec.ofNat 24 left))))

/-- R667, R668, R673 to R676, R684, R689: a fetch, the bursts, the completion of a descriptor, the
tail re-check, and an entry of a submission mooring. R242: a burst waits for an older one whose
request to the same island must be performed first. The bytes that a burst holds are the model's
reading (log entry 37). -/
def Obligations.SluiceExecutesDescriptors : Prop :=
  ∀ (ch : Fin 64) (k : Fin 8) (host : HostCpl) (s u : State),
    let c := chanOf s ch
    running s islSL = true →
      (∀ b : List Byte, c.state = .running → c.step = .fetch → readMem s 11 c.cur.toNat 32 = (u, .ok b) →
        let w := (List.range 8).map (fun k => leWord (b.drop (4 * k)))
        let f : Chan := { chanOf u ch with desc := w, next := w.getD 0 0, issued := 0, step := .move }
        let t := updChan u ch (fun c => { c with desc := w, next := w.getD 0 0, issued := 0, step := .move })
        pageLive s (c.cur.toNat / 65536) = true →
          (f.valid = true → f.pagesOk t = true → f.total ≠ 0 →
            exec (.slDescriptorFetch ch) s = .next t) ∧
          (f.valid = false →
            exec (.slDescriptorFetch ch) s = .next (updChan t ch (fun c => c.fail 0 0x13))) ∧
          (f.valid = true → f.pagesOk t = false →
            exec (.slDescriptorFetch ch) s = .next (updChan t ch (fun c => c.fail 0 0x40))) ∧
          (f.valid = true → f.pagesOk t = true → f.total = 0 →
            exec (.slDescriptorFetch ch) s = .next (completeDesc t ch))) ∧
      (slTurn s = some ch.val → inFlight s < 64 →
        ∃ t, exec .slBurstIssue s = .next t ∧
          (let e := if c.srcSpace = 1 ∨ c.dstSpace = 1 then hostErr s else none
           chanOf t ch = { c with
             flight := c.flight ++ [{ c.burst with err := e, seq := s.sl.bursts }], issued := c.issued + c.burst.len } ∧
           (∀ m, m ≠ ch.val → chanOf t m = chanOf s m) ∧
           (c.srcSpace ≠ 1 → t.out = s.out))) ∧
      (∀ b : Burst, c.flight[k.val]? = some b → burstHeld s c b = true →
        exec (.slBurstComplete ch k host) s = .next s) ∧
      (∀ b : Burst, c.flight[k.val]? = some b → burstHeld s c b = false →
        doBurst s c b host = (u, none) →
        let t := updChan u ch (fun c => { c with flight := c.flight.eraseIdx k })
        let d := chanOf t ch
        (d.flight ≠ [] ∨ d.state ≠ .running → exec (.slBurstComplete ch k host) s = .next t) ∧
        (d.flight = [] → d.state = .running → d.total ≤ d.issued →
          exec (.slBurstComplete ch k host) s = .next (completeDesc t ch))) ∧
      (∀ (b : Burst) (st : Nat), c.flight[k.val]? = some b → burstHeld s c b = false →
        doBurst s c b host = (u, some st) →
        exec (.slBurstComplete ch k host) s = .next (updChan
          (updChan u ch (fun c => { c with flight := c.flight.eraseIdx k })) ch
          (fun c => c.fail b.off st))) ∧
      (writeResult s 11 c 0 0 = (u, none) → c.next = 0 →
        let t := updChan u ch (fun c => { c with done := c.done + 1 })
        let told := if c.notify then
            postRec (raiseShared t ch) 9 0x20 c.handle (c.done + 1) c.moor else t
        completeDesc s ch = updChan told ch (fun c => { c with step := .recheck })) ∧
      (c.state = .running → c.step = .recheck → readWord s 11 c.cur.toNat = (u, some 0) →
        exec (.slTailRecheck ch) s =
          .next (raiseShared (updChan u ch (fun c => { c with state := .idleAtTail })) ch)) ∧
      (∀ link : Word, c.state = .running → c.step = .recheck →
        readWord s 11 c.cur.toNat = (u, some link) → link ≠ 0 → link.toNat % 32 = 0 →
        link.toNat < 0x04000000 →
        exec (.slTailRecheck ch) s = .next (updChan u ch (fun c => c.toFetch link))) ∧
      (∀ (slot i : Nat) (m : Moor) (b e : List Byte) (v x : State),
        s.sl.submits = [(slot, i)] → s.fw.moorings.find? i = some m → 0 < m.size →
        readMem s 11 m.cb 8 = (u, .ok b) → leWord b = leWord (b.drop 4) + 1 →
        readMem u 11 (m.entry (leWord (b.drop 4))) 16 = (v, .ok e) →
        let w := (List.range 4).map (fun k => leWord (e.drop (4 * k)))
        writeReq (submitEntry v w) 11 (m.cb + 4) (leBytes 4 (leWord b).toNat) = (x, none) →
        exec .slSubmitPoll s = .next x)

/-! ### The peripheral island (chapter 18) -/

/-- R727, R728, R734: a write to a GPIO register changes the bits that it names, each to its value,
but for the bits of a firmware-reserved pin in a Deckhand's write. R247: a fenced island answers
with an error, and R793: so does an agent that does not reach the block. R731, R732: the outside
drives a pad; a level that has been stable for the filter time becomes the filtered level, POL
inverting it, and drives or counts on the pin's shared source. The level of an idle SQ1_DC is the
model's choice (log entry 27). -/
def Obligations.GpioRegistersAndPinsFollowTheirRules : Prop :=
  (∀ (a : Agent) (bank : Fin 2) (v : Word) (s : State),
    let inBank (n : Nat) : Bool := n / 32 = bank.val
    let same (n : Nat) : Bool := v.getLsbD (n % 32)
    let lowHalf (n : Nat) : Bool := inBank n && decide (n % 32 < 16) && v.getLsbD (n % 32 + 16)
    let highHalf (n : Nat) : Bool := inBank n && decide (16 ≤ n % 32) && v.getLsbD (n % 32)
    let shifted (n : Nat) : Bool := v.getLsbD (n % 32 - 16)
    let masked (n : Nat) : Bool := decide (3 ≤ a.val ∧ a.val ≤ 10) && s.gp.fw.getLsbD n
    let writes (i : Instr) (o : Nat) (dir : Bool) (named value : Nat → Bool) : Prop :=
      (agentOut s a = false → exec i s = .next s) ∧
      (agentOut s a = true → portAgent a = false →
        exec i s = .next (emit s (.error a .unmapped))) ∧
      (agentOut s a = true → portAgent a = true → running s islPI = false →
        exec i s = .next (errTo s a (0x28001000 + 0x40 * bank.val + o) false true .fenced)) ∧
      (agentOut s a = true → portAgent a = true → running s islPI = true → ∃ t, exec i s = .next t ∧
        t = { s with gp := { s.gp with
                out := t.gp.out, dir := t.gp.dir, denied := t.gp.denied,
                before := t.gp.before, changed := t.gp.changed } } ∧
        (∀ n < 64,
          t.gp.out.getLsbD n =
            (if !dir && named n && !masked n then value n else s.gp.out.getLsbD n) ∧
          t.gp.dir.getLsbD n =
            (if dir && named n && !masked n then value n else s.gp.dir.getLsbD n)) ∧
        (t.gp.denied = true ↔ s.gp.denied = true ∨ ∃ n < 64, (named n && masked n) = true))
    writes (.gpOut a bank v) 0x04 false inBank same ∧
    writes (.gpOutSet a bank v) 0x08 false (fun n => inBank n && same n) (fun _ => true) ∧
    writes (.gpOutClr a bank v) 0x0C false (fun n => inBank n && same n) (fun _ => false) ∧
    writes (.gpOutTgl a bank v) 0x10 false (fun n => inBank n && same n) (fun n => !s.gp.out.getLsbD n) ∧
    writes (.gpOutMwl a bank v) 0x14 false lowHalf same ∧
    writes (.gpOutMwh a bank v) 0x18 false highHalf shifted ∧
    writes (.gpDir a bank v) 0x1C true inBank same ∧
    writes (.gpDirMwl a bank v) 0x20 true lowHalf same ∧
    writes (.gpDirMwh a bank v) 0x24 true highHalf shifted) ∧
  (∀ (pin : Fin 64) (s : State),
    let cfg := s.gp.pinCfg pin
    let level := padLevel s pin ^^ cfg.getLsbD 7
    let t := { s with gp := { s.gp with filt := setBit s.gp.filt pin level } }
    (∀ high : Bool, ∃ u, exec (.gpioPadChange pin high) s = .next u ∧
      u = { s with gp := { s.gp with
              pad := setBit s.gp.pad pin high, before := u.gp.before, changed := u.gp.changed } } ∧
      u.gp.changed = s.tick) ∧
    (running s islPI = true → s.gp.filt.getLsbD pin = level →
      exec (.gpioFilteredChange pin) s = .next s) ∧
    (running s islPI = true → s.gp.filt.getLsbD pin ≠ level →
      exec (.gpioFilteredChange pin) s = .next
        (if cfg.getLsbD 6 then driveShared t (0x60 + pin) level
         else if (if level then cfg.getLsbD 4 else cfg.getLsbD 5) then raiseShared t (0x60 + pin)
         else t)))

/-- R714, R721, R749, R710, R720, R742: what a GO, the FIFO registers, the end of a frame and a
stall do to a serial channel. A free SQ1 lets the next panel frame go. R717 to R719: an early
release in the data phase of the first segment, one that sends on one lane by bytes from a full
enough transmit FIFO, ends the frame with EARLY_RELEASE. Under WORD_STRICT the unit in progress is
finished, and under COMMIT_AT_RELEASE PROGRESS counts every bit clocked. R705, R706, R708: the lines of
a segment, clock by clock, most significant bit first, on the lanes of its phases, and the halves of a
clock. The corners that the spec leaves are the model's reading (log entry 28). -/
def Obligations.SerialChannelsRunAndEndTheirFrames : Prop :=
  (∀ (a : Agent) (ch : Fin 2) (miso : List Byte) (v : Word) (s : State),
    let q := sqOf s ch
    let ended (s : State) (result seg phase bits : Nat) : State :=
      raiseShared (updSq s ch (fun q => { q with
        busy := false, done := true, result := result, seg := seg, phase := phase, bits := bits,
        at_ := 0, off := 0, sent := [], miso := [] })) (0xA0 + ch)
    let noSelect := q.cfg.getLsbD 16 && s.gp.out.getLsbD (fld q.cfg 10 6)
    let u := sqAdvance s ch
    let p := sqOf u ch
    let g := p.segAt p.at_
    -- A start-up of the panel whose reply has been written begins before the end of a frame (R427).
    let w := panelStart s
    let r := sqOf w ch
    let z := sqAdvance w ch
    let y := sqOf z ch
    running s islPI = true →
      (agentOut s a = true → fwAgent a = true →
        (q.busy = true → exec (.sqGo a ch miso) s = .next (updSq s ch (fun q => { q with goErr := true }))) ∧
        (q.busy = false → noSelect = true → exec (.sqGo a ch miso) s = .next (ended s 2 0 0 0)) ∧
        (q.busy = false → noSelect = false → q.badSeg ch = true →
          exec (.sqGo a ch miso) s = .next (ended s 5 0 0 0)) ∧
        (q.busy = false → noSelect = false → q.badSeg ch = false →
          exec (.sqGo a ch miso) s = .next (updSq s ch (fun q => { q with
            busy := true, at_ := 0, off := 0, sent := [], miso := miso }))) ∧
        (q.busy = false → u = s) ∧
        exec (.sqTxdata a ch v) s = .next (updSq u ch (fun q => { q with
          tx := q.tx ++ [v.extractLsb' 0 8, v.extractLsb' 8 8, v.extractLsb' 16 8,
            v.extractLsb' 24 8].take (256 - q.tx.length) })) ∧
        exec (.sqRxdata a ch) s = .next (emit (updSq u ch (fun q => { q with rx := q.rx.drop 4 }))
          (.word a (leWord (p.rx.take 4))))) ∧
      (s.tp.panel.await = none → w = s) ∧
      (r.busy = true → r.held = false → y.complete = true →
        exec (.sqFrameEnd ch) s = .next (panelKick (ended (emit z (y.wire ch)) 0 y.at_
          (y.segAt y.at_).lastPhase (y.off * (y.segAt y.at_).unit)))) ∧
      (r.busy = true → r.held = true → running s islTP = true →
        exec (.sqFrameEnd ch) s = .next (panelKick (panelDone
          (ended (updSq w ch (fun q => { q with held := false })) 0 0 3 0)))) ∧
      (q.busy = true → q.held = false → p.complete = false →
        exec (.sqStallTimeout ch) s = .next
          (panelKick (ended (emit u (p.wire ch)) 3 p.at_ 3 (p.off * g.unit)))) ∧
      (q.busy = true → q.held = true → running s islTP = false →
        exec (.sqStallTimeout ch) s = .next (panelCut
          (ended (updSq s ch (fun q => { q with held := false })) 3 0 3 0) false))) ∧
  (∀ (ch : Fin 2) (bits : Nat) (s : State),
    let q := sqOf s ch
    let g := q.segAt 0
    let whole := if q.cfg.getLsbD 17 then bits / 8 else (bits + 7) / 8
    running s islPI = true → q.busy = true → q.held = false → q.cfg.getLsbD 16 = true →
    s.gp.out.getLsbD (fld q.cfg 10 6) = true →
    q.at_ = 0 → q.off = 0 → q.sent = [] → g.phase.getLsbD 18 = false → g.phase.getLsbD 19 = false →
    bits ≤ 8 * g.len → whole ≤ q.tx.length →
    ∃ t, exec (.earlyRelease ch 0 3 bits) s = .next t ∧
      (sqOf t ch).busy = false ∧ (sqOf t ch).done = true ∧ (sqOf t ch).result = 1 ∧
      (sqOf t ch).seg = 0 ∧ (sqOf t ch).phase = 3 ∧
      (sqOf t ch).bits = (if q.cfg.getLsbD 17 then bits else 8 * whole) ∧
      t.out = s.out ++ [.serial ch none (fld q.cfg 0 8) (decide (2 ≤ fld q.cfg 8 2))
        (g.wave (fld q.cfg 8 2) 3 none (q.tx.take (whole + 1)) (sqOf t ch).bits)] ∧
      t.intc = (raiseShared s (0xA0 + ch)).intc ∧
      (∀ c : Fin 2, c ≠ ch → sqOf t c = sqOf s c)) ∧
  (∀ (g : SqSeg) (b : List Byte) (bits mode : Nat) (l : List Bool) (io : IoLines),
    let code := fld g.phase 16 2
    let bitOf (n : Nat) : Bool := (b.getD (n / 8) 0).getLsbD (7 - n % 8)
    let lvl (v : Bool) : IoLevel := if v then .high else .low
    -- Bits, the first ones first, on one, two or four lanes.
    onLanes 0 l = l.map (fun v => ⟨lvl v, .released, .high, .high⟩) ∧
    onLanes 1 l = (List.range (l.length / 2)).map (fun i =>
      ⟨lvl (l.getD (2 * i + 1) false), lvl (l.getD (2 * i) false), .high, .high⟩) ∧
    onLanes 2 l = (List.range (l.length / 4)).map (fun i =>
      ⟨lvl (l.getD (4 * i + 3) false), lvl (l.getD (4 * i + 2) false), lvl (l.getD (4 * i + 1) false),
        lvl (l.getD (4 * i) false)⟩) ∧
    (g.cmdBits = 1 → g.cmdLines = onLanes (fld g.phase 2 2)
      ((List.range 8).map (fun i => g.cmd.getLsbD (7 - i)))) ∧
    (fld g.phase 4 3 ≤ 4 → g.addrLines = onLanes (fld g.phase 8 2)
      ((List.range (8 * fld g.phase 4 3)).map (fun i => g.addr.getLsbD (8 * fld g.phase 4 3 - 1 - i)))) ∧
    (g.read = false → g.dc9 = false → bits ≤ 8 * b.length →
      g.dataLines b bits = onLanes code ((List.range bits).map bitOf)) ∧
    (g.read = true → code ≠ 0 → g.dataLines b bits = List.replicate (bits / 2 ^ code)
      (if code = 1 then ⟨.released, .released, .high, .high⟩
       else ⟨.released, .released, .released, .released⟩)) ∧
    (g.read = true → code = 0 → ∀ x ∈ g.dataLines b bits,
      x.io1 = .released ∧ x.io2 = .high ∧ x.io3 = .high) ∧
    halves mode false io = (if mode = 1 ∨ mode = 2 then [⟨true, io, false⟩, ⟨false, io, false⟩]
      else [⟨false, io, false⟩, ⟨true, io, false⟩]))

/-- R737, R738: an I2C transaction starts, and ends with its result, DONE and an event on shared
source 0xA2. R739 to R741, R278: an AVSBus transaction is sent, or refused with RANGE; it ends OK or
FAIL with an event on shared source 0xA3, and the third failure in a row loses the rail's bus. That
failures of every operation count is the model's choice (log entry 29). -/
def Obligations.I2cAndAvsBusTransactionsRunAndEnd : Prop :=
  (∀ (a : Agent) (v : Word) (low stuck : Bool) (got : List Byte) (w r : Nat) (s : State),
    let port := fld v 0 3
    let x := s.pi.i2c
    let began : I2c := { x with
      ctrl := v &&& i2cCtrlMask, cur := v &&& i2cCtrlMask, recover := setBit x.recover port false }
    let pulses : List Out := if x.recover.getLsbD port || low then [.i2cRecover port] else []
    let ended (s : State) (y : I2c) (result : Nat) : State :=
      raiseShared { s with pi := { s.pi with
        i2c := { y with busy := false, done := true, result := result } } } 0xA2
    running s islPI = true →
      (agentOut s a = true → fwAgent a = true → x.busy = false → i2cShape v = some (w, r) →
        exec (.i2cGo a v low stuck) s = .next
          (if low && stuck then ended { s with out := s.out ++ [.i2cRecover port] } began 3
           else { s with
              pi := { s.pi with i2c := { began with busy := true } },
              out := s.out ++ pulses ++ [.i2c port (fld v 8 7) (x.wdata.take w) r] })) ∧
      (x.busy = true →
        exec (.i2cDone true got) s = .next (ended s x 1) ∧
        exec .i2cStretchTimeout s = .next (ended s x 2) ∧
        (i2cShape x.cur = some (w, r) → r ≤ got.length → r ≤ x.rdata.length →
          exec (.i2cDone false got) s = .next
            (ended s { x with rdata := got.take r ++ x.rdata.drop r } 0)))) ∧
  (∀ (a : Agent) (n : Fin 2) (mv data : BitVec 16) (ack : BitVec 2) (crcOk : Bool) (s : State),
    let x := avsOf s n
    let sent (op v : Nat) : State :=
      emit (updAvs s n (fun x => { x with op := some (op, v) })) (.avs n op v)
    running s islPI = true →
      (agentOut s a = true → fwAgent a = true → x.op = none →
        (exec (.voltageWrite a n mv) s = .next (if 650 ≤ mv.toNat ∧ mv.toNat ≤ 900 then sent 1 mv.toNat
          else raiseShared (updAvs s n (fun x => { x with op := none, done := true, result := 2 })) 0xA3)) ∧
        exec (.voltageRead a n) s = .next (sent 2 0) ∧
        exec (.statusRead a n) s = .next (sent 3 0)) ∧
      (∀ op v, x.op = some (op, v) → ∃ t, exec (.avsDone n crcOk ack data) s = .next t ∧
        (let good := crcOk && decide (ack = 0)
         let lost := decide (3 ≤ (satAdd x.fails 1).toNat) && !(railOf s n).avsLost
         let r := railOf s n
         avsOf t n = { x with op := none, done := true, ack := ack, data := data,
                              result := if good then 0 else 1,
                              fails := if good then 0 else satAdd x.fails 1 } ∧
         railOf t n =
           (if good = false then (if lost then { r with avsLost := true, loopRun := false } else r)
            else if op = 1 then { r with setMv := BitVec.ofNat 10 v }
            else if op = 2 then { r with readMv := data.truncate 10 }
            else if r.avsLost then { r with avsLost := false, loopRun := true } else r) ∧
         (∀ m, m ≠ n.val → avsOf t m = avsOf s m ∧ railOf t m = railOf s m) ∧
         sharedSrc t 0xA3 = (sharedSrc s 0xA3).events 1 ∧
         (good || !lost → t.staging = s.staging))))

/-! ### The Ceing instructions (chapter 15) -/

/-- R609: the register forms of the ALU instructions, with d the old value of the destination and x
that of the source register, and the immediate forms, which take two cells. -/
def Obligations.AluInstructionsComputeTheirResult : Prop :=
  (∀ (core : Fin 8) (rd rs : Fin 16) (s : State), CoreReady s core 1 →
    let c := coreOf s core
    let d := c.d[rd]
    let x := c.d[rs]
    let ci := b2n c.c
    CoreGets (.movReg core rd rs) s core ((c.past 1).result rd x c.c c.v) ∧
    CoreGets (.addReg core rd rs) s core ((c.past 1).result rd (d + x)
      (decide (2 ^ 16 ≤ d.toNat + x.toNat)) (decide ((d + x).toInt ≠ d.toInt + x.toInt))) ∧
    CoreGets (.adcReg core rd rs) s core ((c.past 1).result rd (d + x + BitVec.ofNat 16 ci)
      (decide (2 ^ 16 ≤ d.toNat + x.toNat + ci))
      (decide ((d + x + BitVec.ofNat 16 ci).toInt ≠ d.toInt + x.toInt + ci))) ∧
    CoreGets (.subReg core rd rs) s core ((c.past 1).result rd (d - x)
      (decide (d.toNat < x.toNat)) (decide ((d - x).toInt ≠ d.toInt - x.toInt))) ∧
    CoreGets (.sbcReg core rd rs) s core ((c.past 1).result rd (d - x - BitVec.ofNat 16 ci)
      (decide (d.toNat < x.toNat + ci))
      (decide ((d - x - BitVec.ofNat 16 ci).toInt ≠ d.toInt - x.toInt - ci))) ∧
    CoreGets (.andReg core rd rs) s core ((c.past 1).result rd (d &&& x) false false) ∧
    CoreGets (.orReg core rd rs) s core ((c.past 1).result rd (d ||| x) false false) ∧
    CoreGets (.xorReg core rd rs) s core ((c.past 1).result rd (d ^^^ x) false false) ∧
    CoreGets (.cmpReg core rd rs) s core ((c.past 1).flagged (d - x)
      (decide (d.toNat < x.toNat)) (decide ((d - x).toInt ≠ d.toInt - x.toInt))) ∧
    CoreGets (.tstReg core rd rs) s core ((c.past 1).flagged (d &&& x) false false)) ∧
  (∀ (core : Fin 8) (rd : Fin 16) (x : Cell) (s : State), CoreReady s core 2 →
    let c := coreOf s core
    let d := c.d[rd]
    CoreGets (.movi core rd x) s core ((c.past 2).result rd x c.c c.v) ∧
    CoreGets (.addi core rd x) s core ((c.past 2).result rd (d + x)
      (decide (2 ^ 16 ≤ d.toNat + x.toNat)) (decide ((d + x).toInt ≠ d.toInt + x.toInt))) ∧
    CoreGets (.subi core rd x) s core ((c.past 2).result rd (d - x)
      (decide (d.toNat < x.toNat)) (decide ((d - x).toInt ≠ d.toInt - x.toInt))) ∧
    CoreGets (.andi core rd x) s core ((c.past 2).result rd (d &&& x) false false) ∧
    CoreGets (.ori core rd x) s core ((c.past 2).result rd (d ||| x) false false) ∧
    CoreGets (.xori core rd x) s core ((c.past 2).result rd (d ^^^ x) false false) ∧
    CoreGets (.cmpi core rd x) s core ((c.past 2).flagged (d - x)
      (decide (d.toNat < x.toNat)) (decide ((d - x).toInt ≠ d.toInt - x.toInt))) ∧
    CoreGets (.tsti core rd x) s core ((c.past 2).flagged (d &&& x) false false))

/-- R610: the unary instructions, the shifts and rotations with a count of k + 1 (1 to 16), and
those by s[3:0], where a count of 0 leaves d and clears C. -/
def Obligations.UnaryAndShiftInstructionsComputeTheirResult : Prop :=
  (∀ (core : Fin 8) (rd k : Fin 16) (s : State), CoreReady s core 1 →
    let c := coreOf s core
    let d := c.d[rd]
    let n := k.val + 1
    let q := BitVec.ofNat 16 n
    CoreGets (.shl core rd k) s core ((c.past 1).result rd (d <<< n) (d.getLsbD (16 - n)) false) ∧
    CoreGets (.shr core rd k) s core ((c.past 1).result rd (d >>> n) (d.getLsbD (n - 1)) false) ∧
    CoreGets (.sar core rd k) s core
      ((c.past 1).result rd (d.sshiftRight n) (d.getLsbD (n - 1)) false) ∧
    CoreGets (.rol core rd k) s core ((c.past 1).result rd (d.rotateLeft (n % 16))
      ((d.rotateLeft (n % 16)).getLsbD 0) false) ∧
    CoreGets (.ror core rd k) s core ((c.past 1).result rd (d.rotateRight (n % 16))
      ((d.rotateRight (n % 16)).getLsbD 15) false) ∧
    CoreGets (.negReg core rd) s core ((c.past 1).result rd (-d)
      (decide (d ≠ 0)) (decide ((-d).toInt ≠ -d.toInt))) ∧
    CoreGets (.notReg core rd) s core ((c.past 1).result rd (~~~d) false false) ∧
    CoreGets (.sxb core rd) s core
      ((c.past 1).result rd ((d.setWidth 8).signExtend 16) false false) ∧
    CoreGets (.swpb core rd) s core ((c.past 1).result rd ((d <<< 8) ||| (d >>> 8)) false false) ∧
    CoreGets (.addq core rd k) s core ((c.past 1).result rd (d + q)
      (decide (2 ^ 16 ≤ d.toNat + n)) (decide ((d + q).toInt ≠ d.toInt + n))) ∧
    CoreGets (.subq core rd k) s core ((c.past 1).result rd (d - q)
      (decide (d.toNat < n)) (decide ((d - q).toInt ≠ d.toInt - n)))) ∧
  (∀ (core : Fin 8) (rd rs : Fin 16) (s : State), CoreReady s core 1 →
    let c := coreOf s core
    let d := c.d[rd]
    let n := (c.d[rs]).toNat % 16
    CoreGets (.shlReg core rd rs) s core
      ((c.past 1).result rd (d <<< n) (decide (n ≠ 0) && d.getLsbD (16 - n)) false) ∧
    CoreGets (.shrReg core rd rs) s core
      ((c.past 1).result rd (d >>> n) (decide (n ≠ 0) && d.getLsbD (n - 1)) false) ∧
    CoreGets (.sarReg core rd rs) s core
      ((c.past 1).result rd (d.sshiftRight n) (decide (n ≠ 0) && d.getLsbD (n - 1)) false) ∧
    CoreGets (.rolReg core rd rs) s core ((c.past 1).result rd (d.rotateLeft n)
      (decide (n ≠ 0) && (d.rotateLeft n).getLsbD 0) false) ∧
    CoreGets (.rorReg core rd rs) s core ((c.past 1).result rd (d.rotateRight n)
      (decide (n ≠ 0) && (d.rotateRight n).getLsbD 15) false))

/-- R611, R612: the pair and multiply instructions, and division by a register that is not 0, where
a quotient that does not fit changes C and V alone. -/
def Obligations.PairMultiplyAndDivideInstructionsComputeTheirResult : Prop :=
  (∀ (core : Fin 8) (k j : Fin 8) (rs : Fin 16) (s : State), CoreReady s core 1 →
    let c := coreOf s core
    let a := c.pair k
    let b := c.pair j
    let low := c.d[lowReg k]
    let x := c.d[rs]
    CoreGets (.movp core k j) s core ((c.past 1).resultPair k b c.c c.v) ∧
    CoreGets (.addp core k j) s core ((c.past 1).resultPair k (a + b)
      (decide (2 ^ 32 ≤ a.toNat + b.toNat)) (decide ((a + b).toInt ≠ a.toInt + b.toInt))) ∧
    CoreGets (.subp core k j) s core ((c.past 1).resultPair k (a - b)
      (decide (a.toNat < b.toNat)) (decide ((a - b).toInt ≠ a.toInt - b.toInt))) ∧
    CoreGets (.cmpp core k j) s core ((c.past 1).flagged (a - b)
      (decide (a.toNat < b.toNat)) (decide ((a - b).toInt ≠ a.toInt - b.toInt))) ∧
    CoreGets (.mulu core k rs) s core
      ((c.past 1).resultPair k (BitVec.ofNat 32 (low.toNat * x.toNat)) false false) ∧
    CoreGets (.muls core k rs) s core
      ((c.past 1).resultPair k (BitVec.ofInt 32 (low.toInt * x.toInt)) false false)) ∧
  (∀ (core : Fin 8) (k : Fin 8) (rs : Fin 16) (s : State), CoreReady s core 1 →
    let c := coreOf s core
    let a := c.pair k
    let x := c.d[rs]
    let done (q r : Cell) : Core :=
      { (c.past 1).flagged q false false with d := (c.d.set (lowReg k) q).set (highReg k) r }
    let unfit : Core := { c.past 1 with c := false, v := true }
    x ≠ 0 →
      (a.toNat / x.toNat < 2 ^ 16 → CoreGets (.divu core k rs) s core
        (done (BitVec.ofNat 16 (a.toNat / x.toNat)) (BitVec.ofNat 16 (a.toNat % x.toNat)))) ∧
      (2 ^ 16 ≤ a.toNat / x.toNat → CoreGets (.divu core k rs) s core unfit) ∧
      (-32768 ≤ a.toInt.tdiv x.toInt ∧ a.toInt.tdiv x.toInt ≤ 32767 →
        CoreGets (.divs core k rs) s core
          (done (BitVec.ofInt 16 (a.toInt.tdiv x.toInt)) (BitVec.ofInt 16 (a.toInt.tmod x.toInt)))) ∧
      (a.toInt.tdiv x.toInt < -32768 ∨ 32767 < a.toInt.tdiv x.toInt →
        CoreGets (.divs core k rs) s core unfit))

/-- R617, R618, R619: the base-register instructions (`bset` for the kernel level, `bsub` for a
result inside its source) and the port-base instructions. -/
def Obligations.BaseInstructionsWriteTheirBase : Prop :=
  (∀ (core : Fin 8) (k j a b : Fin 8) (x : Cell) (s : State),
    let c := coreOf s core
    let bk := c.b[k]
    let bj := c.b[j]
    let p := c.past 1
    let p2 := c.past 2
    let put (q : Core) (r : BReg) : Core := { q with b := c.b.set k r }
    let get (v : Word) : Core :=
      { p with d := (c.d.set (lowReg a) (v.setWidth 16)).set (highReg a) (v.extractLsb' 16 16) }
    (CoreReady s core 1 →
      CoreGets (.bmov core k j) s core (put p bj) ∧
      CoreGets (.bbase core k a) s core (put p { bk with base := c.pair a }) ∧
      CoreGets (.badd core k a) s core (put p { bk with base := bk.base + c.pair a }) ∧
      CoreGets (.bgetB core a j) s core (get bj.base) ∧
      CoreGets (.bgetF core a j) s core (get bj.floor) ∧
      CoreGets (.bgetL core a j) s core (get bj.limit) ∧
      CoreGets (.bgetM core a j) s core (get (bj.mode.setWidth 32)) ∧
      (c.kernel = true → CoreGets (.bset core k) s core (put p
        { base := c.pair 0, floor := c.pair 1, limit := c.pair 2, mode := (c.d[6]).setWidth 2 }))) ∧
    (CoreReady s core 2 →
      CoreGets (.baddi core k x) s core (put p2 { bk with base := bk.base + x.signExtend 32 }) ∧
      (c.pair b ≠ 0 → bj.floor.toNat ≤ bj.base.toNat + (c.pair a).toNat →
        bj.base.toNat + (c.pair a).toNat + (c.pair b).toNat - 1 ≤ bj.limit.toNat →
        CoreGets (.bsub core k j a b) s core (put p2
          { base := bj.base + c.pair a, floor := bj.base + c.pair a,
            limit := bj.base + c.pair a + c.pair b - 1, mode := bj.mode })))) ∧
  (∀ (core : Fin 8) (k : Fin 4) (r : Fin 16) (x : Cell) (s : State),
    let c := coreOf s core
    (CoreReady s core 1 →
      CoreGets (.pmov core k r) s core { c.past 1 with p := c.p.set k c.d[r] } ∧
      CoreGets (.pget core r k) s core { c.past 1 with d := c.d.set r c.p[k] } ∧
      CoreGets (.padd core k r) s core { c.past 1 with p := c.p.set k (c.p[k] + c.d[r]) }) ∧
    (CoreReady s core 2 →
      CoreGets (.pseti core k x) s core { c.past 2 with p := c.p.set k x }))

/-- R605, R620: the branches; no flag changes. A condition is stated by the flags, by its code. -/
def Obligations.BranchInstructionsGoWhereTheirConditionSays : Prop :=
  ∀ (core : Fin 8) (cc : Fin 15) (rs : Fin 16) (rel8 : BitVec 8) (rel : Cell) (s : State),
    let c := coreOf s core
    let holds := #[true, c.z, !c.z, !c.c, c.c, c.n, !c.n, c.v, !c.v, !c.c && !c.z, c.c || c.z,
      c.n == c.v, c.n != c.v, !c.z && c.n == c.v, c.z || c.n != c.v].getD cc.val false
    let n1 := c.pc + 1
    let n2 := c.pc + 2
    (CoreReady s core 1 →
      CoreGets (.bCc core cc rel8) s core
        { c.past 1 with pc := if holds then n1 + rel8.signExtend 16 else n1 } ∧
      CoreGets (.dbnz core rs rel8) s core
        { c.past 1 with d := c.d.set rs (c.d[rs] - 1),
                        pc := if c.d[rs] - 1 ≠ 0 then n1 + rel8.signExtend 16 else n1 }) ∧
    (CoreReady s core 2 →
      CoreGets (.bCcL core cc rel) s core { c.past 2 with pc := if holds then n2 + rel else n2 } ∧
      CoreGets (.callRel core rel) s core { c.past 2 with d := c.d.set 15 n2, pc := n2 + rel })

/-- R606, R570, R608: the system instructions that touch their core alone. `reti` and `wfi` are for
the kernel level, and `sync` with no store error to come. -/
def Obligations.SystemInstructionsActOnTheirCore : Prop :=
  ∀ (core : Fin 8) (r : Fin 16) (rel : Cell) (s : State),
    let c := coreOf s core
    let p := c.past 1
    (CoreReady s core 1 →
      CoreGets (.nopInstr core) s core p ∧
      CoreGets (.cli core) s core { p with ie := false } ∧
      CoreGets (.sti core) s core { p with ie := true } ∧
      CoreGets (.getf core r) s core
        { p with d := c.d.set r (BitVec.ofNat 16 (8 * b2n c.z + 4 * b2n c.n + 2 * b2n c.c + b2n c.v)) } ∧
      CoreGets (.setf core r) s core
        { p with z := (c.d[r]).getLsbD 3, n := (c.d[r]).getLsbD 2, c := (c.d[r]).getLsbD 1,
                 v := (c.d[r]).getLsbD 0 } ∧
      CoreGets (.jr core r) s core { p with pc := c.d[r] } ∧
      CoreGets (.callr core r) s core { p with d := c.d.set 15 (c.pc + 1), pc := c.d[r] } ∧
      (c.storeErr = [] → CoreGets (.sync core) s core p) ∧
      (c.kernel = true → CoreGets (.reti core) s core
        { p with pc := c.epc, z := c.estat.getLsbD 3, n := c.estat.getLsbD 2, c := c.estat.getLsbD 1,
                 v := c.estat.getLsbD 0, ie := c.estat.getLsbD 4, kernel := c.estat.getLsbD 5 }) ∧
      (c.kernel = true → CoreGets (.wfi core) s core
        { p with waiting := !requested s (core + 1) })) ∧
    (CoreReady s core 2 →
      CoreGets (.adr core r rel) s core { c.past 2 with d := c.d.set r (c.pc + 2 + rel) })
end

