-- ==== Sys2Proof/Laws/Tab.lean ====
section
/-! SUPPORT. The laws of the sparse tables: what a read after a write gives, and that every
operation keeps the canonical form. -/

namespace Sys2Proof.Machine

variable {α : Type}

theorem Tab.find?_put_self (t : Tab α) (i : Nat) (v : α) : Tab.find? (Tab.put t i v) i = some v := by
  induction t with
  | nil => simp [Tab.put, Tab.find?]
  | cons p r ih =>
    obtain ⟨k, w⟩ := p
    simp only [Tab.put]
    split
    · simp [Tab.find?]
    · split
      · simp [Tab.find?]
      · simp [Tab.find?, *]

theorem Tab.find?_put_of_ne (t : Tab α) {i j : Nat} (v : α) (h : j ≠ i) :
    Tab.find? (Tab.put t i v) j = Tab.find? t j := by
  induction t with
  | nil => simp [Tab.put, Tab.find?, Ne.symm h]
  | cons p r ih =>
    obtain ⟨k, w⟩ := p
    simp only [Tab.put]
    split
    · subst_vars; simp [Tab.find?, Ne.symm h]
    · split
      · simp [Tab.find?, Ne.symm h]
      · simp [Tab.find?, ih]

theorem Tab.find?_erase_self (t : Tab α) (i : Nat) : Tab.find? (Tab.erase t i) i = none := by
  induction t with
  | nil => rfl
  | cons p r ih =>
    obtain ⟨k, w⟩ := p
    unfold Tab.erase at ih ⊢
    by_cases hk : k = i
    · simp [hk, ih]
    · simp [hk, Tab.find?, ih]

theorem Tab.find?_erase_of_ne (t : Tab α) {i j : Nat} (h : j ≠ i) :
    Tab.find? (Tab.erase t i) j = Tab.find? t j := by
  induction t with
  | nil => rfl
  | cons p r ih =>
    obtain ⟨k, w⟩ := p
    unfold Tab.erase at ih ⊢
    by_cases hk : k = i
    · simp [hk, ih, Tab.find?, Ne.symm h]
    · simp [hk, Tab.find?, ih]

section
variable [DecidableEq α] (d : α)

/-- A read after a write of the same key gives the value written. -/
theorem Tab.get_set_self (t : Tab α) (i : Nat) (v : α) : Tab.get d (Tab.set d t i v) i = v := by
  unfold Tab.get Tab.set
  split
  · simp [Tab.find?_erase_self, *]
  · simp [Tab.find?_put_self]

/-- A write leaves every other key alone. -/
theorem Tab.get_set_of_ne (t : Tab α) {i j : Nat} (v : α) (h : j ≠ i) :
    Tab.get d (Tab.set d t i v) j = Tab.get d t j := by
  unfold Tab.get Tab.set
  split
  · simp [Tab.find?_erase_of_ne t h]
  · simp [Tab.find?_put_of_ne t v h]

theorem Tab.get_upd_self (t : Tab α) (i : Nat) (f : α → α) :
    Tab.get d (Tab.upd d t i f) i = f (Tab.get d t i) := Tab.get_set_self d t i _

theorem Tab.get_upd_of_ne (t : Tab α) {i j : Nat} (f : α → α) (h : j ≠ i) :
    Tab.get d (Tab.upd d t i f) j = Tab.get d t j := Tab.get_set_of_ne d t _ h
end

/-! ### The canonical form -/

theorem Tab.all_erase (t : Tab α) (i : Nat) (p : Nat × α → Bool) (h : t.all p = true) :
    (Tab.erase t i).all p = true := by
  simp only [Tab.erase, List.all_eq_true, List.mem_filter] at *
  exact fun x hx => h x hx.1

theorem Tab.all_put (t : Tab α) (i : Nat) (v : α) (p : Nat × α → Bool) (h : t.all p = true)
    (hv : p (i, v) = true) : (Tab.put t i v).all p = true := by
  induction t with
  | nil => simp [Tab.put, hv]
  | cons x r ih =>
    obtain ⟨k, w⟩ := x
    simp only [List.all_cons, Bool.and_eq_true] at h
    simp only [Tab.put]
    split
    · simpa [hv] using h.2
    · split
      · simpa [hv] using h
      · simpa [h.1] using ih h.2

theorem Tab.sorted_erase (t : Tab α) (i : Nat) (h : Tab.sorted t = true) :
    Tab.sorted (Tab.erase t i) = true := by
  induction t with
  | nil => rfl
  | cons x r ih =>
    obtain ⟨k, w⟩ := x
    simp only [Tab.sorted, Bool.and_eq_true] at h
    have ih := ih h.2
    have ha := Tab.all_erase r i _ h.1
    unfold Tab.erase at ih ha ⊢
    by_cases hk : k = i
    · simpa [List.filter_cons, hk] using ih
    · simpa [List.filter_cons, hk, Tab.sorted, ih] using ha

theorem Tab.sorted_put (t : Tab α) (i : Nat) (v : α) (h : Tab.sorted t = true) :
    Tab.sorted (Tab.put t i v) = true := by
  induction t with
  | nil => simp [Tab.put, Tab.sorted]
  | cons x r ih =>
    obtain ⟨k, w⟩ := x
    simp only [Tab.sorted, Bool.and_eq_true] at h
    simp only [Tab.put]
    split
    · subst_vars; simpa [Tab.sorted] using h
    · split
      · rename_i hlt
        simp only [Tab.sorted, List.all_cons, Bool.and_eq_true, decide_eq_true_eq]
        refine ⟨⟨hlt, ?_⟩, h⟩
        simp only [List.all_eq_true, decide_eq_true_eq] at *
        exact fun y hy => lt_trans hlt (h.1 y hy)
      · simp only [Tab.sorted, Bool.and_eq_true]
        exact ⟨Tab.all_put r i v _ h.1 (by simp; omega), ih h.2⟩

theorem Tab.all_filter (t : Tab α) (q p : Nat × α → Bool) (h : t.all p = true) :
    (t.filter q).all p = true := by
  simp only [List.all_eq_true, List.mem_filter] at *
  exact fun x hx => h x hx.1

theorem Tab.sorted_filter (t : Tab α) (q : Nat × α → Bool) (h : Tab.sorted t = true) :
    Tab.sorted (t.filter q) = true := by
  induction t with
  | nil => rfl
  | cons x r ih =>
    obtain ⟨k, w⟩ := x
    simp only [Tab.sorted, Bool.and_eq_true] at h
    rw [List.filter_cons]
    split
    · simp only [Tab.sorted, Bool.and_eq_true]
      exact ⟨Tab.all_filter r q _ h.1, ih h.2⟩
    · exact ih h.2

/-- Keeping some of the entries keeps the canonical form. -/
theorem Tab.wf_filter [DecidableEq α] (d : α) (t : Tab α) (q : Nat × α → Bool)
    (h : Tab.wf d t = true) : Tab.wf d (t.filter q) = true := by
  simp only [Tab.wf, Bool.and_eq_true] at *
  exact ⟨Tab.sorted_filter t q h.1, Tab.all_filter t q _ h.2⟩

/-- A write keeps the canonical form. -/
theorem Tab.wf_set [DecidableEq α] (d : α) (t : Tab α) (i : Nat) (v : α) (h : Tab.wf d t = true) :
    Tab.wf d (Tab.set d t i v) = true := by
  simp only [Tab.wf, Bool.and_eq_true] at *
  unfold Tab.set
  split
  · exact ⟨Tab.sorted_erase t i h.1, Tab.all_erase t i _ h.2⟩
  · exact ⟨Tab.sorted_put t i v h.1, Tab.all_put t i v _ h.2 (by simp [*])⟩

/-- Listing a value that is not the default keeps the canonical form. -/
theorem Tab.wf_put [DecidableEq α] (d : α) (t : Tab α) (i : Nat) (v : α) (hv : v ≠ d)
    (h : Tab.wf d t = true) : Tab.wf d (Tab.put t i v) = true := by
  simp only [Tab.wf, Bool.and_eq_true] at *
  exact ⟨Tab.sorted_put t i v h.1, Tab.all_put t i v _ h.2 (by simp [hv])⟩

end Sys2Proof.Machine
end

