-- ==== Sys2Proof/Laws/Core.lean ====
section
/-! SUPPORT. The laws of the Ceing cores: what a change of one core leaves, and how an
instruction that may execute begins. -/

namespace Sys2Proof.Machine

@[simp] theorem coreOf_updCore_self (s : State) (n : Nat) (f : Core → Core) :
    coreOf (updCore s n f) n = f (coreOf s n) := Tab.get_upd_self _ _ _ _

theorem coreOf_updCore_of_ne (s : State) {n m : Nat} (f : Core → Core) (h : m ≠ n) :
    coreOf (updCore s n f) m = coreOf s m := Tab.get_upd_of_ne _ _ _ h

theorem OnlyCore.refl (s : State) (n : Nat) : OnlyCore s s n := ⟨fun _ _ => rfl, rfl⟩

theorem OnlyCore.updCore {s t : State} {n : Nat} (h : OnlyCore s t n) (f : Core → Core) :
    OnlyCore s (updCore t n f) n :=
  ⟨fun m hm => (coreOf_updCore_of_ne t f hm).trans (h.1 m hm), h.2⟩

theorem OnlyCore.trans {s t u : State} {n : Nat} (h : OnlyCore s t n) (h' : OnlyCore t u n) :
    OnlyCore s u n := by
  refine ⟨fun m hm => (h'.1 m hm).trans (h.1 m hm), ?_⟩
  have a := h.2
  have b := h'.2
  rw [← a, ← b]

/-- Fetching looks at the level, the PC and the bounds alone. -/
@[simp] theorem fetchBad_waiting (c : Core) (len : Nat) :
    fetchBad { c with waiting := false } len = fetchBad c len := rfl

/-- An instruction that may execute runs with no `wfi` in progress. -/
theorem begin_of_ready {s : State} {n : Fin 8} {len : Nat} (h : CoreReady s n len)
    (f : State → State) :
    begin_ s n len f = f (updCore s n (fun c => { c with waiting := false })) := by
  simp [begin_, h.1, h.2]

/-- What a register instruction does to its core, and to nothing else. -/
theorem regInstr_of_ready {s : State} {n : Fin 8} {len : Nat} (h : CoreReady s n len)
    (f : Core → Core) :
    coreOf (regInstr s n len f) n = f ((coreOf s n).past len) ∧
    OnlyCore s (regInstr s n len f) n := by
  rw [regInstr, begin_of_ready h]
  exact ⟨by simp [Core.skip, Core.past], ((OnlyCore.refl s n).updCore _).updCore _⟩

/-- A command that is one register instruction does what its function says to the core. -/
theorem CoreGets.of_regInstr {i : Instr} {s : State} {n : Fin 8} {len : Nat} {f : Core → Core}
    {c : Core} (h : CoreReady s n len) (he : exec i s = .next (regInstr s n len f))
    (hf : f ((coreOf s n).past len) = c) : CoreGets i s n c :=
  ⟨_, he, (regInstr_of_ready h f).1.trans hf, (regInstr_of_ready h f).2⟩

end Sys2Proof.Machine
end

