-- ==== Sys2Proof/Laws/State.lean ====
section
/-! SUPPORT. The laws of the updates of State: what each update gives for each field, and what a
read of a table gives after a write of it. -/

namespace Sys2Proof.Machine

section onBasin
variable (s : State) (f : Basin → Basin)
@[simp] theorem onBasin_pending : (onBasin s f).pending = s.pending := rfl
@[simp] theorem onBasin_tick : (onBasin s f).tick = s.tick := rfl
@[simp] theorem onBasin_fresh : (onBasin s f).fresh = s.fresh := rfl
@[simp] theorem onBasin_out : (onBasin s f).out = s.out := rfl
@[simp] theorem onBasin_pins : (onBasin s f).pins = s.pins := rfl
@[simp] theorem onBasin_otp : (onBasin s f).otp = s.otp := rfl
@[simp] theorem onBasin_flash : (onBasin s f).flash = s.flash := rfl
@[simp] theorem onBasin_flashBad : (onBasin s f).flashBad = s.flashBad := rfl
@[simp] theorem onBasin_sys : (onBasin s f).sys = s.sys := rfl
@[simp] theorem onBasin_basin : (onBasin s f).basin = f s.basin := rfl
@[simp] theorem onBasin_weir : (onBasin s f).weir = s.weir := rfl
@[simp] theorem onBasin_islands : (onBasin s f).islands = s.islands := rfl
@[simp] theorem onBasin_rails : (onBasin s f).rails = s.rails := rfl
@[simp] theorem onBasin_staging : (onBasin s f).staging = s.staging := rfl
@[simp] theorem onBasin_intc : (onBasin s f).intc = s.intc := rfl
@[simp] theorem onBasin_mbx : (onBasin s f).mbx = s.mbx := rfl
@[simp] theorem onBasin_win : (onBasin s f).win = s.win := rfl
@[simp] theorem onBasin_pcie : (onBasin s f).pcie = s.pcie := rfl
@[simp] theorem onBasin_fw : (onBasin s f).fw = s.fw := rfl
@[simp] theorem onBasin_gp : (onBasin s f).gp = s.gp := rfl
@[simp] theorem onBasin_pi : (onBasin s f).pi = s.pi := rfl
@[simp] theorem onBasin_tp : (onBasin s f).tp = s.tp := rfl
@[simp] theorem onBasin_tl : (onBasin s f).tl = s.tl := rfl
@[simp] theorem onBasin_cv : (onBasin s f).cv = s.cv := rfl
@[simp] theorem onBasin_sl : (onBasin s f).sl = s.sl := rfl
@[simp] theorem onBasin_dh : (onBasin s f).dh = s.dh := rfl
end onBasin

section onWeir
variable (s : State) (f : Weir → Weir)
@[simp] theorem onWeir_pending : (onWeir s f).pending = s.pending := rfl
@[simp] theorem onWeir_tick : (onWeir s f).tick = s.tick := rfl
@[simp] theorem onWeir_fresh : (onWeir s f).fresh = s.fresh := rfl
@[simp] theorem onWeir_out : (onWeir s f).out = s.out := rfl
@[simp] theorem onWeir_pins : (onWeir s f).pins = s.pins := rfl
@[simp] theorem onWeir_otp : (onWeir s f).otp = s.otp := rfl
@[simp] theorem onWeir_flash : (onWeir s f).flash = s.flash := rfl
@[simp] theorem onWeir_flashBad : (onWeir s f).flashBad = s.flashBad := rfl
@[simp] theorem onWeir_sys : (onWeir s f).sys = s.sys := rfl
@[simp] theorem onWeir_basin : (onWeir s f).basin = s.basin := rfl
@[simp] theorem onWeir_weir : (onWeir s f).weir = f s.weir := rfl
@[simp] theorem onWeir_islands : (onWeir s f).islands = s.islands := rfl
@[simp] theorem onWeir_rails : (onWeir s f).rails = s.rails := rfl
@[simp] theorem onWeir_staging : (onWeir s f).staging = s.staging := rfl
@[simp] theorem onWeir_intc : (onWeir s f).intc = s.intc := rfl
@[simp] theorem onWeir_mbx : (onWeir s f).mbx = s.mbx := rfl
@[simp] theorem onWeir_win : (onWeir s f).win = s.win := rfl
@[simp] theorem onWeir_pcie : (onWeir s f).pcie = s.pcie := rfl
@[simp] theorem onWeir_fw : (onWeir s f).fw = s.fw := rfl
@[simp] theorem onWeir_gp : (onWeir s f).gp = s.gp := rfl
@[simp] theorem onWeir_pi : (onWeir s f).pi = s.pi := rfl
@[simp] theorem onWeir_tp : (onWeir s f).tp = s.tp := rfl
@[simp] theorem onWeir_tl : (onWeir s f).tl = s.tl := rfl
@[simp] theorem onWeir_cv : (onWeir s f).cv = s.cv := rfl
@[simp] theorem onWeir_sl : (onWeir s f).sl = s.sl := rfl
@[simp] theorem onWeir_dh : (onWeir s f).dh = s.dh := rfl
end onWeir

section onIntc
variable (s : State) (f : Intc → Intc)
@[simp] theorem onIntc_pending : (onIntc s f).pending = s.pending := rfl
@[simp] theorem onIntc_tick : (onIntc s f).tick = s.tick := rfl
@[simp] theorem onIntc_fresh : (onIntc s f).fresh = s.fresh := rfl
@[simp] theorem onIntc_out : (onIntc s f).out = s.out := rfl
@[simp] theorem onIntc_pins : (onIntc s f).pins = s.pins := rfl
@[simp] theorem onIntc_otp : (onIntc s f).otp = s.otp := rfl
@[simp] theorem onIntc_flash : (onIntc s f).flash = s.flash := rfl
@[simp] theorem onIntc_flashBad : (onIntc s f).flashBad = s.flashBad := rfl
@[simp] theorem onIntc_sys : (onIntc s f).sys = s.sys := rfl
@[simp] theorem onIntc_basin : (onIntc s f).basin = s.basin := rfl
@[simp] theorem onIntc_weir : (onIntc s f).weir = s.weir := rfl
@[simp] theorem onIntc_islands : (onIntc s f).islands = s.islands := rfl
@[simp] theorem onIntc_rails : (onIntc s f).rails = s.rails := rfl
@[simp] theorem onIntc_staging : (onIntc s f).staging = s.staging := rfl
@[simp] theorem onIntc_intc : (onIntc s f).intc = f s.intc := rfl
@[simp] theorem onIntc_mbx : (onIntc s f).mbx = s.mbx := rfl
@[simp] theorem onIntc_win : (onIntc s f).win = s.win := rfl
@[simp] theorem onIntc_pcie : (onIntc s f).pcie = s.pcie := rfl
@[simp] theorem onIntc_fw : (onIntc s f).fw = s.fw := rfl
@[simp] theorem onIntc_gp : (onIntc s f).gp = s.gp := rfl
@[simp] theorem onIntc_pi : (onIntc s f).pi = s.pi := rfl
@[simp] theorem onIntc_tp : (onIntc s f).tp = s.tp := rfl
@[simp] theorem onIntc_tl : (onIntc s f).tl = s.tl := rfl
@[simp] theorem onIntc_cv : (onIntc s f).cv = s.cv := rfl
@[simp] theorem onIntc_sl : (onIntc s f).sl = s.sl := rfl
@[simp] theorem onIntc_dh : (onIntc s f).dh = s.dh := rfl
end onIntc

section onSys
variable (s : State) (f : Sys → Sys)
@[simp] theorem onSys_pending : (onSys s f).pending = s.pending := rfl
@[simp] theorem onSys_tick : (onSys s f).tick = s.tick := rfl
@[simp] theorem onSys_fresh : (onSys s f).fresh = s.fresh := rfl
@[simp] theorem onSys_out : (onSys s f).out = s.out := rfl
@[simp] theorem onSys_pins : (onSys s f).pins = s.pins := rfl
@[simp] theorem onSys_otp : (onSys s f).otp = s.otp := rfl
@[simp] theorem onSys_flash : (onSys s f).flash = s.flash := rfl
@[simp] theorem onSys_flashBad : (onSys s f).flashBad = s.flashBad := rfl
@[simp] theorem onSys_sys : (onSys s f).sys = f s.sys := rfl
@[simp] theorem onSys_basin : (onSys s f).basin = s.basin := rfl
@[simp] theorem onSys_weir : (onSys s f).weir = s.weir := rfl
@[simp] theorem onSys_islands : (onSys s f).islands = s.islands := rfl
@[simp] theorem onSys_rails : (onSys s f).rails = s.rails := rfl
@[simp] theorem onSys_staging : (onSys s f).staging = s.staging := rfl
@[simp] theorem onSys_intc : (onSys s f).intc = s.intc := rfl
@[simp] theorem onSys_mbx : (onSys s f).mbx = s.mbx := rfl
@[simp] theorem onSys_win : (onSys s f).win = s.win := rfl
@[simp] theorem onSys_pcie : (onSys s f).pcie = s.pcie := rfl
@[simp] theorem onSys_fw : (onSys s f).fw = s.fw := rfl
@[simp] theorem onSys_gp : (onSys s f).gp = s.gp := rfl
@[simp] theorem onSys_pi : (onSys s f).pi = s.pi := rfl
@[simp] theorem onSys_tp : (onSys s f).tp = s.tp := rfl
@[simp] theorem onSys_tl : (onSys s f).tl = s.tl := rfl
@[simp] theorem onSys_cv : (onSys s f).cv = s.cv := rfl
@[simp] theorem onSys_sl : (onSys s f).sl = s.sl := rfl
@[simp] theorem onSys_dh : (onSys s f).dh = s.dh := rfl
end onSys

section onWin
variable (s : State) (f : Window → Window)
@[simp] theorem onWin_pending : (onWin s f).pending = s.pending := rfl
@[simp] theorem onWin_tick : (onWin s f).tick = s.tick := rfl
@[simp] theorem onWin_fresh : (onWin s f).fresh = s.fresh := rfl
@[simp] theorem onWin_out : (onWin s f).out = s.out := rfl
@[simp] theorem onWin_pins : (onWin s f).pins = s.pins := rfl
@[simp] theorem onWin_otp : (onWin s f).otp = s.otp := rfl
@[simp] theorem onWin_flash : (onWin s f).flash = s.flash := rfl
@[simp] theorem onWin_flashBad : (onWin s f).flashBad = s.flashBad := rfl
@[simp] theorem onWin_sys : (onWin s f).sys = s.sys := rfl
@[simp] theorem onWin_basin : (onWin s f).basin = s.basin := rfl
@[simp] theorem onWin_weir : (onWin s f).weir = s.weir := rfl
@[simp] theorem onWin_islands : (onWin s f).islands = s.islands := rfl
@[simp] theorem onWin_rails : (onWin s f).rails = s.rails := rfl
@[simp] theorem onWin_staging : (onWin s f).staging = s.staging := rfl
@[simp] theorem onWin_intc : (onWin s f).intc = s.intc := rfl
@[simp] theorem onWin_mbx : (onWin s f).mbx = s.mbx := rfl
@[simp] theorem onWin_win : (onWin s f).win = f s.win := rfl
@[simp] theorem onWin_pcie : (onWin s f).pcie = s.pcie := rfl
@[simp] theorem onWin_fw : (onWin s f).fw = s.fw := rfl
@[simp] theorem onWin_gp : (onWin s f).gp = s.gp := rfl
@[simp] theorem onWin_pi : (onWin s f).pi = s.pi := rfl
@[simp] theorem onWin_tp : (onWin s f).tp = s.tp := rfl
@[simp] theorem onWin_tl : (onWin s f).tl = s.tl := rfl
@[simp] theorem onWin_cv : (onWin s f).cv = s.cv := rfl
@[simp] theorem onWin_sl : (onWin s f).sl = s.sl := rfl
@[simp] theorem onWin_dh : (onWin s f).dh = s.dh := rfl
end onWin

section onPcie
variable (s : State) (f : Pcie → Pcie)
@[simp] theorem onPcie_pending : (onPcie s f).pending = s.pending := rfl
@[simp] theorem onPcie_tick : (onPcie s f).tick = s.tick := rfl
@[simp] theorem onPcie_fresh : (onPcie s f).fresh = s.fresh := rfl
@[simp] theorem onPcie_out : (onPcie s f).out = s.out := rfl
@[simp] theorem onPcie_pins : (onPcie s f).pins = s.pins := rfl
@[simp] theorem onPcie_otp : (onPcie s f).otp = s.otp := rfl
@[simp] theorem onPcie_flash : (onPcie s f).flash = s.flash := rfl
@[simp] theorem onPcie_flashBad : (onPcie s f).flashBad = s.flashBad := rfl
@[simp] theorem onPcie_sys : (onPcie s f).sys = s.sys := rfl
@[simp] theorem onPcie_basin : (onPcie s f).basin = s.basin := rfl
@[simp] theorem onPcie_weir : (onPcie s f).weir = s.weir := rfl
@[simp] theorem onPcie_islands : (onPcie s f).islands = s.islands := rfl
@[simp] theorem onPcie_rails : (onPcie s f).rails = s.rails := rfl
@[simp] theorem onPcie_staging : (onPcie s f).staging = s.staging := rfl
@[simp] theorem onPcie_intc : (onPcie s f).intc = s.intc := rfl
@[simp] theorem onPcie_mbx : (onPcie s f).mbx = s.mbx := rfl
@[simp] theorem onPcie_win : (onPcie s f).win = s.win := rfl
@[simp] theorem onPcie_pcie : (onPcie s f).pcie = f s.pcie := rfl
@[simp] theorem onPcie_fw : (onPcie s f).fw = s.fw := rfl
@[simp] theorem onPcie_gp : (onPcie s f).gp = s.gp := rfl
@[simp] theorem onPcie_pi : (onPcie s f).pi = s.pi := rfl
@[simp] theorem onPcie_tp : (onPcie s f).tp = s.tp := rfl
@[simp] theorem onPcie_tl : (onPcie s f).tl = s.tl := rfl
@[simp] theorem onPcie_cv : (onPcie s f).cv = s.cv := rfl
@[simp] theorem onPcie_sl : (onPcie s f).sl = s.sl := rfl
@[simp] theorem onPcie_dh : (onPcie s f).dh = s.dh := rfl
end onPcie

section onFw
variable (s : State) (f : Fw → Fw)
@[simp] theorem onFw_pending : (onFw s f).pending = s.pending := rfl
@[simp] theorem onFw_tick : (onFw s f).tick = s.tick := rfl
@[simp] theorem onFw_fresh : (onFw s f).fresh = s.fresh := rfl
@[simp] theorem onFw_out : (onFw s f).out = s.out := rfl
@[simp] theorem onFw_pins : (onFw s f).pins = s.pins := rfl
@[simp] theorem onFw_otp : (onFw s f).otp = s.otp := rfl
@[simp] theorem onFw_flash : (onFw s f).flash = s.flash := rfl
@[simp] theorem onFw_flashBad : (onFw s f).flashBad = s.flashBad := rfl
@[simp] theorem onFw_sys : (onFw s f).sys = s.sys := rfl
@[simp] theorem onFw_basin : (onFw s f).basin = s.basin := rfl
@[simp] theorem onFw_weir : (onFw s f).weir = s.weir := rfl
@[simp] theorem onFw_islands : (onFw s f).islands = s.islands := rfl
@[simp] theorem onFw_rails : (onFw s f).rails = s.rails := rfl
@[simp] theorem onFw_staging : (onFw s f).staging = s.staging := rfl
@[simp] theorem onFw_intc : (onFw s f).intc = s.intc := rfl
@[simp] theorem onFw_mbx : (onFw s f).mbx = s.mbx := rfl
@[simp] theorem onFw_win : (onFw s f).win = s.win := rfl
@[simp] theorem onFw_pcie : (onFw s f).pcie = s.pcie := rfl
@[simp] theorem onFw_fw : (onFw s f).fw = f s.fw := rfl
@[simp] theorem onFw_gp : (onFw s f).gp = s.gp := rfl
@[simp] theorem onFw_pi : (onFw s f).pi = s.pi := rfl
@[simp] theorem onFw_tp : (onFw s f).tp = s.tp := rfl
@[simp] theorem onFw_tl : (onFw s f).tl = s.tl := rfl
@[simp] theorem onFw_cv : (onFw s f).cv = s.cv := rfl
@[simp] theorem onFw_sl : (onFw s f).sl = s.sl := rfl
@[simp] theorem onFw_dh : (onFw s f).dh = s.dh := rfl
end onFw

section onPi
variable (s : State) (f : Serial → Serial)
@[simp] theorem onPi_pending : (onPi s f).pending = s.pending := rfl
@[simp] theorem onPi_tick : (onPi s f).tick = s.tick := rfl
@[simp] theorem onPi_fresh : (onPi s f).fresh = s.fresh := rfl
@[simp] theorem onPi_out : (onPi s f).out = s.out := rfl
@[simp] theorem onPi_pins : (onPi s f).pins = s.pins := rfl
@[simp] theorem onPi_otp : (onPi s f).otp = s.otp := rfl
@[simp] theorem onPi_flash : (onPi s f).flash = s.flash := rfl
@[simp] theorem onPi_flashBad : (onPi s f).flashBad = s.flashBad := rfl
@[simp] theorem onPi_sys : (onPi s f).sys = s.sys := rfl
@[simp] theorem onPi_basin : (onPi s f).basin = s.basin := rfl
@[simp] theorem onPi_weir : (onPi s f).weir = s.weir := rfl
@[simp] theorem onPi_islands : (onPi s f).islands = s.islands := rfl
@[simp] theorem onPi_rails : (onPi s f).rails = s.rails := rfl
@[simp] theorem onPi_staging : (onPi s f).staging = s.staging := rfl
@[simp] theorem onPi_intc : (onPi s f).intc = s.intc := rfl
@[simp] theorem onPi_mbx : (onPi s f).mbx = s.mbx := rfl
@[simp] theorem onPi_win : (onPi s f).win = s.win := rfl
@[simp] theorem onPi_pcie : (onPi s f).pcie = s.pcie := rfl
@[simp] theorem onPi_fw : (onPi s f).fw = s.fw := rfl
@[simp] theorem onPi_gp : (onPi s f).gp = s.gp := rfl
@[simp] theorem onPi_pi : (onPi s f).pi = f s.pi := rfl
@[simp] theorem onPi_tp : (onPi s f).tp = s.tp := rfl
@[simp] theorem onPi_tl : (onPi s f).tl = s.tl := rfl
@[simp] theorem onPi_cv : (onPi s f).cv = s.cv := rfl
@[simp] theorem onPi_sl : (onPi s f).sl = s.sl := rfl
@[simp] theorem onPi_dh : (onPi s f).dh = s.dh := rfl
end onPi

section onTp
variable (s : State) (f : Towpath → Towpath)
@[simp] theorem onTp_pending : (onTp s f).pending = s.pending := rfl
@[simp] theorem onTp_tick : (onTp s f).tick = s.tick := rfl
@[simp] theorem onTp_fresh : (onTp s f).fresh = s.fresh := rfl
@[simp] theorem onTp_out : (onTp s f).out = s.out := rfl
@[simp] theorem onTp_pins : (onTp s f).pins = s.pins := rfl
@[simp] theorem onTp_otp : (onTp s f).otp = s.otp := rfl
@[simp] theorem onTp_flash : (onTp s f).flash = s.flash := rfl
@[simp] theorem onTp_flashBad : (onTp s f).flashBad = s.flashBad := rfl
@[simp] theorem onTp_sys : (onTp s f).sys = s.sys := rfl
@[simp] theorem onTp_basin : (onTp s f).basin = s.basin := rfl
@[simp] theorem onTp_weir : (onTp s f).weir = s.weir := rfl
@[simp] theorem onTp_islands : (onTp s f).islands = s.islands := rfl
@[simp] theorem onTp_rails : (onTp s f).rails = s.rails := rfl
@[simp] theorem onTp_staging : (onTp s f).staging = s.staging := rfl
@[simp] theorem onTp_intc : (onTp s f).intc = s.intc := rfl
@[simp] theorem onTp_mbx : (onTp s f).mbx = s.mbx := rfl
@[simp] theorem onTp_win : (onTp s f).win = s.win := rfl
@[simp] theorem onTp_pcie : (onTp s f).pcie = s.pcie := rfl
@[simp] theorem onTp_fw : (onTp s f).fw = s.fw := rfl
@[simp] theorem onTp_gp : (onTp s f).gp = s.gp := rfl
@[simp] theorem onTp_pi : (onTp s f).pi = s.pi := rfl
@[simp] theorem onTp_tp : (onTp s f).tp = f s.tp := rfl
@[simp] theorem onTp_tl : (onTp s f).tl = s.tl := rfl
@[simp] theorem onTp_cv : (onTp s f).cv = s.cv := rfl
@[simp] theorem onTp_sl : (onTp s f).sl = s.sl := rfl
@[simp] theorem onTp_dh : (onTp s f).dh = s.dh := rfl
end onTp

section onTl
variable (s : State) (f : Towline → Towline)
@[simp] theorem onTl_pending : (onTl s f).pending = s.pending := rfl
@[simp] theorem onTl_tick : (onTl s f).tick = s.tick := rfl
@[simp] theorem onTl_fresh : (onTl s f).fresh = s.fresh := rfl
@[simp] theorem onTl_out : (onTl s f).out = s.out := rfl
@[simp] theorem onTl_pins : (onTl s f).pins = s.pins := rfl
@[simp] theorem onTl_otp : (onTl s f).otp = s.otp := rfl
@[simp] theorem onTl_flash : (onTl s f).flash = s.flash := rfl
@[simp] theorem onTl_flashBad : (onTl s f).flashBad = s.flashBad := rfl
@[simp] theorem onTl_sys : (onTl s f).sys = s.sys := rfl
@[simp] theorem onTl_basin : (onTl s f).basin = s.basin := rfl
@[simp] theorem onTl_weir : (onTl s f).weir = s.weir := rfl
@[simp] theorem onTl_islands : (onTl s f).islands = s.islands := rfl
@[simp] theorem onTl_rails : (onTl s f).rails = s.rails := rfl
@[simp] theorem onTl_staging : (onTl s f).staging = s.staging := rfl
@[simp] theorem onTl_intc : (onTl s f).intc = s.intc := rfl
@[simp] theorem onTl_mbx : (onTl s f).mbx = s.mbx := rfl
@[simp] theorem onTl_win : (onTl s f).win = s.win := rfl
@[simp] theorem onTl_pcie : (onTl s f).pcie = s.pcie := rfl
@[simp] theorem onTl_fw : (onTl s f).fw = s.fw := rfl
@[simp] theorem onTl_gp : (onTl s f).gp = s.gp := rfl
@[simp] theorem onTl_pi : (onTl s f).pi = s.pi := rfl
@[simp] theorem onTl_tp : (onTl s f).tp = s.tp := rfl
@[simp] theorem onTl_tl : (onTl s f).tl = f s.tl := rfl
@[simp] theorem onTl_cv : (onTl s f).cv = s.cv := rfl
@[simp] theorem onTl_sl : (onTl s f).sl = s.sl := rfl
@[simp] theorem onTl_dh : (onTl s f).dh = s.dh := rfl
end onTl

section onCv
variable (s : State) (f : Chervil → Chervil)
@[simp] theorem onCv_pending : (onCv s f).pending = s.pending := rfl
@[simp] theorem onCv_tick : (onCv s f).tick = s.tick := rfl
@[simp] theorem onCv_fresh : (onCv s f).fresh = s.fresh := rfl
@[simp] theorem onCv_out : (onCv s f).out = s.out := rfl
@[simp] theorem onCv_pins : (onCv s f).pins = s.pins := rfl
@[simp] theorem onCv_otp : (onCv s f).otp = s.otp := rfl
@[simp] theorem onCv_flash : (onCv s f).flash = s.flash := rfl
@[simp] theorem onCv_flashBad : (onCv s f).flashBad = s.flashBad := rfl
@[simp] theorem onCv_sys : (onCv s f).sys = s.sys := rfl
@[simp] theorem onCv_basin : (onCv s f).basin = s.basin := rfl
@[simp] theorem onCv_weir : (onCv s f).weir = s.weir := rfl
@[simp] theorem onCv_islands : (onCv s f).islands = s.islands := rfl
@[simp] theorem onCv_rails : (onCv s f).rails = s.rails := rfl
@[simp] theorem onCv_staging : (onCv s f).staging = s.staging := rfl
@[simp] theorem onCv_intc : (onCv s f).intc = s.intc := rfl
@[simp] theorem onCv_mbx : (onCv s f).mbx = s.mbx := rfl
@[simp] theorem onCv_win : (onCv s f).win = s.win := rfl
@[simp] theorem onCv_pcie : (onCv s f).pcie = s.pcie := rfl
@[simp] theorem onCv_fw : (onCv s f).fw = s.fw := rfl
@[simp] theorem onCv_gp : (onCv s f).gp = s.gp := rfl
@[simp] theorem onCv_pi : (onCv s f).pi = s.pi := rfl
@[simp] theorem onCv_tp : (onCv s f).tp = s.tp := rfl
@[simp] theorem onCv_tl : (onCv s f).tl = s.tl := rfl
@[simp] theorem onCv_cv : (onCv s f).cv = f s.cv := rfl
@[simp] theorem onCv_sl : (onCv s f).sl = s.sl := rfl
@[simp] theorem onCv_dh : (onCv s f).dh = s.dh := rfl
end onCv

section onSl
variable (s : State) (f : Sluice → Sluice)
@[simp] theorem onSl_pending : (onSl s f).pending = s.pending := rfl
@[simp] theorem onSl_tick : (onSl s f).tick = s.tick := rfl
@[simp] theorem onSl_fresh : (onSl s f).fresh = s.fresh := rfl
@[simp] theorem onSl_out : (onSl s f).out = s.out := rfl
@[simp] theorem onSl_pins : (onSl s f).pins = s.pins := rfl
@[simp] theorem onSl_otp : (onSl s f).otp = s.otp := rfl
@[simp] theorem onSl_flash : (onSl s f).flash = s.flash := rfl
@[simp] theorem onSl_flashBad : (onSl s f).flashBad = s.flashBad := rfl
@[simp] theorem onSl_sys : (onSl s f).sys = s.sys := rfl
@[simp] theorem onSl_basin : (onSl s f).basin = s.basin := rfl
@[simp] theorem onSl_weir : (onSl s f).weir = s.weir := rfl
@[simp] theorem onSl_islands : (onSl s f).islands = s.islands := rfl
@[simp] theorem onSl_rails : (onSl s f).rails = s.rails := rfl
@[simp] theorem onSl_staging : (onSl s f).staging = s.staging := rfl
@[simp] theorem onSl_intc : (onSl s f).intc = s.intc := rfl
@[simp] theorem onSl_mbx : (onSl s f).mbx = s.mbx := rfl
@[simp] theorem onSl_win : (onSl s f).win = s.win := rfl
@[simp] theorem onSl_pcie : (onSl s f).pcie = s.pcie := rfl
@[simp] theorem onSl_fw : (onSl s f).fw = s.fw := rfl
@[simp] theorem onSl_gp : (onSl s f).gp = s.gp := rfl
@[simp] theorem onSl_pi : (onSl s f).pi = s.pi := rfl
@[simp] theorem onSl_tp : (onSl s f).tp = s.tp := rfl
@[simp] theorem onSl_tl : (onSl s f).tl = s.tl := rfl
@[simp] theorem onSl_cv : (onSl s f).cv = s.cv := rfl
@[simp] theorem onSl_sl : (onSl s f).sl = f s.sl := rfl
@[simp] theorem onSl_dh : (onSl s f).dh = s.dh := rfl
end onSl

section onDh
variable (s : State) (f : Decks → Decks)
@[simp] theorem onDh_pending : (onDh s f).pending = s.pending := rfl
@[simp] theorem onDh_tick : (onDh s f).tick = s.tick := rfl
@[simp] theorem onDh_fresh : (onDh s f).fresh = s.fresh := rfl
@[simp] theorem onDh_out : (onDh s f).out = s.out := rfl
@[simp] theorem onDh_pins : (onDh s f).pins = s.pins := rfl
@[simp] theorem onDh_otp : (onDh s f).otp = s.otp := rfl
@[simp] theorem onDh_flash : (onDh s f).flash = s.flash := rfl
@[simp] theorem onDh_flashBad : (onDh s f).flashBad = s.flashBad := rfl
@[simp] theorem onDh_sys : (onDh s f).sys = s.sys := rfl
@[simp] theorem onDh_basin : (onDh s f).basin = s.basin := rfl
@[simp] theorem onDh_weir : (onDh s f).weir = s.weir := rfl
@[simp] theorem onDh_islands : (onDh s f).islands = s.islands := rfl
@[simp] theorem onDh_rails : (onDh s f).rails = s.rails := rfl
@[simp] theorem onDh_staging : (onDh s f).staging = s.staging := rfl
@[simp] theorem onDh_intc : (onDh s f).intc = s.intc := rfl
@[simp] theorem onDh_mbx : (onDh s f).mbx = s.mbx := rfl
@[simp] theorem onDh_win : (onDh s f).win = s.win := rfl
@[simp] theorem onDh_pcie : (onDh s f).pcie = s.pcie := rfl
@[simp] theorem onDh_fw : (onDh s f).fw = s.fw := rfl
@[simp] theorem onDh_gp : (onDh s f).gp = s.gp := rfl
@[simp] theorem onDh_pi : (onDh s f).pi = s.pi := rfl
@[simp] theorem onDh_tp : (onDh s f).tp = s.tp := rfl
@[simp] theorem onDh_tl : (onDh s f).tl = s.tl := rfl
@[simp] theorem onDh_cv : (onDh s f).cv = s.cv := rfl
@[simp] theorem onDh_sl : (onDh s f).sl = s.sl := rfl
@[simp] theorem onDh_dh : (onDh s f).dh = f s.dh := rfl
end onDh

section emit
variable (s : State) (o : Out)
@[simp] theorem emit_pending : (emit s o).pending = s.pending := rfl
@[simp] theorem emit_tick : (emit s o).tick = s.tick := rfl
@[simp] theorem emit_fresh : (emit s o).fresh = s.fresh := rfl
@[simp] theorem emit_out : (emit s o).out = s.out ++ [o] := rfl
@[simp] theorem emit_pins : (emit s o).pins = s.pins := rfl
@[simp] theorem emit_otp : (emit s o).otp = s.otp := rfl
@[simp] theorem emit_flash : (emit s o).flash = s.flash := rfl
@[simp] theorem emit_flashBad : (emit s o).flashBad = s.flashBad := rfl
@[simp] theorem emit_sys : (emit s o).sys = s.sys := rfl
@[simp] theorem emit_basin : (emit s o).basin = s.basin := rfl
@[simp] theorem emit_weir : (emit s o).weir = s.weir := rfl
@[simp] theorem emit_islands : (emit s o).islands = s.islands := rfl
@[simp] theorem emit_rails : (emit s o).rails = s.rails := rfl
@[simp] theorem emit_staging : (emit s o).staging = s.staging := rfl
@[simp] theorem emit_intc : (emit s o).intc = s.intc := rfl
@[simp] theorem emit_mbx : (emit s o).mbx = s.mbx := rfl
@[simp] theorem emit_win : (emit s o).win = s.win := rfl
@[simp] theorem emit_pcie : (emit s o).pcie = s.pcie := rfl
@[simp] theorem emit_fw : (emit s o).fw = s.fw := rfl
@[simp] theorem emit_gp : (emit s o).gp = s.gp := rfl
@[simp] theorem emit_pi : (emit s o).pi = s.pi := rfl
@[simp] theorem emit_tp : (emit s o).tp = s.tp := rfl
@[simp] theorem emit_tl : (emit s o).tl = s.tl := rfl
@[simp] theorem emit_cv : (emit s o).cv = s.cv := rfl
@[simp] theorem emit_sl : (emit s o).sl = s.sl := rfl
@[simp] theorem emit_dh : (emit s o).dh = s.dh := rfl
end emit

section emits
variable (s : State) (o : List Out)
@[simp] theorem emits_pending : (emits s o).pending = s.pending := rfl
@[simp] theorem emits_tick : (emits s o).tick = s.tick := rfl
@[simp] theorem emits_fresh : (emits s o).fresh = s.fresh := rfl
@[simp] theorem emits_out : (emits s o).out = s.out ++ o := rfl
@[simp] theorem emits_pins : (emits s o).pins = s.pins := rfl
@[simp] theorem emits_otp : (emits s o).otp = s.otp := rfl
@[simp] theorem emits_flash : (emits s o).flash = s.flash := rfl
@[simp] theorem emits_flashBad : (emits s o).flashBad = s.flashBad := rfl
@[simp] theorem emits_sys : (emits s o).sys = s.sys := rfl
@[simp] theorem emits_basin : (emits s o).basin = s.basin := rfl
@[simp] theorem emits_weir : (emits s o).weir = s.weir := rfl
@[simp] theorem emits_islands : (emits s o).islands = s.islands := rfl
@[simp] theorem emits_rails : (emits s o).rails = s.rails := rfl
@[simp] theorem emits_staging : (emits s o).staging = s.staging := rfl
@[simp] theorem emits_intc : (emits s o).intc = s.intc := rfl
@[simp] theorem emits_mbx : (emits s o).mbx = s.mbx := rfl
@[simp] theorem emits_win : (emits s o).win = s.win := rfl
@[simp] theorem emits_pcie : (emits s o).pcie = s.pcie := rfl
@[simp] theorem emits_fw : (emits s o).fw = s.fw := rfl
@[simp] theorem emits_gp : (emits s o).gp = s.gp := rfl
@[simp] theorem emits_pi : (emits s o).pi = s.pi := rfl
@[simp] theorem emits_tp : (emits s o).tp = s.tp := rfl
@[simp] theorem emits_tl : (emits s o).tl = s.tl := rfl
@[simp] theorem emits_cv : (emits s o).cv = s.cv := rfl
@[simp] theorem emits_sl : (emits s o).sl = s.sl := rfl
@[simp] theorem emits_dh : (emits s o).dh = s.dh := rfl
end emits

section updIsl
variable (s : State) (i : Nat) (f : Island → Island)
@[simp] theorem updIsl_pending : (updIsl s i f).pending = s.pending := rfl
@[simp] theorem updIsl_tick : (updIsl s i f).tick = s.tick := rfl
@[simp] theorem updIsl_fresh : (updIsl s i f).fresh = s.fresh := rfl
@[simp] theorem updIsl_out : (updIsl s i f).out = s.out := rfl
@[simp] theorem updIsl_pins : (updIsl s i f).pins = s.pins := rfl
@[simp] theorem updIsl_otp : (updIsl s i f).otp = s.otp := rfl
@[simp] theorem updIsl_flash : (updIsl s i f).flash = s.flash := rfl
@[simp] theorem updIsl_flashBad : (updIsl s i f).flashBad = s.flashBad := rfl
@[simp] theorem updIsl_sys : (updIsl s i f).sys = s.sys := rfl
@[simp] theorem updIsl_basin : (updIsl s i f).basin = s.basin := rfl
@[simp] theorem updIsl_weir : (updIsl s i f).weir = s.weir := rfl
@[simp] theorem updIsl_rails : (updIsl s i f).rails = s.rails := rfl
@[simp] theorem updIsl_staging : (updIsl s i f).staging = s.staging := rfl
@[simp] theorem updIsl_intc : (updIsl s i f).intc = s.intc := rfl
@[simp] theorem updIsl_mbx : (updIsl s i f).mbx = s.mbx := rfl
@[simp] theorem updIsl_win : (updIsl s i f).win = s.win := rfl
@[simp] theorem updIsl_pcie : (updIsl s i f).pcie = s.pcie := rfl
@[simp] theorem updIsl_fw : (updIsl s i f).fw = s.fw := rfl
@[simp] theorem updIsl_gp : (updIsl s i f).gp = s.gp := rfl
@[simp] theorem updIsl_pi : (updIsl s i f).pi = s.pi := rfl
@[simp] theorem updIsl_tp : (updIsl s i f).tp = s.tp := rfl
@[simp] theorem updIsl_tl : (updIsl s i f).tl = s.tl := rfl
@[simp] theorem updIsl_cv : (updIsl s i f).cv = s.cv := rfl
@[simp] theorem updIsl_sl : (updIsl s i f).sl = s.sl := rfl
@[simp] theorem updIsl_dh : (updIsl s i f).dh = s.dh := rfl
end updIsl

section updRail
variable (s : State) (n : Nat) (f : Rail → Rail)
@[simp] theorem updRail_pending : (updRail s n f).pending = s.pending := rfl
@[simp] theorem updRail_tick : (updRail s n f).tick = s.tick := rfl
@[simp] theorem updRail_fresh : (updRail s n f).fresh = s.fresh := rfl
@[simp] theorem updRail_out : (updRail s n f).out = s.out := rfl
@[simp] theorem updRail_pins : (updRail s n f).pins = s.pins := rfl
@[simp] theorem updRail_otp : (updRail s n f).otp = s.otp := rfl
@[simp] theorem updRail_flash : (updRail s n f).flash = s.flash := rfl
@[simp] theorem updRail_flashBad : (updRail s n f).flashBad = s.flashBad := rfl
@[simp] theorem updRail_sys : (updRail s n f).sys = s.sys := rfl
@[simp] theorem updRail_basin : (updRail s n f).basin = s.basin := rfl
@[simp] theorem updRail_weir : (updRail s n f).weir = s.weir := rfl
@[simp] theorem updRail_islands : (updRail s n f).islands = s.islands := rfl
@[simp] theorem updRail_staging : (updRail s n f).staging = s.staging := rfl
@[simp] theorem updRail_intc : (updRail s n f).intc = s.intc := rfl
@[simp] theorem updRail_mbx : (updRail s n f).mbx = s.mbx := rfl
@[simp] theorem updRail_win : (updRail s n f).win = s.win := rfl
@[simp] theorem updRail_pcie : (updRail s n f).pcie = s.pcie := rfl
@[simp] theorem updRail_fw : (updRail s n f).fw = s.fw := rfl
@[simp] theorem updRail_gp : (updRail s n f).gp = s.gp := rfl
@[simp] theorem updRail_pi : (updRail s n f).pi = s.pi := rfl
@[simp] theorem updRail_tp : (updRail s n f).tp = s.tp := rfl
@[simp] theorem updRail_tl : (updRail s n f).tl = s.tl := rfl
@[simp] theorem updRail_cv : (updRail s n f).cv = s.cv := rfl
@[simp] theorem updRail_sl : (updRail s n f).sl = s.sl := rfl
@[simp] theorem updRail_dh : (updRail s n f).dh = s.dh := rfl
end updRail

section updMbx
variable (s : State) (m : Nat) (f : Mbx → Mbx)
@[simp] theorem updMbx_pending : (updMbx s m f).pending = s.pending := rfl
@[simp] theorem updMbx_tick : (updMbx s m f).tick = s.tick := rfl
@[simp] theorem updMbx_fresh : (updMbx s m f).fresh = s.fresh := rfl
@[simp] theorem updMbx_out : (updMbx s m f).out = s.out := rfl
@[simp] theorem updMbx_pins : (updMbx s m f).pins = s.pins := rfl
@[simp] theorem updMbx_otp : (updMbx s m f).otp = s.otp := rfl
@[simp] theorem updMbx_flash : (updMbx s m f).flash = s.flash := rfl
@[simp] theorem updMbx_flashBad : (updMbx s m f).flashBad = s.flashBad := rfl
@[simp] theorem updMbx_sys : (updMbx s m f).sys = s.sys := rfl
@[simp] theorem updMbx_basin : (updMbx s m f).basin = s.basin := rfl
@[simp] theorem updMbx_weir : (updMbx s m f).weir = s.weir := rfl
@[simp] theorem updMbx_islands : (updMbx s m f).islands = s.islands := rfl
@[simp] theorem updMbx_rails : (updMbx s m f).rails = s.rails := rfl
@[simp] theorem updMbx_staging : (updMbx s m f).staging = s.staging := rfl
@[simp] theorem updMbx_intc : (updMbx s m f).intc = s.intc := rfl
@[simp] theorem updMbx_win : (updMbx s m f).win = s.win := rfl
@[simp] theorem updMbx_pcie : (updMbx s m f).pcie = s.pcie := rfl
@[simp] theorem updMbx_fw : (updMbx s m f).fw = s.fw := rfl
@[simp] theorem updMbx_gp : (updMbx s m f).gp = s.gp := rfl
@[simp] theorem updMbx_pi : (updMbx s m f).pi = s.pi := rfl
@[simp] theorem updMbx_tp : (updMbx s m f).tp = s.tp := rfl
@[simp] theorem updMbx_tl : (updMbx s m f).tl = s.tl := rfl
@[simp] theorem updMbx_cv : (updMbx s m f).cv = s.cv := rfl
@[simp] theorem updMbx_sl : (updMbx s m f).sl = s.sl := rfl
@[simp] theorem updMbx_dh : (updMbx s m f).dh = s.dh := rfl
end updMbx

section updPriv
variable (s : State) (t i : Nat) (f : Src → Src)
@[simp] theorem updPriv_pending : (updPriv s t i f).pending = s.pending := rfl
@[simp] theorem updPriv_tick : (updPriv s t i f).tick = s.tick := rfl
@[simp] theorem updPriv_fresh : (updPriv s t i f).fresh = s.fresh := rfl
@[simp] theorem updPriv_out : (updPriv s t i f).out = s.out := rfl
@[simp] theorem updPriv_pins : (updPriv s t i f).pins = s.pins := rfl
@[simp] theorem updPriv_otp : (updPriv s t i f).otp = s.otp := rfl
@[simp] theorem updPriv_flash : (updPriv s t i f).flash = s.flash := rfl
@[simp] theorem updPriv_flashBad : (updPriv s t i f).flashBad = s.flashBad := rfl
@[simp] theorem updPriv_sys : (updPriv s t i f).sys = s.sys := rfl
@[simp] theorem updPriv_basin : (updPriv s t i f).basin = s.basin := rfl
@[simp] theorem updPriv_weir : (updPriv s t i f).weir = s.weir := rfl
@[simp] theorem updPriv_islands : (updPriv s t i f).islands = s.islands := rfl
@[simp] theorem updPriv_rails : (updPriv s t i f).rails = s.rails := rfl
@[simp] theorem updPriv_staging : (updPriv s t i f).staging = s.staging := rfl
@[simp] theorem updPriv_mbx : (updPriv s t i f).mbx = s.mbx := rfl
@[simp] theorem updPriv_win : (updPriv s t i f).win = s.win := rfl
@[simp] theorem updPriv_pcie : (updPriv s t i f).pcie = s.pcie := rfl
@[simp] theorem updPriv_fw : (updPriv s t i f).fw = s.fw := rfl
@[simp] theorem updPriv_gp : (updPriv s t i f).gp = s.gp := rfl
@[simp] theorem updPriv_pi : (updPriv s t i f).pi = s.pi := rfl
@[simp] theorem updPriv_tp : (updPriv s t i f).tp = s.tp := rfl
@[simp] theorem updPriv_tl : (updPriv s t i f).tl = s.tl := rfl
@[simp] theorem updPriv_cv : (updPriv s t i f).cv = s.cv := rfl
@[simp] theorem updPriv_sl : (updPriv s t i f).sl = s.sl := rfl
@[simp] theorem updPriv_dh : (updPriv s t i f).dh = s.dh := rfl
end updPriv

section updShared
variable (s : State) (n : Nat) (f : Src → Src)
@[simp] theorem updShared_pending : (updShared s n f).pending = s.pending := rfl
@[simp] theorem updShared_tick : (updShared s n f).tick = s.tick := rfl
@[simp] theorem updShared_fresh : (updShared s n f).fresh = s.fresh := rfl
@[simp] theorem updShared_out : (updShared s n f).out = s.out := rfl
@[simp] theorem updShared_pins : (updShared s n f).pins = s.pins := rfl
@[simp] theorem updShared_otp : (updShared s n f).otp = s.otp := rfl
@[simp] theorem updShared_flash : (updShared s n f).flash = s.flash := rfl
@[simp] theorem updShared_flashBad : (updShared s n f).flashBad = s.flashBad := rfl
@[simp] theorem updShared_sys : (updShared s n f).sys = s.sys := rfl
@[simp] theorem updShared_basin : (updShared s n f).basin = s.basin := rfl
@[simp] theorem updShared_weir : (updShared s n f).weir = s.weir := rfl
@[simp] theorem updShared_islands : (updShared s n f).islands = s.islands := rfl
@[simp] theorem updShared_rails : (updShared s n f).rails = s.rails := rfl
@[simp] theorem updShared_staging : (updShared s n f).staging = s.staging := rfl
@[simp] theorem updShared_mbx : (updShared s n f).mbx = s.mbx := rfl
@[simp] theorem updShared_win : (updShared s n f).win = s.win := rfl
@[simp] theorem updShared_pcie : (updShared s n f).pcie = s.pcie := rfl
@[simp] theorem updShared_fw : (updShared s n f).fw = s.fw := rfl
@[simp] theorem updShared_gp : (updShared s n f).gp = s.gp := rfl
@[simp] theorem updShared_pi : (updShared s n f).pi = s.pi := rfl
@[simp] theorem updShared_tp : (updShared s n f).tp = s.tp := rfl
@[simp] theorem updShared_tl : (updShared s n f).tl = s.tl := rfl
@[simp] theorem updShared_cv : (updShared s n f).cv = s.cv := rfl
@[simp] theorem updShared_sl : (updShared s n f).sl = s.sl := rfl
@[simp] theorem updShared_dh : (updShared s n f).dh = s.dh := rfl
end updShared

section updCore
variable (s : State) (n : Nat) (f : Core → Core)
@[simp] theorem updCore_pending : (updCore s n f).pending = s.pending := rfl
@[simp] theorem updCore_tick : (updCore s n f).tick = s.tick := rfl
@[simp] theorem updCore_fresh : (updCore s n f).fresh = s.fresh := rfl
@[simp] theorem updCore_out : (updCore s n f).out = s.out := rfl
@[simp] theorem updCore_pins : (updCore s n f).pins = s.pins := rfl
@[simp] theorem updCore_otp : (updCore s n f).otp = s.otp := rfl
@[simp] theorem updCore_flash : (updCore s n f).flash = s.flash := rfl
@[simp] theorem updCore_flashBad : (updCore s n f).flashBad = s.flashBad := rfl
@[simp] theorem updCore_sys : (updCore s n f).sys = s.sys := rfl
@[simp] theorem updCore_basin : (updCore s n f).basin = s.basin := rfl
@[simp] theorem updCore_weir : (updCore s n f).weir = s.weir := rfl
@[simp] theorem updCore_islands : (updCore s n f).islands = s.islands := rfl
@[simp] theorem updCore_rails : (updCore s n f).rails = s.rails := rfl
@[simp] theorem updCore_staging : (updCore s n f).staging = s.staging := rfl
@[simp] theorem updCore_intc : (updCore s n f).intc = s.intc := rfl
@[simp] theorem updCore_mbx : (updCore s n f).mbx = s.mbx := rfl
@[simp] theorem updCore_win : (updCore s n f).win = s.win := rfl
@[simp] theorem updCore_pcie : (updCore s n f).pcie = s.pcie := rfl
@[simp] theorem updCore_fw : (updCore s n f).fw = s.fw := rfl
@[simp] theorem updCore_gp : (updCore s n f).gp = s.gp := rfl
@[simp] theorem updCore_pi : (updCore s n f).pi = s.pi := rfl
@[simp] theorem updCore_tp : (updCore s n f).tp = s.tp := rfl
@[simp] theorem updCore_tl : (updCore s n f).tl = s.tl := rfl
@[simp] theorem updCore_cv : (updCore s n f).cv = s.cv := rfl
@[simp] theorem updCore_sl : (updCore s n f).sl = s.sl := rfl
end updCore

section setTask
variable (s : State) (i : Nat) (x : Task)
@[simp] theorem setTask_pending : (setTask s i x).pending = s.pending := rfl
@[simp] theorem setTask_tick : (setTask s i x).tick = s.tick := rfl
@[simp] theorem setTask_fresh : (setTask s i x).fresh = s.fresh := rfl
@[simp] theorem setTask_out : (setTask s i x).out = s.out := rfl
@[simp] theorem setTask_pins : (setTask s i x).pins = s.pins := rfl
@[simp] theorem setTask_otp : (setTask s i x).otp = s.otp := rfl
@[simp] theorem setTask_flash : (setTask s i x).flash = s.flash := rfl
@[simp] theorem setTask_flashBad : (setTask s i x).flashBad = s.flashBad := rfl
@[simp] theorem setTask_sys : (setTask s i x).sys = s.sys := rfl
@[simp] theorem setTask_basin : (setTask s i x).basin = s.basin := rfl
@[simp] theorem setTask_weir : (setTask s i x).weir = s.weir := rfl
@[simp] theorem setTask_islands : (setTask s i x).islands = s.islands := rfl
@[simp] theorem setTask_rails : (setTask s i x).rails = s.rails := rfl
@[simp] theorem setTask_staging : (setTask s i x).staging = s.staging := rfl
@[simp] theorem setTask_intc : (setTask s i x).intc = s.intc := rfl
@[simp] theorem setTask_mbx : (setTask s i x).mbx = s.mbx := rfl
@[simp] theorem setTask_win : (setTask s i x).win = s.win := rfl
@[simp] theorem setTask_pcie : (setTask s i x).pcie = s.pcie := rfl
@[simp] theorem setTask_fw : (setTask s i x).fw = s.fw := rfl
@[simp] theorem setTask_gp : (setTask s i x).gp = s.gp := rfl
@[simp] theorem setTask_pi : (setTask s i x).pi = s.pi := rfl
@[simp] theorem setTask_tp : (setTask s i x).tp = s.tp := rfl
@[simp] theorem setTask_tl : (setTask s i x).tl = s.tl := rfl
@[simp] theorem setTask_cv : (setTask s i x).cv = s.cv := rfl
@[simp] theorem setTask_sl : (setTask s i x).sl = s.sl := rfl
end setTask

section setStation
variable (s : State) (i : Nat) (x : Station)
@[simp] theorem setStation_pending : (setStation s i x).pending = s.pending := rfl
@[simp] theorem setStation_tick : (setStation s i x).tick = s.tick := rfl
@[simp] theorem setStation_fresh : (setStation s i x).fresh = s.fresh := rfl
@[simp] theorem setStation_out : (setStation s i x).out = s.out := rfl
@[simp] theorem setStation_pins : (setStation s i x).pins = s.pins := rfl
@[simp] theorem setStation_otp : (setStation s i x).otp = s.otp := rfl
@[simp] theorem setStation_flash : (setStation s i x).flash = s.flash := rfl
@[simp] theorem setStation_flashBad : (setStation s i x).flashBad = s.flashBad := rfl
@[simp] theorem setStation_sys : (setStation s i x).sys = s.sys := rfl
@[simp] theorem setStation_basin : (setStation s i x).basin = s.basin := rfl
@[simp] theorem setStation_weir : (setStation s i x).weir = s.weir := rfl
@[simp] theorem setStation_islands : (setStation s i x).islands = s.islands := rfl
@[simp] theorem setStation_rails : (setStation s i x).rails = s.rails := rfl
@[simp] theorem setStation_staging : (setStation s i x).staging = s.staging := rfl
@[simp] theorem setStation_intc : (setStation s i x).intc = s.intc := rfl
@[simp] theorem setStation_mbx : (setStation s i x).mbx = s.mbx := rfl
@[simp] theorem setStation_win : (setStation s i x).win = s.win := rfl
@[simp] theorem setStation_pcie : (setStation s i x).pcie = s.pcie := rfl
@[simp] theorem setStation_fw : (setStation s i x).fw = s.fw := rfl
@[simp] theorem setStation_gp : (setStation s i x).gp = s.gp := rfl
@[simp] theorem setStation_pi : (setStation s i x).pi = s.pi := rfl
@[simp] theorem setStation_tp : (setStation s i x).tp = s.tp := rfl
@[simp] theorem setStation_cv : (setStation s i x).cv = s.cv := rfl
@[simp] theorem setStation_sl : (setStation s i x).sl = s.sl := rfl
@[simp] theorem setStation_dh : (setStation s i x).dh = s.dh := rfl
end setStation

section updLane
variable (s : State) (l : Nat) (f : Lane → Lane)
@[simp] theorem updLane_pending : (updLane s l f).pending = s.pending := rfl
@[simp] theorem updLane_tick : (updLane s l f).tick = s.tick := rfl
@[simp] theorem updLane_fresh : (updLane s l f).fresh = s.fresh := rfl
@[simp] theorem updLane_out : (updLane s l f).out = s.out := rfl
@[simp] theorem updLane_pins : (updLane s l f).pins = s.pins := rfl
@[simp] theorem updLane_otp : (updLane s l f).otp = s.otp := rfl
@[simp] theorem updLane_flash : (updLane s l f).flash = s.flash := rfl
@[simp] theorem updLane_flashBad : (updLane s l f).flashBad = s.flashBad := rfl
@[simp] theorem updLane_sys : (updLane s l f).sys = s.sys := rfl
@[simp] theorem updLane_basin : (updLane s l f).basin = s.basin := rfl
@[simp] theorem updLane_weir : (updLane s l f).weir = s.weir := rfl
@[simp] theorem updLane_islands : (updLane s l f).islands = s.islands := rfl
@[simp] theorem updLane_rails : (updLane s l f).rails = s.rails := rfl
@[simp] theorem updLane_staging : (updLane s l f).staging = s.staging := rfl
@[simp] theorem updLane_intc : (updLane s l f).intc = s.intc := rfl
@[simp] theorem updLane_mbx : (updLane s l f).mbx = s.mbx := rfl
@[simp] theorem updLane_win : (updLane s l f).win = s.win := rfl
@[simp] theorem updLane_pcie : (updLane s l f).pcie = s.pcie := rfl
@[simp] theorem updLane_fw : (updLane s l f).fw = s.fw := rfl
@[simp] theorem updLane_gp : (updLane s l f).gp = s.gp := rfl
@[simp] theorem updLane_pi : (updLane s l f).pi = s.pi := rfl
@[simp] theorem updLane_tp : (updLane s l f).tp = s.tp := rfl
@[simp] theorem updLane_cv : (updLane s l f).cv = s.cv := rfl
@[simp] theorem updLane_sl : (updLane s l f).sl = s.sl := rfl
@[simp] theorem updLane_dh : (updLane s l f).dh = s.dh := rfl
end updLane

section setScene
variable (s : State) (i : Nat) (x : Scene)
@[simp] theorem setScene_pending : (setScene s i x).pending = s.pending := rfl
@[simp] theorem setScene_tick : (setScene s i x).tick = s.tick := rfl
@[simp] theorem setScene_fresh : (setScene s i x).fresh = s.fresh := rfl
@[simp] theorem setScene_out : (setScene s i x).out = s.out := rfl
@[simp] theorem setScene_pins : (setScene s i x).pins = s.pins := rfl
@[simp] theorem setScene_otp : (setScene s i x).otp = s.otp := rfl
@[simp] theorem setScene_flash : (setScene s i x).flash = s.flash := rfl
@[simp] theorem setScene_flashBad : (setScene s i x).flashBad = s.flashBad := rfl
@[simp] theorem setScene_sys : (setScene s i x).sys = s.sys := rfl
@[simp] theorem setScene_basin : (setScene s i x).basin = s.basin := rfl
@[simp] theorem setScene_weir : (setScene s i x).weir = s.weir := rfl
@[simp] theorem setScene_islands : (setScene s i x).islands = s.islands := rfl
@[simp] theorem setScene_rails : (setScene s i x).rails = s.rails := rfl
@[simp] theorem setScene_staging : (setScene s i x).staging = s.staging := rfl
@[simp] theorem setScene_intc : (setScene s i x).intc = s.intc := rfl
@[simp] theorem setScene_mbx : (setScene s i x).mbx = s.mbx := rfl
@[simp] theorem setScene_win : (setScene s i x).win = s.win := rfl
@[simp] theorem setScene_pcie : (setScene s i x).pcie = s.pcie := rfl
@[simp] theorem setScene_fw : (setScene s i x).fw = s.fw := rfl
@[simp] theorem setScene_gp : (setScene s i x).gp = s.gp := rfl
@[simp] theorem setScene_pi : (setScene s i x).pi = s.pi := rfl
@[simp] theorem setScene_tl : (setScene s i x).tl = s.tl := rfl
@[simp] theorem setScene_cv : (setScene s i x).cv = s.cv := rfl
@[simp] theorem setScene_sl : (setScene s i x).sl = s.sl := rfl
@[simp] theorem setScene_dh : (setScene s i x).dh = s.dh := rfl
end setScene

section setVoice
variable (s : State) (i : Nat) (x : Voice)
@[simp] theorem setVoice_pending : (setVoice s i x).pending = s.pending := rfl
@[simp] theorem setVoice_tick : (setVoice s i x).tick = s.tick := rfl
@[simp] theorem setVoice_fresh : (setVoice s i x).fresh = s.fresh := rfl
@[simp] theorem setVoice_out : (setVoice s i x).out = s.out := rfl
@[simp] theorem setVoice_pins : (setVoice s i x).pins = s.pins := rfl
@[simp] theorem setVoice_otp : (setVoice s i x).otp = s.otp := rfl
@[simp] theorem setVoice_flash : (setVoice s i x).flash = s.flash := rfl
@[simp] theorem setVoice_flashBad : (setVoice s i x).flashBad = s.flashBad := rfl
@[simp] theorem setVoice_sys : (setVoice s i x).sys = s.sys := rfl
@[simp] theorem setVoice_basin : (setVoice s i x).basin = s.basin := rfl
@[simp] theorem setVoice_weir : (setVoice s i x).weir = s.weir := rfl
@[simp] theorem setVoice_islands : (setVoice s i x).islands = s.islands := rfl
@[simp] theorem setVoice_rails : (setVoice s i x).rails = s.rails := rfl
@[simp] theorem setVoice_staging : (setVoice s i x).staging = s.staging := rfl
@[simp] theorem setVoice_intc : (setVoice s i x).intc = s.intc := rfl
@[simp] theorem setVoice_mbx : (setVoice s i x).mbx = s.mbx := rfl
@[simp] theorem setVoice_win : (setVoice s i x).win = s.win := rfl
@[simp] theorem setVoice_pcie : (setVoice s i x).pcie = s.pcie := rfl
@[simp] theorem setVoice_fw : (setVoice s i x).fw = s.fw := rfl
@[simp] theorem setVoice_gp : (setVoice s i x).gp = s.gp := rfl
@[simp] theorem setVoice_pi : (setVoice s i x).pi = s.pi := rfl
@[simp] theorem setVoice_tp : (setVoice s i x).tp = s.tp := rfl
@[simp] theorem setVoice_tl : (setVoice s i x).tl = s.tl := rfl
@[simp] theorem setVoice_sl : (setVoice s i x).sl = s.sl := rfl
@[simp] theorem setVoice_dh : (setVoice s i x).dh = s.dh := rfl
end setVoice

section setMix
variable (s : State) (i : Nat) (x : Mix)
@[simp] theorem setMix_pending : (setMix s i x).pending = s.pending := rfl
@[simp] theorem setMix_tick : (setMix s i x).tick = s.tick := rfl
@[simp] theorem setMix_fresh : (setMix s i x).fresh = s.fresh := rfl
@[simp] theorem setMix_out : (setMix s i x).out = s.out := rfl
@[simp] theorem setMix_pins : (setMix s i x).pins = s.pins := rfl
@[simp] theorem setMix_otp : (setMix s i x).otp = s.otp := rfl
@[simp] theorem setMix_flash : (setMix s i x).flash = s.flash := rfl
@[simp] theorem setMix_flashBad : (setMix s i x).flashBad = s.flashBad := rfl
@[simp] theorem setMix_sys : (setMix s i x).sys = s.sys := rfl
@[simp] theorem setMix_basin : (setMix s i x).basin = s.basin := rfl
@[simp] theorem setMix_weir : (setMix s i x).weir = s.weir := rfl
@[simp] theorem setMix_islands : (setMix s i x).islands = s.islands := rfl
@[simp] theorem setMix_rails : (setMix s i x).rails = s.rails := rfl
@[simp] theorem setMix_staging : (setMix s i x).staging = s.staging := rfl
@[simp] theorem setMix_intc : (setMix s i x).intc = s.intc := rfl
@[simp] theorem setMix_mbx : (setMix s i x).mbx = s.mbx := rfl
@[simp] theorem setMix_win : (setMix s i x).win = s.win := rfl
@[simp] theorem setMix_pcie : (setMix s i x).pcie = s.pcie := rfl
@[simp] theorem setMix_fw : (setMix s i x).fw = s.fw := rfl
@[simp] theorem setMix_gp : (setMix s i x).gp = s.gp := rfl
@[simp] theorem setMix_pi : (setMix s i x).pi = s.pi := rfl
@[simp] theorem setMix_tp : (setMix s i x).tp = s.tp := rfl
@[simp] theorem setMix_tl : (setMix s i x).tl = s.tl := rfl
@[simp] theorem setMix_sl : (setMix s i x).sl = s.sl := rfl
@[simp] theorem setMix_dh : (setMix s i x).dh = s.dh := rfl
end setMix

section updSq
variable (s : State) (c : Nat) (f : Sq → Sq)
@[simp] theorem updSq_pending : (updSq s c f).pending = s.pending := rfl
@[simp] theorem updSq_tick : (updSq s c f).tick = s.tick := rfl
@[simp] theorem updSq_fresh : (updSq s c f).fresh = s.fresh := rfl
@[simp] theorem updSq_out : (updSq s c f).out = s.out := rfl
@[simp] theorem updSq_pins : (updSq s c f).pins = s.pins := rfl
@[simp] theorem updSq_otp : (updSq s c f).otp = s.otp := rfl
@[simp] theorem updSq_flash : (updSq s c f).flash = s.flash := rfl
@[simp] theorem updSq_flashBad : (updSq s c f).flashBad = s.flashBad := rfl
@[simp] theorem updSq_sys : (updSq s c f).sys = s.sys := rfl
@[simp] theorem updSq_basin : (updSq s c f).basin = s.basin := rfl
@[simp] theorem updSq_weir : (updSq s c f).weir = s.weir := rfl
@[simp] theorem updSq_islands : (updSq s c f).islands = s.islands := rfl
@[simp] theorem updSq_rails : (updSq s c f).rails = s.rails := rfl
@[simp] theorem updSq_staging : (updSq s c f).staging = s.staging := rfl
@[simp] theorem updSq_intc : (updSq s c f).intc = s.intc := rfl
@[simp] theorem updSq_mbx : (updSq s c f).mbx = s.mbx := rfl
@[simp] theorem updSq_win : (updSq s c f).win = s.win := rfl
@[simp] theorem updSq_pcie : (updSq s c f).pcie = s.pcie := rfl
@[simp] theorem updSq_fw : (updSq s c f).fw = s.fw := rfl
@[simp] theorem updSq_gp : (updSq s c f).gp = s.gp := rfl
@[simp] theorem updSq_tp : (updSq s c f).tp = s.tp := rfl
@[simp] theorem updSq_tl : (updSq s c f).tl = s.tl := rfl
@[simp] theorem updSq_cv : (updSq s c f).cv = s.cv := rfl
@[simp] theorem updSq_sl : (updSq s c f).sl = s.sl := rfl
@[simp] theorem updSq_dh : (updSq s c f).dh = s.dh := rfl
end updSq

section updAvs
variable (s : State) (n : Nat) (f : Avs → Avs)
@[simp] theorem updAvs_pending : (updAvs s n f).pending = s.pending := rfl
@[simp] theorem updAvs_tick : (updAvs s n f).tick = s.tick := rfl
@[simp] theorem updAvs_fresh : (updAvs s n f).fresh = s.fresh := rfl
@[simp] theorem updAvs_out : (updAvs s n f).out = s.out := rfl
@[simp] theorem updAvs_pins : (updAvs s n f).pins = s.pins := rfl
@[simp] theorem updAvs_otp : (updAvs s n f).otp = s.otp := rfl
@[simp] theorem updAvs_flash : (updAvs s n f).flash = s.flash := rfl
@[simp] theorem updAvs_flashBad : (updAvs s n f).flashBad = s.flashBad := rfl
@[simp] theorem updAvs_sys : (updAvs s n f).sys = s.sys := rfl
@[simp] theorem updAvs_basin : (updAvs s n f).basin = s.basin := rfl
@[simp] theorem updAvs_weir : (updAvs s n f).weir = s.weir := rfl
@[simp] theorem updAvs_islands : (updAvs s n f).islands = s.islands := rfl
@[simp] theorem updAvs_rails : (updAvs s n f).rails = s.rails := rfl
@[simp] theorem updAvs_staging : (updAvs s n f).staging = s.staging := rfl
@[simp] theorem updAvs_intc : (updAvs s n f).intc = s.intc := rfl
@[simp] theorem updAvs_mbx : (updAvs s n f).mbx = s.mbx := rfl
@[simp] theorem updAvs_win : (updAvs s n f).win = s.win := rfl
@[simp] theorem updAvs_pcie : (updAvs s n f).pcie = s.pcie := rfl
@[simp] theorem updAvs_fw : (updAvs s n f).fw = s.fw := rfl
@[simp] theorem updAvs_gp : (updAvs s n f).gp = s.gp := rfl
@[simp] theorem updAvs_tp : (updAvs s n f).tp = s.tp := rfl
@[simp] theorem updAvs_tl : (updAvs s n f).tl = s.tl := rfl
@[simp] theorem updAvs_cv : (updAvs s n f).cv = s.cv := rfl
@[simp] theorem updAvs_sl : (updAvs s n f).sl = s.sl := rfl
@[simp] theorem updAvs_dh : (updAvs s n f).dh = s.dh := rfl
end updAvs

section updChan
variable (s : State) (n : Nat) (f : Chan → Chan)
@[simp] theorem updChan_pending : (updChan s n f).pending = s.pending := rfl
@[simp] theorem updChan_tick : (updChan s n f).tick = s.tick := rfl
@[simp] theorem updChan_fresh : (updChan s n f).fresh = s.fresh := rfl
@[simp] theorem updChan_out : (updChan s n f).out = s.out := rfl
@[simp] theorem updChan_pins : (updChan s n f).pins = s.pins := rfl
@[simp] theorem updChan_otp : (updChan s n f).otp = s.otp := rfl
@[simp] theorem updChan_flash : (updChan s n f).flash = s.flash := rfl
@[simp] theorem updChan_flashBad : (updChan s n f).flashBad = s.flashBad := rfl
@[simp] theorem updChan_sys : (updChan s n f).sys = s.sys := rfl
@[simp] theorem updChan_basin : (updChan s n f).basin = s.basin := rfl
@[simp] theorem updChan_weir : (updChan s n f).weir = s.weir := rfl
@[simp] theorem updChan_islands : (updChan s n f).islands = s.islands := rfl
@[simp] theorem updChan_rails : (updChan s n f).rails = s.rails := rfl
@[simp] theorem updChan_staging : (updChan s n f).staging = s.staging := rfl
@[simp] theorem updChan_intc : (updChan s n f).intc = s.intc := rfl
@[simp] theorem updChan_mbx : (updChan s n f).mbx = s.mbx := rfl
@[simp] theorem updChan_win : (updChan s n f).win = s.win := rfl
@[simp] theorem updChan_pcie : (updChan s n f).pcie = s.pcie := rfl
@[simp] theorem updChan_fw : (updChan s n f).fw = s.fw := rfl
@[simp] theorem updChan_gp : (updChan s n f).gp = s.gp := rfl
@[simp] theorem updChan_pi : (updChan s n f).pi = s.pi := rfl
@[simp] theorem updChan_tp : (updChan s n f).tp = s.tp := rfl
@[simp] theorem updChan_tl : (updChan s n f).tl = s.tl := rfl
@[simp] theorem updChan_cv : (updChan s n f).cv = s.cv := rfl
@[simp] theorem updChan_dh : (updChan s n f).dh = s.dh := rfl
end updChan

@[simp] theorem isl_updIsl_self (s : State) (n : Nat) (f : Island → Island) :
    isl (updIsl s n f) n = f (isl s n) := Tab.get_upd_self _ _ _ _

theorem isl_updIsl_of_ne (s : State) {n m : Nat} (f : Island → Island) (h : m ≠ n) :
    isl (updIsl s n f) m = isl s m := Tab.get_upd_of_ne _ _ _ h

@[simp] theorem railOf_updRail_self (s : State) (n : Nat) (f : Rail → Rail) :
    railOf (updRail s n f) n = f (railOf s n) := Tab.get_upd_self _ _ _ _

theorem railOf_updRail_of_ne (s : State) {n m : Nat} (f : Rail → Rail) (h : m ≠ n) :
    railOf (updRail s n f) m = railOf s m := Tab.get_upd_of_ne _ _ _ h

@[simp] theorem mbxOf_updMbx_self (s : State) (n : Nat) (f : Mbx → Mbx) :
    mbxOf (updMbx s n f) n = f (mbxOf s n) := Tab.get_upd_self _ _ _ _

theorem mbxOf_updMbx_of_ne (s : State) {n m : Nat} (f : Mbx → Mbx) (h : m ≠ n) :
    mbxOf (updMbx s n f) m = mbxOf s m := Tab.get_upd_of_ne _ _ _ h

@[simp] theorem sharedSrc_updShared_self (s : State) (n : Nat) (f : Src → Src) :
    sharedSrc (updShared s n f) n = f (sharedSrc s n) := Tab.get_upd_self _ _ _ _

theorem sharedSrc_updShared_of_ne (s : State) {n m : Nat} (f : Src → Src) (h : m ≠ n) :
    sharedSrc (updShared s n f) m = sharedSrc s m := Tab.get_upd_of_ne _ _ _ h

@[simp] theorem sqOf_updSq_self (s : State) (n : Nat) (f : Sq → Sq) :
    sqOf (updSq s n f) n = f (sqOf s n) := Tab.get_upd_self _ _ _ _

theorem sqOf_updSq_of_ne (s : State) {n m : Nat} (f : Sq → Sq) (h : m ≠ n) :
    sqOf (updSq s n f) m = sqOf s m := Tab.get_upd_of_ne _ _ _ h

@[simp] theorem avsOf_updAvs_self (s : State) (n : Nat) (f : Avs → Avs) :
    avsOf (updAvs s n f) n = f (avsOf s n) := Tab.get_upd_self _ _ _ _

theorem avsOf_updAvs_of_ne (s : State) {n m : Nat} (f : Avs → Avs) (h : m ≠ n) :
    avsOf (updAvs s n f) m = avsOf s m := Tab.get_upd_of_ne _ _ _ h

@[simp] theorem chanOf_updChan_self (s : State) (n : Nat) (f : Chan → Chan) :
    chanOf (updChan s n f) n = f (chanOf s n) := Tab.get_upd_self _ _ _ _

theorem chanOf_updChan_of_ne (s : State) {n m : Nat} (f : Chan → Chan) (h : m ≠ n) :
    chanOf (updChan s n f) m = chanOf s m := Tab.get_upd_of_ne _ _ _ h

@[simp] theorem laneOf_updLane_self (s : State) (n : Nat) (f : Lane → Lane) :
    laneOf (updLane s n f) n = f (laneOf s n) := Tab.get_upd_self _ _ _ _

theorem laneOf_updLane_of_ne (s : State) {n m : Nat} (f : Lane → Lane) (h : m ≠ n) :
    laneOf (updLane s n f) m = laneOf s m := Tab.get_upd_of_ne _ _ _ h

@[simp] theorem targetOf_updTarget_self (s : State) (n : Nat) (f : Target → Target) :
    targetOf (updTarget s n f) n = f (targetOf s n) := Tab.get_upd_self _ _ _ _

theorem targetOf_updTarget_of_ne (s : State) {n m : Nat} (f : Target → Target) (h : m ≠ n) :
    targetOf (updTarget s n f) m = targetOf s m := Tab.get_upd_of_ne _ _ _ h

theorem updTask_of_some {s : State} {i : Nat} {x : Task} (f : Task → Task) (h : taskOf s i = some x) :
    updTask s i f = setTask s i (f x) := by rw [updTask, h]

theorem updTask_of_none {s : State} {i : Nat} (f : Task → Task) (h : taskOf s i = none) :
    updTask s i f = s := by rw [updTask, h]

theorem updStation_of_some {s : State} {i : Nat} {x : Station} (f : Station → Station) (h : stationOf s i = some x) :
    updStation s i f = setStation s i (f x) := by rw [updStation, h]

theorem updStation_of_none {s : State} {i : Nat} (f : Station → Station) (h : stationOf s i = none) :
    updStation s i f = s := by rw [updStation, h]

theorem updScene_of_some {s : State} {i : Nat} {x : Scene} (f : Scene → Scene) (h : sceneOf s i = some x) :
    updScene s i f = setScene s i (f x) := by rw [updScene, h]

theorem updScene_of_none {s : State} {i : Nat} (f : Scene → Scene) (h : sceneOf s i = none) :
    updScene s i f = s := by rw [updScene, h]

theorem updVoice_of_some {s : State} {i : Nat} {x : Voice} (f : Voice → Voice) (h : voiceOf s i = some x) :
    updVoice s i f = setVoice s i (f x) := by rw [updVoice, h]

theorem updVoice_of_none {s : State} {i : Nat} (f : Voice → Voice) (h : voiceOf s i = none) :
    updVoice s i f = s := by rw [updVoice, h]

theorem updMix_of_some {s : State} {i : Nat} {x : Mix} (f : Mix → Mix) (h : mixOf s i = some x) :
    updMix s i f = setMix s i (f x) := by rw [updMix, h]

theorem updMix_of_none {s : State} {i : Nat} (f : Mix → Mix) (h : mixOf s i = none) :
    updMix s i f = s := by rw [updMix, h]

end Sys2Proof.Machine
end

