-- ==== Sys2Proof/Laws/Command.lean ====
section
/-! SUPPORT. The laws of the Lockkeeper commands and of requests: what taking a command keeps, what
an executed command answers, and when an agent's request goes out. -/

namespace Sys2Proof.Machine

/-- An agent whose island runs sends its request. -/
theorem issue_of_out {s : State} {a : Nat} (h : agentOut s a = true) (f : State → State) :
    issue s a f = f s := by simp [issue, h]

/-- An agent whose island does not run sends none (R247). -/
theorem issue_of_not_out {s : State} {a : Nat} (h : agentOut s a = false) (f : State → State) :
    issue s a f = s := by simp [issue, h]

@[simp] theorem duplicateOf_causes (s : State) (m : Nat) (c : Cmd) :
    duplicateOf (causes s m) c = duplicateOf s c := rfl

@[simp] theorem accepted_causes (s : State) (m : Nat) (cls : Cls) (rec : Bool) :
    accepted (causes s m) cls rec = accepted s cls rec := rfl

@[simp] theorem faulting_false (s : State) (r : Res) : faulting false s r = r := rfl

/-- A command that is not taken leaves the state as it is. -/
theorem command_of_not_taken {op : Nat} {cls : Cls} {rec : Bool} {mb : Fin 8} {msg : Msg} {s : State}
    (hl : msg.words.length ≤ 7)
    (h : takes s mb ((cmdOf op mb msg).header :: (cmdOf op mb msg).words) = false)
    (run : Cmd → State → Res) : command op cls rec mb msg s run = .next s := by
  simp [command, hl, h]

/-- A command that is taken and executed answers what its meaning gives, with the records it has
caused let go. -/
theorem command_of_executes {op : Nat} {cls : Cls} {rec : Bool} {mb : Fin 8} {msg : Msg} {s u : State}
    (h : Executes s (cmdOf op mb msg) cls rec u) (run : Cmd → State → Res) :
    command op cls rec mb msg s run = .next (caused (finish (cmdOf op mb msg)
      (faulting msg.fault u (run (cmdOf op mb msg) u)))) := by
  obtain ⟨hl, ht, rfl, hd, ha⟩ := h
  rw [duplicateOf_causes] at hd
  rw [accepted_causes] at ha
  have hl' : msg.words.length ≤ 7 := hl
  have ht' : takes s mb ((cmdOf op mb msg).header :: (cmdOf op mb msg).words) = true := ht
  simp only [command, hl', if_true, ht', runCommand, hd, ha]

/-- A repeat of a kept result is answered by it (R165). -/
theorem command_of_repeat {op : Nat} {cls : Cls} {rec : Bool} {mb : Fin 8} {msg : Msg} {s : State}
    {k : Kept} (hl : msg.words.length ≤ 7)
    (ht : takes s mb ((cmdOf op mb msg).header :: (cmdOf op mb msg).words) = true)
    (hd : duplicateOf (takeMsg s mb ((cmdOf op mb msg).header :: (cmdOf op mb msg).words))
      (cmdOf op mb msg) = some k) (run : Cmd → State → Res) :
    command op cls rec mb msg s run = .next (replyDuplicate
      (takeMsg s mb ((cmdOf op mb msg).header :: (cmdOf op mb msg).words)) (cmdOf op mb msg) k) := by
  have hd' : duplicateOf (takeMsg s (cmdOf op mb msg).mb
    ((cmdOf op mb msg).header :: (cmdOf op mb msg).words)) (cmdOf op mb msg) = some k := hd
  simp only [command, hl, if_true, ht, runCommand, hd']
  rfl

end Sys2Proof.Machine
end

