-- ==== Sys2Proof/Laws/Memory.lean ====
section
/-! SUPPORT. The laws of Basin's bytes: the canonical form is kept, a read after a write
gives the bytes written, and every other byte is as before. -/

namespace Sys2Proof.Machine

theorem Memory.wf_pokeList (m : List Host.Cell) (a : Nat) (b : List Byte)
    (h : Memory.wf m = true) : Memory.wf (pokeList m a b) = true := by
  induction b generalizing m a with
  | nil => exact h
  | cons x r ih => exact ih _ _ (Tab.wf_set 0 m a x h)

theorem Memory.byte_pokeList_of_lt (m : List Host.Cell) (a : Nat) (b : List Byte) {x : Nat}
    (h : x < a) : Memory.byte (pokeList m a b) x = Memory.byte m x := by
  induction b generalizing m a with
  | nil => rfl
  | cons y r ih =>
    refine (ih _ (a + 1) (by omega)).trans ?_
    exact Tab.get_set_of_ne 0 m y (by omega)

/-- A byte outside the bytes stored is as before. -/
theorem Memory.byte_pokeList_of_outside (m : List Host.Cell) (a : Nat) (b : List Byte) {x : Nat}
    (h : x < a ∨ a + b.length ≤ x) : Memory.byte (pokeList m a b) x = Memory.byte m x := by
  induction b generalizing m a with
  | nil => rfl
  | cons y r ih =>
    simp only [List.length_cons] at h
    refine (ih _ (a + 1) (by omega)).trans ?_
    exact Tab.get_set_of_ne 0 m y (by omega)

/-- A byte inside them is the one stored. -/
theorem Memory.byte_pokeList_inside (m : List Host.Cell) (a : Nat) (b : List Byte) {i : Nat}
    (h : i < b.length) : Memory.byte (pokeList m a b) (a + i) = b[i] := by
  induction b generalizing m a i with
  | nil => simp at h
  | cons y r ih =>
    cases i with
    | zero =>
      exact (Memory.byte_pokeList_of_lt (Tab.set 0 m a y) (a + 1) r (by omega)).trans
        (Tab.get_set_self 0 m a y)
    | succ i =>
      have := ih (Tab.set 0 m a y) (a + 1) (i := i) (by simpa using h)
      rw [show a + (i + 1) = a + 1 + i by omega]
      simpa [pokeList] using this

/-- Storing bytes keeps the canonical form. -/
theorem poke_memOk (s : State) (a : Nat) (b : List Byte) (h : s.memOk) : (poke s a b).memOk :=
  Memory.wf_pokeList _ a b h

theorem reset_memOk : State.reset.memOk := rfl

end Sys2Proof.Machine
end

