-- ==== Sys2Proof/Laws/Follows.lean ====
section
/-! SUPPORT. The laws of `Follows`: it composes, and writing one part of the state follows. -/

namespace Sys2Proof.Machine

theorem Otp.Grows.refl (x : Otp) : x.Grows x :=
  ⟨rfl, Nat.le_refl _, BitVec.and_self, rfl, rfl, rfl, rfl⟩

theorem Otp.Grows.trans {x y z : Otp} (h : x.Grows y) (k : y.Grows z) : x.Grows z := by
  obtain ⟨a1, a2, a3, a4, a5, a6, a7⟩ := h
  obtain ⟨b1, b2, b3, b4, b5, b6, b7⟩ := k
  refine ⟨b1.trans a1, a2.trans b2, ?_, b4.trans a4, b5.trans a5, b6.trans a6, b7.trans a7⟩
  rw [← a3, BitVec.and_assoc, b3]

namespace Follows

variable {l k : List Part} {s t u : State}

theorem refl (l : List Part) (s : State) : Follows l s s := by
  constructor <;> first | exact fun _ => rfl | rfl | exact fun h => h | exact Otp.Grows.refl _

theorem trans (h : Follows l s t) (g : Follows l t u) : Follows l s u := by
  constructor
  · exact g.pending.trans h.pending
  · exact h.trace.trans g.trace
  · exact h.drawn.trans g.drawn
  · exact fun x => g.mem (h.mem x)
  · exact h.grows.trans g.grows
  · exact fun x => (g.tick x).trans (h.tick x)
  · exact fun x => (g.fresh x).trans (h.fresh x)
  · exact fun x => (g.out x).trans (h.out x)
  · exact fun x => (g.pins x).trans (h.pins x)
  · exact fun x => (g.otp x).trans (h.otp x)
  · exact fun x => (g.flash x).trans (h.flash x)
  · exact fun x => (g.flashBad x).trans (h.flashBad x)
  · exact fun x => (g.sys x).trans (h.sys x)
  · exact fun x => (g.basin x).trans (h.basin x)
  · exact fun x => (g.weir x).trans (h.weir x)
  · exact fun x => (g.islands x).trans (h.islands x)
  · exact fun x => (g.rails x).trans (h.rails x)
  · exact fun x => (g.staging x).trans (h.staging x)
  · exact fun x => (g.intc x).trans (h.intc x)
  · exact fun x => (g.mbx x).trans (h.mbx x)
  · exact fun x => (g.win x).trans (h.win x)
  · exact fun x => (g.pcie x).trans (h.pcie x)
  · exact fun x => (g.fw x).trans (h.fw x)
  · exact fun x => (g.gp x).trans (h.gp x)
  · exact fun x => (g.pi x).trans (h.pi x)
  · exact fun x => (g.tp x).trans (h.tp x)
  · exact fun x => (g.tl x).trans (h.tl x)
  · exact fun x => (g.cyc x).trans (h.cyc x)
  · exact fun x => (g.cv x).trans (h.cv x)
  · exact fun x => (g.sl x).trans (h.sl x)
  · exact fun x => (g.dh x).trans (h.dh x)

/-- More parts may be named. -/
theorem mono (h : Follows k s t) (hk : ∀ x ∈ k, x ∈ l) : Follows l s t := by
  obtain ⟨⟩ := h
  constructor <;> first | assumption | exact fun h => (by assumption : _ → _) (fun hx => h (hk _ hx))

/-- One more operation. -/
theorem after (h : Follows k t u) (hk : ∀ x ∈ k, x ∈ l) (g : Follows l s t) : Follows l s u :=
  g.trans (h.mono hk)

/-- The state that a match takes out of a pair. -/
theorem fst {β : Type} {p : State × β} {x : β} (e : p = (t, x)) (h : Follows l s p.1) :
    Follows l s t := by
  subst e; exact h

theorem fstC {β : Type} {c : Comp} {p : Comp × β} {x : β} (e : p = (c, x))
    (h : Follows l s p.1.s) : Follows l s c.s := by
  subst e; exact h

/-- Operations in a row. -/
theorem foldl {β : Type} {f : State → β → State} {a : List β} (g : Follows l s t)
    (h : ∀ u x, Follows l u (f u x)) : Follows l s (a.foldl f t) := by
  induction a generalizing t with
  | nil => exact g
  | cons x r ih => exact ih (g.trans (h t x))

/-! ### Writing one part -/

theorem set_tick (v : Dword) (h : .tick ∈ l) (g : Follows l s t) :
    Follows l s { t with tick := v } :=
  { g with tick := fun h' => absurd h h' }

theorem set_pins (v : Pins) (h : .pins ∈ l) (g : Follows l s t) :
    Follows l s { t with pins := v } :=
  { g with pins := fun h' => absurd h h' }

theorem set_flash (v : Tab Byte) (h : .flash ∈ l) (g : Follows l s t) :
    Follows l s { t with flash := v } :=
  { g with flash := fun h' => absurd h h' }

theorem set_flashBad (v : Tab Nat) (h : .flashBad ∈ l) (g : Follows l s t) :
    Follows l s { t with flashBad := v } :=
  { g with flashBad := fun h' => absurd h h' }

theorem set_sys (v : Sys) (h : .sys ∈ l) (g : Follows l s t) :
    Follows l s { t with sys := v } :=
  { g with sys := fun h' => absurd h h' }

theorem set_weir (v : Weir) (h : .weir ∈ l) (g : Follows l s t) :
    Follows l s { t with weir := v } :=
  { g with weir := fun h' => absurd h h' }

theorem set_islands (v : Tab Island) (h : .islands ∈ l) (g : Follows l s t) :
    Follows l s { t with islands := v } :=
  { g with islands := fun h' => absurd h h' }

theorem set_rails (v : Tab Rail) (h : .rails ∈ l) (g : Follows l s t) :
    Follows l s { t with rails := v } :=
  { g with rails := fun h' => absurd h h' }

theorem set_staging (v : List Rec) (h : .staging ∈ l) (g : Follows l s t) :
    Follows l s { t with staging := v } :=
  { g with staging := fun h' => absurd h h' }

theorem set_intc (v : Intc) (h : .intc ∈ l) (g : Follows l s t) :
    Follows l s { t with intc := v } :=
  { g with intc := fun h' => absurd h h' }

theorem set_mbx (v : Tab Mbx) (h : .mbx ∈ l) (g : Follows l s t) :
    Follows l s { t with mbx := v } :=
  { g with mbx := fun h' => absurd h h' }

theorem set_win (v : Window) (h : .win ∈ l) (g : Follows l s t) :
    Follows l s { t with win := v } :=
  { g with win := fun h' => absurd h h' }

theorem set_pcie (v : Pcie) (h : .pcie ∈ l) (g : Follows l s t) :
    Follows l s { t with pcie := v } :=
  { g with pcie := fun h' => absurd h h' }

theorem set_fw (v : Fw) (h : .fw ∈ l) (g : Follows l s t) :
    Follows l s { t with fw := v } :=
  { g with fw := fun h' => absurd h h' }

theorem set_gp (v : Gpio) (h : .gp ∈ l) (g : Follows l s t) :
    Follows l s { t with gp := v } :=
  { g with gp := fun h' => absurd h h' }

theorem set_pi (v : Serial) (h : .pi ∈ l) (g : Follows l s t) :
    Follows l s { t with pi := v } :=
  { g with pi := fun h' => absurd h h' }

theorem set_tp (v : Towpath) (h : .tp ∈ l) (g : Follows l s t) :
    Follows l s { t with tp := v } :=
  { g with tp := fun h' => absurd h h' }

theorem set_cv (v : Chervil) (h : .cv ∈ l) (g : Follows l s t) :
    Follows l s { t with cv := v } :=
  { g with cv := fun h' => absurd h h' }

theorem set_sl (v : Sluice) (h : .sl ∈ l) (g : Follows l s t) :
    Follows l s { t with sl := v } :=
  { g with sl := fun h' => absurd h h' }

theorem set_dh (v : Decks) (h : .dh ∈ l) (g : Follows l s t) :
    Follows l s { t with dh := v } :=
  { g with dh := fun h' => absurd h h' }

theorem set_fresh (h : .fresh ∈ l) (g : Follows l s t) :
    Follows l s { t with fresh := t.fresh + 1 } :=
  { g with drawn := Nat.le_succ_of_le g.drawn, fresh := fun h' => absurd h h' }

theorem set_out (v : List Out) (h : .out ∈ l) (g : Follows l s t) :
    Follows l s { t with out := t.out ++ v } :=
  { g with trace := g.trace.trans (List.prefix_append _ _), out := fun h' => absurd h h' }

theorem set_otp (v : Otp) (w : t.otp.Grows v) (h : .otp ∈ l) (g : Follows l s t) :
    Follows l s { t with otp := v } :=
  { g with grows := g.grows.trans w, otp := fun h' => absurd h h' }

/-- Writing Basin beside its bytes. -/
theorem set_basin (v : Basin) (w : v.bytes = t.basin.bytes) (h : .basin ∈ l) (g : Follows l s t) :
    Follows l s { t with basin := v } :=
  { g with mem := fun m => by have := g.mem m; rwa [State.memOk, w], basin := fun h' => absurd h h' }

theorem set_bytes (v : Basin) (w : Memory.wf t.basin.bytes = true → Memory.wf v.bytes = true)
    (h : .basin ∈ l) (g : Follows l s t) : Follows l s { t with basin := v } :=
  { g with mem := fun m => w (g.mem m), basin := fun h' => absurd h h' }

/-- Writing Towline beside its cycle. -/
theorem set_tl (v : Towline) (w : v.cyc = t.tl.cyc) (h : .tl ∈ l) (g : Follows l s t) :
    Follows l s { t with tl := v } :=
  { g with tl := fun h' => absurd h h', cyc := fun h' => w.trans (g.cyc h') }

theorem set_cyc (v : Towline) (h : .tl ∈ l) (h2 : .cyc ∈ l) (g : Follows l s t) :
    Follows l s { t with tl := v } :=
  { g with tl := fun h' => absurd h h', cyc := fun h' => absurd h2 h' }

/-- Operations in a row that gather a result. -/
theorem foldlFst {β γ : Type} {f : State × γ → β → State × γ} {a : List β} {p : State × γ}
    (g : Follows l s p.1) (h : ∀ p x, Follows l p.1 (f p x).1) : Follows l s (a.foldl f p).1 := by
  induction a generalizing p with
  | nil => exact g
  | cons x r ih => exact ih (g.trans (h p x))

end Follows

/-- The state in which the execution of a Lockkeeper command leaves the machine. -/
def Res.state : Res → State
  | .done s _ _ => s
  | .wait s _ => s
  | .silent s => s

@[simp] theorem Res.state_done (s : State) (st : Nat) (w : List Word) :
    (Res.done s st w).state = s := rfl
@[simp] theorem Res.state_wait (s : State) (w : Waiting) : (Res.wait s w).state = s := rfl
@[simp] theorem Res.state_silent (s : State) : (Res.silent s).state = s := rfl

theorem Follows.ofDone {l : List Part} {s t : State} {r : Res} {st : Nat} {w : List Word}
    (e : r = .done t st w) (h : Follows l s r.state) : Follows l s t := by
  subst e; exact h

/-- Where a command answers a next state, it follows `s`. -/
def Leads (l : List Part) (s : State) (o : Host.Outcome State Fault Refusal) : Prop :=
  ∀ t, o = .next t → Follows l s t

theorem Leads.next {l : List Part} {s t : State} (h : Follows l s t) : Leads l s (.next t) := by
  intro u e; cases e; exact h

theorem Leads.mono {l k : List Part} {s : State} {o : Host.Outcome State Fault Refusal}
    (h : Leads k s o) (hk : ∀ x ∈ k, x ∈ l) : Leads l s o :=
  fun t e => (h t e).mono hk

theorem Leads.refused (l : List Part) (s : State) (r : Refusal) : Leads l s (.refused r) :=
  fun _ e => nomatch e

end Sys2Proof.Machine
end

