-- ==== Sys2Proof/Laws/FollowsShared.lean ====
section
/-! SUPPORT. What each operation may change (`Follows`): the shared operations, Basin, Weir, the mailboxes, the host window, the interrupt controller and the moorings. -/

set_option linter.unusedTactic false
set_option linter.unreachableTactic false
set_option linter.unusedVariables false

open Sys2Proof

namespace Sys2Proof.Machine

/-! ### Ops -/

theorem emit_follows (s : State) (o : Out) : Follows [.out] s (emit s o) :=
  Follows.set_out [o] (by decide) (Follows.refl _ s)

theorem emits_follows (s : State) (o : List Out) : Follows [.out] s (emits s o) :=
  Follows.set_out o (by decide) (Follows.refl _ s)

theorem drawFree_follows (s : State) : Follows [.fresh] s (drawFree s).1 :=
  Follows.set_fresh (by decide) (Follows.refl _ s)

theorem lkException_follows (s : State) (ad : Nat) (basin : Bool) (store : Bool) :
    Follows [.fresh, .sys] s (lkException s ad basin store) := by
  unfold lkException
  repeat' first
    | decide
    | with_reducible exact Follows.refl ..
    | with_reducible apply Follows.after (drawFree_follows ..)
    | with_reducible apply Follows.foldl
    | with_reducible apply Follows.foldlFst
    | split
    | dsimp only
    | with_reducible refine Follows.fst (by assumption) ?_
    | with_reducible apply Follows.set_sys
    | intro _

theorem errTo_follows (s : State) (a : Nat) (ad : Nat) (basin : Bool) (store : Bool) (e : Err) :
    Follows [.fresh, .out, .sys] s (errTo s a ad basin store e) := by
  unfold errTo
  repeat' first
    | decide
    | with_reducible exact Follows.refl ..
    | with_reducible apply Follows.after (emit_follows ..)
    | with_reducible apply Follows.after (lkException_follows ..)
    | with_reducible apply Follows.foldl
    | split
    | dsimp only
    | intro _

theorem updIsl_follows (s : State) (i : Nat) (f : Island → Island) :
    Follows [.islands] s (updIsl s i f) := by
  unfold updIsl
  repeat' first
    | decide
    | with_reducible exact Follows.refl ..
    | with_reducible apply Follows.foldl
    | split
    | dsimp only
    | with_reducible apply Follows.set_islands
    | intro _

theorem issue_follows {l : List Part} {s t : State} (a : Nat) (f : State → State)
    (h : ∀ u, Follows l u (f u)) (g : Follows l s t) : Follows l s (issue t a f) := by
  unfold issue
  split
  · exact g.trans (h t)
  · exact g

theorem reach_follows {l : List Part} {s t : State} (agent ad : Nat) (ok up store : Bool)
    (f : State → State) (hl : ∀ x ∈ [.fresh, .out, .sys], x ∈ l) (h : ∀ u, Follows l u (f u)) (g : Follows l s t) :
    Follows l s (reach t agent ad ok up store f) := by
  refine issue_follows agent _ (fun u => ?_) g
  repeat' first
    | exact h u
    | exact (errTo_follows ..).mono hl
    | split

theorem updPriv_follows (s : State) (t : Nat) (i : Nat) (f : Src → Src) :
    Follows [.intc] s (updPriv s t i f) := by
  unfold updPriv
  repeat' first
    | decide
    | with_reducible exact Follows.refl ..
    | with_reducible apply Follows.foldl
    | split
    | dsimp only
    | with_reducible apply Follows.set_intc
    | intro _

theorem updShared_follows (s : State) (n : Nat) (f : Src → Src) :
    Follows [.intc] s (updShared s n f) := by
  unfold updShared
  repeat' first
    | decide
    | with_reducible exact Follows.refl ..
    | with_reducible apply Follows.foldl
    | split
    | dsimp only
    | with_reducible apply Follows.set_intc
    | intro _

theorem raisePriv_follows (s : State) (t : Nat) (i : Nat) :
    Follows [.intc] s (raisePriv s t i) := by
  unfold raisePriv
  repeat' first
    | decide
    | with_reducible exact Follows.refl ..
    | with_reducible apply Follows.after (updPriv_follows ..)
    | with_reducible apply Follows.foldl
    | split
    | dsimp only
    | intro _

theorem raiseShared_follows (s : State) (n : Nat) :
    Follows [.intc] s (raiseShared s n) := by
  unfold raiseShared
  repeat' first
    | decide
    | with_reducible exact Follows.refl ..
    | with_reducible apply Follows.after (updShared_follows ..)
    | with_reducible apply Follows.foldl
    | split
    | dsimp only
    | intro _

theorem drivePriv_follows (s : State) (t : Nat) (i : Nat) (v : Bool) :
    Follows [.intc] s (drivePriv s t i v) := by
  unfold drivePriv
  repeat' first
    | decide
    | with_reducible exact Follows.refl ..
    | with_reducible apply Follows.after (updPriv_follows ..)
    | with_reducible apply Follows.foldl
    | split
    | dsimp only
    | intro _

theorem driveShared_follows (s : State) (n : Nat) (v : Bool) :
    Follows [.intc] s (driveShared s n v) := by
  unfold driveShared
  repeat' first
    | decide
    | with_reducible exact Follows.refl ..
    | with_reducible apply Follows.after (updShared_follows ..)
    | with_reducible apply Follows.foldl
    | split
    | dsimp only
    | intro _

theorem msixDue_follows (s : State) (v : Nat) :
    Follows [.out, .pcie] s (msixDue s v) := by
  unfold msixDue
  repeat' first
    | decide
    | with_reducible exact Follows.refl ..
    | with_reducible apply Follows.after (emit_follows ..)
    | with_reducible apply Follows.foldl
    | split
    | dsimp only
    | with_reducible apply Follows.set_pcie
    | intro _

theorem msixFlush_follows (s : State) :
    Follows [.out, .pcie] s (msixFlush s) := by
  unfold msixFlush
  repeat' first
    | decide
    | with_reducible exact Follows.refl ..
    | with_reducible apply Follows.after (msixDue_follows ..)
    | with_reducible apply Follows.foldl
    | split
    | dsimp only
    | intro _

theorem vectorReq_follows (s : State) (v : Nat) :
    Follows [.out, .intc, .pcie] s (vectorReq s v) := by
  unfold vectorReq
  repeat' first
    | decide
    | with_reducible exact Follows.refl ..
    | with_reducible apply Follows.after (msixDue_follows ..)
    | with_reducible apply Follows.foldl
    | split
    | dsimp only
    | with_reducible apply Follows.set_intc
    | intro _

theorem vecRelease_follows (s : State) :
    Follows [.out, .intc, .pcie] s (vecRelease s) := by
  unfold vecRelease
  repeat' first
    | decide
    | with_reducible exact Follows.refl ..
    | with_reducible apply Follows.after (msixDue_follows ..)
    | with_reducible apply Follows.foldl
    | split
    | dsimp only
    | with_reducible apply Follows.set_intc
    | intro _

theorem onFw_follows (s : State) (f : Fw → Fw) :
    Follows [.fw] s (onFw s f) := by
  unfold onFw
  repeat' first
    | decide
    | with_reducible exact Follows.refl ..
    | with_reducible apply Follows.foldl
    | split
    | dsimp only
    | with_reducible apply Follows.set_fw
    | intro _

theorem setMoor_follows (s : State) (i : Nat) (m : Moor) :
    Follows [.fw] s (setMoor s i m) := by
  unfold setMoor
  repeat' first
    | decide
    | with_reducible exact Follows.refl ..
    | with_reducible apply Follows.after (onFw_follows ..)
    | with_reducible apply Follows.foldl
    | split
    | dsimp only
    | intro _

theorem keepDrop_follows (s : State) (h : Word) :
    Follows [.fw] s (keepDrop s h) := by
  unfold keepDrop
  repeat' first
    | decide
    | with_reducible exact Follows.refl ..
    | with_reducible apply Follows.after (onFw_follows ..)
    | with_reducible apply Follows.after (setMoor_follows ..)
    | with_reducible apply Follows.foldl
    | split
    | dsimp only
    | intro _

theorem stagingLevel_follows (s : State) :
    Follows [.intc] s (stagingLevel s) := by
  unfold stagingLevel
  repeat' first
    | decide
    | with_reducible exact Follows.refl ..
    | with_reducible apply Follows.after (drivePriv_follows ..)
    | with_reducible apply Follows.foldl
    | split
    | dsimp only
    | intro _

theorem stageBefore_follows (later : Rec → Bool) (s : State) (r : Rec) :
    Follows [.staging, .intc, .fw] s (stageBefore later s r) := by
  unfold stageBefore
  repeat' first
    | decide
    | with_reducible exact Follows.refl ..
    | with_reducible apply Follows.after (keepDrop_follows ..)
    | with_reducible apply Follows.after (stagingLevel_follows ..)
    | with_reducible apply Follows.foldl
    | split
    | dsimp only
    | with_reducible apply Follows.set_staging
    | intro _

theorem stage_follows (s : State) (r : Rec) :
    Follows [.staging, .intc, .fw] s (stage s r) := by
  unfold stage
  repeat' first
    | decide
    | with_reducible exact Follows.refl ..
    | with_reducible apply Follows.after (keepDrop_follows ..)
    | with_reducible apply Follows.after (stagingLevel_follows ..)
    | with_reducible apply Follows.foldl
    | split
    | dsimp only
    | with_reducible apply Follows.set_staging
    | intro _

theorem postRec_follows (s : State) (island : Nat) (type : Nat) (source : Word) (payload : Word) (moor : Word) :
    Follows [.staging, .intc, .fw] s (postRec s island type source payload moor) := by
  unfold postRec
  repeat' first
    | decide
    | with_reducible exact Follows.refl ..
    | with_reducible apply Follows.after (stage_follows ..)
    | with_reducible apply Follows.foldl
    | split
    | dsimp only
    | intro _

theorem postCycleRec_follows (s : State) (island : Nat) (type : Nat) (source : Word) (cyc : Word) (payload : Word) (moor : Word) :
    Follows [.staging, .intc, .fw] s (postCycleRec s island type source cyc payload moor) := by
  unfold postCycleRec
  repeat' first
    | decide
    | with_reducible exact Follows.refl ..
    | with_reducible apply Follows.after (stage_follows ..)
    | with_reducible apply Follows.foldl
    | split
    | dsimp only
    | intro _

theorem loopWarning_follows (s : State) (island : Nat) (loop : Nat) (target : Nat) (reason : Nat) :
    Follows [.staging, .intc, .fw] s (loopWarning s island loop target reason) := by
  unfold loopWarning
  repeat' first
    | decide
    | with_reducible exact Follows.refl ..
    | with_reducible apply Follows.after (postRec_follows ..)
    | with_reducible apply Follows.foldl
    | split
    | dsimp only
    | intro _

theorem policyConflict_follows (s : State) (island : Nat) (loop : Nat) (target : Nat) :
    Follows [.staging, .intc, .fw] s (policyConflict s island loop target) := by
  unfold policyConflict
  repeat' first
    | decide
    | with_reducible exact Follows.refl ..
    | with_reducible apply Follows.after (postRec_follows ..)
    | with_reducible apply Follows.foldl
    | split
    | dsimp only
    | intro _

/-! ### Basin -/

theorem onBasin_follows (s : State) (f : Basin → Basin) (h : (f s.basin).bytes = s.basin.bytes) :
    Follows [.basin] s (onBasin s f) :=
  Follows.set_basin _ h (by decide) (Follows.refl _ s)

theorem poke_follows (s : State) (a : Nat) (b : List Byte) : Follows [.basin] s (poke s a b) :=
  Follows.set_bytes _ (Memory.wf_pokeList _ a b) (by decide) (Follows.refl _ s)

theorem updBank_follows (s : State) (b : Nat) (f : Bank → Bank) :
    Follows [.basin] s (updBank s b f) := by
  unfold updBank
  repeat' first
    | decide
    | with_reducible exact Follows.refl ..
    | with_reducible apply Follows.after (onBasin_follows _ _ rfl)
    | with_reducible apply Follows.foldl
    | split
    | dsimp only
    | intro _

theorem setTag_follows (s : State) (d : Nat) (t : Tag) :
    Follows [.basin] s (setTag s d t) := by
  unfold setTag
  repeat' first
    | decide
    | with_reducible exact Follows.refl ..
    | with_reducible apply Follows.after (onBasin_follows _ _ rfl)
    | with_reducible apply Follows.foldl
    | split
    | dsimp only
    | intro _

theorem setSynd_follows (s : State) (d : Nat) (v : Byte) :
    Follows [.basin] s (setSynd s d v) := by
  unfold setSynd
  repeat' first
    | decide
    | with_reducible exact Follows.refl ..
    | with_reducible apply Follows.after (onBasin_follows _ _ rfl)
    | with_reducible apply Follows.foldl
    | split
    | dsimp only
    | intro _

theorem putDw_follows (s : State) (d : Nat) (v : Dword) :
    Follows [.basin] s (putDw s d v) := by
  unfold putDw
  repeat' first
    | decide
    | with_reducible exact Follows.refl ..
    | with_reducible apply Follows.after (poke_follows ..)
    | with_reducible apply Follows.after (setSynd_follows ..)
    | with_reducible apply Follows.foldl
    | split
    | dsimp only
    | intro _

theorem strikeDw_follows (s : State) (d : Nat) :
    Follows [.basin] s (strikeDw s d) := by
  unfold strikeDw
  repeat' first
    | decide
    | with_reducible exact Follows.refl ..
    | with_reducible apply Follows.after (poke_follows ..)
    | with_reducible apply Follows.after (setSynd_follows ..)
    | with_reducible apply Follows.foldl
    | split
    | dsimp only
    | intro _

theorem noteErr_follows (s : State) (agent : Nat) (d : Nat) (syn : Byte) (ue : Bool) :
    Follows [.basin] s (noteErr s agent d syn ue) := by
  unfold noteErr
  repeat' first
    | decide
    | with_reducible exact Follows.refl ..
    | with_reducible apply Follows.after (updBank_follows ..)
    | with_reducible apply Follows.foldl
    | split
    | dsimp only
    | intro _

theorem poisonDw_follows (s : State) (agent : Nat) (d : Nat) (syn : Byte) :
    Follows [.basin, .staging, .intc, .fw] s (poisonDw s agent d syn) := by
  unfold poisonDw
  repeat' first
    | decide
    | with_reducible exact Follows.refl ..
    | with_reducible apply Follows.after (raisePriv_follows ..)
    | with_reducible apply Follows.after (postRec_follows ..)
    | with_reducible apply Follows.after (updBank_follows ..)
    | with_reducible apply Follows.after (setTag_follows ..)
    | with_reducible apply Follows.after (noteErr_follows ..)
    | with_reducible apply Follows.foldl
    | split
    | dsimp only
    | intro _

theorem readTag_follows (s : State) (agent : Nat) (d : Nat) :
    Follows [.basin, .staging, .intc, .fw] s (readTag s agent d).1 := by
  unfold readTag
  repeat' first
    | decide
    | with_reducible exact Follows.refl ..
    | with_reducible apply Follows.after (setTag_follows ..)
    | with_reducible apply Follows.after (poisonDw_follows ..)
    | with_reducible apply Follows.foldl
    | with_reducible apply Follows.foldlFst
    | split
    | dsimp only
    | with_reducible refine Follows.fst (by assumption) ?_
    | intro _

theorem fetchDw_follows (s : State) (agent : Nat) (d : Nat) :
    Follows [.basin, .staging, .intc, .fw] s (fetchDw s agent d).1 := by
  unfold fetchDw
  repeat' first
    | decide
    | with_reducible exact Follows.refl ..
    | with_reducible apply Follows.after (updBank_follows ..)
    | with_reducible apply Follows.after (putDw_follows ..)
    | with_reducible apply Follows.after (noteErr_follows ..)
    | with_reducible apply Follows.after (poisonDw_follows ..)
    | with_reducible apply Follows.after (readTag_follows ..)
    | with_reducible apply Follows.foldl
    | with_reducible apply Follows.foldlFst
    | split
    | dsimp only
    | with_reducible refine Follows.fst (by assumption) ?_
    | intro _

theorem fullWrite_follows (s : State) (d : Nat) (v : Dword) :
    Follows [.basin] s (fullWrite s d v) := by
  unfold fullWrite
  repeat' first
    | decide
    | with_reducible exact Follows.refl ..
    | with_reducible apply Follows.after (updBank_follows ..)
    | with_reducible apply Follows.after (setTag_follows ..)
    | with_reducible apply Follows.after (setSynd_follows ..)
    | with_reducible apply Follows.after (putDw_follows ..)
    | with_reducible apply Follows.foldl
    | split
    | dsimp only
    | intro _

theorem writeDw_follows (s : State) (agent : Nat) (d : Nat) (off : Nat) (b : List Byte) :
    Follows [.basin, .staging, .intc, .fw] s (writeDw s agent d off b).1 := by
  unfold writeDw
  repeat' first
    | decide
    | with_reducible exact Follows.refl ..
    | with_reducible apply Follows.after (putDw_follows ..)
    | with_reducible apply Follows.after (fetchDw_follows ..)
    | with_reducible apply Follows.after (fullWrite_follows ..)
    | with_reducible apply Follows.foldl
    | with_reducible apply Follows.foldlFst
    | split
    | dsimp only
    | with_reducible refine Follows.fst (by assumption) ?_
    | intro _

theorem readDws_follows (fuel : Nat) (s : State) (agent a n : Nat) :
    Follows [.basin, .staging, .intc, .fw] s (readDws fuel s agent a n).1 := by
  induction fuel generalizing s a n with
  | zero => exact Follows.refl ..
  | succ fuel ih =>
    have h := (fetchDw_follows s agent (a / 8)).mono (l := [.basin, .staging, .intc, .fw]) (by decide)
    unfold readDws
    dsimp only
    split
    · exact Follows.refl ..
    · have k := h.trans (ih (fetchDw s agent (a / 8)).1 (a + min (8 - a % 8) n) (n - min (8 - a % 8) n))
      split <;> exact k

theorem writeDws_follows (fuel : Nat) (s : State) (agent a : Nat) (b : List Byte) :
    Follows [.basin, .staging, .intc, .fw] s (writeDws fuel s agent a b).1 := by
  induction fuel generalizing s a b with
  | zero => exact Follows.refl ..
  | succ fuel ih =>
    unfold writeDws
    dsimp only
    split
    · exact Follows.refl ..
    · exact ((writeDw_follows s agent (a / 8) (a % 8) (b.take (min (8 - a % 8) b.length))).mono
        (by decide)).trans (ih ..)

theorem readReq_follows (s : State) (agent : Nat) (a : Nat) (n : Nat) :
    Follows [.basin, .staging, .intc, .fw] s (readReq s agent a n).1 := by
  unfold readReq
  repeat' first
    | decide
    | with_reducible exact Follows.refl ..
    | with_reducible apply Follows.after (readDws_follows ..)
    | with_reducible apply Follows.foldl
    | with_reducible apply Follows.foldlFst
    | split
    | dsimp only
    | with_reducible refine Follows.fst (by assumption) ?_
    | intro _

theorem signalMoor_follows (s : State) (w : Watch) :
    Follows [.out, .intc, .pcie] s (signalMoor s w) := by
  unfold signalMoor
  repeat' first
    | decide
    | with_reducible exact Follows.refl ..
    | with_reducible apply Follows.after (raisePriv_follows ..)
    | with_reducible apply Follows.after (vectorReq_follows ..)
    | with_reducible apply Follows.foldl
    | split
    | dsimp only
    | intro _

theorem signalWrite_follows (s : State) (a : Nat) (n : Nat) (done : List Nat) :
    Follows [.out, .intc, .pcie] s (signalWrite s a n done) := by
  unfold signalWrite
  repeat' first
    | decide
    | with_reducible exact Follows.refl ..
    | with_reducible apply Follows.after (signalMoor_follows ..)
    | with_reducible apply Follows.foldl
    | split
    | dsimp only
    | intro _

theorem writeReq_follows (s : State) (agent : Nat) (a : Nat) (b : List Byte) :
    Follows [.out, .basin, .staging, .intc, .pcie, .fw] s (writeReq s agent a b).1 := by
  unfold writeReq
  repeat' first
    | decide
    | with_reducible exact Follows.refl ..
    | with_reducible apply Follows.after (writeDws_follows ..)
    | with_reducible apply Follows.after (signalWrite_follows ..)
    | with_reducible apply Follows.foldl
    | with_reducible apply Follows.foldlFst
    | split
    | dsimp only
    | with_reducible refine Follows.fst (by assumption) ?_
    | intro _

theorem readMany_follows (fuel : Nat) (s : State) (agent a n : Nat) :
    Follows [.basin, .staging, .intc, .fw] s (readMany fuel s agent a n).1 := by
  induction fuel generalizing s a n with
  | zero => exact Follows.refl ..
  | succ fuel ih =>
    have h := (readReq_follows s agent a (min (256 - a % 256) n)).mono (l := [.basin, .staging, .intc, .fw]) (by decide)
    unfold readMany
    dsimp only
    split
    · exact Follows.refl ..
    · have k := h.trans (ih (readReq s agent a (min (256 - a % 256) n)).1
        (a + min (256 - a % 256) n) (n - min (256 - a % 256) n))
      split <;> exact k

theorem readMem_follows (s : State) (agent : Nat) (a : Nat) (n : Nat) :
    Follows [.basin, .staging, .intc, .fw] s (readMem s agent a n).1 := by
  unfold readMem
  repeat' first
    | decide
    | with_reducible exact Follows.refl ..
    | with_reducible apply Follows.after (readMany_follows ..)
    | with_reducible apply Follows.foldl
    | with_reducible apply Follows.foldlFst
    | split
    | dsimp only
    | with_reducible refine Follows.fst (by assumption) ?_
    | intro _

theorem writeMany_follows (fuel : Nat) (s : State) (agent a : Nat) (b : List Byte) :
    Follows [.out, .basin, .staging, .intc, .pcie, .fw] s (writeMany fuel s agent a b).1 := by
  induction fuel generalizing s a b with
  | zero => exact Follows.refl ..
  | succ fuel ih =>
    unfold writeMany
    dsimp only
    split
    · exact Follows.refl ..
    · exact ((writeReq_follows s agent a (b.take (min (256 - a % 256) b.length))).mono
        (by decide)).trans (ih ..)

theorem writeMem_follows (s : State) (agent : Nat) (a : Nat) (b : List Byte) :
    Follows [.out, .basin, .staging, .intc, .pcie, .fw] s (writeMem s agent a b).1 := by
  unfold writeMem
  repeat' first
    | decide
    | with_reducible exact Follows.refl ..
    | with_reducible apply Follows.after (writeMany_follows ..)
    | with_reducible apply Follows.foldl
    | with_reducible apply Follows.foldlFst
    | split
    | dsimp only
    | with_reducible refine Follows.fst (by assumption) ?_
    | intro _

theorem readWord_follows (s : State) (agent : Nat) (a : Nat) :
    Follows [.basin, .staging, .intc, .fw] s (readWord s agent a).1 := by
  unfold readWord
  repeat' first
    | decide
    | with_reducible exact Follows.refl ..
    | with_reducible apply Follows.after (readReq_follows ..)
    | with_reducible apply Follows.foldl
    | with_reducible apply Follows.foldlFst
    | split
    | dsimp only
    | with_reducible refine Follows.fst (by assumption) ?_
    | intro _

theorem execBasinReadRequest_follows (agent : Agent) (addr : BasinAddr) (len : Nat) (s : State) :
    Leads [.fresh, .out, .sys, .basin, .staging, .intc, .fw] s (execBasinReadRequest agent addr len s) := by
  unfold execBasinReadRequest
  repeat' first
    | decide
    | with_reducible exact Follows.refl ..
    | with_reducible apply Leads.next
    | with_reducible apply issue_follows
    | with_reducible apply Follows.after (emit_follows ..)
    | with_reducible apply Follows.after (errTo_follows ..)
    | with_reducible apply Follows.after (readReq_follows ..)
    | with_reducible apply Follows.foldl
    | with_reducible apply Follows.foldlFst
    | split
    | dsimp only
    | with_reducible refine Follows.fst (by assumption) ?_
    | with_reducible exact Leads.refused _ _ _
    | intro _

theorem execBasinWriteRequest_follows (agent : Agent) (addr : BasinAddr) (data : List Byte) (s : State) :
    Leads [.fresh, .out, .sys, .basin, .staging, .intc, .pcie, .fw] s (execBasinWriteRequest agent addr data s) := by
  unfold execBasinWriteRequest
  repeat' first
    | decide
    | with_reducible exact Follows.refl ..
    | with_reducible apply Leads.next
    | with_reducible apply issue_follows
    | with_reducible apply Follows.after (errTo_follows ..)
    | with_reducible apply Follows.after (writeReq_follows ..)
    | with_reducible apply Follows.foldl
    | with_reducible apply Follows.foldlFst
    | split
    | dsimp only
    | with_reducible refine Follows.fst (by assumption) ?_
    | with_reducible exact Leads.refused _ _ _
    | intro _

theorem scrubStep_follows (s : State) (b : Nat) :
    Follows [.basin, .staging, .intc, .fw] s (scrubStep s b) := by
  unfold scrubStep
  repeat' first
    | decide
    | with_reducible exact Follows.refl ..
    | with_reducible apply Follows.after (updBank_follows ..)
    | with_reducible apply Follows.after (fetchDw_follows ..)
    | with_reducible apply Follows.foldl
    | with_reducible apply Follows.foldlFst
    | split
    | dsimp only
    | with_reducible refine Follows.fst (by assumption) ?_
    | intro _

theorem execScrubRead_follows (bank : Fin 4) (s : State) :
    Leads [.basin, .staging, .intc, .fw] s (execScrubRead bank s) := by
  unfold execScrubRead
  repeat' first
    | decide
    | with_reducible exact Follows.refl ..
    | with_reducible apply Leads.next
    | with_reducible apply Follows.after (scrubStep_follows ..)
    | with_reducible apply Follows.foldl
    | split
    | dsimp only
    | with_reducible exact Leads.refused _ _ _
    | intro _

/-! ### Weir -/

theorem onWeir_follows (s : State) (f : Weir → Weir) :
    Follows [.weir] s (onWeir s f) := by
  unfold onWeir
  repeat' first
    | decide
    | with_reducible exact Follows.refl ..
    | with_reducible apply Follows.foldl
    | split
    | dsimp only
    | with_reducible apply Follows.set_weir
    | intro _

theorem updCtx_follows (s : State) (a : Nat) (f : WeirCtx → WeirCtx) :
    Follows [.weir] s (updCtx s a f) := by
  unfold updCtx
  repeat' first
    | decide
    | with_reducible exact Follows.refl ..
    | with_reducible apply Follows.after (onWeir_follows ..)
    | with_reducible apply Follows.foldl
    | split
    | dsimp only
    | intro _

theorem setCell_follows (s : State) (n : Nat) (c : LockCell) :
    Follows [.weir] s (setCell s n c) := by
  unfold setCell
  repeat' first
    | decide
    | with_reducible exact Follows.refl ..
    | with_reducible apply Follows.after (onWeir_follows ..)
    | with_reducible apply Follows.foldl
    | split
    | dsimp only
    | intro _

theorem weirSettle_follows (s : State) :
    Follows [.intc] s (weirSettle s) := by
  unfold weirSettle
  repeat' first
    | decide
    | with_reducible exact Follows.refl ..
    | with_reducible apply Follows.after (drivePriv_follows ..)
    | with_reducible apply Follows.foldl
    | split
    | dsimp only
    | intro _

theorem weirEnd_follows (s : State) (a : Nat) (op : Bool) (res : Nat) (old : Dword) (corr : Bool) :
    Follows [.weir] s (weirEnd s a op res old corr) := by
  unfold weirEnd
  repeat' first
    | decide
    | with_reducible exact Follows.refl ..
    | with_reducible apply Follows.after (updCtx_follows ..)
    | with_reducible apply Follows.foldl
    | split
    | dsimp only
    | intro _

theorem weirStart_follows (s : State) (a : Nat) (op : Bool) :
    Follows [.weir] s (weirStart s a op) := by
  unfold weirStart
  repeat' first
    | decide
    | with_reducible exact Follows.refl ..
    | with_reducible apply Follows.after (updCtx_follows ..)
    | with_reducible apply Follows.after (weirEnd_follows ..)
    | with_reducible apply Follows.foldl
    | split
    | dsimp only
    | intro _

theorem ctxStore_follows (s : State) (a : Nat) (o : Nat) (v : Word) :
    Follows [.weir, .intc] s (ctxStore s a o v) := by
  unfold ctxStore
  repeat' first
    | decide
    | with_reducible exact Follows.refl ..
    | with_reducible apply Follows.after (updCtx_follows ..)
    | with_reducible apply Follows.after (weirSettle_follows ..)
    | with_reducible apply Follows.foldl
    | split
    | dsimp only
    | intro _

theorem weirTake_follows (s : State) (a : Nat) (r : WeirReq) :
    Follows [.weir, .intc] s (weirTake s a r) := by
  unfold weirTake
  repeat' first
    | decide
    | with_reducible exact Follows.refl ..
    | with_reducible apply Follows.after (updCtx_follows ..)
    | with_reducible apply Follows.after (weirStart_follows ..)
    | with_reducible apply Follows.after (ctxStore_follows ..)
    | with_reducible apply Follows.foldl
    | split
    | dsimp only
    | intro _

theorem weirGo_follows (s : State) (a : Nat) (op : Bool) :
    Follows [.weir, .intc] s (weirGo s a op) := by
  unfold weirGo
  repeat' first
    | decide
    | with_reducible exact Follows.refl ..
    | with_reducible apply Follows.after (weirTake_follows ..)
    | with_reducible apply Follows.foldl
    | split
    | dsimp only
    | intro _

theorem weirPerform_follows (s : State) (a : Nat) (op : Bool) (ad : Nat) (cmp : Dword) (new : Dword) :
    Follows [.out, .basin, .weir, .staging, .intc, .pcie, .fw] s (weirPerform s a op ad cmp new) := by
  unfold weirPerform
  repeat' first
    | decide
    | with_reducible exact Follows.refl ..
    | with_reducible apply Follows.after (fetchDw_follows ..)
    | with_reducible apply Follows.after (fullWrite_follows ..)
    | with_reducible apply Follows.after (signalWrite_follows ..)
    | with_reducible apply Follows.after (weirEnd_follows ..)
    | with_reducible apply Follows.foldl
    | with_reducible apply Follows.foldlFst
    | split
    | dsimp only
    | with_reducible refine Follows.fst (by assumption) ?_
    | intro _

theorem weirResume_follows (s : State) (a : Nat) :
    Follows [.weir, .intc] s (weirResume s a) := by
  unfold weirResume
  repeat' first
    | decide
    | with_reducible exact Follows.refl ..
    | with_reducible apply Follows.after (updCtx_follows ..)
    | with_reducible apply Follows.after (weirTake_follows ..)
    | with_reducible apply Follows.foldl
    | split
    | dsimp only
    | intro _

theorem weirDone_follows (s : State) (a : Nat) :
    Follows [.out, .basin, .weir, .staging, .intc, .pcie, .fw] s (weirDone s a) := by
  unfold weirDone
  repeat' first
    | decide
    | with_reducible exact Follows.refl ..
    | with_reducible apply Follows.after (weirPerform_follows ..)
    | with_reducible apply Follows.after (weirResume_follows ..)
    | with_reducible apply Follows.foldl
    | split
    | dsimp only
    | intro _

theorem weirDrain_follows (a1 : Nat) (a2 : State) (a3 : Nat) :
    Follows [.out, .basin, .weir, .staging, .intc, .pcie, .fw] a2 (weirDrain a1 a2 a3) := by
  fun_induction weirDrain a1 a2 a3 <;> repeat' first
    | decide
    | with_reducible exact Follows.refl ..
    | with_reducible apply Follows.after (weirDone_follows ..)
    | with_reducible refine Follows.trans ?_ (by assumption)
    | with_reducible apply Follows.foldl
    | split
    | dsimp only
    | intro _

theorem weirWait_follows (s : State) (a : Nat) :
    Follows [.out, .basin, .weir, .staging, .intc, .pcie, .fw] s (weirWait s a) := by
  unfold weirWait
  repeat' first
    | decide
    | with_reducible exact Follows.refl ..
    | with_reducible apply Follows.after (weirDrain_follows ..)
    | with_reducible apply Follows.foldl
    | split
    | dsimp only
    | intro _

theorem weirCatch_follows (s : State) (a : Nat) :
    Follows [.out, .basin, .weir, .staging, .intc, .pcie, .fw] s (weirCatch s a) := by
  unfold weirCatch
  repeat' first
    | decide
    | with_reducible exact Follows.refl ..
    | with_reducible apply Follows.after (weirWait_follows ..)
    | with_reducible apply Follows.foldl
    | split
    | dsimp only
    | intro _

theorem weirFence_follows (s : State) :
    Follows [.out, .weir] s (weirFence s) := by
  unfold weirFence
  repeat' first
    | decide
    | with_reducible exact Follows.refl ..
    | with_reducible apply Follows.after (emits_follows ..)
    | with_reducible apply Follows.after (updCtx_follows ..)
    | with_reducible apply Follows.after (weirEnd_follows ..)
    | with_reducible apply Follows.foldl
    | split
    | dsimp only
    | intro _

theorem casGo_follows (s : State) (a : Nat) (op : Bool) :
    Follows [.fresh, .out, .sys, .weir, .intc] s (casGo s a op) := by
  unfold casGo
  repeat' first
    | decide
    | with_reducible exact Follows.refl ..
    | with_reducible apply issue_follows
    | with_reducible apply Follows.after (errTo_follows ..)
    | with_reducible apply Follows.after (weirGo_follows ..)
    | with_reducible apply Follows.foldl
    | split
    | dsimp only
    | intro _

theorem handOn_follows (s : State) (n : Nat) (from_ : Nat) (c : LockCell) :
    Follows [.weir] s (handOn s n from_ c) := by
  unfold handOn
  repeat' first
    | decide
    | with_reducible exact Follows.refl ..
    | with_reducible apply Follows.after (setCell_follows ..)
    | with_reducible apply Follows.foldl
    | split
    | dsimp only
    | intro _

theorem releaseCell_follows (s : State) (n : Nat) (by_ : Nat) (broken : Bool) :
    Follows [.weir] s (releaseCell s n by_ broken) := by
  unfold releaseCell
  repeat' first
    | decide
    | with_reducible exact Follows.refl ..
    | with_reducible apply Follows.after (handOn_follows ..)
    | with_reducible apply Follows.foldl
    | split
    | dsimp only
    | intro _

theorem lapseCell_follows (s : State) (n : Nat) :
    Follows [.weir] s (lapseCell s n) := by
  unfold lapseCell
  repeat' first
    | decide
    | with_reducible exact Follows.refl ..
    | with_reducible apply Follows.after (handOn_follows ..)
    | with_reducible apply Follows.foldl
    | split
    | dsimp only
    | intro _

theorem lockRead_follows (s : State) (a : Nat) (n : Nat) :
    Follows [.weir] s (lockRead s a n).1 := by
  unfold lockRead
  repeat' first
    | decide
    | with_reducible exact Follows.refl ..
    | with_reducible apply Follows.after (setCell_follows ..)
    | with_reducible apply Follows.foldl
    | with_reducible apply Follows.foldlFst
    | split
    | dsimp only
    | with_reducible refine Follows.fst (by assumption) ?_
    | intro _

theorem lockWrite_follows (s : State) (a : Nat) (n : Nat) :
    Follows [.weir] s (lockWrite s a n) := by
  unfold lockWrite
  repeat' first
    | decide
    | with_reducible exact Follows.refl ..
    | with_reducible apply Follows.after (releaseCell_follows ..)
    | with_reducible apply Follows.after (lapseCell_follows ..)
    | with_reducible apply Follows.foldl
    | split
    | dsimp only
    | intro _

theorem lockReadReg_follows (s : State) (a : Nat) (n : Nat) :
    Follows [.out, .basin, .weir, .staging, .intc, .pcie, .fw] s (lockReadReg s a n).1 := by
  unfold lockReadReg
  repeat' first
    | decide
    | with_reducible exact Follows.refl ..
    | with_reducible apply Follows.after (weirSettle_follows ..)
    | with_reducible apply Follows.after (weirCatch_follows ..)
    | with_reducible apply Follows.after (lockRead_follows ..)
    | with_reducible apply Follows.foldl
    | with_reducible apply Follows.foldlFst
    | split
    | dsimp only
    | with_reducible refine Follows.fst (by assumption) ?_
    | intro _

theorem lockWriteReg_follows (s : State) (a : Nat) (n : Nat) :
    Follows [.out, .basin, .weir, .staging, .intc, .pcie, .fw] s (lockWriteReg s a n).1 := by
  unfold lockWriteReg
  repeat' first
    | decide
    | with_reducible exact Follows.refl ..
    | with_reducible apply Follows.after (weirSettle_follows ..)
    | with_reducible apply Follows.after (weirCatch_follows ..)
    | with_reducible apply Follows.after (lockWrite_follows ..)
    | with_reducible apply Follows.foldl
    | with_reducible apply Follows.foldlFst
    | split
    | dsimp only
    | with_reducible refine Follows.fst (by assumption) ?_
    | intro _

theorem weirAgentReset_follows (s : State) (a : Nat) :
    Follows [.weir, .intc] s (weirAgentReset s a) := by
  unfold weirAgentReset
  repeat' first
    | decide
    | with_reducible exact Follows.refl ..
    | with_reducible apply Follows.after (setCell_follows ..)
    | with_reducible apply Follows.after (weirSettle_follows ..)
    | with_reducible apply Follows.after (releaseCell_follows ..)
    | with_reducible apply Follows.after (lapseCell_follows ..)
    | with_reducible apply Follows.foldl
    | split
    | dsimp only
    | intro _

theorem execWeirCas_follows (agent : Agent) (s : State) :
    Leads [.fresh, .out, .sys, .weir, .intc] s (execWeirCas agent s) := by
  unfold execWeirCas
  repeat' first
    | decide
    | with_reducible exact Follows.refl ..
    | with_reducible apply Leads.next
    | with_reducible apply Follows.after (casGo_follows ..)
    | with_reducible apply Follows.foldl
    | split
    | dsimp only
    | with_reducible exact Leads.refused _ _ _
    | intro _

theorem execWeirSwap_follows (agent : Agent) (s : State) :
    Leads [.fresh, .out, .sys, .weir, .intc] s (execWeirSwap agent s) := by
  unfold execWeirSwap
  repeat' first
    | decide
    | with_reducible exact Follows.refl ..
    | with_reducible apply Leads.next
    | with_reducible apply Follows.after (casGo_follows ..)
    | with_reducible apply Follows.foldl
    | split
    | dsimp only
    | with_reducible exact Leads.refused _ _ _
    | intro _

theorem execWeirOperationDone_follows (agent : Agent) (s : State) :
    Leads [.out, .basin, .weir, .staging, .intc, .pcie, .fw] s (execWeirOperationDone agent s) := by
  unfold execWeirOperationDone
  repeat' first
    | decide
    | with_reducible exact Follows.refl ..
    | with_reducible apply Leads.next
    | with_reducible apply Follows.after (weirDone_follows ..)
    | with_reducible apply Follows.foldl
    | split
    | dsimp only
    | with_reducible exact Leads.refused _ _ _
    | intro _

theorem answer_follows (a : Nat) (ad : Nat) (a1 : State × Except Err Word) :
    Follows [.fresh, .out, .sys] a1.1 (answer a ad a1) := by
  unfold answer
  repeat' first
    | decide
    | with_reducible exact Follows.refl ..
    | with_reducible apply Follows.after (emit_follows ..)
    | with_reducible apply Follows.after (errTo_follows ..)
    | with_reducible apply Follows.foldl
    | split
    | dsimp only
    | with_reducible refine Follows.fst (by assumption) ?_
    | intro _

theorem answerW_follows (a : Nat) (ad : Nat) (a1 : State × Option Err) :
    Follows [.fresh, .out, .sys] a1.1 (answerW a ad a1) := by
  unfold answerW
  repeat' first
    | decide
    | with_reducible exact Follows.refl ..
    | with_reducible apply Follows.after (errTo_follows ..)
    | with_reducible apply Follows.foldl
    | split
    | dsimp only
    | with_reducible refine Follows.fst (by assumption) ?_
    | intro _

theorem execLockCellRead_follows (agent : Agent) (cell : Fin 1024) (s : State) :
    Leads [.fresh, .out, .sys, .basin, .weir, .staging, .intc, .pcie, .fw] s (execLockCellRead agent cell s) := by
  unfold execLockCellRead
  repeat' first
    | decide
    | with_reducible exact Follows.refl ..
    | with_reducible apply Leads.next
    | with_reducible apply issue_follows
    | with_reducible apply Follows.after (lockReadReg_follows ..)
    | with_reducible apply Follows.after (answer_follows ..)
    | with_reducible apply Follows.foldl
    | with_reducible apply Follows.foldlFst
    | split
    | dsimp only
    | with_reducible refine Follows.fst (by assumption) ?_
    | with_reducible exact Leads.refused _ _ _
    | intro _

theorem execLockCellWrite_follows (agent : Agent) (cell : Fin 1024) (s : State) :
    Leads [.fresh, .out, .sys, .basin, .weir, .staging, .intc, .pcie, .fw] s (execLockCellWrite agent cell s) := by
  unfold execLockCellWrite
  repeat' first
    | decide
    | with_reducible exact Follows.refl ..
    | with_reducible apply Leads.next
    | with_reducible apply issue_follows
    | with_reducible apply Follows.after (lockWriteReg_follows ..)
    | with_reducible apply Follows.after (answerW_follows ..)
    | with_reducible apply Follows.foldl
    | with_reducible apply Follows.foldlFst
    | split
    | dsimp only
    | with_reducible refine Follows.fst (by assumption) ?_
    | with_reducible exact Leads.refused _ _ _
    | intro _

theorem execReservationLapse_follows (cell : Fin 1024) (s : State) :
    Leads [.weir, .intc] s (execReservationLapse cell s) := by
  unfold execReservationLapse
  repeat' first
    | decide
    | with_reducible exact Follows.refl ..
    | with_reducible apply Leads.next
    | with_reducible apply Follows.after (weirSettle_follows ..)
    | with_reducible apply Follows.after (lapseCell_follows ..)
    | with_reducible apply Follows.foldl
    | split
    | dsimp only
    | with_reducible exact Leads.refused _ _ _
    | intro _

theorem execWaiterLapse_follows (agent : Agent) (cell : Fin 1024) (s : State) :
    Leads [.weir, .intc] s (execWaiterLapse agent cell s) := by
  unfold execWaiterLapse
  repeat' first
    | decide
    | with_reducible exact Follows.refl ..
    | with_reducible apply Leads.next
    | with_reducible apply Follows.after (setCell_follows ..)
    | with_reducible apply Follows.after (weirSettle_follows ..)
    | with_reducible apply Follows.foldl
    | split
    | dsimp only
    | with_reducible exact Leads.refused _ _ _
    | intro _

/-! ### Mailbox -/

theorem updMbx_follows (s : State) (m : Nat) (f : Mbx → Mbx) :
    Follows [.mbx] s (updMbx s m f) := by
  unfold updMbx
  repeat' first
    | decide
    | with_reducible exact Follows.refl ..
    | with_reducible apply Follows.foldl
    | split
    | dsimp only
    | with_reducible apply Follows.set_mbx
    | intro _

theorem driveSide_follows (s : State) (m : Nat) (sideB : Bool) :
    Follows [.intc] s (driveSide s m sideB) := by
  unfold driveSide
  repeat' first
    | decide
    | with_reducible exact Follows.refl ..
    | with_reducible apply Follows.after (drivePriv_follows ..)
    | with_reducible apply Follows.after (driveShared_follows ..)
    | with_reducible apply Follows.foldl
    | split
    | dsimp only
    | intro _

theorem flagSide_follows (s : State) (m : Nat) (sideB : Bool) (i : Nat) :
    Follows [.out, .intc, .mbx, .pcie] s (flagSide s m sideB i) := by
  unfold flagSide
  repeat' first
    | decide
    | with_reducible exact Follows.refl ..
    | with_reducible apply Follows.after (vectorReq_follows ..)
    | with_reducible apply Follows.after (updMbx_follows ..)
    | with_reducible apply Follows.after (driveSide_follows ..)
    | with_reducible apply Follows.foldl
    | split
    | dsimp only
    | intro _

theorem enqueue_follows (s : State) (a : Nat) (m : Nat) (sideB : Bool) (v : Word) (eom : Bool) :
    Follows [.out, .intc, .mbx, .pcie] s (enqueue s a m sideB v eom) := by
  unfold enqueue
  repeat' first
    | decide
    | with_reducible exact Follows.refl ..
    | with_reducible apply Follows.after (updMbx_follows ..)
    | with_reducible apply Follows.after (flagSide_follows ..)
    | with_reducible apply Follows.foldl
    | split
    | dsimp only
    | intro _

theorem placeReply_follows (a1 : State) (a2 : Nat) (a3 : List Word) :
    Follows [.out, .intc, .mbx, .pcie] a1 (placeReply a1 a2 a3) := by
  fun_induction placeReply a1 a2 a3 <;> repeat' first
    | decide
    | with_reducible exact Follows.refl ..
    | with_reducible apply Follows.after (enqueue_follows ..)
    | with_reducible refine Follows.trans ?_ (by assumption)
    | with_reducible apply Follows.foldl
    | split
    | dsimp only
    | intro _

theorem flushReply_follows (s : State) (m : Nat) :
    Follows [.out, .intc, .mbx, .pcie, .fw] s (flushReply s m) := by
  unfold flushReply
  repeat' first
    | decide
    | with_reducible exact Follows.refl ..
    | with_reducible apply Follows.after (onFw_follows ..)
    | with_reducible apply Follows.after (placeReply_follows ..)
    | with_reducible apply Follows.foldl
    | split
    | dsimp only
    | intro _

theorem flushReplies_follows (s : State) (m : Nat) :
    Follows [.out, .intc, .mbx, .pcie, .fw] s (flushReplies s m) := by
  unfold flushReplies
  repeat' first
    | decide
    | with_reducible exact Follows.refl ..
    | with_reducible apply Follows.after (flushReply_follows ..)
    | with_reducible apply Follows.foldl
    | split
    | dsimp only
    | intro _

theorem sendReply_follows (s : State) (m : Nat) (w : List Word) :
    Follows [.out, .intc, .mbx, .pcie, .fw] s (sendReply s m w) := by
  unfold sendReply
  repeat' first
    | decide
    | with_reducible exact Follows.refl ..
    | with_reducible apply Follows.after (onFw_follows ..)
    | with_reducible apply Follows.after (flushReply_follows ..)
    | with_reducible apply Follows.foldl
    | split
    | dsimp only
    | intro _

theorem txWrite_follows (s : State) (a : Nat) (m : Nat) (sideB : Bool) (aligned : Bool) (v : Word) (eom : Bool) :
    Follows [.out, .intc, .mbx, .pcie, .fw] s (txWrite s a m sideB aligned v eom) := by
  unfold txWrite
  repeat' first
    | decide
    | with_reducible exact Follows.refl ..
    | with_reducible apply Follows.after (flagSide_follows ..)
    | with_reducible apply Follows.after (enqueue_follows ..)
    | with_reducible apply Follows.after (flushReplies_follows ..)
    | with_reducible apply Follows.foldl
    | split
    | dsimp only
    | intro _

theorem rxPop_follows (s : State) (m : Nat) (sideB : Bool) :
    Follows [.out, .intc, .mbx, .pcie, .fw] s (rxPop s m sideB).1 := by
  unfold rxPop
  repeat' first
    | decide
    | with_reducible exact Follows.refl ..
    | with_reducible apply Follows.after (updMbx_follows ..)
    | with_reducible apply Follows.after (flagSide_follows ..)
    | with_reducible apply Follows.after (flushReplies_follows ..)
    | with_reducible apply Follows.foldl
    | with_reducible apply Follows.foldlFst
    | split
    | dsimp only
    | with_reducible refine Follows.fst (by assumption) ?_
    | intro _

theorem rxRead_follows (s : State) (a : Nat) (m : Nat) (sideB : Bool) (aligned : Bool) :
    Follows [.out, .intc, .mbx, .pcie, .fw] s (rxRead s a m sideB aligned).1 := by
  unfold rxRead
  repeat' first
    | decide
    | with_reducible exact Follows.refl ..
    | with_reducible apply Follows.after (flagSide_follows ..)
    | with_reducible apply Follows.after (rxPop_follows ..)
    | with_reducible apply Follows.foldl
    | with_reducible apply Follows.foldlFst
    | split
    | dsimp only
    | with_reducible refine Follows.fst (by assumption) ?_
    | intro _

theorem lockErr_follows (s : State) (m : Nat) :
    Follows [.out, .intc, .mbx, .pcie] s (lockErr s m) := by
  unfold lockErr
  repeat' first
    | decide
    | with_reducible exact Follows.refl ..
    | with_reducible apply Follows.after (flagSide_follows ..)
    | with_reducible apply Follows.foldl
    | split
    | dsimp only
    | intro _

theorem mbLockRead_follows (s : State) (a : Nat) (m : Nat) (aligned : Bool) :
    Follows [.out, .intc, .mbx, .pcie] s (mbLockRead s a m aligned).1 := by
  unfold mbLockRead
  repeat' first
    | decide
    | with_reducible exact Follows.refl ..
    | with_reducible apply Follows.after (updMbx_follows ..)
    | with_reducible apply Follows.after (lockErr_follows ..)
    | with_reducible apply Follows.foldl
    | with_reducible apply Follows.foldlFst
    | split
    | dsimp only
    | with_reducible refine Follows.fst (by assumption) ?_
    | intro _

theorem mbLockWrite_follows (s : State) (a : Nat) (m : Nat) (aligned : Bool) :
    Follows [.out, .intc, .mbx, .pcie] s (mbLockWrite s a m aligned) := by
  unfold mbLockWrite
  repeat' first
    | decide
    | with_reducible exact Follows.refl ..
    | with_reducible apply Follows.after (updMbx_follows ..)
    | with_reducible apply Follows.after (lockErr_follows ..)
    | with_reducible apply Follows.foldl
    | split
    | dsimp only
    | intro _

theorem irqEnWrite_follows (s : State) (a : Nat) (m : Nat) (sideB : Bool) (aligned : Bool) (v : Word) :
    Follows [.out, .intc, .mbx, .pcie] s (irqEnWrite s a m sideB aligned v) := by
  unfold irqEnWrite
  repeat' first
    | decide
    | with_reducible exact Follows.refl ..
    | with_reducible apply Follows.after (vectorReq_follows ..)
    | with_reducible apply Follows.after (updMbx_follows ..)
    | with_reducible apply Follows.after (driveSide_follows ..)
    | with_reducible apply Follows.after (flagSide_follows ..)
    | with_reducible apply Follows.foldl
    | split
    | dsimp only
    | intro _

theorem resetQueue_follows (s : State) (a : Nat) (m : Nat) (sideB : Bool) :
    Follows [.out, .intc, .mbx, .pcie] s (resetQueue s a m sideB) := by
  unfold resetQueue
  repeat' first
    | decide
    | with_reducible exact Follows.refl ..
    | with_reducible apply Follows.after (updMbx_follows ..)
    | with_reducible apply Follows.after (flagSide_follows ..)
    | with_reducible apply Follows.foldl
    | split
    | dsimp only
    | intro _

theorem resetSide_follows (s : State) (a : Nat) (m : Nat) (sideB : Bool) :
    Follows [.intc, .mbx] s (resetSide s a m sideB) := by
  unfold resetSide
  repeat' first
    | decide
    | with_reducible exact Follows.refl ..
    | with_reducible apply Follows.after (updMbx_follows ..)
    | with_reducible apply Follows.after (driveSide_follows ..)
    | with_reducible apply Follows.foldl
    | split
    | dsimp only
    | intro _

theorem resetMbx_follows (a : Nat) (s : State) (m : Nat) :
    Follows [.out, .intc, .mbx, .pcie] s (resetMbx a s m) := by
  unfold resetMbx
  repeat' first
    | decide
    | with_reducible exact Follows.refl ..
    | with_reducible apply Follows.after (updMbx_follows ..)
    | with_reducible apply Follows.after (flagSide_follows ..)
    | with_reducible apply Follows.after (resetQueue_follows ..)
    | with_reducible apply Follows.after (resetSide_follows ..)
    | with_reducible apply Follows.foldl
    | split
    | dsimp only
    | intro _

theorem agentReset_follows (s : State) (a : Nat) :
    Follows [.out, .weir, .intc, .mbx, .pcie, .fw] s (agentReset s a) := by
  unfold agentReset
  repeat' first
    | decide
    | with_reducible exact Follows.refl ..
    | with_reducible apply Follows.after (weirAgentReset_follows ..)
    | with_reducible apply Follows.after (flushReplies_follows ..)
    | with_reducible apply Follows.after (resetMbx_follows ..)
    | with_reducible apply Follows.foldl
    | split
    | dsimp only
    | intro _

theorem execMbTxData_follows (agent : Agent) (mb : Fin 24) (sideB : Bool) (aligned : Bool) (value : Word) (s : State) :
    Leads [.out, .intc, .mbx, .pcie, .fw] s (execMbTxData agent mb sideB aligned value s) := by
  unfold execMbTxData
  repeat' first
    | decide
    | with_reducible exact Follows.refl ..
    | with_reducible apply Leads.next
    | with_reducible apply issue_follows
    | with_reducible apply Follows.after (txWrite_follows ..)
    | with_reducible apply Follows.foldl
    | split
    | dsimp only
    | with_reducible exact Leads.refused _ _ _
    | intro _

theorem execMbTxDataAlias_follows (agent : Agent) (mb : Fin 24) (sideB : Bool) (first : Fin 8) (words : List Word) (s : State) :
    Leads [.out, .intc, .mbx, .pcie, .fw] s (execMbTxDataAlias agent mb sideB first words s) := by
  unfold execMbTxDataAlias
  repeat' first
    | decide
    | with_reducible exact Follows.refl ..
    | with_reducible apply Leads.next
    | with_reducible apply issue_follows
    | with_reducible apply Follows.after (txWrite_follows ..)
    | with_reducible apply Follows.foldl
    | split
    | dsimp only
    | with_reducible exact Leads.refused _ _ _
    | intro _

theorem execMbTxDoorbell_follows (agent : Agent) (mb : Fin 24) (sideB : Bool) (aligned : Bool) (value : Word) (s : State) :
    Leads [.out, .intc, .mbx, .pcie, .fw] s (execMbTxDoorbell agent mb sideB aligned value s) := by
  unfold execMbTxDoorbell
  repeat' first
    | decide
    | with_reducible exact Follows.refl ..
    | with_reducible apply Leads.next
    | with_reducible apply issue_follows
    | with_reducible apply Follows.after (txWrite_follows ..)
    | with_reducible apply Follows.foldl
    | split
    | dsimp only
    | with_reducible exact Leads.refused _ _ _
    | intro _

theorem answer?_follows (a : Nat) (a1 : State × Option Word) :
    Follows [.out] a1.1 (answer? a a1) := by
  unfold answer?
  repeat' first
    | decide
    | with_reducible exact Follows.refl ..
    | with_reducible apply Follows.after (emit_follows ..)
    | with_reducible apply Follows.foldl
    | split
    | dsimp only
    | with_reducible refine Follows.fst (by assumption) ?_
    | intro _

theorem execMbRxData_follows (agent : Agent) (mb : Fin 24) (sideB : Bool) (aligned : Bool) (s : State) :
    Leads [.out, .intc, .mbx, .pcie, .fw] s (execMbRxData agent mb sideB aligned s) := by
  unfold execMbRxData
  repeat' first
    | decide
    | with_reducible exact Follows.refl ..
    | with_reducible apply Leads.next
    | with_reducible apply issue_follows
    | with_reducible apply Follows.after (rxRead_follows ..)
    | with_reducible apply Follows.after (answer?_follows ..)
    | with_reducible apply Follows.foldl
    | with_reducible apply Follows.foldlFst
    | split
    | dsimp only
    | with_reducible refine Follows.fst (by assumption) ?_
    | with_reducible exact Leads.refused _ _ _
    | intro _

theorem execMbLockRead_follows (agent : Agent) (mb : Fin 24) (aligned : Bool) (s : State) :
    Leads [.out, .intc, .mbx, .pcie] s (execMbLockRead agent mb aligned s) := by
  unfold execMbLockRead
  repeat' first
    | decide
    | with_reducible exact Follows.refl ..
    | with_reducible apply Leads.next
    | with_reducible apply issue_follows
    | with_reducible apply Follows.after (mbLockRead_follows ..)
    | with_reducible apply Follows.after (answer?_follows ..)
    | with_reducible apply Follows.foldl
    | with_reducible apply Follows.foldlFst
    | split
    | dsimp only
    | with_reducible refine Follows.fst (by assumption) ?_
    | with_reducible exact Leads.refused _ _ _
    | intro _

theorem execMbLockWrite_follows (agent : Agent) (mb : Fin 24) (aligned : Bool) (s : State) :
    Leads [.out, .intc, .mbx, .pcie] s (execMbLockWrite agent mb aligned s) := by
  unfold execMbLockWrite
  repeat' first
    | decide
    | with_reducible exact Follows.refl ..
    | with_reducible apply Leads.next
    | with_reducible apply issue_follows
    | with_reducible apply Follows.after (mbLockWrite_follows ..)
    | with_reducible apply Follows.foldl
    | split
    | dsimp only
    | with_reducible exact Leads.refused _ _ _
    | intro _

theorem execMbIrqEnWrite_follows (agent : Agent) (mb : Fin 24) (sideB : Bool) (aligned : Bool) (value : Word) (s : State) :
    Leads [.out, .intc, .mbx, .pcie] s (execMbIrqEnWrite agent mb sideB aligned value s) := by
  unfold execMbIrqEnWrite
  repeat' first
    | decide
    | with_reducible exact Follows.refl ..
    | with_reducible apply Leads.next
    | with_reducible apply issue_follows
    | with_reducible apply Follows.after (irqEnWrite_follows ..)
    | with_reducible apply Follows.foldl
    | split
    | dsimp only
    | with_reducible exact Leads.refused _ _ _
    | intro _

/-! ### Window -/

theorem onWin_follows (s : State) (f : Window → Window) :
    Follows [.win] s (onWin s f) := by
  unfold onWin
  repeat' first
    | decide
    | with_reducible exact Follows.refl ..
    | with_reducible apply Follows.foldl
    | split
    | dsimp only
    | with_reducible apply Follows.set_win
    | intro _

theorem onPcie_follows (s : State) (f : Pcie → Pcie) :
    Follows [.pcie] s (onPcie s f) := by
  unfold onPcie
  repeat' first
    | decide
    | with_reducible exact Follows.refl ..
    | with_reducible apply Follows.foldl
    | split
    | dsimp only
    | with_reducible apply Follows.set_pcie
    | intro _

theorem setGuards_follows (s : State) (first : Nat) (n : Nat) (g : BitVec 2) :
    Follows [.win] s (setGuards s first n g) := by
  unfold setGuards
  repeat' first
    | decide
    | with_reducible exact Follows.refl ..
    | with_reducible apply Follows.after (onWin_follows ..)
    | with_reducible apply Follows.foldl
    | split
    | dsimp only
    | intro _

theorem winError_follows (s : State) (i : Nat) (a : Nat) (bar0 : Bool) :
    Follows [.staging, .intc, .win, .fw] s (winError s i a bar0) := by
  unfold winError
  repeat' first
    | decide
    | with_reducible exact Follows.refl ..
    | with_reducible apply Follows.after (postRec_follows ..)
    | with_reducible apply Follows.after (onWin_follows ..)
    | with_reducible apply Follows.foldl
    | split
    | dsimp only
    | intro _

theorem hostError_follows (s : State) (write : Bool) (l : List (Err × Nat)) (e : Err) :
    Follows [.staging, .intc, .win, .fw] s (hostError s write l e) := by
  unfold hostError
  repeat' first
    | decide
    | with_reducible exact Follows.refl ..
    | with_reducible apply Follows.after (winError_follows ..)
    | with_reducible apply Follows.foldl
    | split
    | dsimp only
    | intro _

theorem execHostBar2Read_follows (addr : BasinAddr) (len : Nat) (s : State) :
    Leads [.out, .basin, .staging, .intc, .win, .fw] s (execHostBar2Read addr len s) := by
  unfold execHostBar2Read
  repeat' first
    | decide
    | with_reducible exact Follows.refl ..
    | with_reducible apply Leads.next
    | with_reducible apply Follows.after (emit_follows ..)
    | with_reducible apply Follows.after (readMem_follows ..)
    | with_reducible apply Follows.after (winError_follows ..)
    | with_reducible apply Follows.after (hostError_follows ..)
    | with_reducible apply Follows.foldl
    | with_reducible apply Follows.foldlFst
    | split
    | dsimp only
    | with_reducible refine Follows.fst (by assumption) ?_
    | with_reducible exact Leads.refused _ _ _
    | intro _

theorem execHostBar2Write_follows (addr : BasinAddr) (data : List Byte) (ep : Bool) (bar0 : Bool) (s : State) :
    Leads [.out, .basin, .staging, .intc, .win, .pcie, .fw] s (execHostBar2Write addr data ep bar0 s) := by
  unfold execHostBar2Write
  repeat' first
    | decide
    | with_reducible exact Follows.refl ..
    | with_reducible apply Leads.next
    | with_reducible apply Follows.after (emit_follows ..)
    | with_reducible apply Follows.after (writeMem_follows ..)
    | with_reducible apply Follows.after (onPcie_follows ..)
    | with_reducible apply Follows.after (winError_follows ..)
    | with_reducible apply Follows.after (hostError_follows ..)
    | with_reducible apply Follows.foldl
    | with_reducible apply Follows.foldlFst
    | split
    | dsimp only
    | with_reducible refine Follows.fst (by assumption) ?_
    | with_reducible exact Leads.refused _ _ _
    | intro _

theorem cfgWrite_follows (s : State) (a1 : CfgWrite) :
    Follows [.pcie] s (cfgWrite s a1) := by
  unfold cfgWrite
  repeat' first
    | decide
    | with_reducible exact Follows.refl ..
    | with_reducible apply Follows.after (onPcie_follows ..)
    | with_reducible apply Follows.foldl
    | split
    | dsimp only
    | intro _

theorem execPcieConfigWrite_follows (w : CfgWrite) (s : State) :
    Leads [.out, .pcie] s (execPcieConfigWrite w s) := by
  unfold execPcieConfigWrite
  repeat' first
    | decide
    | with_reducible exact Follows.refl ..
    | with_reducible apply Leads.next
    | with_reducible apply Follows.after (msixFlush_follows ..)
    | with_reducible apply Follows.after (cfgWrite_follows ..)
    | with_reducible apply Follows.foldl
    | split
    | dsimp only
    | with_reducible exact Leads.refused _ _ _
    | intro _

theorem msixPut_follows (s : State) (off : Nat) (b : Byte) :
    Follows [.pcie] s (msixPut s off b) := by
  unfold msixPut
  repeat' first
    | decide
    | with_reducible exact Follows.refl ..
    | with_reducible apply Follows.after (onPcie_follows ..)
    | with_reducible apply Follows.foldl
    | split
    | dsimp only
    | intro _

theorem msixWrite_follows (a1 : State) (a2 : Nat) (a3 : List (Option Byte)) :
    Follows [.pcie] a1 (msixWrite a1 a2 a3) := by
  fun_induction msixWrite a1 a2 a3 <;> repeat' first
    | decide
    | with_reducible exact Follows.refl ..
    | with_reducible apply Follows.after (msixPut_follows ..)
    | with_reducible refine Follows.trans ?_ (by assumption)
    | with_reducible apply Follows.foldl
    | split
    | dsimp only
    | intro _

theorem execMsixTableWrite_follows (offset : Fin 1024) (bytes : List (Option Byte)) (s : State) :
    Leads [.out, .pcie] s (execMsixTableWrite offset bytes s) := by
  unfold execMsixTableWrite
  repeat' first
    | decide
    | with_reducible exact Follows.refl ..
    | with_reducible apply Leads.next
    | with_reducible apply Follows.after (msixFlush_follows ..)
    | with_reducible apply Follows.after (msixWrite_follows ..)
    | with_reducible apply Follows.foldl
    | split
    | dsimp only
    | with_reducible exact Leads.refused _ _ _
    | intro _

/-! ### Intc -/

theorem onIntc_follows (s : State) (f : Intc → Intc) :
    Follows [.intc] s (onIntc s f) := by
  unfold onIntc
  repeat' first
    | decide
    | with_reducible exact Follows.refl ..
    | with_reducible apply Follows.foldl
    | split
    | dsimp only
    | with_reducible apply Follows.set_intc
    | intro _

theorem updTarget_follows (s : State) (t : Nat) (f : Target → Target) :
    Follows [.intc] s (updTarget s t f) := by
  unfold updTarget
  repeat' first
    | decide
    | with_reducible exact Follows.refl ..
    | with_reducible apply Follows.after (onIntc_follows ..)
    | with_reducible apply Follows.foldl
    | split
    | dsimp only
    | intro _

theorem updSrc_follows (s : State) (t : Nat) (src : Nat) (f : Src → Src) :
    Follows [.intc] s (updSrc s t src f) := by
  unfold updSrc
  repeat' first
    | decide
    | with_reducible exact Follows.refl ..
    | with_reducible apply Follows.after (updPriv_follows ..)
    | with_reducible apply Follows.after (updShared_follows ..)
    | with_reducible apply Follows.foldl
    | split
    | dsimp only
    | intro _

theorem claim_follows (s : State) (t : Nat) :
    Follows [.intc] s (claim s t).1 := by
  unfold claim
  repeat' first
    | decide
    | with_reducible exact Follows.refl ..
    | with_reducible apply Follows.after (updTarget_follows ..)
    | with_reducible apply Follows.after (updSrc_follows ..)
    | with_reducible apply Follows.foldl
    | with_reducible apply Follows.foldlFst
    | split
    | dsimp only
    | with_reducible refine Follows.fst (by assumption) ?_
    | intro _

theorem complete_follows (s : State) (t : Nat) (v : Word) :
    Follows [.intc] s (complete s t v) := by
  unfold complete
  repeat' first
    | decide
    | with_reducible exact Follows.refl ..
    | with_reducible apply Follows.after (updTarget_follows ..)
    | with_reducible apply Follows.after (updSrc_follows ..)
    | with_reducible apply Follows.foldl
    | split
    | dsimp only
    | intro _

theorem claimRead_follows (s : State) (a : Nat) :
    Follows [.intc] s (claimRead s a).1 := by
  unfold claimRead
  repeat' first
    | decide
    | with_reducible exact Follows.refl ..
    | with_reducible apply Follows.after (claim_follows ..)
    | with_reducible apply Follows.foldl
    | with_reducible apply Follows.foldlFst
    | split
    | dsimp only
    | with_reducible refine Follows.fst (by assumption) ?_
    | intro _

theorem completeWrite_follows (s : State) (a : Nat) (v : Word) :
    Follows [.intc] s (completeWrite s a v) := by
  unfold completeWrite
  repeat' first
    | decide
    | with_reducible exact Follows.refl ..
    | with_reducible apply Follows.after (complete_follows ..)
    | with_reducible apply Follows.foldl
    | split
    | dsimp only
    | intro _

theorem raiseErr_follows (s : State) (a : Nat) :
    Follows [.intc] s (raiseErr s a) := by
  unfold raiseErr
  repeat' first
    | decide
    | with_reducible exact Follows.refl ..
    | with_reducible apply Follows.after (updTarget_follows ..)
    | with_reducible apply Follows.foldl
    | split
    | dsimp only
    | intro _

theorem raiseWrite_follows (s : State) (a : Nat) (v : Word) :
    Follows [.intc] s (raiseWrite s a v) := by
  unfold raiseWrite
  repeat' first
    | decide
    | with_reducible exact Follows.refl ..
    | with_reducible apply Follows.after (raisePriv_follows ..)
    | with_reducible apply Follows.after (raiseShared_follows ..)
    | with_reducible apply Follows.after (raiseErr_follows ..)
    | with_reducible apply Follows.foldl
    | split
    | dsimp only
    | intro _

theorem updNamed_follows (s : State) (shared : Bool) (t : Nat) (n : Nat) (f : Src → Src) :
    Follows [.intc] s (updNamed s shared t n f) := by
  unfold updNamed
  repeat' first
    | decide
    | with_reducible exact Follows.refl ..
    | with_reducible apply Follows.after (updPriv_follows ..)
    | with_reducible apply Follows.after (updShared_follows ..)
    | with_reducible apply Follows.foldl
    | split
    | dsimp only
    | intro _

theorem icTargetFence_follows (s : State) (t : Nat) :
    Follows [.intc] s (icTargetFence s t) := by
  unfold icTargetFence
  repeat' first
    | decide
    | with_reducible exact Follows.refl ..
    | with_reducible apply Follows.after (updShared_follows ..)
    | with_reducible apply Follows.foldl
    | split
    | dsimp only
    | intro _

theorem icTargetReset_follows (s : State) (t : Nat) :
    Follows [.intc] s (icTargetReset s t) := by
  unfold icTargetReset
  repeat' first
    | decide
    | with_reducible exact Follows.refl ..
    | with_reducible apply Follows.after (updPriv_follows ..)
    | with_reducible apply Follows.after (updTarget_follows ..)
    | with_reducible apply Follows.after (icTargetFence_follows ..)
    | with_reducible apply Follows.foldl
    | split
    | dsimp only
    | intro _

theorem execIcClaim_follows (agent : Agent) (s : State) :
    Leads [.out, .intc] s (execIcClaim agent s) := by
  unfold execIcClaim
  repeat' first
    | decide
    | with_reducible exact Follows.refl ..
    | with_reducible apply Leads.next
    | with_reducible apply issue_follows
    | with_reducible apply Follows.after (emit_follows ..)
    | with_reducible apply Follows.after (claimRead_follows ..)
    | with_reducible apply Follows.foldl
    | with_reducible apply Follows.foldlFst
    | split
    | dsimp only
    | with_reducible refine Follows.fst (by assumption) ?_
    | with_reducible exact Leads.refused _ _ _
    | intro _

theorem execIcComplete_follows (agent : Agent) (value : Word) (s : State) :
    Leads [.intc] s (execIcComplete agent value s) := by
  unfold execIcComplete
  repeat' first
    | decide
    | with_reducible exact Follows.refl ..
    | with_reducible apply Leads.next
    | with_reducible apply issue_follows
    | with_reducible apply Follows.after (completeWrite_follows ..)
    | with_reducible apply Follows.foldl
    | split
    | dsimp only
    | with_reducible exact Leads.refused _ _ _
    | intro _

theorem execIcRaise_follows (agent : Agent) (value : Word) (s : State) :
    Leads [.intc] s (execIcRaise agent value s) := by
  unfold execIcRaise
  repeat' first
    | decide
    | with_reducible exact Follows.refl ..
    | with_reducible apply Leads.next
    | with_reducible apply issue_follows
    | with_reducible apply Follows.after (raiseWrite_follows ..)
    | with_reducible apply Follows.foldl
    | split
    | dsimp only
    | with_reducible exact Leads.refused _ _ _
    | intro _

theorem execDiscardCount_follows (agent : Agent) (shared : Bool) (target : Fin 9) (src : Fin 256) (s : State) :
    Leads [.intc] s (execDiscardCount agent shared target src s) := by
  unfold execDiscardCount
  repeat' first
    | decide
    | with_reducible exact Follows.refl ..
    | with_reducible apply Leads.next
    | with_reducible apply issue_follows
    | with_reducible apply Follows.after (updNamed_follows ..)
    | with_reducible apply Follows.foldl
    | split
    | dsimp only
    | with_reducible exact Leads.refused _ _ _
    | intro _

theorem internalFault_follows (s : State) :
    Follows [.fresh, .staging, .intc, .fw] s (internalFault s) := by
  unfold internalFault
  repeat' first
    | decide
    | with_reducible exact Follows.refl ..
    | with_reducible apply Follows.after (drawFree_follows ..)
    | with_reducible apply Follows.after (postRec_follows ..)
    | with_reducible apply Follows.foldl
    | with_reducible apply Follows.foldlFst
    | split
    | dsimp only
    | with_reducible refine Follows.fst (by assumption) ?_
    | intro _

theorem execIcParityError_follows (shared : Bool) (target : Fin 9) (src : Fin 256) (s : State) :
    Leads [.fresh, .staging, .intc, .fw] s (execIcParityError shared target src s) := by
  unfold execIcParityError
  repeat' first
    | decide
    | with_reducible exact Follows.refl ..
    | with_reducible apply Leads.next
    | with_reducible apply Follows.after (updNamed_follows ..)
    | with_reducible apply Follows.after (internalFault_follows ..)
    | with_reducible apply Follows.foldl
    | split
    | dsimp only
    | with_reducible exact Leads.refused _ _ _
    | intro _

/-! ### Moorings -/

theorem readCb_follows (s : State) (m : Moor) :
    Follows [.basin, .staging, .intc, .fw] s (readCb s m).1 := by
  unfold readCb
  repeat' first
    | decide
    | with_reducible exact Follows.refl ..
    | with_reducible apply Follows.after (readMem_follows ..)
    | with_reducible apply Follows.foldl
    | with_reducible apply Follows.foldlFst
    | split
    | dsimp only
    | with_reducible refine Follows.fst (by assumption) ?_
    | intro _

theorem addDropped_follows (s : State) (m : Moor) (old : Word) (n : Nat) :
    Follows [.out, .basin, .staging, .intc, .pcie, .fw] s (addDropped s m old n) := by
  unfold addDropped
  repeat' first
    | decide
    | with_reducible exact Follows.refl ..
    | with_reducible apply Follows.after (writeMem_follows ..)
    | with_reducible apply Follows.foldl
    | with_reducible apply Follows.foldlFst
    | split
    | dsimp only
    | with_reducible refine Follows.fst (by assumption) ?_
    | intro _

theorem putEntry_follows (s : State) (m : Moor) (prod : Word) (cons : Word) (b : List Byte) :
    Follows [.out, .basin, .staging, .intc, .pcie, .fw] s (putEntry s m prod cons b).1 := by
  unfold putEntry
  repeat' first
    | decide
    | with_reducible exact Follows.refl ..
    | with_reducible apply Follows.after (vectorReq_follows ..)
    | with_reducible apply Follows.after (writeMem_follows ..)
    | with_reducible apply Follows.foldl
    | with_reducible apply Follows.foldlFst
    | split
    | dsimp only
    | with_reducible refine Follows.fst (by assumption) ?_
    | intro _

theorem keepOne_follows (s : State) (i : Nat) (m : Moor) :
    Follows [.fw] s (keepOne s i m) := by
  unfold keepOne
  repeat' first
    | decide
    | with_reducible exact Follows.refl ..
    | with_reducible apply Follows.after (setMoor_follows ..)
    | with_reducible apply Follows.foldl
    | split
    | dsimp only
    | intro _

theorem settleKept_follows (s : State) (i : Nat) (m : Moor) (dropped : Word) :
    Follows [.out, .basin, .staging, .intc, .pcie, .fw] s (settleKept s i m dropped).1 := by
  unfold settleKept
  repeat' first
    | decide
    | with_reducible exact Follows.refl ..
    | with_reducible apply Follows.after (setMoor_follows ..)
    | with_reducible apply Follows.after (addDropped_follows ..)
    | with_reducible apply Follows.foldl
    | with_reducible apply Follows.foldlFst
    | split
    | dsimp only
    | with_reducible refine Follows.fst (by assumption) ?_
    | intro _

theorem putOverflow_follows (s : State) (i : Nat) (m : Moor) (prod : Word) (cons : Word) :
    Follows [.out, .basin, .staging, .intc, .pcie, .fw] s (putOverflow s i m prod cons).1 := by
  unfold putOverflow
  repeat' first
    | decide
    | with_reducible exact Follows.refl ..
    | with_reducible apply Follows.after (setMoor_follows ..)
    | with_reducible apply Follows.after (putEntry_follows ..)
    | with_reducible apply Follows.foldl
    | with_reducible apply Follows.foldlFst
    | split
    | dsimp only
    | with_reducible refine Follows.fst (by assumption) ?_
    | intro _

theorem putRec_follows (s : State) (i : Nat) (m : Moor) (r : Rec) :
    Follows [.out, .basin, .staging, .intc, .pcie, .fw] s (putRec s i m r) := by
  unfold putRec
  repeat' first
    | decide
    | with_reducible exact Follows.refl ..
    | with_reducible apply Follows.after (setMoor_follows ..)
    | with_reducible apply Follows.after (readCb_follows ..)
    | with_reducible apply Follows.after (addDropped_follows ..)
    | with_reducible apply Follows.after (putEntry_follows ..)
    | with_reducible apply Follows.after (keepOne_follows ..)
    | with_reducible apply Follows.after (settleKept_follows ..)
    | with_reducible apply Follows.after (putOverflow_follows ..)
    | with_reducible apply Follows.foldl
    | with_reducible apply Follows.foldlFst
    | split
    | dsimp only
    | with_reducible refine Follows.fst (by assumption) ?_
    | intro _

theorem putMarker_follows (s : State) (i : Nat) (m : Moor) (r : Rec) :
    Follows [.out, .basin, .staging, .intc, .pcie, .fw] s (putMarker s i m r).1 := by
  unfold putMarker
  repeat' first
    | decide
    | with_reducible exact Follows.refl ..
    | with_reducible apply Follows.after (writeMem_follows ..)
    | with_reducible apply Follows.after (readCb_follows ..)
    | with_reducible apply Follows.after (putEntry_follows ..)
    | with_reducible apply Follows.after (settleKept_follows ..)
    | with_reducible apply Follows.after (putOverflow_follows ..)
    | with_reducible apply Follows.foldl
    | with_reducible apply Follows.foldlFst
    | split
    | dsimp only
    | with_reducible refine Follows.fst (by assumption) ?_
    | intro _

theorem holdRec_follows (s : State) (r : Rec) :
    Follows [.fw] s (holdRec s r) := by
  unfold holdRec
  repeat' first
    | decide
    | with_reducible exact Follows.refl ..
    | with_reducible apply Follows.after (onFw_follows ..)
    | with_reducible apply Follows.foldl
    | split
    | dsimp only
    | intro _

theorem deliver_follows (s : State) (r : Rec) :
    Follows [.out, .basin, .staging, .intc, .pcie, .fw] s (deliver s r).1 := by
  unfold deliver
  repeat' first
    | decide
    | with_reducible exact Follows.refl ..
    | with_reducible apply Follows.after (putRec_follows ..)
    | with_reducible apply Follows.after (putMarker_follows ..)
    | with_reducible apply Follows.after (holdRec_follows ..)
    | with_reducible apply Follows.foldl
    | with_reducible apply Follows.foldlFst
    | split
    | dsimp only
    | with_reducible refine Follows.fst (by assumption) ?_
    | intro _

theorem deliverFirst_follows (a1 : List Rec) (a2 : List Rec) (a3 : State) :
    Follows [.out, .basin, .staging, .intc, .pcie, .fw] a3 (deliverFirst a1 a2 a3) := by
  fun_induction deliverFirst a1 a2 a3 <;> repeat' first
    | decide
    | with_reducible exact Follows.refl ..
    | with_reducible apply Follows.after (stagingLevel_follows ..)
    | with_reducible apply Follows.after (deliver_follows ..)
    | with_reducible refine Follows.trans ?_ (by assumption)
    | with_reducible apply Follows.foldl
    | with_reducible apply Follows.foldlFst
    | split
    | dsimp only
    | with_reducible refine Follows.fst (by assumption) ?_
    | with_reducible apply Follows.set_staging
    | intro _

theorem signalFence_follows (s : State) (island : Nat) (i : Nat) (v : Word) :
    Follows [.staging, .intc, .fw] s (signalFence s island i v) := by
  unfold signalFence
  repeat' first
    | decide
    | with_reducible exact Follows.refl ..
    | with_reducible apply Follows.after (onFw_follows ..)
    | with_reducible apply Follows.after (postRec_follows ..)
    | with_reducible apply Follows.foldl
    | split
    | dsimp only
    | intro _

theorem execEventRecordDelivery_follows (s : State) :
    Leads [.out, .basin, .staging, .intc, .pcie, .fw] s (execEventRecordDelivery s) := by
  unfold execEventRecordDelivery
  repeat' first
    | decide
    | with_reducible exact Follows.refl ..
    | with_reducible apply Leads.next
    | with_reducible apply Follows.after (deliverFirst_follows ..)
    | with_reducible apply Follows.foldl
    | split
    | dsimp only
    | with_reducible exact Leads.refused _ _ _
    | intro _

end Sys2Proof.Machine
end

