-- ==== Sys2Proof/Laws/FollowsTowline.lean ====
section
/-! SUPPORT. What each operation may change (`Follows`): the beam, composition, the lanes, region push and the stations. -/

set_option linter.unusedTactic false
set_option linter.unreachableTactic false
set_option linter.unusedVariables false

open Sys2Proof

namespace Sys2Proof.Machine

/-! ### Beam -/

theorem onTp_follows (s : State) (f : Towpath → Towpath) :
    Follows [.tp] s (onTp s f) := by
  unfold onTp
  repeat' first
    | decide
    | with_reducible exact Follows.refl ..
    | with_reducible apply Follows.foldl
    | split
    | dsimp only
    | with_reducible apply Follows.set_tp
    | intro _

theorem setScene_follows (s : State) (i : Nat) (c : Scene) :
    Follows [.tp] s (setScene s i c) := by
  unfold setScene
  repeat' first
    | decide
    | with_reducible exact Follows.refl ..
    | with_reducible apply Follows.after (onTp_follows ..)
    | with_reducible apply Follows.foldl
    | split
    | dsimp only
    | intro _

theorem updScene_follows (s : State) (i : Nat) (f : Scene → Scene) :
    Follows [.tp] s (updScene s i f) := by
  unfold updScene
  repeat' first
    | decide
    | with_reducible exact Follows.refl ..
    | with_reducible apply Follows.after (setScene_follows ..)
    | with_reducible apply Follows.foldl
    | split
    | dsimp only
    | intro _

theorem atTick_follows (s : State) (t : Nat) :
    Follows [.tick] s (atTick s t) := by
  unfold atTick
  repeat' first
    | decide
    | with_reducible exact Follows.refl ..
    | with_reducible apply Follows.foldl
    | split
    | dsimp only
    | with_reducible apply Follows.set_tick
    | intro _

theorem rasterWrite_follows (s : State) (agent : Nat) (i : Nat) (reg : Option Nat) (v : Word) :
    Follows [.tp] s (rasterWrite s agent i reg v) := by
  unfold rasterWrite
  repeat' first
    | decide
    | with_reducible exact Follows.refl ..
    | with_reducible apply Follows.after (updScene_follows ..)
    | with_reducible apply Follows.foldl
    | split
    | dsimp only
    | intro _

theorem latchScene_follows (s : State) (i : Nat) (n : Nat) :
    Follows [.tp] s (latchScene s i n) := by
  unfold latchScene
  repeat' first
    | decide
    | with_reducible exact Follows.refl ..
    | with_reducible apply Follows.after (updScene_follows ..)
    | with_reducible apply Follows.foldl
    | split
    | dsimp only
    | intro _

theorem readTable_follows (base : Nat) (l : Nat) (stop : Option Nat) (a1 : Nat) (a2 : State) (a3 : Nat) (a4 : Nat) :
    Follows [.basin, .staging, .intc, .fw] a2 (readTable base l stop a1 a2 a3 a4).1 := by
  fun_induction readTable base l stop a1 a2 a3 a4 <;> repeat' first
    | decide
    | with_reducible exact Follows.refl ..
    | with_reducible apply Follows.after (readReq_follows ..)
    | with_reducible refine Follows.trans ?_ (by assumption)
    | with_reducible apply Follows.foldl
    | with_reducible apply Follows.foldlFst
    | split
    | dsimp only
    | with_reducible refine Follows.fst (by assumption) ?_
    | intro _

theorem lineRegs_follows (s : State) (c : Scene) (p : Nat) (before : Tab Word) :
    Follows [.basin, .staging, .intc, .fw] s (lineRegs s c p before).1 := by
  unfold lineRegs
  repeat' first
    | decide
    | with_reducible exact Follows.refl ..
    | with_reducible apply Follows.after (readTable_follows ..)
    | with_reducible apply Follows.foldl
    | with_reducible apply Follows.foldlFst
    | split
    | dsimp only
    | with_reducible refine Follows.fst (by assumption) ?_
    | intro _

theorem regsBefore_follows (s : State) (c : Scene) (p : Nat) :
    Follows [.basin, .staging, .intc, .fw] s (regsBefore s c p).1 := by
  unfold regsBefore
  repeat' first
    | decide
    | with_reducible exact Follows.refl ..
    | with_reducible apply Follows.after (lineRegs_follows ..)
    | with_reducible apply Follows.foldl
    | with_reducible apply Follows.foldlFst
    | split
    | dsimp only
    | with_reducible refine Follows.fst (by assumption) ?_
    | intro _

theorem evqLevel_follows (s : State) (n : Nat) :
    Follows [.intc] s (evqLevel s n) := by
  unfold evqLevel
  repeat' first
    | decide
    | with_reducible exact Follows.refl ..
    | with_reducible apply Follows.after (drivePriv_follows ..)
    | with_reducible apply Follows.foldl
    | split
    | dsimp only
    | intro _

theorem evqPush_follows (s : State) (n : Nat) (t : Nat) (e : Word) :
    Follows [.intc, .tp] s (evqPush s n t e) := by
  unfold evqPush
  repeat' first
    | decide
    | with_reducible exact Follows.refl ..
    | with_reducible apply Follows.after (onTp_follows ..)
    | with_reducible apply Follows.after (evqLevel_follows ..)
    | with_reducible apply Follows.foldl
    | split
    | dsimp only
    | intro _

theorem sceneEvent_follows (s : State) (i : Nat) (c : Scene) (kind : Nat) (t : Nat) (n : Nat) (line : Nat) (comp : Nat) :
    Follows [.staging, .intc, .fw, .tp] s (sceneEvent s i c kind t n line comp) := by
  unfold sceneEvent
  repeat' first
    | decide
    | with_reducible exact Follows.refl ..
    | with_reducible apply Follows.after (stageBefore_follows ..)
    | with_reducible apply Follows.after (evqPush_follows ..)
    | with_reducible apply Follows.foldl
    | split
    | dsimp only
    | intro _

/-! ### Compose -/

theorem Comp.flag_follows (c : Comp) (i : Nat) :
    Follows [] c.s (Comp.flag c i).s := by
  unfold Comp.flag
  repeat' first
    | decide
    | with_reducible exact Follows.refl ..
    | with_reducible apply Follows.foldl
    | split
    | dsimp only
    | intro _

theorem Comp.read_follows (c : Comp) (a : Nat) (n : Nat) :
    Follows [.basin, .staging, .intc, .fw] c.s (Comp.read c a n).1.s := by
  unfold Comp.read
  repeat' first
    | decide
    | with_reducible exact Follows.refl ..
    | with_reducible apply Follows.after (readReq_follows ..)
    | with_reducible apply Follows.foldl
    | with_reducible apply Follows.foldlFst
    | split
    | dsimp only
    | with_reducible refine Follows.fst (by assumption) ?_
    | with_reducible refine Follows.fstC (by assumption) ?_
    | intro _

theorem tilePix_follows (c : Comp) (i : Nat) (n : Nat) (bank : Nat) (f : Nat) (tile : Nat) (x : Nat) (y : Nat) :
    Follows [.basin, .staging, .intc, .fw] c.s (tilePix c i n bank f tile x y).1.s := by
  unfold tilePix
  repeat' first
    | decide
    | with_reducible exact Follows.refl ..
    | with_reducible apply Follows.after (Comp.read_follows ..)
    | with_reducible apply Follows.foldl
    | with_reducible apply Follows.foldlFst
    | split
    | dsimp only
    | with_reducible refine Follows.fstC (by assumption) ?_
    | intro _

theorem colour_follows (c : Comp) (k : LineCtx) (plane : Nat) (palB : Bool) (idx : Nat) :
    Follows [.basin, .staging, .intc, .fw] c.s (colour c k plane palB idx).1.s := by
  unfold colour
  repeat' first
    | decide
    | with_reducible exact Follows.refl ..
    | with_reducible apply Follows.after (Comp.flag_follows ..)
    | with_reducible apply Follows.after (Comp.read_follows ..)
    | with_reducible apply Follows.foldl
    | with_reducible apply Follows.foldlFst
    | split
    | dsimp only
    | with_reducible refine Follows.fstC (by assumption) ?_
    | intro _

theorem mkCand_follows (c : Comp) (k : LineCtx) (plane : Nat) (pri : Nat) (blend : Nat) (palB : Bool) (idx : Nat) (sprite : Option (Nat × Bool)) :
    Follows [.basin, .staging, .intc, .fw] c.s (mkCand c k plane pri blend palB idx sprite).1.s := by
  unfold mkCand
  repeat' first
    | decide
    | with_reducible exact Follows.refl ..
    | with_reducible apply Follows.after (colour_follows ..)
    | with_reducible apply Follows.foldl
    | with_reducible apply Follows.foldlFst
    | split
    | dsimp only
    | with_reducible refine Follows.fstC (by assumption) ?_
    | intro _

theorem tileCand_follows (c : Comp) (k : LineCtx) (l : Nat) (x : Nat) :
    Follows [.basin, .staging, .intc, .fw] c.s (tileCand c k l x).1.s := by
  unfold tileCand
  repeat' first
    | decide
    | with_reducible exact Follows.refl ..
    | with_reducible apply Follows.after (Comp.flag_follows ..)
    | with_reducible apply Follows.after (Comp.read_follows ..)
    | with_reducible apply Follows.after (tilePix_follows ..)
    | with_reducible apply Follows.after (mkCand_follows ..)
    | with_reducible apply Follows.foldl
    | with_reducible apply Follows.foldlFst
    | split
    | dsimp only
    | with_reducible refine Follows.fstC (by assumption) ?_
    | intro _

theorem bitmapCand_follows (c : Comp) (k : LineCtx) (x : Nat) :
    Follows [.basin, .staging, .intc, .fw] c.s (bitmapCand c k x).1.s := by
  unfold bitmapCand
  repeat' first
    | decide
    | with_reducible exact Follows.refl ..
    | with_reducible apply Follows.after (Comp.flag_follows ..)
    | with_reducible apply Follows.after (Comp.read_follows ..)
    | with_reducible apply Follows.after (mkCand_follows ..)
    | with_reducible apply Follows.foldl
    | with_reducible apply Follows.foldlFst
    | split
    | dsimp only
    | with_reducible refine Follows.fstC (by assumption) ?_
    | intro _

theorem layerCand_follows (c : Comp) (k : LineCtx) (x : Nat) (l : Nat) :
    Follows [.basin, .staging, .intc, .fw] c.s (layerCand c k x l).1.s := by
  unfold layerCand
  repeat' first
    | decide
    | with_reducible exact Follows.refl ..
    | with_reducible apply Follows.after (tileCand_follows ..)
    | with_reducible apply Follows.after (bitmapCand_follows ..)
    | with_reducible apply Follows.foldl
    | with_reducible apply Follows.foldlFst
    | split
    | dsimp only
    | with_reducible refine Follows.fstC (by assumption) ?_
    | intro _

theorem readSprites_follows (base : Nat) (y : Nat) (width : Nat) (a1 : Nat) (a2 : Comp) (a3 : Nat) (a4 : Nat) :
    Follows [.basin, .staging, .intc, .fw] a2.s (readSprites base y width a1 a2 a3 a4).1.s := by
  fun_induction readSprites base y width a1 a2 a3 a4 <;> repeat' first
    | decide
    | with_reducible exact Follows.refl ..
    | with_reducible apply Follows.after (Comp.flag_follows ..)
    | with_reducible apply Follows.after (Comp.read_follows ..)
    | with_reducible refine Follows.trans ?_ (by assumption)
    | with_reducible apply Follows.foldl
    | with_reducible apply Follows.foldlFst
    | split
    | dsimp only
    | with_reducible refine Follows.fstC (by assumption) ?_
    | intro _

theorem lineSprites_follows (c : Comp) (k : LineCtx) :
    Follows [.basin, .staging, .intc, .fw] c.s (lineSprites c k).1.s := by
  unfold lineSprites
  repeat' first
    | decide
    | with_reducible exact Follows.refl ..
    | with_reducible apply Follows.after (Comp.flag_follows ..)
    | with_reducible apply Follows.after (readSprites_follows ..)
    | with_reducible apply Follows.foldl
    | with_reducible apply Follows.foldlFst
    | split
    | dsimp only
    | with_reducible refine Follows.fstC (by assumption) ?_
    | intro _

theorem spriteCand_follows (c : Comp) (k : LineCtx) (x : Nat) (p : Spr) :
    Follows [.basin, .staging, .intc, .fw] c.s (spriteCand c k x p).1.s := by
  unfold spriteCand
  repeat' first
    | decide
    | with_reducible exact Follows.refl ..
    | with_reducible apply Follows.after (Comp.flag_follows ..)
    | with_reducible apply Follows.after (tilePix_follows ..)
    | with_reducible apply Follows.after (mkCand_follows ..)
    | with_reducible apply Follows.foldl
    | with_reducible apply Follows.foldlFst
    | split
    | dsimp only
    | with_reducible refine Follows.fstC (by assumption) ?_
    | intro _

theorem gather_follows {l : List Part} {β : Type} (f : Comp → β → Comp × List Cand)
    (h : ∀ c x, Follows l c.s (f c x).1.s) (c : Comp) (a : List β) :
    Follows l c.s (gather f c a).1.s := by
  induction a generalizing c with
  | nil => exact Follows.refl ..
  | cons x r ih => exact (h c x).trans (ih _)

theorem linePixels_follows (k : LineCtx) (sp : List Spr) (a1 : Nat) (a2 : Comp) (a3 : Nat) (a4 : Coll) :
    Follows [.basin, .staging, .intc, .fw] a2.s (linePixels k sp a1 a2 a3 a4).1.s := by
  fun_induction linePixels k sp a1 a2 a3 a4 <;> repeat' first
    | decide
    | with_reducible exact Follows.refl ..
    | with_reducible refine Follows.trans ?_ (gather_follows _ (fun _ _ => ?_) _ _)
    | with_reducible apply Follows.after (layerCand_follows ..)
    | with_reducible apply Follows.after (spriteCand_follows ..)
    | with_reducible refine Follows.trans ?_ (by assumption)
    | with_reducible apply Follows.foldl
    | with_reducible apply Follows.foldlFst
    | split
    | dsimp only
    | with_reducible refine Follows.fstC (by assumption) ?_
    | intro _

theorem readLut_follows (s : State) (act : Tab Word) :
    Follows [.basin, .staging, .intc, .fw] s (readLut s act).1 := by
  unfold readLut
  repeat' first
    | decide
    | with_reducible exact Follows.refl ..
    | with_reducible apply Follows.after (readMem_follows ..)
    | with_reducible apply Follows.foldl
    | with_reducible apply Follows.foldlFst
    | split
    | dsimp only
    | with_reducible refine Follows.fst (by assumption) ?_
    | intro _

theorem renderLine_follows (s : State) (i : Nat) (c : Scene) (p : Nat) :
    Follows [.basin, .staging, .intc, .fw, .tp] s (renderLine s i c p).1 := by
  unfold renderLine
  repeat' first
    | decide
    | with_reducible exact Follows.refl ..
    | with_reducible apply Follows.after (updScene_follows ..)
    | with_reducible apply Follows.after (lineRegs_follows ..)
    | with_reducible apply Follows.after (regsBefore_follows ..)
    | with_reducible apply Follows.after (Comp.flag_follows ..)
    | with_reducible apply Follows.after (lineSprites_follows ..)
    | with_reducible apply Follows.after (linePixels_follows ..)
    | with_reducible apply Follows.after (readLut_follows ..)
    | with_reducible apply Follows.foldl
    | with_reducible apply Follows.foldlFst
    | split
    | dsimp only
    | with_reducible refine Follows.fst (by assumption) ?_
    | with_reducible refine Follows.fstC (by assumption) ?_
    | intro _

/-! ### Lane -/

theorem onTl_follows (s : State) (f : Towline → Towline) (h : (f s.tl).cyc = s.tl.cyc) :
    Follows [.tl] s (onTl s f) :=
  Follows.set_tl _ h (by decide) (Follows.refl _ s)

theorem onTl_follows_cyc (s : State) (f : Towline → Towline) : Follows [.tl, .cyc] s (onTl s f) :=
  Follows.set_cyc _ (by decide) (by decide) (Follows.refl _ s)

theorem updLane_follows (s : State) (l : Nat) (f : Lane → Lane) :
    Follows [.tl] s (updLane s l f) := by
  unfold updLane
  repeat' first
    | decide
    | with_reducible exact Follows.refl ..
    | with_reducible apply Follows.after (onTl_follows _ _ rfl)
    | with_reducible apply Follows.foldl
    | split
    | dsimp only
    | intro _

theorem driveTx_follows (s : State) (l : Nat) :
    Follows [.out, .tl] s (driveTx s l) := by
  unfold driveTx
  repeat' first
    | decide
    | with_reducible exact Follows.refl ..
    | with_reducible apply Follows.after (emit_follows ..)
    | with_reducible apply Follows.after (updLane_follows ..)
    | with_reducible apply Follows.foldl
    | split
    | dsimp only
    | intro _

theorem laneSettle_follows (s : State) (l : Nat) :
    Follows [.out, .staging, .intc, .fw, .tl] s (laneSettle s l) := by
  unfold laneSettle
  repeat' first
    | decide
    | with_reducible exact Follows.refl ..
    | with_reducible apply Follows.after (postRec_follows ..)
    | with_reducible apply Follows.after (updLane_follows ..)
    | with_reducible apply Follows.after (driveTx_follows ..)
    | with_reducible apply Follows.foldl
    | split
    | dsimp only
    | intro _

theorem laneChange_follows (s : State) (l : Nat) (f : Lane → Lane) :
    Follows [.out, .staging, .intc, .fw, .tl] s (laneChange s l f) := by
  unfold laneChange
  repeat' first
    | decide
    | with_reducible exact Follows.refl ..
    | with_reducible apply Follows.after (updLane_follows ..)
    | with_reducible apply Follows.after (laneSettle_follows ..)
    | with_reducible apply Follows.foldl
    | split
    | dsimp only
    | intro _

theorem laneLose_follows (s : State) (l : Nat) :
    Follows [.out, .staging, .intc, .fw, .tl] s (laneLose s l) := by
  unfold laneLose
  repeat' first
    | decide
    | with_reducible exact Follows.refl ..
    | with_reducible apply Follows.after (laneChange_follows ..)
    | with_reducible apply Follows.foldl
    | split
    | dsimp only
    | intro _

theorem execModuleInserted_follows (lane : Fin 8) (s : State) :
    Leads [.out, .staging, .intc, .fw, .tl] s (execModuleInserted lane s) := by
  unfold execModuleInserted
  repeat' first
    | decide
    | with_reducible exact Follows.refl ..
    | with_reducible apply Leads.next
    | with_reducible apply Follows.after (laneChange_follows ..)
    | with_reducible apply Follows.foldl
    | split
    | dsimp only
    | with_reducible exact Leads.refused _ _ _
    | intro _

theorem execModuleRead_follows (lane : Fin 8) (page : Option (List Byte)) (s : State) :
    Leads [.out, .staging, .intc, .fw, .tl] s (execModuleRead lane page s) := by
  unfold execModuleRead
  repeat' first
    | decide
    | with_reducible exact Follows.refl ..
    | with_reducible apply Leads.next
    | with_reducible apply Follows.after (laneChange_follows ..)
    | with_reducible apply Follows.foldl
    | split
    | dsimp only
    | with_reducible exact Leads.refused _ _ _
    | intro _

theorem execModuleRemoved_follows (lane : Fin 8) (s : State) :
    Leads [.out, .staging, .intc, .fw, .tl] s (execModuleRemoved lane s) := by
  unfold execModuleRemoved
  repeat' first
    | decide
    | with_reducible exact Follows.refl ..
    | with_reducible apply Leads.next
    | with_reducible apply Follows.after (laneChange_follows ..)
    | with_reducible apply Follows.foldl
    | split
    | dsimp only
    | with_reducible exact Leads.refused _ _ _
    | intro _

theorem execRxLosChange_follows (lane : Fin 8) (los : Bool) (s : State) :
    Leads [.out, .staging, .intc, .fw, .tl] s (execRxLosChange lane los s) := by
  unfold execRxLosChange
  repeat' first
    | decide
    | with_reducible exact Follows.refl ..
    | with_reducible apply Leads.next
    | with_reducible apply Follows.after (laneChange_follows ..)
    | with_reducible apply Follows.foldl
    | split
    | dsimp only
    | with_reducible exact Leads.refused _ _ _
    | intro _

theorem execTxFault_follows (lane : Fin 8) (s : State) :
    Leads [.out, .staging, .intc, .fw, .tl] s (execTxFault lane s) := by
  unfold execTxFault
  repeat' first
    | decide
    | with_reducible exact Follows.refl ..
    | with_reducible apply Leads.next
    | with_reducible apply Follows.after (laneChange_follows ..)
    | with_reducible apply Follows.foldl
    | split
    | dsimp only
    | with_reducible exact Leads.refused _ _ _
    | intro _

theorem execTxFaultPulse_follows (lane : Fin 8) (s : State) :
    Leads [.out] s (execTxFaultPulse lane s) := by
  unfold execTxFaultPulse
  repeat' first
    | decide
    | with_reducible exact Follows.refl ..
    | with_reducible apply Leads.next
    | with_reducible apply Follows.after (emit_follows ..)
    | with_reducible apply Follows.foldl
    | split
    | dsimp only
    | with_reducible exact Leads.refused _ _ _
    | intro _

theorem execTxFaultCleared_follows (lane : Fin 8) (s : State) :
    Leads [.out, .staging, .intc, .fw, .tl] s (execTxFaultCleared lane s) := by
  unfold execTxFaultCleared
  repeat' first
    | decide
    | with_reducible exact Follows.refl ..
    | with_reducible apply Leads.next
    | with_reducible apply Follows.after (laneChange_follows ..)
    | with_reducible apply Follows.foldl
    | split
    | dsimp only
    | with_reducible exact Leads.refused _ _ _
    | intro _

theorem execDdmPoll_follows (lane : Fin 8) (page : Option (List Byte)) (s : State) :
    Leads [.tl] s (execDdmPoll lane page s) := by
  unfold execDdmPoll
  repeat' first
    | decide
    | with_reducible exact Follows.refl ..
    | with_reducible apply Leads.next
    | with_reducible apply Follows.after (updLane_follows ..)
    | with_reducible apply Follows.foldl
    | split
    | dsimp only
    | with_reducible exact Leads.refused _ _ _
    | intro _

theorem execEqAdaptStep_follows (lane : Fin 8) (ctle : Int) (taps : List Int) (s : State) :
    Leads [.tl] s (execEqAdaptStep lane ctle taps s) := by
  unfold execEqAdaptStep
  repeat' first
    | decide
    | with_reducible exact Follows.refl ..
    | with_reducible apply Leads.next
    | with_reducible apply Follows.after (updLane_follows ..)
    | with_reducible apply Follows.foldl
    | split
    | dsimp only
    | with_reducible exact Leads.refused _ _ _
    | intro _

theorem execTxPostTrial_follows (lane : Fin 8) (s : State) :
    Leads [.tl] s (execTxPostTrial lane s) := by
  unfold execTxPostTrial
  repeat' first
    | decide
    | with_reducible exact Follows.refl ..
    | with_reducible apply Leads.next
    | with_reducible apply Follows.after (updLane_follows ..)
    | with_reducible apply Follows.foldl
    | split
    | dsimp only
    | with_reducible exact Leads.refused _ _ _
    | intro _

theorem execEyeMeasure_follows (lane : Fin 8) (eye : Byte) (s : State) :
    Leads [.staging, .intc, .fw, .tl] s (execEyeMeasure lane eye s) := by
  unfold execEyeMeasure
  repeat' first
    | decide
    | with_reducible exact Follows.refl ..
    | with_reducible apply Leads.next
    | with_reducible apply Follows.after (loopWarning_follows ..)
    | with_reducible apply Follows.after (updLane_follows ..)
    | with_reducible apply Follows.foldl
    | split
    | dsimp only
    | with_reducible exact Leads.refused _ _ _
    | intro _

theorem saveTaps_follows (s : State) (l : Nat) :
    Follows [.out, .basin, .staging, .intc, .pcie, .fw] s (saveTaps s l) := by
  unfold saveTaps
  repeat' first
    | decide
    | with_reducible exact Follows.refl ..
    | with_reducible apply Follows.after (writeReq_follows ..)
    | with_reducible apply Follows.foldl
    | with_reducible apply Follows.foldlFst
    | split
    | dsimp only
    | with_reducible refine Follows.fst (by assumption) ?_
    | intro _

theorem execTapSave_follows (s : State) :
    Leads [.out, .basin, .staging, .intc, .pcie, .fw] s (execTapSave s) := by
  unfold execTapSave
  repeat' first
    | decide
    | with_reducible exact Follows.refl ..
    | with_reducible apply Leads.next
    | with_reducible apply Follows.after (saveTaps_follows ..)
    | with_reducible apply Follows.foldl
    | split
    | dsimp only
    | with_reducible exact Leads.refused _ _ _
    | intro _

theorem loadTaps_follows (s : State) (l : Nat) :
    Follows [.basin, .staging, .intc, .fw, .tl] s (loadTaps s l) := by
  unfold loadTaps
  repeat' first
    | decide
    | with_reducible exact Follows.refl ..
    | with_reducible apply Follows.after (readReq_follows ..)
    | with_reducible apply Follows.after (updLane_follows ..)
    | with_reducible apply Follows.foldl
    | with_reducible apply Follows.foldlFst
    | split
    | dsimp only
    | with_reducible refine Follows.fst (by assumption) ?_
    | intro _

theorem execBlockLockGained_follows (lane : Fin 8) (s : State) :
    Leads [.out, .staging, .intc, .fw, .tl] s (execBlockLockGained lane s) := by
  unfold execBlockLockGained
  repeat' first
    | decide
    | with_reducible exact Follows.refl ..
    | with_reducible apply Leads.next
    | with_reducible apply Follows.after (laneChange_follows ..)
    | with_reducible apply Follows.foldl
    | split
    | dsimp only
    | with_reducible exact Leads.refused _ _ _
    | intro _

theorem execBlockLockLost_follows (lane : Fin 8) (s : State) :
    Leads [.out, .staging, .intc, .fw, .tl] s (execBlockLockLost lane s) := by
  unfold execBlockLockLost
  repeat' first
    | decide
    | with_reducible exact Follows.refl ..
    | with_reducible apply Leads.next
    | with_reducible apply Follows.after (laneChange_follows ..)
    | with_reducible apply Follows.foldl
    | split
    | dsimp only
    | with_reducible exact Leads.refused _ _ _
    | intro _

theorem execHiBerWindow_follows (lane : Fin 8) (invalid : Nat) (s : State) :
    Leads [.out, .staging, .intc, .fw, .tl] s (execHiBerWindow lane invalid s) := by
  unfold execHiBerWindow
  repeat' first
    | decide
    | with_reducible exact Follows.refl ..
    | with_reducible apply Leads.next
    | with_reducible apply Follows.after (laneChange_follows ..)
    | with_reducible apply Follows.foldl
    | split
    | dsimp only
    | with_reducible exact Leads.refused _ _ _
    | intro _

theorem countDrop_follows (s : State) (l : Nat) (d : Drop) :
    Follows [.tl] s (countDrop s l d) := by
  unfold countDrop
  repeat' first
    | decide
    | with_reducible exact Follows.refl ..
    | with_reducible apply Follows.after (updLane_follows ..)
    | with_reducible apply Follows.foldl
    | split
    | dsimp only
    | intro _

theorem countBlocks_follows (s : State) (l : Nat) (f : RxFrame) :
    Follows [.tl] s (countBlocks s l f) := by
  unfold countBlocks
  repeat' first
    | decide
    | with_reducible exact Follows.refl ..
    | with_reducible apply Follows.after (updLane_follows ..)
    | with_reducible apply Follows.foldl
    | split
    | dsimp only
    | intro _

theorem rxAccept_follows (s : State) (l : Nat) (f : RxFrame) :
    Follows [.tl] s (rxAccept s l f).1 := by
  unfold rxAccept
  repeat' first
    | decide
    | with_reducible exact Follows.refl ..
    | with_reducible apply Follows.after (updLane_follows ..)
    | with_reducible apply Follows.after (countDrop_follows ..)
    | with_reducible apply Follows.after (countBlocks_follows ..)
    | with_reducible apply Follows.foldl
    | with_reducible apply Follows.foldlFst
    | split
    | dsimp only
    | with_reducible refine Follows.fst (by assumption) ?_
    | intro _

theorem execRxFrameDrop_follows (lane : Fin 8) (f : RxFrame) (s : State) :
    Leads [.tl] s (execRxFrameDrop lane f s) := by
  unfold execRxFrameDrop
  repeat' first
    | decide
    | with_reducible exact Follows.refl ..
    | with_reducible apply Leads.next
    | with_reducible apply Follows.after (rxAccept_follows ..)
    | with_reducible apply Follows.foldl
    | with_reducible apply Follows.foldlFst
    | split
    | dsimp only
    | with_reducible refine Follows.fst (by assumption) ?_
    | with_reducible exact Leads.refused _ _ _
    | intro _

theorem onFrame_follows {l : List Part} {s t : State} (lane : Nat) (f : RxFrame) (type : Nat)
    (k : State → State) (hl : ∀ x ∈ [.tl], x ∈ l) (h : ∀ u, Follows l u (k u)) (g : Follows l s t) :
    Follows l s (onFrame t lane f type k) := by
  have a := g.trans ((rxAccept_follows t lane f).mono hl)
  unfold onFrame
  split
  · exact g
  · split <;> rename_i e <;> have a := Follows.fst e a
    · exact a
    · exact a.trans (h _)

theorem setDev_follows (s : State) (l : Nat) (d : Int) :
    Follows [.fresh, .tl] s (setDev s l d) := by
  unfold setDev
  repeat' first
    | decide
    | with_reducible exact Follows.refl ..
    | with_reducible apply Follows.after (drawFree_follows ..)
    | with_reducible apply Follows.after (updLane_follows ..)
    | with_reducible apply Follows.foldl
    | with_reducible apply Follows.foldlFst
    | split
    | dsimp only
    | with_reducible refine Follows.fst (by assumption) ?_
    | intro _

theorem alignHit_follows (s : State) (l : Nat) (cyc : Word) :
    Follows [.fresh, .out, .staging, .intc, .fw, .tl] s (alignHit s l cyc) := by
  unfold alignHit
  repeat' first
    | decide
    | with_reducible exact Follows.refl ..
    | with_reducible apply Follows.after (updLane_follows ..)
    | with_reducible apply Follows.after (laneChange_follows ..)
    | with_reducible apply Follows.after (setDev_follows ..)
    | with_reducible apply Follows.foldl
    | split
    | dsimp only
    | intro _

theorem alignCheck_follows (s : State) (l : Nat) (cyc : Word) :
    Follows [.fresh, .out, .staging, .intc, .fw, .tl] s (alignCheck s l cyc) := by
  unfold alignCheck
  repeat' first
    | decide
    | with_reducible exact Follows.refl ..
    | with_reducible apply Follows.after (updLane_follows ..)
    | with_reducible apply Follows.after (laneLose_follows ..)
    | with_reducible apply Follows.after (setDev_follows ..)
    | with_reducible apply Follows.foldl
    | split
    | dsimp only
    | intro _

theorem cycleHeard_follows (s : State) (l : Nat) (f : RxFrame) :
    Follows [.fresh, .out, .staging, .intc, .fw, .tl] s (cycleHeard s l f) := by
  unfold cycleHeard
  repeat' first
    | decide
    | with_reducible exact Follows.refl ..
    | with_reducible apply Follows.after (updLane_follows ..)
    | with_reducible apply Follows.after (alignHit_follows ..)
    | with_reducible apply Follows.after (alignCheck_follows ..)
    | with_reducible apply Follows.foldl
    | split
    | dsimp only
    | intro _

theorem execUpstreamCycle_follows (lane : Fin 8) (bytes : List Byte) (errBlocks : Nat) (ended : Bool) (s : State) :
    Leads [.fresh, .out, .staging, .intc, .fw, .tl] s (execUpstreamCycle lane bytes errBlocks ended s) := by
  unfold execUpstreamCycle
  repeat' first
    | decide
    | with_reducible exact Follows.refl ..
    | with_reducible apply Leads.next
    | with_reducible apply onFrame_follows
    | with_reducible apply Follows.after (cycleHeard_follows ..)
    | with_reducible apply Follows.foldl
    | split
    | dsimp only
    | with_reducible exact Leads.refused _ _ _
    | intro _

theorem execAlignmentLoss_follows (lane : Fin 8) (s : State) :
    Leads [.out, .staging, .intc, .fw, .tl] s (execAlignmentLoss lane s) := by
  unfold execAlignmentLoss
  repeat' first
    | decide
    | with_reducible exact Follows.refl ..
    | with_reducible apply Leads.next
    | with_reducible apply Follows.after (laneLose_follows ..)
    | with_reducible apply Follows.foldl
    | split
    | dsimp only
    | with_reducible exact Leads.refused _ _ _
    | intro _

/-! ### Push -/

theorem updRecv_follows (s : State) (r : Nat) (f : Recv → Recv) :
    Follows [.tp] s (updRecv s r f) := by
  unfold updRecv
  repeat' first
    | decide
    | with_reducible exact Follows.refl ..
    | with_reducible apply Follows.after (onTp_follows ..)
    | with_reducible apply Follows.foldl
    | split
    | dsimp only
    | intro _

theorem oweAll_follows (s : State) (r : Nat) :
    Follows [.tp] s (oweAll s r) := by
  unfold oweAll
  repeat' first
    | decide
    | with_reducible exact Follows.refl ..
    | with_reducible apply Follows.after (updRecv_follows ..)
    | with_reducible apply Follows.foldl
    | split
    | dsimp only
    | intro _

theorem owePiece_follows (s : State) (r : Nat) (p : Piece) :
    Follows [.tp] s (owePiece s r p) := by
  unfold owePiece
  repeat' first
    | decide
    | with_reducible exact Follows.refl ..
    | with_reducible apply Follows.after (updRecv_follows ..)
    | with_reducible apply Follows.foldl
    | split
    | dsimp only
    | intro _

theorem freeRows_follows (s : State) (i : Nat) (n : Nat) :
    Follows [.tp] s (freeRows s i n) := by
  unfold freeRows
  repeat' first
    | decide
    | with_reducible exact Follows.refl ..
    | with_reducible apply Follows.after (updScene_follows ..)
    | with_reducible apply Follows.foldl
    | split
    | dsimp only
    | intro _

theorem freeAll_follows (s : State) :
    Follows [.tp] s (freeAll s) := by
  unfold freeAll
  repeat' first
    | decide
    | with_reducible exact Follows.refl ..
    | with_reducible apply Follows.after (freeRows_follows ..)
    | with_reducible apply Follows.foldl
    | split
    | dsimp only
    | intro _

theorem writeSig_follows (s : State) (c : Scene) (col : Nat) (row : Nat) (g : Word) (bad : Bool) :
    Follows [.out, .basin, .staging, .intc, .pcie, .fw] s (writeSig s c col row g bad).1 := by
  unfold writeSig
  repeat' first
    | decide
    | with_reducible exact Follows.refl ..
    | with_reducible apply Follows.after (writeReq_follows ..)
    | with_reducible apply Follows.foldl
    | with_reducible apply Follows.foldlFst
    | split
    | dsimp only
    | with_reducible refine Follows.fst (by assumption) ?_
    | intro _

theorem signOne_follows (s : State) (i : Nat) (row : Nat) (lines : List (List Word)) (col : Nat) :
    Follows [.out, .basin, .staging, .intc, .pcie, .fw, .tp] s (signOne s i row lines col) := by
  unfold signOne
  repeat' first
    | decide
    | with_reducible exact Follows.refl ..
    | with_reducible apply Follows.after (readReq_follows ..)
    | with_reducible apply Follows.after (updScene_follows ..)
    | with_reducible apply Follows.after (writeSig_follows ..)
    | with_reducible apply Follows.foldl
    | with_reducible apply Follows.foldlFst
    | split
    | dsimp only
    | with_reducible refine Follows.fst (by assumption) ?_
    | intro _

theorem oweBits_follows (s : State) (r : Nat) (m : BitVec 3072) :
    Follows [.tp] s (oweBits s r m) := by
  unfold oweBits
  repeat' first
    | decide
    | with_reducible exact Follows.refl ..
    | with_reducible apply Follows.after (updRecv_follows ..)
    | with_reducible apply Follows.foldl
    | split
    | dsimp only
    | intro _

theorem closeRow_follows (s : State) (i : Nat) (n : Nat) (row : Nat) :
    Follows [.out, .basin, .staging, .intc, .pcie, .fw, .tp] s (closeRow s i n row) := by
  unfold closeRow
  repeat' first
    | decide
    | with_reducible exact Follows.refl ..
    | with_reducible apply Follows.after (writeMem_follows ..)
    | with_reducible apply Follows.after (onTp_follows ..)
    | with_reducible apply Follows.after (updScene_follows ..)
    | with_reducible apply Follows.after (signOne_follows ..)
    | with_reducible apply Follows.after (oweBits_follows ..)
    | with_reducible apply Follows.foldl
    | with_reducible apply Follows.foldlFst
    | split
    | dsimp only
    | with_reducible refine Follows.fst (by assumption) ?_
    | intro _

theorem cancelUnsent_follows (s : State) (r : Nat) (owe : Bool) :
    Follows [.tp] s (cancelUnsent s r owe) := by
  unfold cancelUnsent
  repeat' first
    | decide
    | with_reducible exact Follows.refl ..
    | with_reducible apply Follows.after (updRecv_follows ..)
    | with_reducible apply Follows.after (owePiece_follows ..)
    | with_reducible apply Follows.foldl
    | split
    | dsimp only
    | intro _

theorem givePieces_follows (s : State) (i : Nat) (n : Nat) (r : Nat) (rowOk : Nat → Bool) (list : List Rect) :
    Follows [.tp] s (givePieces s i n r rowOk list) := by
  unfold givePieces
  repeat' first
    | decide
    | with_reducible exact Follows.refl ..
    | with_reducible apply Follows.after (onTp_follows ..)
    | with_reducible apply Follows.after (updRecv_follows ..)
    | with_reducible apply Follows.after (oweBits_follows ..)
    | with_reducible apply Follows.foldl
    | split
    | dsimp only
    | intro _

theorem formList_follows (s : State) (i : Nat) (n : Nat) :
    Follows [.tp] s (formList s i n) := by
  unfold formList
  repeat' first
    | decide
    | with_reducible exact Follows.refl ..
    | with_reducible apply Follows.after (updScene_follows ..)
    | with_reducible apply Follows.after (freeRows_follows ..)
    | with_reducible apply Follows.after (oweBits_follows ..)
    | with_reducible apply Follows.after (cancelUnsent_follows ..)
    | with_reducible apply Follows.after (givePieces_follows ..)
    | with_reducible apply Follows.foldl
    | split
    | dsimp only
    | intro _

theorem pieceLines_follows (i : Nat) (p : Piece) (a1 : Nat) (a2 : State) (a3 : Nat) :
    Follows [.basin, .staging, .intc, .fw] a2 (pieceLines i p a1 a2 a3).1 := by
  fun_induction pieceLines i p a1 a2 a3 <;> repeat' first
    | decide
    | with_reducible exact Follows.refl ..
    | with_reducible apply Follows.after (readMem_follows ..)
    | with_reducible refine Follows.trans ?_ (by assumption)
    | with_reducible apply Follows.foldl
    | with_reducible apply Follows.foldlFst
    | split
    | dsimp only
    | with_reducible refine Follows.fst (by assumption) ?_
    | intro _

theorem dropPiece_follows (s : State) (r : Nat) (p : Piece) :
    Follows [.tp] s (dropPiece s r p) := by
  unfold dropPiece
  repeat' first
    | decide
    | with_reducible exact Follows.refl ..
    | with_reducible apply Follows.after (updScene_follows ..)
    | with_reducible apply Follows.after (updRecv_follows ..)
    | with_reducible apply Follows.after (owePiece_follows ..)
    | with_reducible apply Follows.after (freeAll_follows ..)
    | with_reducible apply Follows.foldl
    | split
    | dsimp only
    | intro _

theorem losePiece_follows (s : State) (r : Nat) (p : Piece) :
    Follows [.tp] s (losePiece s r p) := by
  unfold losePiece
  repeat' first
    | decide
    | with_reducible exact Follows.refl ..
    | with_reducible apply Follows.after (updRecv_follows ..)
    | with_reducible apply Follows.after (owePiece_follows ..)
    | with_reducible apply Follows.foldl
    | split
    | dsimp only
    | intro _

theorem execPieceAckTimeout_follows (station : Fin 2048) (s : State) :
    Leads [.tp] s (execPieceAckTimeout station s) := by
  unfold execPieceAckTimeout
  repeat' first
    | decide
    | with_reducible exact Follows.refl ..
    | with_reducible apply Leads.next
    | with_reducible apply Follows.after (losePiece_follows ..)
    | with_reducible apply Follows.foldl
    | split
    | dsimp only
    | with_reducible exact Leads.refused _ _ _
    | intro _

theorem tpReach_follows {l : List Part} {s t : State} (agent o : Nat) (f : State → State)
    (hl : ∀ x ∈ [.fresh, .out, .sys], x ∈ l) (h : ∀ u, Follows l u (f u)) (g : Follows l s t) :
    Follows l s (tpReach t agent o f) :=
  reach_follows _ _ _ _ _ f hl h g

theorem execTpStRefresh_follows (agent : Agent) (station : Fin 2048) (s : State) :
    Leads [.fresh, .out, .sys, .tp] s (execTpStRefresh agent station s) := by
  unfold execTpStRefresh
  repeat' first
    | decide
    | with_reducible exact Follows.refl ..
    | with_reducible apply Leads.next
    | with_reducible apply tpReach_follows
    | with_reducible apply Follows.after (oweAll_follows ..)
    | with_reducible apply Follows.foldl
    | split
    | dsimp only
    | with_reducible exact Leads.refused _ _ _
    | intro _

theorem execTpPnlRefresh_follows (agent : Agent) (s : State) :
    Leads [.fresh, .out, .sys, .tp] s (execTpPnlRefresh agent s) := by
  unfold execTpPnlRefresh
  repeat' first
    | decide
    | with_reducible exact Follows.refl ..
    | with_reducible apply Leads.next
    | with_reducible apply tpReach_follows
    | with_reducible apply Follows.after (oweAll_follows ..)
    | with_reducible apply Follows.foldl
    | split
    | dsimp only
    | with_reducible exact Leads.refused _ _ _
    | intro _

/-! ### Station -/

theorem setStation_follows (s : State) (i : Nat) (t : Station) :
    Follows [.tl] s (setStation s i t) := by
  unfold setStation
  repeat' first
    | decide
    | with_reducible exact Follows.refl ..
    | with_reducible apply Follows.after (onTl_follows _ _ rfl)
    | with_reducible apply Follows.foldl
    | split
    | dsimp only
    | intro _

theorem updStation_follows (s : State) (i : Nat) (f : Station → Station) :
    Follows [.tl] s (updStation s i f) := by
  unfold updStation
  repeat' first
    | decide
    | with_reducible exact Follows.refl ..
    | with_reducible apply Follows.after (setStation_follows ..)
    | with_reducible apply Follows.foldl
    | split
    | dsimp only
    | intro _

theorem writeOutStatus_follows (s : State) (i : Nat) :
    Follows [.out, .basin, .staging, .intc, .pcie, .fw] s (writeOutStatus s i) := by
  unfold writeOutStatus
  repeat' first
    | decide
    | with_reducible exact Follows.refl ..
    | with_reducible apply Follows.after (writeReq_follows ..)
    | with_reducible apply Follows.foldl
    | with_reducible apply Follows.foldlFst
    | split
    | dsimp only
    | with_reducible refine Follows.fst (by assumption) ?_
    | intro _

theorem dropAudio_follows (s : State) (i : Nat) :
    Follows [.tl] s (dropAudio s i) := by
  unfold dropAudio
  repeat' first
    | decide
    | with_reducible exact Follows.refl ..
    | with_reducible apply Follows.after (updLane_follows ..)
    | with_reducible apply Follows.foldl
    | split
    | dsimp only
    | intro _

theorem setCode_follows (s : State) (i : Nat) (code : Nat) :
    Follows [.out, .basin, .staging, .intc, .pcie, .fw, .tp, .tl] s (setCode s i code) := by
  unfold setCode
  repeat' first
    | decide
    | with_reducible exact Follows.refl ..
    | with_reducible apply Follows.after (postCycleRec_follows ..)
    | with_reducible apply Follows.after (freeAll_follows ..)
    | with_reducible apply Follows.after (cancelUnsent_follows ..)
    | with_reducible apply Follows.after (updStation_follows ..)
    | with_reducible apply Follows.after (writeOutStatus_follows ..)
    | with_reducible apply Follows.after (dropAudio_follows ..)
    | with_reducible apply Follows.foldl
    | split
    | dsimp only
    | intro _

theorem dropFrames_follows (s : State) (l : Nat) (addr : Nat) :
    Follows [.tl] s (dropFrames s l addr) := by
  unfold dropFrames
  repeat' first
    | decide
    | with_reducible exact Follows.refl ..
    | with_reducible apply Follows.after (updLane_follows ..)
    | with_reducible apply Follows.foldl
    | split
    | dsimp only
    | intro _

theorem enterConfig_follows (s : State) (i : Nat) :
    Follows [.out, .basin, .staging, .intc, .pcie, .fw, .tp, .tl] s (enterConfig s i) := by
  unfold enterConfig
  repeat' first
    | decide
    | with_reducible exact Follows.refl ..
    | with_reducible apply Follows.after (freeAll_follows ..)
    | with_reducible apply Follows.after (cancelUnsent_follows ..)
    | with_reducible apply Follows.after (updStation_follows ..)
    | with_reducible apply Follows.after (setCode_follows ..)
    | with_reducible apply Follows.after (dropFrames_follows ..)
    | with_reducible apply Follows.foldl
    | split
    | dsimp only
    | intro _

theorem newSession_follows (s : State) (l : Nat) :
    Follows [.out, .basin, .staging, .intc, .pcie, .fw, .tp, .tl] s (newSession s l) := by
  unfold newSession
  repeat' first
    | decide
    | with_reducible exact Follows.refl ..
    | with_reducible apply Follows.after (updLane_follows ..)
    | with_reducible apply Follows.after (updStation_follows ..)
    | with_reducible apply Follows.after (enterConfig_follows ..)
    | with_reducible apply Follows.foldl
    | split
    | dsimp only
    | intro _

theorem adaptThr_follows (s : State) (i : Nat) (up : Bool) :
    Follows [.staging, .intc, .fw, .tl] s (adaptThr s i up) := by
  unfold adaptThr
  repeat' first
    | decide
    | with_reducible exact Follows.refl ..
    | with_reducible apply Follows.after (loopWarning_follows ..)
    | with_reducible apply Follows.after (setStation_follows ..)
    | with_reducible apply Follows.foldl
    | split
    | dsimp only
    | intro _

theorem execDropoutThresholdLower_follows (station : Fin 2048) (s : State) :
    Leads [.staging, .intc, .fw, .tl] s (execDropoutThresholdLower station s) := by
  unfold execDropoutThresholdLower
  repeat' first
    | decide
    | with_reducible exact Follows.refl ..
    | with_reducible apply Leads.next
    | with_reducible apply Follows.after (updStation_follows ..)
    | with_reducible apply Follows.after (adaptThr_follows ..)
    | with_reducible apply Follows.foldl
    | split
    | dsimp only
    | with_reducible exact Leads.refused _ _ _
    | intro _

theorem ackSeq_follows (s : State) (i : Nat) (q : BitVec 16) :
    Follows [.out, .basin, .staging, .intc, .pcie, .fw, .tl] s (ackSeq s i q) := by
  unfold ackSeq
  repeat' first
    | decide
    | with_reducible exact Follows.refl ..
    | with_reducible apply Follows.after (updStation_follows ..)
    | with_reducible apply Follows.after (writeOutStatus_follows ..)
    | with_reducible apply Follows.foldl
    | split
    | dsimp only
    | intro _

theorem inFrame_follows (s : State) (l : Nat) (i : Nat) (cyc : Word) (payload : List Byte) :
    Follows [.out, .basin, .staging, .intc, .pcie, .fw, .tp, .tl] s (inFrame s l i cyc payload) := by
  unfold inFrame
  repeat' first
    | decide
    | with_reducible exact Follows.refl ..
    | with_reducible apply Follows.after (writeReq_follows ..)
    | with_reducible apply Follows.after (setStation_follows ..)
    | with_reducible apply Follows.after (enterConfig_follows ..)
    | with_reducible apply Follows.after (ackSeq_follows ..)
    | with_reducible apply Follows.foldl
    | with_reducible apply Follows.foldlFst
    | split
    | dsimp only
    | with_reducible refine Follows.fst (by assumption) ?_
    | intro _

theorem onStationFrame_follows {l : List Part} {s t : State} (lane : Nat) (f : RxFrame) (type : Nat)
    (k : State → Nat → State) (hl : ∀ x ∈ [.tl], x ∈ l) (h : ∀ u i, Follows l u (k u i))
    (g : Follows l s t) : Follows l s (onStationFrame t lane f type k) := by
  refine onFrame_follows lane f type _ hl (fun u => ?_) g
  split
  · exact Follows.refl ..
  · exact h u _

theorem execInFrame_follows (lane : Fin 8) (bytes : List Byte) (fin : RxEnd) (s : State) :
    Leads [.out, .basin, .staging, .intc, .pcie, .fw, .tp, .tl] s (execInFrame lane bytes fin s) := by
  unfold execInFrame
  repeat' first
    | decide
    | with_reducible exact Follows.refl ..
    | with_reducible apply Leads.next
    | with_reducible apply onStationFrame_follows
    | with_reducible apply Follows.after (inFrame_follows ..)
    | with_reducible apply Follows.foldl
    | split
    | dsimp only
    | with_reducible exact Leads.refused _ _ _
    | intro _

theorem ackPiece_follows (s : State) (i : Nat) (e : Nat × Nat × Nat) :
    Follows [.tp] s (ackPiece s i e) := by
  unfold ackPiece
  repeat' first
    | decide
    | with_reducible exact Follows.refl ..
    | with_reducible apply Follows.after (updRecv_follows ..)
    | with_reducible apply Follows.foldl
    | split
    | dsimp only
    | intro _

theorem ackFrame_follows (s : State) (i : Nat) (payload : List Byte) :
    Follows [.out, .basin, .staging, .intc, .pcie, .fw, .tp, .tl] s (ackFrame s i payload) := by
  unfold ackFrame
  repeat' first
    | decide
    | with_reducible exact Follows.refl ..
    | with_reducible apply Follows.after (updStation_follows ..)
    | with_reducible apply Follows.after (ackSeq_follows ..)
    | with_reducible apply Follows.after (ackPiece_follows ..)
    | with_reducible apply Follows.foldl
    | split
    | dsimp only
    | intro _

theorem execAckFrame_follows (lane : Fin 8) (bytes : List Byte) (fin : RxEnd) (s : State) :
    Leads [.out, .basin, .staging, .intc, .pcie, .fw, .tp, .tl] s (execAckFrame lane bytes fin s) := by
  unfold execAckFrame
  repeat' first
    | decide
    | with_reducible exact Follows.refl ..
    | with_reducible apply Leads.next
    | with_reducible apply onStationFrame_follows
    | with_reducible apply Follows.after (ackFrame_follows ..)
    | with_reducible apply Follows.foldl
    | split
    | dsimp only
    | with_reducible exact Leads.refused _ _ _
    | intro _

theorem execDiagFrame_follows (lane : Fin 8) (bytes : List Byte) (fin : RxEnd) (s : State) :
    Leads [.tl] s (execDiagFrame lane bytes fin s) := by
  unfold execDiagFrame
  repeat' first
    | decide
    | with_reducible exact Follows.refl ..
    | with_reducible apply Leads.next
    | with_reducible apply onStationFrame_follows
    | with_reducible apply Follows.after (updStation_follows ..)
    | with_reducible apply Follows.foldl
    | split
    | dsimp only
    | with_reducible exact Leads.refused _ _ _
    | intro _

theorem writeInput_follows (s : State) (i : Nat) (n : Word) (fresh : Bool) (reason : Nat) (len : Nat) (seq : Nat) (img : List Byte) :
    Follows [.out, .basin, .staging, .intc, .pcie, .fw] s (writeInput s i n fresh reason len seq img) := by
  unfold writeInput
  repeat' first
    | decide
    | with_reducible exact Follows.refl ..
    | with_reducible apply Follows.after (writeReq_follows ..)
    | with_reducible apply Follows.foldl
    | with_reducible apply Follows.foldlFst
    | split
    | dsimp only
    | with_reducible refine Follows.fst (by assumption) ?_
    | intro _

theorem freshInput_follows (s : State) (i : Nat) (n : Word) :
    Follows [.out, .basin, .staging, .intc, .pcie, .fw, .tp, .tl] s (freshInput s i n) := by
  unfold freshInput
  repeat' first
    | decide
    | with_reducible exact Follows.refl ..
    | with_reducible apply Follows.after (oweAll_follows ..)
    | with_reducible apply Follows.after (setStation_follows ..)
    | with_reducible apply Follows.after (setCode_follows ..)
    | with_reducible apply Follows.after (adaptThr_follows ..)
    | with_reducible apply Follows.foldl
    | split
    | dsimp only
    | intro _

theorem missInput_follows (s : State) (i : Nat) :
    Follows [.out, .basin, .staging, .intc, .pcie, .fw, .tp, .tl] s (missInput s i) := by
  unfold missInput
  repeat' first
    | decide
    | with_reducible exact Follows.refl ..
    | with_reducible apply Follows.after (setStation_follows ..)
    | with_reducible apply Follows.after (setCode_follows ..)
    | with_reducible apply Follows.foldl
    | split
    | dsimp only
    | intro _

theorem finalise_follows (s : State) (n : Word) (i : Nat) :
    Follows [.out, .basin, .staging, .intc, .pcie, .fw, .tp, .tl] s (finalise s n i) := by
  unfold finalise
  repeat' first
    | decide
    | with_reducible exact Follows.refl ..
    | with_reducible apply Follows.after (setStation_follows ..)
    | with_reducible apply Follows.after (writeInput_follows ..)
    | with_reducible apply Follows.after (freshInput_follows ..)
    | with_reducible apply Follows.after (missInput_follows ..)
    | with_reducible apply Follows.foldl
    | split
    | dsimp only
    | intro _

theorem execInputCut_follows (s : State) :
    Leads [.tick, .out, .basin, .staging, .intc, .pcie, .fw, .tp, .tl, .cyc] s (execInputCut s) := by
  unfold execInputCut
  repeat' first
    | decide
    | with_reducible exact Follows.refl ..
    | with_reducible apply Leads.next
    | with_reducible apply Follows.after (raisePriv_follows ..)
    | with_reducible apply Follows.after (atTick_follows ..)
    | with_reducible apply Follows.after (onTl_follows _ _ rfl)
    | with_reducible apply Follows.after (finalise_follows ..)
    | with_reducible apply Follows.after (onTl_follows_cyc ..)
    | with_reducible apply Follows.foldl
    | split
    | dsimp only
    | with_reducible exact Leads.refused _ _ _
    | intro _

theorem readOut_follows (s : State) (i : Nat) (len : Nat) :
    Follows [.basin, .staging, .intc, .fw] s (readOut s i len).1 := by
  unfold readOut
  repeat' first
    | decide
    | with_reducible exact Follows.refl ..
    | with_reducible apply Follows.after (readReq_follows ..)
    | with_reducible apply Follows.foldl
    | with_reducible apply Follows.foldlFst
    | split
    | dsimp only
    | with_reducible refine Follows.fst (by assumption) ?_
    | intro _

theorem queueFrame_follows (s : State) (t : Station) (type : Nat) (payload : List Byte) :
    Follows [.tl] s (queueFrame s t type payload) := by
  unfold queueFrame
  repeat' first
    | decide
    | with_reducible exact Follows.refl ..
    | with_reducible apply Follows.after (updLane_follows ..)
    | with_reducible apply Follows.foldl
    | split
    | dsimp only
    | intro _

theorem formOutput_follows (s : State) (m : Word) (i : Nat) :
    Follows [.out, .basin, .staging, .intc, .pcie, .fw, .tl] s (formOutput s m i) := by
  unfold formOutput
  repeat' first
    | decide
    | with_reducible exact Follows.refl ..
    | with_reducible apply Follows.after (updLane_follows ..)
    | with_reducible apply Follows.after (updStation_follows ..)
    | with_reducible apply Follows.after (writeOutStatus_follows ..)
    | with_reducible apply Follows.after (readOut_follows ..)
    | with_reducible apply Follows.after (queueFrame_follows ..)
    | with_reducible apply Follows.foldl
    | with_reducible apply Follows.foldlFst
    | split
    | dsimp only
    | with_reducible refine Follows.fst (by assumption) ?_
    | intro _

theorem abandonWrites_follows (s : State) :
    Follows [.out, .basin, .staging, .intc, .pcie, .fw, .tl] s (abandonWrites s) := by
  unfold abandonWrites
  repeat' first
    | decide
    | with_reducible exact Follows.refl ..
    | with_reducible apply Follows.after (updLane_follows ..)
    | with_reducible apply Follows.after (updStation_follows ..)
    | with_reducible apply Follows.after (writeOutStatus_follows ..)
    | with_reducible apply Follows.foldl
    | split
    | dsimp only
    | intro _

theorem queueConfigs_follows (s : State) (l : Nat) :
    Follows [.tl] s (queueConfigs s l) := by
  unfold queueConfigs
  repeat' first
    | decide
    | with_reducible exact Follows.refl ..
    | with_reducible apply Follows.after (queueFrame_follows ..)
    | with_reducible apply Follows.foldl
    | split
    | dsimp only
    | intro _

theorem queueAudioOf_follows (s : State) (i : Nat) :
    Follows [.tl] s (queueAudioOf s i) := by
  unfold queueAudioOf
  repeat' first
    | decide
    | with_reducible exact Follows.refl ..
    | with_reducible apply Follows.after (dropAudio_follows ..)
    | with_reducible apply Follows.after (queueFrame_follows ..)
    | with_reducible apply Follows.foldl
    | split
    | dsimp only
    | intro _

theorem queueAudio_follows (s : State) (l : Nat) :
    Follows [.tl] s (queueAudio s l) := by
  unfold queueAudio
  repeat' first
    | decide
    | with_reducible exact Follows.refl ..
    | with_reducible apply Follows.after (queueAudioOf_follows ..)
    | with_reducible apply Follows.foldl
    | split
    | dsimp only
    | intro _

theorem audioCarried_follows (s : State) (i : Nat) :
    Follows [.cv] s (audioCarried s i) := by
  unfold audioCarried
  repeat' first
    | decide
    | with_reducible exact Follows.refl ..
    | with_reducible apply Follows.foldl
    | split
    | dsimp only
    | with_reducible apply Follows.set_cv
    | intro _

theorem sendFrame_follows (s : State) (f : Frame) :
    Follows [.out, .tl] s (sendFrame s f) := by
  unfold sendFrame
  repeat' first
    | decide
    | with_reducible exact Follows.refl ..
    | with_reducible apply Follows.after (emit_follows ..)
    | with_reducible apply Follows.after (updLane_follows ..)
    | with_reducible apply Follows.foldl
    | split
    | dsimp only
    | intro _

theorem sendQueued_follows (s : State) (l : Nat) (f : Frame) :
    Follows [.out, .basin, .staging, .intc, .pcie, .fw, .tl, .cv] s (sendQueued s l f) := by
  unfold sendQueued
  repeat' first
    | decide
    | with_reducible exact Follows.refl ..
    | with_reducible apply Follows.after (updLane_follows ..)
    | with_reducible apply Follows.after (updStation_follows ..)
    | with_reducible apply Follows.after (writeOutStatus_follows ..)
    | with_reducible apply Follows.after (dropFrames_follows ..)
    | with_reducible apply Follows.after (audioCarried_follows ..)
    | with_reducible apply Follows.after (sendFrame_follows ..)
    | with_reducible apply Follows.foldl
    | split
    | dsimp only
    | intro _

theorem sendPiece_follows (s : State) (l : Nat) (i : Nat) (p : Piece) :
    Follows [.out, .basin, .staging, .intc, .fw, .tp, .tl] s (sendPiece s l i p) := by
  unfold sendPiece
  repeat' first
    | decide
    | with_reducible exact Follows.refl ..
    | with_reducible apply Follows.after (updRecv_follows ..)
    | with_reducible apply Follows.after (freeAll_follows ..)
    | with_reducible apply Follows.after (pieceLines_follows ..)
    | with_reducible apply Follows.after (dropPiece_follows ..)
    | with_reducible apply Follows.after (sendFrame_follows ..)
    | with_reducible apply Follows.foldl
    | with_reducible apply Follows.foldlFst
    | split
    | dsimp only
    | with_reducible refine Follows.fst (by assumption) ?_
    | intro _

theorem execFrameTransmit_follows (lane : Fin 8) (s : State) :
    Leads [.out, .basin, .staging, .intc, .pcie, .fw, .tp, .tl, .cv] s (execFrameTransmit lane s) := by
  unfold execFrameTransmit
  repeat' first
    | decide
    | with_reducible exact Follows.refl ..
    | with_reducible apply Leads.next
    | with_reducible apply Follows.after (sendQueued_follows ..)
    | with_reducible apply Follows.after (sendPiece_follows ..)
    | with_reducible apply Follows.foldl
    | split
    | dsimp only
    | with_reducible exact Leads.refused _ _ _
    | intro _

end Sys2Proof.Machine
end

