-- ==== Sys2Proof/Laws/FollowsPi.lean ====
section
/-! SUPPORT. What each operation may change (`Follows`): the pins, the serial channels, the panel, the scenes and the blitter. -/

set_option linter.unusedTactic false
set_option linter.unreachableTactic false
set_option linter.unusedVariables false

open Sys2Proof

namespace Sys2Proof.Machine

/-! ### Gpio -/

theorem gpChange_follows (s : State) (f : Gpio → Gpio) :
    Follows [.gp] s (gpChange s f) := by
  unfold gpChange
  repeat' first
    | decide
    | with_reducible exact Follows.refl ..
    | with_reducible apply Follows.foldl
    | split
    | dsimp only
    | with_reducible apply Follows.set_gp
    | intro _

theorem gpIn_follows (s : State) (bank : Nat) :
    Follows [.fresh] s (gpIn s bank).1 := by
  unfold gpIn
  repeat' first
    | decide
    | with_reducible exact Follows.refl ..
    | with_reducible apply Follows.after (drawFree_follows ..)
    | with_reducible apply Follows.foldl
    | with_reducible apply Follows.foldlFst
    | split
    | dsimp only
    | with_reducible refine Follows.fst (by assumption) ?_
    | intro _

theorem gpWrite_follows (s : State) (agent : Nat) (dir : Bool) (mask : BitVec 64) (val : BitVec 64) :
    Follows [.gp] s (gpWrite s agent dir mask val) := by
  unfold gpWrite
  repeat' first
    | decide
    | with_reducible exact Follows.refl ..
    | with_reducible apply Follows.after (gpChange_follows ..)
    | with_reducible apply Follows.foldl
    | split
    | dsimp only
    | intro _

theorem gpReach_follows {l : List Part} {s t : State} (agent o : Nat) (f : State → State)
    (hl : ∀ x ∈ [.fresh, .out, .sys], x ∈ l) (h : ∀ u, Follows l u (f u)) (g : Follows l s t) :
    Follows l s (gpReach t agent o f) :=
  reach_follows _ _ _ _ _ f hl h g

theorem execGpOut_follows (agent : Agent) (bank : Fin 2) (value : Word) (s : State) :
    Leads [.fresh, .out, .sys, .gp] s (execGpOut agent bank value s) := by
  unfold execGpOut
  repeat' first
    | decide
    | with_reducible exact Follows.refl ..
    | with_reducible apply Leads.next
    | with_reducible apply gpReach_follows
    | with_reducible apply Follows.after (gpWrite_follows ..)
    | with_reducible apply Follows.foldl
    | split
    | dsimp only
    | with_reducible exact Leads.refused _ _ _
    | intro _

theorem execGpOutSet_follows (agent : Agent) (bank : Fin 2) (value : Word) (s : State) :
    Leads [.fresh, .out, .sys, .gp] s (execGpOutSet agent bank value s) := by
  unfold execGpOutSet
  repeat' first
    | decide
    | with_reducible exact Follows.refl ..
    | with_reducible apply Leads.next
    | with_reducible apply gpReach_follows
    | with_reducible apply Follows.after (gpWrite_follows ..)
    | with_reducible apply Follows.foldl
    | split
    | dsimp only
    | with_reducible exact Leads.refused _ _ _
    | intro _

theorem execGpOutClr_follows (agent : Agent) (bank : Fin 2) (value : Word) (s : State) :
    Leads [.fresh, .out, .sys, .gp] s (execGpOutClr agent bank value s) := by
  unfold execGpOutClr
  repeat' first
    | decide
    | with_reducible exact Follows.refl ..
    | with_reducible apply Leads.next
    | with_reducible apply gpReach_follows
    | with_reducible apply Follows.after (gpWrite_follows ..)
    | with_reducible apply Follows.foldl
    | split
    | dsimp only
    | with_reducible exact Leads.refused _ _ _
    | intro _

theorem execGpOutTgl_follows (agent : Agent) (bank : Fin 2) (value : Word) (s : State) :
    Leads [.fresh, .out, .sys, .gp] s (execGpOutTgl agent bank value s) := by
  unfold execGpOutTgl
  repeat' first
    | decide
    | with_reducible exact Follows.refl ..
    | with_reducible apply Leads.next
    | with_reducible apply gpReach_follows
    | with_reducible apply Follows.after (gpWrite_follows ..)
    | with_reducible apply Follows.foldl
    | split
    | dsimp only
    | with_reducible exact Leads.refused _ _ _
    | intro _

theorem execGpOutMwl_follows (agent : Agent) (bank : Fin 2) (value : Word) (s : State) :
    Leads [.fresh, .out, .sys, .gp] s (execGpOutMwl agent bank value s) := by
  unfold execGpOutMwl
  repeat' first
    | decide
    | with_reducible exact Follows.refl ..
    | with_reducible apply Leads.next
    | with_reducible apply gpReach_follows
    | with_reducible apply Follows.after (gpWrite_follows ..)
    | with_reducible apply Follows.foldl
    | split
    | dsimp only
    | with_reducible exact Leads.refused _ _ _
    | intro _

theorem execGpOutMwh_follows (agent : Agent) (bank : Fin 2) (value : Word) (s : State) :
    Leads [.fresh, .out, .sys, .gp] s (execGpOutMwh agent bank value s) := by
  unfold execGpOutMwh
  repeat' first
    | decide
    | with_reducible exact Follows.refl ..
    | with_reducible apply Leads.next
    | with_reducible apply gpReach_follows
    | with_reducible apply Follows.after (gpWrite_follows ..)
    | with_reducible apply Follows.foldl
    | split
    | dsimp only
    | with_reducible exact Leads.refused _ _ _
    | intro _

theorem execGpDir_follows (agent : Agent) (bank : Fin 2) (value : Word) (s : State) :
    Leads [.fresh, .out, .sys, .gp] s (execGpDir agent bank value s) := by
  unfold execGpDir
  repeat' first
    | decide
    | with_reducible exact Follows.refl ..
    | with_reducible apply Leads.next
    | with_reducible apply gpReach_follows
    | with_reducible apply Follows.after (gpWrite_follows ..)
    | with_reducible apply Follows.foldl
    | split
    | dsimp only
    | with_reducible exact Leads.refused _ _ _
    | intro _

theorem execGpDirMwl_follows (agent : Agent) (bank : Fin 2) (value : Word) (s : State) :
    Leads [.fresh, .out, .sys, .gp] s (execGpDirMwl agent bank value s) := by
  unfold execGpDirMwl
  repeat' first
    | decide
    | with_reducible exact Follows.refl ..
    | with_reducible apply Leads.next
    | with_reducible apply gpReach_follows
    | with_reducible apply Follows.after (gpWrite_follows ..)
    | with_reducible apply Follows.foldl
    | split
    | dsimp only
    | with_reducible exact Leads.refused _ _ _
    | intro _

theorem execGpDirMwh_follows (agent : Agent) (bank : Fin 2) (value : Word) (s : State) :
    Leads [.fresh, .out, .sys, .gp] s (execGpDirMwh agent bank value s) := by
  unfold execGpDirMwh
  repeat' first
    | decide
    | with_reducible exact Follows.refl ..
    | with_reducible apply Leads.next
    | with_reducible apply gpReach_follows
    | with_reducible apply Follows.after (gpWrite_follows ..)
    | with_reducible apply Follows.foldl
    | split
    | dsimp only
    | with_reducible exact Leads.refused _ _ _
    | intro _

theorem pinWrite_follows (s : State) (agent : Nat) (n : Nat) (v : Word) :
    Follows [.intc, .gp] s (pinWrite s agent n v) := by
  unfold pinWrite
  repeat' first
    | decide
    | with_reducible exact Follows.refl ..
    | with_reducible apply Follows.after (driveShared_follows ..)
    | with_reducible apply Follows.after (gpChange_follows ..)
    | with_reducible apply Follows.foldl
    | split
    | dsimp only
    | with_reducible apply Follows.set_gp
    | intro _

theorem execGpioPadChange_follows (pin : Fin 64) (level : Bool) (s : State) :
    Leads [.gp] s (execGpioPadChange pin level s) := by
  unfold execGpioPadChange
  repeat' first
    | decide
    | with_reducible exact Follows.refl ..
    | with_reducible apply Leads.next
    | with_reducible apply Follows.after (gpChange_follows ..)
    | with_reducible apply Follows.foldl
    | split
    | dsimp only
    | with_reducible exact Leads.refused _ _ _
    | intro _

theorem execGpioFilteredChange_follows (pin : Fin 64) (s : State) :
    Leads [.intc, .gp] s (execGpioFilteredChange pin s) := by
  unfold execGpioFilteredChange
  repeat' first
    | decide
    | with_reducible exact Follows.refl ..
    | with_reducible apply Leads.next
    | with_reducible apply Follows.after (raiseShared_follows ..)
    | with_reducible apply Follows.after (driveShared_follows ..)
    | with_reducible apply Follows.foldl
    | split
    | dsimp only
    | with_reducible apply Follows.set_gp
    | with_reducible exact Leads.refused _ _ _
    | intro _

/-! ### Serial -/

theorem piReach_follows {l : List Part} {s t : State} (agent o : Nat) (store : Bool)
    (f : State → State) (hl : ∀ x ∈ [.fresh, .out, .sys], x ∈ l) (h : ∀ u, Follows l u (f u)) (g : Follows l s t) :
    Follows l s (piReach t agent o store f) :=
  reach_follows _ _ _ _ _ f hl h g

theorem onPi_follows (s : State) (f : Serial → Serial) :
    Follows [.pi] s (onPi s f) := by
  unfold onPi
  repeat' first
    | decide
    | with_reducible exact Follows.refl ..
    | with_reducible apply Follows.foldl
    | split
    | dsimp only
    | with_reducible apply Follows.set_pi
    | intro _

theorem updSq_follows (s : State) (ch : Nat) (f : Sq → Sq) :
    Follows [.pi] s (updSq s ch f) := by
  unfold updSq
  repeat' first
    | decide
    | with_reducible exact Follows.refl ..
    | with_reducible apply Follows.after (onPi_follows ..)
    | with_reducible apply Follows.foldl
    | split
    | dsimp only
    | intro _

theorem sqTo_follows (s : State) (ch : Nat) (seg : Nat) (n : Nat) :
    Follows [.out, .pi] s (sqTo s ch seg n) := by
  unfold sqTo
  repeat' first
    | decide
    | with_reducible exact Follows.refl ..
    | with_reducible apply Follows.after (emits_follows ..)
    | with_reducible apply Follows.after (updSq_follows ..)
    | with_reducible apply Follows.foldl
    | split
    | dsimp only
    | intro _

theorem sqAdvance_follows (s : State) (ch : Nat) :
    Follows [.out, .pi] s (sqAdvance s ch) := by
  unfold sqAdvance
  repeat' first
    | decide
    | with_reducible exact Follows.refl ..
    | with_reducible apply Follows.after (sqTo_follows ..)
    | with_reducible apply Follows.foldl
    | split
    | dsimp only
    | intro _

theorem sqEnd_follows (s : State) (ch : Nat) (result : Nat) (seg : Nat) (phase : Nat) (bits : Nat) :
    Follows [.intc, .pi] s (sqEnd s ch result seg phase bits) := by
  unfold sqEnd
  repeat' first
    | decide
    | with_reducible exact Follows.refl ..
    | with_reducible apply Follows.after (raiseShared_follows ..)
    | with_reducible apply Follows.after (updSq_follows ..)
    | with_reducible apply Follows.foldl
    | split
    | dsimp only
    | intro _

theorem sqStop_follows (s : State) (ch : Nat) (result : Nat) :
    Follows [.out, .intc, .pi] s (sqStop s ch result) := by
  unfold sqStop
  repeat' first
    | decide
    | with_reducible exact Follows.refl ..
    | with_reducible apply Follows.after (emit_follows ..)
    | with_reducible apply Follows.after (sqEnd_follows ..)
    | with_reducible apply Follows.foldl
    | split
    | dsimp only
    | intro _

theorem sqGo_follows (s : State) (ch : Nat) (miso : List Byte) :
    Follows [.intc, .pi] s (sqGo s ch miso) := by
  unfold sqGo
  repeat' first
    | decide
    | with_reducible exact Follows.refl ..
    | with_reducible apply Follows.after (updSq_follows ..)
    | with_reducible apply Follows.after (sqEnd_follows ..)
    | with_reducible apply Follows.foldl
    | split
    | dsimp only
    | intro _

theorem execSqGo_follows (agent : Agent) (ch : Fin 2) (miso : List Byte) (s : State) :
    Leads [.fresh, .out, .sys, .intc, .pi] s (execSqGo agent ch miso s) := by
  unfold execSqGo
  repeat' first
    | decide
    | with_reducible exact Follows.refl ..
    | with_reducible apply Leads.next
    | with_reducible apply piReach_follows
    | with_reducible apply Follows.after (sqGo_follows ..)
    | with_reducible apply Follows.foldl
    | split
    | dsimp only
    | with_reducible exact Leads.refused _ _ _
    | intro _

theorem sqTx_follows (s : State) (ch : Nat) (v : Word) :
    Follows [.out, .pi] s (sqTx s ch v) := by
  unfold sqTx
  repeat' first
    | decide
    | with_reducible exact Follows.refl ..
    | with_reducible apply Follows.after (updSq_follows ..)
    | with_reducible apply Follows.after (sqAdvance_follows ..)
    | with_reducible apply Follows.foldl
    | split
    | dsimp only
    | intro _

theorem sqRx_follows (s : State) (ch : Nat) :
    Follows [.out, .pi] s (sqRx s ch).1 := by
  unfold sqRx
  repeat' first
    | decide
    | with_reducible exact Follows.refl ..
    | with_reducible apply Follows.after (updSq_follows ..)
    | with_reducible apply Follows.after (sqAdvance_follows ..)
    | with_reducible apply Follows.foldl
    | with_reducible apply Follows.foldlFst
    | split
    | dsimp only
    | with_reducible refine Follows.fst (by assumption) ?_
    | intro _

theorem execSqTxdata_follows (agent : Agent) (ch : Fin 2) (value : Word) (s : State) :
    Leads [.fresh, .out, .sys, .pi] s (execSqTxdata agent ch value s) := by
  unfold execSqTxdata
  repeat' first
    | decide
    | with_reducible exact Follows.refl ..
    | with_reducible apply Leads.next
    | with_reducible apply piReach_follows
    | with_reducible apply Follows.after (sqTx_follows ..)
    | with_reducible apply Follows.foldl
    | split
    | dsimp only
    | with_reducible exact Leads.refused _ _ _
    | intro _

theorem execSqRxdata_follows (agent : Agent) (ch : Fin 2) (s : State) :
    Leads [.fresh, .out, .sys, .pi] s (execSqRxdata agent ch s) := by
  unfold execSqRxdata
  repeat' first
    | decide
    | with_reducible exact Follows.refl ..
    | with_reducible apply Leads.next
    | with_reducible apply piReach_follows
    | with_reducible apply Follows.after (emit_follows ..)
    | with_reducible apply Follows.after (sqRx_follows ..)
    | with_reducible apply Follows.foldl
    | with_reducible apply Follows.foldlFst
    | split
    | dsimp only
    | with_reducible refine Follows.fst (by assumption) ?_
    | with_reducible exact Leads.refused _ _ _
    | intro _

theorem earlyRelease_follows (s : State) (ch : Nat) (seg : Nat) (phase : Nat) (bits : Nat) :
    Follows [.out, .intc, .pi] s (earlyRelease s ch seg phase bits) := by
  unfold earlyRelease
  repeat' first
    | decide
    | with_reducible exact Follows.refl ..
    | with_reducible apply Follows.after (emit_follows ..)
    | with_reducible apply Follows.after (updSq_follows ..)
    | with_reducible apply Follows.after (sqTo_follows ..)
    | with_reducible apply Follows.after (sqEnd_follows ..)
    | with_reducible apply Follows.foldl
    | split
    | dsimp only
    | intro _

theorem execEarlyRelease_follows (ch : Fin 2) (seg : Fin 4) (phase : Fin 4) (bits : Nat) (s : State) :
    Leads [.out, .intc, .pi] s (execEarlyRelease ch seg phase bits s) := by
  unfold execEarlyRelease
  repeat' first
    | decide
    | with_reducible exact Follows.refl ..
    | with_reducible apply Leads.next
    | with_reducible apply Follows.after (earlyRelease_follows ..)
    | with_reducible apply Follows.foldl
    | split
    | dsimp only
    | with_reducible exact Leads.refused _ _ _
    | intro _

theorem updI2c_follows (s : State) (f : I2c → I2c) :
    Follows [.pi] s (updI2c s f) := by
  unfold updI2c
  repeat' first
    | decide
    | with_reducible exact Follows.refl ..
    | with_reducible apply Follows.after (onPi_follows ..)
    | with_reducible apply Follows.foldl
    | split
    | dsimp only
    | intro _

theorem i2cEnd_follows (s : State) (result : Nat) :
    Follows [.intc, .pi] s (i2cEnd s result) := by
  unfold i2cEnd
  repeat' first
    | decide
    | with_reducible exact Follows.refl ..
    | with_reducible apply Follows.after (raiseShared_follows ..)
    | with_reducible apply Follows.after (updI2c_follows ..)
    | with_reducible apply Follows.foldl
    | split
    | dsimp only
    | intro _

theorem i2cGo_follows (s : State) (value : Word) (sdaLow : Bool) (stuck : Bool) :
    Follows [.out, .intc, .pi] s (i2cGo s value sdaLow stuck) := by
  unfold i2cGo
  repeat' first
    | decide
    | with_reducible exact Follows.refl ..
    | with_reducible apply Follows.after (emit_follows ..)
    | with_reducible apply Follows.after (updI2c_follows ..)
    | with_reducible apply Follows.after (i2cEnd_follows ..)
    | with_reducible apply Follows.foldl
    | split
    | dsimp only
    | intro _

theorem execI2cGo_follows (agent : Agent) (value : Word) (sdaLow : Bool) (stuck : Bool) (s : State) :
    Leads [.fresh, .out, .sys, .intc, .pi] s (execI2cGo agent value sdaLow stuck s) := by
  unfold execI2cGo
  repeat' first
    | decide
    | with_reducible exact Follows.refl ..
    | with_reducible apply Leads.next
    | with_reducible apply piReach_follows
    | with_reducible apply Follows.after (i2cGo_follows ..)
    | with_reducible apply Follows.foldl
    | split
    | dsimp only
    | with_reducible exact Leads.refused _ _ _
    | intro _

theorem execI2cDone_follows (nack : Bool) (bytes : List Byte) (s : State) :
    Leads [.intc, .pi] s (execI2cDone nack bytes s) := by
  unfold execI2cDone
  repeat' first
    | decide
    | with_reducible exact Follows.refl ..
    | with_reducible apply Leads.next
    | with_reducible apply Follows.after (updI2c_follows ..)
    | with_reducible apply Follows.after (i2cEnd_follows ..)
    | with_reducible apply Follows.foldl
    | split
    | dsimp only
    | with_reducible exact Leads.refused _ _ _
    | intro _

theorem execI2cStretchTimeout_follows (s : State) :
    Leads [.intc, .pi] s (execI2cStretchTimeout s) := by
  unfold execI2cStretchTimeout
  repeat' first
    | decide
    | with_reducible exact Follows.refl ..
    | with_reducible apply Leads.next
    | with_reducible apply Follows.after (i2cEnd_follows ..)
    | with_reducible apply Follows.foldl
    | split
    | dsimp only
    | with_reducible exact Leads.refused _ _ _
    | intro _

theorem updAvs_follows (s : State) (n : Nat) (f : Avs → Avs) :
    Follows [.pi] s (updAvs s n f) := by
  unfold updAvs
  repeat' first
    | decide
    | with_reducible exact Follows.refl ..
    | with_reducible apply Follows.after (onPi_follows ..)
    | with_reducible apply Follows.foldl
    | split
    | dsimp only
    | intro _

theorem updRail_follows (s : State) (n : Nat) (f : Rail → Rail) :
    Follows [.rails] s (updRail s n f) := by
  unfold updRail
  repeat' first
    | decide
    | with_reducible exact Follows.refl ..
    | with_reducible apply Follows.foldl
    | split
    | dsimp only
    | with_reducible apply Follows.set_rails
    | intro _

theorem avsEnd_follows (s : State) (n : Nat) (result : Nat) :
    Follows [.intc, .pi] s (avsEnd s n result) := by
  unfold avsEnd
  repeat' first
    | decide
    | with_reducible exact Follows.refl ..
    | with_reducible apply Follows.after (raiseShared_follows ..)
    | with_reducible apply Follows.after (updAvs_follows ..)
    | with_reducible apply Follows.foldl
    | split
    | dsimp only
    | intro _

theorem avsCmd_follows (s : State) (n : Nat) (op : Nat) (mv : Nat) :
    Follows [.out, .intc, .pi] s (avsCmd s n op mv) := by
  unfold avsCmd
  repeat' first
    | decide
    | with_reducible exact Follows.refl ..
    | with_reducible apply Follows.after (emit_follows ..)
    | with_reducible apply Follows.after (updAvs_follows ..)
    | with_reducible apply Follows.after (avsEnd_follows ..)
    | with_reducible apply Follows.foldl
    | split
    | dsimp only
    | intro _

theorem execVoltageWrite_follows (agent : Agent) (rail : Fin 2) (mv : BitVec 16) (s : State) :
    Leads [.fresh, .out, .sys, .intc, .pi] s (execVoltageWrite agent rail mv s) := by
  unfold execVoltageWrite
  repeat' first
    | decide
    | with_reducible exact Follows.refl ..
    | with_reducible apply Leads.next
    | with_reducible apply piReach_follows
    | with_reducible apply Follows.after (avsCmd_follows ..)
    | with_reducible apply Follows.foldl
    | split
    | dsimp only
    | with_reducible exact Leads.refused _ _ _
    | intro _

theorem execVoltageRead_follows (agent : Agent) (rail : Fin 2) (s : State) :
    Leads [.fresh, .out, .sys, .intc, .pi] s (execVoltageRead agent rail s) := by
  unfold execVoltageRead
  repeat' first
    | decide
    | with_reducible exact Follows.refl ..
    | with_reducible apply Leads.next
    | with_reducible apply piReach_follows
    | with_reducible apply Follows.after (avsCmd_follows ..)
    | with_reducible apply Follows.foldl
    | split
    | dsimp only
    | with_reducible exact Leads.refused _ _ _
    | intro _

theorem execStatusRead_follows (agent : Agent) (rail : Fin 2) (s : State) :
    Leads [.fresh, .out, .sys, .intc, .pi] s (execStatusRead agent rail s) := by
  unfold execStatusRead
  repeat' first
    | decide
    | with_reducible exact Follows.refl ..
    | with_reducible apply Leads.next
    | with_reducible apply piReach_follows
    | with_reducible apply Follows.after (avsCmd_follows ..)
    | with_reducible apply Follows.foldl
    | split
    | dsimp only
    | with_reducible exact Leads.refused _ _ _
    | intro _

theorem avsFail_follows (s : State) (n : Nat) :
    Follows [.rails, .staging, .intc, .fw, .pi] s (avsFail s n) := by
  unfold avsFail
  repeat' first
    | decide
    | with_reducible exact Follows.refl ..
    | with_reducible apply Follows.after (loopWarning_follows ..)
    | with_reducible apply Follows.after (updAvs_follows ..)
    | with_reducible apply Follows.after (updRail_follows ..)
    | with_reducible apply Follows.after (avsEnd_follows ..)
    | with_reducible apply Follows.foldl
    | split
    | dsimp only
    | intro _

theorem avsOk_follows (s : State) (n : Nat) (op : Nat) (mv : Nat) (data : BitVec 16) :
    Follows [.rails, .intc, .pi] s (avsOk s n op mv data) := by
  unfold avsOk
  repeat' first
    | decide
    | with_reducible exact Follows.refl ..
    | with_reducible apply Follows.after (updAvs_follows ..)
    | with_reducible apply Follows.after (updRail_follows ..)
    | with_reducible apply Follows.after (avsEnd_follows ..)
    | with_reducible apply Follows.foldl
    | split
    | dsimp only
    | intro _

theorem execAvsDone_follows (rail : Fin 2) (crcOk : Bool) (ack : BitVec 2) (data : BitVec 16) (s : State) :
    Leads [.rails, .staging, .intc, .fw, .pi] s (execAvsDone rail crcOk ack data s) := by
  unfold execAvsDone
  repeat' first
    | decide
    | with_reducible exact Follows.refl ..
    | with_reducible apply Leads.next
    | with_reducible apply Follows.after (updAvs_follows ..)
    | with_reducible apply Follows.after (avsFail_follows ..)
    | with_reducible apply Follows.after (avsOk_follows ..)
    | with_reducible apply Follows.foldl
    | split
    | dsimp only
    | with_reducible exact Leads.refused _ _ _
    | intro _

/-! ### Panel -/

theorem onPanel_follows (s : State) (f : Panel → Panel) :
    Follows [.tp] s (onPanel s f) := by
  unfold onPanel
  repeat' first
    | decide
    | with_reducible exact Follows.refl ..
    | with_reducible apply Follows.after (onTp_follows ..)
    | with_reducible apply Follows.foldl
    | split
    | dsimp only
    | intro _

theorem panelSend_follows (s : State) (l : List (Byte × List Byte)) :
    Follows [.out, .pi, .tp] s (panelSend s l) := by
  unfold panelSend
  repeat' first
    | decide
    | with_reducible exact Follows.refl ..
    | with_reducible apply Follows.after (emit_follows ..)
    | with_reducible apply Follows.after (updSq_follows ..)
    | with_reducible apply Follows.after (onPanel_follows ..)
    | with_reducible apply Follows.foldl
    | split
    | dsimp only
    | intro _

theorem panelKickFuel_follows (a1 : Nat) (a2 : State) :
    Follows [.out, .basin, .staging, .intc, .fw, .pi, .tp] a2 (panelKickFuel a1 a2) := by
  fun_induction panelKickFuel a1 a2 <;> repeat' first
    | decide
    | with_reducible exact Follows.refl ..
    | with_reducible apply Follows.after (updRecv_follows ..)
    | with_reducible apply Follows.after (freeAll_follows ..)
    | with_reducible apply Follows.after (pieceLines_follows ..)
    | with_reducible apply Follows.after (dropPiece_follows ..)
    | with_reducible apply Follows.after (onPanel_follows ..)
    | with_reducible apply Follows.after (panelSend_follows ..)
    | with_reducible refine Follows.trans ?_ (by assumption)
    | with_reducible apply Follows.foldl
    | with_reducible apply Follows.foldlFst
    | split
    | dsimp only
    | with_reducible refine Follows.fst (by assumption) ?_
    | intro _

theorem panelKick_follows (s : State) :
    Follows [.out, .basin, .staging, .intc, .fw, .pi, .tp] s (panelKick s) := by
  unfold panelKick
  repeat' first
    | decide
    | with_reducible exact Follows.refl ..
    | with_reducible apply Follows.after (panelKickFuel_follows ..)
    | with_reducible apply Follows.foldl
    | split
    | dsimp only
    | intro _

theorem panelStart_follows (s : State) :
    Follows [.out, .basin, .staging, .intc, .fw, .pi, .tp] s (panelStart s) := by
  unfold panelStart
  repeat' first
    | decide
    | with_reducible exact Follows.refl ..
    | with_reducible apply Follows.after (panelKick_follows ..)
    | with_reducible apply Follows.foldl
    | split
    | dsimp only
    | intro _

theorem panelDone_follows (s : State) :
    Follows [.out, .pi, .tp] s (panelDone s) := by
  unfold panelDone
  repeat' first
    | decide
    | with_reducible exact Follows.refl ..
    | with_reducible apply Follows.after (emits_follows ..)
    | with_reducible apply Follows.after (updRecv_follows ..)
    | with_reducible apply Follows.after (updSq_follows ..)
    | with_reducible apply Follows.after (onPanel_follows ..)
    | with_reducible apply Follows.foldl
    | split
    | dsimp only
    | intro _

theorem panelCut_follows (s : State) (abort : Bool) :
    Follows [.pi, .tp] s (panelCut s abort) := by
  unfold panelCut
  repeat' first
    | decide
    | with_reducible exact Follows.refl ..
    | with_reducible apply Follows.after (updRecv_follows ..)
    | with_reducible apply Follows.after (owePiece_follows ..)
    | with_reducible apply Follows.after (updSq_follows ..)
    | with_reducible apply Follows.after (onPanel_follows ..)
    | with_reducible apply Follows.foldl
    | split
    | dsimp only
    | intro _

theorem execSqFrameEnd_follows (ch : Fin 2) (s : State) :
    Leads [.out, .basin, .staging, .intc, .fw, .pi, .tp] s (execSqFrameEnd ch s) := by
  unfold execSqFrameEnd
  repeat' first
    | decide
    | with_reducible exact Follows.refl ..
    | with_reducible apply Leads.next
    | with_reducible apply Follows.after (updSq_follows ..)
    | with_reducible apply Follows.after (sqAdvance_follows ..)
    | with_reducible apply Follows.after (sqEnd_follows ..)
    | with_reducible apply Follows.after (sqStop_follows ..)
    | with_reducible apply Follows.after (panelKick_follows ..)
    | with_reducible apply Follows.after (panelStart_follows ..)
    | with_reducible apply Follows.after (panelDone_follows ..)
    | with_reducible apply Follows.foldl
    | split
    | dsimp only
    | with_reducible exact Leads.refused _ _ _
    | intro _

theorem execSqStallTimeout_follows (ch : Fin 2) (s : State) :
    Leads [.out, .basin, .staging, .intc, .fw, .pi, .tp] s (execSqStallTimeout ch s) := by
  unfold execSqStallTimeout
  repeat' first
    | decide
    | with_reducible exact Follows.refl ..
    | with_reducible apply Leads.next
    | with_reducible apply Follows.after (updSq_follows ..)
    | with_reducible apply Follows.after (sqAdvance_follows ..)
    | with_reducible apply Follows.after (sqEnd_follows ..)
    | with_reducible apply Follows.after (sqStop_follows ..)
    | with_reducible apply Follows.after (panelKick_follows ..)
    | with_reducible apply Follows.after (panelCut_follows ..)
    | with_reducible apply Follows.foldl
    | split
    | dsimp only
    | with_reducible exact Leads.refused _ _ _
    | intro _

theorem execPanelInitWait_follows (s : State) :
    Leads [.out, .basin, .staging, .intc, .fw, .pi, .tp] s (execPanelInitWait s) := by
  unfold execPanelInitWait
  repeat' first
    | decide
    | with_reducible exact Follows.refl ..
    | with_reducible apply Leads.next
    | with_reducible apply Follows.after (onPanel_follows ..)
    | with_reducible apply Follows.after (panelKick_follows ..)
    | with_reducible apply Follows.foldl
    | split
    | dsimp only
    | with_reducible exact Leads.refused _ _ _
    | intro _

theorem execTeEdge_follows (s : State) :
    Leads [.out, .basin, .staging, .intc, .fw, .pi, .tp] s (execTeEdge s) := by
  unfold execTeEdge
  repeat' first
    | decide
    | with_reducible exact Follows.refl ..
    | with_reducible apply Leads.next
    | with_reducible apply Follows.after (onPanel_follows ..)
    | with_reducible apply Follows.after (panelKick_follows ..)
    | with_reducible apply Follows.foldl
    | split
    | dsimp only
    | with_reducible exact Leads.refused _ _ _
    | intro _

theorem execTeTimeout_follows (s : State) :
    Leads [.out, .basin, .staging, .intc, .fw, .pi, .tp] s (execTeTimeout s) := by
  unfold execTeTimeout
  repeat' first
    | decide
    | with_reducible exact Follows.refl ..
    | with_reducible apply Leads.next
    | with_reducible apply Follows.after (onPanel_follows ..)
    | with_reducible apply Follows.after (panelKick_follows ..)
    | with_reducible apply Follows.foldl
    | split
    | dsimp only
    | with_reducible exact Leads.refused _ _ _
    | intro _

/-! ### Scene -/

theorem sceneRegWrite_follows (s : State) (agent : Nat) (i : Nat) (reg : Nat) (v : Word) :
    Follows [.tp] s (sceneRegWrite s agent i reg v) := by
  unfold sceneRegWrite
  repeat' first
    | decide
    | with_reducible exact Follows.refl ..
    | with_reducible apply Follows.after (updScene_follows ..)
    | with_reducible apply Follows.after (rasterWrite_follows ..)
    | with_reducible apply Follows.foldl
    | split
    | dsimp only
    | intro _

theorem execRasterWrite_follows (agent : Agent) (scene : Fin 2048) (reg : Fin 256) (value : Word) (s : State) :
    Leads [.fresh, .out, .sys, .tp] s (execRasterWrite agent scene reg value s) := by
  unfold execRasterWrite
  repeat' first
    | decide
    | with_reducible exact Follows.refl ..
    | with_reducible apply Leads.next
    | with_reducible apply tpReach_follows
    | with_reducible apply Follows.after (sceneRegWrite_follows ..)
    | with_reducible apply Follows.foldl
    | split
    | dsimp only
    | with_reducible exact Leads.refused _ _ _
    | intro _

theorem execTpScRedraw_follows (agent : Agent) (scene : Fin 2048) (s : State) :
    Leads [.fresh, .out, .sys, .tp] s (execTpScRedraw agent scene s) := by
  unfold execTpScRedraw
  repeat' first
    | decide
    | with_reducible exact Follows.refl ..
    | with_reducible apply Leads.next
    | with_reducible apply tpReach_follows
    | with_reducible apply Follows.after (rasterWrite_follows ..)
    | with_reducible apply Follows.foldl
    | split
    | dsimp only
    | with_reducible exact Leads.refused _ _ _
    | intro _

theorem flipWrite_follows (s : State) (i : Nat) :
    Follows [.tp] s (flipWrite s i) := by
  unfold flipWrite
  repeat' first
    | decide
    | with_reducible exact Follows.refl ..
    | with_reducible apply Follows.after (updScene_follows ..)
    | with_reducible apply Follows.foldl
    | split
    | dsimp only
    | intro _

theorem execTpScFlip_follows (agent : Agent) (scene : Fin 2048) (s : State) :
    Leads [.fresh, .out, .sys, .tp] s (execTpScFlip agent scene s) := by
  unfold execTpScFlip
  repeat' first
    | decide
    | with_reducible exact Follows.refl ..
    | with_reducible apply Leads.next
    | with_reducible apply tpReach_follows
    | with_reducible apply Follows.after (flipWrite_follows ..)
    | with_reducible apply Follows.foldl
    | split
    | dsimp only
    | with_reducible exact Leads.refused _ _ _
    | intro _

theorem execLineRender_follows (pipe : Fin 8) (s : State) :
    Leads [.basin, .staging, .intc, .fw, .tp] s (execLineRender pipe s) := by
  unfold execLineRender
  repeat' first
    | decide
    | with_reducible exact Follows.refl ..
    | with_reducible apply Leads.next
    | with_reducible apply Follows.after (updScene_follows ..)
    | with_reducible apply Follows.after (renderLine_follows ..)
    | with_reducible apply Follows.foldl
    | with_reducible apply Follows.foldlFst
    | split
    | dsimp only
    | with_reducible refine Follows.fst (by assumption) ?_
    | with_reducible exact Leads.refused _ _ _
    | intro _

theorem applyLut_follows (s : State) (i : Nat) (n : Nat) (k : Nat) :
    Follows [.tp, .tl] s (applyLut s i n k) := by
  unfold applyLut
  repeat' first
    | decide
    | with_reducible exact Follows.refl ..
    | with_reducible apply Follows.after (oweAll_follows ..)
    | with_reducible apply Follows.after (setStation_follows ..)
    | with_reducible apply Follows.foldl
    | split
    | dsimp only
    | intro _

theorem rebindSceneDone_follows (s : State) (k : Nat) :
    Follows [.fw, .tl] s (rebindSceneDone s k) := by
  unfold rebindSceneDone
  repeat' first
    | decide
    | with_reducible exact Follows.refl ..
    | with_reducible apply Follows.after (onFw_follows ..)
    | with_reducible apply Follows.after (setStation_follows ..)
    | with_reducible apply Follows.foldl
    | split
    | dsimp only
    | intro _

theorem bindScene_follows (s : State) (k : Nat) (i : Nat) :
    Follows [.tp, .tl] s (bindScene s k i) := by
  unfold bindScene
  repeat' first
    | decide
    | with_reducible exact Follows.refl ..
    | with_reducible apply Follows.after (updScene_follows ..)
    | with_reducible apply Follows.after (updStation_follows ..)
    | with_reducible apply Follows.foldl
    | split
    | dsimp only
    | intro _

theorem applyScene_follows (s : State) (i : Nat) (n : Nat) (k : Nat) :
    Follows [.fw, .tp, .tl] s (applyScene s i n k) := by
  unfold applyScene
  repeat' first
    | decide
    | with_reducible exact Follows.refl ..
    | with_reducible apply Follows.after (oweAll_follows ..)
    | with_reducible apply Follows.after (freeAll_follows ..)
    | with_reducible apply Follows.after (cancelUnsent_follows ..)
    | with_reducible apply Follows.after (setStation_follows ..)
    | with_reducible apply Follows.after (rebindSceneDone_follows ..)
    | with_reducible apply Follows.foldl
    | split
    | dsimp only
    | intro _

theorem frameStart_follows (s : State) (i : Nat) (n : Nat) :
    Follows [.fw, .tp, .tl] s (frameStart s i n) := by
  unfold frameStart
  repeat' first
    | decide
    | with_reducible exact Follows.refl ..
    | with_reducible apply Follows.after (latchScene_follows ..)
    | with_reducible apply Follows.after (applyLut_follows ..)
    | with_reducible apply Follows.after (applyScene_follows ..)
    | with_reducible apply Follows.foldl
    | split
    | dsimp only
    | intro _

theorem execFrameStart_follows (scene : Fin 2048) (s : State) :
    Leads [.tick, .fw, .tp, .tl] s (execFrameStart scene s) := by
  unfold execFrameStart
  repeat' first
    | decide
    | with_reducible exact Follows.refl ..
    | with_reducible apply Leads.next
    | with_reducible apply Follows.after (atTick_follows ..)
    | with_reducible apply Follows.after (frameStart_follows ..)
    | with_reducible apply Follows.foldl
    | split
    | dsimp only
    | with_reducible exact Leads.refused _ _ _
    | intro _

theorem retireBank_follows (s : State) (b : Nat) :
    Follows [.fw, .tp] s (retireBank s b) := by
  unfold retireBank
  repeat' first
    | decide
    | with_reducible exact Follows.refl ..
    | with_reducible apply Follows.after (onFw_follows ..)
    | with_reducible apply Follows.after (onTp_follows ..)
    | with_reducible apply Follows.foldl
    | split
    | dsimp only
    | intro _

theorem retireBanks_follows (s : State) :
    Follows [.fw, .tp] s (retireBanks s) := by
  unfold retireBanks
  repeat' first
    | decide
    | with_reducible exact Follows.refl ..
    | with_reducible apply Follows.after (retireBank_follows ..)
    | with_reducible apply Follows.foldl
    | split
    | dsimp only
    | intro _

theorem raiseFd_follows (s : State) (i : Nat) (n : Nat) (t : Nat) :
    Follows [.staging, .intc, .fw, .tp] s (raiseFd s i n t) := by
  unfold raiseFd
  repeat' first
    | decide
    | with_reducible exact Follows.refl ..
    | with_reducible apply Follows.after (sceneEvent_follows ..)
    | with_reducible apply Follows.foldl
    | split
    | dsimp only
    | intro _

theorem underrun_follows (s : State) (i : Nat) (c : Scene) (p : Nat) (t : Nat) :
    Follows [.basin, .staging, .intc, .fw, .tp] s (underrun s i c p t) := by
  unfold underrun
  repeat' first
    | decide
    | with_reducible exact Follows.refl ..
    | with_reducible apply Follows.after (loopWarning_follows ..)
    | with_reducible apply Follows.after (updScene_follows ..)
    | with_reducible apply Follows.after (lineRegs_follows ..)
    | with_reducible apply Follows.after (regsBefore_follows ..)
    | with_reducible apply Follows.after (sceneEvent_follows ..)
    | with_reducible apply Follows.foldl
    | with_reducible apply Follows.foldlFst
    | split
    | dsimp only
    | with_reducible refine Follows.fst (by assumption) ?_
    | intro _

theorem endOfRow_follows (s : State) (i : Nat) (n : Nat) (l : Nat) (t : Nat) :
    Follows [.out, .basin, .staging, .intc, .pcie, .fw, .pi, .tp] s (endOfRow s i n l t) := by
  unfold endOfRow
  repeat' first
    | decide
    | with_reducible exact Follows.refl ..
    | with_reducible apply Follows.after (updScene_follows ..)
    | with_reducible apply Follows.after (closeRow_follows ..)
    | with_reducible apply Follows.after (formList_follows ..)
    | with_reducible apply Follows.after (panelKick_follows ..)
    | with_reducible apply Follows.after (raiseFd_follows ..)
    | with_reducible apply Follows.foldl
    | split
    | dsimp only
    | intro _

theorem commitNext_follows (s : State) (i : Nat) (c : Scene) :
    Follows [.tick, .out, .basin, .staging, .intc, .pcie, .fw, .pi, .tp, .tl] s (commitNext s i c) := by
  unfold commitNext
  repeat' first
    | decide
    | with_reducible exact Follows.refl ..
    | with_reducible apply Follows.after (updScene_follows ..)
    | with_reducible apply Follows.after (atTick_follows ..)
    | with_reducible apply Follows.after (renderLine_follows ..)
    | with_reducible apply Follows.after (frameStart_follows ..)
    | with_reducible apply Follows.after (retireBanks_follows ..)
    | with_reducible apply Follows.after (underrun_follows ..)
    | with_reducible apply Follows.after (endOfRow_follows ..)
    | with_reducible apply Follows.foldl
    | with_reducible apply Follows.foldlFst
    | split
    | dsimp only
    | with_reducible refine Follows.fst (by assumption) ?_
    | intro _

theorem execLineCommit_follows (scene : Fin 2048) (s : State) :
    Leads [.tick, .out, .basin, .staging, .intc, .pcie, .fw, .pi, .tp, .tl] s (execLineCommit scene s) := by
  unfold execLineCommit
  repeat' first
    | decide
    | with_reducible exact Follows.refl ..
    | with_reducible apply Leads.next
    | with_reducible apply Follows.after (commitNext_follows ..)
    | with_reducible apply Follows.foldl
    | split
    | dsimp only
    | with_reducible exact Leads.refused _ _ _
    | intro _

theorem writeBlock_follows (s : State) (base : Nat) (regs : List Nat) (v : Tab Word) :
    Follows [.out, .basin, .staging, .intc, .pcie, .fw] s (writeBlock s base regs v) := by
  unfold writeBlock
  repeat' first
    | decide
    | with_reducible exact Follows.refl ..
    | with_reducible apply Follows.after (writeReq_follows ..)
    | with_reducible apply Follows.foldl
    | with_reducible apply Follows.foldlFst
    | split
    | dsimp only
    | with_reducible refine Follows.fst (by assumption) ?_
    | intro _

theorem raiseSob_follows (s : State) (i : Nat) (n : Nat) (t : Nat) :
    Follows [.out, .basin, .staging, .intc, .pcie, .fw, .tp] s (raiseSob s i n t) := by
  unfold raiseSob
  repeat' first
    | decide
    | with_reducible exact Follows.refl ..
    | with_reducible apply Follows.after (signalFence_follows ..)
    | with_reducible apply Follows.after (updScene_follows ..)
    | with_reducible apply Follows.after (sceneEvent_follows ..)
    | with_reducible apply Follows.after (raiseFd_follows ..)
    | with_reducible apply Follows.after (writeBlock_follows ..)
    | with_reducible apply Follows.foldl
    | split
    | dsimp only
    | intro _

theorem execSob_follows (scene : Fin 2048) (s : State) :
    Leads [.tick, .out, .basin, .staging, .intc, .pcie, .fw, .tp, .tl] s (execSob scene s) := by
  unfold execSob
  repeat' first
    | decide
    | with_reducible exact Follows.refl ..
    | with_reducible apply Leads.next
    | with_reducible apply Follows.after (atTick_follows ..)
    | with_reducible apply Follows.after (frameStart_follows ..)
    | with_reducible apply Follows.after (raiseSob_follows ..)
    | with_reducible apply Follows.foldl
    | split
    | dsimp only
    | with_reducible exact Leads.refused _ _ _
    | intro _

theorem execLineMatch_follows (scene : Fin 2048) (comp : Fin 4) (s : State) :
    Leads [.tick, .staging, .intc, .fw, .tp] s (execLineMatch scene comp s) := by
  unfold execLineMatch
  repeat' first
    | decide
    | with_reducible exact Follows.refl ..
    | with_reducible apply Leads.next
    | with_reducible apply Follows.after (updScene_follows ..)
    | with_reducible apply Follows.after (atTick_follows ..)
    | with_reducible apply Follows.after (sceneEvent_follows ..)
    | with_reducible apply Follows.foldl
    | split
    | dsimp only
    | with_reducible exact Leads.refused _ _ _
    | intro _

theorem evqRead_follows (s : State) (agent : Nat) :
    Follows [.intc, .tp] s (evqRead s agent).1 := by
  unfold evqRead
  repeat' first
    | decide
    | with_reducible exact Follows.refl ..
    | with_reducible apply Follows.after (onTp_follows ..)
    | with_reducible apply Follows.after (evqLevel_follows ..)
    | with_reducible apply Follows.foldl
    | with_reducible apply Follows.foldlFst
    | split
    | dsimp only
    | with_reducible refine Follows.fst (by assumption) ?_
    | intro _

theorem execTpEvq_follows (agent : Agent) (s : State) :
    Leads [.fresh, .out, .sys, .intc, .tp] s (execTpEvq agent s) := by
  unfold execTpEvq
  repeat' first
    | decide
    | with_reducible exact Follows.refl ..
    | with_reducible apply Leads.next
    | with_reducible apply reach_follows
    | with_reducible apply Follows.after (emit_follows ..)
    | with_reducible apply Follows.after (evqRead_follows ..)
    | with_reducible apply Follows.foldl
    | with_reducible apply Follows.foldlFst
    | split
    | dsimp only
    | with_reducible refine Follows.fst (by assumption) ?_
    | with_reducible exact Leads.refused _ _ _
    | intro _

theorem execBalancerStep_follows (busy : List Nat) (load : List (Nat × Nat)) (s : State) :
    Leads [.tp] s (execBalancerStep busy load s) := by
  unfold execBalancerStep
  repeat' first
    | decide
    | with_reducible exact Follows.refl ..
    | with_reducible apply Leads.next
    | with_reducible apply Follows.after (onTp_follows ..)
    | with_reducible apply Follows.after (updScene_follows ..)
    | with_reducible apply Follows.foldl
    | split
    | dsimp only
    | with_reducible exact Leads.refused _ _ _
    | intro _

/-! ### Blit -/

theorem onBlt_follows (s : State) (f : Blitter → Blitter) :
    Follows [.tp] s (onBlt s f) := by
  unfold onBlt
  repeat' first
    | decide
    | with_reducible exact Follows.refl ..
    | with_reducible apply Follows.after (onTp_follows ..)
    | with_reducible apply Follows.foldl
    | split
    | dsimp only
    | intro _

theorem bltLook_follows (s : State) (i : Nat) :
    Follows [.basin, .staging, .intc, .fw, .tp] s (bltLook s i) := by
  unfold bltLook
  repeat' first
    | decide
    | with_reducible exact Follows.refl ..
    | with_reducible apply Follows.after (readWord_follows ..)
    | with_reducible apply Follows.after (onBlt_follows ..)
    | with_reducible apply Follows.foldl
    | with_reducible apply Follows.foldlFst
    | split
    | dsimp only
    | with_reducible refine Follows.fst (by assumption) ?_
    | intro _

theorem execBlitPoll_follows (s : State) :
    Leads [.basin, .staging, .intc, .fw, .tp] s (execBlitPoll s) := by
  unfold execBlitPoll
  repeat' first
    | decide
    | with_reducible exact Follows.refl ..
    | with_reducible apply Leads.next
    | with_reducible apply Follows.after (bltLook_follows ..)
    | with_reducible apply Follows.foldl
    | split
    | dsimp only
    | with_reducible exact Leads.refused _ _ _
    | intro _

theorem execTpBltKick_follows (agent : Agent) (mooring : Fin 16384) (s : State) :
    Leads [.fresh, .out, .sys, .basin, .staging, .intc, .fw, .tp] s (execTpBltKick agent mooring s) := by
  unfold execTpBltKick
  repeat' first
    | decide
    | with_reducible exact Follows.refl ..
    | with_reducible apply Leads.next
    | with_reducible apply tpReach_follows
    | with_reducible apply Follows.after (bltLook_follows ..)
    | with_reducible apply Follows.foldl
    | split
    | dsimp only
    | with_reducible exact Leads.refused _ _ _
    | intro _

theorem bltAdvance_follows (s : State) (agent : Nat) (i : Nat) (m : Moor) (c : Word) :
    Follows [.out, .basin, .staging, .intc, .pcie, .fw, .tp] s (bltAdvance s agent i m c) := by
  unfold bltAdvance
  repeat' first
    | decide
    | with_reducible exact Follows.refl ..
    | with_reducible apply Follows.after (writeReq_follows ..)
    | with_reducible apply Follows.after (onBlt_follows ..)
    | with_reducible apply Follows.foldl
    | with_reducible apply Follows.foldlFst
    | split
    | dsimp only
    | with_reducible refine Follows.fst (by assumption) ?_
    | intro _

theorem bltCons_follows (s : State) (i : Nat) (m : Moor) :
    Follows [.out, .basin, .staging, .intc, .pcie, .fw, .tp] s (bltCons s i m).1 := by
  unfold bltCons
  repeat' first
    | decide
    | with_reducible exact Follows.refl ..
    | with_reducible apply Follows.after (readWord_follows ..)
    | with_reducible apply Follows.after (bltAdvance_follows ..)
    | with_reducible apply Follows.foldl
    | with_reducible apply Follows.foldlFst
    | split
    | dsimp only
    | with_reducible refine Follows.fst (by assumption) ?_
    | intro _

theorem nextBlt_follows (s : State) (a1 : List Nat) :
    Follows [.out, .basin, .staging, .intc, .pcie, .fw, .tp] s (nextBlt s a1).1 := by
  fun_induction nextBlt s a1 <;> repeat' first
    | decide
    | with_reducible exact Follows.refl ..
    | with_reducible apply Follows.after (bltCons_follows ..)
    | with_reducible refine Follows.trans ?_ (by assumption)
    | with_reducible apply Follows.foldl
    | with_reducible apply Follows.foldlFst
    | split
    | dsimp only
    | with_reducible refine Follows.fst (by assumption) ?_
    | intro _

theorem writeMaskDw_follows (s : State) (agent : Nat) (d : Nat) (off : Nat) (b : List (Option Byte)) :
    Follows [.basin, .staging, .intc, .fw] s (writeMaskDw s agent d off b).1 := by
  unfold writeMaskDw
  repeat' first
    | decide
    | with_reducible exact Follows.refl ..
    | with_reducible apply Follows.after (putDw_follows ..)
    | with_reducible apply Follows.after (fetchDw_follows ..)
    | with_reducible apply Follows.after (fullWrite_follows ..)
    | with_reducible apply Follows.foldl
    | with_reducible apply Follows.foldlFst
    | split
    | dsimp only
    | with_reducible refine Follows.fst (by assumption) ?_
    | intro _

theorem signalMask_follows (s : State) (a : Nat) (b : List (Option Byte)) :
    Follows [.out, .intc, .pcie] s (signalMask s a b) := by
  unfold signalMask
  repeat' first
    | decide
    | with_reducible exact Follows.refl ..
    | with_reducible apply Follows.after (signalMoor_follows ..)
    | with_reducible apply Follows.foldl
    | split
    | dsimp only
    | intro _

theorem writeMask_follows (a1 : Nat) (a2 : State) (a3 : Nat) (a4 : Nat) (a5 : List (Option Byte)) :
    Follows [.out, .basin, .staging, .intc, .pcie, .fw] a2 (writeMask a1 a2 a3 a4 a5).1 := by
  fun_induction writeMask a1 a2 a3 a4 a5 <;> repeat' first
    | decide
    | with_reducible exact Follows.refl ..
    | with_reducible apply Follows.after (writeMaskDw_follows ..)
    | with_reducible apply Follows.after (signalMask_follows ..)
    | with_reducible refine Follows.trans ?_ (by assumption)
    | with_reducible apply Follows.foldl
    | with_reducible apply Follows.foldlFst
    | split
    | dsimp only
    | with_reducible refine Follows.fst (by assumption) ?_
    | intro _

theorem blitRun_follows (s : State) (b : Blit) (r : Run) :
    Follows [.out, .basin, .staging, .intc, .pcie, .fw] s (blitRun s b r).1 := by
  unfold blitRun
  repeat' first
    | decide
    | with_reducible exact Follows.refl ..
    | with_reducible apply Follows.after (readMem_follows ..)
    | with_reducible apply Follows.after (writeMask_follows ..)
    | with_reducible apply Follows.foldl
    | with_reducible apply Follows.foldlFst
    | split
    | dsimp only
    | with_reducible refine Follows.fst (by assumption) ?_
    | intro _

theorem blitRuns_follows (s : State) (b : Blit) (a1 : List Run) (a2 : Nat) :
    Follows [.out, .basin, .staging, .intc, .pcie, .fw] s (blitRuns s b a1 a2).1 := by
  fun_induction blitRuns s b a1 a2 <;> repeat' first
    | decide
    | with_reducible exact Follows.refl ..
    | with_reducible apply Follows.after (blitRun_follows ..)
    | with_reducible refine Follows.trans ?_ (by assumption)
    | with_reducible apply Follows.foldl
    | with_reducible apply Follows.foldlFst
    | split
    | dsimp only
    | with_reducible refine Follows.fst (by assumption) ?_
    | intro _

theorem openBlit_follows (s : State) (b : Blit) :
    Follows [.basin, .staging, .intc, .fw] s (openBlit s b).1 := by
  unfold openBlit
  repeat' first
    | decide
    | with_reducible exact Follows.refl ..
    | with_reducible apply Follows.after (readMem_follows ..)
    | with_reducible apply Follows.foldl
    | with_reducible apply Follows.foldlFst
    | split
    | dsimp only
    | with_reducible refine Follows.fst (by assumption) ?_
    | intro _

theorem takeEntry_follows (s : State) (i : Nat) (m : Moor) (c : Word) :
    Follows [.out, .basin, .staging, .intc, .pcie, .fw, .tp] s (takeEntry s i m c) := by
  unfold takeEntry
  repeat' first
    | decide
    | with_reducible exact Follows.refl ..
    | with_reducible apply Follows.after (readMem_follows ..)
    | with_reducible apply Follows.after (onBlt_follows ..)
    | with_reducible apply Follows.after (bltAdvance_follows ..)
    | with_reducible apply Follows.after (openBlit_follows ..)
    | with_reducible apply Follows.foldl
    | with_reducible apply Follows.foldlFst
    | split
    | dsimp only
    | with_reducible refine Follows.fst (by assumption) ?_
    | intro _

theorem execBlitStart_follows (s : State) :
    Leads [.out, .basin, .staging, .intc, .pcie, .fw, .tp] s (execBlitStart s) := by
  unfold execBlitStart
  repeat' first
    | decide
    | with_reducible exact Follows.refl ..
    | with_reducible apply Leads.next
    | with_reducible apply Follows.after (nextBlt_follows ..)
    | with_reducible apply Follows.after (takeEntry_follows ..)
    | with_reducible apply Follows.foldl
    | with_reducible apply Follows.foldlFst
    | split
    | dsimp only
    | with_reducible refine Follows.fst (by assumption) ?_
    | with_reducible exact Leads.refused _ _ _
    | intro _

theorem writeStatus_follows (s : State) (agent : Nat) (b : Blit) (w : Word) :
    Follows [.out, .basin, .staging, .intc, .pcie, .fw] s (writeStatus s agent b w) := by
  unfold writeStatus
  repeat' first
    | decide
    | with_reducible exact Follows.refl ..
    | with_reducible apply Follows.after (writeReq_follows ..)
    | with_reducible apply Follows.foldl
    | with_reducible apply Follows.foldlFst
    | split
    | dsimp only
    | with_reducible refine Follows.fst (by assumption) ?_
    | intro _

theorem bltFence_follows (s : State) (b : Blit) :
    Follows [.staging, .intc, .fw, .tp] s (bltFence s b) := by
  unfold bltFence
  repeat' first
    | decide
    | with_reducible exact Follows.refl ..
    | with_reducible apply Follows.after (signalFence_follows ..)
    | with_reducible apply Follows.after (onBlt_follows ..)
    | with_reducible apply Follows.foldl
    | split
    | dsimp only
    | intro _

theorem blitPixels_follows (s : State) (b : Blit) :
    Follows [.out, .basin, .staging, .intc, .pcie, .fw] s (blitPixels s b).1 := by
  unfold blitPixels
  repeat' first
    | decide
    | with_reducible exact Follows.refl ..
    | with_reducible apply Follows.after (blitRuns_follows ..)
    | with_reducible apply Follows.foldl
    | with_reducible apply Follows.foldlFst
    | split
    | dsimp only
    | with_reducible refine Follows.fst (by assumption) ?_
    | intro _

theorem execBlitComplete_follows (s : State) :
    Leads [.out, .basin, .staging, .intc, .pcie, .fw, .tp] s (execBlitComplete s) := by
  unfold execBlitComplete
  repeat' first
    | decide
    | with_reducible exact Follows.refl ..
    | with_reducible apply Leads.next
    | with_reducible apply Follows.after (onBlt_follows ..)
    | with_reducible apply Follows.after (bltAdvance_follows ..)
    | with_reducible apply Follows.after (writeStatus_follows ..)
    | with_reducible apply Follows.after (bltFence_follows ..)
    | with_reducible apply Follows.after (blitPixels_follows ..)
    | with_reducible apply Follows.foldl
    | with_reducible apply Follows.foldlFst
    | split
    | dsimp only
    | with_reducible refine Follows.fst (by assumption) ?_
    | with_reducible exact Leads.refused _ _ _
    | intro _

theorem blitStop_follows (s : State) :
    Follows [.fresh, .out, .basin, .staging, .intc, .pcie, .fw, .tp] s (blitStop s) := by
  unfold blitStop
  repeat' first
    | decide
    | with_reducible exact Follows.refl ..
    | with_reducible apply Follows.after (drawFree_follows ..)
    | with_reducible apply Follows.after (onBlt_follows ..)
    | with_reducible apply Follows.after (blitRuns_follows ..)
    | with_reducible apply Follows.foldl
    | with_reducible apply Follows.foldlFst
    | split
    | dsimp only
    | with_reducible refine Follows.fst (by assumption) ?_
    | intro _

theorem blitClose_follows (s : State) :
    Follows [.out, .basin, .staging, .intc, .pcie, .fw, .tp] s (blitClose s) := by
  unfold blitClose
  repeat' first
    | decide
    | with_reducible exact Follows.refl ..
    | with_reducible apply Follows.after (onBlt_follows ..)
    | with_reducible apply Follows.after (bltAdvance_follows ..)
    | with_reducible apply Follows.after (writeStatus_follows ..)
    | with_reducible apply Follows.foldl
    | split
    | dsimp only
    | intro _

end Sys2Proof.Machine
end

