-- ==== Sys2Proof/Laws/FollowsDeck.lean ====
section
/-! SUPPORT. What each operation may change (`Follows`): Sluice, the deck kernel and the Ceing instructions. -/

set_option linter.unusedTactic false
set_option linter.unreachableTactic false
set_option linter.unusedVariables false

open Sys2Proof

namespace Sys2Proof.Machine

/-! ### Sluice -/

theorem onSl_follows (s : State) (f : Sluice → Sluice) :
    Follows [.sl] s (onSl s f) := by
  unfold onSl
  repeat' first
    | decide
    | with_reducible exact Follows.refl ..
    | with_reducible apply Follows.foldl
    | split
    | dsimp only
    | with_reducible apply Follows.set_sl
    | intro _

theorem updChan_follows (s : State) (n : Nat) (f : Chan → Chan) :
    Follows [.sl] s (updChan s n f) := by
  unfold updChan
  repeat' first
    | decide
    | with_reducible exact Follows.refl ..
    | with_reducible apply Follows.after (onSl_follows ..)
    | with_reducible apply Follows.foldl
    | split
    | dsimp only
    | intro _

theorem slReach_follows {l : List Part} {s t : State} (agent ch o : Nat) (f : State → State)
    (hl : ∀ x ∈ [.fresh, .out, .sys], x ∈ l) (h : ∀ u, Follows l u (f u)) (g : Follows l s t) :
    Follows l s (slReach t agent ch o f) :=
  reach_follows _ _ _ _ _ f hl h g

theorem stopSignal_follows (s : State) (n : Nat) (st : Nat) (residue : BitVec 24) :
    Follows [.staging, .intc, .fw, .sl] s (stopSignal s n st residue) := by
  unfold stopSignal
  repeat' first
    | decide
    | with_reducible exact Follows.refl ..
    | with_reducible apply Follows.after (raiseShared_follows ..)
    | with_reducible apply Follows.after (postRec_follows ..)
    | with_reducible apply Follows.after (updChan_follows ..)
    | with_reducible apply Follows.foldl
    | split
    | dsimp only
    | intro _

theorem writeResult_follows (s : State) (agent : Nat) (c : Chan) (st : Nat) (residue : Nat) :
    Follows [.out, .basin, .staging, .intc, .pcie, .fw] s (writeResult s agent c st residue).1 := by
  unfold writeResult
  repeat' first
    | decide
    | with_reducible exact Follows.refl ..
    | with_reducible apply Follows.after (writeReq_follows ..)
    | with_reducible apply Follows.foldl
    | with_reducible apply Follows.foldlFst
    | split
    | dsimp only
    | with_reducible refine Follows.fst (by assumption) ?_
    | intro _

theorem residueOf_follows (s : State) (c : Chan) :
    Follows [.fresh] s (residueOf s c).1 := by
  unfold residueOf
  repeat' first
    | decide
    | with_reducible exact Follows.refl ..
    | with_reducible apply Follows.after (drawFree_follows ..)
    | with_reducible apply Follows.foldl
    | with_reducible apply Follows.foldlFst
    | split
    | dsimp only
    | with_reducible refine Follows.fst (by assumption) ?_
    | intro _

theorem stopChan_follows (s : State) (n : Nat) :
    Follows [.fresh, .out, .basin, .staging, .intc, .pcie, .fw, .sl] s (stopChan s n) := by
  unfold stopChan
  repeat' first
    | decide
    | with_reducible exact Follows.refl ..
    | with_reducible apply Follows.after (stopSignal_follows ..)
    | with_reducible apply Follows.after (writeResult_follows ..)
    | with_reducible apply Follows.after (residueOf_follows ..)
    | with_reducible apply Follows.foldl
    | with_reducible apply Follows.foldlFst
    | split
    | dsimp only
    | with_reducible refine Follows.fst (by assumption) ?_
    | intro _

theorem execSlChannelStopped_follows (ch : Fin 64) (s : State) :
    Leads [.fresh, .out, .basin, .staging, .intc, .pcie, .fw, .sl] s (execSlChannelStopped ch s) := by
  unfold execSlChannelStopped
  repeat' first
    | decide
    | with_reducible exact Follows.refl ..
    | with_reducible apply Leads.next
    | with_reducible apply Follows.after (stopChan_follows ..)
    | with_reducible apply Follows.foldl
    | split
    | dsimp only
    | with_reducible exact Leads.refused _ _ _
    | intro _

theorem followLink_follows (s : State) (n : Nat) (a : Word) :
    Follows [.sl] s (followLink s n a) := by
  unfold followLink
  repeat' first
    | decide
    | with_reducible exact Follows.refl ..
    | with_reducible apply Follows.after (updChan_follows ..)
    | with_reducible apply Follows.foldl
    | split
    | dsimp only
    | intro _

theorem completeDesc_follows (s : State) (n : Nat) :
    Follows [.out, .basin, .staging, .intc, .pcie, .fw, .sl] s (completeDesc s n) := by
  unfold completeDesc
  repeat' first
    | decide
    | with_reducible exact Follows.refl ..
    | with_reducible apply Follows.after (raiseShared_follows ..)
    | with_reducible apply Follows.after (postRec_follows ..)
    | with_reducible apply Follows.after (updChan_follows ..)
    | with_reducible apply Follows.after (writeResult_follows ..)
    | with_reducible apply Follows.after (followLink_follows ..)
    | with_reducible apply Follows.foldl
    | with_reducible apply Follows.foldlFst
    | split
    | dsimp only
    | with_reducible refine Follows.fst (by assumption) ?_
    | intro _

theorem fetchDesc_follows (s : State) (n : Nat) :
    Follows [.out, .basin, .staging, .intc, .pcie, .fw, .sl] s (fetchDesc s n) := by
  unfold fetchDesc
  repeat' first
    | decide
    | with_reducible exact Follows.refl ..
    | with_reducible apply Follows.after (readMem_follows ..)
    | with_reducible apply Follows.after (updChan_follows ..)
    | with_reducible apply Follows.after (completeDesc_follows ..)
    | with_reducible apply Follows.foldl
    | with_reducible apply Follows.foldlFst
    | split
    | dsimp only
    | with_reducible refine Follows.fst (by assumption) ?_
    | intro _

theorem execSlDescriptorFetch_follows (ch : Fin 64) (s : State) :
    Leads [.out, .basin, .staging, .intc, .pcie, .fw, .sl] s (execSlDescriptorFetch ch s) := by
  unfold execSlDescriptorFetch
  repeat' first
    | decide
    | with_reducible exact Follows.refl ..
    | with_reducible apply Leads.next
    | with_reducible apply Follows.after (fetchDesc_follows ..)
    | with_reducible apply Follows.foldl
    | split
    | dsimp only
    | with_reducible exact Leads.refused _ _ _
    | intro _

theorem readNext_follows (s : State) (n : Nat) (tail : Bool) :
    Follows [.basin, .staging, .intc, .fw, .sl] s (readNext s n tail) := by
  unfold readNext
  repeat' first
    | decide
    | with_reducible exact Follows.refl ..
    | with_reducible apply Follows.after (raiseShared_follows ..)
    | with_reducible apply Follows.after (readWord_follows ..)
    | with_reducible apply Follows.after (updChan_follows ..)
    | with_reducible apply Follows.after (followLink_follows ..)
    | with_reducible apply Follows.foldl
    | with_reducible apply Follows.foldlFst
    | split
    | dsimp only
    | with_reducible refine Follows.fst (by assumption) ?_
    | intro _

theorem execSlTailRecheck_follows (ch : Fin 64) (s : State) :
    Leads [.basin, .staging, .intc, .fw, .sl] s (execSlTailRecheck ch s) := by
  unfold execSlTailRecheck
  repeat' first
    | decide
    | with_reducible exact Follows.refl ..
    | with_reducible apply Leads.next
    | with_reducible apply Follows.after (readNext_follows ..)
    | with_reducible apply Follows.foldl
    | split
    | dsimp only
    | with_reducible exact Leads.refused _ _ _
    | intro _

theorem issueBurst_follows (s : State) (n : Nat) :
    Follows [.out, .sl] s (issueBurst s n) := by
  unfold issueBurst
  repeat' first
    | decide
    | with_reducible exact Follows.refl ..
    | with_reducible apply Follows.after (emit_follows ..)
    | with_reducible apply Follows.after (onSl_follows ..)
    | with_reducible apply Follows.after (updChan_follows ..)
    | with_reducible apply Follows.foldl
    | split
    | dsimp only
    | intro _

theorem execSlBurstIssue_follows (s : State) :
    Leads [.out, .sl] s (execSlBurstIssue s) := by
  unfold execSlBurstIssue
  repeat' first
    | decide
    | with_reducible exact Follows.refl ..
    | with_reducible apply Leads.next
    | with_reducible apply Follows.after (issueBurst_follows ..)
    | with_reducible apply Follows.foldl
    | split
    | dsimp only
    | with_reducible exact Leads.refused _ _ _
    | intro _

theorem freeBytes_follows (a1 : Nat) (a2 : State) :
    Follows [.fresh] a2 (freeBytes a1 a2).1 := by
  fun_induction freeBytes a1 a2 <;> repeat' first
    | decide
    | with_reducible exact Follows.refl ..
    | with_reducible apply Follows.after (drawFree_follows ..)
    | with_reducible refine Follows.trans ?_ (by assumption)
    | with_reducible apply Follows.foldl
    | with_reducible apply Follows.foldlFst
    | split
    | dsimp only
    | with_reducible refine Follows.fst (by assumption) ?_
    | intro _

theorem burstData_follows (s : State) (c : Chan) (b : Burst) (h : HostCpl) :
    Follows [.basin, .staging, .intc, .fw] s (burstData s c b h).1 := by
  unfold burstData
  repeat' first
    | decide
    | with_reducible exact Follows.refl ..
    | with_reducible apply Follows.after (readMem_follows ..)
    | with_reducible apply Follows.foldl
    | with_reducible apply Follows.foldlFst
    | split
    | dsimp only
    | with_reducible refine Follows.fst (by assumption) ?_
    | intro _

theorem burstWrite_follows (s : State) (c : Chan) (b : Burst) (d : List Byte) :
    Follows [.out, .basin, .staging, .intc, .pcie, .fw] s (burstWrite s c b d).1 := by
  unfold burstWrite
  repeat' first
    | decide
    | with_reducible exact Follows.refl ..
    | with_reducible apply Follows.after (emit_follows ..)
    | with_reducible apply Follows.after (writeReq_follows ..)
    | with_reducible apply Follows.foldl
    | with_reducible apply Follows.foldlFst
    | split
    | dsimp only
    | with_reducible refine Follows.fst (by assumption) ?_
    | intro _

theorem doBurst_follows (s : State) (c : Chan) (b : Burst) (h : HostCpl) :
    Follows [.fresh, .out, .basin, .staging, .intc, .pcie, .fw] s (doBurst s c b h).1 := by
  unfold doBurst
  repeat' first
    | decide
    | with_reducible exact Follows.refl ..
    | with_reducible apply Follows.after (freeBytes_follows ..)
    | with_reducible apply Follows.after (burstData_follows ..)
    | with_reducible apply Follows.after (burstWrite_follows ..)
    | with_reducible apply Follows.foldl
    | with_reducible apply Follows.foldlFst
    | split
    | dsimp only
    | with_reducible refine Follows.fst (by assumption) ?_
    | intro _

theorem endBurst_follows (s : State) (n : Nat) (k : Nat) (h : HostCpl) :
    Follows [.fresh, .out, .basin, .staging, .intc, .pcie, .fw, .sl] s (endBurst s n k h) := by
  unfold endBurst
  repeat' first
    | decide
    | with_reducible exact Follows.refl ..
    | with_reducible apply Follows.after (updChan_follows ..)
    | with_reducible apply Follows.after (completeDesc_follows ..)
    | with_reducible apply Follows.after (doBurst_follows ..)
    | with_reducible apply Follows.foldl
    | with_reducible apply Follows.foldlFst
    | split
    | dsimp only
    | with_reducible refine Follows.fst (by assumption) ?_
    | intro _

theorem execSlBurstComplete_follows (ch : Fin 64) (burst : Fin 8) (host : HostCpl) (s : State) :
    Leads [.fresh, .out, .basin, .staging, .intc, .pcie, .fw, .sl] s (execSlBurstComplete ch burst host s) := by
  unfold execSlBurstComplete
  repeat' first
    | decide
    | with_reducible exact Follows.refl ..
    | with_reducible apply Leads.next
    | with_reducible apply Follows.after (endBurst_follows ..)
    | with_reducible apply Follows.foldl
    | split
    | dsimp only
    | with_reducible exact Leads.refused _ _ _
    | intro _

theorem linkTail_follows (s : State) (n : Nat) (head : Nat) :
    Follows [.out, .basin, .staging, .intc, .pcie, .fw, .sl] s (linkTail s n head).1 := by
  unfold linkTail
  repeat' first
    | decide
    | with_reducible exact Follows.refl ..
    | with_reducible apply Follows.after (writeReq_follows ..)
    | with_reducible apply Follows.after (updChan_follows ..)
    | with_reducible apply Follows.foldl
    | with_reducible apply Follows.foldlFst
    | split
    | dsimp only
    | with_reducible refine Follows.fst (by assumption) ?_
    | intro _

theorem append_follows (s : State) (n : Nat) (head : Nat) (last : Nat) :
    Follows [.out, .basin, .staging, .intc, .pcie, .fw, .sl] s (append s n head last) := by
  unfold append
  repeat' first
    | decide
    | with_reducible exact Follows.refl ..
    | with_reducible apply Follows.after (updChan_follows ..)
    | with_reducible apply Follows.after (linkTail_follows ..)
    | with_reducible apply Follows.foldl
    | with_reducible apply Follows.foldlFst
    | split
    | dsimp only
    | with_reducible refine Follows.fst (by assumption) ?_
    | intro _

theorem doorbell_follows (s : State) (n : Nat) :
    Follows [.basin, .staging, .intc, .fw, .sl] s (doorbell s n) := by
  unfold doorbell
  repeat' first
    | decide
    | with_reducible exact Follows.refl ..
    | with_reducible apply Follows.after (readNext_follows ..)
    | with_reducible apply Follows.foldl
    | split
    | dsimp only
    | intro _

theorem abort_follows (s : State) (n : Nat) :
    Follows [.staging, .intc, .fw, .sl] s (abort s n) := by
  unfold abort
  repeat' first
    | decide
    | with_reducible exact Follows.refl ..
    | with_reducible apply Follows.after (updChan_follows ..)
    | with_reducible apply Follows.after (stopSignal_follows ..)
    | with_reducible apply Follows.foldl
    | split
    | dsimp only
    | intro _

theorem clearChan_follows (s : State) (n : Nat) :
    Follows [.sl] s (clearChan s n) := by
  unfold clearChan
  repeat' first
    | decide
    | with_reducible exact Follows.refl ..
    | with_reducible apply Follows.after (updChan_follows ..)
    | with_reducible apply Follows.foldl
    | split
    | dsimp only
    | intro _

theorem execSlDoorbell_follows (agent : Agent) (ch : Fin 64) (s : State) :
    Leads [.fresh, .out, .sys, .basin, .staging, .intc, .fw, .sl] s (execSlDoorbell agent ch s) := by
  unfold execSlDoorbell
  repeat' first
    | decide
    | with_reducible exact Follows.refl ..
    | with_reducible apply Leads.next
    | with_reducible apply slReach_follows
    | with_reducible apply Follows.after (doorbell_follows ..)
    | with_reducible apply Follows.foldl
    | split
    | dsimp only
    | with_reducible exact Leads.refused _ _ _
    | intro _

theorem execSlAbort_follows (agent : Agent) (ch : Fin 64) (s : State) :
    Leads [.fresh, .out, .sys, .staging, .intc, .fw, .sl] s (execSlAbort agent ch s) := by
  unfold execSlAbort
  repeat' first
    | decide
    | with_reducible exact Follows.refl ..
    | with_reducible apply Leads.next
    | with_reducible apply slReach_follows
    | with_reducible apply Follows.after (abort_follows ..)
    | with_reducible apply Follows.foldl
    | split
    | dsimp only
    | with_reducible exact Leads.refused _ _ _
    | intro _

theorem execSlClear_follows (agent : Agent) (ch : Fin 64) (s : State) :
    Leads [.fresh, .out, .sys, .sl] s (execSlClear agent ch s) := by
  unfold execSlClear
  repeat' first
    | decide
    | with_reducible exact Follows.refl ..
    | with_reducible apply Leads.next
    | with_reducible apply slReach_follows
    | with_reducible apply Follows.after (clearChan_follows ..)
    | with_reducible apply Follows.foldl
    | split
    | dsimp only
    | with_reducible exact Leads.refused _ _ _
    | intro _

theorem execSlAppend_follows (agent : Agent) (ch : Fin 64) (value : Word) (s : State) :
    Leads [.fresh, .out, .sys, .basin, .staging, .intc, .pcie, .fw, .sl] s (execSlAppend agent ch value s) := by
  unfold execSlAppend
  repeat' first
    | decide
    | with_reducible exact Follows.refl ..
    | with_reducible apply Leads.next
    | with_reducible apply slReach_follows
    | with_reducible apply Follows.after (append_follows ..)
    | with_reducible apply Follows.foldl
    | split
    | dsimp only
    | with_reducible exact Leads.refused _ _ _
    | intro _

theorem submitEntry_follows (s : State) (w : List Word) :
    Follows [.out, .basin, .staging, .intc, .pcie, .fw, .sl] s (submitEntry s w) := by
  unfold submitEntry
  repeat' first
    | decide
    | with_reducible exact Follows.refl ..
    | with_reducible apply Follows.after (onSl_follows ..)
    | with_reducible apply Follows.after (append_follows ..)
    | with_reducible apply Follows.after (doorbell_follows ..)
    | with_reducible apply Follows.after (abort_follows ..)
    | with_reducible apply Follows.after (clearChan_follows ..)
    | with_reducible apply Follows.foldl
    | split
    | dsimp only
    | intro _

theorem submitEntries_follows (a1 : Nat) (a2 : State) (a3 : Moor) (a4 : Word) (a5 : Word) :
    Follows [.out, .basin, .staging, .intc, .pcie, .fw, .sl] a2 (submitEntries a1 a2 a3 a4 a5) := by
  fun_induction submitEntries a1 a2 a3 a4 a5 <;> repeat' first
    | decide
    | with_reducible exact Follows.refl ..
    | with_reducible apply Follows.after (writeReq_follows ..)
    | with_reducible apply Follows.after (readMem_follows ..)
    | with_reducible apply Follows.after (submitEntry_follows ..)
    | with_reducible refine Follows.trans ?_ (by assumption)
    | with_reducible apply Follows.foldl
    | with_reducible apply Follows.foldlFst
    | split
    | dsimp only
    | with_reducible refine Follows.fst (by assumption) ?_
    | intro _

theorem pollMoor_follows (s : State) (i : Nat) :
    Follows [.out, .basin, .staging, .intc, .pcie, .fw, .sl] s (pollMoor s i) := by
  unfold pollMoor
  repeat' first
    | decide
    | with_reducible exact Follows.refl ..
    | with_reducible apply Follows.after (readMem_follows ..)
    | with_reducible apply Follows.after (submitEntries_follows ..)
    | with_reducible apply Follows.foldl
    | with_reducible apply Follows.foldlFst
    | split
    | dsimp only
    | with_reducible refine Follows.fst (by assumption) ?_
    | intro _

theorem execSlSubmitPoll_follows (s : State) :
    Leads [.out, .basin, .staging, .intc, .pcie, .fw, .sl] s (execSlSubmitPoll s) := by
  unfold execSlSubmitPoll
  repeat' first
    | decide
    | with_reducible exact Follows.refl ..
    | with_reducible apply Leads.next
    | with_reducible apply Follows.after (pollMoor_follows ..)
    | with_reducible apply Follows.foldl
    | split
    | dsimp only
    | with_reducible exact Leads.refused _ _ _
    | intro _

theorem slFenceOf_follows (s : State) (i : Nat) :
    Follows [.sl] s (slFenceOf s i) := by
  unfold slFenceOf
  repeat' first
    | decide
    | with_reducible exact Follows.refl ..
    | with_reducible apply Follows.after (onSl_follows ..)
    | with_reducible apply Follows.foldl
    | split
    | dsimp only
    | intro _

theorem slFence_follows (s : State) :
    Follows [.fresh, .out, .basin, .staging, .intc, .pcie, .fw, .sl] s (slFence s) := by
  unfold slFence
  repeat' first
    | decide
    | with_reducible exact Follows.refl ..
    | with_reducible apply Follows.after (drawFree_follows ..)
    | with_reducible apply Follows.after (updChan_follows ..)
    | with_reducible apply Follows.after (doBurst_follows ..)
    | with_reducible apply Follows.foldl
    | with_reducible apply Follows.foldlFst
    | split
    | dsimp only
    | with_reducible refine Follows.fst (by assumption) ?_
    | intro _

theorem slRestore_follows (s : State) :
    Follows [.out, .basin, .staging, .intc, .pcie, .fw, .sl] s (slRestore s) := by
  unfold slRestore
  repeat' first
    | decide
    | with_reducible exact Follows.refl ..
    | with_reducible apply Follows.after (stopSignal_follows ..)
    | with_reducible apply Follows.after (writeResult_follows ..)
    | with_reducible apply Follows.foldl
    | with_reducible apply Follows.foldlFst
    | split
    | dsimp only
    | with_reducible refine Follows.fst (by assumption) ?_
    | intro _

/-! ### Deck -/

theorem onDh_follows (s : State) (f : Decks → Decks) :
    Follows [.dh] s (onDh s f) := by
  unfold onDh
  repeat' first
    | decide
    | with_reducible exact Follows.refl ..
    | with_reducible apply Follows.foldl
    | split
    | dsimp only
    | with_reducible apply Follows.set_dh
    | intro _

theorem updCore_follows (s : State) (n : Nat) (f : Core → Core) :
    Follows [.dh] s (updCore s n f) := by
  unfold updCore
  repeat' first
    | decide
    | with_reducible exact Follows.refl ..
    | with_reducible apply Follows.after (onDh_follows ..)
    | with_reducible apply Follows.foldl
    | split
    | dsimp only
    | intro _

theorem setTask_follows (s : State) (i : Nat) (t : Task) :
    Follows [.dh] s (setTask s i t) := by
  unfold setTask
  repeat' first
    | decide
    | with_reducible exact Follows.refl ..
    | with_reducible apply Follows.after (onDh_follows ..)
    | with_reducible apply Follows.foldl
    | split
    | dsimp only
    | intro _

theorem updTask_follows (s : State) (i : Nat) (f : Task → Task) :
    Follows [.dh] s (updTask s i f) := by
  unfold updTask
  repeat' first
    | decide
    | with_reducible exact Follows.refl ..
    | with_reducible apply Follows.after (setTask_follows ..)
    | with_reducible apply Follows.foldl
    | split
    | dsimp only
    | intro _

theorem readyTask_follows (s : State) (i : Nat) :
    Follows [.dh] s (readyTask s i) := by
  unfold readyTask
  repeat' first
    | decide
    | with_reducible exact Follows.refl ..
    | with_reducible apply Follows.after (onDh_follows ..)
    | with_reducible apply Follows.after (updTask_follows ..)
    | with_reducible apply Follows.foldl
    | split
    | dsimp only
    | intro _

theorem passPrio_follows (s : State) (t : Task) :
    Follows [.dh] s (passPrio s t) := by
  unfold passPrio
  repeat' first
    | decide
    | with_reducible exact Follows.refl ..
    | with_reducible apply Follows.after (updTask_follows ..)
    | with_reducible apply Follows.foldl
    | split
    | dsimp only
    | intro _

theorem inheritLocal_follows (s : State) (n : Nat) :
    Follows [.dh] s (inheritLocal s n) := by
  unfold inheritLocal
  repeat' first
    | decide
    | with_reducible exact Follows.refl ..
    | with_reducible apply Follows.after (passPrio_follows ..)
    | with_reducible apply Follows.foldl
    | split
    | dsimp only
    | intro _

theorem writePrio_follows (s : State) (n : Nat) (p : Nat) :
    Follows [.weir, .intc] s (writePrio s n p) := by
  unfold writePrio
  repeat' first
    | decide
    | with_reducible exact Follows.refl ..
    | with_reducible apply Follows.after (updCtx_follows ..)
    | with_reducible apply Follows.after (weirSettle_follows ..)
    | with_reducible apply Follows.foldl
    | split
    | dsimp only
    | intro _

theorem runTask_follows (s : State) (n : Nat) (i : Nat) :
    Follows [.weir, .intc, .tp, .sl, .dh] s (runTask s n i) := by
  unfold runTask
  repeat' first
    | decide
    | with_reducible exact Follows.refl ..
    | with_reducible apply Follows.after (onTp_follows ..)
    | with_reducible apply Follows.after (onSl_follows ..)
    | with_reducible apply Follows.after (updCore_follows ..)
    | with_reducible apply Follows.after (setTask_follows ..)
    | with_reducible apply Follows.after (writePrio_follows ..)
    | with_reducible apply Follows.foldl
    | split
    | dsimp only
    | intro _

theorem dispatch_follows (s : State) (n : Nat) :
    Follows [.weir, .intc, .tp, .sl, .dh] s (dispatch s n) := by
  unfold dispatch
  repeat' first
    | decide
    | with_reducible exact Follows.refl ..
    | with_reducible apply Follows.after (updCore_follows ..)
    | with_reducible apply Follows.after (runTask_follows ..)
    | with_reducible apply Follows.foldl
    | split
    | dsimp only
    | intro _

theorem releaseLocks_follows (s : State) (n : Nat) (i : Nat) :
    Follows [.out, .basin, .weir, .staging, .intc, .pcie, .fw, .dh] s (releaseLocks s n i) := by
  unfold releaseLocks
  repeat' first
    | decide
    | with_reducible exact Follows.refl ..
    | with_reducible apply Follows.after (lockWriteReg_follows ..)
    | with_reducible apply Follows.after (updTask_follows ..)
    | with_reducible apply Follows.foldl
    | with_reducible apply Follows.foldlFst
    | split
    | dsimp only
    | with_reducible refine Follows.fst (by assumption) ?_
    | intro _

theorem stopTask_follows (s : State) (i : Nat) (state : Nat) :
    Follows [.out, .basin, .weir, .staging, .intc, .pcie, .fw, .dh] s (stopTask s i state) := by
  unfold stopTask
  repeat' first
    | decide
    | with_reducible exact Follows.refl ..
    | with_reducible apply Follows.after (updTask_follows ..)
    | with_reducible apply Follows.after (releaseLocks_follows ..)
    | with_reducible apply Follows.foldl
    | split
    | dsimp only
    | intro _

theorem faultTask_follows (s : State) (n : Nat) (i : Nat) (code : Nat) (pc : Cell) :
    Follows [.out, .basin, .weir, .staging, .intc, .pcie, .fw, .dh] s (faultTask s n i code pc) := by
  unfold faultTask
  repeat' first
    | decide
    | with_reducible exact Follows.refl ..
    | with_reducible apply Follows.after (postRec_follows ..)
    | with_reducible apply Follows.after (updTask_follows ..)
    | with_reducible apply Follows.after (stopTask_follows ..)
    | with_reducible apply Follows.foldl
    | split
    | dsimp only
    | intro _

theorem syncSwitch_follows (s : State) (n : Nat) (i : Nat) :
    Follows [.out, .basin, .weir, .staging, .intc, .pcie, .fw, .dh] s (syncSwitch s n i) := by
  unfold syncSwitch
  repeat' first
    | decide
    | with_reducible exact Follows.refl ..
    | with_reducible apply Follows.after (updCore_follows ..)
    | with_reducible apply Follows.after (faultTask_follows ..)
    | with_reducible apply Follows.foldl
    | split
    | dsimp only
    | intro _

theorem switchFrom_follows (s : State) (n : Nat) (i : Nat) :
    Follows [.out, .basin, .weir, .staging, .intc, .pcie, .fw, .tp, .sl, .dh] s (switchFrom s n i) := by
  unfold switchFrom
  repeat' first
    | decide
    | with_reducible exact Follows.refl ..
    | with_reducible apply Follows.after (updCore_follows ..)
    | with_reducible apply Follows.after (updTask_follows ..)
    | with_reducible apply Follows.after (dispatch_follows ..)
    | with_reducible apply Follows.after (syncSwitch_follows ..)
    | with_reducible apply Follows.foldl
    | split
    | dsimp only
    | intro _

theorem kernelExit_follows (s : State) (n : Nat) :
    Follows [.out, .basin, .weir, .staging, .intc, .pcie, .fw, .tp, .sl, .dh] s (kernelExit s n) := by
  unfold kernelExit
  repeat' first
    | decide
    | with_reducible exact Follows.refl ..
    | with_reducible apply Follows.after (updCore_follows ..)
    | with_reducible apply Follows.after (inheritLocal_follows ..)
    | with_reducible apply Follows.after (writePrio_follows ..)
    | with_reducible apply Follows.after (dispatch_follows ..)
    | with_reducible apply Follows.after (switchFrom_follows ..)
    | with_reducible apply Follows.foldl
    | split
    | dsimp only
    | intro _

theorem reschedule_follows (s : State) (n : Nat) :
    Follows [.out, .basin, .weir, .staging, .intc, .pcie, .fw, .tp, .sl, .dh] s (reschedule s n) := by
  unfold reschedule
  repeat' first
    | decide
    | with_reducible exact Follows.refl ..
    | with_reducible apply Follows.after (updCore_follows ..)
    | with_reducible apply Follows.after (kernelExit_follows ..)
    | with_reducible apply Follows.foldl
    | split
    | dsimp only
    | intro _

theorem exception_follows (s : State) (n : Nat) (code : Nat) (store : Bool) (epc : Cell) (ea : Option Word) :
    Follows [.out, .basin, .weir, .staging, .intc, .pcie, .fw, .tp, .sl, .dh] s (exception s n code store epc ea) := by
  unfold exception
  repeat' first
    | decide
    | with_reducible exact Follows.refl ..
    | with_reducible apply Follows.after (updCore_follows ..)
    | with_reducible apply Follows.after (faultTask_follows ..)
    | with_reducible apply Follows.after (kernelExit_follows ..)
    | with_reducible apply Follows.foldl
    | split
    | dsimp only
    | intro _

theorem wakeTask_follows (s : State) (i : Nat) :
    Follows [.dh] s (wakeTask s i) := by
  unfold wakeTask
  repeat' first
    | decide
    | with_reducible exact Follows.refl ..
    | with_reducible apply Follows.after (setTask_follows ..)
    | with_reducible apply Follows.after (readyTask_follows ..)
    | with_reducible apply Follows.foldl
    | split
    | dsimp only
    | intro _

theorem fillSlot_follows (s : State) (i : Nat) (k : Nat) (x : Slot) :
    Follows [.dh] s (fillSlot s i k x) := by
  unfold fillSlot
  repeat' first
    | decide
    | with_reducible exact Follows.refl ..
    | with_reducible apply Follows.after (setTask_follows ..)
    | with_reducible apply Follows.after (wakeTask_follows ..)
    | with_reducible apply Follows.foldl
    | split
    | dsimp only
    | intro _

theorem fillAll_follows (s : State) (n : Nat) (k : Nat) (scene : Option Nat) (x : Slot) :
    Follows [.dh] s (fillAll s n k scene x) := by
  unfold fillAll
  repeat' first
    | decide
    | with_reducible exact Follows.refl ..
    | with_reducible apply Follows.after (fillSlot_follows ..)
    | with_reducible apply Follows.foldl
    | split
    | dsimp only
    | intro _

theorem drainEvq_follows (fuel : Nat) (s : State) (n : Nat) :
    Follows [.intc, .tp, .dh] s (drainEvq fuel s n) := by
  induction fuel generalizing s with
  | zero => exact Follows.refl ..
  | succ fuel ih =>
    unfold drainEvq
    dsimp only
    split
    · exact Follows.refl ..
    · refine Follows.trans ?_ (ih _ )
      have k := (evqRead_follows s (n + 3)).mono (l := [.intc, .tp, .dh]) (by decide)
      split
      · exact k
      · exact k.trans ((fillAll_follows ..).mono (by decide))

theorem takeInherit_follows (s : State) (n : Nat) :
    Follows [.dh] s (takeInherit s n) := by
  unfold takeInherit
  repeat' first
    | decide
    | with_reducible exact Follows.refl ..
    | with_reducible apply Follows.after (updTask_follows ..)
    | with_reducible apply Follows.foldl
    | split
    | dsimp only
    | intro _

theorem serveSource_follows (s : State) (n : Nat) (i : Nat) :
    Follows [.intc, .tp, .dh] s (serveSource s n i) := by
  unfold serveSource
  repeat' first
    | decide
    | with_reducible exact Follows.refl ..
    | with_reducible apply Follows.after (updCore_follows ..)
    | with_reducible apply Follows.after (fillAll_follows ..)
    | with_reducible apply Follows.after (drainEvq_follows ..)
    | with_reducible apply Follows.after (takeInherit_follows ..)
    | with_reducible apply Follows.foldl
    | split
    | dsimp only
    | intro _

theorem serveAll_follows (s : State) (n : Nat) :
    Follows [.intc, .tp, .dh] s (serveAll s n) := by
  unfold serveAll
  repeat' first
    | decide
    | with_reducible exact Follows.refl ..
    | with_reducible apply Follows.after (updPriv_follows ..)
    | with_reducible apply Follows.after (serveSource_follows ..)
    | with_reducible apply Follows.foldl
    | split
    | dsimp only
    | intro _

theorem execInterruptEntry_follows (core : Fin 8) (s : State) :
    Leads [.out, .basin, .weir, .staging, .intc, .pcie, .fw, .tp, .sl, .dh] s (execInterruptEntry core s) := by
  unfold execInterruptEntry
  repeat' first
    | decide
    | with_reducible exact Follows.refl ..
    | with_reducible apply Leads.next
    | with_reducible apply Follows.after (updCore_follows ..)
    | with_reducible apply Follows.after (kernelExit_follows ..)
    | with_reducible apply Follows.after (serveAll_follows ..)
    | with_reducible apply Follows.foldl
    | split
    | dsimp only
    | with_reducible exact Leads.refused _ _ _
    | intro _

theorem execStoreError_follows (core : Fin 8) (s : State) :
    Leads [.out, .basin, .weir, .staging, .intc, .pcie, .fw, .tp, .sl, .dh] s (execStoreError core s) := by
  unfold execStoreError
  repeat' first
    | decide
    | with_reducible exact Follows.refl ..
    | with_reducible apply Leads.next
    | with_reducible apply Follows.after (updCore_follows ..)
    | with_reducible apply Follows.after (exception_follows ..)
    | with_reducible apply Follows.foldl
    | split
    | dsimp only
    | with_reducible exact Leads.refused _ _ _
    | intro _

theorem setD0_follows (s : State) (n : Nat) (v : Cell) :
    Follows [.dh] s (setD0 s n v) := by
  unfold setD0
  repeat' first
    | decide
    | with_reducible exact Follows.refl ..
    | with_reducible apply Follows.after (updCore_follows ..)
    | with_reducible apply Follows.foldl
    | split
    | dsimp only
    | intro _

theorem yieldTask_follows (s : State) (i : Nat) :
    Follows [.out, .basin, .weir, .staging, .intc, .pcie, .fw, .dh] s (yieldTask s i) := by
  unfold yieldTask
  repeat' first
    | decide
    | with_reducible exact Follows.refl ..
    | with_reducible apply Follows.after (updTask_follows ..)
    | with_reducible apply Follows.after (stopTask_follows ..)
    | with_reducible apply Follows.foldl
    | split
    | dsimp only
    | intro _

theorem blockTask_follows (s : State) (n : Nat) (i : Nat) (w : Wait) :
    Follows [.out, .basin, .weir, .staging, .intc, .pcie, .fw, .dh] s (blockTask s n i w) := by
  unfold blockTask
  repeat' first
    | decide
    | with_reducible exact Follows.refl ..
    | with_reducible apply Follows.after (updTask_follows ..)
    | with_reducible apply Follows.after (yieldTask_follows ..)
    | with_reducible apply Follows.foldl
    | split
    | dsimp only
    | intro _

theorem lockTry_follows (s : State) (n : Nat) (i : Nat) (cell : Nat) :
    Follows [.out, .basin, .weir, .staging, .intc, .pcie, .fw, .dh] s (lockTry s n i cell).1 := by
  unfold lockTry
  repeat' first
    | decide
    | with_reducible exact Follows.refl ..
    | with_reducible apply Follows.after (lockReadReg_follows ..)
    | with_reducible apply Follows.after (updTask_follows ..)
    | with_reducible apply Follows.foldl
    | with_reducible apply Follows.foldlFst
    | split
    | dsimp only
    | with_reducible refine Follows.fst (by assumption) ?_
    | intro _

theorem svcYield_follows (s : State) (n : Nat) (i : Nat) :
    Follows [.out, .basin, .weir, .staging, .intc, .pcie, .fw, .dh] s (svcYield s n i) := by
  unfold svcYield
  repeat' first
    | decide
    | with_reducible exact Follows.refl ..
    | with_reducible apply Follows.after (setTask_follows ..)
    | with_reducible apply Follows.after (readyTask_follows ..)
    | with_reducible apply Follows.after (yieldTask_follows ..)
    | with_reducible apply Follows.foldl
    | split
    | dsimp only
    | intro _

theorem svcWait_follows (s : State) (n : Nat) (i : Nat) :
    Follows [.out, .basin, .weir, .staging, .intc, .pcie, .fw, .dh] s (svcWait s n i) := by
  unfold svcWait
  repeat' first
    | decide
    | with_reducible exact Follows.refl ..
    | with_reducible apply Follows.after (updCore_follows ..)
    | with_reducible apply Follows.after (updTask_follows ..)
    | with_reducible apply Follows.after (blockTask_follows ..)
    | with_reducible apply Follows.foldl
    | split
    | dsimp only
    | intro _

theorem svcPost_follows (s : State) (n : Nat) :
    Follows [.staging, .intc, .fw, .dh] s (svcPost s n) := by
  unfold svcPost
  repeat' first
    | decide
    | with_reducible exact Follows.refl ..
    | with_reducible apply Follows.after (postRec_follows ..)
    | with_reducible apply Follows.after (setD0_follows ..)
    | with_reducible apply Follows.foldl
    | split
    | dsimp only
    | intro _

theorem svcLock_follows (s : State) (n : Nat) (i : Nat) :
    Follows [.out, .basin, .weir, .staging, .intc, .pcie, .fw, .dh] s (svcLock s n i) := by
  unfold svcLock
  repeat' first
    | decide
    | with_reducible exact Follows.refl ..
    | with_reducible apply Follows.after (setD0_follows ..)
    | with_reducible apply Follows.after (blockTask_follows ..)
    | with_reducible apply Follows.after (lockTry_follows ..)
    | with_reducible apply Follows.foldl
    | with_reducible apply Follows.foldlFst
    | split
    | dsimp only
    | with_reducible refine Follows.fst (by assumption) ?_
    | intro _

theorem svcUnlock_follows (s : State) (n : Nat) (i : Nat) :
    Follows [.out, .basin, .weir, .staging, .intc, .pcie, .fw, .dh] s (svcUnlock s n i) := by
  unfold svcUnlock
  repeat' first
    | decide
    | with_reducible exact Follows.refl ..
    | with_reducible apply Follows.after (lockWriteReg_follows ..)
    | with_reducible apply Follows.after (updTask_follows ..)
    | with_reducible apply Follows.after (setD0_follows ..)
    | with_reducible apply Follows.foldl
    | with_reducible apply Follows.foldlFst
    | split
    | dsimp only
    | with_reducible refine Follows.fst (by assumption) ?_
    | intro _

theorem svcSleep_follows (s : State) (n : Nat) (i : Nat) :
    Follows [.out, .basin, .weir, .staging, .intc, .pcie, .fw, .dh] s (svcSleep s n i) := by
  unfold svcSleep
  repeat' first
    | decide
    | with_reducible exact Follows.refl ..
    | with_reducible apply Follows.after (blockTask_follows ..)
    | with_reducible apply Follows.foldl
    | split
    | dsimp only
    | intro _

theorem service_follows (s : State) (n : Nat) (i : Nat) (k : Nat) :
    Follows [.out, .basin, .weir, .staging, .intc, .pcie, .fw, .dh] s (service s n i k) := by
  unfold service
  repeat' first
    | decide
    | with_reducible exact Follows.refl ..
    | with_reducible apply Follows.after (stopTask_follows ..)
    | with_reducible apply Follows.after (setD0_follows ..)
    | with_reducible apply Follows.after (svcYield_follows ..)
    | with_reducible apply Follows.after (svcWait_follows ..)
    | with_reducible apply Follows.after (svcPost_follows ..)
    | with_reducible apply Follows.after (svcLock_follows ..)
    | with_reducible apply Follows.after (svcUnlock_follows ..)
    | with_reducible apply Follows.after (svcSleep_follows ..)
    | with_reducible apply Follows.foldl
    | split
    | dsimp only
    | intro _

theorem sysEntry_follows (s : State) (n : Nat) (k : Nat) (next : Cell) :
    Follows [.out, .basin, .weir, .staging, .intc, .pcie, .fw, .tp, .sl, .dh] s (sysEntry s n k next) := by
  unfold sysEntry
  repeat' first
    | decide
    | with_reducible exact Follows.refl ..
    | with_reducible apply Follows.after (updCore_follows ..)
    | with_reducible apply Follows.after (kernelExit_follows ..)
    | with_reducible apply Follows.after (service_follows ..)
    | with_reducible apply Follows.foldl
    | split
    | dsimp only
    | intro _

theorem beginInstr_follows {l : List Part} {s t : State} (n len : Nat) (f : State → State)
    (hl : ∀ x ∈ [.out, .basin, .weir, .staging, .intc, .pcie, .fw, .tp, .sl, .dh], x ∈ l) (h : ∀ u, Follows l u (f u)) (g : Follows l s t) :
    Follows l s (begin_ t n len f) := by
  have k := g.trans ((updCore_follows t n (fun c => { c with waiting := false })).mono
    (fun x hx => hl x (by revert x hx; decide)))
  unfold begin_
  dsimp only
  repeat' first
    | exact g
    | exact k.trans (h _)
    | exact k.trans ((exception_follows ..).mono hl)
    | split

theorem callService_follows (s : State) (n : Nat) (k : Nat) :
    Follows [.out, .basin, .weir, .staging, .intc, .pcie, .fw, .tp, .sl, .dh] s (callService s n k) := by
  unfold callService
  repeat' first
    | decide
    | with_reducible exact Follows.refl ..
    | with_reducible apply beginInstr_follows
    | with_reducible apply Follows.after (sysEntry_follows ..)
    | with_reducible apply Follows.foldl
    | split
    | dsimp only
    | intro _

theorem execYieldService_follows (core : Fin 8) (s : State) :
    Leads [.out, .basin, .weir, .staging, .intc, .pcie, .fw, .tp, .sl, .dh] s (execYieldService core s) := by
  unfold execYieldService
  repeat' first
    | decide
    | with_reducible exact Follows.refl ..
    | with_reducible apply Leads.next
    | with_reducible apply Follows.after (callService_follows ..)
    | with_reducible apply Follows.foldl
    | split
    | dsimp only
    | with_reducible exact Leads.refused _ _ _
    | intro _

theorem execWaitService_follows (core : Fin 8) (s : State) :
    Leads [.out, .basin, .weir, .staging, .intc, .pcie, .fw, .tp, .sl, .dh] s (execWaitService core s) := by
  unfold execWaitService
  repeat' first
    | decide
    | with_reducible exact Follows.refl ..
    | with_reducible apply Leads.next
    | with_reducible apply Follows.after (callService_follows ..)
    | with_reducible apply Follows.foldl
    | split
    | dsimp only
    | with_reducible exact Leads.refused _ _ _
    | intro _

theorem execPostService_follows (core : Fin 8) (s : State) :
    Leads [.out, .basin, .weir, .staging, .intc, .pcie, .fw, .tp, .sl, .dh] s (execPostService core s) := by
  unfold execPostService
  repeat' first
    | decide
    | with_reducible exact Follows.refl ..
    | with_reducible apply Leads.next
    | with_reducible apply Follows.after (callService_follows ..)
    | with_reducible apply Follows.foldl
    | split
    | dsimp only
    | with_reducible exact Leads.refused _ _ _
    | intro _

theorem execLockService_follows (core : Fin 8) (s : State) :
    Leads [.out, .basin, .weir, .staging, .intc, .pcie, .fw, .tp, .sl, .dh] s (execLockService core s) := by
  unfold execLockService
  repeat' first
    | decide
    | with_reducible exact Follows.refl ..
    | with_reducible apply Leads.next
    | with_reducible apply Follows.after (callService_follows ..)
    | with_reducible apply Follows.foldl
    | split
    | dsimp only
    | with_reducible exact Leads.refused _ _ _
    | intro _

theorem execUnlockService_follows (core : Fin 8) (s : State) :
    Leads [.out, .basin, .weir, .staging, .intc, .pcie, .fw, .tp, .sl, .dh] s (execUnlockService core s) := by
  unfold execUnlockService
  repeat' first
    | decide
    | with_reducible exact Follows.refl ..
    | with_reducible apply Leads.next
    | with_reducible apply Follows.after (callService_follows ..)
    | with_reducible apply Follows.foldl
    | split
    | dsimp only
    | with_reducible exact Leads.refused _ _ _
    | intro _

theorem execSleepService_follows (core : Fin 8) (s : State) :
    Leads [.out, .basin, .weir, .staging, .intc, .pcie, .fw, .tp, .sl, .dh] s (execSleepService core s) := by
  unfold execSleepService
  repeat' first
    | decide
    | with_reducible exact Follows.refl ..
    | with_reducible apply Leads.next
    | with_reducible apply Follows.after (callService_follows ..)
    | with_reducible apply Follows.foldl
    | split
    | dsimp only
    | with_reducible exact Leads.refused _ _ _
    | intro _

theorem execExitTask_follows (core : Fin 8) (s : State) :
    Leads [.out, .basin, .weir, .staging, .intc, .pcie, .fw, .tp, .sl, .dh] s (execExitTask core s) := by
  unfold execExitTask
  repeat' first
    | decide
    | with_reducible exact Follows.refl ..
    | with_reducible apply Leads.next
    | with_reducible apply Follows.after (callService_follows ..)
    | with_reducible apply Follows.foldl
    | split
    | dsimp only
    | with_reducible exact Leads.refused _ _ _
    | intro _

theorem pollLocks_follows (s : State) (n : Nat) :
    Follows [.out, .basin, .weir, .staging, .intc, .pcie, .fw, .dh] s (pollLocks s n) := by
  unfold pollLocks
  repeat' first
    | decide
    | with_reducible exact Follows.refl ..
    | with_reducible apply Follows.after (readyTask_follows ..)
    | with_reducible apply Follows.after (lockTry_follows ..)
    | with_reducible apply Follows.foldl
    | with_reducible apply Follows.foldlFst
    | split
    | dsimp only
    | with_reducible refine Follows.fst (by assumption) ?_
    | intro _

theorem execLockPoll_follows (core : Fin 8) (s : State) :
    Leads [.out, .basin, .weir, .staging, .intc, .pcie, .fw, .tp, .sl, .dh] s (execLockPoll core s) := by
  unfold execLockPoll
  repeat' first
    | decide
    | with_reducible exact Follows.refl ..
    | with_reducible apply Leads.next
    | with_reducible apply Follows.after (reschedule_follows ..)
    | with_reducible apply Follows.after (pollLocks_follows ..)
    | with_reducible apply Follows.foldl
    | split
    | dsimp only
    | with_reducible exact Leads.refused _ _ _
    | intro _

theorem execSleepExpiry_follows (core : Fin 8) (s : State) :
    Leads [.tick, .out, .basin, .weir, .staging, .intc, .pcie, .fw, .tp, .sl, .dh] s (execSleepExpiry core s) := by
  unfold execSleepExpiry
  repeat' first
    | decide
    | with_reducible exact Follows.refl ..
    | with_reducible apply Leads.next
    | with_reducible apply Follows.after (atTick_follows ..)
    | with_reducible apply Follows.after (readyTask_follows ..)
    | with_reducible apply Follows.after (reschedule_follows ..)
    | with_reducible apply Follows.foldl
    | split
    | dsimp only
    | with_reducible exact Leads.refused _ _ _
    | intro _

theorem execBudgetExpiry_follows (core : Fin 8) (s : State) :
    Leads [.tick, .out, .basin, .weir, .staging, .intc, .pcie, .fw, .tp, .sl, .dh] s (execBudgetExpiry core s) := by
  unfold execBudgetExpiry
  repeat' first
    | decide
    | with_reducible exact Follows.refl ..
    | with_reducible apply Leads.next
    | with_reducible apply Follows.after (atTick_follows ..)
    | with_reducible apply Follows.after (exception_follows ..)
    | with_reducible apply Follows.foldl
    | split
    | dsimp only
    | with_reducible exact Leads.refused _ _ _
    | intro _

theorem execDhTimerMatch_follows (core : Fin 8) (s : State) :
    Leads [.tick, .intc] s (execDhTimerMatch core s) := by
  unfold execDhTimerMatch
  repeat' first
    | decide
    | with_reducible exact Follows.refl ..
    | with_reducible apply Leads.next
    | with_reducible apply Follows.after (raisePriv_follows ..)
    | with_reducible apply Follows.after (atTick_follows ..)
    | with_reducible apply Follows.foldl
    | split
    | dsimp only
    | with_reducible exact Leads.refused _ _ _
    | intro _

theorem heartbeat_follows (s : State) (n : Nat) :
    Follows [.dh] s (heartbeat s n) := by
  unfold heartbeat
  repeat' first
    | decide
    | with_reducible exact Follows.refl ..
    | with_reducible apply Follows.after (updCore_follows ..)
    | with_reducible apply Follows.foldl
    | split
    | dsimp only
    | intro _

theorem execDhHeart_follows (agent : Agent) (core : Fin 8) (s : State) :
    Leads [.fresh, .out, .sys, .dh] s (execDhHeart agent core s) := by
  unfold execDhHeart
  repeat' first
    | decide
    | with_reducible exact Follows.refl ..
    | with_reducible apply Leads.next
    | with_reducible apply reach_follows
    | with_reducible apply Follows.after (heartbeat_follows ..)
    | with_reducible apply Follows.foldl
    | split
    | dsimp only
    | with_reducible exact Leads.refused _ _ _
    | intro _

theorem deckBoot_follows (s : State) (n : Nat) :
    Follows [.intc, .dh] s (deckBoot s n) := by
  unfold deckBoot
  repeat' first
    | decide
    | with_reducible exact Follows.refl ..
    | with_reducible apply Follows.after (updPriv_follows ..)
    | with_reducible apply Follows.after (updCore_follows ..)
    | with_reducible apply Follows.foldl
    | split
    | dsimp only
    | intro _

theorem putCode_follows (s : State) (n : Nat) (cell : Nat) (a1 : List Cell) :
    Follows [.dh] s (putCode s n cell a1) := by
  fun_induction putCode s n cell a1 <;> repeat' first
    | decide
    | with_reducible exact Follows.refl ..
    | with_reducible apply Follows.after (onDh_follows ..)
    | with_reducible refine Follows.trans ?_ (by assumption)
    | with_reducible apply Follows.foldl
    | split
    | dsimp only
    | intro _

theorem startTask_follows (s : State) (i : Nat) :
    Follows [.dh] s (startTask s i) := by
  unfold startTask
  repeat' first
    | decide
    | with_reducible exact Follows.refl ..
    | with_reducible apply Follows.after (setTask_follows ..)
    | with_reducible apply Follows.after (readyTask_follows ..)
    | with_reducible apply Follows.foldl
    | split
    | dsimp only
    | intro _

theorem deckHold_follows (s : State) :
    Follows [.out, .basin, .weir, .staging, .intc, .pcie, .fw, .tp, .sl, .dh] s (deckHold s) := by
  unfold deckHold
  repeat' first
    | decide
    | with_reducible exact Follows.refl ..
    | with_reducible apply Follows.after (updCore_follows ..)
    | with_reducible apply Follows.after (kernelExit_follows ..)
    | with_reducible apply Follows.foldl
    | split
    | dsimp only
    | intro _

theorem discardBank_follows (s : State) (n : Nat) :
    Follows [.intc] s (discardBank s n) := by
  unfold discardBank
  repeat' first
    | decide
    | with_reducible exact Follows.refl ..
    | with_reducible apply Follows.after (updPriv_follows ..)
    | with_reducible apply Follows.foldl
    | split
    | dsimp only
    | intro _

theorem deckUnhold_follows (s : State) :
    Follows [.out, .basin, .weir, .staging, .intc, .pcie, .fw, .tp, .sl, .dh] s (deckUnhold s) := by
  unfold deckUnhold
  repeat' first
    | decide
    | with_reducible exact Follows.refl ..
    | with_reducible apply Follows.after (onDh_follows ..)
    | with_reducible apply Follows.after (reschedule_follows ..)
    | with_reducible apply Follows.after (discardBank_follows ..)
    | with_reducible apply Follows.foldl
    | split
    | dsimp only
    | intro _

/-! ### Operands -/

theorem loadData_follows (s : State) (n : Nat) (e : Word) (z : Size) :
    Follows [.basin, .staging, .intc, .fw] s (loadData s n e z).1 := by
  unfold loadData
  repeat' first
    | decide
    | with_reducible exact Follows.refl ..
    | with_reducible apply Follows.after (readReq_follows ..)
    | with_reducible apply Follows.foldl
    | with_reducible apply Follows.foldlFst
    | split
    | dsimp only
    | with_reducible refine Follows.fst (by assumption) ?_
    | intro _

theorem storeData_follows (s : State) (n : Nat) (e : Word) (z : Size) (v : Nat) :
    Follows [.out, .basin, .staging, .intc, .pcie, .fw, .dh] s (storeData s n e z v) := by
  unfold storeData
  repeat' first
    | decide
    | with_reducible exact Follows.refl ..
    | with_reducible apply Follows.after (writeReq_follows ..)
    | with_reducible apply Follows.after (updCore_follows ..)
    | with_reducible apply Follows.foldl
    | with_reducible apply Follows.foldlFst
    | split
    | dsimp only
    | with_reducible refine Follows.fst (by assumption) ?_
    | intro _

theorem regInstr_follows (s : State) (n : Nat) (len : Nat) (f : Core → Core) :
    Follows [.out, .basin, .weir, .staging, .intc, .pcie, .fw, .tp, .sl, .dh] s (regInstr s n len f) := by
  unfold regInstr
  repeat' first
    | decide
    | with_reducible exact Follows.refl ..
    | with_reducible apply beginInstr_follows
    | with_reducible apply Follows.after (updCore_follows ..)
    | with_reducible apply Follows.foldl
    | split
    | dsimp only
    | intro _

theorem privInstr_follows {l : List Part} {s t : State} (n len : Nat) (f : State → State)
    (hl : ∀ x ∈ [.out, .basin, .weir, .staging, .intc, .pcie, .fw, .tp, .sl, .dh], x ∈ l) (h : ∀ u, Follows l u (f u)) (g : Follows l s t) :
    Follows l s (privInstr t n len f) := by
  refine beginInstr_follows n len _ hl (fun u => ?_) g
  dsimp only
  split
  · exact (exception_follows ..).mono hl
  · exact h u

/-! ### Ceing -/

theorem execNopInstr_follows (core : Fin 8) (s : State) :
    Leads [.out, .basin, .weir, .staging, .intc, .pcie, .fw, .tp, .sl, .dh] s (execNopInstr core s) := by
  unfold execNopInstr
  repeat' first
    | decide
    | with_reducible exact Follows.refl ..
    | with_reducible apply Leads.next
    | with_reducible apply Follows.after (regInstr_follows ..)
    | with_reducible apply Follows.foldl
    | split
    | dsimp only
    | with_reducible exact Leads.refused _ _ _
    | intro _

theorem execSync_follows (core : Fin 8) (s : State) :
    Leads [.out, .basin, .weir, .staging, .intc, .pcie, .fw, .tp, .sl, .dh] s (execSync core s) := by
  unfold execSync
  repeat' first
    | decide
    | with_reducible exact Follows.refl ..
    | with_reducible apply Leads.next
    | with_reducible apply beginInstr_follows
    | with_reducible apply Follows.after (updCore_follows ..)
    | with_reducible apply Follows.after (exception_follows ..)
    | with_reducible apply Follows.foldl
    | split
    | dsimp only
    | with_reducible exact Leads.refused _ _ _
    | intro _

theorem execReti_follows (core : Fin 8) (s : State) :
    Leads [.out, .basin, .weir, .staging, .intc, .pcie, .fw, .tp, .sl, .dh] s (execReti core s) := by
  unfold execReti
  repeat' first
    | decide
    | with_reducible exact Follows.refl ..
    | with_reducible apply Leads.next
    | with_reducible apply privInstr_follows
    | with_reducible apply Follows.after (updCore_follows ..)
    | with_reducible apply Follows.foldl
    | split
    | dsimp only
    | with_reducible exact Leads.refused _ _ _
    | intro _

theorem execWfi_follows (core : Fin 8) (s : State) :
    Leads [.out, .basin, .weir, .staging, .intc, .pcie, .fw, .tp, .sl, .dh] s (execWfi core s) := by
  unfold execWfi
  repeat' first
    | decide
    | with_reducible exact Follows.refl ..
    | with_reducible apply Leads.next
    | with_reducible apply privInstr_follows
    | with_reducible apply Follows.after (updCore_follows ..)
    | with_reducible apply Follows.foldl
    | split
    | dsimp only
    | with_reducible exact Leads.refused _ _ _
    | intro _

theorem execCli_follows (core : Fin 8) (s : State) :
    Leads [.out, .basin, .weir, .staging, .intc, .pcie, .fw, .tp, .sl, .dh] s (execCli core s) := by
  unfold execCli
  repeat' first
    | decide
    | with_reducible exact Follows.refl ..
    | with_reducible apply Leads.next
    | with_reducible apply Follows.after (regInstr_follows ..)
    | with_reducible apply Follows.foldl
    | split
    | dsimp only
    | with_reducible exact Leads.refused _ _ _
    | intro _

theorem execSti_follows (core : Fin 8) (s : State) :
    Leads [.out, .basin, .weir, .staging, .intc, .pcie, .fw, .tp, .sl, .dh] s (execSti core s) := by
  unfold execSti
  repeat' first
    | decide
    | with_reducible exact Follows.refl ..
    | with_reducible apply Leads.next
    | with_reducible apply Follows.after (regInstr_follows ..)
    | with_reducible apply Follows.foldl
    | split
    | dsimp only
    | with_reducible exact Leads.refused _ _ _
    | intro _

theorem execSysCall_follows (core : Fin 8) (k : Fin 64) (s : State) :
    Leads [.out, .basin, .weir, .staging, .intc, .pcie, .fw, .tp, .sl, .dh] s (execSysCall core k s) := by
  unfold execSysCall
  repeat' first
    | decide
    | with_reducible exact Follows.refl ..
    | with_reducible apply Leads.next
    | with_reducible apply Follows.after (callService_follows ..)
    | with_reducible apply Follows.foldl
    | split
    | dsimp only
    | with_reducible exact Leads.refused _ _ _
    | intro _

theorem execGetf_follows (core : Fin 8) (rd : Fin 16) (s : State) :
    Leads [.out, .basin, .weir, .staging, .intc, .pcie, .fw, .tp, .sl, .dh] s (execGetf core rd s) := by
  unfold execGetf
  repeat' first
    | decide
    | with_reducible exact Follows.refl ..
    | with_reducible apply Leads.next
    | with_reducible apply Follows.after (regInstr_follows ..)
    | with_reducible apply Follows.foldl
    | split
    | dsimp only
    | with_reducible exact Leads.refused _ _ _
    | intro _

theorem execSetf_follows (core : Fin 8) (rs : Fin 16) (s : State) :
    Leads [.out, .basin, .weir, .staging, .intc, .pcie, .fw, .tp, .sl, .dh] s (execSetf core rs s) := by
  unfold execSetf
  repeat' first
    | decide
    | with_reducible exact Follows.refl ..
    | with_reducible apply Leads.next
    | with_reducible apply Follows.after (regInstr_follows ..)
    | with_reducible apply Follows.foldl
    | split
    | dsimp only
    | with_reducible exact Leads.refused _ _ _
    | intro _

theorem execJr_follows (core : Fin 8) (rs : Fin 16) (s : State) :
    Leads [.out, .basin, .weir, .staging, .intc, .pcie, .fw, .tp, .sl, .dh] s (execJr core rs s) := by
  unfold execJr
  repeat' first
    | decide
    | with_reducible exact Follows.refl ..
    | with_reducible apply Leads.next
    | with_reducible apply Follows.after (regInstr_follows ..)
    | with_reducible apply Follows.foldl
    | split
    | dsimp only
    | with_reducible exact Leads.refused _ _ _
    | intro _

theorem execCallr_follows (core : Fin 8) (rs : Fin 16) (s : State) :
    Leads [.out, .basin, .weir, .staging, .intc, .pcie, .fw, .tp, .sl, .dh] s (execCallr core rs s) := by
  unfold execCallr
  repeat' first
    | decide
    | with_reducible exact Follows.refl ..
    | with_reducible apply Leads.next
    | with_reducible apply Follows.after (regInstr_follows ..)
    | with_reducible apply Follows.foldl
    | split
    | dsimp only
    | with_reducible exact Leads.refused _ _ _
    | intro _

theorem execAdr_follows (core : Fin 8) (rd : Fin 16) (rel : Cell) (s : State) :
    Leads [.out, .basin, .weir, .staging, .intc, .pcie, .fw, .tp, .sl, .dh] s (execAdr core rd rel s) := by
  unfold execAdr
  repeat' first
    | decide
    | with_reducible exact Follows.refl ..
    | with_reducible apply Leads.next
    | with_reducible apply Follows.after (regInstr_follows ..)
    | with_reducible apply Follows.foldl
    | split
    | dsimp only
    | with_reducible exact Leads.refused _ _ _
    | intro _

theorem aluReg_follows (k : Alu) (s : State) (core : Fin 8) (rd : Fin 16) (rs : Fin 16) :
    Follows [.out, .basin, .weir, .staging, .intc, .pcie, .fw, .tp, .sl, .dh] s (aluReg k s core rd rs) := by
  unfold aluReg
  repeat' first
    | decide
    | with_reducible exact Follows.refl ..
    | with_reducible apply Follows.after (regInstr_follows ..)
    | with_reducible apply Follows.foldl
    | split
    | dsimp only
    | intro _

theorem aluImm_follows (k : Alu) (s : State) (core : Fin 8) (rd : Fin 16) (x : Cell) :
    Follows [.out, .basin, .weir, .staging, .intc, .pcie, .fw, .tp, .sl, .dh] s (aluImm k s core rd x) := by
  unfold aluImm
  repeat' first
    | decide
    | with_reducible exact Follows.refl ..
    | with_reducible apply Follows.after (regInstr_follows ..)
    | with_reducible apply Follows.foldl
    | split
    | dsimp only
    | intro _

theorem execMovReg_follows (core : Fin 8) (rd : Fin 16) (rs : Fin 16) (s : State) :
    Leads [.out, .basin, .weir, .staging, .intc, .pcie, .fw, .tp, .sl, .dh] s (execMovReg core rd rs s) := by
  unfold execMovReg
  repeat' first
    | decide
    | with_reducible exact Follows.refl ..
    | with_reducible apply Leads.next
    | with_reducible apply Follows.after (aluReg_follows ..)
    | with_reducible apply Follows.foldl
    | split
    | dsimp only
    | with_reducible exact Leads.refused _ _ _
    | intro _

theorem execAddReg_follows (core : Fin 8) (rd : Fin 16) (rs : Fin 16) (s : State) :
    Leads [.out, .basin, .weir, .staging, .intc, .pcie, .fw, .tp, .sl, .dh] s (execAddReg core rd rs s) := by
  unfold execAddReg
  repeat' first
    | decide
    | with_reducible exact Follows.refl ..
    | with_reducible apply Leads.next
    | with_reducible apply Follows.after (aluReg_follows ..)
    | with_reducible apply Follows.foldl
    | split
    | dsimp only
    | with_reducible exact Leads.refused _ _ _
    | intro _

theorem execAdcReg_follows (core : Fin 8) (rd : Fin 16) (rs : Fin 16) (s : State) :
    Leads [.out, .basin, .weir, .staging, .intc, .pcie, .fw, .tp, .sl, .dh] s (execAdcReg core rd rs s) := by
  unfold execAdcReg
  repeat' first
    | decide
    | with_reducible exact Follows.refl ..
    | with_reducible apply Leads.next
    | with_reducible apply Follows.after (aluReg_follows ..)
    | with_reducible apply Follows.foldl
    | split
    | dsimp only
    | with_reducible exact Leads.refused _ _ _
    | intro _

theorem execSubReg_follows (core : Fin 8) (rd : Fin 16) (rs : Fin 16) (s : State) :
    Leads [.out, .basin, .weir, .staging, .intc, .pcie, .fw, .tp, .sl, .dh] s (execSubReg core rd rs s) := by
  unfold execSubReg
  repeat' first
    | decide
    | with_reducible exact Follows.refl ..
    | with_reducible apply Leads.next
    | with_reducible apply Follows.after (aluReg_follows ..)
    | with_reducible apply Follows.foldl
    | split
    | dsimp only
    | with_reducible exact Leads.refused _ _ _
    | intro _

theorem execSbcReg_follows (core : Fin 8) (rd : Fin 16) (rs : Fin 16) (s : State) :
    Leads [.out, .basin, .weir, .staging, .intc, .pcie, .fw, .tp, .sl, .dh] s (execSbcReg core rd rs s) := by
  unfold execSbcReg
  repeat' first
    | decide
    | with_reducible exact Follows.refl ..
    | with_reducible apply Leads.next
    | with_reducible apply Follows.after (aluReg_follows ..)
    | with_reducible apply Follows.foldl
    | split
    | dsimp only
    | with_reducible exact Leads.refused _ _ _
    | intro _

theorem execAndReg_follows (core : Fin 8) (rd : Fin 16) (rs : Fin 16) (s : State) :
    Leads [.out, .basin, .weir, .staging, .intc, .pcie, .fw, .tp, .sl, .dh] s (execAndReg core rd rs s) := by
  unfold execAndReg
  repeat' first
    | decide
    | with_reducible exact Follows.refl ..
    | with_reducible apply Leads.next
    | with_reducible apply Follows.after (aluReg_follows ..)
    | with_reducible apply Follows.foldl
    | split
    | dsimp only
    | with_reducible exact Leads.refused _ _ _
    | intro _

theorem execOrReg_follows (core : Fin 8) (rd : Fin 16) (rs : Fin 16) (s : State) :
    Leads [.out, .basin, .weir, .staging, .intc, .pcie, .fw, .tp, .sl, .dh] s (execOrReg core rd rs s) := by
  unfold execOrReg
  repeat' first
    | decide
    | with_reducible exact Follows.refl ..
    | with_reducible apply Leads.next
    | with_reducible apply Follows.after (aluReg_follows ..)
    | with_reducible apply Follows.foldl
    | split
    | dsimp only
    | with_reducible exact Leads.refused _ _ _
    | intro _

theorem execXorReg_follows (core : Fin 8) (rd : Fin 16) (rs : Fin 16) (s : State) :
    Leads [.out, .basin, .weir, .staging, .intc, .pcie, .fw, .tp, .sl, .dh] s (execXorReg core rd rs s) := by
  unfold execXorReg
  repeat' first
    | decide
    | with_reducible exact Follows.refl ..
    | with_reducible apply Leads.next
    | with_reducible apply Follows.after (aluReg_follows ..)
    | with_reducible apply Follows.foldl
    | split
    | dsimp only
    | with_reducible exact Leads.refused _ _ _
    | intro _

theorem execCmpReg_follows (core : Fin 8) (rd : Fin 16) (rs : Fin 16) (s : State) :
    Leads [.out, .basin, .weir, .staging, .intc, .pcie, .fw, .tp, .sl, .dh] s (execCmpReg core rd rs s) := by
  unfold execCmpReg
  repeat' first
    | decide
    | with_reducible exact Follows.refl ..
    | with_reducible apply Leads.next
    | with_reducible apply Follows.after (aluReg_follows ..)
    | with_reducible apply Follows.foldl
    | split
    | dsimp only
    | with_reducible exact Leads.refused _ _ _
    | intro _

theorem execTstReg_follows (core : Fin 8) (rd : Fin 16) (rs : Fin 16) (s : State) :
    Leads [.out, .basin, .weir, .staging, .intc, .pcie, .fw, .tp, .sl, .dh] s (execTstReg core rd rs s) := by
  unfold execTstReg
  repeat' first
    | decide
    | with_reducible exact Follows.refl ..
    | with_reducible apply Leads.next
    | with_reducible apply Follows.after (aluReg_follows ..)
    | with_reducible apply Follows.foldl
    | split
    | dsimp only
    | with_reducible exact Leads.refused _ _ _
    | intro _

theorem execMovi_follows (core : Fin 8) (rd : Fin 16) (x : Cell) (s : State) :
    Leads [.out, .basin, .weir, .staging, .intc, .pcie, .fw, .tp, .sl, .dh] s (execMovi core rd x s) := by
  unfold execMovi
  repeat' first
    | decide
    | with_reducible exact Follows.refl ..
    | with_reducible apply Leads.next
    | with_reducible apply Follows.after (aluImm_follows ..)
    | with_reducible apply Follows.foldl
    | split
    | dsimp only
    | with_reducible exact Leads.refused _ _ _
    | intro _

theorem execAddi_follows (core : Fin 8) (rd : Fin 16) (x : Cell) (s : State) :
    Leads [.out, .basin, .weir, .staging, .intc, .pcie, .fw, .tp, .sl, .dh] s (execAddi core rd x s) := by
  unfold execAddi
  repeat' first
    | decide
    | with_reducible exact Follows.refl ..
    | with_reducible apply Leads.next
    | with_reducible apply Follows.after (aluImm_follows ..)
    | with_reducible apply Follows.foldl
    | split
    | dsimp only
    | with_reducible exact Leads.refused _ _ _
    | intro _

theorem execSubi_follows (core : Fin 8) (rd : Fin 16) (x : Cell) (s : State) :
    Leads [.out, .basin, .weir, .staging, .intc, .pcie, .fw, .tp, .sl, .dh] s (execSubi core rd x s) := by
  unfold execSubi
  repeat' first
    | decide
    | with_reducible exact Follows.refl ..
    | with_reducible apply Leads.next
    | with_reducible apply Follows.after (aluImm_follows ..)
    | with_reducible apply Follows.foldl
    | split
    | dsimp only
    | with_reducible exact Leads.refused _ _ _
    | intro _

theorem execAndi_follows (core : Fin 8) (rd : Fin 16) (x : Cell) (s : State) :
    Leads [.out, .basin, .weir, .staging, .intc, .pcie, .fw, .tp, .sl, .dh] s (execAndi core rd x s) := by
  unfold execAndi
  repeat' first
    | decide
    | with_reducible exact Follows.refl ..
    | with_reducible apply Leads.next
    | with_reducible apply Follows.after (aluImm_follows ..)
    | with_reducible apply Follows.foldl
    | split
    | dsimp only
    | with_reducible exact Leads.refused _ _ _
    | intro _

theorem execOri_follows (core : Fin 8) (rd : Fin 16) (x : Cell) (s : State) :
    Leads [.out, .basin, .weir, .staging, .intc, .pcie, .fw, .tp, .sl, .dh] s (execOri core rd x s) := by
  unfold execOri
  repeat' first
    | decide
    | with_reducible exact Follows.refl ..
    | with_reducible apply Leads.next
    | with_reducible apply Follows.after (aluImm_follows ..)
    | with_reducible apply Follows.foldl
    | split
    | dsimp only
    | with_reducible exact Leads.refused _ _ _
    | intro _

theorem execXori_follows (core : Fin 8) (rd : Fin 16) (x : Cell) (s : State) :
    Leads [.out, .basin, .weir, .staging, .intc, .pcie, .fw, .tp, .sl, .dh] s (execXori core rd x s) := by
  unfold execXori
  repeat' first
    | decide
    | with_reducible exact Follows.refl ..
    | with_reducible apply Leads.next
    | with_reducible apply Follows.after (aluImm_follows ..)
    | with_reducible apply Follows.foldl
    | split
    | dsimp only
    | with_reducible exact Leads.refused _ _ _
    | intro _

theorem execCmpi_follows (core : Fin 8) (rd : Fin 16) (x : Cell) (s : State) :
    Leads [.out, .basin, .weir, .staging, .intc, .pcie, .fw, .tp, .sl, .dh] s (execCmpi core rd x s) := by
  unfold execCmpi
  repeat' first
    | decide
    | with_reducible exact Follows.refl ..
    | with_reducible apply Leads.next
    | with_reducible apply Follows.after (aluImm_follows ..)
    | with_reducible apply Follows.foldl
    | split
    | dsimp only
    | with_reducible exact Leads.refused _ _ _
    | intro _

theorem execTsti_follows (core : Fin 8) (rd : Fin 16) (x : Cell) (s : State) :
    Leads [.out, .basin, .weir, .staging, .intc, .pcie, .fw, .tp, .sl, .dh] s (execTsti core rd x s) := by
  unfold execTsti
  repeat' first
    | decide
    | with_reducible exact Follows.refl ..
    | with_reducible apply Leads.next
    | with_reducible apply Follows.after (aluImm_follows ..)
    | with_reducible apply Follows.foldl
    | split
    | dsimp only
    | with_reducible exact Leads.refused _ _ _
    | intro _

theorem shiftImm_follows (k : Shift) (s : State) (core : Fin 8) (rd : Fin 16) (n : Fin 16) :
    Follows [.out, .basin, .weir, .staging, .intc, .pcie, .fw, .tp, .sl, .dh] s (shiftImm k s core rd n) := by
  unfold shiftImm
  repeat' first
    | decide
    | with_reducible exact Follows.refl ..
    | with_reducible apply Follows.after (regInstr_follows ..)
    | with_reducible apply Follows.foldl
    | split
    | dsimp only
    | intro _

theorem shiftReg_follows (k : Shift) (s : State) (core : Fin 8) (rd : Fin 16) (rs : Fin 16) :
    Follows [.out, .basin, .weir, .staging, .intc, .pcie, .fw, .tp, .sl, .dh] s (shiftReg k s core rd rs) := by
  unfold shiftReg
  repeat' first
    | decide
    | with_reducible exact Follows.refl ..
    | with_reducible apply Follows.after (regInstr_follows ..)
    | with_reducible apply Follows.foldl
    | split
    | dsimp only
    | intro _

theorem execShl_follows (core : Fin 8) (rd : Fin 16) (k : Fin 16) (s : State) :
    Leads [.out, .basin, .weir, .staging, .intc, .pcie, .fw, .tp, .sl, .dh] s (execShl core rd k s) := by
  unfold execShl
  repeat' first
    | decide
    | with_reducible exact Follows.refl ..
    | with_reducible apply Leads.next
    | with_reducible apply Follows.after (shiftImm_follows ..)
    | with_reducible apply Follows.foldl
    | split
    | dsimp only
    | with_reducible exact Leads.refused _ _ _
    | intro _

theorem execShr_follows (core : Fin 8) (rd : Fin 16) (k : Fin 16) (s : State) :
    Leads [.out, .basin, .weir, .staging, .intc, .pcie, .fw, .tp, .sl, .dh] s (execShr core rd k s) := by
  unfold execShr
  repeat' first
    | decide
    | with_reducible exact Follows.refl ..
    | with_reducible apply Leads.next
    | with_reducible apply Follows.after (shiftImm_follows ..)
    | with_reducible apply Follows.foldl
    | split
    | dsimp only
    | with_reducible exact Leads.refused _ _ _
    | intro _

theorem execSar_follows (core : Fin 8) (rd : Fin 16) (k : Fin 16) (s : State) :
    Leads [.out, .basin, .weir, .staging, .intc, .pcie, .fw, .tp, .sl, .dh] s (execSar core rd k s) := by
  unfold execSar
  repeat' first
    | decide
    | with_reducible exact Follows.refl ..
    | with_reducible apply Leads.next
    | with_reducible apply Follows.after (shiftImm_follows ..)
    | with_reducible apply Follows.foldl
    | split
    | dsimp only
    | with_reducible exact Leads.refused _ _ _
    | intro _

theorem execRol_follows (core : Fin 8) (rd : Fin 16) (k : Fin 16) (s : State) :
    Leads [.out, .basin, .weir, .staging, .intc, .pcie, .fw, .tp, .sl, .dh] s (execRol core rd k s) := by
  unfold execRol
  repeat' first
    | decide
    | with_reducible exact Follows.refl ..
    | with_reducible apply Leads.next
    | with_reducible apply Follows.after (shiftImm_follows ..)
    | with_reducible apply Follows.foldl
    | split
    | dsimp only
    | with_reducible exact Leads.refused _ _ _
    | intro _

theorem execRor_follows (core : Fin 8) (rd : Fin 16) (k : Fin 16) (s : State) :
    Leads [.out, .basin, .weir, .staging, .intc, .pcie, .fw, .tp, .sl, .dh] s (execRor core rd k s) := by
  unfold execRor
  repeat' first
    | decide
    | with_reducible exact Follows.refl ..
    | with_reducible apply Leads.next
    | with_reducible apply Follows.after (shiftImm_follows ..)
    | with_reducible apply Follows.foldl
    | split
    | dsimp only
    | with_reducible exact Leads.refused _ _ _
    | intro _

theorem execShlReg_follows (core : Fin 8) (rd : Fin 16) (rs : Fin 16) (s : State) :
    Leads [.out, .basin, .weir, .staging, .intc, .pcie, .fw, .tp, .sl, .dh] s (execShlReg core rd rs s) := by
  unfold execShlReg
  repeat' first
    | decide
    | with_reducible exact Follows.refl ..
    | with_reducible apply Leads.next
    | with_reducible apply Follows.after (shiftReg_follows ..)
    | with_reducible apply Follows.foldl
    | split
    | dsimp only
    | with_reducible exact Leads.refused _ _ _
    | intro _

theorem execShrReg_follows (core : Fin 8) (rd : Fin 16) (rs : Fin 16) (s : State) :
    Leads [.out, .basin, .weir, .staging, .intc, .pcie, .fw, .tp, .sl, .dh] s (execShrReg core rd rs s) := by
  unfold execShrReg
  repeat' first
    | decide
    | with_reducible exact Follows.refl ..
    | with_reducible apply Leads.next
    | with_reducible apply Follows.after (shiftReg_follows ..)
    | with_reducible apply Follows.foldl
    | split
    | dsimp only
    | with_reducible exact Leads.refused _ _ _
    | intro _

theorem execSarReg_follows (core : Fin 8) (rd : Fin 16) (rs : Fin 16) (s : State) :
    Leads [.out, .basin, .weir, .staging, .intc, .pcie, .fw, .tp, .sl, .dh] s (execSarReg core rd rs s) := by
  unfold execSarReg
  repeat' first
    | decide
    | with_reducible exact Follows.refl ..
    | with_reducible apply Leads.next
    | with_reducible apply Follows.after (shiftReg_follows ..)
    | with_reducible apply Follows.foldl
    | split
    | dsimp only
    | with_reducible exact Leads.refused _ _ _
    | intro _

theorem execRolReg_follows (core : Fin 8) (rd : Fin 16) (rs : Fin 16) (s : State) :
    Leads [.out, .basin, .weir, .staging, .intc, .pcie, .fw, .tp, .sl, .dh] s (execRolReg core rd rs s) := by
  unfold execRolReg
  repeat' first
    | decide
    | with_reducible exact Follows.refl ..
    | with_reducible apply Leads.next
    | with_reducible apply Follows.after (shiftReg_follows ..)
    | with_reducible apply Follows.foldl
    | split
    | dsimp only
    | with_reducible exact Leads.refused _ _ _
    | intro _

theorem execRorReg_follows (core : Fin 8) (rd : Fin 16) (rs : Fin 16) (s : State) :
    Leads [.out, .basin, .weir, .staging, .intc, .pcie, .fw, .tp, .sl, .dh] s (execRorReg core rd rs s) := by
  unfold execRorReg
  repeat' first
    | decide
    | with_reducible exact Follows.refl ..
    | with_reducible apply Leads.next
    | with_reducible apply Follows.after (shiftReg_follows ..)
    | with_reducible apply Follows.foldl
    | split
    | dsimp only
    | with_reducible exact Leads.refused _ _ _
    | intro _

theorem execNegReg_follows (core : Fin 8) (rd : Fin 16) (s : State) :
    Leads [.out, .basin, .weir, .staging, .intc, .pcie, .fw, .tp, .sl, .dh] s (execNegReg core rd s) := by
  unfold execNegReg
  repeat' first
    | decide
    | with_reducible exact Follows.refl ..
    | with_reducible apply Leads.next
    | with_reducible apply Follows.after (regInstr_follows ..)
    | with_reducible apply Follows.foldl
    | split
    | dsimp only
    | with_reducible exact Leads.refused _ _ _
    | intro _

theorem execNotReg_follows (core : Fin 8) (rd : Fin 16) (s : State) :
    Leads [.out, .basin, .weir, .staging, .intc, .pcie, .fw, .tp, .sl, .dh] s (execNotReg core rd s) := by
  unfold execNotReg
  repeat' first
    | decide
    | with_reducible exact Follows.refl ..
    | with_reducible apply Leads.next
    | with_reducible apply Follows.after (regInstr_follows ..)
    | with_reducible apply Follows.foldl
    | split
    | dsimp only
    | with_reducible exact Leads.refused _ _ _
    | intro _

theorem execSxb_follows (core : Fin 8) (rd : Fin 16) (s : State) :
    Leads [.out, .basin, .weir, .staging, .intc, .pcie, .fw, .tp, .sl, .dh] s (execSxb core rd s) := by
  unfold execSxb
  repeat' first
    | decide
    | with_reducible exact Follows.refl ..
    | with_reducible apply Leads.next
    | with_reducible apply Follows.after (regInstr_follows ..)
    | with_reducible apply Follows.foldl
    | split
    | dsimp only
    | with_reducible exact Leads.refused _ _ _
    | intro _

theorem execSwpb_follows (core : Fin 8) (rd : Fin 16) (s : State) :
    Leads [.out, .basin, .weir, .staging, .intc, .pcie, .fw, .tp, .sl, .dh] s (execSwpb core rd s) := by
  unfold execSwpb
  repeat' first
    | decide
    | with_reducible exact Follows.refl ..
    | with_reducible apply Leads.next
    | with_reducible apply Follows.after (regInstr_follows ..)
    | with_reducible apply Follows.foldl
    | split
    | dsimp only
    | with_reducible exact Leads.refused _ _ _
    | intro _

theorem execAddq_follows (core : Fin 8) (rd : Fin 16) (k : Fin 16) (s : State) :
    Leads [.out, .basin, .weir, .staging, .intc, .pcie, .fw, .tp, .sl, .dh] s (execAddq core rd k s) := by
  unfold execAddq
  repeat' first
    | decide
    | with_reducible exact Follows.refl ..
    | with_reducible apply Leads.next
    | with_reducible apply Follows.after (regInstr_follows ..)
    | with_reducible apply Follows.foldl
    | split
    | dsimp only
    | with_reducible exact Leads.refused _ _ _
    | intro _

theorem execSubq_follows (core : Fin 8) (rd : Fin 16) (k : Fin 16) (s : State) :
    Leads [.out, .basin, .weir, .staging, .intc, .pcie, .fw, .tp, .sl, .dh] s (execSubq core rd k s) := by
  unfold execSubq
  repeat' first
    | decide
    | with_reducible exact Follows.refl ..
    | with_reducible apply Leads.next
    | with_reducible apply Follows.after (regInstr_follows ..)
    | with_reducible apply Follows.foldl
    | split
    | dsimp only
    | with_reducible exact Leads.refused _ _ _
    | intro _

theorem execMovp_follows (core : Fin 8) (k : Fin 8) (j : Fin 8) (s : State) :
    Leads [.out, .basin, .weir, .staging, .intc, .pcie, .fw, .tp, .sl, .dh] s (execMovp core k j s) := by
  unfold execMovp
  repeat' first
    | decide
    | with_reducible exact Follows.refl ..
    | with_reducible apply Leads.next
    | with_reducible apply Follows.after (regInstr_follows ..)
    | with_reducible apply Follows.foldl
    | split
    | dsimp only
    | with_reducible exact Leads.refused _ _ _
    | intro _

theorem execAddp_follows (core : Fin 8) (k : Fin 8) (j : Fin 8) (s : State) :
    Leads [.out, .basin, .weir, .staging, .intc, .pcie, .fw, .tp, .sl, .dh] s (execAddp core k j s) := by
  unfold execAddp
  repeat' first
    | decide
    | with_reducible exact Follows.refl ..
    | with_reducible apply Leads.next
    | with_reducible apply Follows.after (regInstr_follows ..)
    | with_reducible apply Follows.foldl
    | split
    | dsimp only
    | with_reducible exact Leads.refused _ _ _
    | intro _

theorem execSubp_follows (core : Fin 8) (k : Fin 8) (j : Fin 8) (s : State) :
    Leads [.out, .basin, .weir, .staging, .intc, .pcie, .fw, .tp, .sl, .dh] s (execSubp core k j s) := by
  unfold execSubp
  repeat' first
    | decide
    | with_reducible exact Follows.refl ..
    | with_reducible apply Leads.next
    | with_reducible apply Follows.after (regInstr_follows ..)
    | with_reducible apply Follows.foldl
    | split
    | dsimp only
    | with_reducible exact Leads.refused _ _ _
    | intro _

theorem execCmpp_follows (core : Fin 8) (k : Fin 8) (j : Fin 8) (s : State) :
    Leads [.out, .basin, .weir, .staging, .intc, .pcie, .fw, .tp, .sl, .dh] s (execCmpp core k j s) := by
  unfold execCmpp
  repeat' first
    | decide
    | with_reducible exact Follows.refl ..
    | with_reducible apply Leads.next
    | with_reducible apply Follows.after (regInstr_follows ..)
    | with_reducible apply Follows.foldl
    | split
    | dsimp only
    | with_reducible exact Leads.refused _ _ _
    | intro _

theorem execMulu_follows (core : Fin 8) (k : Fin 8) (rs : Fin 16) (s : State) :
    Leads [.out, .basin, .weir, .staging, .intc, .pcie, .fw, .tp, .sl, .dh] s (execMulu core k rs s) := by
  unfold execMulu
  repeat' first
    | decide
    | with_reducible exact Follows.refl ..
    | with_reducible apply Leads.next
    | with_reducible apply Follows.after (regInstr_follows ..)
    | with_reducible apply Follows.foldl
    | split
    | dsimp only
    | with_reducible exact Leads.refused _ _ _
    | intro _

theorem execMuls_follows (core : Fin 8) (k : Fin 8) (rs : Fin 16) (s : State) :
    Leads [.out, .basin, .weir, .staging, .intc, .pcie, .fw, .tp, .sl, .dh] s (execMuls core k rs s) := by
  unfold execMuls
  repeat' first
    | decide
    | with_reducible exact Follows.refl ..
    | with_reducible apply Leads.next
    | with_reducible apply Follows.after (regInstr_follows ..)
    | with_reducible apply Follows.foldl
    | split
    | dsimp only
    | with_reducible exact Leads.refused _ _ _
    | intro _

theorem divide_follows (s : State) (core : Fin 8) (rs : Fin 16) (f : Core → Core) :
    Follows [.out, .basin, .weir, .staging, .intc, .pcie, .fw, .tp, .sl, .dh] s (divide s core rs f) := by
  unfold divide
  repeat' first
    | decide
    | with_reducible exact Follows.refl ..
    | with_reducible apply beginInstr_follows
    | with_reducible apply Follows.after (updCore_follows ..)
    | with_reducible apply Follows.after (exception_follows ..)
    | with_reducible apply Follows.foldl
    | split
    | dsimp only
    | intro _

theorem execDivu_follows (core : Fin 8) (k : Fin 8) (rs : Fin 16) (s : State) :
    Leads [.out, .basin, .weir, .staging, .intc, .pcie, .fw, .tp, .sl, .dh] s (execDivu core k rs s) := by
  unfold execDivu
  repeat' first
    | decide
    | with_reducible exact Follows.refl ..
    | with_reducible apply Leads.next
    | with_reducible apply Follows.after (divide_follows ..)
    | with_reducible apply Follows.foldl
    | split
    | dsimp only
    | with_reducible exact Leads.refused _ _ _
    | intro _

theorem execDivs_follows (core : Fin 8) (k : Fin 8) (rs : Fin 16) (s : State) :
    Leads [.out, .basin, .weir, .staging, .intc, .pcie, .fw, .tp, .sl, .dh] s (execDivs core k rs s) := by
  unfold execDivs
  repeat' first
    | decide
    | with_reducible exact Follows.refl ..
    | with_reducible apply Leads.next
    | with_reducible apply Follows.after (divide_follows ..)
    | with_reducible apply Follows.foldl
    | split
    | dsimp only
    | with_reducible exact Leads.refused _ _ _
    | intro _

theorem execBmov_follows (core : Fin 8) (k : Fin 8) (j : Fin 8) (s : State) :
    Leads [.out, .basin, .weir, .staging, .intc, .pcie, .fw, .tp, .sl, .dh] s (execBmov core k j s) := by
  unfold execBmov
  repeat' first
    | decide
    | with_reducible exact Follows.refl ..
    | with_reducible apply Leads.next
    | with_reducible apply Follows.after (regInstr_follows ..)
    | with_reducible apply Follows.foldl
    | split
    | dsimp only
    | with_reducible exact Leads.refused _ _ _
    | intro _

theorem execBsub_follows (core : Fin 8) (k : Fin 8) (j : Fin 8) (a : Fin 8) (b : Fin 8) (s : State) :
    Leads [.out, .basin, .weir, .staging, .intc, .pcie, .fw, .tp, .sl, .dh] s (execBsub core k j a b s) := by
  unfold execBsub
  repeat' first
    | decide
    | with_reducible exact Follows.refl ..
    | with_reducible apply Leads.next
    | with_reducible apply beginInstr_follows
    | with_reducible apply Follows.after (updCore_follows ..)
    | with_reducible apply Follows.after (exception_follows ..)
    | with_reducible apply Follows.foldl
    | split
    | dsimp only
    | with_reducible exact Leads.refused _ _ _
    | intro _

theorem execBbase_follows (core : Fin 8) (k : Fin 8) (a : Fin 8) (s : State) :
    Leads [.out, .basin, .weir, .staging, .intc, .pcie, .fw, .tp, .sl, .dh] s (execBbase core k a s) := by
  unfold execBbase
  repeat' first
    | decide
    | with_reducible exact Follows.refl ..
    | with_reducible apply Leads.next
    | with_reducible apply Follows.after (regInstr_follows ..)
    | with_reducible apply Follows.foldl
    | split
    | dsimp only
    | with_reducible exact Leads.refused _ _ _
    | intro _

theorem execBadd_follows (core : Fin 8) (k : Fin 8) (a : Fin 8) (s : State) :
    Leads [.out, .basin, .weir, .staging, .intc, .pcie, .fw, .tp, .sl, .dh] s (execBadd core k a s) := by
  unfold execBadd
  repeat' first
    | decide
    | with_reducible exact Follows.refl ..
    | with_reducible apply Leads.next
    | with_reducible apply Follows.after (regInstr_follows ..)
    | with_reducible apply Follows.foldl
    | split
    | dsimp only
    | with_reducible exact Leads.refused _ _ _
    | intro _

theorem execBaddi_follows (core : Fin 8) (k : Fin 8) (x : Cell) (s : State) :
    Leads [.out, .basin, .weir, .staging, .intc, .pcie, .fw, .tp, .sl, .dh] s (execBaddi core k x s) := by
  unfold execBaddi
  repeat' first
    | decide
    | with_reducible exact Follows.refl ..
    | with_reducible apply Leads.next
    | with_reducible apply Follows.after (regInstr_follows ..)
    | with_reducible apply Follows.foldl
    | split
    | dsimp only
    | with_reducible exact Leads.refused _ _ _
    | intro _

theorem execBgetB_follows (core : Fin 8) (a : Fin 8) (k : Fin 8) (s : State) :
    Leads [.out, .basin, .weir, .staging, .intc, .pcie, .fw, .tp, .sl, .dh] s (execBgetB core a k s) := by
  unfold execBgetB
  repeat' first
    | decide
    | with_reducible exact Follows.refl ..
    | with_reducible apply Leads.next
    | with_reducible apply Follows.after (regInstr_follows ..)
    | with_reducible apply Follows.foldl
    | split
    | dsimp only
    | with_reducible exact Leads.refused _ _ _
    | intro _

theorem execBgetF_follows (core : Fin 8) (a : Fin 8) (k : Fin 8) (s : State) :
    Leads [.out, .basin, .weir, .staging, .intc, .pcie, .fw, .tp, .sl, .dh] s (execBgetF core a k s) := by
  unfold execBgetF
  repeat' first
    | decide
    | with_reducible exact Follows.refl ..
    | with_reducible apply Leads.next
    | with_reducible apply Follows.after (regInstr_follows ..)
    | with_reducible apply Follows.foldl
    | split
    | dsimp only
    | with_reducible exact Leads.refused _ _ _
    | intro _

theorem execBgetL_follows (core : Fin 8) (a : Fin 8) (k : Fin 8) (s : State) :
    Leads [.out, .basin, .weir, .staging, .intc, .pcie, .fw, .tp, .sl, .dh] s (execBgetL core a k s) := by
  unfold execBgetL
  repeat' first
    | decide
    | with_reducible exact Follows.refl ..
    | with_reducible apply Leads.next
    | with_reducible apply Follows.after (regInstr_follows ..)
    | with_reducible apply Follows.foldl
    | split
    | dsimp only
    | with_reducible exact Leads.refused _ _ _
    | intro _

theorem execBgetM_follows (core : Fin 8) (a : Fin 8) (k : Fin 8) (s : State) :
    Leads [.out, .basin, .weir, .staging, .intc, .pcie, .fw, .tp, .sl, .dh] s (execBgetM core a k s) := by
  unfold execBgetM
  repeat' first
    | decide
    | with_reducible exact Follows.refl ..
    | with_reducible apply Leads.next
    | with_reducible apply Follows.after (regInstr_follows ..)
    | with_reducible apply Follows.foldl
    | split
    | dsimp only
    | with_reducible exact Leads.refused _ _ _
    | intro _

theorem execBset_follows (core : Fin 8) (k : Fin 8) (s : State) :
    Leads [.out, .basin, .weir, .staging, .intc, .pcie, .fw, .tp, .sl, .dh] s (execBset core k s) := by
  unfold execBset
  repeat' first
    | decide
    | with_reducible exact Follows.refl ..
    | with_reducible apply Leads.next
    | with_reducible apply privInstr_follows
    | with_reducible apply Follows.after (updCore_follows ..)
    | with_reducible apply Follows.foldl
    | split
    | dsimp only
    | with_reducible exact Leads.refused _ _ _
    | intro _

theorem execPmov_follows (core : Fin 8) (k : Fin 4) (rs : Fin 16) (s : State) :
    Leads [.out, .basin, .weir, .staging, .intc, .pcie, .fw, .tp, .sl, .dh] s (execPmov core k rs s) := by
  unfold execPmov
  repeat' first
    | decide
    | with_reducible exact Follows.refl ..
    | with_reducible apply Leads.next
    | with_reducible apply Follows.after (regInstr_follows ..)
    | with_reducible apply Follows.foldl
    | split
    | dsimp only
    | with_reducible exact Leads.refused _ _ _
    | intro _

theorem execPget_follows (core : Fin 8) (rd : Fin 16) (k : Fin 4) (s : State) :
    Leads [.out, .basin, .weir, .staging, .intc, .pcie, .fw, .tp, .sl, .dh] s (execPget core rd k s) := by
  unfold execPget
  repeat' first
    | decide
    | with_reducible exact Follows.refl ..
    | with_reducible apply Leads.next
    | with_reducible apply Follows.after (regInstr_follows ..)
    | with_reducible apply Follows.foldl
    | split
    | dsimp only
    | with_reducible exact Leads.refused _ _ _
    | intro _

theorem execPadd_follows (core : Fin 8) (k : Fin 4) (rs : Fin 16) (s : State) :
    Leads [.out, .basin, .weir, .staging, .intc, .pcie, .fw, .tp, .sl, .dh] s (execPadd core k rs s) := by
  unfold execPadd
  repeat' first
    | decide
    | with_reducible exact Follows.refl ..
    | with_reducible apply Leads.next
    | with_reducible apply Follows.after (regInstr_follows ..)
    | with_reducible apply Follows.foldl
    | split
    | dsimp only
    | with_reducible exact Leads.refused _ _ _
    | intro _

theorem execPseti_follows (core : Fin 8) (k : Fin 4) (x : Cell) (s : State) :
    Leads [.out, .basin, .weir, .staging, .intc, .pcie, .fw, .tp, .sl, .dh] s (execPseti core k x s) := by
  unfold execPseti
  repeat' first
    | decide
    | with_reducible exact Follows.refl ..
    | with_reducible apply Leads.next
    | with_reducible apply Follows.after (regInstr_follows ..)
    | with_reducible apply Follows.foldl
    | split
    | dsimp only
    | with_reducible exact Leads.refused _ _ _
    | intro _

theorem execBCc_follows (core : Fin 8) (cc : Fin 15) (rel : BitVec 8) (s : State) :
    Leads [.out, .basin, .weir, .staging, .intc, .pcie, .fw, .tp, .sl, .dh] s (execBCc core cc rel s) := by
  unfold execBCc
  repeat' first
    | decide
    | with_reducible exact Follows.refl ..
    | with_reducible apply Leads.next
    | with_reducible apply Follows.after (regInstr_follows ..)
    | with_reducible apply Follows.foldl
    | split
    | dsimp only
    | with_reducible exact Leads.refused _ _ _
    | intro _

theorem execBCcL_follows (core : Fin 8) (cc : Fin 15) (rel : Cell) (s : State) :
    Leads [.out, .basin, .weir, .staging, .intc, .pcie, .fw, .tp, .sl, .dh] s (execBCcL core cc rel s) := by
  unfold execBCcL
  repeat' first
    | decide
    | with_reducible exact Follows.refl ..
    | with_reducible apply Leads.next
    | with_reducible apply Follows.after (regInstr_follows ..)
    | with_reducible apply Follows.foldl
    | split
    | dsimp only
    | with_reducible exact Leads.refused _ _ _
    | intro _

theorem execCallRel_follows (core : Fin 8) (rel : Cell) (s : State) :
    Leads [.out, .basin, .weir, .staging, .intc, .pcie, .fw, .tp, .sl, .dh] s (execCallRel core rel s) := by
  unfold execCallRel
  repeat' first
    | decide
    | with_reducible exact Follows.refl ..
    | with_reducible apply Leads.next
    | with_reducible apply Follows.after (regInstr_follows ..)
    | with_reducible apply Follows.foldl
    | split
    | dsimp only
    | with_reducible exact Leads.refused _ _ _
    | intro _

theorem execDbnz_follows (core : Fin 8) (rs : Fin 16) (rel : BitVec 8) (s : State) :
    Leads [.out, .basin, .weir, .staging, .intc, .pcie, .fw, .tp, .sl, .dh] s (execDbnz core rs rel s) := by
  unfold execDbnz
  repeat' first
    | decide
    | with_reducible exact Follows.refl ..
    | with_reducible apply Leads.next
    | with_reducible apply Follows.after (regInstr_follows ..)
    | with_reducible apply Follows.foldl
    | split
    | dsimp only
    | with_reducible exact Leads.refused _ _ _
    | intro _

theorem execIllegalEncoding_follows (core : Fin 8) (cells : List Cell) (s : State) :
    Leads [.out, .basin, .weir, .staging, .intc, .pcie, .fw, .tp, .sl, .dh] s (execIllegalEncoding core cells s) := by
  unfold execIllegalEncoding
  repeat' first
    | decide
    | with_reducible exact Follows.refl ..
    | with_reducible apply Leads.next
    | with_reducible apply beginInstr_follows
    | with_reducible apply Follows.after (exception_follows ..)
    | with_reducible apply Follows.foldl
    | split
    | dsimp only
    | with_reducible exact Leads.refused _ _ _
    | intro _

end Sys2Proof.Machine
end

