-- ==== Sys2Proof/Laws/FollowsReset.lean ====
section
/-! SUPPORT. What each operation may change (`Follows`): resets, replies, fences, Chervil, recovery, the loops, boot and the cycle boundary. -/

set_option linter.unusedTactic false
set_option linter.unreachableTactic false
set_option linter.unusedVariables false

open Sys2Proof

namespace Sys2Proof.Machine

/-! ### Reset -/

theorem onSys_follows (s : State) (f : Sys → Sys) :
    Follows [.sys] s (onSys s f) := by
  unfold onSys
  repeat' first
    | decide
    | with_reducible exact Follows.refl ..
    | with_reducible apply Follows.foldl
    | split
    | dsimp only
    | with_reducible apply Follows.set_sys
    | intro _

theorem noteReset_follows (s : State) (b : Nat) :
    Follows [.sys] s (noteReset s b) := by
  unfold noteReset
  repeat' first
    | decide
    | with_reducible exact Follows.refl ..
    | with_reducible apply Follows.after (onSys_follows ..)
    | with_reducible apply Follows.foldl
    | split
    | dsimp only
    | intro _

theorem deviceReset_follows (s : State) (b : Nat) :
    Follows [.out, .sys, .basin, .weir, .islands, .rails, .staging, .intc, .mbx, .win, .pcie, .fw, .gp, .pi, .tp, .tl, .cyc, .cv, .sl, .dh] s (deviceReset s b) := by
  refine Follows.after (noteReset_follows ..) (by decide) ?_
  constructor
  case trace => exact List.prefix_append _ _
  case grows => exact Otp.Grows.refl _
  case drawn => exact Nat.le_refl _
  all_goals first
    | exact fun _ => rfl
    | rfl
    | exact fun h => absurd (by decide) h

theorem powerOnReset_follows (s : State) :
    Follows [.tick, .out, .pins, .sys, .basin, .weir, .islands, .rails, .staging, .intc, .mbx, .win, .pcie, .fw, .gp, .pi, .tp, .tl, .cyc, .cv, .sl, .dh] s (powerOnReset s) := by
  have k := (deviceReset_follows s rcPOR).mono (l := [.tick, .out, .pins, .sys, .basin, .weir, .islands, .rails, .staging, .intc, .mbx, .win, .pcie, .fw, .gp, .pi, .tp, .tl, .cyc, .cv, .sl, .dh]) (by decide)
  have e := k.trans ((emit_follows (deviceReset s rcPOR) (.therm true)).mono (by decide))
  unfold powerOnReset
  dsimp only
  split
  · exact Follows.set_sys {} (by decide) (Follows.set_pins _ (by decide)
      (Follows.set_tick 0 (by decide) k))
  · exact Follows.set_sys {} (by decide) (Follows.set_pins _ (by decide)
      (Follows.set_tick 0 (by decide) e))

theorem execPowerOnReset_follows (s : State) :
    Leads [.tick, .out, .pins, .sys, .basin, .weir, .islands, .rails, .staging, .intc, .mbx, .win, .pcie, .fw, .gp, .pi, .tp, .tl, .cyc, .cv, .sl, .dh] s (execPowerOnReset s) := by
  unfold execPowerOnReset
  repeat' first
    | decide
    | with_reducible exact Follows.refl ..
    | with_reducible apply Leads.next
    | with_reducible apply Follows.after (powerOnReset_follows ..)
    | with_reducible apply Follows.foldl
    | split
    | dsimp only
    | with_reducible exact Leads.refused _ _ _
    | intro _

theorem execSystemReferenceLoss_follows (s : State) :
    Leads [.tick, .out, .pins, .sys, .basin, .weir, .islands, .rails, .staging, .intc, .mbx, .win, .pcie, .fw, .gp, .pi, .tp, .tl, .cyc, .cv, .sl, .dh] s (execSystemReferenceLoss s) := by
  unfold execSystemReferenceLoss
  repeat' first
    | decide
    | with_reducible exact Follows.refl ..
    | with_reducible apply Leads.next
    | with_reducible apply Follows.after (powerOnReset_follows ..)
    | with_reducible apply Follows.foldl
    | split
    | dsimp only
    | with_reducible exact Leads.refused _ _ _
    | intro _

theorem execRstNReset_follows (s : State) :
    Leads [.out, .sys, .basin, .weir, .islands, .rails, .staging, .intc, .mbx, .win, .pcie, .fw, .gp, .pi, .tp, .tl, .cyc, .cv, .sl, .dh] s (execRstNReset s) := by
  unfold execRstNReset
  repeat' first
    | decide
    | with_reducible exact Follows.refl ..
    | with_reducible apply Leads.next
    | with_reducible apply Follows.after (deviceReset_follows ..)
    | with_reducible apply Follows.foldl
    | split
    | dsimp only
    | with_reducible exact Leads.refused _ _ _
    | intro _

theorem execJtagSysreset_follows (s : State) :
    Leads [.out, .sys, .basin, .weir, .islands, .rails, .staging, .intc, .mbx, .win, .pcie, .fw, .gp, .pi, .tp, .tl, .cyc, .cv, .sl, .dh] s (execJtagSysreset s) := by
  unfold execJtagSysreset
  repeat' first
    | decide
    | with_reducible exact Follows.refl ..
    | with_reducible apply Leads.next
    | with_reducible apply Follows.after (deviceReset_follows ..)
    | with_reducible apply Follows.foldl
    | split
    | dsimp only
    | with_reducible exact Leads.refused _ _ _
    | intro _

theorem execTapReset_follows (s : State) :
    Leads [.out, .weir, .intc, .mbx, .pcie, .fw] s (execTapReset s) := by
  unfold execTapReset
  repeat' first
    | decide
    | with_reducible exact Follows.refl ..
    | with_reducible apply Leads.next
    | with_reducible apply Follows.after (agentReset_follows ..)
    | with_reducible apply Follows.foldl
    | split
    | dsimp only
    | with_reducible exact Leads.refused _ _ _
    | intro _

theorem execPerst_follows (s : State) : Leads [.out, .pins, .sys, .weir, .intc, .mbx, .pcie, .fw] s (execPerst s) := by
  refine Leads.next (Follows.after (agentReset_follows ..) (by decide)
    (Follows.after (noteReset_follows ..) (by decide) ?_))
  exact Follows.set_pcie {} (by decide) (Follows.set_pins { s.pins with perst := false } (by decide)
    (Follows.refl _ s))

theorem execPerstRelease_follows (s : State) :
    Leads [.out, .pins, .intc, .pcie] s (execPerstRelease s) := by
  unfold execPerstRelease
  repeat' first
    | decide
    | with_reducible exact Follows.refl ..
    | with_reducible apply Leads.next
    | with_reducible apply Follows.after (vecRelease_follows ..)
    | with_reducible apply Follows.foldl
    | split
    | dsimp only
    | with_reducible apply Follows.set_pins
    | with_reducible exact Leads.refused _ _ _
    | intro _

theorem restartRecoveries_follows (s : State) :
    Follows [.islands] s (restartRecoveries s) := by
  unfold restartRecoveries
  repeat' first
    | decide
    | with_reducible exact Follows.refl ..
    | with_reducible apply Follows.after (updIsl_follows ..)
    | with_reducible apply Follows.foldl
    | split
    | dsimp only
    | intro _

theorem warmRestart_follows (s : State) (b : Nat) :
    Follows [.out, .sys, .weir, .islands, .staging, .intc, .mbx, .pcie, .fw] s (warmRestart s b) := by
  unfold warmRestart
  repeat' first
    | decide
    | with_reducible exact Follows.refl ..
    | with_reducible apply Follows.after (updIsl_follows ..)
    | with_reducible apply Follows.after (onFw_follows ..)
    | with_reducible apply Follows.after (agentReset_follows ..)
    | with_reducible apply Follows.after (icTargetReset_follows ..)
    | with_reducible apply Follows.after (onSys_follows ..)
    | with_reducible apply Follows.after (noteReset_follows ..)
    | with_reducible apply Follows.after (restartRecoveries_follows ..)
    | with_reducible apply Follows.foldl
    | split
    | dsimp only
    | with_reducible apply Follows.set_staging
    | intro _

/-! ### Reply -/

theorem keepResult_follows (s : State) (m : Nat) (k : Kept) :
    Follows [.fw] s (keepResult s m k) := by
  unfold keepResult
  repeat' first
    | decide
    | with_reducible exact Follows.refl ..
    | with_reducible apply Follows.after (onFw_follows ..)
    | with_reducible apply Follows.foldl
    | split
    | dsimp only
    | intro _

theorem record_follows (s : State) (m : Nat) (h : Word) (crc : Word) (st : Nat) (w : List Word) :
    Follows [.fw] s (record s m h crc st w) := by
  unfold record
  repeat' first
    | decide
    | with_reducible exact Follows.refl ..
    | with_reducible apply Follows.after (keepResult_follows ..)
    | with_reducible apply Follows.foldl
    | split
    | dsimp only
    | intro _

theorem reply_follows (s : State) (m : Nat) (h : Word) (crc : Word) (st : Nat) (w : List Word) :
    Follows [.out, .intc, .mbx, .pcie, .fw] s (reply s m h crc st w) := by
  unfold reply
  repeat' first
    | decide
    | with_reducible exact Follows.refl ..
    | with_reducible apply Follows.after (sendReply_follows ..)
    | with_reducible apply Follows.after (record_follows ..)
    | with_reducible apply Follows.foldl
    | split
    | dsimp only
    | intro _

theorem causes_follows (s : State) (m : Nat) :
    Follows [.fw] s (causes s m) := by
  unfold causes
  repeat' first
    | decide
    | with_reducible exact Follows.refl ..
    | with_reducible apply Follows.after (onFw_follows ..)
    | with_reducible apply Follows.foldl
    | split
    | dsimp only
    | intro _

theorem caused_follows (s : State) :
    Follows [.staging, .fw] s (caused s) := by
  unfold caused
  repeat' first
    | decide
    | with_reducible exact Follows.refl ..
    | with_reducible apply Follows.after (onFw_follows ..)
    | with_reducible apply Follows.foldl
    | split
    | dsimp only
    | with_reducible apply Follows.set_staging
    | intro _

theorem endWaiting_follows (s : State) (m : Nat) (h : Word) (crc : Word) (st : Nat) (w : List Word) :
    Follows [.out, .intc, .mbx, .pcie, .fw] s (endWaiting s m h crc st w) := by
  unfold endWaiting
  repeat' first
    | decide
    | with_reducible exact Follows.refl ..
    | with_reducible apply Follows.after (onFw_follows ..)
    | with_reducible apply Follows.after (record_follows ..)
    | with_reducible apply Follows.after (reply_follows ..)
    | with_reducible apply Follows.foldl
    | split
    | dsimp only
    | intro _

theorem resetReply_follows (s : State) (island : Nat) (st : Nat) :
    Follows [.out, .islands, .intc, .mbx, .pcie, .fw] s (resetReply s island st) := by
  unfold resetReply
  repeat' first
    | decide
    | with_reducible exact Follows.refl ..
    | with_reducible apply Follows.after (updIsl_follows ..)
    | with_reducible apply Follows.after (endWaiting_follows ..)
    | with_reducible apply Follows.foldl
    | split
    | dsimp only
    | intro _

/-! ### Fence -/

theorem fenceDecks_follows (s : State) (i : Nat) :
    Follows [.intc, .dh] s (fenceDecks s i) := by
  unfold fenceDecks
  repeat' first
    | decide
    | with_reducible exact Follows.refl ..
    | with_reducible apply Follows.after (icTargetFence_follows ..)
    | with_reducible apply Follows.after (updCore_follows ..)
    | with_reducible apply Follows.foldl
    | split
    | dsimp only
    | intro _

theorem evqLevels_follows (s : State) :
    Follows [.intc] s (evqLevels s) := by
  unfold evqLevels
  repeat' first
    | decide
    | with_reducible exact Follows.refl ..
    | with_reducible apply Follows.after (evqLevel_follows ..)
    | with_reducible apply Follows.foldl
    | split
    | dsimp only
    | intro _

theorem fenceTp_follows (s : State) :
    Follows [.fresh, .out, .basin, .staging, .intc, .pcie, .fw, .tp] s (fenceTp s) := by
  unfold fenceTp
  repeat' first
    | decide
    | with_reducible exact Follows.refl ..
    | with_reducible apply Follows.after (onTp_follows ..)
    | with_reducible apply Follows.after (freeAll_follows ..)
    | with_reducible apply Follows.after (cancelUnsent_follows ..)
    | with_reducible apply Follows.after (blitStop_follows ..)
    | with_reducible apply Follows.after (evqLevels_follows ..)
    | with_reducible apply Follows.foldl
    | split
    | dsimp only
    | intro _

theorem fenceTl_follows (s : State) (i : Nat) :
    Follows [.tl] s (fenceTl s i) := by
  unfold fenceTl
  repeat' first
    | decide
    | with_reducible exact Follows.refl ..
    | with_reducible apply Follows.after (updLane_follows ..)
    | with_reducible apply Follows.foldl
    | split
    | dsimp only
    | intro _

theorem gpioLevels_follows (s : State) :
    Follows [.intc] s (gpioLevels s) := by
  unfold gpioLevels
  repeat' first
    | decide
    | with_reducible exact Follows.refl ..
    | with_reducible apply Follows.after (driveShared_follows ..)
    | with_reducible apply Follows.foldl
    | split
    | dsimp only
    | intro _

theorem stopSq_follows (s : State) (ch : Nat) :
    Follows [.out, .pi] s (stopSq s ch) := by
  unfold stopSq
  repeat' first
    | decide
    | with_reducible exact Follows.refl ..
    | with_reducible apply Follows.after (emit_follows ..)
    | with_reducible apply Follows.after (updSq_follows ..)
    | with_reducible apply Follows.after (sqAdvance_follows ..)
    | with_reducible apply Follows.foldl
    | split
    | dsimp only
    | intro _

theorem fencePi_follows (s : State) :
    Follows [.out, .intc, .pi, .tp] s (fencePi s) := by
  unfold fencePi
  repeat' first
    | decide
    | with_reducible exact Follows.refl ..
    | with_reducible apply Follows.after (panelCut_follows ..)
    | with_reducible apply Follows.after (gpioLevels_follows ..)
    | with_reducible apply Follows.after (stopSq_follows ..)
    | with_reducible apply Follows.foldl
    | split
    | dsimp only
    | intro _

theorem fenceBank_follows (s : State) (i : Nat) :
    Follows [.out, .weir, .intc] s (fenceBank s i) := by
  unfold fenceBank
  repeat' first
    | decide
    | with_reducible exact Follows.refl ..
    | with_reducible apply Follows.after (weirSettle_follows ..)
    | with_reducible apply Follows.after (weirFence_follows ..)
    | with_reducible apply Follows.foldl
    | split
    | dsimp only
    | intro _

theorem fenceRebinds_follows (s : State) (i : Nat) :
    Follows [.fw] s (fenceRebinds s i) := by
  unfold fenceRebinds
  repeat' first
    | decide
    | with_reducible exact Follows.refl ..
    | with_reducible apply Follows.after (onFw_follows ..)
    | with_reducible apply Follows.foldl
    | split
    | dsimp only
    | intro _

theorem fenceEffects_follows (s : State) (i : Nat) :
    Follows [.fresh, .out, .basin, .weir, .staging, .intc, .pcie, .fw, .pi, .tp, .tl, .sl, .dh] s (fenceEffects s i) := by
  unfold fenceEffects
  repeat' first
    | decide
    | with_reducible exact Follows.refl ..
    | with_reducible apply Follows.after (slFenceOf_follows ..)
    | with_reducible apply Follows.after (slFence_follows ..)
    | with_reducible apply Follows.after (fenceDecks_follows ..)
    | with_reducible apply Follows.after (fenceTp_follows ..)
    | with_reducible apply Follows.after (fenceTl_follows ..)
    | with_reducible apply Follows.after (fencePi_follows ..)
    | with_reducible apply Follows.after (fenceBank_follows ..)
    | with_reducible apply Follows.after (fenceRebinds_follows ..)
    | with_reducible apply Follows.foldl
    | split
    | dsimp only
    | intro _

theorem answerLk_follows (s : State) (cause : Nat) :
    Follows [.out, .sys, .basin, .weir, .islands, .rails, .staging, .intc, .mbx, .win, .pcie, .fw, .gp, .pi, .tp, .tl, .cyc, .cv, .sl, .dh] s (answerLk s cause) := by
  unfold answerLk
  repeat' first
    | decide
    | with_reducible exact Follows.refl ..
    | with_reducible apply Follows.after (onSys_follows ..)
    | with_reducible apply Follows.after (deviceReset_follows ..)
    | with_reducible apply Follows.after (restartRecoveries_follows ..)
    | with_reducible apply Follows.after (warmRestart_follows ..)
    | with_reducible apply Follows.foldl
    | split
    | dsimp only
    | intro _

theorem fenceIsland_follows (s : State) (i : Nat) (cause : Nat) :
    Follows [.fresh, .out, .sys, .basin, .weir, .islands, .rails, .staging, .intc, .mbx, .win, .pcie, .fw, .gp, .pi, .tp, .tl, .cyc, .cv, .sl, .dh] s (fenceIsland s i cause) := by
  unfold fenceIsland
  repeat' first
    | decide
    | with_reducible exact Follows.refl ..
    | with_reducible apply Follows.after (updIsl_follows ..)
    | with_reducible apply Follows.after (raisePriv_follows ..)
    | with_reducible apply Follows.after (postRec_follows ..)
    | with_reducible apply Follows.after (resetReply_follows ..)
    | with_reducible apply Follows.after (fenceEffects_follows ..)
    | with_reducible apply Follows.after (answerLk_follows ..)
    | with_reducible apply Follows.foldl
    | split
    | dsimp only
    | intro _

theorem execCrossingTimeout_follows (issuer : Waiter) (target : Fin 16) (s : State) :
    Leads [.fresh, .out, .sys, .basin, .weir, .islands, .rails, .staging, .intc, .mbx, .win, .pcie, .fw, .gp, .pi, .tp, .tl, .cyc, .cv, .sl, .dh] s (execCrossingTimeout issuer target s) := by
  unfold execCrossingTimeout
  repeat' first
    | decide
    | with_reducible exact Follows.refl ..
    | with_reducible apply Leads.next
    | with_reducible apply Follows.after (drawFree_follows ..)
    | with_reducible apply Follows.after (errTo_follows ..)
    | with_reducible apply Follows.after (updIsl_follows ..)
    | with_reducible apply Follows.after (fenceIsland_follows ..)
    | with_reducible apply Follows.foldl
    | with_reducible apply Follows.foldlFst
    | split
    | dsimp only
    | with_reducible refine Follows.fst (by assumption) ?_
    | with_reducible exact Leads.refused _ _ _
    | intro _

theorem execStateParity_follows (island : Fin 16) (s : State) :
    Leads [.fresh, .out, .sys, .basin, .weir, .islands, .rails, .staging, .intc, .mbx, .win, .pcie, .fw, .gp, .pi, .tp, .tl, .cyc, .cv, .sl, .dh] s (execStateParity island s) := by
  unfold execStateParity
  repeat' first
    | decide
    | with_reducible exact Follows.refl ..
    | with_reducible apply Leads.next
    | with_reducible apply Follows.after (fenceIsland_follows ..)
    | with_reducible apply Follows.foldl
    | split
    | dsimp only
    | with_reducible exact Leads.refused _ _ _
    | intro _

theorem execPllUnlock_follows (island : Fin 16) (s : State) :
    Leads [.fresh, .out, .sys, .basin, .weir, .islands, .rails, .staging, .intc, .mbx, .win, .pcie, .fw, .gp, .pi, .tp, .tl, .cyc, .cv, .sl, .dh] s (execPllUnlock island s) := by
  unfold execPllUnlock
  repeat' first
    | decide
    | with_reducible exact Follows.refl ..
    | with_reducible apply Leads.next
    | with_reducible apply Follows.after (fenceIsland_follows ..)
    | with_reducible apply Follows.foldl
    | split
    | dsimp only
    | with_reducible exact Leads.refused _ _ _
    | intro _

theorem execMarginLost_follows (island : Fin 16) (s : State) :
    Leads [.fresh, .out, .sys, .basin, .weir, .islands, .rails, .staging, .intc, .mbx, .win, .pcie, .fw, .gp, .pi, .tp, .tl, .cyc, .cv, .sl, .dh] s (execMarginLost island s) := by
  unfold execMarginLost
  repeat' first
    | decide
    | with_reducible exact Follows.refl ..
    | with_reducible apply Leads.next
    | with_reducible apply Follows.after (fenceIsland_follows ..)
    | with_reducible apply Follows.foldl
    | split
    | dsimp only
    | with_reducible exact Leads.refused _ _ _
    | intro _

theorem execDeadman_follows (island : Fin 16) (s : State) :
    Leads [.fresh, .out, .sys, .basin, .weir, .islands, .rails, .staging, .intc, .mbx, .win, .pcie, .fw, .gp, .pi, .tp, .tl, .cyc, .cv, .sl, .dh] s (execDeadman island s) := by
  unfold execDeadman
  repeat' first
    | decide
    | with_reducible exact Follows.refl ..
    | with_reducible apply Leads.next
    | with_reducible apply Follows.after (fenceIsland_follows ..)
    | with_reducible apply Follows.foldl
    | split
    | dsimp only
    | with_reducible exact Leads.refused _ _ _
    | intro _

theorem execJtagFence_follows (island : Fin 16) (s : State) :
    Leads [.fresh, .out, .sys, .basin, .weir, .islands, .rails, .staging, .intc, .mbx, .win, .pcie, .fw, .gp, .pi, .tp, .tl, .cyc, .cv, .sl, .dh] s (execJtagFence island s) := by
  unfold execJtagFence
  repeat' first
    | decide
    | with_reducible exact Follows.refl ..
    | with_reducible apply Leads.next
    | with_reducible apply Follows.after (fenceIsland_follows ..)
    | with_reducible apply Follows.foldl
    | split
    | dsimp only
    | with_reducible exact Leads.refused _ _ _
    | intro _

theorem isReach_follows {l : List Part} {s t : State} (agent ad : Nat) (f : State → State)
    (hl : ∀ x ∈ [.fresh, .out, .sys], x ∈ l) (h : ∀ u, Follows l u (f u)) (g : Follows l s t) :
    Follows l s (isReach t agent ad f) := by
  refine issue_follows agent _ (fun u => ?_) g
  split
  · exact h u
  · exact (errTo_follows ..).mono hl

theorem execIsControlFence_follows (agent : Agent) (island : Fin 16) (s : State) :
    Leads [.fresh, .out, .sys, .basin, .weir, .islands, .rails, .staging, .intc, .mbx, .win, .pcie, .fw, .gp, .pi, .tp, .tl, .cyc, .cv, .sl, .dh] s (execIsControlFence agent island s) := by
  unfold execIsControlFence
  repeat' first
    | decide
    | with_reducible exact Follows.refl ..
    | with_reducible apply Leads.next
    | with_reducible apply isReach_follows
    | with_reducible apply Follows.after (fenceIsland_follows ..)
    | with_reducible apply Follows.foldl
    | split
    | dsimp only
    | with_reducible exact Leads.refused _ _ _
    | intro _

theorem execLkWatchdogExpiry_follows (s : State) :
    Leads [.tick, .fresh, .out, .sys, .basin, .weir, .islands, .rails, .staging, .intc, .mbx, .win, .pcie, .fw, .gp, .pi, .tp, .tl, .cyc, .cv, .sl, .dh] s (execLkWatchdogExpiry s) := by
  unfold execLkWatchdogExpiry
  repeat' first
    | decide
    | with_reducible exact Follows.refl ..
    | with_reducible apply Leads.next
    | with_reducible apply Follows.after (atTick_follows ..)
    | with_reducible apply Follows.after (fenceIsland_follows ..)
    | with_reducible apply Follows.foldl
    | split
    | dsimp only
    | with_reducible exact Leads.refused _ _ _
    | intro _

theorem execLkWdtKick_follows (agent : Agent) (s : State) :
    Leads [.fresh, .out, .sys] s (execLkWdtKick agent s) := by
  unfold execLkWdtKick
  repeat' first
    | decide
    | with_reducible exact Follows.refl ..
    | with_reducible apply Leads.next
    | with_reducible apply isReach_follows
    | with_reducible apply Follows.after (errTo_follows ..)
    | with_reducible apply Follows.after (onSys_follows ..)
    | with_reducible apply Follows.foldl
    | split
    | dsimp only
    | with_reducible exact Leads.refused _ _ _
    | intro _

theorem execLkTimerMatch_follows (s : State) :
    Leads [.tick, .intc] s (execLkTimerMatch s) := by
  unfold execLkTimerMatch
  repeat' first
    | decide
    | with_reducible exact Follows.refl ..
    | with_reducible apply Leads.next
    | with_reducible apply Follows.after (raisePriv_follows ..)
    | with_reducible apply Follows.after (atTick_follows ..)
    | with_reducible apply Follows.foldl
    | split
    | dsimp only
    | with_reducible exact Leads.refused _ _ _
    | intro _

/-! ### Sound -/

theorem onCv_follows (s : State) (f : Chervil → Chervil) :
    Follows [.cv] s (onCv s f) := by
  unfold onCv
  repeat' first
    | decide
    | with_reducible exact Follows.refl ..
    | with_reducible apply Follows.foldl
    | split
    | dsimp only
    | with_reducible apply Follows.set_cv
    | intro _

theorem setVoice_follows (s : State) (v : Nat) (x : Voice) :
    Follows [.cv] s (setVoice s v x) := by
  unfold setVoice
  repeat' first
    | decide
    | with_reducible exact Follows.refl ..
    | with_reducible apply Follows.after (onCv_follows ..)
    | with_reducible apply Follows.foldl
    | split
    | dsimp only
    | intro _

theorem updVoice_follows (s : State) (v : Nat) (f : Voice → Voice) :
    Follows [.cv] s (updVoice s v f) := by
  unfold updVoice
  repeat' first
    | decide
    | with_reducible exact Follows.refl ..
    | with_reducible apply Follows.after (setVoice_follows ..)
    | with_reducible apply Follows.foldl
    | split
    | dsimp only
    | intro _

theorem setMix_follows (s : State) (m : Nat) (x : Mix) :
    Follows [.cv] s (setMix s m x) := by
  unfold setMix
  repeat' first
    | decide
    | with_reducible exact Follows.refl ..
    | with_reducible apply Follows.after (onCv_follows ..)
    | with_reducible apply Follows.foldl
    | split
    | dsimp only
    | intro _

theorem updMix_follows (s : State) (m : Nat) (f : Mix → Mix) :
    Follows [.cv] s (updMix s m f) := by
  unfold updMix
  repeat' first
    | decide
    | with_reducible exact Follows.refl ..
    | with_reducible apply Follows.after (setMix_follows ..)
    | with_reducible apply Follows.foldl
    | split
    | dsimp only
    | intro _

theorem readData_follows (s : State) (x : Voice) (off : Nat) (n : Nat) :
    Follows [.basin, .staging, .intc, .fw] s (readData s x off n).1 := by
  unfold readData
  repeat' first
    | decide
    | with_reducible exact Follows.refl ..
    | with_reducible apply Follows.after (readReq_follows ..)
    | with_reducible apply Follows.foldl
    | with_reducible apply Follows.foldlFst
    | split
    | dsimp only
    | with_reducible refine Follows.fst (by assumption) ?_
    | intro _

theorem pcmAt_follows (s : State) (x : Voice) (i : Nat) :
    Follows [.basin, .staging, .intc, .fw] s (pcmAt s x i).1 := by
  unfold pcmAt
  repeat' first
    | decide
    | with_reducible exact Follows.refl ..
    | with_reducible apply Follows.after (readData_follows ..)
    | with_reducible apply Follows.foldl
    | with_reducible apply Follows.foldlFst
    | split
    | dsimp only
    | with_reducible refine Follows.fst (by assumption) ?_
    | intro _

theorem codeAt_follows (s : State) (x : Voice) (i : Nat) :
    Follows [.basin, .staging, .intc, .fw] s (codeAt s x i).1 := by
  unfold codeAt
  repeat' first
    | decide
    | with_reducible exact Follows.refl ..
    | with_reducible apply Follows.after (readData_follows ..)
    | with_reducible apply Follows.foldl
    | with_reducible apply Follows.foldlFst
    | split
    | dsimp only
    | with_reducible refine Follows.fst (by assumption) ?_
    | intro _

theorem decodeTo_follows (a1 : Nat) (a2 : State) (a3 : Voice) (a4 : Nat) :
    Follows [.basin, .staging, .intc, .fw] a2 (decodeTo a1 a2 a3 a4).1 := by
  fun_induction decodeTo a1 a2 a3 a4 <;> repeat' first
    | decide
    | with_reducible exact Follows.refl ..
    | with_reducible apply Follows.after (codeAt_follows ..)
    | with_reducible refine Follows.trans ?_ (by assumption)
    | with_reducible apply Follows.foldl
    | with_reducible apply Follows.foldlFst
    | split
    | dsimp only
    | with_reducible refine Follows.fst (by assumption) ?_
    | intro _

theorem dataPair_follows (s : State) (x : Voice) :
    Follows [.basin, .staging, .intc, .fw] s (dataPair s x).1 := by
  unfold dataPair
  repeat' first
    | decide
    | with_reducible exact Follows.refl ..
    | with_reducible apply Follows.after (pcmAt_follows ..)
    | with_reducible apply Follows.after (codeAt_follows ..)
    | with_reducible apply Follows.after (decodeTo_follows ..)
    | with_reducible apply Follows.foldl
    | with_reducible apply Follows.foldlFst
    | split
    | dsimp only
    | with_reducible refine Follows.fst (by assumption) ?_
    | intro _

theorem loopBack_follows (s : State) (x : Voice) :
    Follows [.fresh, .basin, .staging, .intc, .fw] s (loopBack s x).1 := by
  unfold loopBack
  repeat' first
    | decide
    | with_reducible exact Follows.refl ..
    | with_reducible apply Follows.after (drawFree_follows ..)
    | with_reducible apply Follows.after (decodeTo_follows ..)
    | with_reducible apply Follows.foldl
    | with_reducible apply Follows.foldlFst
    | split
    | dsimp only
    | with_reducible refine Follows.fst (by assumption) ?_
    | intro _

theorem voiceEnded_follows (s : State) (v : Nat) :
    Follows [.staging, .intc, .fw, .cv] s (voiceEnded s v) := by
  unfold voiceEnded
  repeat' first
    | decide
    | with_reducible exact Follows.refl ..
    | with_reducible apply Follows.after (postRec_follows ..)
    | with_reducible apply Follows.after (onCv_follows ..)
    | with_reducible apply Follows.after (setVoice_follows ..)
    | with_reducible apply Follows.foldl
    | split
    | dsimp only
    | intro _

theorem voiceEcc_follows (s : State) (v : Nat) (x : Voice) :
    Follows [.staging, .intc, .fw, .cv] s (voiceEcc s v x).1 := by
  unfold voiceEcc
  repeat' first
    | decide
    | with_reducible exact Follows.refl ..
    | with_reducible apply Follows.after (setVoice_follows ..)
    | with_reducible apply Follows.after (voiceEnded_follows ..)
    | with_reducible apply Follows.foldl
    | with_reducible apply Follows.foldlFst
    | split
    | dsimp only
    | with_reducible refine Follows.fst (by assumption) ?_
    | intro _

theorem sampleValue_follows (s : State) (v : Nat) (x : Voice) :
    Follows [.fresh, .basin, .staging, .intc, .fw, .cv] s (sampleValue s v x).1 := by
  unfold sampleValue
  repeat' first
    | decide
    | with_reducible exact Follows.refl ..
    | with_reducible apply Follows.after (setVoice_follows ..)
    | with_reducible apply Follows.after (dataPair_follows ..)
    | with_reducible apply Follows.after (loopBack_follows ..)
    | with_reducible apply Follows.after (voiceEnded_follows ..)
    | with_reducible apply Follows.after (voiceEcc_follows ..)
    | with_reducible apply Follows.foldl
    | with_reducible apply Follows.foldlFst
    | split
    | dsimp only
    | with_reducible refine Follows.fst (by assumption) ?_
    | intro _

theorem voiceSample_follows (s : State) (n : Nat) (v : Nat) :
    Follows [.fresh, .basin, .staging, .intc, .fw, .cv] s (voiceSample s n v).1 := by
  unfold voiceSample
  repeat' first
    | decide
    | with_reducible exact Follows.refl ..
    | with_reducible apply Follows.after (setVoice_follows ..)
    | with_reducible apply Follows.after (voiceEnded_follows ..)
    | with_reducible apply Follows.after (sampleValue_follows ..)
    | with_reducible apply Follows.foldl
    | with_reducible apply Follows.foldlFst
    | split
    | dsimp only
    | with_reducible refine Follows.fst (by assumption) ?_
    | intro _

theorem mixSample_follows (vals : Tab Int) (j : Nat) (s : State) (m : Nat) :
    Follows [.cv] s (mixSample vals j s m) := by
  unfold mixSample
  repeat' first
    | decide
    | with_reducible exact Follows.refl ..
    | with_reducible apply Follows.after (setMix_follows ..)
    | with_reducible apply Follows.foldl
    | split
    | dsimp only
    | intro _

theorem blockBoundary_follows (s : State) :
    Follows [.cv] s (blockBoundary s) := by
  unfold blockBoundary
  repeat' first
    | decide
    | with_reducible exact Follows.refl ..
    | with_reducible apply Follows.after (onCv_follows ..)
    | with_reducible apply Follows.foldl
    | split
    | dsimp only
    | intro _

theorem execBlockBoundary_follows (s : State) :
    Leads [.tick, .cv] s (execBlockBoundary s) := by
  unfold execBlockBoundary
  repeat' first
    | decide
    | with_reducible exact Follows.refl ..
    | with_reducible apply Leads.next
    | with_reducible apply Follows.after (atTick_follows ..)
    | with_reducible apply Follows.after (blockBoundary_follows ..)
    | with_reducible apply Follows.foldl
    | split
    | dsimp only
    | with_reducible exact Leads.refused _ _ _
    | intro _

theorem endBlock_follows (s : State) (k : Nat) :
    Follows [.cv] s (endBlock s k) := by
  unfold endBlock
  repeat' first
    | decide
    | with_reducible exact Follows.refl ..
    | with_reducible apply Follows.after (onCv_follows ..)
    | with_reducible apply Follows.foldl
    | split
    | dsimp only
    | intro _

theorem allVoices_follows (n : Nat) (s : State) :
    Follows [.fresh, .basin, .staging, .intc, .fw, .cv] s (allVoices n s).1 := by
  unfold allVoices
  repeat' first
    | decide
    | with_reducible exact Follows.refl ..
    | with_reducible apply Follows.after (voiceSample_follows ..)
    | with_reducible apply Follows.foldl
    | with_reducible apply Follows.foldlFst
    | split
    | dsimp only
    | with_reducible refine Follows.fst (by assumption) ?_
    | intro _

theorem execSampleTick_follows (s : State) :
    Leads [.tick, .fresh, .basin, .staging, .intc, .fw, .cv] s (execSampleTick s) := by
  unfold execSampleTick
  repeat' first
    | decide
    | with_reducible exact Follows.refl ..
    | with_reducible apply Leads.next
    | with_reducible apply Follows.after (atTick_follows ..)
    | with_reducible apply Follows.after (onCv_follows ..)
    | with_reducible apply Follows.after (mixSample_follows ..)
    | with_reducible apply Follows.after (blockBoundary_follows ..)
    | with_reducible apply Follows.after (endBlock_follows ..)
    | with_reducible apply Follows.after (allVoices_follows ..)
    | with_reducible apply Follows.foldl
    | with_reducible apply Follows.foldlFst
    | split
    | dsimp only
    | with_reducible refine Follows.fst (by assumption) ?_
    | with_reducible exact Leads.refused _ _ _
    | intro _

theorem drivePort_follows (played : Played) (s : State) (k : Nat) :
    Follows [.out] s (drivePort played s k) := by
  unfold drivePort
  repeat' first
    | decide
    | with_reducible exact Follows.refl ..
    | with_reducible apply Follows.after (emit_follows ..)
    | with_reducible apply Follows.foldl
    | split
    | dsimp only
    | intro _

theorem drivePorts_follows (s : State) (played : Played) :
    Follows [.out] s (drivePorts s played) := by
  unfold drivePorts
  repeat' first
    | decide
    | with_reducible exact Follows.refl ..
    | with_reducible apply Follows.after (drivePort_follows ..)
    | with_reducible apply Follows.foldl
    | split
    | dsimp only
    | intro _

theorem dropStale_follows (s : State) (m : Nat) :
    Follows [.tl, .cv] s (dropStale s m) := by
  unfold dropStale
  repeat' first
    | decide
    | with_reducible exact Follows.refl ..
    | with_reducible apply Follows.after (dropAudio_follows ..)
    | with_reducible apply Follows.after (setMix_follows ..)
    | with_reducible apply Follows.foldl
    | split
    | dsimp only
    | intro _

theorem availMix_follows (k : Nat) (late : List Nat) (a : State × Played) (m : Nat) :
    Follows [.tl, .cv] a.1 (availMix k late a m).1 := by
  unfold availMix
  repeat' first
    | decide
    | with_reducible exact Follows.refl ..
    | with_reducible apply Follows.after (onCv_follows ..)
    | with_reducible apply Follows.after (setMix_follows ..)
    | with_reducible apply Follows.after (updMix_follows ..)
    | with_reducible apply Follows.after (dropStale_follows ..)
    | with_reducible apply Follows.foldl
    | with_reducible apply Follows.foldlFst
    | split
    | dsimp only
    | with_reducible refine Follows.fst (by assumption) ?_
    | intro _

theorem execBlockAvailable_follows (late : List Nat) (s : State) :
    Leads [.tick, .out, .tl, .cv] s (execBlockAvailable late s) := by
  unfold execBlockAvailable
  repeat' first
    | decide
    | with_reducible exact Follows.refl ..
    | with_reducible apply Leads.next
    | with_reducible apply Follows.after (atTick_follows ..)
    | with_reducible apply Follows.after (onCv_follows ..)
    | with_reducible apply Follows.after (drivePorts_follows ..)
    | with_reducible apply Follows.after (availMix_follows ..)
    | with_reducible apply Follows.foldl
    | with_reducible apply Follows.foldlFst
    | split
    | dsimp only
    | with_reducible refine Follows.fst (by assumption) ?_
    | with_reducible exact Leads.refused _ _ _
    | intro _

theorem cvStart_follows (s : State) :
    Follows [.cv] s (cvStart s) := by
  unfold cvStart
  repeat' first
    | decide
    | with_reducible exact Follows.refl ..
    | with_reducible apply Follows.after (onCv_follows ..)
    | with_reducible apply Follows.foldl
    | split
    | dsimp only
    | intro _

theorem cvReach_follows {l : List Part} {s t : State} (agent o : Nat) (f : State → State)
    (hl : ∀ x ∈ [.fresh, .out, .sys], x ∈ l) (h : ∀ u, Follows l u (f u)) (g : Follows l s t) :
    Follows l s (cvReach t agent o f) :=
  reach_follows _ _ _ _ _ f hl h g

theorem voiceWrite_follows (s : State) (v : Nat) (w : VWrite) :
    Follows [.cv] s (voiceWrite s v w) := by
  unfold voiceWrite
  repeat' first
    | decide
    | with_reducible exact Follows.refl ..
    | with_reducible apply Follows.after (updVoice_follows ..)
    | with_reducible apply Follows.foldl
    | split
    | dsimp only
    | intro _

theorem execKeyOn_follows (agent : Agent) (voice : Fin 512) (keepPhase : Bool) (s : State) :
    Leads [.fresh, .out, .sys, .cv] s (execKeyOn agent voice keepPhase s) := by
  unfold execKeyOn
  repeat' first
    | decide
    | with_reducible exact Follows.refl ..
    | with_reducible apply Leads.next
    | with_reducible apply cvReach_follows
    | with_reducible apply Follows.after (voiceWrite_follows ..)
    | with_reducible apply Follows.foldl
    | split
    | dsimp only
    | with_reducible exact Leads.refused _ _ _
    | intro _

theorem execKeyOff_follows (agent : Agent) (voice : Fin 512) (s : State) :
    Leads [.fresh, .out, .sys, .cv] s (execKeyOff agent voice s) := by
  unfold execKeyOff
  repeat' first
    | decide
    | with_reducible exact Follows.refl ..
    | with_reducible apply Leads.next
    | with_reducible apply cvReach_follows
    | with_reducible apply Follows.after (voiceWrite_follows ..)
    | with_reducible apply Follows.foldl
    | split
    | dsimp only
    | with_reducible exact Leads.refused _ _ _
    | intro _

theorem touchMix_follows (s : State) (m : Nat) (f : Mix → Mix) :
    Follows [.cv] s (touchMix s m f) := by
  unfold touchMix
  repeat' first
    | decide
    | with_reducible exact Follows.refl ..
    | with_reducible apply Follows.after (updMix_follows ..)
    | with_reducible apply Follows.foldl
    | split
    | dsimp only
    | intro _

theorem mixCtrlWrite_follows (s : State) (m : Nat) (v : Word) :
    Follows [.cv] s (mixCtrlWrite s m v) := by
  unfold mixCtrlWrite
  repeat' first
    | decide
    | with_reducible exact Follows.refl ..
    | with_reducible apply Follows.after (touchMix_follows ..)
    | with_reducible apply Follows.foldl
    | split
    | dsimp only
    | intro _

theorem silenceMixes_follows (s : State) :
    Follows [.cv] s (silenceMixes s) := by
  unfold silenceMixes
  repeat' first
    | decide
    | with_reducible exact Follows.refl ..
    | with_reducible apply Follows.after (touchMix_follows ..)
    | with_reducible apply Follows.foldl
    | split
    | dsimp only
    | intro _

/-! ### Recover -/

theorem wipeDeck_follows (s : State) (n : Nat) :
    Follows [.out, .weir, .intc, .mbx, .pcie, .fw, .dh] s (wipeDeck s n) := by
  unfold wipeDeck
  repeat' first
    | decide
    | with_reducible exact Follows.refl ..
    | with_reducible apply Follows.after (agentReset_follows ..)
    | with_reducible apply Follows.after (icTargetReset_follows ..)
    | with_reducible apply Follows.after (onDh_follows ..)
    | with_reducible apply Follows.foldl
    | split
    | dsimp only
    | intro _

theorem wipeTp_follows (s : State) :
    Follows [.tp] s (wipeTp s) := by
  unfold wipeTp
  repeat' first
    | decide
    | with_reducible exact Follows.refl ..
    | with_reducible apply Follows.after (onTp_follows ..)
    | with_reducible apply Follows.foldl
    | split
    | dsimp only
    | intro _

theorem wipeCv_follows (s : State) :
    Follows [.cv] s (wipeCv s) := by
  unfold wipeCv
  repeat' first
    | decide
    | with_reducible exact Follows.refl ..
    | with_reducible apply Follows.after (onCv_follows ..)
    | with_reducible apply Follows.foldl
    | split
    | dsimp only
    | intro _

theorem wipeBank_follows (s : State) (b : Nat) :
    Follows [.basin, .weir, .intc] s (wipeBank s b) := by
  unfold wipeBank
  repeat' first
    | decide
    | with_reducible exact Follows.refl ..
    | with_reducible apply Follows.after (updBank_follows ..)
    | with_reducible apply Follows.after (weirSettle_follows ..)
    | with_reducible apply Follows.foldl
    | split
    | dsimp only
    | with_reducible apply Follows.set_weir
    | intro _

theorem wipeSl_follows (s : State) :
    Follows [.sl] s (wipeSl s) := by
  unfold wipeSl
  repeat' first
    | decide
    | with_reducible exact Follows.refl ..
    | with_reducible apply Follows.after (onSl_follows ..)
    | with_reducible apply Follows.foldl
    | split
    | dsimp only
    | intro _

theorem wipeTl_follows (s : State) (i : Nat) :
    Follows [.tl] s (wipeTl s i) := by
  unfold wipeTl
  repeat' first
    | decide
    | with_reducible exact Follows.refl ..
    | with_reducible apply Follows.after (onTl_follows _ _ rfl)
    | with_reducible apply Follows.after (updLane_follows ..)
    | with_reducible apply Follows.foldl
    | split
    | dsimp only
    | intro _

theorem wipePi_follows (s : State) :
    Follows [.gp, .pi] s (wipePi s) := by
  unfold wipePi
  repeat' first
    | decide
    | with_reducible exact Follows.refl ..
    | with_reducible apply Follows.after (onPi_follows ..)
    | with_reducible apply Follows.foldl
    | split
    | dsimp only
    | with_reducible apply Follows.set_gp
    | intro _

theorem wipe_follows (s : State) (i : Nat) :
    Follows [.out, .basin, .weir, .intc, .mbx, .pcie, .fw, .gp, .pi, .tp, .tl, .cv, .sl, .dh] s (wipe s i) := by
  unfold wipe
  repeat' first
    | decide
    | with_reducible exact Follows.refl ..
    | with_reducible apply Follows.after (agentReset_follows ..)
    | with_reducible apply Follows.after (wipeDeck_follows ..)
    | with_reducible apply Follows.after (wipeTp_follows ..)
    | with_reducible apply Follows.after (wipeCv_follows ..)
    | with_reducible apply Follows.after (wipeBank_follows ..)
    | with_reducible apply Follows.after (wipeSl_follows ..)
    | with_reducible apply Follows.after (wipeTl_follows ..)
    | with_reducible apply Follows.after (wipePi_follows ..)
    | with_reducible apply Follows.foldl
    | split
    | dsimp only
    | intro _

theorem resetIsland_follows (s : State) (i : Nat) :
    Follows [.out, .basin, .weir, .islands, .intc, .mbx, .pcie, .fw, .gp, .pi, .tp, .tl, .cv, .sl, .dh] s (resetIsland s i) := by
  unfold resetIsland
  repeat' first
    | decide
    | with_reducible exact Follows.refl ..
    | with_reducible apply Follows.after (updIsl_follows ..)
    | with_reducible apply Follows.after (wipe_follows ..)
    | with_reducible apply Follows.foldl
    | split
    | dsimp only
    | intro _

theorem controlReset_follows (s : State) (a : Nat) (i : Nat) :
    Follows [.out, .basin, .weir, .islands, .intc, .mbx, .pcie, .fw, .gp, .pi, .tp, .tl, .cv, .sl, .dh] s (controlReset s a i) := by
  unfold controlReset
  repeat' first
    | decide
    | with_reducible exact Follows.refl ..
    | with_reducible apply Follows.after (resetIsland_follows ..)
    | with_reducible apply Follows.foldl
    | split
    | dsimp only
    | intro _

theorem restoreReg_follows (base : Nat) (p : State × Tab Word) (reg : Nat) :
    Follows [.basin, .staging, .intc, .fw] p.1 (restoreReg base p reg).1 := by
  unfold restoreReg
  repeat' first
    | decide
    | with_reducible exact Follows.refl ..
    | with_reducible apply Follows.after (readWord_follows ..)
    | with_reducible apply Follows.foldl
    | with_reducible apply Follows.foldlFst
    | split
    | dsimp only
    | with_reducible refine Follows.fst (by assumption) ?_
    | intro _

theorem restoreScene_follows (s : State) (i : Nat) :
    Follows [.basin, .staging, .intc, .fw, .tp] s (restoreScene s i) := by
  unfold restoreScene
  repeat' first
    | decide
    | with_reducible exact Follows.refl ..
    | with_reducible apply Follows.after (updScene_follows ..)
    | with_reducible apply Follows.after (restoreReg_follows ..)
    | with_reducible apply Follows.foldl
    | with_reducible apply Follows.foldlFst
    | split
    | dsimp only
    | with_reducible refine Follows.fst (by assumption) ?_
    | intro _

theorem restoreScript_follows (s : State) (k : Nat) :
    Follows [.basin, .staging, .intc, .fw, .dh] s (restoreScript s k) := by
  unfold restoreScript
  repeat' first
    | decide
    | with_reducible exact Follows.refl ..
    | with_reducible apply Follows.after (readMem_follows ..)
    | with_reducible apply Follows.after (putCode_follows ..)
    | with_reducible apply Follows.after (startTask_follows ..)
    | with_reducible apply Follows.foldl
    | with_reducible apply Follows.foldlFst
    | split
    | dsimp only
    | with_reducible refine Follows.fst (by assumption) ?_
    | intro _

theorem restore_follows (s : State) (i : Nat) :
    Follows [.out, .basin, .staging, .intc, .pcie, .fw, .gp, .tp, .tl, .sl, .dh] s (restore s i) := by
  unfold restore
  repeat' first
    | decide
    | with_reducible exact Follows.refl ..
    | with_reducible apply Follows.after (loadTaps_follows ..)
    | with_reducible apply Follows.after (slRestore_follows ..)
    | with_reducible apply Follows.after (restoreScene_follows ..)
    | with_reducible apply Follows.after (restoreScript_follows ..)
    | with_reducible apply Follows.foldl
    | split
    | dsimp only
    | with_reducible apply Follows.set_gp
    | intro _

theorem execIslandResetDone_follows (island : Fin 16) (s : State) :
    Leads [.out, .basin, .islands, .staging, .intc, .pcie, .fw, .gp, .tp, .tl, .sl, .dh] s (execIslandResetDone island s) := by
  unfold execIslandResetDone
  repeat' first
    | decide
    | with_reducible exact Follows.refl ..
    | with_reducible apply Leads.next
    | with_reducible apply Follows.after (updIsl_follows ..)
    | with_reducible apply Follows.after (restore_follows ..)
    | with_reducible apply Follows.foldl
    | split
    | dsimp only
    | with_reducible exact Leads.refused _ _ _
    | intro _

theorem postMarker_follows (i : Nat) (prev : BitVec 16) (s : State) (k : Nat) :
    Follows [.out, .basin, .staging, .intc, .pcie, .fw] s (postMarker i prev s k) := by
  unfold postMarker
  repeat' first
    | decide
    | with_reducible exact Follows.refl ..
    | with_reducible apply Follows.after (stage_follows ..)
    | with_reducible apply Follows.after (putMarker_follows ..)
    | with_reducible apply Follows.foldl
    | with_reducible apply Follows.foldlFst
    | split
    | dsimp only
    | with_reducible refine Follows.fst (by assumption) ?_
    | intro _

theorem postMarkers_follows (s : State) (i : Nat) (prev : BitVec 16) :
    Follows [.out, .basin, .staging, .intc, .pcie, .fw] s (postMarkers s i prev) := by
  unfold postMarkers
  repeat' first
    | decide
    | with_reducible exact Follows.refl ..
    | with_reducible apply Follows.after (stage_follows ..)
    | with_reducible apply Follows.after (postMarker_follows ..)
    | with_reducible apply Follows.foldl
    | split
    | dsimp only
    | intro _

theorem premark_follows (i : Nat) (s : State) (k : Nat) :
    Follows [.out, .basin, .islands, .staging, .intc, .pcie, .fw] s (premark i s k) := by
  unfold premark
  repeat' first
    | decide
    | with_reducible exact Follows.refl ..
    | with_reducible apply Follows.after (updIsl_follows ..)
    | with_reducible apply Follows.after (putMarker_follows ..)
    | with_reducible apply Follows.foldl
    | with_reducible apply Follows.foldlFst
    | split
    | dsimp only
    | with_reducible refine Follows.fst (by assumption) ?_
    | intro _

theorem premarks_follows (s : State) (i : Nat) :
    Follows [.out, .basin, .islands, .staging, .intc, .pcie, .fw] s (premarks s i) := by
  unfold premarks
  repeat' first
    | decide
    | with_reducible exact Follows.refl ..
    | with_reducible apply Follows.after (premark_follows ..)
    | with_reducible apply Follows.foldl
    | split
    | dsimp only
    | intro _

theorem leaveFence_follows (s : State) (i : Nat) :
    Follows [.out, .basin, .islands, .staging, .intc, .pcie, .fw] s (leaveFence s i) := by
  unfold leaveFence
  repeat' first
    | decide
    | with_reducible exact Follows.refl ..
    | with_reducible apply Follows.after (updIsl_follows ..)
    | with_reducible apply Follows.after (postRec_follows ..)
    | with_reducible apply Follows.after (postMarkers_follows ..)
    | with_reducible apply Follows.foldl
    | split
    | dsimp only
    | intro _

theorem releaseTp_follows (s : State) :
    Follows [.out, .basin, .staging, .intc, .pcie, .fw, .pi, .tp] s (releaseTp s) := by
  unfold releaseTp
  repeat' first
    | decide
    | with_reducible exact Follows.refl ..
    | with_reducible apply Follows.after (onTp_follows ..)
    | with_reducible apply Follows.after (oweAll_follows ..)
    | with_reducible apply Follows.after (panelKick_follows ..)
    | with_reducible apply Follows.after (blitClose_follows ..)
    | with_reducible apply Follows.after (evqLevels_follows ..)
    | with_reducible apply Follows.foldl
    | split
    | dsimp only
    | intro _

theorem releaseCv_follows (s : State) :
    Follows [.cv] s (releaseCv s) := by
  unfold releaseCv
  repeat' first
    | decide
    | with_reducible exact Follows.refl ..
    | with_reducible apply Follows.after (onCv_follows ..)
    | with_reducible apply Follows.after (cvStart_follows ..)
    | with_reducible apply Follows.foldl
    | split
    | dsimp only
    | intro _

theorem releaseDecks_follows (s : State) (i : Nat) (restored : Bool) :
    Follows [.out, .basin, .weir, .staging, .intc, .pcie, .fw, .tp, .sl, .dh] s (releaseDecks s i restored) := by
  unfold releaseDecks
  repeat' first
    | decide
    | with_reducible exact Follows.refl ..
    | with_reducible apply Follows.after (reschedule_follows ..)
    | with_reducible apply Follows.after (deckBoot_follows ..)
    | with_reducible apply Follows.foldl
    | split
    | dsimp only
    | intro _

theorem releaseTl_follows (s : State) (i : Nat) :
    Follows [.out, .basin, .staging, .intc, .pcie, .fw, .tp, .tl] s (releaseTl s i) := by
  unfold releaseTl
  repeat' first
    | decide
    | with_reducible exact Follows.refl ..
    | with_reducible apply Follows.after (laneSettle_follows ..)
    | with_reducible apply Follows.after (newSession_follows ..)
    | with_reducible apply Follows.foldl
    | split
    | dsimp only
    | intro _

theorem releasePi_follows (s : State) :
    Follows [.out, .basin, .staging, .intc, .fw, .pi, .tp] s (releasePi s) := by
  unfold releasePi
  repeat' first
    | decide
    | with_reducible exact Follows.refl ..
    | with_reducible apply Follows.after (updSq_follows ..)
    | with_reducible apply Follows.after (sqEnd_follows ..)
    | with_reducible apply Follows.after (updI2c_follows ..)
    | with_reducible apply Follows.after (i2cEnd_follows ..)
    | with_reducible apply Follows.after (avsEnd_follows ..)
    | with_reducible apply Follows.after (panelKick_follows ..)
    | with_reducible apply Follows.after (gpioLevels_follows ..)
    | with_reducible apply Follows.foldl
    | split
    | dsimp only
    | intro _

theorem releaseEffects_follows (s : State) (i : Nat) (restored : Bool) :
    Follows [.out, .basin, .weir, .staging, .intc, .mbx, .pcie, .fw, .pi, .tp, .tl, .cv, .sl, .dh] s (releaseEffects s i restored) := by
  unfold releaseEffects
  repeat' first
    | decide
    | with_reducible exact Follows.refl ..
    | with_reducible apply Follows.after (vecRelease_follows ..)
    | with_reducible apply Follows.after (weirSettle_follows ..)
    | with_reducible apply Follows.after (flushReplies_follows ..)
    | with_reducible apply Follows.after (slRestore_follows ..)
    | with_reducible apply Follows.after (releaseTp_follows ..)
    | with_reducible apply Follows.after (releaseCv_follows ..)
    | with_reducible apply Follows.after (releaseDecks_follows ..)
    | with_reducible apply Follows.after (releaseTl_follows ..)
    | with_reducible apply Follows.after (releasePi_follows ..)
    | with_reducible apply Follows.foldl
    | split
    | dsimp only
    | intro _

theorem releaseIsland_follows (s : State) (i : Nat) :
    Follows [.out, .basin, .weir, .islands, .staging, .intc, .mbx, .pcie, .fw, .pi, .tp, .tl, .cv, .sl, .dh] s (releaseIsland s i) := by
  unfold releaseIsland
  repeat' first
    | decide
    | with_reducible exact Follows.refl ..
    | with_reducible apply Follows.after (causes_follows ..)
    | with_reducible apply Follows.after (caused_follows ..)
    | with_reducible apply Follows.after (resetReply_follows ..)
    | with_reducible apply Follows.after (leaveFence_follows ..)
    | with_reducible apply Follows.after (releaseEffects_follows ..)
    | with_reducible apply Follows.foldl
    | split
    | dsimp only
    | intro _

theorem firmwareRelease_follows (s : State) (i : Nat) :
    Follows [.out, .basin, .weir, .islands, .staging, .intc, .mbx, .pcie, .fw, .pi, .tp, .tl, .cv, .sl, .dh] s (firmwareRelease s i) := by
  unfold firmwareRelease
  repeat' first
    | decide
    | with_reducible exact Follows.refl ..
    | with_reducible apply Follows.after (premarks_follows ..)
    | with_reducible apply Follows.after (releaseIsland_follows ..)
    | with_reducible apply Follows.foldl
    | split
    | dsimp only
    | intro _

theorem controlRelease_follows (s : State) (a : Nat) (i : Nat) :
    Follows [.out, .basin, .weir, .islands, .staging, .intc, .mbx, .pcie, .fw, .pi, .tp, .tl, .cv, .sl, .dh] s (controlRelease s a i) := by
  unfold controlRelease
  repeat' first
    | decide
    | with_reducible exact Follows.refl ..
    | with_reducible apply Follows.after (firmwareRelease_follows ..)
    | with_reducible apply Follows.foldl
    | split
    | dsimp only
    | intro _

theorem execIsControlReset_follows (agent : Agent) (island : Fin 16) (s : State) :
    Leads [.fresh, .out, .sys, .basin, .weir, .islands, .intc, .mbx, .pcie, .fw, .gp, .pi, .tp, .tl, .cv, .sl, .dh] s (execIsControlReset agent island s) := by
  unfold execIsControlReset
  repeat' first
    | decide
    | with_reducible exact Follows.refl ..
    | with_reducible apply Leads.next
    | with_reducible apply isReach_follows
    | with_reducible apply Follows.after (controlReset_follows ..)
    | with_reducible apply Follows.foldl
    | split
    | dsimp only
    | with_reducible exact Leads.refused _ _ _
    | intro _

theorem execIsControlRelease_follows (agent : Agent) (island : Fin 16) (s : State) :
    Leads [.fresh, .out, .sys, .basin, .weir, .islands, .staging, .intc, .mbx, .pcie, .fw, .pi, .tp, .tl, .cv, .sl, .dh] s (execIsControlRelease agent island s) := by
  unfold execIsControlRelease
  repeat' first
    | decide
    | with_reducible exact Follows.refl ..
    | with_reducible apply Leads.next
    | with_reducible apply isReach_follows
    | with_reducible apply Follows.after (controlRelease_follows ..)
    | with_reducible apply Follows.foldl
    | split
    | dsimp only
    | with_reducible exact Leads.refused _ _ _
    | intro _

theorem execJtagFenceRelease_follows (island : Fin 16) (s : State) :
    Leads [.out, .basin, .weir, .islands, .staging, .intc, .mbx, .pcie, .fw, .pi, .tp, .tl, .cv, .sl, .dh] s (execJtagFenceRelease island s) := by
  unfold execJtagFenceRelease
  repeat' first
    | decide
    | with_reducible exact Follows.refl ..
    | with_reducible apply Leads.next
    | with_reducible apply Follows.after (updIsl_follows ..)
    | with_reducible apply Follows.after (premarks_follows ..)
    | with_reducible apply Follows.after (releaseIsland_follows ..)
    | with_reducible apply Follows.foldl
    | split
    | dsimp only
    | with_reducible exact Leads.refused _ _ _
    | intro _

/-! ### Loops -/

theorem execDroopDetected_follows (island : Fin 16) (depthMv : BitVec 8) (s : State) :
    Leads [.islands] s (execDroopDetected island depthMv s) := by
  unfold execDroopDetected
  repeat' first
    | decide
    | with_reducible exact Follows.refl ..
    | with_reducible apply Leads.next
    | with_reducible apply Follows.after (updIsl_follows ..)
    | with_reducible apply Follows.foldl
    | split
    | dsimp only
    | with_reducible exact Leads.refused _ _ _
    | intro _

theorem execStretchEnd_follows (island : Fin 16) (s : State) :
    Leads [.islands] s (execStretchEnd island s) := by
  unfold execStretchEnd
  repeat' first
    | decide
    | with_reducible exact Follows.refl ..
    | with_reducible apply Leads.next
    | with_reducible apply Follows.after (updIsl_follows ..)
    | with_reducible apply Follows.foldl
    | split
    | dsimp only
    | with_reducible exact Leads.refused _ _ _
    | intro _

theorem execStretchLong_follows (island : Fin 16) (s : State) :
    Leads [.tick, .staging, .intc, .fw] s (execStretchLong island s) := by
  unfold execStretchLong
  repeat' first
    | decide
    | with_reducible exact Follows.refl ..
    | with_reducible apply Leads.next
    | with_reducible apply Follows.after (loopWarning_follows ..)
    | with_reducible apply Follows.after (atTick_follows ..)
    | with_reducible apply Follows.foldl
    | split
    | dsimp only
    | with_reducible exact Leads.refused _ _ _
    | intro _

theorem noteMargin_follows (s : State) (i : Nat) (m : Int) :
    Follows [.islands] s (noteMargin s i m) := by
  unfold noteMargin
  repeat' first
    | decide
    | with_reducible exact Follows.refl ..
    | with_reducible apply Follows.after (updIsl_follows ..)
    | with_reducible apply Follows.foldl
    | split
    | dsimp only
    | intro _

theorem takeCaps_follows (s : State) (rail : Nat) :
    Follows [.islands] s (takeCaps s rail) := by
  unfold takeCaps
  repeat' first
    | decide
    | with_reducible exact Follows.refl ..
    | with_reducible apply Follows.after (updIsl_follows ..)
    | with_reducible apply Follows.foldl
    | split
    | dsimp only
    | intro _

theorem capCheck_follows (needMv : Nat) (s : State) (i : Nat) :
    Follows [.islands, .staging, .intc, .fw] s (capCheck needMv s i) := by
  unfold capCheck
  repeat' first
    | decide
    | with_reducible exact Follows.refl ..
    | with_reducible apply Follows.after (updIsl_follows ..)
    | with_reducible apply Follows.after (policyConflict_follows ..)
    | with_reducible apply Follows.foldl
    | split
    | dsimp only
    | intro _

theorem capRefused_follows (s : State) (rail : Nat) (needMv : Nat) :
    Follows [.islands, .rails, .staging, .intc, .fw] s (capRefused s rail needMv) := by
  unfold capRefused
  repeat' first
    | decide
    | with_reducible exact Follows.refl ..
    | with_reducible apply Follows.after (updRail_follows ..)
    | with_reducible apply Follows.after (takeCaps_follows ..)
    | with_reducible apply Follows.after (capCheck_follows ..)
    | with_reducible apply Follows.foldl
    | split
    | dsimp only
    | intro _

theorem railAtMax_follows (s : State) (rail : Nat) (now : Nat) (low : Option (Nat × Int)) :
    Follows [.rails, .staging, .intc, .fw] s (railAtMax s rail now low) := by
  unfold railAtMax
  repeat' first
    | decide
    | with_reducible exact Follows.refl ..
    | with_reducible apply Follows.after (loopWarning_follows ..)
    | with_reducible apply Follows.after (updRail_follows ..)
    | with_reducible apply Follows.foldl
    | split
    | dsimp only
    | intro _

theorem execVoltageLoopStep_follows (rail : Fin 2) (margins : List Int) (settled : Bool) (needMv : Nat) (s : State) :
    Leads [.out, .islands, .rails, .staging, .intc, .fw, .pi] s (execVoltageLoopStep rail margins settled needMv s) := by
  unfold execVoltageLoopStep
  repeat' first
    | decide
    | with_reducible exact Follows.refl ..
    | with_reducible apply Leads.next
    | with_reducible apply Follows.after (avsCmd_follows ..)
    | with_reducible apply Follows.after (noteMargin_follows ..)
    | with_reducible apply Follows.after (capRefused_follows ..)
    | with_reducible apply Follows.after (railAtMax_follows ..)
    | with_reducible apply Follows.foldl
    | split
    | dsimp only
    | with_reducible exact Leads.refused _ _ _
    | intro _

theorem execFrequencyLoopStep_follows (island : Fin 16) (margin : Int) (held : Bool) (s : State) :
    Leads [.islands, .staging, .intc, .fw] s (execFrequencyLoopStep island margin held s) := by
  unfold execFrequencyLoopStep
  repeat' first
    | decide
    | with_reducible exact Follows.refl ..
    | with_reducible apply Leads.next
    | with_reducible apply Follows.after (updIsl_follows ..)
    | with_reducible apply Follows.after (loopWarning_follows ..)
    | with_reducible apply Follows.after (policyConflict_follows ..)
    | with_reducible apply Follows.after (noteMargin_follows ..)
    | with_reducible apply Follows.foldl
    | split
    | dsimp only
    | with_reducible exact Leads.refused _ _ _
    | intro _

theorem noteTemp_follows (s : State) (i : Nat) (t : BitVec 11) :
    Follows [.out, .pins, .islands] s (noteTemp s i t) := by
  unfold noteTemp
  repeat' first
    | decide
    | with_reducible exact Follows.refl ..
    | with_reducible apply Follows.after (emit_follows ..)
    | with_reducible apply Follows.after (updIsl_follows ..)
    | with_reducible apply Follows.foldl
    | split
    | dsimp only
    | with_reducible apply Follows.set_pins
    | intro _

theorem execThermN_follows (island : Fin 16) (temp : BitVec 11) (s : State) :
    Leads [.out, .pins, .islands] s (execThermN island temp s) := by
  unfold execThermN
  repeat' first
    | decide
    | with_reducible exact Follows.refl ..
    | with_reducible apply Leads.next
    | with_reducible apply Follows.after (noteTemp_follows ..)
    | with_reducible apply Follows.foldl
    | split
    | dsimp only
    | with_reducible exact Leads.refused _ _ _
    | intro _

theorem execTempHigh_follows (island : Fin 16) (temp : BitVec 11) (s : State) :
    Leads [.out, .pins, .islands, .staging, .intc, .fw] s (execTempHigh island temp s) := by
  unfold execTempHigh
  repeat' first
    | decide
    | with_reducible exact Follows.refl ..
    | with_reducible apply Leads.next
    | with_reducible apply Follows.after (updIsl_follows ..)
    | with_reducible apply Follows.after (loopWarning_follows ..)
    | with_reducible apply Follows.after (noteTemp_follows ..)
    | with_reducible apply Follows.foldl
    | split
    | dsimp only
    | with_reducible exact Leads.refused _ _ _
    | intro _

/-! ### Boot -/

theorem copyPayload_follows (s : State) (p : List Byte) (hit : Option (Fin 65536)) :
    Follows [.out, .basin, .staging, .intc, .pcie, .fw] s (copyPayload s p hit).1 := by
  unfold copyPayload
  repeat' first
    | decide
    | with_reducible exact Follows.refl ..
    | with_reducible apply Follows.after (strikeDw_follows ..)
    | with_reducible apply Follows.after (readMem_follows ..)
    | with_reducible apply Follows.after (writeMem_follows ..)
    | with_reducible apply Follows.foldl
    | with_reducible apply Follows.foldlFst
    | split
    | dsimp only
    | with_reducible refine Follows.fst (by assumption) ?_
    | intro _

theorem bootVerify_follows (s : State) (k : Nat) (r : SlotReads) :
    Follows [.out, .basin, .staging, .intc, .pcie, .fw] s (bootVerify s k r).1 := by
  unfold bootVerify
  repeat' first
    | decide
    | with_reducible exact Follows.refl ..
    | with_reducible apply Follows.after (copyPayload_follows ..)
    | with_reducible apply Follows.foldl
    | with_reducible apply Follows.foldlFst
    | split
    | dsimp only
    | with_reducible refine Follows.fst (by assumption) ?_
    | intro _

theorem loadImage_follows (s : State) (k : Nat) (p : List Byte) :
    Follows [.sys, .fw] s (loadImage s k p) := by
  unfold loadImage
  repeat' first
    | decide
    | with_reducible exact Follows.refl ..
    | with_reducible apply Follows.after (onFw_follows ..)
    | with_reducible apply Follows.after (onSys_follows ..)
    | with_reducible apply Follows.foldl
    | split
    | dsimp only
    | intro _

theorem enterMode_follows (s : State) (m : BitVec 4) (cause : Nat) :
    Follows [.sys, .staging, .intc, .fw] s (enterMode s m cause) := by
  unfold enterMode
  repeat' first
    | decide
    | with_reducible exact Follows.refl ..
    | with_reducible apply Follows.after (postCycleRec_follows ..)
    | with_reducible apply Follows.after (onSys_follows ..)
    | with_reducible apply Follows.foldl
    | split
    | dsimp only
    | intro _

theorem setTried_follows (s : State) (k : Nat) (b : Bool) :
    Follows [.sys] s (setTried s k b) := by
  unfold setTried
  repeat' first
    | decide
    | with_reducible exact Follows.refl ..
    | with_reducible apply Follows.after (onSys_follows ..)
    | with_reducible apply Follows.foldl
    | split
    | dsimp only
    | intro _

theorem setFail_follows (s : State) (k : Nat) (code : Nat) :
    Follows [.sys] s (setFail s k code) := by
  unfold setFail
  repeat' first
    | decide
    | with_reducible exact Follows.refl ..
    | with_reducible apply Follows.after (onSys_follows ..)
    | with_reducible apply Follows.foldl
    | split
    | dsimp only
    | intro _

theorem trySlot_follows (s : State) (k : Nat) (r : SlotReads) :
    Follows [.out, .sys, .basin, .staging, .intc, .pcie, .fw] s (trySlot s k r).1 := by
  unfold trySlot
  repeat' first
    | decide
    | with_reducible exact Follows.refl ..
    | with_reducible apply Follows.after (onSys_follows ..)
    | with_reducible apply Follows.after (bootVerify_follows ..)
    | with_reducible apply Follows.after (loadImage_follows ..)
    | with_reducible apply Follows.after (setTried_follows ..)
    | with_reducible apply Follows.after (setFail_follows ..)
    | with_reducible apply Follows.foldl
    | with_reducible apply Follows.foldlFst
    | split
    | dsimp only
    | with_reducible refine Follows.fst (by assumption) ?_
    | intro _

theorem toRecover_follows (s : State) (cause : Nat) :
    Follows [.sys, .staging, .intc, .win, .fw] s (toRecover s cause) := by
  unfold toRecover
  repeat' first
    | decide
    | with_reducible exact Follows.refl ..
    | with_reducible apply Follows.after (setGuards_follows ..)
    | with_reducible apply Follows.after (onSys_follows ..)
    | with_reducible apply Follows.after (enterMode_follows ..)
    | with_reducible apply Follows.foldl
    | split
    | dsimp only
    | intro _

theorem bootSlots_follows (s : State) (sfdp : Sfdp) (readA : SlotReads) (readB : SlotReads) :
    Follows [.out, .sys, .basin, .staging, .intc, .win, .pcie, .fw] s (bootSlots s sfdp readA readB) := by
  unfold bootSlots
  repeat' first
    | decide
    | with_reducible exact Follows.refl ..
    | with_reducible apply Follows.after (onSys_follows ..)
    | with_reducible apply Follows.after (trySlot_follows ..)
    | with_reducible apply Follows.after (toRecover_follows ..)
    | with_reducible apply Follows.foldl
    | with_reducible apply Follows.foldlFst
    | split
    | dsimp only
    | with_reducible refine Follows.fst (by assumption) ?_
    | intro _

theorem execResetRelease_follows (basinOk : Bool) (strapLow : Bool) (sfdp : Sfdp) (readA : SlotReads) (readB : SlotReads) (s : State) :
    Leads [.out, .sys, .basin, .weir, .islands, .rails, .staging, .intc, .mbx, .win, .pcie, .fw, .gp, .pi, .tp, .tl, .cyc, .cv, .sl, .dh] s (execResetRelease basinOk strapLow sfdp readA readB s) := by
  unfold execResetRelease
  repeat' first
    | decide
    | with_reducible exact Follows.refl ..
    | with_reducible apply Leads.next
    | with_reducible apply Follows.after (onSys_follows ..)
    | with_reducible apply Follows.after (deviceReset_follows ..)
    | with_reducible apply Follows.after (toRecover_follows ..)
    | with_reducible apply Follows.after (bootSlots_follows ..)
    | with_reducible apply Follows.foldl
    | split
    | dsimp only
    | with_reducible exact Leads.refused _ _ _
    | intro _

theorem execFirmwareCommissionReached_follows (s : State) :
    Leads [.sys, .rails, .staging, .intc, .fw, .tp, .cv, .dh] s (execFirmwareCommissionReached s) := by
  unfold execFirmwareCommissionReached
  repeat' first
    | decide
    | with_reducible exact Follows.refl ..
    | with_reducible apply Leads.next
    | with_reducible apply Follows.after (onFw_follows ..)
    | with_reducible apply Follows.after (postRec_follows ..)
    | with_reducible apply Follows.after (onTp_follows ..)
    | with_reducible apply Follows.after (updRail_follows ..)
    | with_reducible apply Follows.after (deckBoot_follows ..)
    | with_reducible apply Follows.after (onSys_follows ..)
    | with_reducible apply Follows.after (cvStart_follows ..)
    | with_reducible apply Follows.after (enterMode_follows ..)
    | with_reducible apply Follows.after (setTried_follows ..)
    | with_reducible apply Follows.foldl
    | split
    | dsimp only
    | with_reducible exact Leads.refused _ _ _
    | intro _

theorem failedRestart_follows (s : State) :
    Follows [.out, .sys, .basin, .weir, .islands, .rails, .staging, .intc, .mbx, .win, .pcie, .fw, .gp, .pi, .tp, .tl, .cyc, .cv, .sl, .dh] s (failedRestart s) := by
  unfold failedRestart
  repeat' first
    | decide
    | with_reducible exact Follows.refl ..
    | with_reducible apply Follows.after (deviceReset_follows ..)
    | with_reducible apply Follows.foldl
    | split
    | dsimp only
    | intro _

theorem execWarmRestartResume_follows (reads : SlotReads) (modeOk : Bool) (s : State) :
    Leads [.out, .sys, .basin, .weir, .islands, .rails, .staging, .intc, .mbx, .win, .pcie, .fw, .gp, .pi, .tp, .tl, .cyc, .cv, .sl, .dh] s (execWarmRestartResume reads modeOk s) := by
  unfold execWarmRestartResume
  repeat' first
    | decide
    | with_reducible exact Follows.refl ..
    | with_reducible apply Leads.next
    | with_reducible apply Follows.after (onFw_follows ..)
    | with_reducible apply Follows.after (onSys_follows ..)
    | with_reducible apply Follows.after (releaseIsland_follows ..)
    | with_reducible apply Follows.after (bootVerify_follows ..)
    | with_reducible apply Follows.after (loadImage_follows ..)
    | with_reducible apply Follows.after (failedRestart_follows ..)
    | with_reducible apply Follows.foldl
    | with_reducible apply Follows.foldlFst
    | split
    | dsimp only
    | with_reducible refine Follows.fst (by assumption) ?_
    | with_reducible exact Leads.refused _ _ _
    | intro _

/-! ### Cycle -/

theorem execHostWatchdogExpiry_follows (s : State) :
    Leads [.tick] s (execHostWatchdogExpiry s) := by
  unfold execHostWatchdogExpiry
  repeat' first
    | decide
    | with_reducible exact Follows.refl ..
    | with_reducible apply Leads.next
    | with_reducible apply Follows.after (atTick_follows ..)
    | with_reducible apply Follows.foldl
    | split
    | dsimp only
    | with_reducible exact Leads.refused _ _ _
    | intro _

theorem cancelSetMode_follows (s : State) :
    Follows [.fw] s (cancelSetMode s) := by
  unfold cancelSetMode
  repeat' first
    | decide
    | with_reducible exact Follows.refl ..
    | with_reducible apply Follows.after (onFw_follows ..)
    | with_reducible apply Follows.foldl
    | split
    | dsimp only
    | intro _

theorem abortRebind_follows (s : State) (k : Nat) :
    Follows [.out, .intc, .mbx, .pcie, .fw] s (abortRebind s k) := by
  unfold abortRebind
  repeat' first
    | decide
    | with_reducible exact Follows.refl ..
    | with_reducible apply Follows.after (endWaiting_follows ..)
    | with_reducible apply Follows.foldl
    | split
    | dsimp only
    | intro _

theorem washScenes_follows (s : State) (on : Bool) :
    Follows [.out, .intc, .mbx, .pcie, .fw, .tp, .tl] s (washScenes s on) := by
  unfold washScenes
  repeat' first
    | decide
    | with_reducible exact Follows.refl ..
    | with_reducible apply Follows.after (bindScene_follows ..)
    | with_reducible apply Follows.after (abortRebind_follows ..)
    | with_reducible apply Follows.foldl
    | split
    | dsimp only
    | intro _

theorem endForcing_follows (s : State) :
    Follows [.tl] s (endForcing s) := by
  unfold endForcing
  repeat' first
    | decide
    | with_reducible exact Follows.refl ..
    | with_reducible apply Follows.after (updStation_follows ..)
    | with_reducible apply Follows.foldl
    | split
    | dsimp only
    | intro _

theorem modeEffects_follows (s : State) (old : BitVec 4) (new : BitVec 4) :
    Follows [.out, .basin, .weir, .staging, .intc, .mbx, .pcie, .fw, .tp, .tl, .cv, .sl, .dh] s (modeEffects s old new) := by
  unfold modeEffects
  repeat' first
    | decide
    | with_reducible exact Follows.refl ..
    | with_reducible apply Follows.after (abandonWrites_follows ..)
    | with_reducible apply Follows.after (deckHold_follows ..)
    | with_reducible apply Follows.after (deckUnhold_follows ..)
    | with_reducible apply Follows.after (onCv_follows ..)
    | with_reducible apply Follows.after (silenceMixes_follows ..)
    | with_reducible apply Follows.after (washScenes_follows ..)
    | with_reducible apply Follows.after (endForcing_follows ..)
    | with_reducible apply Follows.foldl
    | split
    | dsimp only
    | intro _

theorem changeMode_follows (s : State) (m : BitVec 4) (cause : Nat) :
    Follows [.out, .sys, .basin, .weir, .staging, .intc, .mbx, .pcie, .fw, .tp, .tl, .cv, .sl, .dh] s (changeMode s m cause) := by
  unfold changeMode
  repeat' first
    | decide
    | with_reducible exact Follows.refl ..
    | with_reducible apply Follows.after (enterMode_follows ..)
    | with_reducible apply Follows.after (modeEffects_follows ..)
    | with_reducible apply Follows.foldl
    | split
    | dsimp only
    | intro _

theorem autoMode_follows (s : State) :
    Follows [.out, .sys, .basin, .weir, .staging, .intc, .mbx, .pcie, .fw, .tp, .tl, .cv, .sl, .dh] s (autoMode s) := by
  unfold autoMode
  repeat' first
    | decide
    | with_reducible exact Follows.refl ..
    | with_reducible apply Follows.after (cancelSetMode_follows ..)
    | with_reducible apply Follows.after (changeMode_follows ..)
    | with_reducible apply Follows.foldl
    | split
    | dsimp only
    | intro _

theorem dueMode_follows (s : State) (m : Nat) (h : Word) (crc : Word) (t : BitVec 4) (cancelled : Bool) :
    Follows [.out, .sys, .basin, .weir, .staging, .intc, .mbx, .pcie, .fw, .tp, .tl, .cv, .sl, .dh] s (dueMode s m h crc t cancelled) := by
  unfold dueMode
  repeat' first
    | decide
    | with_reducible exact Follows.refl ..
    | with_reducible apply Follows.after (endWaiting_follows ..)
    | with_reducible apply Follows.after (enterMode_follows ..)
    | with_reducible apply Follows.after (modeEffects_follows ..)
    | with_reducible apply Follows.foldl
    | split
    | dsimp only
    | intro _

theorem dueModes_follows (s : State) (at_ : Nat) :
    Follows [.out, .sys, .basin, .weir, .staging, .intc, .mbx, .pcie, .fw, .tp, .tl, .cv, .sl, .dh] s (dueModes s at_) := by
  unfold dueModes
  repeat' first
    | decide
    | with_reducible exact Follows.refl ..
    | with_reducible apply Follows.after (causes_follows ..)
    | with_reducible apply Follows.after (caused_follows ..)
    | with_reducible apply Follows.after (dueMode_follows ..)
    | with_reducible apply Follows.foldl
    | split
    | dsimp only
    | intro _

theorem afterRestart_follows (s : State) :
    Follows [.sys, .staging, .intc, .fw] s (afterRestart s) := by
  unfold afterRestart
  repeat' first
    | decide
    | with_reducible exact Follows.refl ..
    | with_reducible apply Follows.after (onFw_follows ..)
    | with_reducible apply Follows.after (onSys_follows ..)
    | with_reducible apply Follows.after (enterMode_follows ..)
    | with_reducible apply Follows.foldl
    | split
    | dsimp only
    | intro _

theorem boundaryModes_follows (s : State) (at_ : Nat) :
    Follows [.out, .sys, .basin, .weir, .staging, .intc, .mbx, .pcie, .fw, .tp, .tl, .cv, .sl, .dh] s (boundaryModes s at_) := by
  unfold boundaryModes
  repeat' first
    | decide
    | with_reducible exact Follows.refl ..
    | with_reducible apply Follows.after (autoMode_follows ..)
    | with_reducible apply Follows.after (dueModes_follows ..)
    | with_reducible apply Follows.after (afterRestart_follows ..)
    | with_reducible apply Follows.foldl
    | split
    | dsimp only
    | intro _

theorem endStation_follows (s : State) (k : Nat) (t : Station) :
    Follows [.tp, .tl] s (endStation s k t) := by
  unfold endStation
  repeat' first
    | decide
    | with_reducible exact Follows.refl ..
    | with_reducible apply Follows.after (onTp_follows ..)
    | with_reducible apply Follows.after (onTl_follows _ _ rfl)
    | with_reducible apply Follows.after (updLane_follows ..)
    | with_reducible apply Follows.after (freeAll_follows ..)
    | with_reducible apply Follows.after (dropFrames_follows ..)
    | with_reducible apply Follows.foldl
    | split
    | dsimp only
    | intro _

theorem boundaryStation_follows (at_ : Nat) (s : State) (k : Nat) :
    Follows [.tp, .tl] s (boundaryStation at_ s k) := by
  unfold boundaryStation
  repeat' first
    | decide
    | with_reducible exact Follows.refl ..
    | with_reducible apply Follows.after (updScene_follows ..)
    | with_reducible apply Follows.after (oweAll_follows ..)
    | with_reducible apply Follows.after (setStation_follows ..)
    | with_reducible apply Follows.after (endStation_follows ..)
    | with_reducible apply Follows.foldl
    | split
    | dsimp only
    | intro _

theorem moveStation_follows (s : State) (k : Nat) (a : Nat) :
    Follows [.out, .basin, .staging, .intc, .pcie, .fw, .tp, .tl] s (moveStation s k a) := by
  unfold moveStation
  repeat' first
    | decide
    | with_reducible exact Follows.refl ..
    | with_reducible apply Follows.after (oweAll_follows ..)
    | with_reducible apply Follows.after (losePiece_follows ..)
    | with_reducible apply Follows.after (setStation_follows ..)
    | with_reducible apply Follows.after (dropFrames_follows ..)
    | with_reducible apply Follows.after (enterConfig_follows ..)
    | with_reducible apply Follows.foldl
    | split
    | dsimp only
    | intro _

theorem boundaryRebinds_follows (s : State) (at_ : Nat) :
    Follows [.out, .basin, .staging, .intc, .pcie, .fw, .tp, .tl] s (boundaryRebinds s at_) := by
  unfold boundaryRebinds
  repeat' first
    | decide
    | with_reducible exact Follows.refl ..
    | with_reducible apply Follows.after (onFw_follows ..)
    | with_reducible apply Follows.after (causes_follows ..)
    | with_reducible apply Follows.after (caused_follows ..)
    | with_reducible apply Follows.after (moveStation_follows ..)
    | with_reducible apply Follows.foldl
    | split
    | dsimp only
    | intro _

theorem startBeams_follows (s : State) (at_ : Nat) :
    Follows [.tp] s (startBeams s at_) := by
  unfold startBeams
  repeat' first
    | decide
    | with_reducible exact Follows.refl ..
    | with_reducible apply Follows.after (onTp_follows ..)
    | with_reducible apply Follows.foldl
    | split
    | dsimp only
    | intro _

theorem boundaryLane_follows (s : State) (l : Nat) :
    Follows [.out, .tl] s (boundaryLane s l) := by
  unfold boundaryLane
  repeat' first
    | decide
    | with_reducible exact Follows.refl ..
    | with_reducible apply Follows.after (updLane_follows ..)
    | with_reducible apply Follows.after (queueConfigs_follows ..)
    | with_reducible apply Follows.after (queueAudio_follows ..)
    | with_reducible apply Follows.after (sendFrame_follows ..)
    | with_reducible apply Follows.foldl
    | split
    | dsimp only
    | intro _

theorem beginCycle_follows (s : State) (at_ : Nat) :
    Follows [.tick, .tl, .cyc] s (beginCycle s at_) := by
  unfold beginCycle
  repeat' first
    | decide
    | with_reducible exact Follows.refl ..
    | with_reducible apply Follows.after (atTick_follows ..)
    | with_reducible apply Follows.after (onTl_follows _ _ rfl)
    | with_reducible apply Follows.after (onTl_follows_cyc ..)
    | with_reducible apply Follows.foldl
    | split
    | dsimp only
    | intro _

theorem cycleBoundary_follows (s : State) :
    Follows [.tick, .out, .sys, .basin, .weir, .staging, .intc, .mbx, .pcie, .fw, .tp, .tl, .cyc, .cv, .sl, .dh] s (cycleBoundary s) := by
  unfold cycleBoundary
  repeat' first
    | decide
    | with_reducible exact Follows.refl ..
    | with_reducible apply Follows.after (formOutput_follows ..)
    | with_reducible apply Follows.after (boundaryModes_follows ..)
    | with_reducible apply Follows.after (boundaryStation_follows ..)
    | with_reducible apply Follows.after (boundaryRebinds_follows ..)
    | with_reducible apply Follows.after (startBeams_follows ..)
    | with_reducible apply Follows.after (boundaryLane_follows ..)
    | with_reducible apply Follows.after (beginCycle_follows ..)
    | with_reducible apply Follows.foldl
    | split
    | dsimp only
    | intro _

theorem execCycleBoundary_follows (s : State) :
    Leads [.tick, .out, .sys, .basin, .weir, .staging, .intc, .mbx, .pcie, .fw, .tp, .tl, .cyc, .cv, .sl, .dh] s (execCycleBoundary s) := by
  unfold execCycleBoundary
  repeat' first
    | decide
    | with_reducible exact Follows.refl ..
    | with_reducible apply Leads.next
    | with_reducible apply Follows.after (cycleBoundary_follows ..)
    | with_reducible apply Follows.foldl
    | split
    | dsimp only
    | with_reducible exact Leads.refused _ _ _
    | intro _

end Sys2Proof.Machine
end

