-- ==== Sys2Proof/Laws/FollowsRegs.lean ====
section
/-! SUPPORT. What each operation may change (`Follows`): the registers and the accesses of the cores. -/

set_option linter.unusedTactic false
set_option linter.unreachableTactic false
set_option linter.unusedVariables false

open Sys2Proof

namespace Sys2Proof.Machine

/-! ### RegSys -/

theorem guardR_follows {l : List Part} {s t : State} (ok up : Bool) (f : State → State × Word)
    (h : ∀ u, Follows l u (f u).1) (g : Follows l s t) : Follows l s (guardR ok up t f).1 := by
  unfold guardR
  repeat' first
    | exact g
    | exact g.trans (h t)
    | split

theorem guardW_follows {l : List Part} {s t : State} (ok up : Bool) (f : State → State)
    (h : ∀ u, Follows l u (f u)) (g : Follows l s t) : Follows l s (guardW ok up t f).1 := by
  unfold guardW
  repeat' first
    | exact g
    | exact g.trans (h t)
    | split

theorem sysRead_follows (s : State) (a : Nat) (o : Nat) :
    Follows [.sys] s (sysRead s a o).1 := by
  unfold sysRead
  repeat' first
    | decide
    | with_reducible exact Follows.refl ..
    | with_reducible apply Follows.after (onSys_follows ..)
    | with_reducible apply Follows.foldl
    | with_reducible apply Follows.foldlFst
    | split
    | dsimp only [id]
    | with_reducible refine Follows.fst (by assumption) ?_
    | intro _

theorem sysWrite_follows (s : State) (a : Nat) (o : Nat) (v : Word) :
    Follows [.sys] s (sysWrite s a o v) := by
  unfold sysWrite
  repeat' first
    | decide
    | with_reducible exact Follows.refl ..
    | with_reducible apply Follows.after (onSys_follows ..)
    | with_reducible apply Follows.foldl
    | split
    | dsimp only [id]
    | intro _

theorem lkRegWrite_follows (s : State) (o : Nat) (v : Word) :
    Follows [.sys] s (lkRegWrite s o v) := by
  unfold lkRegWrite
  repeat' first
    | decide
    | with_reducible exact Follows.refl ..
    | with_reducible apply Follows.after (onSys_follows ..)
    | with_reducible apply Follows.foldl
    | split
    | dsimp only [id]
    | intro _

theorem lkRead_follows (s : State) (o : Nat) :
    Follows [.fresh] s (lkRead s o).1 := by
  unfold lkRead
  repeat' first
    | decide
    | with_reducible exact Follows.refl ..
    | with_reducible apply Follows.after (drawFree_follows ..)
    | with_reducible apply Follows.foldl
    | with_reducible apply Follows.foldlFst
    | split
    | dsimp only [id]
    | with_reducible refine Follows.fst (by assumption) ?_
    | intro _

theorem lkWrite_follows (s : State) (o : Nat) (v : Word) :
    Follows [.sys] s (lkWrite s o v) := by
  unfold lkWrite
  repeat' first
    | decide
    | with_reducible exact Follows.refl ..
    | with_reducible apply Follows.after (onSys_follows ..)
    | with_reducible apply Follows.after (lkRegWrite_follows ..)
    | with_reducible apply Follows.foldl
    | split
    | dsimp only [id]
    | intro _

theorem mbSideRead_follows (s : State) (a : Nat) (m : Nat) (b : Bool) (aligned : Bool) (o : Nat) :
    Follows [.out, .intc, .mbx, .pcie, .fw] s (mbSideRead s a m b aligned o).1 := by
  unfold mbSideRead
  repeat' first
    | decide
    | with_reducible exact Follows.refl ..
    | with_reducible apply Follows.after (flagSide_follows ..)
    | with_reducible apply Follows.after (rxPop_follows ..)
    | with_reducible apply Follows.foldl
    | with_reducible apply Follows.foldlFst
    | split
    | dsimp only [id]
    | with_reducible refine Follows.fst (by assumption) ?_
    | intro _

theorem clearIrq_follows (s : State) (m : Nat) (b : Bool) (v : Word) :
    Follows [.intc, .mbx] s (clearIrq s m b v) := by
  unfold clearIrq
  repeat' first
    | decide
    | with_reducible exact Follows.refl ..
    | with_reducible apply Follows.after (updMbx_follows ..)
    | with_reducible apply Follows.after (driveSide_follows ..)
    | with_reducible apply Follows.foldl
    | split
    | dsimp only [id]
    | intro _

theorem mbSideWrite_follows (s : State) (a : Nat) (m : Nat) (b : Bool) (aligned : Bool) (o : Nat) (v : Word) :
    Follows [.out, .intc, .mbx, .pcie] s (mbSideWrite s a m b aligned o v) := by
  unfold mbSideWrite
  repeat' first
    | decide
    | with_reducible exact Follows.refl ..
    | with_reducible apply Follows.after (flagSide_follows ..)
    | with_reducible apply Follows.after (enqueue_follows ..)
    | with_reducible apply Follows.after (irqEnWrite_follows ..)
    | with_reducible apply Follows.after (clearIrq_follows ..)
    | with_reducible apply Follows.foldl
    | split
    | dsimp only [id]
    | intro _

theorem mbRead_follows (s : State) (a : Nat) (m : Nat) (aligned : Bool) (o : Nat) :
    Follows [.out, .intc, .mbx, .pcie, .fw] s (mbRead s a m aligned o).1 := by
  unfold mbRead
  repeat' first
    | decide
    | with_reducible exact Follows.refl ..
    | with_reducible apply Follows.after (lockErr_follows ..)
    | with_reducible apply Follows.after (mbLockRead_follows ..)
    | with_reducible apply Follows.after (mbSideRead_follows ..)
    | with_reducible apply Follows.foldl
    | with_reducible apply Follows.foldlFst
    | split
    | dsimp only [id]
    | with_reducible refine Follows.fst (by assumption) ?_
    | intro _

theorem mbWrite_follows (s : State) (a : Nat) (m : Nat) (aligned : Bool) (o : Nat) (v : Word) :
    Follows [.out, .intc, .mbx, .pcie] s (mbWrite s a m aligned o v) := by
  unfold mbWrite
  repeat' first
    | decide
    | with_reducible exact Follows.refl ..
    | with_reducible apply Follows.after (lockErr_follows ..)
    | with_reducible apply Follows.after (mbLockWrite_follows ..)
    | with_reducible apply Follows.after (mbSideWrite_follows ..)
    | with_reducible apply Follows.foldl
    | split
    | dsimp only [id]
    | intro _

theorem winRead_follows (s : State) (o : Nat) :
    Follows [.win] s (winRead s o).1 := by
  unfold winRead
  repeat' first
    | decide
    | with_reducible exact Follows.refl ..
    | with_reducible apply Follows.after (onWin_follows ..)
    | with_reducible apply Follows.foldl
    | with_reducible apply Follows.foldlFst
    | split
    | dsimp only [id]
    | with_reducible refine Follows.fst (by assumption) ?_
    | intro _

theorem winWrite_follows (s : State) (o : Nat) (v : Word) :
    Follows [.win] s (winWrite s o v) := by
  unfold winWrite
  repeat' first
    | decide
    | with_reducible exact Follows.refl ..
    | with_reducible apply Follows.after (onWin_follows ..)
    | with_reducible apply Follows.after (setGuards_follows ..)
    | with_reducible apply Follows.foldl
    | split
    | dsimp only [id]
    | intro _

theorem weirRead_follows (s : State) (a : Nat) (o : Nat) :
    Follows [.out, .basin, .weir, .staging, .intc, .pcie, .fw] s (weirRead s a o).1 := by
  unfold weirRead
  repeat' first
    | decide
    | with_reducible exact Follows.refl ..
    | with_reducible apply guardR_follows
    | with_reducible apply Follows.after (weirWait_follows ..)
    | with_reducible apply Follows.after (weirCatch_follows ..)
    | with_reducible apply Follows.after (lockReadReg_follows ..)
    | with_reducible apply Follows.foldl
    | with_reducible apply Follows.foldlFst
    | split
    | dsimp only [id]
    | with_reducible refine Follows.fst (by assumption) ?_
    | intro _

theorem ctxWrite_follows (s : State) (a : Nat) (o : Nat) (v : Word) :
    Follows [.weir, .intc] s (ctxWrite s a o v) := by
  unfold ctxWrite
  repeat' first
    | decide
    | with_reducible exact Follows.refl ..
    | with_reducible apply Follows.after (weirTake_follows ..)
    | with_reducible apply Follows.foldl
    | split
    | dsimp only [id]
    | intro _

theorem weirWrite_follows (s : State) (a : Nat) (o : Nat) (v : Word) :
    Follows [.out, .basin, .weir, .staging, .intc, .pcie, .fw] s (weirWrite s a o v).1 := by
  unfold weirWrite
  repeat' first
    | decide
    | with_reducible exact Follows.refl ..
    | with_reducible apply guardW_follows
    | with_reducible apply Follows.after (lockWriteReg_follows ..)
    | with_reducible apply Follows.after (ctxWrite_follows ..)
    | with_reducible apply Follows.foldl
    | with_reducible apply Follows.foldlFst
    | split
    | dsimp only [id]
    | with_reducible refine Follows.fst (by assumption) ?_
    | intro _

theorem bankRead_follows (s : State) (b : Nat) (o : Nat) :
    Follows [.basin] s (bankRead s b o).1 := by
  unfold bankRead
  repeat' first
    | decide
    | with_reducible exact Follows.refl ..
    | with_reducible apply Follows.after (updBank_follows ..)
    | with_reducible apply Follows.foldl
    | with_reducible apply Follows.foldlFst
    | split
    | dsimp only [id]
    | with_reducible refine Follows.fst (by assumption) ?_
    | intro _

theorem bankWrite_follows (s : State) (b : Nat) (o : Nat) (v : Word) :
    Follows [.basin] s (bankWrite s b o v) := by
  unfold bankWrite
  repeat' first
    | decide
    | with_reducible exact Follows.refl ..
    | with_reducible apply Follows.after (updBank_follows ..)
    | with_reducible apply Follows.foldl
    | split
    | dsimp only [id]
    | intro _

theorem bsRead_follows (s : State) (a : Nat) (o : Nat) :
    Follows [.basin] s (bsRead s a o).1 := by
  unfold bsRead
  repeat' first
    | decide
    | with_reducible exact Follows.refl ..
    | with_reducible apply guardR_follows
    | with_reducible apply Follows.after (bankRead_follows ..)
    | with_reducible apply Follows.foldl
    | with_reducible apply Follows.foldlFst
    | split
    | dsimp only [id]
    | with_reducible refine Follows.fst (by assumption) ?_
    | intro _

theorem bsWrite_follows (s : State) (a : Nat) (o : Nat) (v : Word) :
    Follows [.basin] s (bsWrite s a o v).1 := by
  unfold bsWrite
  repeat' first
    | decide
    | with_reducible exact Follows.refl ..
    | with_reducible apply guardW_follows
    | with_reducible apply Follows.after (bankWrite_follows ..)
    | with_reducible apply Follows.foldl
    | with_reducible apply Follows.foldlFst
    | split
    | dsimp only [id]
    | with_reducible refine Follows.fst (by assumption) ?_
    | intro _

theorem isRead_follows (s : State) (o : Nat) :
    Follows [.islands] s (isRead s o).1 := by
  unfold isRead
  repeat' first
    | decide
    | with_reducible exact Follows.refl ..
    | with_reducible apply Follows.after (updIsl_follows ..)
    | with_reducible apply Follows.foldl
    | with_reducible apply Follows.foldlFst
    | split
    | dsimp only [id]
    | with_reducible refine Follows.fst (by assumption) ?_
    | intro _

theorem isWrite_follows (s : State) (a : Nat) (o : Nat) (v : Word) :
    Follows [.fresh, .out, .sys, .basin, .weir, .islands, .rails, .staging, .intc, .mbx, .win, .pcie, .fw, .gp, .pi, .tp, .tl, .cyc, .cv, .sl, .dh] s (isWrite s a o v) := by
  unfold isWrite
  repeat' first
    | decide
    | with_reducible exact Follows.refl ..
    | with_reducible apply Follows.after (updIsl_follows ..)
    | with_reducible apply Follows.after (fenceIsland_follows ..)
    | with_reducible apply Follows.after (controlReset_follows ..)
    | with_reducible apply Follows.after (controlRelease_follows ..)
    | with_reducible apply Follows.foldl
    | split
    | dsimp only [id]
    | intro _

theorem targetRead_follows (s : State) (a : Nat) (t : Nat) (o : Nat) :
    Follows [.intc] s (targetRead s a t o).1 := by
  unfold targetRead
  repeat' first
    | decide
    | with_reducible exact Follows.refl ..
    | with_reducible apply Follows.after (updTarget_follows ..)
    | with_reducible apply Follows.after (claimRead_follows ..)
    | with_reducible apply Follows.foldl
    | with_reducible apply Follows.foldlFst
    | split
    | dsimp only [id]
    | with_reducible refine Follows.fst (by assumption) ?_
    | intro _

theorem icRead_follows (s : State) (a : Nat) (o : Nat) :
    Follows [.intc] s (icRead s a o).1 := by
  unfold icRead
  repeat' first
    | decide
    | with_reducible exact Follows.refl ..
    | with_reducible apply Follows.after (targetRead_follows ..)
    | with_reducible apply Follows.foldl
    | with_reducible apply Follows.foldlFst
    | split
    | dsimp only [id]
    | with_reducible refine Follows.fst (by assumption) ?_
    | intro _

theorem watchWrite_follows (s : State) (w : Nat) (second : Bool) (v : Word) :
    Follows [.intc] s (watchWrite s w second v) := by
  unfold watchWrite
  repeat' first
    | decide
    | with_reducible exact Follows.refl ..
    | with_reducible apply Follows.after (onIntc_follows ..)
    | with_reducible apply Follows.foldl
    | split
    | dsimp only [id]
    | intro _

theorem icWrite_follows (s : State) (a : Nat) (o : Nat) (v : Word) :
    Follows [.intc] s (icWrite s a o v) := by
  unfold icWrite
  repeat' first
    | decide
    | with_reducible exact Follows.refl ..
    | with_reducible apply Follows.after (onIntc_follows ..)
    | with_reducible apply Follows.after (updTarget_follows ..)
    | with_reducible apply Follows.after (completeWrite_follows ..)
    | with_reducible apply Follows.after (raiseWrite_follows ..)
    | with_reducible apply Follows.after (updNamed_follows ..)
    | with_reducible apply Follows.after (watchWrite_follows ..)
    | with_reducible apply Follows.foldl
    | split
    | dsimp only [id]
    | intro _

/-! ### RegBlocks -/

theorem sceneRead_follows (s : State) (i : Nat) (o : Nat) :
    Follows [.tp] s (sceneRead s i o).1 := by
  unfold sceneRead
  repeat' first
    | decide
    | with_reducible exact Follows.refl ..
    | with_reducible apply Follows.after (setScene_follows ..)
    | with_reducible apply Follows.foldl
    | with_reducible apply Follows.foldlFst
    | split
    | dsimp only [id]
    | with_reducible refine Follows.fst (by assumption) ?_
    | intro _

theorem sceneWrite_follows (s : State) (a : Nat) (i : Nat) (o : Nat) (v : Word) :
    Follows [.tp] s (sceneWrite s a i o v) := by
  unfold sceneWrite
  repeat' first
    | decide
    | with_reducible exact Follows.refl ..
    | with_reducible apply Follows.after (updScene_follows ..)
    | with_reducible apply Follows.after (rasterWrite_follows ..)
    | with_reducible apply Follows.after (sceneRegWrite_follows ..)
    | with_reducible apply Follows.after (flipWrite_follows ..)
    | with_reducible apply Follows.foldl
    | split
    | dsimp only [id]
    | intro _

theorem evqStatus_follows (s : State) (a : Nat) :
    Follows [.tp] s (evqStatus s a).1 := by
  unfold evqStatus
  repeat' first
    | decide
    | with_reducible exact Follows.refl ..
    | with_reducible apply Follows.after (onTp_follows ..)
    | with_reducible apply Follows.foldl
    | with_reducible apply Follows.foldlFst
    | split
    | dsimp only [id]
    | with_reducible refine Follows.fst (by assumption) ?_
    | intro _

theorem psRead_follows (s : State) (i : Nat) (o : Nat) :
    Follows [.tp] s (psRead s i o).1 := by
  unfold psRead
  repeat' first
    | decide
    | with_reducible exact Follows.refl ..
    | with_reducible apply Follows.after (setScene_follows ..)
    | with_reducible apply Follows.foldl
    | with_reducible apply Follows.foldlFst
    | split
    | dsimp only [id]
    | with_reducible refine Follows.fst (by assumption) ?_
    | intro _

theorem psWrite_follows (s : State) (i : Nat) (o : Nat) (v : Word) :
    Follows [.tp] s (psWrite s i o v) := by
  unfold psWrite
  repeat' first
    | decide
    | with_reducible exact Follows.refl ..
    | with_reducible apply Follows.after (updScene_follows ..)
    | with_reducible apply Follows.foldl
    | split
    | dsimp only [id]
    | intro _

theorem stPushRead_follows (s : State) (i : Nat) (o : Nat) :
    Follows [.tp] s (stPushRead s i o).1 := by
  unfold stPushRead
  repeat' first
    | decide
    | with_reducible exact Follows.refl ..
    | with_reducible apply Follows.after (updRecv_follows ..)
    | with_reducible apply Follows.foldl
    | with_reducible apply Follows.foldlFst
    | split
    | dsimp only [id]
    | with_reducible refine Follows.fst (by assumption) ?_
    | intro _

theorem tpGlobalRead_follows (s : State) (o : Nat) :
    Follows [.tp] s (tpGlobalRead s o).1 := by
  unfold tpGlobalRead
  repeat' first
    | decide
    | with_reducible exact Follows.refl ..
    | with_reducible apply Follows.after (onTp_follows ..)
    | with_reducible apply Follows.after (onPanel_follows ..)
    | with_reducible apply Follows.after (onBlt_follows ..)
    | with_reducible apply Follows.foldl
    | with_reducible apply Follows.foldlFst
    | split
    | dsimp only [id]
    | with_reducible refine Follows.fst (by assumption) ?_
    | intro _

theorem tpGlobalWrite_follows (s : State) (a : Nat) (o : Nat) (v : Word) :
    Follows [.basin, .staging, .intc, .fw, .tp] s (tpGlobalWrite s a o v) := by
  unfold tpGlobalWrite
  repeat' first
    | decide
    | with_reducible exact Follows.refl ..
    | with_reducible apply Follows.after (onTp_follows ..)
    | with_reducible apply Follows.after (oweAll_follows ..)
    | with_reducible apply Follows.after (onPanel_follows ..)
    | with_reducible apply Follows.after (onBlt_follows ..)
    | with_reducible apply Follows.after (bltLook_follows ..)
    | with_reducible apply Follows.foldl
    | split
    | dsimp only [id]
    | intro _

theorem tpRead_follows (s : State) (a : Nat) (o : Nat) :
    Follows [.intc, .tp] s (tpRead s a o).1 := by
  unfold tpRead
  repeat' first
    | decide
    | with_reducible exact Follows.refl ..
    | with_reducible apply guardR_follows
    | with_reducible apply Follows.after (evqRead_follows ..)
    | with_reducible apply Follows.after (sceneRead_follows ..)
    | with_reducible apply Follows.after (evqStatus_follows ..)
    | with_reducible apply Follows.after (psRead_follows ..)
    | with_reducible apply Follows.after (stPushRead_follows ..)
    | with_reducible apply Follows.after (tpGlobalRead_follows ..)
    | with_reducible apply Follows.foldl
    | with_reducible apply Follows.foldlFst
    | split
    | dsimp only [id]
    | with_reducible refine Follows.fst (by assumption) ?_
    | intro _

theorem tpWrite_follows (s : State) (a : Nat) (o : Nat) (v : Word) :
    Follows [.basin, .staging, .intc, .fw, .tp] s (tpWrite s a o v).1 := by
  unfold tpWrite
  repeat' first
    | decide
    | with_reducible exact Follows.refl ..
    | with_reducible apply guardW_follows
    | with_reducible apply Follows.after (oweAll_follows ..)
    | with_reducible apply Follows.after (sceneWrite_follows ..)
    | with_reducible apply Follows.after (psWrite_follows ..)
    | with_reducible apply Follows.after (tpGlobalWrite_follows ..)
    | with_reducible apply Follows.foldl
    | with_reducible apply Follows.foldlFst
    | split
    | dsimp only [id]
    | with_reducible refine Follows.fst (by assumption) ?_
    | intro _

theorem voiceRegWrite_follows (s : State) (v : Nat) (o : Nat) (w : Word) :
    Follows [.cv] s (voiceRegWrite s v o w) := by
  unfold voiceRegWrite
  repeat' first
    | decide
    | with_reducible exact Follows.refl ..
    | with_reducible apply Follows.after (voiceWrite_follows ..)
    | with_reducible apply Follows.foldl
    | split
    | dsimp only [id]
    | intro _

theorem mixRead_follows (s : State) (m : Nat) (o : Nat) :
    Follows [.cv] s (mixRead s m o).1 := by
  unfold mixRead
  repeat' first
    | decide
    | with_reducible exact Follows.refl ..
    | with_reducible apply Follows.after (setMix_follows ..)
    | with_reducible apply Follows.foldl
    | with_reducible apply Follows.foldlFst
    | split
    | dsimp only [id]
    | with_reducible refine Follows.fst (by assumption) ?_
    | intro _

theorem mixWrite_follows (s : State) (m : Nat) (o : Nat) (v : Word) :
    Follows [.cv] s (mixWrite s m o v) := by
  unfold mixWrite
  repeat' first
    | decide
    | with_reducible exact Follows.refl ..
    | with_reducible apply Follows.after (updMix_follows ..)
    | with_reducible apply Follows.after (mixCtrlWrite_follows ..)
    | with_reducible apply Follows.foldl
    | split
    | dsimp only [id]
    | intro _

theorem cvRead_follows (s : State) (a : Nat) (o : Nat) :
    Follows [.cv] s (cvRead s a o).1 := by
  unfold cvRead
  repeat' first
    | decide
    | with_reducible exact Follows.refl ..
    | with_reducible apply guardR_follows
    | with_reducible apply Follows.after (onCv_follows ..)
    | with_reducible apply Follows.after (mixRead_follows ..)
    | with_reducible apply Follows.foldl
    | with_reducible apply Follows.foldlFst
    | split
    | dsimp only [id]
    | with_reducible refine Follows.fst (by assumption) ?_
    | intro _

theorem cvWrite_follows (s : State) (a : Nat) (o : Nat) (v : Word) :
    Follows [.cv] s (cvWrite s a o v).1 := by
  unfold cvWrite
  repeat' first
    | decide
    | with_reducible exact Follows.refl ..
    | with_reducible apply guardW_follows
    | with_reducible apply Follows.after (onCv_follows ..)
    | with_reducible apply Follows.after (voiceRegWrite_follows ..)
    | with_reducible apply Follows.after (mixWrite_follows ..)
    | with_reducible apply Follows.foldl
    | with_reducible apply Follows.foldlFst
    | split
    | dsimp only [id]
    | with_reducible refine Follows.fst (by assumption) ?_
    | intro _

theorem chanWrite_follows (s : State) (a : Nat) (n : Nat) (o : Nat) (v : Word) :
    Follows [.out, .basin, .staging, .intc, .pcie, .fw, .sl] s (chanWrite s a n o v) := by
  unfold chanWrite
  repeat' first
    | decide
    | with_reducible exact Follows.refl ..
    | with_reducible apply Follows.after (updChan_follows ..)
    | with_reducible apply Follows.after (append_follows ..)
    | with_reducible apply Follows.after (doorbell_follows ..)
    | with_reducible apply Follows.after (abort_follows ..)
    | with_reducible apply Follows.after (clearChan_follows ..)
    | with_reducible apply Follows.foldl
    | split
    | dsimp only [id]
    | intro _

theorem slRead_follows (s : State) (a : Nat) (o : Nat) :
    Follows [.sl] s (slRead s a o).1 := by
  unfold slRead
  repeat' first
    | decide
    | with_reducible exact Follows.refl ..
    | with_reducible apply guardR_follows
    | with_reducible apply Follows.after (onSl_follows ..)
    | with_reducible apply Follows.foldl
    | with_reducible apply Follows.foldlFst
    | split
    | dsimp only [id]
    | with_reducible refine Follows.fst (by assumption) ?_
    | intro _

theorem slWrite_follows (s : State) (a : Nat) (o : Nat) (v : Word) :
    Follows [.out, .basin, .staging, .intc, .pcie, .fw, .sl] s (slWrite s a o v).1 := by
  unfold slWrite
  repeat' first
    | decide
    | with_reducible exact Follows.refl ..
    | with_reducible apply guardW_follows
    | with_reducible apply Follows.after (onSl_follows ..)
    | with_reducible apply Follows.after (chanWrite_follows ..)
    | with_reducible apply Follows.foldl
    | with_reducible apply Follows.foldlFst
    | split
    | dsimp only [id]
    | with_reducible refine Follows.fst (by assumption) ?_
    | intro _

theorem testNote_follows (s : State) (l : Nat) :
    Follows [.fresh, .tl] s (testNote s l) := by
  unfold testNote
  repeat' first
    | decide
    | with_reducible exact Follows.refl ..
    | with_reducible apply Follows.after (drawFree_follows ..)
    | with_reducible apply Follows.after (updLane_follows ..)
    | with_reducible apply Follows.foldl
    | with_reducible apply Follows.foldlFst
    | split
    | dsimp only [id]
    | with_reducible refine Follows.fst (by assumption) ?_
    | intro _

theorem testKeep_follows (s : State) (l : Nat) (test : BitVec 2) :
    Follows [.fresh, .tl] s (testKeep s l test) := by
  unfold testKeep
  split
  · exact testNote_follows ..
  · exact Follows.refl ..

theorem laneRead_follows (s : State) (l : Nat) (o : Nat) :
    Follows [.fresh, .tl] s (laneRead s l o).1 := by
  unfold laneRead
  repeat' first
    | decide
    | with_reducible exact Follows.refl ..
    | with_reducible apply Follows.after (updLane_follows ..)
    | with_reducible apply Follows.after (testNote_follows ..)
    | with_reducible apply Follows.foldl
    | with_reducible apply Follows.foldlFst
    | split
    | dsimp only [id]
    | with_reducible refine Follows.fst (by assumption) ?_
    | intro _

theorem laneCtrl_follows (s : State) (l : Nat) (en : Bool) (freeze : Bool) (test : BitVec 2) :
    Follows [.out, .basin, .staging, .intc, .pcie, .fw, .tp, .tl] s (laneCtrl s l en freeze test) := by
  unfold laneCtrl
  repeat' first
    | decide
    | with_reducible exact Follows.refl ..
    | with_reducible apply Follows.after (updLane_follows ..)
    | with_reducible apply Follows.after (laneSettle_follows ..)
    | with_reducible apply Follows.after (newSession_follows ..)
    | with_reducible apply Follows.foldl
    | split
    | dsimp only [id]
    | intro _

theorem tlRead_follows (s : State) (a : Nat) (o : Nat) :
    Follows [.fresh, .tl] s (tlRead s a o).1 := by
  unfold tlRead
  repeat' first
    | decide
    | with_reducible exact Follows.refl ..
    | with_reducible apply guardR_follows
    | with_reducible apply Follows.after (setStation_follows ..)
    | with_reducible apply Follows.after (laneRead_follows ..)
    | with_reducible apply Follows.foldl
    | with_reducible apply Follows.foldlFst
    | split
    | dsimp only [id]
    | with_reducible refine Follows.fst (by assumption) ?_
    | intro _

theorem tlWrite_follows (s : State) (a : Nat) (o : Nat) (v : Word) :
    Follows [.fresh, .out, .basin, .staging, .intc, .pcie, .fw, .tp, .tl] s (tlWrite s a o v).1 := by
  unfold tlWrite
  repeat' first
    | decide
    | with_reducible exact Follows.refl ..
    | with_reducible apply guardW_follows
    | with_reducible apply Follows.after (testKeep_follows ..)
    | with_reducible apply Follows.after (laneCtrl_follows ..)
    | with_reducible apply Follows.foldl
    | with_reducible apply Follows.foldlFst
    | split
    | dsimp only [id]
    | with_reducible refine Follows.fst (by assumption) ?_
    | intro _

theorem sqRead_follows (s : State) (ch : Nat) (o : Nat) :
    Follows [.out, .basin, .staging, .intc, .fw, .pi, .tp] s (sqRead s ch o).1 := by
  unfold sqRead
  repeat' first
    | decide
    | with_reducible exact Follows.refl ..
    | with_reducible apply Follows.after (sqAdvance_follows ..)
    | with_reducible apply Follows.after (sqRx_follows ..)
    | with_reducible apply Follows.after (panelStart_follows ..)
    | with_reducible apply Follows.foldl
    | with_reducible apply Follows.foldlFst
    | split
    | dsimp only [id]
    | with_reducible refine Follows.fst (by assumption) ?_
    | intro _

theorem sqWrite_follows (s : State) (ch : Nat) (o : Nat) (v : Word) :
    Follows [.out, .intc, .pi] s (sqWrite s ch o v) := by
  unfold sqWrite
  repeat' first
    | decide
    | with_reducible exact Follows.refl ..
    | with_reducible apply Follows.after (updSq_follows ..)
    | with_reducible apply Follows.after (sqGo_follows ..)
    | with_reducible apply Follows.after (sqTx_follows ..)
    | with_reducible apply Follows.foldl
    | split
    | dsimp only [id]
    | intro _

theorem i2cWrite_follows (s : State) (o : Nat) (v : Word) :
    Follows [.out, .intc, .pi] s (i2cWrite s o v) := by
  unfold i2cWrite
  repeat' first
    | decide
    | with_reducible exact Follows.refl ..
    | with_reducible apply Follows.after (updI2c_follows ..)
    | with_reducible apply Follows.after (i2cGo_follows ..)
    | with_reducible apply Follows.foldl
    | split
    | dsimp only [id]
    | intro _

theorem avsWrite_follows (s : State) (n : Nat) (o : Nat) (v : Word) :
    Follows [.out, .intc, .pi] s (avsWrite s n o v) := by
  unfold avsWrite
  repeat' first
    | decide
    | with_reducible exact Follows.refl ..
    | with_reducible apply Follows.after (updAvs_follows ..)
    | with_reducible apply Follows.after (avsCmd_follows ..)
    | with_reducible apply Follows.foldl
    | split
    | dsimp only [id]
    | intro _

theorem piRead_follows (s : State) (o : Nat) :
    Follows [.out, .basin, .staging, .intc, .fw, .pi, .tp] s (piRead s o).1 := by
  unfold piRead
  repeat' first
    | decide
    | with_reducible exact Follows.refl ..
    | with_reducible apply Follows.after (sqRead_follows ..)
    | with_reducible apply Follows.foldl
    | with_reducible apply Follows.foldlFst
    | split
    | dsimp only [id]
    | with_reducible refine Follows.fst (by assumption) ?_
    | intro _

theorem piWrite_follows (s : State) (o : Nat) (v : Word) :
    Follows [.out, .intc, .pi] s (piWrite s o v) := by
  unfold piWrite
  repeat' first
    | decide
    | with_reducible exact Follows.refl ..
    | with_reducible apply Follows.after (sqWrite_follows ..)
    | with_reducible apply Follows.after (i2cWrite_follows ..)
    | with_reducible apply Follows.after (avsWrite_follows ..)
    | with_reducible apply Follows.foldl
    | split
    | dsimp only [id]
    | intro _

theorem gpRead_follows (s : State) (o : Nat) :
    Follows [.fresh] s (gpRead s o).1 := by
  unfold gpRead
  repeat' first
    | decide
    | with_reducible exact Follows.refl ..
    | with_reducible apply Follows.after (gpIn_follows ..)
    | with_reducible apply Follows.foldl
    | with_reducible apply Follows.foldlFst
    | split
    | dsimp only [id]
    | with_reducible refine Follows.fst (by assumption) ?_
    | intro _

theorem gpRegWrite_follows (s : State) (a : Nat) (o : Nat) (v : Word) :
    Follows [.intc, .gp] s (gpRegWrite s a o v) := by
  unfold gpRegWrite
  repeat' first
    | decide
    | with_reducible exact Follows.refl ..
    | with_reducible apply Follows.after (gpWrite_follows ..)
    | with_reducible apply Follows.after (pinWrite_follows ..)
    | with_reducible apply Follows.foldl
    | split
    | dsimp only [id]
    | with_reducible apply Follows.set_gp
    | intro _

theorem periRead_follows (s : State) (a : Nat) (o : Nat) : Follows [.fresh, .out, .basin, .staging, .intc, .fw, .pi, .tp] s (periRead s a o).1 := by
  have k (x : Nat) : Follows [.fresh, .out, .basin, .staging, .intc, .fw, .pi, .tp] s
      (guardR (portAgent a) (running s islPI) s (fun s => gpRead s x)).1 :=
    guardR_follows _ _ _ (fun u => (gpRead_follows u x).mono (by decide)) (Follows.refl ..)
  unfold periRead
  split
  · exact guardR_follows _ _ _ (fun u => (piRead_follows u o).mono (by decide)) (Follows.refl ..)
  · exact k _

theorem periWrite_follows (s : State) (a : Nat) (o : Nat) (v : Word) :
    Follows [.out, .intc, .gp, .pi] s (periWrite s a o v).1 := by
  unfold periWrite
  repeat' first
    | decide
    | with_reducible exact Follows.refl ..
    | with_reducible apply guardW_follows
    | with_reducible apply Follows.after (piWrite_follows ..)
    | with_reducible apply Follows.after (gpRegWrite_follows ..)
    | with_reducible apply Follows.foldl
    | with_reducible apply Follows.foldlFst
    | split
    | dsimp only [id]
    | with_reducible refine Follows.fst (by assumption) ?_
    | intro _

theorem iramWrite_follows (s : State) (n : Nat) (o : Nat) (v : Word) :
    Follows [.dh] s (iramWrite s n o v) := by
  unfold iramWrite
  repeat' first
    | decide
    | with_reducible exact Follows.refl ..
    | with_reducible apply Follows.after (onDh_follows ..)
    | with_reducible apply Follows.foldl
    | split
    | dsimp only [id]
    | intro _

theorem dhRead_follows (s : State) (a : Nat) (n : Nat) (o : Nat) :
    Follows [] s (dhRead s a n o).1 := by
  unfold dhRead
  repeat' first
    | decide
    | with_reducible exact Follows.refl ..
    | with_reducible apply guardR_follows
    | with_reducible apply Follows.foldl
    | with_reducible apply Follows.foldlFst
    | split
    | dsimp only [id]
    | with_reducible refine Follows.fst (by assumption) ?_
    | intro _

theorem dhWrite_follows (s : State) (a : Nat) (n : Nat) (o : Nat) (v : Word) :
    Follows [.dh] s (dhWrite s a n o v).1 := by
  unfold dhWrite
  repeat' first
    | decide
    | with_reducible exact Follows.refl ..
    | with_reducible apply guardW_follows
    | with_reducible apply Follows.after (updCore_follows ..)
    | with_reducible apply Follows.foldl
    | with_reducible apply Follows.foldlFst
    | split
    | dsimp only [id]
    | with_reducible refine Follows.fst (by assumption) ?_
    | intro _

theorem ramRead_follows (s : State) (a : Nat) (o : Nat) :
    Follows [] s (ramRead s a o).1 := by
  unfold ramRead
  repeat' first
    | decide
    | with_reducible exact Follows.refl ..
    | with_reducible apply guardR_follows
    | with_reducible apply Follows.foldl
    | with_reducible apply Follows.foldlFst
    | split
    | dsimp only [id]
    | with_reducible refine Follows.fst (by assumption) ?_
    | intro _

theorem ramWrite_follows (s : State) (a : Nat) (o : Nat) (v : Word) :
    Follows [.dh] s (ramWrite s a o v).1 := by
  unfold ramWrite
  repeat' first
    | decide
    | with_reducible exact Follows.refl ..
    | with_reducible apply guardW_follows
    | with_reducible apply Follows.after (iramWrite_follows ..)
    | with_reducible apply Follows.foldl
    | with_reducible apply Follows.foldlFst
    | split
    | dsimp only [id]
    | with_reducible refine Follows.fst (by assumption) ?_
    | intro _

theorem deckRead_follows (s : State) (a : Nat) (o : Nat) :
    Follows [] s (deckRead s a o).1 := by
  unfold deckRead
  repeat' first
    | decide
    | with_reducible exact Follows.refl ..
    | with_reducible apply Follows.after (dhRead_follows ..)
    | with_reducible apply Follows.after (ramRead_follows ..)
    | with_reducible apply Follows.foldl
    | with_reducible apply Follows.foldlFst
    | split
    | dsimp only [id]
    | with_reducible refine Follows.fst (by assumption) ?_
    | intro _

theorem deckWrite_follows (s : State) (a : Nat) (o : Nat) (v : Word) :
    Follows [.dh] s (deckWrite s a o v).1 := by
  unfold deckWrite
  repeat' first
    | decide
    | with_reducible exact Follows.refl ..
    | with_reducible apply Follows.after (dhWrite_follows ..)
    | with_reducible apply Follows.after (ramWrite_follows ..)
    | with_reducible apply Follows.foldl
    | with_reducible apply Follows.foldlFst
    | split
    | dsimp only [id]
    | with_reducible refine Follows.fst (by assumption) ?_
    | intro _

/-! ### Regs -/

theorem areaRead_follows (s : State) (a : Nat) (o : Nat) (a1 : Area) :
    Follows [.fresh, .out, .sys, .basin, .weir, .islands, .staging, .intc, .mbx, .win, .pcie, .fw, .pi, .tp, .tl, .cv, .sl] s (areaRead s a o a1).1 := by
  unfold areaRead
  repeat' first
    | decide
    | with_reducible exact Follows.refl ..
    | with_reducible apply guardR_follows
    | with_reducible apply Follows.after (readReq_follows ..)
    | with_reducible apply Follows.after (sysRead_follows ..)
    | with_reducible apply Follows.after (lkRead_follows ..)
    | with_reducible apply Follows.after (mbRead_follows ..)
    | with_reducible apply Follows.after (winRead_follows ..)
    | with_reducible apply Follows.after (weirRead_follows ..)
    | with_reducible apply Follows.after (bsRead_follows ..)
    | with_reducible apply Follows.after (isRead_follows ..)
    | with_reducible apply Follows.after (icRead_follows ..)
    | with_reducible apply Follows.after (tpRead_follows ..)
    | with_reducible apply Follows.after (cvRead_follows ..)
    | with_reducible apply Follows.after (slRead_follows ..)
    | with_reducible apply Follows.after (tlRead_follows ..)
    | with_reducible apply Follows.after (periRead_follows ..)
    | with_reducible apply Follows.after (deckRead_follows ..)
    | with_reducible apply Follows.foldl
    | with_reducible apply Follows.foldlFst
    | split
    | dsimp only [id]
    | with_reducible refine Follows.fst (by assumption) ?_
    | intro _

theorem areaWrite_follows (s : State) (a : Nat) (o : Nat) (v : Word) (a1 : Area) :
    Follows [.fresh, .out, .sys, .basin, .weir, .islands, .rails, .staging, .intc, .mbx, .win, .pcie, .fw, .gp, .pi, .tp, .tl, .cyc, .cv, .sl, .dh] s (areaWrite s a o v a1).1 := by
  unfold areaWrite
  repeat' first
    | decide
    | with_reducible exact Follows.refl ..
    | with_reducible apply guardW_follows
    | with_reducible apply Follows.after (writeReq_follows ..)
    | with_reducible apply Follows.after (sysWrite_follows ..)
    | with_reducible apply Follows.after (lkWrite_follows ..)
    | with_reducible apply Follows.after (mbWrite_follows ..)
    | with_reducible apply Follows.after (winWrite_follows ..)
    | with_reducible apply Follows.after (weirWrite_follows ..)
    | with_reducible apply Follows.after (bsWrite_follows ..)
    | with_reducible apply Follows.after (isWrite_follows ..)
    | with_reducible apply Follows.after (icWrite_follows ..)
    | with_reducible apply Follows.after (tpWrite_follows ..)
    | with_reducible apply Follows.after (cvWrite_follows ..)
    | with_reducible apply Follows.after (slWrite_follows ..)
    | with_reducible apply Follows.after (tlWrite_follows ..)
    | with_reducible apply Follows.after (periWrite_follows ..)
    | with_reducible apply Follows.after (deckWrite_follows ..)
    | with_reducible apply Follows.foldl
    | with_reducible apply Follows.foldlFst
    | split
    | dsimp only [id]
    | with_reducible refine Follows.fst (by assumption) ?_
    | intro _

theorem fabricRead_follows (s : State) (a : Nat) (ad : Nat) :
    Follows [.fresh, .out, .sys, .basin, .weir, .islands, .staging, .intc, .mbx, .win, .pcie, .fw, .pi, .tp, .tl, .cv, .sl] s (fabricRead s a ad).1 := by
  unfold fabricRead
  repeat' first
    | decide
    | with_reducible exact Follows.refl ..
    | with_reducible apply Follows.after (areaRead_follows ..)
    | with_reducible apply Follows.foldl
    | with_reducible apply Follows.foldlFst
    | split
    | dsimp only [id]
    | with_reducible refine Follows.fst (by assumption) ?_
    | intro _

theorem fabricWrite_follows (s : State) (a : Nat) (ad : Nat) (v : Word) :
    Follows [.fresh, .out, .sys, .basin, .weir, .islands, .rails, .staging, .intc, .mbx, .win, .pcie, .fw, .gp, .pi, .tp, .tl, .cyc, .cv, .sl, .dh] s (fabricWrite s a ad v).1 := by
  unfold fabricWrite
  repeat' first
    | decide
    | with_reducible exact Follows.refl ..
    | with_reducible apply Follows.after (areaWrite_follows ..)
    | with_reducible apply Follows.foldl
    | with_reducible apply Follows.foldlFst
    | split
    | dsimp only [id]
    | with_reducible refine Follows.fst (by assumption) ?_
    | intro _

theorem hostRead_follows (s : State) (o : Nat) (aligned : Bool) :
    Follows [.out, .sys, .intc, .mbx, .win, .pcie, .fw] s (hostRead s o aligned).1 := by
  unfold hostRead
  repeat' first
    | decide
    | with_reducible exact Follows.refl ..
    | with_reducible apply Follows.after (sysRead_follows ..)
    | with_reducible apply Follows.after (mbRead_follows ..)
    | with_reducible apply Follows.after (winRead_follows ..)
    | with_reducible apply Follows.foldl
    | with_reducible apply Follows.foldlFst
    | split
    | dsimp only [id]
    | with_reducible refine Follows.fst (by assumption) ?_
    | intro _

theorem hostWrite_follows (s : State) (o : Nat) (sel : BitVec 4) (v : Word) :
    Follows [.out, .intc, .mbx, .pcie] s (hostWrite s o sel v) := by
  unfold hostWrite
  repeat' first
    | decide
    | with_reducible exact Follows.refl ..
    | with_reducible apply Follows.after (msixFlush_follows ..)
    | with_reducible apply Follows.after (msixWrite_follows ..)
    | with_reducible apply Follows.after (mbWrite_follows ..)
    | with_reducible apply Follows.foldl
    | split
    | dsimp only [id]
    | intro _

theorem regRead_follows (s : State) (a : Nat) (addr : Word) (aligned : Bool) :
    Follows [.fresh, .out, .sys, .basin, .weir, .islands, .staging, .intc, .mbx, .win, .pcie, .fw, .pi, .tp, .tl, .cv, .sl] s (regRead s a addr aligned) := by
  unfold regRead
  repeat' first
    | decide
    | with_reducible exact Follows.refl ..
    | with_reducible apply Follows.after (emit_follows ..)
    | with_reducible apply Follows.after (errTo_follows ..)
    | with_reducible apply Follows.after (mbRead_follows ..)
    | with_reducible apply Follows.after (fabricRead_follows ..)
    | with_reducible apply Follows.after (hostRead_follows ..)
    | with_reducible apply Follows.foldl
    | with_reducible apply Follows.foldlFst
    | split
    | dsimp only [id]
    | with_reducible refine Follows.fst (by assumption) ?_
    | intro _

theorem regWrite_follows (s : State) (a : Nat) (addr : Word) (sel : BitVec 4) (v : Word) :
    Follows [.fresh, .out, .sys, .basin, .weir, .islands, .rails, .staging, .intc, .mbx, .win, .pcie, .fw, .gp, .pi, .tp, .tl, .cyc, .cv, .sl, .dh] s (regWrite s a addr sel v) := by
  unfold regWrite
  repeat' first
    | decide
    | with_reducible exact Follows.refl ..
    | with_reducible apply Follows.after (errTo_follows ..)
    | with_reducible apply Follows.after (mbWrite_follows ..)
    | with_reducible apply Follows.after (fabricWrite_follows ..)
    | with_reducible apply Follows.after (hostWrite_follows ..)
    | with_reducible apply Follows.foldl
    | with_reducible apply Follows.foldlFst
    | split
    | dsimp only [id]
    | with_reducible refine Follows.fst (by assumption) ?_
    | intro _

theorem execRegisterWrite_follows (agent : Agent) (addr : Word) (sel : BitVec 4) (value : Word) (s : State) :
    Leads [.fresh, .out, .sys, .basin, .weir, .islands, .rails, .staging, .intc, .mbx, .win, .pcie, .fw, .gp, .pi, .tp, .tl, .cyc, .cv, .sl, .dh] s (execRegisterWrite agent addr sel value s) := by
  unfold execRegisterWrite
  repeat' first
    | decide
    | with_reducible exact Follows.refl ..
    | with_reducible apply Leads.next
    | with_reducible apply issue_follows
    | with_reducible apply Follows.after (regWrite_follows ..)
    | with_reducible apply Follows.foldl
    | split
    | dsimp only [id]
    | with_reducible exact Leads.refused _ _ _
    | intro _

theorem execRcFieldRead_follows (agent : Agent) (addr : Word) (aligned : Bool) (s : State) :
    Leads [.fresh, .out, .sys, .basin, .weir, .islands, .staging, .intc, .mbx, .win, .pcie, .fw, .pi, .tp, .tl, .cv, .sl] s (execRcFieldRead agent addr aligned s) := by
  unfold execRcFieldRead
  repeat' first
    | decide
    | with_reducible exact Follows.refl ..
    | with_reducible apply Leads.next
    | with_reducible apply issue_follows
    | with_reducible apply Follows.after (regRead_follows ..)
    | with_reducible apply Follows.foldl
    | split
    | dsimp only [id]
    | with_reducible exact Leads.refused _ _ _
    | intro _

theorem execSysTickLo_follows (agent : Agent) (s : State) :
    Leads [.out, .sys] s (execSysTickLo agent s) := by
  unfold execSysTickLo
  repeat' first
    | decide
    | with_reducible exact Follows.refl ..
    | with_reducible apply Leads.next
    | with_reducible apply issue_follows
    | with_reducible apply Follows.after (emit_follows ..)
    | with_reducible apply Follows.after (sysRead_follows ..)
    | with_reducible apply Follows.foldl
    | with_reducible apply Follows.foldlFst
    | split
    | dsimp only [id]
    | with_reducible refine Follows.fst (by assumption) ?_
    | with_reducible exact Leads.refused _ _ _
    | intro _

/-! ### Access -/

theorem portTargetRead_follows (s : State) (n : Nat) (a1 : PortTarget) :
    Follows [.fresh, .out, .sys, .basin, .weir, .islands, .staging, .intc, .mbx, .win, .pcie, .fw, .pi, .tp, .tl, .cv, .sl] s (portTargetRead s n a1).1 := by
  unfold portTargetRead
  repeat' first
    | decide
    | with_reducible exact Follows.refl ..
    | with_reducible apply Follows.after (fabricRead_follows ..)
    | with_reducible apply Follows.foldl
    | with_reducible apply Follows.foldlFst
    | split
    | dsimp only
    | with_reducible refine Follows.fst (by assumption) ?_
    | intro _

theorem portTargetWrite_follows (s : State) (n : Nat) (v : Word) (a1 : PortTarget) :
    Follows [.fresh, .out, .sys, .basin, .weir, .islands, .rails, .staging, .intc, .mbx, .win, .pcie, .fw, .gp, .pi, .tp, .tl, .cyc, .cv, .sl, .dh] s (portTargetWrite s n v a1).1 := by
  unfold portTargetWrite
  repeat' first
    | decide
    | with_reducible exact Follows.refl ..
    | with_reducible apply Follows.after (updCore_follows ..)
    | with_reducible apply Follows.after (fabricWrite_follows ..)
    | with_reducible apply Follows.foldl
    | with_reducible apply Follows.foldlFst
    | split
    | dsimp only
    | with_reducible refine Follows.fst (by assumption) ?_
    | intro _

theorem portFetch_follows (s : State) (n : Nat) (q : Nat) :
    Follows [.fresh, .out, .sys, .basin, .weir, .islands, .staging, .intc, .mbx, .win, .pcie, .fw, .pi, .tp, .tl, .cv, .sl] s (portFetch s n q).1 := by
  unfold portFetch
  repeat' first
    | decide
    | with_reducible exact Follows.refl ..
    | with_reducible apply Follows.after (portTargetRead_follows ..)
    | with_reducible apply Follows.foldl
    | with_reducible apply Follows.foldlFst
    | split
    | dsimp only
    | with_reducible refine Follows.fst (by assumption) ?_
    | intro _

theorem portStore_follows (s : State) (n : Nat) (q : Nat) (v : Word) :
    Follows [.fresh, .out, .sys, .basin, .weir, .islands, .rails, .staging, .intc, .mbx, .win, .pcie, .fw, .gp, .pi, .tp, .tl, .cyc, .cv, .sl, .dh] s (portStore s n q v).1 := by
  unfold portStore
  repeat' first
    | decide
    | with_reducible exact Follows.refl ..
    | with_reducible apply Follows.after (portTargetWrite_follows ..)
    | with_reducible apply Follows.foldl
    | with_reducible apply Follows.foldlFst
    | split
    | dsimp only
    | with_reducible refine Follows.fst (by assumption) ?_
    | intro _

theorem portReadCell_follows (s : State) (n : Nat) (q : Nat) :
    Follows [.fresh, .out, .sys, .basin, .weir, .islands, .staging, .intc, .mbx, .win, .pcie, .fw, .pi, .tp, .tl, .cv, .sl, .dh] s (portReadCell s n q).1 := by
  unfold portReadCell
  repeat' first
    | decide
    | with_reducible exact Follows.refl ..
    | with_reducible apply Follows.after (updCore_follows ..)
    | with_reducible apply Follows.after (portFetch_follows ..)
    | with_reducible apply Follows.foldl
    | with_reducible apply Follows.foldlFst
    | split
    | dsimp only
    | with_reducible refine Follows.fst (by assumption) ?_
    | intro _

theorem portWriteCell_follows (s : State) (n : Nat) (q : Nat) (v : Nat) :
    Follows [.fresh, .out, .sys, .basin, .weir, .islands, .rails, .staging, .intc, .mbx, .win, .pcie, .fw, .gp, .pi, .tp, .tl, .cyc, .cv, .sl, .dh] s (portWriteCell s n q v).1 := by
  unfold portWriteCell
  repeat' first
    | decide
    | with_reducible exact Follows.refl ..
    | with_reducible apply Follows.after (updCore_follows ..)
    | with_reducible apply Follows.after (portStore_follows ..)
    | with_reducible apply Follows.foldl
    | with_reducible apply Follows.foldlFst
    | split
    | dsimp only
    | with_reducible refine Follows.fst (by assumption) ?_
    | intro _

theorem readOpd_follows (s : State) (n : Nat) (z : Size) (a1 : Opd) :
    Follows [.fresh, .out, .sys, .basin, .weir, .islands, .staging, .intc, .mbx, .win, .pcie, .fw, .pi, .tp, .tl, .cv, .sl, .dh] s (readOpd s n z a1).1 := by
  unfold readOpd
  repeat' first
    | decide
    | with_reducible exact Follows.refl ..
    | with_reducible apply Follows.after (loadData_follows ..)
    | with_reducible apply Follows.after (portFetch_follows ..)
    | with_reducible apply Follows.after (portReadCell_follows ..)
    | with_reducible apply Follows.foldl
    | with_reducible apply Follows.foldlFst
    | split
    | dsimp only
    | with_reducible refine Follows.fst (by assumption) ?_
    | intro _

theorem writeOpd_follows (s : State) (n : Nat) (z : Size) (v : Nat) (a1 : Opd) :
    Follows [.fresh, .out, .sys, .basin, .weir, .islands, .rails, .staging, .intc, .mbx, .win, .pcie, .fw, .gp, .pi, .tp, .tl, .cyc, .cv, .sl, .dh] s (writeOpd s n z v a1).1 := by
  unfold writeOpd
  repeat' first
    | decide
    | with_reducible exact Follows.refl ..
    | with_reducible apply Follows.after (updCore_follows ..)
    | with_reducible apply Follows.after (storeData_follows ..)
    | with_reducible apply Follows.after (portStore_follows ..)
    | with_reducible apply Follows.after (portWriteCell_follows ..)
    | with_reducible apply Follows.foldl
    | with_reducible apply Follows.foldlFst
    | split
    | dsimp only
    | with_reducible refine Follows.fst (by assumption) ?_
    | intro _

theorem doMove_follows (s : State) (n : Nat) (m : Move) :
    Follows [.fresh, .out, .sys, .basin, .weir, .islands, .rails, .staging, .intc, .mbx, .win, .pcie, .fw, .gp, .pi, .tp, .tl, .cyc, .cv, .sl, .dh] s (doMove s n m).1 := by
  unfold doMove
  repeat' first
    | decide
    | with_reducible exact Follows.refl ..
    | with_reducible apply Follows.after (readOpd_follows ..)
    | with_reducible apply Follows.after (writeOpd_follows ..)
    | with_reducible apply Follows.foldl
    | with_reducible apply Follows.foldlFst
    | split
    | dsimp only
    | with_reducible refine Follows.fst (by assumption) ?_
    | intro _

theorem raiseExc_follows (s : State) (n : Nat) (e : Exc) :
    Follows [.out, .basin, .weir, .staging, .intc, .pcie, .fw, .tp, .sl, .dh] s (raiseExc s n e) := by
  unfold raiseExc
  repeat' first
    | decide
    | with_reducible exact Follows.refl ..
    | with_reducible apply Follows.after (exception_follows ..)
    | with_reducible apply Follows.foldl
    | split
    | dsimp only
    | intro _

theorem accessInstr_follows (s : State) (n : Nat) (a : Access) :
    Follows [.fresh, .out, .sys, .basin, .weir, .islands, .rails, .staging, .intc, .mbx, .win, .pcie, .fw, .gp, .pi, .tp, .tl, .cyc, .cv, .sl, .dh] s (accessInstr s n a) := by
  unfold accessInstr
  repeat' first
    | decide
    | with_reducible exact Follows.refl ..
    | with_reducible apply beginInstr_follows
    | with_reducible apply Follows.after (updCore_follows ..)
    | with_reducible apply Follows.after (doMove_follows ..)
    | with_reducible apply Follows.after (raiseExc_follows ..)
    | with_reducible apply Follows.foldl
    | with_reducible apply Follows.foldlFst
    | split
    | dsimp only
    | with_reducible refine Follows.fst (by assumption) ?_
    | intro _

theorem iterate_follows (n : Nat) (m : Move) (dc : Fin 16) (stride : Bool) (a1 : Nat) (a2 : Option Nat) (a3 : State) :
    Follows [.fresh, .out, .sys, .basin, .weir, .islands, .rails, .staging, .intc, .mbx, .win, .pcie, .fw, .gp, .pi, .tp, .tl, .cyc, .cv, .sl, .dh] a3 (iterate n m dc stride a1 a2 a3).1 := by
  fun_induction iterate n m dc stride a1 a2 a3 <;> repeat' first
    | decide
    | with_reducible exact Follows.refl ..
    | with_reducible apply Follows.after (updCore_follows ..)
    | with_reducible apply Follows.after (doMove_follows ..)
    | with_reducible refine Follows.trans ?_ (by assumption)
    | with_reducible apply Follows.foldl
    | with_reducible apply Follows.foldlFst
    | split
    | dsimp only
    | with_reducible refine Follows.fst (by assumption) ?_
    | intro _

theorem repeatInstr_follows (s : State) (n : Nat) (dc : Fin 16) (a : Access) (stride : Bool) (short : Bool) (stop : Option Nat) :
    Follows [.fresh, .out, .sys, .basin, .weir, .islands, .rails, .staging, .intc, .mbx, .win, .pcie, .fw, .gp, .pi, .tp, .tl, .cyc, .cv, .sl, .dh] s (repeat_ s n dc a stride short stop) := by
  unfold repeat_
  repeat' first
    | decide
    | with_reducible exact Follows.refl ..
    | with_reducible apply beginInstr_follows
    | with_reducible apply Follows.after (updCore_follows ..)
    | with_reducible apply Follows.after (raiseExc_follows ..)
    | with_reducible apply Follows.after (iterate_follows ..)
    | with_reducible apply Follows.foldl
    | with_reducible apply Follows.foldlFst
    | split
    | dsimp only
    | with_reducible refine Follows.fst (by assumption) ?_
    | intro _

theorem execRepInstr_follows (core : Fin 8) (dc : Fin 16) (acc : Access) (stop : Option Nat) (s : State) :
    Leads [.fresh, .out, .sys, .basin, .weir, .islands, .rails, .staging, .intc, .mbx, .win, .pcie, .fw, .gp, .pi, .tp, .tl, .cyc, .cv, .sl, .dh] s (execRepInstr core dc acc stop s) := by
  unfold execRepInstr
  repeat' first
    | decide
    | with_reducible exact Follows.refl ..
    | with_reducible apply Leads.next
    | with_reducible apply Follows.after (repeatInstr_follows ..)
    | with_reducible apply Follows.foldl
    | split
    | dsimp only
    | with_reducible exact Leads.refused _ _ _
    | intro _

theorem execRepI_follows (core : Fin 8) (dc : Fin 16) (acc : Access) (stop : Option Nat) (s : State) :
    Leads [.fresh, .out, .sys, .basin, .weir, .islands, .rails, .staging, .intc, .mbx, .win, .pcie, .fw, .gp, .pi, .tp, .tl, .cyc, .cv, .sl, .dh] s (execRepI core dc acc stop s) := by
  unfold execRepI
  repeat' first
    | decide
    | with_reducible exact Follows.refl ..
    | with_reducible apply Leads.next
    | with_reducible apply Follows.after (repeatInstr_follows ..)
    | with_reducible apply Follows.foldl
    | split
    | dsimp only
    | with_reducible exact Leads.refused _ _ _
    | intro _

theorem execReps_follows (core : Fin 8) (dc : Fin 16) (acc : Access) (s : State) :
    Leads [.fresh, .out, .sys, .basin, .weir, .islands, .rails, .staging, .intc, .mbx, .win, .pcie, .fw, .gp, .pi, .tp, .tl, .cyc, .cv, .sl, .dh] s (execReps core dc acc s) := by
  unfold execReps
  repeat' first
    | decide
    | with_reducible exact Follows.refl ..
    | with_reducible apply Leads.next
    | with_reducible apply Follows.after (repeatInstr_follows ..)
    | with_reducible apply Follows.foldl
    | split
    | dsimp only
    | with_reducible exact Leads.refused _ _ _
    | intro _

theorem execRepsI_follows (core : Fin 8) (dc : Fin 16) (acc : Access) (s : State) :
    Leads [.fresh, .out, .sys, .basin, .weir, .islands, .rails, .staging, .intc, .mbx, .win, .pcie, .fw, .gp, .pi, .tp, .tl, .cyc, .cv, .sl, .dh] s (execRepsI core dc acc s) := by
  unfold execRepsI
  repeat' first
    | decide
    | with_reducible exact Follows.refl ..
    | with_reducible apply Leads.next
    | with_reducible apply Follows.after (repeatInstr_follows ..)
    | with_reducible apply Follows.foldl
    | split
    | dsimp only
    | with_reducible exact Leads.refused _ _ _
    | intro _

theorem execLdB_follows (core : Fin 8) (rd : Fin 16) (b : Fin 8) (x : Cell) (s : State) :
    Leads [.fresh, .out, .sys, .basin, .weir, .islands, .rails, .staging, .intc, .mbx, .win, .pcie, .fw, .gp, .pi, .tp, .tl, .cyc, .cv, .sl, .dh] s (execLdB core rd b x s) := by
  unfold execLdB
  repeat' first
    | decide
    | with_reducible exact Follows.refl ..
    | with_reducible apply Leads.next
    | with_reducible apply Follows.after (accessInstr_follows ..)
    | with_reducible apply Follows.foldl
    | split
    | dsimp only
    | with_reducible exact Leads.refused _ _ _
    | intro _

theorem execLdSb_follows (core : Fin 8) (rd : Fin 16) (b : Fin 8) (x : Cell) (s : State) :
    Leads [.fresh, .out, .sys, .basin, .weir, .islands, .rails, .staging, .intc, .mbx, .win, .pcie, .fw, .gp, .pi, .tp, .tl, .cyc, .cv, .sl, .dh] s (execLdSb core rd b x s) := by
  unfold execLdSb
  repeat' first
    | decide
    | with_reducible exact Follows.refl ..
    | with_reducible apply Leads.next
    | with_reducible apply Follows.after (accessInstr_follows ..)
    | with_reducible apply Follows.foldl
    | split
    | dsimp only
    | with_reducible exact Leads.refused _ _ _
    | intro _

theorem execLd_follows (core : Fin 8) (rd : Fin 16) (b : Fin 8) (x : Cell) (s : State) :
    Leads [.fresh, .out, .sys, .basin, .weir, .islands, .rails, .staging, .intc, .mbx, .win, .pcie, .fw, .gp, .pi, .tp, .tl, .cyc, .cv, .sl, .dh] s (execLd core rd b x s) := by
  unfold execLd
  repeat' first
    | decide
    | with_reducible exact Follows.refl ..
    | with_reducible apply Leads.next
    | with_reducible apply Follows.after (accessInstr_follows ..)
    | with_reducible apply Follows.foldl
    | split
    | dsimp only
    | with_reducible exact Leads.refused _ _ _
    | intro _

theorem execLdP_follows (core : Fin 8) (k : Fin 8) (b : Fin 8) (x : Cell) (s : State) :
    Leads [.fresh, .out, .sys, .basin, .weir, .islands, .rails, .staging, .intc, .mbx, .win, .pcie, .fw, .gp, .pi, .tp, .tl, .cyc, .cv, .sl, .dh] s (execLdP core k b x s) := by
  unfold execLdP
  repeat' first
    | decide
    | with_reducible exact Follows.refl ..
    | with_reducible apply Leads.next
    | with_reducible apply Follows.after (accessInstr_follows ..)
    | with_reducible apply Follows.foldl
    | split
    | dsimp only
    | with_reducible exact Leads.refused _ _ _
    | intro _

theorem execStB_follows (core : Fin 8) (rs : Fin 16) (b : Fin 8) (x : Cell) (s : State) :
    Leads [.fresh, .out, .sys, .basin, .weir, .islands, .rails, .staging, .intc, .mbx, .win, .pcie, .fw, .gp, .pi, .tp, .tl, .cyc, .cv, .sl, .dh] s (execStB core rs b x s) := by
  unfold execStB
  repeat' first
    | decide
    | with_reducible exact Follows.refl ..
    | with_reducible apply Leads.next
    | with_reducible apply Follows.after (accessInstr_follows ..)
    | with_reducible apply Follows.foldl
    | split
    | dsimp only
    | with_reducible exact Leads.refused _ _ _
    | intro _

theorem execSt_follows (core : Fin 8) (rs : Fin 16) (b : Fin 8) (x : Cell) (s : State) :
    Leads [.fresh, .out, .sys, .basin, .weir, .islands, .rails, .staging, .intc, .mbx, .win, .pcie, .fw, .gp, .pi, .tp, .tl, .cyc, .cv, .sl, .dh] s (execSt core rs b x s) := by
  unfold execSt
  repeat' first
    | decide
    | with_reducible exact Follows.refl ..
    | with_reducible apply Leads.next
    | with_reducible apply Follows.after (accessInstr_follows ..)
    | with_reducible apply Follows.foldl
    | split
    | dsimp only
    | with_reducible exact Leads.refused _ _ _
    | intro _

theorem execStP_follows (core : Fin 8) (k : Fin 8) (b : Fin 8) (x : Cell) (s : State) :
    Leads [.fresh, .out, .sys, .basin, .weir, .islands, .rails, .staging, .intc, .mbx, .win, .pcie, .fw, .gp, .pi, .tp, .tl, .cyc, .cv, .sl, .dh] s (execStP core k b x s) := by
  unfold execStP
  repeat' first
    | decide
    | with_reducible exact Follows.refl ..
    | with_reducible apply Leads.next
    | with_reducible apply Follows.after (accessInstr_follows ..)
    | with_reducible apply Follows.foldl
    | split
    | dsimp only
    | with_reducible exact Leads.refused _ _ _
    | intro _

theorem execInCell_follows (core : Fin 8) (rd : Fin 16) (p : Fin 4) (x : Cell) (s : State) :
    Leads [.fresh, .out, .sys, .basin, .weir, .islands, .rails, .staging, .intc, .mbx, .win, .pcie, .fw, .gp, .pi, .tp, .tl, .cyc, .cv, .sl, .dh] s (execInCell core rd p x s) := by
  unfold execInCell
  repeat' first
    | decide
    | with_reducible exact Follows.refl ..
    | with_reducible apply Leads.next
    | with_reducible apply Follows.after (accessInstr_follows ..)
    | with_reducible apply Follows.foldl
    | split
    | dsimp only
    | with_reducible exact Leads.refused _ _ _
    | intro _

theorem execInPair_follows (core : Fin 8) (k : Fin 8) (p : Fin 4) (x : Cell) (s : State) :
    Leads [.fresh, .out, .sys, .basin, .weir, .islands, .rails, .staging, .intc, .mbx, .win, .pcie, .fw, .gp, .pi, .tp, .tl, .cyc, .cv, .sl, .dh] s (execInPair core k p x s) := by
  unfold execInPair
  repeat' first
    | decide
    | with_reducible exact Follows.refl ..
    | with_reducible apply Leads.next
    | with_reducible apply Follows.after (accessInstr_follows ..)
    | with_reducible apply Follows.foldl
    | split
    | dsimp only
    | with_reducible exact Leads.refused _ _ _
    | intro _

theorem execOutCell_follows (core : Fin 8) (rs : Fin 16) (p : Fin 4) (x : Cell) (s : State) :
    Leads [.fresh, .out, .sys, .basin, .weir, .islands, .rails, .staging, .intc, .mbx, .win, .pcie, .fw, .gp, .pi, .tp, .tl, .cyc, .cv, .sl, .dh] s (execOutCell core rs p x s) := by
  unfold execOutCell
  repeat' first
    | decide
    | with_reducible exact Follows.refl ..
    | with_reducible apply Leads.next
    | with_reducible apply Follows.after (accessInstr_follows ..)
    | with_reducible apply Follows.foldl
    | split
    | dsimp only
    | with_reducible exact Leads.refused _ _ _
    | intro _

theorem execOutPair_follows (core : Fin 8) (k : Fin 8) (p : Fin 4) (x : Cell) (s : State) :
    Leads [.fresh, .out, .sys, .basin, .weir, .islands, .rails, .staging, .intc, .mbx, .win, .pcie, .fw, .gp, .pi, .tp, .tl, .cyc, .cv, .sl, .dh] s (execOutPair core k p x s) := by
  unfold execOutPair
  repeat' first
    | decide
    | with_reducible exact Follows.refl ..
    | with_reducible apply Leads.next
    | with_reducible apply Follows.after (accessInstr_follows ..)
    | with_reducible apply Follows.foldl
    | split
    | dsimp only
    | with_reducible exact Leads.refused _ _ _
    | intro _

theorem execMvm_follows (core : Fin 8) (size : Size) (f : Fin 8) (g : Fin 8) (x : Cell) (y : Cell) (s : State) :
    Leads [.fresh, .out, .sys, .basin, .weir, .islands, .rails, .staging, .intc, .mbx, .win, .pcie, .fw, .gp, .pi, .tp, .tl, .cyc, .cv, .sl, .dh] s (execMvm core size f g x y s) := by
  unfold execMvm
  repeat' first
    | decide
    | with_reducible exact Follows.refl ..
    | with_reducible apply Leads.next
    | with_reducible apply Follows.after (accessInstr_follows ..)
    | with_reducible apply Follows.foldl
    | split
    | dsimp only
    | with_reducible exact Leads.refused _ _ _
    | intro _

theorem execInm_follows (core : Fin 8) (pair : Bool) (f : Fin 8) (p : Fin 4) (x : Cell) (y : Cell) (s : State) :
    Leads [.fresh, .out, .sys, .basin, .weir, .islands, .rails, .staging, .intc, .mbx, .win, .pcie, .fw, .gp, .pi, .tp, .tl, .cyc, .cv, .sl, .dh] s (execInm core pair f p x y s) := by
  unfold execInm
  repeat' first
    | decide
    | with_reducible exact Follows.refl ..
    | with_reducible apply Leads.next
    | with_reducible apply Follows.after (accessInstr_follows ..)
    | with_reducible apply Follows.foldl
    | split
    | dsimp only
    | with_reducible exact Leads.refused _ _ _
    | intro _

theorem execOutm_follows (core : Fin 8) (pair : Bool) (f : Fin 8) (p : Fin 4) (x : Cell) (y : Cell) (s : State) :
    Leads [.fresh, .out, .sys, .basin, .weir, .islands, .rails, .staging, .intc, .mbx, .win, .pcie, .fw, .gp, .pi, .tp, .tl, .cyc, .cv, .sl, .dh] s (execOutm core pair f p x y s) := by
  unfold execOutm
  repeat' first
    | decide
    | with_reducible exact Follows.refl ..
    | with_reducible apply Leads.next
    | with_reducible apply Follows.after (accessInstr_follows ..)
    | with_reducible apply Follows.foldl
    | split
    | dsimp only
    | with_reducible exact Leads.refused _ _ _
    | intro _

end Sys2Proof.Machine
end

