-- ==== Sys2Proof/Laws/FollowsCommand.lean ====
section
/-! SUPPORT. What each operation may change (`Follows`): the Lockkeeper commands. -/

set_option linter.unusedTactic false
set_option linter.unreachableTactic false
set_option linter.unusedVariables false

open Sys2Proof

namespace Sys2Proof.Machine

/-! ### Command -/

theorem popWords_follows (s : State) (mb : Nat) (a1 : Nat) :
    Follows [.out, .intc, .mbx, .pcie, .fw] s (popWords s mb a1) := by
  fun_induction popWords s mb a1 <;> repeat' first
    | decide
    | with_reducible exact Follows.refl ..
    | with_reducible apply Follows.after (rxPop_follows ..)
    | with_reducible refine Follows.trans ?_ (by assumption)
    | with_reducible apply Follows.foldl
    | with_reducible apply Follows.foldlFst
    | split
    | dsimp only
    | with_reducible refine Follows.fst (by assumption) ?_
    | intro _

theorem takeMsg_follows (s : State) (mb : Nat) (l : List Word) :
    Follows [.out, .intc, .mbx, .pcie, .fw] s (takeMsg s mb l) := by
  unfold takeMsg
  repeat' first
    | decide
    | with_reducible exact Follows.refl ..
    | with_reducible apply Follows.after (onFw_follows ..)
    | with_reducible apply Follows.after (popWords_follows ..)
    | with_reducible apply Follows.foldl
    | split
    | dsimp only
    | intro _

theorem guarded_follows {l : List Part} {s t : State} (checks : List Nat) (f : State → Res)
    (h : Follows l t (f t).state) (g : Follows l s t) : Follows l s (guarded t checks f).state := by
  unfold guarded
  split
  · exact g.trans h
  · exact g

theorem replyDuplicate_follows (s : State) (c : Cmd) (k : Kept) :
    Follows [.out, .intc, .mbx, .pcie, .fw] s (replyDuplicate s c k) := by
  unfold replyDuplicate
  repeat' first
    | decide
    | with_reducible exact Follows.refl ..
    | with_reducible apply Follows.after (sendReply_follows ..)
    | with_reducible apply Follows.foldl
    | split
    | dsimp only
    | intro _

theorem finish_follows (c : Cmd) (r : Res) : Follows [.out, .intc, .mbx, .pcie, .fw] r.state (finish c r) := by
  cases r with
  | done s st w => exact (reply_follows ..).mono (l := [.out, .intc, .mbx, .pcie, .fw]) (by decide)
  | wait s w =>
    exact Follows.set_fw _ (by decide) (Follows.refl [.out, .intc, .mbx, .pcie, .fw] s)
  | silent s => exact Follows.refl ..

theorem faulting_follows (fault : Bool) (s : State) (r : Res) {l : List Part}
    (hl : ∀ x ∈ [.fresh, .staging, .intc, .fw], x ∈ l) (h : Follows l s r.state) :
    Follows l s (faulting fault s r).state := by
  unfold faulting
  dsimp only
  repeat' first
    | exact h
    | exact (internalFault_follows ..).mono (fun x hx => hl x (by revert x hx; decide))
    | split

theorem runCommand_follows {l : List Part} (s : State) (c : Cmd) (cls : Cls) (rec fault : Bool)
    (run : Cmd → State → Res) (hl : ∀ x ∈ [.fresh, .out, .staging, .intc, .mbx, .pcie, .fw], x ∈ l)
    (h : ∀ c s, Follows l s (run c s).state) : Follows l s (runCommand s c cls rec fault run) := by
  have k : Follows l s (takeMsg s c.mb (c.header :: c.words)) :=
    (takeMsg_follows ..).mono (fun x hx => hl x (by revert x hx; decide))
  have fin (r : Res) : Follows l r.state (finish c r) :=
    (finish_follows c r).mono (fun x hx => hl x (by revert x hx; decide))
  unfold runCommand
  dsimp only
  split
  · exact k.trans ((replyDuplicate_follows ..).mono (fun x hx => hl x (by revert x hx; decide)))
  · split
    · refine Follows.after (caused_follows ..) (fun x hx => hl x (by revert x hx; decide))
        (Follows.trans ?_ (fin _))
      refine Follows.trans ?_ (faulting_follows fault _ _ (fun x hx => hl x (by revert x hx; decide)) (h c _))
      exact Follows.after (causes_follows ..) (fun x hx => hl x (by revert x hx; decide)) k
    · exact k.trans (fin (.done _ _ _))

theorem command_follows {l : List Part} (op : Nat) (cls : Cls) (rec : Bool) (mb : Fin 8) (msg : Msg)
    (s : State) (run : Cmd → State → Res) (hl : ∀ x ∈ [.fresh, .out, .staging, .intc, .mbx, .pcie, .fw], x ∈ l)
    (h : ∀ c s, Follows l s (run c s).state) : Leads l s (command op cls rec mb msg s run) := by
  unfold command
  split
  · refine Leads.next ?_
    split
    · exact runCommand_follows s _ cls rec msg.fault run hl h
    · exact Follows.refl ..
  · exact Leads.refused _ _ _

theorem onNext_follows {l : List Part} {s : State} {o : Host.Outcome State Fault Refusal}
    (f : State → State) (h : Leads l s o) (k : ∀ u, Follows l u (f u)) : Leads l s (onNext o f) := by
  intro t e
  cases o with
  | next u => cases e; exact (h u rfl).trans (k u)
  | fault x => cases e
  | refused x => cases e

theorem execUndefinedOpcode_follows (mb : Fin 8) (header : Word) (words : List Word) (s : State) :
    Leads [.out, .intc, .mbx, .pcie, .fw] s (execUndefinedOpcode mb header words s) := by
  unfold execUndefinedOpcode
  repeat' first
    | decide
    | with_reducible exact Follows.refl ..
    | with_reducible apply Leads.next
    | with_reducible apply Follows.after (sendReply_follows ..)
    | with_reducible apply Follows.after (takeMsg_follows ..)
    | with_reducible apply Follows.foldl
    | split
    | dsimp only
    | with_reducible exact Leads.refused _ _ _
    | intro _

theorem zeroPages_follows (s : State) (p n : Nat) : Follows [.basin] s (zeroPages s p n) :=
  Follows.foldl (Follows.set_bytes _ (Tab.wf_filter 0 _ _) (by decide) (Follows.refl _ s))
    (fun _ _ => fullWrite_follows ..)

theorem takePages_follows {s t : State} {n p : Nat} (e : takePages s n = some (t, p)) :
    Follows [.basin, .fw] s t := by
  unfold takePages at e
  obtain ⟨q, -, h⟩ := Option.map_eq_some_iff.mp e
  cases h
  exact ((onFw_follows ..).mono (by decide)).trans ((zeroPages_follows ..).mono (by decide))

theorem freeRun_follows (s : State) (r : Option (Nat × Nat)) :
    Follows [.fw] s (freeRun s r) := by
  unfold freeRun
  repeat' first
    | decide
    | with_reducible exact Follows.refl ..
    | with_reducible apply Follows.after (onFw_follows ..)
    | with_reducible apply Follows.foldl
    | split
    | dsimp only
    | intro _

theorem execIdentify_follows (mb : Fin 8) (msg : Msg) (s : State) :
    Leads [.fresh, .out, .staging, .intc, .mbx, .pcie, .fw] s (execIdentify mb msg s) := by
  unfold execIdentify
  repeat' first
    | decide
    | with_reducible exact Follows.refl ..
    | with_reducible apply Leads.next
    | with_reducible apply command_follows
    | with_reducible apply guarded_follows
    | with_reducible apply Follows.after (onFw_follows ..)
    | with_reducible apply Follows.foldl
    | dsimp only [Res.state_done, Res.state_wait, Res.state_silent]
    | split
    | dsimp only
    | with_reducible refine Follows.ofDone (by assumption) ?_
    | with_reducible exact Leads.refused _ _ _
    | intro _

theorem execStatusCommand_follows (mb : Fin 8) (msg : Msg) (s : State) :
    Leads [.fresh, .out, .staging, .intc, .mbx, .pcie, .fw] s (execStatusCommand mb msg s) := by
  unfold execStatusCommand
  repeat' first
    | decide
    | with_reducible exact Follows.refl ..
    | with_reducible apply Leads.next
    | with_reducible apply command_follows
    | with_reducible apply guarded_follows
    | with_reducible apply Follows.foldl
    | dsimp only [Res.state_done, Res.state_wait, Res.state_silent]
    | split
    | dsimp only
    | with_reducible refine Follows.ofDone (by assumption) ?_
    | with_reducible exact Leads.refused _ _ _
    | intro _

theorem execQueryCommand_follows (mb : Fin 8) (msg : Msg) (s : State) :
    Leads [.fresh, .out, .staging, .intc, .mbx, .pcie, .fw] s (execQueryCommand mb msg s) := by
  unfold execQueryCommand
  repeat' first
    | decide
    | with_reducible exact Follows.refl ..
    | with_reducible apply Leads.next
    | with_reducible apply command_follows
    | with_reducible apply guarded_follows
    | with_reducible apply Follows.foldl
    | dsimp only [Res.state_done, Res.state_wait, Res.state_silent]
    | split
    | dsimp only
    | with_reducible refine Follows.ofDone (by assumption) ?_
    | with_reducible exact Leads.refused _ _ _
    | intro _

theorem execNopCommand_follows (mb : Fin 8) (msg : Msg) (s : State) :
    Leads [.fresh, .out, .staging, .intc, .mbx, .pcie, .fw] s (execNopCommand mb msg s) := by
  unfold execNopCommand
  repeat' first
    | decide
    | with_reducible exact Follows.refl ..
    | with_reducible apply Leads.next
    | with_reducible apply command_follows
    | with_reducible apply guarded_follows
    | with_reducible apply Follows.foldl
    | dsimp only [Res.state_done, Res.state_wait, Res.state_silent]
    | split
    | dsimp only
    | with_reducible refine Follows.ofDone (by assumption) ?_
    | with_reducible exact Leads.refused _ _ _
    | intro _

theorem execSetMode_follows (mb : Fin 8) (msg : Msg) (s : State) :
    Leads [.fresh, .out, .staging, .intc, .mbx, .pcie, .fw] s (execSetMode mb msg s) := by
  unfold execSetMode
  repeat' first
    | decide
    | with_reducible exact Follows.refl ..
    | with_reducible apply Leads.next
    | with_reducible apply command_follows
    | with_reducible apply guarded_follows
    | with_reducible apply Follows.foldl
    | dsimp only [Res.state_done, Res.state_wait, Res.state_silent]
    | split
    | dsimp only
    | with_reducible refine Follows.ofDone (by assumption) ?_
    | with_reducible exact Leads.refused _ _ _
    | intro _

theorem execSetWatchdog_follows (mb : Fin 8) (msg : Msg) (s : State) :
    Leads [.fresh, .out, .staging, .intc, .mbx, .pcie, .fw] s (execSetWatchdog mb msg s) := by
  unfold execSetWatchdog
  repeat' first
    | decide
    | with_reducible exact Follows.refl ..
    | with_reducible apply Leads.next
    | with_reducible apply command_follows
    | with_reducible apply guarded_follows
    | with_reducible apply Follows.after (onFw_follows ..)
    | with_reducible apply Follows.foldl
    | dsimp only [Res.state_done, Res.state_wait, Res.state_silent]
    | split
    | dsimp only
    | with_reducible refine Follows.ofDone (by assumption) ?_
    | with_reducible exact Leads.refused _ _ _
    | intro _

/-! ### CommandObj -/

theorem withIndex_follows {l : List Part} {s t : State} (k : Nat) (f : Nat → Res)
    (h : ∀ i, Follows l t (f i).state) (g : Follows l s t) : Follows l s (withIndex t k f).state := by
  unfold withIndex
  split
  · exact g.trans (h _)
  · exact g

theorem created_follows (s : State) (t : Nat) (i : Nat) :
    Follows [] s (created s t i).state := by
  unfold created
  repeat' first
    | decide
    | with_reducible exact Follows.refl ..
    | with_reducible apply Follows.foldl
    | dsimp only [Res.state_done, Res.state_wait, Res.state_silent]
    | split
    | dsimp only
    | with_reducible refine Follows.ofDone (by assumption) ?_
    | intro _

theorem retireHandle_follows (s : State) (t : Nat) (i : Nat) :
    Follows [.staging, .intc, .fw] s (retireHandle s t i) := by
  unfold retireHandle
  repeat' first
    | decide
    | with_reducible exact Follows.refl ..
    | with_reducible apply Follows.after (onFw_follows ..)
    | with_reducible apply Follows.after (stagingLevel_follows ..)
    | with_reducible apply Follows.foldl
    | split
    | dsimp only
    | with_reducible apply Follows.set_staging
    | intro _

theorem execBasinAlloc_follows (mb : Fin 8) (msg : Msg) (s : State) :
    Leads [.fresh, .out, .basin, .staging, .intc, .mbx, .win, .pcie, .fw] s (execBasinAlloc mb msg s) := by
  unfold execBasinAlloc
  repeat' first
    | decide
    | with_reducible exact Follows.refl ..
    | with_reducible apply Leads.next
    | with_reducible apply command_follows
    | with_reducible apply guarded_follows
    | with_reducible apply Follows.after (onFw_follows ..)
    | with_reducible apply Follows.after (setGuards_follows ..)
    | with_reducible apply Follows.after (zeroPages_follows ..)
    | with_reducible apply Follows.foldl
    | dsimp only [Res.state_done, Res.state_wait, Res.state_silent]
    | split
    | dsimp only
    | with_reducible refine Follows.ofDone (by assumption) ?_
    | with_reducible exact Leads.refused _ _ _
    | intro _

theorem execBasinFree_follows (mb : Fin 8) (msg : Msg) (s : State) :
    Leads [.fresh, .out, .staging, .intc, .mbx, .win, .pcie, .fw] s (execBasinFree mb msg s) := by
  unfold execBasinFree
  repeat' first
    | decide
    | with_reducible exact Follows.refl ..
    | with_reducible apply Leads.next
    | with_reducible apply command_follows
    | with_reducible apply guarded_follows
    | with_reducible apply Follows.after (onFw_follows ..)
    | with_reducible apply Follows.after (setGuards_follows ..)
    | with_reducible apply Follows.foldl
    | dsimp only [Res.state_done, Res.state_wait, Res.state_silent]
    | split
    | dsimp only
    | with_reducible refine Follows.ofDone (by assumption) ?_
    | with_reducible exact Leads.refused _ _ _
    | intro _

theorem deliverHeld_follows (a1 : List Rec) (a2 : State) :
    Follows [.out, .basin, .staging, .intc, .pcie, .fw] a2 (deliverHeld a1 a2).1 := by
  fun_induction deliverHeld a1 a2 <;> repeat' first
    | decide
    | with_reducible exact Follows.refl ..
    | with_reducible apply Follows.after (deliver_follows ..)
    | with_reducible refine Follows.trans ?_ (by assumption)
    | with_reducible apply Follows.foldl
    | with_reducible apply Follows.foldlFst
    | split
    | dsimp only
    | with_reducible refine Follows.fst (by assumption) ?_
    | intro _

theorem openDevice_follows (s : State) (i : Nat) :
    Follows [.out, .basin, .staging, .intc, .pcie, .fw] s (openDevice s i) := by
  unfold openDevice
  repeat' first
    | decide
    | with_reducible exact Follows.refl ..
    | with_reducible apply Follows.after (onFw_follows ..)
    | with_reducible apply Follows.after (setMoor_follows ..)
    | with_reducible apply Follows.after (stagingLevel_follows ..)
    | with_reducible apply Follows.after (readCb_follows ..)
    | with_reducible apply Follows.after (addDropped_follows ..)
    | with_reducible apply Follows.after (putOverflow_follows ..)
    | with_reducible apply Follows.after (deliverHeld_follows ..)
    | with_reducible apply Follows.foldl
    | with_reducible apply Follows.foldlFst
    | split
    | dsimp only
    | with_reducible refine Follows.fst (by assumption) ?_
    | with_reducible apply Follows.set_staging
    | intro _

theorem setWatch_follows (s : State) (t : Tab Watch) :
    Follows [.intc] s (setWatch s t) := by
  unfold setWatch
  repeat' first
    | decide
    | with_reducible exact Follows.refl ..
    | with_reducible apply Follows.foldl
    | split
    | dsimp only
    | with_reducible apply Follows.set_intc
    | intro _

theorem registerMoor_follows (s : State) (i : Nat) (m : Moor) :
    Follows [.intc, .sl] s (registerMoor s i m) := by
  unfold registerMoor
  repeat' first
    | decide
    | with_reducible exact Follows.refl ..
    | with_reducible apply Follows.after (onSl_follows ..)
    | with_reducible apply Follows.after (setWatch_follows ..)
    | with_reducible apply Follows.foldl
    | split
    | dsimp only
    | intro _

theorem execCreateMooring_follows (mb : Fin 8) (msg : Msg) (s : State) :
    Leads [.fresh, .out, .basin, .staging, .intc, .mbx, .pcie, .fw, .sl] s (execCreateMooring mb msg s) := by
  unfold execCreateMooring
  repeat' first
    | decide
    | with_reducible exact Follows.refl ..
    | with_reducible apply Leads.next
    | with_reducible apply command_follows
    | with_reducible apply guarded_follows
    | with_reducible apply withIndex_follows
    | with_reducible apply Follows.after (setMoor_follows ..)
    | with_reducible apply Follows.after (writeMem_follows ..)
    | with_reducible apply Follows.after (created_follows ..)
    | with_reducible apply Follows.after (openDevice_follows ..)
    | with_reducible apply Follows.after (registerMoor_follows ..)
    | with_reducible apply Follows.foldl
    | with_reducible apply Follows.foldlFst
    | dsimp only [Res.state_done, Res.state_wait, Res.state_silent]
    | split
    | dsimp only
    | with_reducible refine Follows.fst (by assumption) ?_
    | with_reducible refine Follows.ofDone (by assumption) ?_
    | with_reducible exact Leads.refused _ _ _
    | intro _

theorem placeSig_follows {s t : State} {n p : Nat} (e : placeSig s n = some (t, p)) :
    Follows [.basin, .fw] s t := by
  unfold placeSig at e
  dsimp only at e
  split at e
  · cases e; exact Follows.refl ..
  · obtain ⟨q, h, k⟩ := Option.map_eq_some_iff.mp e
    cases k
    exact takePages_follows (p := q.2) h

theorem fillSig_follows (s : State) (c : Scene) :
    Follows [.fresh, .basin] s (fillSig s c) := by
  unfold fillSig
  repeat' first
    | decide
    | with_reducible exact Follows.refl ..
    | with_reducible apply Follows.after (drawFree_follows ..)
    | with_reducible apply Follows.after (fullWrite_follows ..)
    | with_reducible apply Follows.foldl
    | with_reducible apply Follows.foldlFst
    | split
    | dsimp only
    | with_reducible refine Follows.fst (by assumption) ?_
    | intro _

theorem execCreateScene_follows (mb : Fin 8) (msg : Msg) (s : State) :
    Leads [.fresh, .out, .basin, .staging, .intc, .mbx, .pcie, .fw, .tp] s (execCreateScene mb msg s) := by
  unfold execCreateScene
  repeat' first
    | decide
    | with_reducible exact Follows.refl ..
    | with_reducible apply Leads.next
    | with_reducible apply command_follows
    | with_reducible apply guarded_follows
    | with_reducible apply withIndex_follows
    | with_reducible apply Follows.after (readMem_follows ..)
    | with_reducible apply Follows.after (setScene_follows ..)
    | with_reducible apply Follows.after (created_follows ..)
    | with_reducible refine Follows.after (placeSig_follows (by assumption)) (by decide) ?_
    | with_reducible apply Follows.after (fillSig_follows ..)
    | with_reducible apply Follows.foldl
    | with_reducible apply Follows.foldlFst
    | dsimp only [Res.state_done, Res.state_wait, Res.state_silent]
    | split
    | dsimp only
    | with_reducible refine Follows.fst (by assumption) ?_
    | with_reducible refine Follows.ofDone (by assumption) ?_
    | with_reducible exact Leads.refused _ _ _
    | intro _

theorem execCreateVoice_follows (mb : Fin 8) (msg : Msg) (s : State) :
    Leads [.fresh, .out, .staging, .intc, .mbx, .pcie, .fw, .cv] s (execCreateVoice mb msg s) := by
  unfold execCreateVoice
  repeat' first
    | decide
    | with_reducible exact Follows.refl ..
    | with_reducible apply Leads.next
    | with_reducible apply command_follows
    | with_reducible apply guarded_follows
    | with_reducible apply withIndex_follows
    | with_reducible apply Follows.after (setVoice_follows ..)
    | with_reducible apply Follows.after (created_follows ..)
    | with_reducible apply Follows.foldl
    | dsimp only [Res.state_done, Res.state_wait, Res.state_silent]
    | split
    | dsimp only
    | with_reducible refine Follows.ofDone (by assumption) ?_
    | with_reducible exact Leads.refused _ _ _
    | intro _

theorem execCreateMix_follows (mb : Fin 8) (msg : Msg) (s : State) :
    Leads [.fresh, .out, .staging, .intc, .mbx, .pcie, .fw, .cv] s (execCreateMix mb msg s) := by
  unfold execCreateMix
  repeat' first
    | decide
    | with_reducible exact Follows.refl ..
    | with_reducible apply Leads.next
    | with_reducible apply command_follows
    | with_reducible apply guarded_follows
    | with_reducible apply withIndex_follows
    | with_reducible apply Follows.after (setMix_follows ..)
    | with_reducible apply Follows.after (created_follows ..)
    | with_reducible apply Follows.foldl
    | dsimp only [Res.state_done, Res.state_wait, Res.state_silent]
    | split
    | dsimp only
    | with_reducible refine Follows.ofDone (by assumption) ?_
    | with_reducible exact Leads.refused _ _ _
    | intro _

theorem execRouteVoice_follows (mb : Fin 8) (msg : Msg) (s : State) :
    Leads [.fresh, .out, .staging, .intc, .mbx, .pcie, .fw, .cv] s (execRouteVoice mb msg s) := by
  unfold execRouteVoice
  repeat' first
    | decide
    | with_reducible exact Follows.refl ..
    | with_reducible apply Leads.next
    | with_reducible apply command_follows
    | with_reducible apply guarded_follows
    | with_reducible apply Follows.after (updVoice_follows ..)
    | with_reducible apply Follows.foldl
    | dsimp only [Res.state_done, Res.state_wait, Res.state_silent]
    | split
    | dsimp only
    | with_reducible refine Follows.ofDone (by assumption) ?_
    | with_reducible exact Leads.refused _ _ _
    | intro _

theorem execOpenChannel_follows (mb : Fin 8) (msg : Msg) (s : State) :
    Leads [.fresh, .out, .staging, .intc, .mbx, .pcie, .fw, .sl] s (execOpenChannel mb msg s) := by
  unfold execOpenChannel
  repeat' first
    | decide
    | with_reducible exact Follows.refl ..
    | with_reducible apply Leads.next
    | with_reducible apply command_follows
    | with_reducible apply guarded_follows
    | with_reducible apply withIndex_follows
    | with_reducible apply Follows.after (updChan_follows ..)
    | with_reducible apply Follows.after (created_follows ..)
    | with_reducible apply Follows.foldl
    | dsimp only [Res.state_done, Res.state_wait, Res.state_silent]
    | split
    | dsimp only
    | with_reducible refine Follows.ofDone (by assumption) ?_
    | with_reducible exact Leads.refused _ _ _
    | intro _

theorem execCreateFence_follows (mb : Fin 8) (msg : Msg) (s : State) :
    Leads [.fresh, .out, .staging, .intc, .mbx, .pcie, .fw] s (execCreateFence mb msg s) := by
  unfold execCreateFence
  repeat' first
    | decide
    | with_reducible exact Follows.refl ..
    | with_reducible apply Leads.next
    | with_reducible apply command_follows
    | with_reducible apply guarded_follows
    | with_reducible apply withIndex_follows
    | with_reducible apply Follows.after (onFw_follows ..)
    | with_reducible apply Follows.after (created_follows ..)
    | with_reducible apply Follows.foldl
    | dsimp only [Res.state_done, Res.state_wait, Res.state_silent]
    | split
    | dsimp only
    | with_reducible refine Follows.ofDone (by assumption) ?_
    | with_reducible exact Leads.refused _ _ _
    | intro _

theorem setDhMask_follows (s : State) (scene : Option Nat) :
    Follows [.tp] s (setDhMask s scene) := by
  unfold setDhMask
  repeat' first
    | decide
    | with_reducible exact Follows.refl ..
    | with_reducible apply Follows.after (updScene_follows ..)
    | with_reducible apply Follows.foldl
    | split
    | dsimp only
    | intro _

theorem execCreateScript_follows (mb : Fin 8) (msg : Msg) (s : State) :
    Leads [.fresh, .out, .staging, .intc, .mbx, .pcie, .fw, .tp, .dh] s (execCreateScript mb msg s) := by
  unfold execCreateScript
  repeat' first
    | decide
    | with_reducible exact Follows.refl ..
    | with_reducible apply Leads.next
    | with_reducible apply command_follows
    | with_reducible apply guarded_follows
    | with_reducible apply withIndex_follows
    | with_reducible apply Follows.after (setTask_follows ..)
    | with_reducible apply Follows.after (created_follows ..)
    | with_reducible apply Follows.after (setDhMask_follows ..)
    | with_reducible apply Follows.foldl
    | dsimp only [Res.state_done, Res.state_wait, Res.state_silent]
    | split
    | dsimp only
    | with_reducible refine Follows.ofDone (by assumption) ?_
    | with_reducible exact Leads.refused _ _ _
    | intro _

theorem startScript_follows (s : State) (i : Nat) (t : Task) :
    Follows [.out, .basin, .weir, .staging, .intc, .pcie, .fw, .tp, .sl, .dh] s (startScript s i t) := by
  unfold startScript
  repeat' first
    | decide
    | with_reducible exact Follows.refl ..
    | with_reducible apply Follows.after (updTask_follows ..)
    | with_reducible apply Follows.after (reschedule_follows ..)
    | with_reducible apply Follows.after (startTask_follows ..)
    | with_reducible apply Follows.foldl
    | split
    | dsimp only
    | intro _

theorem stopScript_follows (s : State) (i : Nat) (t : Task) :
    Follows [.out, .basin, .weir, .staging, .intc, .pcie, .fw, .tp, .sl, .dh] s (stopScript s i t) := by
  unfold stopScript
  repeat' first
    | decide
    | with_reducible exact Follows.refl ..
    | with_reducible apply Follows.after (updTask_follows ..)
    | with_reducible apply Follows.after (stopTask_follows ..)
    | with_reducible apply Follows.after (reschedule_follows ..)
    | with_reducible apply Follows.foldl
    | split
    | dsimp only
    | intro _

theorem execScriptControl_follows (mb : Fin 8) (msg : Msg) (s : State) :
    Leads [.fresh, .out, .basin, .weir, .staging, .intc, .mbx, .pcie, .fw, .tp, .sl, .dh] s (execScriptControl mb msg s) := by
  unfold execScriptControl
  repeat' first
    | decide
    | with_reducible exact Follows.refl ..
    | with_reducible apply Leads.next
    | with_reducible apply command_follows
    | with_reducible apply guarded_follows
    | with_reducible apply Follows.after (startScript_follows ..)
    | with_reducible apply Follows.after (stopScript_follows ..)
    | with_reducible apply Follows.foldl
    | dsimp only [Res.state_done, Res.state_wait, Res.state_silent]
    | split
    | dsimp only
    | with_reducible refine Follows.ofDone (by assumption) ?_
    | with_reducible exact Leads.refused _ _ _
    | intro _

theorem entryNames_follows (h : Word) (m : Moor) (a1 : Nat) (a2 : Word) (a3 : State) :
    Follows [.basin, .staging, .intc, .fw] a3 (entryNames h m a1 a2 a3).1 := by
  fun_induction entryNames h m a1 a2 a3 <;> repeat' first
    | decide
    | with_reducible exact Follows.refl ..
    | with_reducible apply Follows.after (readMem_follows ..)
    | with_reducible refine Follows.trans ?_ (by assumption)
    | with_reducible apply Follows.foldl
    | with_reducible apply Follows.foldlFst
    | split
    | dsimp only
    | with_reducible refine Follows.fst (by assumption) ?_
    | intro _

theorem blitNames_follows (h : Word) (i : Nat) (m : Moor) (s : State) :
    Follows [.basin, .staging, .intc, .fw] s (blitNames h i m s).1 := by
  unfold blitNames
  repeat' first
    | decide
    | with_reducible exact Follows.refl ..
    | with_reducible apply Follows.after (readCb_follows ..)
    | with_reducible apply Follows.after (entryNames_follows ..)
    | with_reducible apply Follows.foldl
    | with_reducible apply Follows.foldlFst
    | split
    | dsimp only
    | with_reducible refine Follows.fst (by assumption) ?_
    | intro _

theorem fenceNamed_follows (s : State) (h : Word) :
    Follows [.basin, .staging, .intc, .fw] s (fenceNamed s h).1 := by
  unfold fenceNamed
  repeat' first
    | decide
    | with_reducible exact Follows.refl ..
    | with_reducible apply Follows.after (blitNames_follows ..)
    | with_reducible apply Follows.foldl
    | with_reducible apply Follows.foldlFst
    | split
    | dsimp only
    | with_reducible refine Follows.fst (by assumption) ?_
    | intro _

theorem blitterUses_follows (s : State) (i : Nat) (m : Moor) :
    Follows [.basin, .staging, .intc, .fw] s (blitterUses s i m).1 := by
  unfold blitterUses
  repeat' first
    | decide
    | with_reducible exact Follows.refl ..
    | with_reducible apply Follows.after (readCb_follows ..)
    | with_reducible apply Follows.foldl
    | with_reducible apply Follows.foldlFst
    | split
    | dsimp only
    | with_reducible refine Follows.fst (by assumption) ?_
    | intro _

theorem dropMoor_follows (s : State) (i : Nat) (m : Moor) :
    Follows [.intc, .fw, .tp, .sl] s (dropMoor s i m) := by
  unfold dropMoor
  repeat' first
    | decide
    | with_reducible exact Follows.refl ..
    | with_reducible apply Follows.after (onFw_follows ..)
    | with_reducible apply Follows.after (onBlt_follows ..)
    | with_reducible apply Follows.after (onSl_follows ..)
    | with_reducible apply Follows.after (setWatch_follows ..)
    | with_reducible apply Follows.foldl
    | split
    | dsimp only
    | intro _

theorem dropScene_follows (s : State) (i : Nat) :
    Follows [.fw, .tp] s (dropScene s i) := by
  unfold dropScene
  repeat' first
    | decide
    | with_reducible exact Follows.refl ..
    | with_reducible apply Follows.after (onFw_follows ..)
    | with_reducible apply Follows.after (onTp_follows ..)
    | with_reducible apply Follows.after (retireBanks_follows ..)
    | with_reducible apply Follows.foldl
    | split
    | dsimp only
    | intro _

theorem dropVoice_follows (s : State) (v : Nat) :
    Follows [.fw, .cv] s (dropVoice s v) := by
  unfold dropVoice
  repeat' first
    | decide
    | with_reducible exact Follows.refl ..
    | with_reducible apply Follows.after (onCv_follows ..)
    | with_reducible apply Follows.after (freeRun_follows ..)
    | with_reducible apply Follows.foldl
    | split
    | dsimp only
    | intro _

theorem dropMix_follows (s : State) (m : Nat) :
    Follows [.tl, .cv] s (dropMix s m) := by
  unfold dropMix
  repeat' first
    | decide
    | with_reducible exact Follows.refl ..
    | with_reducible apply Follows.after (dropAudio_follows ..)
    | with_reducible apply Follows.after (onCv_follows ..)
    | with_reducible apply Follows.after (touchMix_follows ..)
    | with_reducible apply Follows.foldl
    | split
    | dsimp only
    | intro _

theorem dropScript_follows (s : State) (i : Nat) :
    Follows [.out, .basin, .weir, .staging, .intc, .pcie, .fw, .tp, .sl, .dh] s (dropScript s i) := by
  unfold dropScript
  repeat' first
    | decide
    | with_reducible exact Follows.refl ..
    | with_reducible apply Follows.after (onDh_follows ..)
    | with_reducible apply Follows.after (stopTask_follows ..)
    | with_reducible apply Follows.after (reschedule_follows ..)
    | with_reducible apply Follows.after (freeRun_follows ..)
    | with_reducible apply Follows.after (setDhMask_follows ..)
    | with_reducible apply Follows.foldl
    | split
    | dsimp only
    | intro _

theorem dropObject_follows (s : State) (t : Nat) (i : Nat) :
    Follows [.out, .basin, .weir, .staging, .intc, .pcie, .fw, .tp, .tl, .cv, .sl, .dh] s (dropObject s t i) := by
  unfold dropObject
  repeat' first
    | decide
    | with_reducible exact Follows.refl ..
    | with_reducible apply Follows.after (onFw_follows ..)
    | with_reducible apply Follows.after (updStation_follows ..)
    | with_reducible apply Follows.after (updChan_follows ..)
    | with_reducible apply Follows.after (dropMoor_follows ..)
    | with_reducible apply Follows.after (dropScene_follows ..)
    | with_reducible apply Follows.after (dropVoice_follows ..)
    | with_reducible apply Follows.after (dropMix_follows ..)
    | with_reducible apply Follows.after (dropScript_follows ..)
    | with_reducible apply Follows.foldl
    | split
    | dsimp only
    | intro _

theorem dropBusy_follows (s : State) (t : Nat) (i : Nat) (h : Word) :
    Follows [.basin, .staging, .intc, .fw] s (dropBusy s t i h).1 := by
  unfold dropBusy
  repeat' first
    | decide
    | with_reducible exact Follows.refl ..
    | with_reducible apply Follows.after (fenceNamed_follows ..)
    | with_reducible apply Follows.after (blitterUses_follows ..)
    | with_reducible apply Follows.foldl
    | with_reducible apply Follows.foldlFst
    | split
    | dsimp only
    | with_reducible refine Follows.fst (by assumption) ?_
    | intro _

theorem execDestroyObject_follows (mb : Fin 8) (msg : Msg) (s : State) :
    Leads [.fresh, .out, .basin, .weir, .staging, .intc, .mbx, .pcie, .fw, .tp, .tl, .cv, .sl, .dh] s (execDestroyObject mb msg s) := by
  unfold execDestroyObject
  repeat' first
    | decide
    | with_reducible exact Follows.refl ..
    | with_reducible apply Leads.next
    | with_reducible apply command_follows
    | with_reducible apply guarded_follows
    | with_reducible apply Follows.after (retireHandle_follows ..)
    | with_reducible apply Follows.after (dropObject_follows ..)
    | with_reducible apply Follows.after (dropBusy_follows ..)
    | with_reducible apply Follows.foldl
    | with_reducible apply Follows.foldlFst
    | dsimp only [Res.state_done, Res.state_wait, Res.state_silent]
    | split
    | dsimp only
    | with_reducible refine Follows.fst (by assumption) ?_
    | with_reducible refine Follows.ofDone (by assumption) ?_
    | with_reducible exact Leads.refused _ _ _
    | intro _

/-! ### CommandBind -/

theorem defaultsPage_follows {s t : State} {i : Nat} (e : defaultsPage s i = some t) :
    Follows [.basin, .fw] s t := by
  unfold defaultsPage at e
  split at e
  · cases e; exact Follows.refl ..
  · obtain ⟨q, h, k⟩ := Option.map_eq_some_iff.mp e
    cases k
    exact (takePages_follows (p := q.2) h).trans ((onFw_follows ..).mono (by decide))

theorem execBindStation_follows (mb : Fin 8) (msg : Msg) (s : State) :
    Leads [.fresh, .out, .basin, .staging, .intc, .mbx, .pcie, .fw, .tp, .tl] s (execBindStation mb msg s) := by
  unfold execBindStation
  repeat' first
    | decide
    | with_reducible exact Follows.refl ..
    | with_reducible apply Leads.next
    | with_reducible apply command_follows
    | with_reducible apply guarded_follows
    | with_reducible apply withIndex_follows
    | with_reducible apply Follows.after (writeMem_follows ..)
    | with_reducible apply Follows.after (setStation_follows ..)
    | with_reducible apply Follows.after (enterConfig_follows ..)
    | with_reducible apply Follows.after (created_follows ..)
    | with_reducible refine Follows.after (defaultsPage_follows (by assumption)) (by decide) ?_
    | with_reducible apply Follows.foldl
    | with_reducible apply Follows.foldlFst
    | dsimp only [Res.state_done, Res.state_wait, Res.state_silent]
    | split
    | dsimp only
    | with_reducible refine Follows.fst (by assumption) ?_
    | with_reducible refine Follows.ofDone (by assumption) ?_
    | with_reducible exact Leads.refused _ _ _
    | intro _

theorem execRebindStation_follows (mb : Fin 8) (msg : Msg) (s : State) :
    Leads [.fresh, .out, .staging, .intc, .mbx, .pcie, .fw, .tp, .tl] s (execRebindStation mb msg s) := by
  unfold execRebindStation
  repeat' first
    | decide
    | with_reducible exact Follows.refl ..
    | with_reducible apply Leads.next
    | with_reducible apply command_follows
    | with_reducible apply guarded_follows
    | with_reducible apply Follows.after (bindScene_follows ..)
    | with_reducible apply Follows.foldl
    | dsimp only [Res.state_done, Res.state_wait, Res.state_silent]
    | split
    | dsimp only
    | with_reducible refine Follows.ofDone (by assumption) ?_
    | with_reducible exact Leads.refused _ _ _
    | intro _

theorem execRebindStationComplete_follows (mb : Fin 8) (s : State) :
    Leads [.out, .intc, .mbx, .pcie, .fw, .tl] s (execRebindStationComplete mb s) := by
  unfold execRebindStationComplete
  repeat' first
    | decide
    | with_reducible exact Follows.refl ..
    | with_reducible apply Leads.next
    | with_reducible apply Follows.after (updStation_follows ..)
    | with_reducible apply Follows.after (endWaiting_follows ..)
    | with_reducible apply Follows.foldl
    | split
    | dsimp only
    | with_reducible exact Leads.refused _ _ _
    | intro _

theorem execSetCycle_follows (mb : Fin 8) (msg : Msg) (s : State) :
    Leads [.fresh, .out, .staging, .intc, .mbx, .pcie, .fw, .tl, .cyc] s (execSetCycle mb msg s) := by
  unfold execSetCycle
  repeat' first
    | decide
    | with_reducible exact Follows.refl ..
    | with_reducible apply Leads.next
    | with_reducible apply command_follows
    | with_reducible apply guarded_follows
    | with_reducible apply Follows.after (onTl_follows _ _ rfl)
    | with_reducible apply Follows.after (onTl_follows_cyc ..)
    | with_reducible apply Follows.foldl
    | dsimp only [Res.state_done, Res.state_wait, Res.state_silent]
    | split
    | dsimp only
    | with_reducible refine Follows.ofDone (by assumption) ?_
    | with_reducible exact Leads.refused _ _ _
    | intro _

theorem execLaneConfig_follows (mb : Fin 8) (msg : Msg) (s : State) :
    Leads [.fresh, .out, .basin, .staging, .intc, .mbx, .pcie, .fw, .tp, .tl] s (execLaneConfig mb msg s) := by
  unfold execLaneConfig
  repeat' first
    | decide
    | with_reducible exact Follows.refl ..
    | with_reducible apply Leads.next
    | with_reducible apply command_follows
    | with_reducible apply guarded_follows
    | with_reducible apply Follows.after (laneCtrl_follows ..)
    | with_reducible apply Follows.foldl
    | dsimp only [Res.state_done, Res.state_wait, Res.state_silent]
    | split
    | dsimp only
    | with_reducible refine Follows.ofDone (by assumption) ?_
    | with_reducible exact Leads.refused _ _ _
    | intro _

theorem setPolicy_follows (s : State) (c : Cmd) :
    Follows [.out, .basin, .islands, .staging, .intc, .pcie, .fw, .tp, .tl] s (setPolicy s c) := by
  unfold setPolicy
  repeat' first
    | decide
    | with_reducible exact Follows.refl ..
    | with_reducible apply Follows.after (updIsl_follows ..)
    | with_reducible apply Follows.after (updScene_follows ..)
    | with_reducible apply Follows.after (updStation_follows ..)
    | with_reducible apply Follows.after (laneCtrl_follows ..)
    | with_reducible apply Follows.foldl
    | split
    | dsimp only
    | intro _

theorem execSetLoopPolicy_follows (mb : Fin 8) (msg : Msg) (s : State) :
    Leads [.fresh, .out, .basin, .islands, .staging, .intc, .mbx, .pcie, .fw, .tp, .tl] s (execSetLoopPolicy mb msg s) := by
  unfold execSetLoopPolicy
  repeat' first
    | decide
    | with_reducible exact Follows.refl ..
    | with_reducible apply Leads.next
    | with_reducible apply command_follows
    | with_reducible apply guarded_follows
    | with_reducible apply Follows.after (setPolicy_follows ..)
    | with_reducible apply Follows.foldl
    | dsimp only [Res.state_done, Res.state_wait, Res.state_silent]
    | split
    | dsimp only
    | with_reducible refine Follows.ofDone (by assumption) ?_
    | with_reducible exact Leads.refused _ _ _
    | intro _

theorem panelWire_follows (s : State) (old : Panel) (new : Panel) :
    Follows [.gp, .pi] s (panelWire s old new) := by
  unfold panelWire
  repeat' first
    | decide
    | with_reducible exact Follows.refl ..
    | with_reducible apply Follows.after (gpChange_follows ..)
    | with_reducible apply Follows.after (updSq_follows ..)
    | with_reducible apply Follows.foldl
    | split
    | dsimp only
    | intro _

theorem panelAfterReply_follows (s : State) :
    Follows [.tp] s (panelAfterReply s) := by
  unfold panelAfterReply
  repeat' first
    | decide
    | with_reducible exact Follows.refl ..
    | with_reducible apply Follows.after (onPanel_follows ..)
    | with_reducible apply Follows.foldl
    | split
    | dsimp only
    | intro _

theorem execPanelConfig_follows (mb : Fin 8) (msg : Msg) (s : State) :
    Leads [.fresh, .out, .basin, .staging, .intc, .mbx, .pcie, .fw, .gp, .pi, .tp] s (execPanelConfig mb msg s) := by
  unfold execPanelConfig
  repeat' first
    | decide
    | with_reducible exact Follows.refl ..
    | with_reducible apply Leads.next
    | with_reducible apply command_follows
    | with_reducible apply guarded_follows
    | with_reducible apply onNext_follows
    | with_reducible apply Follows.after (oweAll_follows ..)
    | with_reducible apply Follows.after (freeAll_follows ..)
    | with_reducible apply Follows.after (cancelUnsent_follows ..)
    | with_reducible apply Follows.after (onPanel_follows ..)
    | with_reducible apply Follows.after (panelKick_follows ..)
    | with_reducible apply Follows.after (panelStart_follows ..)
    | with_reducible apply Follows.after (panelWire_follows ..)
    | with_reducible apply Follows.after (panelAfterReply_follows ..)
    | with_reducible apply Follows.foldl
    | dsimp only [Res.state_done, Res.state_wait, Res.state_silent]
    | split
    | dsimp only
    | with_reducible refine Follows.ofDone (by assumption) ?_
    | with_reducible exact Leads.refused _ _ _
    | intro _

theorem execAudioPortConfig_follows (mb : Fin 8) (msg : Msg) (s : State) :
    Leads [.fresh, .out, .staging, .intc, .mbx, .pcie, .fw, .cv] s (execAudioPortConfig mb msg s) := by
  unfold execAudioPortConfig
  repeat' first
    | decide
    | with_reducible exact Follows.refl ..
    | with_reducible apply Leads.next
    | with_reducible apply command_follows
    | with_reducible apply guarded_follows
    | with_reducible apply Follows.after (onCv_follows ..)
    | with_reducible apply Follows.foldl
    | dsimp only [Res.state_done, Res.state_wait, Res.state_silent]
    | split
    | dsimp only
    | with_reducible refine Follows.ofDone (by assumption) ?_
    | with_reducible exact Leads.refused _ _ _
    | intro _

/-! ### CommandData -/

theorem withSource_follows {l : List Part} {s t : State} (a n : Nat) (f : State → List Byte → Res)
    (hl : ∀ x ∈ [.basin, .staging, .intc, .fw], x ∈ l) (h : ∀ u b, Follows l u (f u b).state) (g : Follows l s t) :
    Follows l s (withSource t a n f).state := by
  have k := g.trans ((readMem_follows t 2 a n).mono hl)
  unfold withSource
  split <;> rename_i e <;> have k := Follows.fst e k
  · exact k.trans (h _ _)
  · exact k
  · exact k

theorem moveEntries_wf {α : Type} [DecidableEq α] (d : α) (t : Tab α) (src dst size : Nat)
    (h : Tab.wf d t = true) : Tab.wf d (moveEntries t src dst size) = true := by
  unfold moveEntries
  have k : ∀ q ∈ t.filter (fun q => decide (src ≤ q.1) && decide (q.1 < src + size)), q.2 ≠ d := by
    intro q hq
    have := (Bool.and_eq_true _ _ |>.mp h).2
    simpa using List.all_eq_true.mp this q (List.mem_of_mem_filter hq)
  generalize t.filter _ = l at k
  induction l generalizing t with
  | nil => exact h
  | cons q r ih =>
    exact ih _ (Tab.wf_put d t _ _ (k q (by simp)) h) (fun x hx => k x (by simp [hx]))

theorem copyPage_follows (s : State) (src dst : Nat) : Follows [.basin] s (copyPage s src dst) :=
  Follows.set_bytes _ (moveEntries_wf 0 _ _ _ _) (by decide) (Follows.refl _ s)

theorem freshPages_follows (n : Nat) (s : State) (t : Tab Nat) (p : Nat) :
    Follows [.basin, .fw] s (freshPages n s t p).1 := by
  induction n generalizing s t p with
  | zero => exact Follows.refl ..
  | succ n ih =>
    unfold freshPages
    split
    · exact Follows.refl ..
    · rename_i e
      refine ((takePages_follows e).mono (by decide)).trans (Follows.trans ?_ (ih ..))
      split
      · exact (copyPage_follows ..).mono (by decide)
      · exact Follows.refl ..

theorem writeBank_follows (fuel : Nat) (s : State) (t : Tab Nat) (off : Nat) (b : List Byte) :
    Follows [.out, .basin, .staging, .intc, .pcie, .fw] s (writeBank fuel s t off b) := by
  induction fuel generalizing s off b with
  | zero => exact Follows.refl ..
  | succ fuel ih =>
    unfold writeBank
    dsimp only
    split
    · exact Follows.refl ..
    · refine Follows.trans ?_ (ih ..)
      split
      · exact (writeMem_follows ..).mono (by decide)
      · exact Follows.refl ..

theorem swapBank_follows (s : State) (b : Nat) (new : Tab Nat) :
    Follows [.fw, .tp] s (swapBank s b new) := by
  unfold swapBank
  repeat' first
    | decide
    | with_reducible exact Follows.refl ..
    | with_reducible apply Follows.after (onTp_follows ..)
    | with_reducible apply Follows.after (retireBank_follows ..)
    | with_reducible apply Follows.foldl
    | split
    | dsimp only
    | intro _

theorem execLoadTiles_follows (mb : Fin 8) (msg : Msg) (s : State) :
    Leads [.fresh, .out, .basin, .staging, .intc, .mbx, .pcie, .fw, .tp] s (execLoadTiles mb msg s) := by
  unfold execLoadTiles
  repeat' first
    | decide
    | with_reducible exact Follows.refl ..
    | with_reducible apply Leads.next
    | with_reducible apply command_follows
    | with_reducible apply guarded_follows
    | with_reducible apply withSource_follows
    | with_reducible apply Follows.after (freshPages_follows ..)
    | with_reducible apply Follows.after (writeBank_follows ..)
    | with_reducible apply Follows.after (swapBank_follows ..)
    | with_reducible apply Follows.foldl
    | with_reducible apply Follows.foldlFst
    | dsimp only [Res.state_done, Res.state_wait, Res.state_silent]
    | split
    | dsimp only
    | with_reducible refine Follows.fst (by assumption) ?_
    | with_reducible refine Follows.ofDone (by assumption) ?_
    | with_reducible exact Leads.refused _ _ _
    | intro _

theorem execLoadSamples_follows (mb : Fin 8) (msg : Msg) (s : State) :
    Leads [.fresh, .out, .basin, .staging, .intc, .mbx, .pcie, .fw, .cv] s (execLoadSamples mb msg s) := by
  unfold execLoadSamples
  repeat' first
    | decide
    | with_reducible exact Follows.refl ..
    | with_reducible apply Leads.next
    | with_reducible apply command_follows
    | with_reducible apply guarded_follows
    | with_reducible apply withSource_follows
    | with_reducible apply Follows.after (writeMem_follows ..)
    | with_reducible apply Follows.after (updVoice_follows ..)
    | with_reducible refine Follows.after (takePages_follows (by assumption)) (by decide) ?_
    | with_reducible apply Follows.after (freeRun_follows ..)
    | with_reducible apply Follows.foldl
    | with_reducible apply Follows.foldlFst
    | dsimp only [Res.state_done, Res.state_wait, Res.state_silent]
    | split
    | dsimp only
    | with_reducible refine Follows.fst (by assumption) ?_
    | with_reducible refine Follows.ofDone (by assumption) ?_
    | with_reducible exact Leads.refused _ _ _
    | intro _

theorem copyRun_follows {s t : State} {x : Task} {k p : Nat} (e : copyRun s x k = some (t, p)) :
    Follows [.basin, .fw] s t := by
  unfold copyRun at e
  split at e
  · split at e
    · cases e; exact Follows.refl ..
    · obtain ⟨q, h, k⟩ := Option.map_eq_some_iff.mp e
      cases k
      exact (takePages_follows (p := q.2) h).trans ((freeRun_follows ..).mono (by decide))
  · exact takePages_follows e

theorem copyRun_bind_follows {s t : State} {o : Option Task} {k p : Nat}
    (e : (o.bind fun x => copyRun s x k) = some (t, p)) : Follows [.basin, .fw] s t := by
  obtain ⟨x, _, e⟩ := Option.bind_eq_some_iff.mp e
  exact copyRun_follows e

theorem execLoadScript_follows (mb : Fin 8) (msg : Msg) (s : State) :
    Leads [.fresh, .out, .basin, .staging, .intc, .mbx, .pcie, .fw, .dh] s (execLoadScript mb msg s) := by
  unfold execLoadScript
  repeat' first
    | decide
    | with_reducible exact Follows.refl ..
    | with_reducible apply Leads.next
    | with_reducible apply command_follows
    | with_reducible apply guarded_follows
    | with_reducible apply withSource_follows
    | with_reducible apply Follows.after (writeMem_follows ..)
    | with_reducible apply Follows.after (updTask_follows ..)
    | with_reducible apply Follows.after (putCode_follows ..)
    | with_reducible refine Follows.after (copyRun_follows (by assumption)) (by decide) ?_
    | with_reducible refine Follows.after (copyRun_bind_follows (by assumption)) (by decide) ?_
    | with_reducible apply Follows.foldl
    | with_reducible apply Follows.foldlFst
    | dsimp only [Res.state_done, Res.state_wait, Res.state_silent]
    | split
    | dsimp only
    | with_reducible refine Follows.fst (by assumption) ?_
    | with_reducible refine Follows.ofDone (by assumption) ?_
    | with_reducible exact Leads.refused _ _ _
    | intro _

theorem execLoadDefaults_follows (mb : Fin 8) (msg : Msg) (s : State) :
    Leads [.fresh, .out, .basin, .staging, .intc, .mbx, .pcie, .fw, .tl] s (execLoadDefaults mb msg s) := by
  unfold execLoadDefaults
  repeat' first
    | decide
    | with_reducible exact Follows.refl ..
    | with_reducible apply Leads.next
    | with_reducible apply command_follows
    | with_reducible apply guarded_follows
    | with_reducible apply withSource_follows
    | with_reducible apply Follows.after (writeMem_follows ..)
    | with_reducible apply Follows.after (updStation_follows ..)
    | with_reducible apply Follows.foldl
    | with_reducible apply Follows.foldlFst
    | dsimp only [Res.state_done, Res.state_wait, Res.state_silent]
    | split
    | dsimp only
    | with_reducible refine Follows.fst (by assumption) ?_
    | with_reducible refine Follows.ofDone (by assumption) ?_
    | with_reducible exact Leads.refused _ _ _
    | intro _

theorem execForceOutput_follows (mb : Fin 8) (msg : Msg) (s : State) :
    Leads [.fresh, .out, .basin, .staging, .intc, .mbx, .pcie, .fw, .tl] s (execForceOutput mb msg s) := by
  unfold execForceOutput
  repeat' first
    | decide
    | with_reducible exact Follows.refl ..
    | with_reducible apply Leads.next
    | with_reducible apply command_follows
    | with_reducible apply guarded_follows
    | with_reducible apply withSource_follows
    | with_reducible apply Follows.after (updStation_follows ..)
    | with_reducible apply Follows.foldl
    | dsimp only [Res.state_done, Res.state_wait, Res.state_silent]
    | split
    | dsimp only
    | with_reducible refine Follows.ofDone (by assumption) ?_
    | with_reducible exact Leads.refused _ _ _
    | intro _

theorem execLaneTest_follows (mb : Fin 8) (msg : Msg) (s : State) :
    Leads [.fresh, .out, .basin, .staging, .intc, .mbx, .pcie, .fw, .tp, .tl] s (execLaneTest mb msg s) := by
  unfold execLaneTest
  repeat' first
    | decide
    | with_reducible exact Follows.refl ..
    | with_reducible apply Leads.next
    | with_reducible apply command_follows
    | with_reducible apply guarded_follows
    | with_reducible apply Follows.after (testKeep_follows ..)
    | with_reducible apply Follows.after (laneCtrl_follows ..)
    | with_reducible apply Follows.foldl
    | dsimp only [Res.state_done, Res.state_wait, Res.state_silent]
    | split
    | dsimp only
    | with_reducible refine Follows.ofDone (by assumption) ?_
    | with_reducible exact Leads.refused _ _ _
    | intro _

theorem diagWords_follows (a1 : Nat) (a2 : State) (a3 : Nat) :
    Follows [.fresh, .out, .sys, .basin, .weir, .islands, .staging, .intc, .mbx, .win, .pcie, .fw, .pi, .tp, .tl, .cv, .sl] a2 (diagWords a1 a2 a3).1 := by
  fun_induction diagWords a1 a2 a3 <;> repeat' first
    | decide
    | with_reducible exact Follows.refl ..
    | with_reducible apply Follows.after (fabricRead_follows ..)
    | with_reducible refine Follows.trans ?_ (by assumption)
    | with_reducible apply Follows.foldl
    | with_reducible apply Follows.foldlFst
    | split
    | dsimp only
    | with_reducible refine Follows.fst (by assumption) ?_
    | intro _

theorem execDiagRead_follows (mb : Fin 8) (msg : Msg) (s : State) :
    Leads [.fresh, .out, .sys, .basin, .weir, .islands, .staging, .intc, .mbx, .win, .pcie, .fw, .pi, .tp, .tl, .cv, .sl] s (execDiagRead mb msg s) := by
  unfold execDiagRead
  repeat' first
    | decide
    | with_reducible exact Follows.refl ..
    | with_reducible apply Leads.next
    | with_reducible apply command_follows
    | with_reducible apply guarded_follows
    | with_reducible apply Follows.after (diagWords_follows ..)
    | with_reducible apply Follows.foldl
    | with_reducible apply Follows.foldlFst
    | dsimp only [Res.state_done, Res.state_wait, Res.state_silent]
    | split
    | dsimp only
    | with_reducible refine Follows.fst (by assumption) ?_
    | with_reducible refine Follows.ofDone (by assumption) ?_
    | with_reducible exact Leads.refused _ _ _
    | intro _

/-! ### CommandImage -/

theorem writeSlot_follows (s : State) (k : Nat) (b : List Byte) :
    Follows [.flash, .flashBad] s (writeSlot s k b) := by
  have h := Follows.set_flash (l := [.flash, .flashBad]) ((b.zipIdx).foldl (fun t p =>
    Tab.set 0xFF t (slotBase k + p.2) p.1) s.flash) (by decide) (Follows.refl _ s)
  exact Follows.set_flashBad (Tab.erase s.flashBad k) (by decide) h

theorem spoilSlot_follows (s : State) (k : Nat) : Follows [.fresh, .flash, .flashBad] s (spoilSlot s k) := by
  have h := (drawFree_follows s).mono (l := [.fresh, .flash, .flashBad]) (by decide)
  unfold spoilSlot
  dsimp only
  generalize (drawFree s).1 = u at h
  generalize List.foldl _ u.flash _ = f
  exact Follows.set_flashBad _ (by decide) (Follows.set_flash f (by decide) h)

theorem execImageWrite_follows (mb : Fin 8) (msg : Msg) (flashOk : Bool) (readA : Bool) (readB : Bool) (s : State) :
    Leads [.fresh, .out, .flash, .flashBad, .sys, .basin, .staging, .intc, .mbx, .pcie, .fw] s (execImageWrite mb msg flashOk readA readB s) := by
  unfold execImageWrite
  repeat' first
    | decide
    | with_reducible exact Follows.refl ..
    | with_reducible apply Leads.next
    | with_reducible apply command_follows
    | with_reducible apply guarded_follows
    | with_reducible apply withSource_follows
    | with_reducible apply Follows.after (setTried_follows ..)
    | with_reducible apply Follows.after (writeSlot_follows ..)
    | with_reducible apply Follows.after (spoilSlot_follows ..)
    | with_reducible apply Follows.foldl
    | dsimp only [Res.state_done, Res.state_wait, Res.state_silent]
    | split
    | dsimp only
    | with_reducible refine Follows.ofDone (by assumption) ?_
    | with_reducible exact Leads.refused _ _ _
    | intro _

theorem execImageConfirm_follows (mb : Fin 8) (msg : Msg) (readOk : Bool) (s : State) :
    Leads [.fresh, .out, .staging, .intc, .mbx, .pcie, .fw] s (execImageConfirm mb msg readOk s) := by
  unfold execImageConfirm
  repeat' first
    | decide
    | with_reducible exact Follows.refl ..
    | with_reducible apply Leads.next
    | with_reducible apply command_follows
    | with_reducible apply guarded_follows
    | with_reducible apply Follows.foldl
    | dsimp only [Res.state_done, Res.state_wait, Res.state_silent]
    | split
    | dsimp only
    | with_reducible refine Follows.ofDone (by assumption) ?_
    | with_reducible exact Leads.refused _ _ _
    | intro _

theorem execRollbackAdvance_follows (mb : Fin 8) (msg : Msg) (s : State) :
    Leads [.fresh, .out, .otp, .staging, .intc, .mbx, .pcie, .fw] s (execRollbackAdvance mb msg s) := by
  refine command_follows _ _ _ _ _ _ _ (by decide) (fun c s => ?_)
  refine guarded_follows _ _ ?_ (Follows.refl ..)
  dsimp only [Res.state_done]
  split
  · refine Follows.set_otp _ ?_ (by decide) (Follows.refl _ s)
    exact ⟨rfl, Nat.le_of_lt (by assumption), BitVec.and_self, rfl, rfl, rfl, rfl⟩
  · exact Follows.refl ..

theorem and_setBit {n : Nat} (x : BitVec n) (i : Nat) : x &&& setBit x i true = x := by
  apply BitVec.eq_of_getLsbD_eq
  intro j _
  simp only [setBit, if_true, BitVec.getLsbD_and, BitVec.getLsbD_or]
  cases x.getLsbD j <;> simp

theorem execKeyRevoke_follows (mb : Fin 8) (msg : Msg) (s : State) :
    Leads [.fresh, .out, .otp, .staging, .intc, .mbx, .pcie, .fw] s (execKeyRevoke mb msg s) := by
  refine command_follows _ _ _ _ _ _ _ (by decide) (fun c s => ?_)
  refine guarded_follows _ _ ?_ (Follows.refl ..)
  dsimp only [Res.state_done]
  refine Follows.set_otp _ ?_ (by decide) (Follows.refl _ s)
  exact ⟨rfl, Nat.le_refl _, and_setBit .., rfl, rfl, rfl, rfl⟩

theorem resetScope_follows (s : State) (c : Cmd) (i : Nat) :
    Follows [.fresh, .out, .sys, .basin, .weir, .islands, .rails, .staging, .intc, .mbx, .win, .pcie, .fw, .gp, .pi, .tp, .tl, .cyc, .cv, .sl, .dh] s (resetScope s c i) := by
  unfold resetScope
  repeat' first
    | decide
    | with_reducible exact Follows.refl ..
    | with_reducible apply Follows.after (updIsl_follows ..)
    | with_reducible apply Follows.after (fenceIsland_follows ..)
    | with_reducible apply Follows.foldl
    | split
    | dsimp only
    | intro _

theorem execResetCommand_follows (mb : Fin 8) (msg : Msg) (s : State) :
    Leads [.fresh, .out, .sys, .basin, .weir, .islands, .rails, .staging, .intc, .mbx, .win, .pcie, .fw, .gp, .pi, .tp, .tl, .cyc, .cv, .sl, .dh] s (execResetCommand mb msg s) := by
  unfold execResetCommand
  repeat' first
    | decide
    | with_reducible exact Follows.refl ..
    | with_reducible apply Leads.next
    | with_reducible apply command_follows
    | with_reducible apply guarded_follows
    | with_reducible apply Follows.after (deviceReset_follows ..)
    | with_reducible apply Follows.after (resetScope_follows ..)
    | with_reducible apply Follows.foldl
    | dsimp only [Res.state_done, Res.state_wait, Res.state_silent]
    | split
    | dsimp only
    | with_reducible refine Follows.ofDone (by assumption) ?_
    | with_reducible exact Leads.refused _ _ _
    | intro _

end Sys2Proof.Machine
end

