-- ==== Sys2Proof/Tests/Slice0.lean ====
section
/-! SUPPORT. Tests of the model: the checks of WellFormed, tests of single commands, and for every
statement with hypotheses a state and operands that meet them. -/

namespace Sys2Proof.Tests
open Sys2Proof.Machine

set_option Elab.async false

/-! ### States and commands that the witnesses use -/

/-- A part that has reached RUN: the firmware runs and nothing waits. -/
def up : State :=
  { State.reset with sys := { inReset := false, powerOn := false, commissioned := true, stage := 6, slot := 1, mode := 3 } }

/-- The same part in another mode. -/
def inMode (m : BitVec 4) : State := { up with sys := { up.sys with mode := m } }

/-- The state that a command leaves. -/
def after (s : State) (i : Instr) : State :=
  match exec i s with
  | .next t => t
  | _ => s

/-- A command is refused for its operands. -/
def refuses (s : State) (i : Instr) : Bool :=
  match exec i s with
  | .refused .illFormed => true
  | _ => false

/-- A message with TAG 7 and no flag. -/
def msg (w : List Word) : Msg := ⟨7, 0, w, false⟩

/-- The command of an opcode in mailbox 0. -/
def cmd (op : Nat) (w : List Word) : Cmd := cmdOf op 0 (msg w)

/-- The state in which a command is executed, once its message is taken. -/
def taking (s : State) (op : Nat) (w : List Word) : State := causes (takeMsg s 0 ((cmd op w).header :: w)) 0

/-- A command is taken and executed (`Executes`). -/
def executes (s : State) (op : Nat) (w : List Word) (cls : Cls) (rec : Bool) : Bool :=
  decide (w.length ≤ 7) && takes s 0 ((cmd op w).header :: w) && (duplicateOf (taking s op w) (cmd op w)).isNone &&
    accepted (taking s op w) cls rec

/-- What `executes` says is `Executes`. -/
theorem executes_spec {s : State} {op : Nat} {w : List Word} {cls : Cls} {rec : Bool}
    (h : executes s op w cls rec = true) : Executes s (cmd op w) cls rec (taking s op w) := by
  simp only [executes, Bool.and_eq_true, decide_eq_true_eq, Option.isNone_iff_eq_none] at h
  exact ⟨h.1.1.1, h.1.1.2, rfl, h.1.2, h.2⟩

/-- A user block of 16 pages at page 64, and what stands in it: one event mooring with its control
block, a BLIT mooring and a submission mooring. -/
def blocks : State :=
  { up with fw := { up.fw with
      blocks := [(64, 16)], deviceMoor := some 0,
      moorings := [(0, { ring := 0x400000, cb := 0x401000, w3 := 0x00000104 }),
                   (1, { ring := 0x402000, cb := 0x403000, w3 := 0x00001C14 }),
                   (2, { ring := 0x404000, cb := 0x405000, w3 := 0x00001B24 })] } }

/-- A scene of 64 by 16 at 60 Hz, with 8 blank lines. -/
def smallScene : Scene := { width := 64, height := 16, blank := 8, rate := 0, moor := 0, block := 0x410000 }

/-- A station of lane 0 at address 5. -/
def smallStation : Station :=
  { addr := 5, home := 0, wash := none, scene := 0, fmt := 0, outLen := 8, inLen := 8, hold := 3,
    panelW := 64, panelH := 16, code := 2, started := true }

/-- One object of each type at index 0, beside the moorings; lane 0 is enabled. -/
def rich : State :=
  { blocks with
      fw := { blocks.fw with fences := [(0, { moor := 0 })], fwRuns := [(100, 1)] }
      tp := { scenes := [(0, smallScene)] }
      tl := { lanes := [(0, { enable := true, code := 6 })], stations := [(0, smallStation)] }
      cv := { voices := [(0, { kind := 3, moor := 0 })], mixes := [(0, { station := some 0 })] }
      sl := { chans := [(0, { state := .empty, handle := 0x50010000 })] }
      dh := { tasks := [(0, { deck := 7, prio := 15, scene := none, moor := 0, len := 1, copy := some (900, 1) })] } }

/-- The same in SERVICE. -/
def service : State := { rich with sys := { rich.sys with mode := 6 } }

/-- The status of the reply that stands in mailbox 0; 64 where there is none. -/
def statusIn (s : State) : Nat :=
  match (mbxOf s 0).ba.words with
  | w :: _ => w.data.toNat % 64
  | [] => 64

/-- The status of the reply that a command leaves in mailbox 0. -/
def statusOf (s : State) (i : Instr) : Nat := statusIn (after s i)

/-- An island in a state, with a cause. -/
def island (k : Nat) (st : IslState) (cause : BitVec 8) : State :=
  { up with islands := [(k, { state := st, cause := cause })] }

/-- A read of Basin by the firmware gives its bytes. -/
def reads (s : State) (a n : Nat) : Bool :=
  match (readMem s 2 a n).2 with
  | .ok b => b.length = n
  | .error _ => false

/-! ### Refusals: one ill-formed term for each check of `Instr.wf` -/

theorem test_refused_operands :
    [Instr.mbTxDataAlias 2 0 true 7 [1, 2], .hostBar2Write 4095 [1, 2] false false,
     .hostBar2Write 0 [1] false true, .hostBar2Read 4096 0, .basinReadRequest 2 255 2,
     .basinWriteRequest 2 0 [], .msixTableWrite 1023 [none, none],
     .undefinedOpcode 0 0x04000000 [], .rasterWrite 0 0 0x100 0, .eqAdaptStep 0 2 [0, 0, 0, 0, 0],
     .eqAdaptStep 0 1 [0, 0, 0, 0], .illegalEncoding 0 [0x0000],
     .nopCommand 0 (msg [0, 0, 0, 0, 0, 0, 0, 0])].all (fun i =>
       !i.wf && refuses up i) = true := by decide +kernel

theorem test_accepted_operands :
    [Instr.mbTxDataAlias 2 0 true 7 [1], .hostBar2Write 4095 [1] true true, .basinReadRequest 2 255 1,
     .msixTableWrite 1023 [none], .undefinedOpcode 0 0 [], .eqAdaptStep 0 1 [0, -1, 1, 0, 0],
     .nopCommand 0 (msg [0, 0, 0, 0, 0, 0, 0])].all (fun i => i.wf) = true := by decide +kernel

/-! ### Witnesses: step and the invariants -/

theorem witness_front : step (up.withPending [.perst, .cycleBoundary]) =
    exec .perst (up.withPending [.cycleBoundary]) := rfl

theorem witness_idle : up.pending = [] ∧ step up = .next { up with tick := 1 } := ⟨rfl, rfl⟩

theorem witness_canonical : blocks.memOk ∧
    Memory.wf (after blocks (.basinWriteRequest 2 0x3FFFFFF [1])).basin.bytes = true ∧
    Memory.byte (after blocks (.basinWriteRequest 2 0x3FFFFFF [1])).basin.bytes 0x3FFFFFF = 1 := by
  unfold State.memOk; decide

theorem witness_otp : (after (inMode 6) (.keyRevoke 0 (msg [3]))).otp.revoked = 8 := by decide +kernel

/-! ### Witnesses: reset, boot and watchdogs -/

/-- The host and the debug agent each hold something: locks, open messages and discard sets. -/
def held : State :=
  { up with mbx :=
      [(0, { lock := 1, ba := { words := [⟨5, 2, true⟩] }, ab := { opened := [⟨6, 1, false⟩] } }),
       (23, { lock := 15, ab := { opened := [⟨7, 15, false⟩], discard := 0x8000 } })] }

theorem witness_device_reset : up.sys.inReset = false ∧ State.reset.sys.inReset = true ∧
    up.sys.powerOn = false ∧ State.reset.sys.powerOn = true ∧
    (after { up with tl := { lanes := [(7, { txDis := false })] } } .rstNReset).out = [.txDis 7 true] ∧
    (after up .rstNReset).sys.resetCause = 3 ∧ (after up .jtagSysreset).sys.resetCause = 9 ∧
    (after { up with tick := 9 } .systemReferenceLoss).sys.resetCause = 1 ∧
    after State.reset .rstNReset = State.reset := by decide +kernel

theorem witness_agent_reset :
    (mbxOf held 0).lock.toNat = 1 ∧ onlyAgent 0 false = some 1 ∧ onlyAgent 23 true = none ∧
    (mbxOf (after held .perst) 0).lock = 0 ∧ (mbxOf (after held .perst) 0).ba.words = [] ∧
    (sideOf (mbxOf (after held .perst) 0) true).status = 0x84 ∧
    (mbxOf (after held .tapReset) 23).lock = 0 ∧ (mbxOf (after held .tapReset) 0).lock = 1 ∧
    running held islHI = true ∧
    running { held with islands := [(14, { state := .fenced })] } islHI = false ∧
    held.pcie.busMaster = false ∧
    (after { up with pins := { perst := false }, intc := { vecHeld := 6 } } .perstRelease).pcie.pba = 6 := by
  decide +kernel

/-- The key of the published example of ECDSA on P-256 with SHA-256 (RFC 6979, A.2.5). -/
def exampleKey : List Byte :=
  beBytes 32 0x60FED4BA255A9D31C961EB74C6356D68C049B8923B61FA6CE669622E60F29FB6
    ++ beBytes 32 0x7903FE1008B8BC99A41AE9E95628BC64F2F1B20C2D7E9F5177A3C294D4462299

/-- The published digest of the bytes "abc" (FIPS 180-4). -/
theorem test_sha256 : sha256 [0x61, 0x62, 0x63] =
    beBytes 32 0xBA7816BF8F01CFEA414140DE5DAE2223B00361A396177A9CB410FF61F20015AD := by decide +kernel

/-- The published signature of the bytes "sample" (RFC 6979, A.2.5). -/
theorem test_ecdsa : ecdsaP256 exampleKey
    (beBytes 32 0xEFD48B2AACB6A8FD1140DD9CD45E81D69D2C877B56AAF991C34D0EA84EAF3716
      ++ beBytes 32 0xF7CB1C942D657C41D436C7A1B6E29F65F3E900DBB9AFF4064DC4AB2F843ACDA8)
    (sha256 [0x73, 0x61, 0x6D, 0x70, 0x6C, 0x65]) = true := by decide +kernel

/-- An image of version 3 with a payload of four bytes, signed with that key. -/
def imageBytes : List Byte :=
  leBytes 4 0x4B4C4B41 ++ leBytes 4 1 ++ leBytes 4 0x03000000 ++ leBytes 4 0 ++ leBytes 4 4
    ++ List.replicate 108 0 ++ exampleKey
    ++ beBytes 32 0x088BB9FF22AB291A74C86FC677BA897BAADEE370CC6129B82D170BA3FC26415C
    ++ beBytes 32 0xD615782B6A1502016AEB9C7F33C455A52D2160A19DF9B895B6EDC6A5E7947FE3 ++ [1, 2, 3, 4]

/-- A part in SERVICE whose OTP holds the hash of that key. -/
def keyed : State :=
  { service with otp := { keyHash := [(0, beBytes 32 0xD6C23E2744A840CB3A5A14B6554CCE7C070057C4E3298CB93577DE687EECE659)] } }

theorem test_image_hash : sha256 (sourceBytes imageBytes 0x80 64) = keyHashOf keyed 0 := by decide +kernel

theorem witness_image_verifies : verifyWhole keyed true (sourceBytes imageBytes) = 0 ∧
    verifyWhole { keyed with otp := { keyed.otp with revoked := 1 } } true (sourceBytes imageBytes) = 4 ∧
    sourceWhole imageBytes = true ∧ sourceWhole (imageBytes.take 259) = false := by decide +kernel

/-- The reads of a slot, and the copy of its payload, meet no error. -/
def whole : SlotReads := ⟨true, true, none⟩

/-- A part held in reset whose two slots verify with the codes given. -/
def slots (a b : Nat) : State :=
  { State.reset with
      flash := [(0x20001C, 0), (0x20001D, 0), (0x20001E, 0), (0x20001F, 0)], flashBad := [(1, a), (2, b)] }

theorem witness_boot_rom :
    State.reset.sys.inReset = true ∧ up.sys.inReset = false ∧
    verifySlot (slots 0 0) 1 true = 0 ∧ verifySlot (slots 6 0) 1 true = 6 ∧
    verifySlot (slots 6 0) 2 true = 0 ∧ verifySlot (slots 0 0) 2 false = 7 ∧
    verifySlot State.reset 1 true = 1 ∧ tried State.reset 1 = false ∧
    tried { State.reset with sys := { triedA := true } } 1 = true ∧
    (after State.reset (.resetRelease true false ⟨false, false, 0⟩ whole whole)).sys.cause = 5 ∧
    (after State.reset (.resetRelease true true ⟨false, false, 0⟩ whole whole)).sys.cause = 6 ∧
    (after State.reset (.resetRelease false false ⟨false, false, 0⟩ whole whole)).sys.halted = true := by
  decide +kernel

/-- A part held in reset whose slot 1 holds that image. -/
def flashed : State :=
  { State.reset with
      otp := keyed.otp
      flash := imageBytes.zipIdx.map (fun p => (slotBase 1 + p.2, p.1)) }

/-- The boot ROM starts the image, and does not where its copy in Basin meets an error. -/
theorem witness_image_starts :
    (let s := after flashed (.resetRelease true false ⟨true, true, 2⟩ whole whole)
     s.sys.slot = 1 ∧ s.sys.stage = 6 ∧ Memory.byte s.basin.bytes 3 = 4 ∧ s.sys.triedA = true) ∧
    (let s := after flashed (.resetRelease true false ⟨true, true, 2⟩ ⟨true, true, some 0⟩ whole)
     s.sys.slot = 0 ∧ s.sys.failA = 6 ∧ s.sys.stage = 7) ∧
    (after flashed (.resetRelease true false ⟨true, true, 2⟩ ⟨true, true, some 1⟩ whole)).sys.slot = 1 := by
  decide +kernel

/-- The boot ROM has started slot 2, and the TRIED bit of slot 1 is set too. -/
def booted : State :=
  { State.reset with sys := { inReset := false, stage := 6, slot := 2, triedA := true, triedB := true } }

theorem witness_commission : booted.sys.commissioned = false ∧ booted.sys.stage = 6 ∧
    running booted islLK = true ∧ booted.sys.slot.toNat = 2 ∧ booted.staging = [] ∧
    (after booted .firmwareCommissionReached).sys.triedA = true ∧
    (after booted .firmwareCommissionReached).sys.triedB = false ∧
    (after booted .firmwareCommissionReached).staging.map (fun r => r.type) = [3, 4] := by decide +kernel

/-- The watchdog is armed, and so many warm restarts count. -/
def armed (n : Nat) : State :=
  { up with sys := { up.sys with wdtArmed := true, restarts := List.replicate n 50000000 }, tick := 50000000 }

/-- The Lockkeeper core restores itself after its watchdog. -/
def restarting (slot : BitVec 2) (c : Nat) : State :=
  { up with sys := { up.sys with slot := slot }, flashBad := [(slot.toNat, c)],
            islands := [(0, { state := .restoring, cause := 8 })] }

theorem witness_watchdog : fwAgent 2 = true ∧ fwAgent 15 = true ∧ (armed 0).sys.wdtArmed = true ∧
    up.sys.wdtArmed = false ∧ running (armed 1) 0 = true ∧
    (after (armed 1) .lkWatchdogExpiry).sys.resetCause = 0x21 ∧
    (after (armed 2) .lkWatchdogExpiry).sys.resetCause = 0x11 ∧
    (after (armed 1) .lkWatchdogExpiry).sys.restarts = [50000000, 50000000] ∧
    (isl (restarting 1 0) 0).state = .restoring ∧ (bootVerify (restarting 1 0) 1 whole).2.1 = 0 ∧
    (bootVerify (restarting 2 3) 2 whole).2.1 = 3 ∧ (bootVerify (restarting 2 0) 2 ⟨true, false, none⟩).2.1 = 7 ∧ up.sys.commissioned = true ∧
    (after (restarting 1 0) (.warmRestartResume whole false)).sys.inReset = true := by decide +kernel

/-! ### Witnesses: mailboxes, the host window, the endpoint, event records -/

/-- Mailbox 16 with a queue AB of so many words and an open message of agent 2. -/
def queued (n : Nat) (opened : List QWord) (discard : BitVec 16) : State :=
  { up with mbx := [(16, { ab := { words := List.replicate n ⟨9, 2, true⟩, opened := opened, discard := discard } })] }

theorem witness_written_words :
    hostMisses up 1 8 false = true ∧ hostMisses up 1 7 false = false ∧ hostMisses up 2 16 false = false ∧
    sideAllows 16 false 2 = true ∧ sideAllows 16 false 11 = false ∧ sideAllows 7 false 1 = true ∧
    (txQueue (mbxOf (queued 0 [] 4) 16) false).discard.getLsbD 2 = true ∧
    (txQueue (mbxOf (queued 0 [⟨1, 3, false⟩] 0) 16) false).openStamp = some 3 ∧
    (txQueue (mbxOf (queued 0 [⟨1, 2, false⟩] 0) 16) false).openStamp = some 2 ∧
    (txQueue (mbxOf (queued 0 [] 0) 16) false).openStamp = none ∧
    (queued 8 [] 0).mbx.length = 1 ∧
    (txQueue (mbxOf (after (queued 7 [] 0) (.mbTxDoorbell 2 16 false true 4)) 16) false).words.length = 8 ∧
    (txQueue (mbxOf (after (queued 7 [⟨1, 2, false⟩] 0) (.mbTxData 2 16 false true 4)) 16) false).opened = [] ∧
    (txQueue (mbxOf (after (queued 7 [⟨1, 2, false⟩] 0) (.mbTxData 2 16 false true 4)) 16) false).discard = 4 ∧
    after up (.mbTxDataAlias 2 16 true 6 [1, 2]) =
      after (after up (.mbTxData 2 16 true true 1)) (.mbTxDataAlias 2 16 true 7 [2]) := by decide +kernel

theorem witness_mailbox_reads :
    hostMisses up 2 16 true = false ∧ sideAllows 16 true 2 = true ∧ lockAllows 23 10 = true ∧
    (txQueue (mbxOf (queued 0 [] 0) 16) false).words = [] ∧
    (txQueue (mbxOf (queued 1 [] 0) 16) false).words = [⟨9, 2, true⟩] ∧
    takeReply up.fw.replies 16 = none ∧
    (after (queued 1 [] 0) (.mbRxData 2 16 true true)).out = [.word 2 9] ∧
    (mbxOf up 23).lock = 0 ∧ (mbxOf held 23).lock ≠ 0 ∧ (mbxOf held 0).lock.toNat = 1 ∧
    (after up (.mbLockRead 10 23 true)).out = [.word 10 0] ∧
    (after held (.mbLockRead 10 23 true)).out = [.word 10 15] ∧
    (mbxOf (after held (.mbLockWrite 10 23 true)) 23).lock = 15 := by decide +kernel

/-- The last page of Basin is open to the host; its last doubleword is poisoned where asked. -/
def windowed (poison : Bool) : State :=
  { up with win := { guards := [(1023, 3)] },
            basin := { bytes := [(0x3FFFFFF, 7)], tags := if poison then [(0x7FFFFF, { copies := 7 })] else [] } }

theorem witness_host_window :
    hostReach up = true ∧ hostReach State.reset = true ∧
    hostReach { up with pcie := { d3hot := true } } = false ∧
    ((windowed false).win.guards.get 0 (67108863 / 65536)).getLsbD 0 = true ∧
    ((windowed false).win.guards.get 0 (67108863 / 65536)).getLsbD 1 = true ∧
    (up.win.guards.get 0 0).getLsbD 0 = false ∧ (up.win.guards.get 0 0).getLsbD 1 = false ∧
    (match (readMem (windowed false) 1 67108863 1).2 with | .ok b => b = [7] | .error _ => false) = true ∧
    (match (readMem (windowed true) 1 67108863 1).2 with | .ok _ => false | .error e => e = .ecc) = true ∧
    (writeMem (windowed false) 1 67108863 [8]).2 = none ∧
    Memory.byte (after (windowed false) (.hostBar2Write 67108863 [8] false false)).basin.bytes 67108863 = 8 ∧
    (after (windowed true) (.hostBar2Read 67108863 1)).out = [.ep 1] ∧
    (after up (.hostBar2Read 4095 1)).out = [.bytes 1 [0]] ∧
    (after up (.hostBar2Read 4095 1)).win.status = 1 := by decide +kernel

/-- The endpoint with vector 63 pending and unmasked. -/
def vectors : State :=
  { up with pcie := { msixEnable := true, table := [(63, { addr := 16, data := 5, ctrl := 0 })],
                      pba := 0x8000000000000000 } }

theorem witness_endpoint : cfgReach up = true ∧ hostReach up = true ∧
    (after vectors (.pcieConfigWrite (.command true))).out = [.msix 63 16 5] ∧
    (after vectors (.pcieConfigWrite (.command true))).pcie.pba = 0 ∧
    ((after up (.msixTableWrite 1023 [some 1])).pcie.table.get {} 63).ctrl = 1 ∧
    ((after vectors (.msixTableWrite 1020 [some 1])).pcie.table.get {} 63).ctrl = 1 := by decide +kernel

/-- One staged record, for the device mooring or for mooring 0 by its handle. -/
def staged (s : State) (h : Word) : State :=
  { s with staging := [{ type := 0x30, island := 0, epoch := 0, stamp := 4, moor := h }] }

theorem witness_record_delivery :
    fwRuns (staged up 0) = true ∧ fwRuns (staged State.reset 0) = false ∧
    (staged up 0).fw.deviceMoor = none ∧
    ((staged up 0).fw.held.filter (fun x => !x.marker)).length < 64 ∧
    moorIndex (staged blocks 0) 0 = some 0 ∧ moorIndex (staged blocks 0x70010000) 0x70010000 = some 0 ∧
    (Tab.find? blocks.fw.moorings 0).any (fun m => m.kept = 0 && m.since = 0 && m.size = 16) = true ∧
    (readCb (staged blocks 0) { ring := 0x400000, cb := 0x401000, w3 := 0x00000104 }).2 = some (0, 0, 0, 0) ∧
    (writeMem (readCb (staged blocks 0) { ring := 0x400000, cb := 0x401000, w3 := 0x00000104 }).1 2 0x400000
      (List.replicate 16 1)).2 = none ∧
    Memory.byte (after (staged blocks 0) .eventRecordDelivery).basin.bytes 0x401000 = 1 ∧
    (after (staged blocks 0) .eventRecordDelivery).staging = [] ∧
    (after (staged up 0) .eventRecordDelivery).fw.held.length = 1 := by decide +kernel

/-! ### Witnesses: the Lockkeeper command set -/

/-- The NOP-like FORCE_OUTPUT of the answer statement, already kept by the window. -/
def repeated : State :=
  { up with fw := { up.fw with windows := [(0, [⟨(cmd 0x40 []).header, (cmd 0x40 []).crc, [0x85070000]⟩])] } }

theorem witness_answers :
    replyFits up 0 8 = true ∧ takeReply up.fw.replies 0 = none ∧ takes up 0 ((cmd 0x40 []).header :: []) = true ∧ takes up 0 [0x04001000] = true ∧
    takes (queued 1 [] 0) 0 [7] = true ∧
    (duplicateOf (taking repeated 0x40 []) (cmd 0x40 [])).isSome = true ∧
    duplicateOf (taking up 0x40 []) (cmd 0x40 []) = none ∧ (taking up 0x40 []).sys.mode ≠ 6 ∧
    executes up 4 [1] .q true = true ∧ statusOf up (.nopCommand 0 ⟨7, 0, [1], true⟩) = 0x3F ∧
    (after up (.nopCommand 0 ⟨7, 0, [1], true⟩)).staging.map (fun r => r.type) = [0x0B] ∧
    statusOf up (.forceOutput 0 (msg [])) = 0x14 ∧ statusOf repeated (.forceOutput 0 (msg [])) = 1 ∧
    malformed 0x04000000 [] = false ∧ malformed 0xFF000000 [] = true ∧ malformed 0x04001000 [] = true ∧
    statusOf up (.undefinedOpcode 0 0x04001000 []) = 0x13 := by decide +kernel

theorem witness_query_and_machine :
    executes up 1 [] .q true = true ∧ executes up 2 [] .q true = true ∧ executes up 4 [1, 2] .q true = true ∧
    executes rich 3 [0x80010000] .q false = true ∧
    handleStatus (taking rich 3 [0x80010000]) anyType 0x80010000 = 0 ∧
    executes rich 3 [0x20010000] .q false = true ∧ rebindWaits (taking rich 3 [0x20010000]) 0 = false ∧
    handleType 0x20010000 = 2 ∧
    executes up 8 [7] .m false = true ∧ mayGo 3 7 = true ∧ mayGo 3 4 = false ∧ (4 : BitVec 4) ≠ up.sys.mode ∧
    modePending up = false ∧ statusOf up (.setMode 0 (msg [4])) = 0x14 ∧ statusOf up (.setMode 0 (msg [3])) = 0 ∧
    (after up (.setMode 0 (msg [7]))).fw.waiting.length = 1 ∧
    modePending (after up (.setMode 1 (msg [7]))) = true ∧
    executes (after up (.setMode 1 (msg [7]))) 8 [6] .m false = true ∧
    statusOf (after up (.setMode 1 (msg [7]))) (.setMode 0 (msg [6])) = 0x15 ∧
    executes up 9 [10] .m false = true ∧ executes up 9 [60000] .m false = true ∧
    executes up 0x1D [12500] .c false = true ∧ (laneOf up 7).enable = false ∧
    statusOf up (.setCycle 0 (msg [1600000])) = 0 ∧ statusOf rich (.queryCommand 0 (msg [0x80010000])) = 0 := by
  decide +kernel

theorem witness_user_blocks :
    executes up 0x10 [0x303C0] .c false = true ∧ poolFit (taking up 0x10 [0x303C0]) 960 = some 64 ∧
    executes up 0x10 [0x400] .c false = true ∧ poolFit (taking up 0x10 [0x400]) 1024 = none ∧
    ([0, 1, 2, 3].all (fun b => running up (islBank b) && !(bankRegs up b).arm)) = true ∧
    statusOf up (.basinAlloc 0 (msg [0x400])) = 0x12 ∧ statusOf up (.basinAlloc 0 (msg [0x20001])) = 0 ∧
    (after up (.basinAlloc 0 (msg [0x20001]))).win.guards = [(64, 1)] ∧
    executes blocks 0x11 [0x400000] .c false = true ∧ Tab.get 0 blocks.fw.blocks 64 = 16 ∧
    blockNamed blocks 0x400000 0x500000 = true ∧ statusOf blocks (.basinFree 0 (msg [0x400000])) = 0x15 ∧
    (let s := { up with fw := { up.fw with blocks := [(1023, 1)] } }
     executes s 0x11 [0x3FF0000] .c false = true ∧ blockNamed s 0x3FF0000 0x4000000 = false ∧
     statusOf s (.basinFree 0 (msg [0x3FF0000])) = 0) := by decide +kernel

theorem witness_created_objects :
    executes blocks 0x12 [0x410000, 0x4FFFF0, 0x3F0104] .c false = true ∧
    pairOk 0 0 1 = true ∧ signalOk 1 63 = true ∧ inBlock blocks 0x410000 256 = true ∧
    inBlock blocks 0x4FFFF0 16 = true ∧ countMoors blocks (fun x => x.kind = 1) < 64 ∧
    countMoors blocks Moor.submits < 64 ∧ freeIndex blocks 7 = some 3 ∧
    statusOf blocks (.createMooring 0 (msg [0x410000, 0x4FFFF0, 0x3F0104])) = 0 ∧
    executes blocks 0x13 [0x00100040, 4, 0x410000, 0x70010000] .c false = true ∧
    handleStatus blocks [7] 0x70010000 = 0 ∧
    (Tab.find? blocks.fw.moorings 0).any (fun m => m.kind = 0) = true ∧
    (newScene (cmd 0x13 [0x00100040, 4, 0x410000, 0x70010000])).ok = true ∧
    inBlock blocks 0x410000 1024 = true ∧ reads blocks 0x410080 0x380 = true ∧
    (placeSig blocks 16).isSome = true ∧ freeIndex blocks 1 = some 0 ∧ totalLoad blocks = 0 ∧
    executes rich 0x16 [3, 0] .c false = true ∧ freeIndex rich 3 = some 1 ∧
    executes rich 0x17 [0, 15] .c false = true ∧ mixExists rich none 1 7 = false ∧
    mixExists rich (some 0) 0 0 = true ∧ freeIndex rich 4 = some 1 ∧
    executes { rich with cv := {} } 0x17 [0x20010000, 0] .c false = true ∧
    statusOf { rich with cv := {} } (.createMix 0 (msg [0x20010000, 0])) = 0 ∧
    executes rich 0x19 [3, 0] .c false = true ∧ freeIndex rich 5 = some 1 ∧
    executes rich 0x1A [0x70010000] .c false = true ∧ freeIndex rich 6 = some 1 ∧
    executes rich 0x1B [0xF7, 0x10010000, 0] .c false = true ∧ freeStack rich 7 = some 1 ∧
    freeIndex rich 8 = some 1 ∧ statusOf rich (.createScript 0 (msg [0xF7, 0x10010000, 0])) = 0 := by
  decide +kernel

/-- Task 0 in a state, started. -/
def inTask (state : Nat) : State :=
  { rich with dh := { rich.dh with
      tasks := [(0, { deck := 7, prio := 15, scene := none, moor := 0, len := 1, copy := some (900, 1), state := state, started := true })] } }

theorem witness_scripts_and_destroy :
    executes rich 0x1C [0x80010000, 1] .c false = true ∧ handleStatus rich [8] 0x80010000 = 0 ∧
    (taskOf rich 0).any (fun t => t.len ≠ 0 && !t.started) = true ∧
    statusOf rich (.scriptControl 0 (msg [0x80010000, 1])) = 0 ∧
    (taskOf (after rich (.scriptControl 0 (msg [0x80010000, 1]))) 0).any (fun t => t.started) = true ∧
    (taskOf (after (inTask 2) (.scriptControl 0 (msg [0x80010000, 0]))) 0).any (fun t => t.stopDue) = true ∧
    (taskOf (after (inTask 3) (.scriptControl 0 (msg [0x80010000, 0]))) 0).any (fun t => t.state = 0) = true ∧
    executes rich 0x2F [0x60010000] .c false = true ∧ handleStatus rich anyType 0x60010000 = 0 ∧
    (dropBusy rich 6 0 0x60010000).2 = false ∧ statusOf rich (.destroyObject 0 (msg [0x60010000])) = 0 ∧
    executes rich 0x2F [0x10010000] .c false = true ∧ (dropBusy rich 1 0 0x10010000).2 = true ∧
    statusOf rich (.destroyObject 0 (msg [0x10010000])) = 0x15 ∧
    (dropNeeds rich 2 0).all (fun k => running rich k) = true ∧ rebindWaits rich 0 = false ∧
    (let s := { rich with fw := { rich.fw with gens := [(6 * 65536, 0xFFF)] } }
     executes s 0x2F [0x6FFF0000] .c false = true ∧
     genOf (after s (.destroyObject 0 (msg [0x6FFF0000]))) 6 0 = 1) := by decide +kernel

/-- The REBIND_STATION of a mailbox waits, for nothing or for a scene that a fence has met. -/
def rebinding (scene : Option Nat) (fenced : Bool) : State :=
  { rich with fw := { rich.fw with waiting := [(0, .rebind 0x15073000 0 0 scene none fenced)] } }

theorem witness_binding :
    executes rich 0x14 [0x40400006, 0x10010000, 0x00400000, 16, 0] .c false = true ∧
    handleStatus rich [1] 0x10010000 = 0 ∧ (newStation (cmd 0x14 [0x40400006, 0x10010000, 0x00400000, 16, 0])).ok = true ∧
    bindable rich 6 = true ∧ (boundOn rich 0).length < 256 ∧ freeIndex rich 2 = some 1 ∧
    statusOf rich (.bindStation 0 (msg [0x40400006, 0x10010000, 0x00400000, 16, 0])) = 0 ∧
    executes rich 0x15 [0x20010000, 0, 0xFFFF] .c false = true ∧
    statusOf rich (.rebindStation 0 (msg [0x20010000, 0, 0xFFFF])) = 0 ∧
    executes rich 0x15 [0x20010000, 0, 255] .c false = true ∧ bindable rich 255 = true ∧
    (after rich (.rebindStation 0 (msg [0x20010000, 0, 255]))).fw.waiting.length = 1 ∧
    fwRuns rich = true ∧ Tab.find? (rebinding none false).fw.waiting 0 = some (.rebind 0x15073000 0 0 none none false) ∧
    statusOf (rebinding none false) (.rebindStationComplete 0) = 0 ∧
    statusOf (rebinding (some 1) true) (.rebindStationComplete 0) = 0x20 ∧
    executes rich 0x18 [0x30010000, 0x40010000, 255] .c false = true ∧ handleStatus rich [3] 0x30010000 = 0 ∧
    handleStatus rich [4] 0x40010000 = 0 ∧ (voiceOf rich 0).isSome = true ∧
    executes rich 0x1E [7] .c false = true ∧ boundOn rich 7 = [] ∧ boundOn rich 0 = [5] ∧
    statusOf rich (.laneConfig 0 (msg [0x100])) = 0 ∧ statusOf rich (.laneConfig 0 (msg [0])) = 0x15 ∧
    executes rich 0x1F [0, 15, 900, 0] .c false = true ∧ statusOf rich (.setLoopPolicy 0 (msg [0, 15, 900, 0])) = 0 ∧
    executes rich 0x1F [3, 0x20010000, 1, 65535] .c false = true ∧
    statusOf rich (.setLoopPolicy 0 (msg [3, 0x20010000, 1, 65535])) = 0 ∧
    executes rich 0x20 [0x10010000, 0, 0x00100040, 0x0201] .c false = true ∧
    ¬ [0, 1, 8].contains (fld 0x0201 8 6) ∧ statusOf rich (.panelConfig 0 (msg [0x10010000, 0, 0x00100040, 0x0201])) = 0 ∧
    executes up 0x21 [0xA3, 0] .c false = true ∧ up.cv.mixes = [] ∧
    statusOf up (.audioPortConfig 0 (msg [0xA3, 0])) = 0 := by decide +kernel

theorem witness_data_and_service :
    executes rich 0x30 [0x410000, 0, 65535, 1] .d false = true ∧ tileBytes 0 = 8 ∧
    inBlock rich 0x410000 8 = true ∧ reads rich 0x410000 8 = true ∧ 1 ≤ poolFree rich ∧
    statusOf rich (.loadTiles 0 (msg [0x410000, 0, 65535, 1])) = 0 ∧
    executes rich 0x31 [0x410000, 0x40000004, 0x30010000] .d false = true ∧
    (voiceOf rich 0).any (fun v => v.kind = 3 && v.phase = 0) = true ∧ reads rich 0x410000 4 = true ∧
    (takePages (readMem (taking rich 0x31 [0x410000, 0x40000004, 0x30010000]) 2 0x410000 4).1 1).isSome = true ∧
    statusOf rich (.loadSamples 0 (msg [0x410000, 0x40000004, 0x30010000])) = 0 ∧
    executes rich 0x32 [0x80010000, 0x410000, 4] .d false = true ∧
    (taskOf rich 0).any (fun t => t.state = 0) = true ∧ placeCode rich 7 0 2 = some 0x2000 ∧
    placeCode (readMem (taking rich 0x32 [0x80010000, 0x410000, 4]) 2 0x410000 4).1 7 0 2 = some 0x2000 ∧
    statusOf rich (.loadScript 0 (msg [0x80010000, 0x410000, 4])) = 0 ∧
    executes rich 0x33 [0x20010000, 0x4FFC80] .d false = true ∧ inBlock rich 0x4FFC80 0x380 = true ∧
    reads rich 0x4FFC80 0x380 = true ∧ statusOf rich (.loadDefaults 0 (msg [0x20010000, 0x4FFC80])) = 0 ∧
    executes service 0x40 [0x20010000, 0x4FFF80] .sv false = true ∧
    statusOf service (.forceOutput 0 (msg [0x20010000, 0x4FFF80])) = 0 ∧
    executes service 0x41 [0x37] .sv false = true ∧ statusOf service (.laneTest 0 (msg [0x30])) = 0x15 ∧
    statusOf service (.laneTest 0 (msg [0x37])) = 0 ∧
    executes service 0x42 [0x410000, 6] .sv false = true ∧
    statusOf service (.diagRead 0 (msg [0x410000, 6])) = 0 := by decide +kernel

/-- The fence of an island leaves the Lockkeeper core running: a part in SERVICE, with slot 1. -/
theorem witness_image_and_reset :
    executes service 0x50 [0x400000, 256] .i true = true ∧ imageSource service 0x400000 256 = 0 ∧
    reads service 0x400000 256 = true ∧ verifyWhole service true (sourceBytes (List.replicate 256 0)) = 1 ∧
    executes service 0x51 [2] .i true = true ∧ executes service 0x52 [0] .i false = true ∧
    executes service 0x52 [1] .i false = true ∧ service.fw.imgRollback.toNat < 1 ∧
    statusOf service (.rollbackAdvance 0 (msg [1])) = 0x13 ∧ statusOf service (.rollbackAdvance 0 (msg [0])) = 0 ∧
    executes service 0x53 [3] .i false = true ∧ executes service 0x53 [0] .i false = true ∧
    statusOf service (.keyRevoke 0 (msg [0])) = 0x13 ∧ statusOf service (.keyRevoke 0 (msg [3])) = 0 ∧
    executes service 0x54 [0] .i true = true ∧ executes service 0x54 [0xF1] .i false = true ∧
    executes service 0x54 [0x11] .i false = true ∧ running service 15 = true ∧ service.sys.inReset = false ∧
    (isl (after service (.resetCommand 0 (msg [0xF1]))) 15).state = .fenced ∧
    (isl (after service (.resetCommand 0 (msg [0xF1]))) 15).resetCmd = some 0 ∧
    ((after service (.resetCommand 0 (msg [0xF1]))).staging.all (fun r => r.await.isSome)) = true := by decide +kernel

/-! ### Witnesses: Basin and Weir -/

/-- The last doubleword of Basin has a syndrome. -/
def damaged (syn : Byte) : State :=
  { up with basin := { bytes := [(0x3FFFFF8, 2)], synd := [(0x7FFFFF, syn)] } }

theorem witness_basin_requests :
    agentOut up 2 = true ∧ agentOut (island 1 .fenced 6) 3 = false ∧
    after (island 1 .fenced 6) (.basinReadRequest 3 0 8) = island 1 .fenced 6 ∧
    running up (islBank (bankOf 0x3FFFFFF)) = true ∧ (dwTag up (0x3FFFFFF / 8)).vote = false ∧
    dwSynd up (0x3FFFFFF / 8) = 0 ∧ (bankRegs up (bankOf 0x3FFFFFF)).arm = false ∧
    running { up with islands := [(5, { state := .fenced })] } (islBank (bankOf 0)) = false ∧
    (after { up with islands := [(5, { state := .fenced })] } (.basinReadRequest 2 0 256)).out = [.error 2 .fenced] ∧
    (after (damaged 0) (.basinReadRequest 2 0x3FFFFF7 9)).out = [.bytes 2 [0, 2, 0, 0, 0, 0, 0, 0, 0]] := by
  decide +kernel

theorem witness_errors :
    dwSynd (damaged (column 63)) 0x7FFFFF = column 63 ∧ column 0 = 7 ∧ classify 0xFF = .bad ∧
    (dwTag (damaged 0xFF) 0x7FFFFF).vote = false ∧ (damaged 0xFF).staging.length < 1024 ∧
    running (damaged 7) (islBank (bankOf 0x3FFFFF8)) = true ∧
    (after (damaged 7) (.basinReadRequest 2 0x3FFFFF8 8)).out = [.bytes 2 [3, 0, 0, 0, 0, 0, 0, 0]] ∧
    (after (damaged 0xFF) (.basinReadRequest 2 0x3FFFFF8 8)).out = [.error 2 .ecc] ∧
    addrOfIndex 3 (0x1FFFFF : BitVec 21).toNat / 8 = 0x7FFFFF ∧
    (let s := { damaged 7 with basin := { (damaged 7).basin with banks := [(3, { scrubPos := 0x1FFFFF })] } }
     dwSynd s (addrOfIndex 3 (bankRegs s 3).scrubPos.toNat / 8) = column 0 ∧
     (bankRegs (after s (.scrubRead 3)) 3).passes = 1 ∧
     dwData (after s (.scrubRead 3)) 0x7FFFFF = 3) := by decide +kernel

/-- Agent 3 with an operation of Weir, in progress where asked. -/
def swapping (a : BitVec 26) (busy : Bool) : State :=
  { up with weir := { ctx := [(3, { addr := a, new := 9, busy := if busy then some (true, a.toNat, 0, 9) else none })] } }

theorem witness_weir_operations :
    weirAgent 2 = true ∧ weirAgent 15 = true ∧ running up (islBank 0) = true ∧
    (ctxOf (swapping 4 false) 3).addr.toNat % 8 ≠ 0 ∧ (ctxOf (swapping 0x3FFFF8 false) 3).addr.toNat < 0x400000 ∧
    (ctxOf (after (swapping 4 false) (.weirCas 3)) 3).result = 4 ∧
    (ctxOf (after (swapping 0x3FFFF8 false) (.weirSwap 3)) 3).result = 5 ∧
    (ctxOf (after (swapping 0x400000 false) (.weirSwap 3)) 3).busy = some (true, 0x400000, 0, 9) ∧
    (ctxOf (after (swapping 0x400000 true) (.weirCas 3)) 3).waits = [.go false] ∧
    (ctxOf (swapping 0x400000 true) 3).waits = [] ∧ agentOut up 3 = true ∧
    running (swapping 0x400000 true) (islBank (bankOf 0x400000)) = true ∧
    dwSynd (swapping 0x400000 true) 0x80000 = 0 ∧
    Memory.byte (after (swapping 0x400000 true) (.weirOperationDone 3)).basin.bytes 0x400000 = 9 := by
  decide +kernel

/-- Lock cell 1023, owned or reserved; agents 2, 9 and 15 wait, and agent 9 has a priority. -/
def cell (owner reservee : BitVec 4) : State :=
  { up with weir := { ctx := [(9, { prio := 15 })],
                      cells := [(1023, { owner := owner, reservee := reservee, waiters := 0x8204 })] } }

theorem witness_lock_cells :
    agentOut up 2 = true ∧ agentOut (island 1 .fenced 6) 3 = false ∧ (ctxOf (cell 3 0) 3).waits = [] ∧
    weirCatch (cell 3 0) 3 = cell 3 0 ∧
    after (island 1 .fenced 6) (.lockCellRead 3 0) = island 1 .fenced 6 ∧
    (cellOf up 1023).owner = 0 ∧ (cellOf (cell 3 0) 1023).owner.toNat = 3 ∧
    (cellOf (cell 0 9) 1023).reservee.toNat = 9 ∧
    (after up (.lockCellRead 2 0)).out = [.word 2 0] ∧ (after (cell 0 9) (.lockCellRead 9 1023)).out = [.word 9 0] ∧
    (after (cell 3 0) (.lockCellRead 3 1023)).out = [.word 3 3] ∧
    (after (cell 3 0) (.lockCellRead 4 1023)).out = [.word 4 3] ∧
    (after (cell 0 9) (.lockCellRead 4 1023)).out = [.word 4 0x19] ∧
    (cellOf (after (cell 3 0) (.lockCellWrite 3 1023)) 1023).reservee = 9 ∧
    (cellOf (after (cell 3 0) (.lockCellWrite 15 1023)) 1023).reservee = 9 ∧
    cellOf (after (cell 3 0) (.lockCellWrite 4 1023)) 1023 = cellOf (cell 3 0) 1023 ∧
    (cellOf (after (cell 0 9) (.reservationLapse 1023)) 1023).reservee = 15 ∧
    (cellOf (after (cell 3 0) (.waiterLapse 15 1023)) 1023).waiters = 0x204 ∧
    chooseWaiter (cell 3 0) 0x8204 15 = some 9 ∧ chooseWaiter (cell 3 0) 0x8004 15 = some 2 ∧
    chooseWaiter (cell 3 0) 0x8004 2 = some 15 := by decide +kernel

/-! ### Witnesses: islands and loops -/

/-- Two fences of an island count, and its clock is stretched. -/
def twice (k : Nat) : State :=
  { up with islands := [(k, { recent := [0, 0], stretch := true })] }

theorem witness_fences :
    canFence up 15 = true ∧ canFence (island 15 .restoring 6) 15 = true ∧ canFence (island 3 .fenced 1) 3 = false ∧
    canFence State.reset 3 = false ∧ (recentOf (twice 15) 15).length = 2 ∧ (recentOf up 15).length = 0 ∧
    heartLost { up with tick := 500001 } 1 = true ∧ heartLost up 1 = false ∧ decksOf 15 = [] ∧
    fwAgent 2 = true ∧ up.sys.commissioned = true ∧ (recentOf up 0).length < 2 ∧
    (isl (after up (.stateParity 15)) 15).state = .fenced ∧ (isl (after (twice 15) (.marginLost 15)) 15).state = .held ∧
    (isl (after (twice 15) (.marginLost 15)) 15).cause = 0x84 ∧ (isl (after (twice 14) (.marginLost 14)) 14).state = .fenced ∧
    (isl (after { up with tick := 500001 } (.deadman 1)) 1).state = .fenced ∧
    (isl (after up (.crossingTimeout ⟨11, 9⟩ 5)) 9).timeouts = 1 ∧
    (after up (.crossingTimeout ⟨11, 9⟩ 5)).out = [.error 11 .fenced] ∧ (isl up 15).stretch = false ∧
    after up (.marginLost 15) = up ∧ agentOut up 2 = true ∧ running (island 9 .fenced 6) 9 = false ∧
    ((after (island 3 .fenced 6) (.crossingTimeout ⟨11, 9⟩ 3)).out) = [.error 11 .fenced] ∧
    up.sys.restarts = [] ∧ (after up (.stateParity 0)).sys.resetCause = 0x101 ∧
    (isl (after up (.jtagFence 0)) 0).state = .fenced := by decide +kernel

theorem witness_way_back :
    (isl (island 15 .fenced 6) 15).state = .fenced ∧ (isl (island 1 .held 0x86) 1).state = .held ∧
    (isl up 1).state ≠ .fenced ∧ (isl (island 3 .inReset 6) 3).state = .inReset ∧ running (island 3 .inReset 6) 0 = true ∧
    (isl (island 0 .fenced 7) 0).cause = 7 ∧ (isl (island 5 .fenced 6) 5).cause ≠ 7 ∧
    (isl (after (island 15 .fenced 6) (.isControlReset 2 15)) 15).state = .inReset ∧
    (isl (after (island 3 .inReset 6) (.islandResetDone 3)) 3).state = .restoring ∧
    (isl (after (island 8 .restoring 6) (.isControlRelease 15 8)) 8).epoch = 1 ∧
    (isl (after (island 0 .fenced 7) (.jtagFenceRelease 0)) 0).state = .running ∧
    recovering (island 15 .fenced 6) = false ∧
    recoveryOrder.find? (recoverable (island 15 .fenced 6)) = some 15 ∧
    recovering { up with islands := [(15, { state := .fenced }), (3, { state := .restoring })] } = true ∧
    premarked (premarks (island 8 .restoring 6) 8) 8 = true ∧
    (let s := { island 1 .restoring 6 with basin := { bytes := [(0x403000, 16)] }, fw := { up.fw with moorings := [(1, { ring := 0x402000, cb := 0x403000, w3 := 0x00003C14 })] } }
     premarked (premarks s 1) 1 = false ∧ after s (.isControlRelease 2 1) = premarks s 1 ∧
     premarked (premarks { s with basin := {} } 1) 1 = true) ∧
    (let s := { island 0 .fenced 7 with sys := { up.sys with reloading := true } }
     (isl (after s (.jtagFenceRelease 0)) 0).state = .restoring) := by decide +kernel

theorem witness_droops :
    (isl { up with islands := [(15, { stretch := true })] } 15).stretch = true ∧ (isl up 15).stretch = false ∧
    (isl (after up (.droopDetected 15 30)) 15).droopCount = 1 ∧ after up (.droopDetected 15 29) = up ∧
    after up (.droopDetected 10 30) = up ∧
    (isl (after { up with tick := 100, islands := [(15, { stretch := true })] } (.stretchEnd 15)) 15).stretchUs = 2 ∧
    (after { up with islands := [(15, { stretch := true })] } (.stretchLong 15)).tick = 50000 ∧
    (after up (.thermN 15 290)).out = [.therm false] ∧ (after up (.thermN 15 289)).out = [] ∧
    (301 : BitVec 11).toInt = 301 ∧ (isl (after up (.tempHigh 15 301)) 15).k = 8 ∧
    (isl (after up (.tempHigh 10 301)) 10).k = 16 := by decide +kernel

/-- A rail at a voltage, with its loop running and its ceiling. -/
def rail (n : Nat) (mv ceil : BitVec 10) : State :=
  { up with rails := [(n, { loopRun := true, setMv := mv, ceilMv := ceil })] }

theorem witness_loops :
    (railOf (rail 0 700 900) 0).loopRun = true ∧ (railOf up 0).loopRun = false ∧ (avsOf (rail 0 700 900) 0).op = none ∧
    (after (rail 0 700 900) (.voltageLoopStep 0 [49, 200, 200, 200, 200] false 0)).out = [.avs 0 1 705] ∧
    (after (rail 0 700 900) (.voltageLoopStep 0 [121, 200, 200, 200, 200] true 0)).out = [.avs 0 1 695] ∧
    (after (rail 0 700 900) (.voltageLoopStep 0 [120, 200, 200, 200, 200] true 0)).out = [] ∧
    (after { up with rails := [(0, { loopRun := true })] } (.voltageLoopStep 0 [49, 200, 200, 200, 200] false 0)).out = [.avs 0 1 755] ∧
    (isl (after (rail 0 900 900) (.frequencyLoopStep 4 29 true)) 4).k = 15 ∧
    (isl { (rail 0 900 900) with islands := [(4, { k := 15 })] } 4).k.toNat < 16 ∧
    (isl (after { (rail 0 900 900) with islands := [(4, { k := 15 })] } (.frequencyLoopStep 4 81 true)) 4).k = 16 ∧
    (isl (after (rail 0 900 900) (.frequencyLoopStep 4 30 true)) 4).k = 16 := by decide +kernel

/-! ### Witnesses: scenes, the blitter, region push, sound -/

/-- Scene 0 with its beam started at tick 0 and some fields changed, at a tick. -/
def scene (t : Dword) (f : Scene → Scene) : State :=
  { rich with tick := t, tp := { rich.tp with scenes := [(0, f { smallScene with start := some 0 })] } }

/-- The fields of scene 0. -/
def the (s : State) : Scene := (sceneOf s 0).getD smallScene

theorem witness_raster :
    leMask 0x21 = some 0xFFFFFF ∧ scriptAgent 1 = false ∧ scriptAgent 10 = true ∧ running (scene 0 id) islTP = true ∧
    running (island 3 .fenced 6) islTP = false ∧ sceneOf up 0 = none ∧ sceneOf (scene 0 id) 0 = some (the (scene 0 id)) ∧
    (the (scene 0 id)).tickOf 0 0 ≤ 0 ∧ 0 < (the (scene 0 id)).tickOf 0 1 ∧
    (the (scene 833332 id)).tickOf 0 23 ≤ 833332 ∧ 833332 < (the (scene 833332 id)).tickOf 0 24 ∧
    (the (after (scene 833332 id) (.rasterWrite 2 0 0x21 0xFF123456))).writes = [⟨1, 0, some 0x21, 0x123456⟩] ∧
    (the (after (scene 0 id) (.tpScRedraw 2 0))).writes = [⟨0, 1, none, 0⟩] ∧
    (the (after (scene 0 id) (.tpScFlip 2 0))).latches = [.flip 1 [] 0 0] := by decide +kernel

/-- A line of the scene, rendered and not committed. -/
def rendered (f l : Nat) : RLine := { frame := f, line := l, lay := 2 }

theorem witness_beam :
    (the (after (scene 0 id) (.frameStart 0))).latched = 1 ∧
    (stationOf (after (scene 0 id) (.frameStart 0)) 0).isSome = true ∧
    pipeChoice (scene 0 id) 0 = some (0, 0) ∧ pipeChoice (scene 0 id) 7 = none ∧
    (the (after (scene 0 id) (.lineRender 0))).lines.length = 1 ∧
    (the (scene 0 (fun c => { c with lines := [rendered 0 0] }))).lines.find?
      (fun r => r.at (the (scene 0 (fun c => { c with lines := [rendered 0 0] }))) = 0) = some (rendered 0 0) ∧
    (the (after (scene 0 (fun c => { c with lines := [rendered 0 0] })) (.lineCommit 0))).laystat = 2 ∧
    (the (after (scene 0 id) (.lineCommit 0))).cntUr = 1 ∧
    (the (after (scene 0 (fun c => { c with nextLine := 23, lines := [rendered 0 23] })) (.lineCommit 0))).nextFrame = 1 ∧
    (the (after (scene 0 (fun c => { c with moveTo := some 7 })) (.sob 0))).pipe = 7 ∧
    (after (scene 0 id) (.sob 0)).tick = 555555 ∧
    (Tab.get {} (the (scene 0 (fun c => { c with lm := [(3, { line := 23, en := true })] }))).lm 3).en = true ∧
    (Tab.get {} (the (after (scene 0 (fun c => { c with lm := [(3, { line := 23, en := true })] })) (.lineMatch 0 3))).lm 3).next = 1 ∧
    (after (scene 0 id) (.tpEvq 10)).out = [.word 10 0xFFFFFFFF] ∧
    (after { up with tp := { evq := [(7, { q := [(5, 0)] })] } } (.tpEvq 10)).out = [.word 10 5] ∧
    (the (after (scene 0 id) (.balancerStep [1001] [(0, 500)]))).moveTo = some 1 ∧
    (the (after (scene 0 id) (.balancerStep [1001] [(0, 501)]))).moveTo = none ∧
    (the (after (scene 0 id) (.balancerStep [1000] [(0, 500)]))).moveTo = none := by decide +kernel

/-- The BLIT mooring has an entry: a marker, or a FILL of one pixel at the end of the user block
whose descriptor stands at 0x406000. -/
def entry (marker : Bool) : State :=
  { blocks with
      basin := { bytes :=
        (if marker then [(0x402003, 0xFF)] else [(0x402000, 1), (0x402006, 0x40), (0x402005, 0x60)]) },
      tp := { blt := { seen := [(1, 1)] } } }

/-- A FILL of one pixel of 8 bits. -/
def fill : Blit :=
  { moor := 1, entry := [1, 0x406000, 0x60010000, 5],
    desc := [0x4FFFFF, 1, 0x00010001, 0, 0, 0, 0, 0, 0x00010001, 0xAB, 0, 0, 0, 0, 0, 0] }

/-- That blit is in progress, and its fence object lives. -/
def filling : State := { rich with tp := { rich.tp with blt := { cur := some fill } } }

theorem witness_blit_entries :
    (Tab.find? blocks.fw.moorings 1).any (fun m => m.kind = 1) = true ∧ bltMoorings blocks = [1] ∧
    (readWord blocks 12 0x403000).2 = some 0 ∧ (after blocks (.tpBltKick 2 1)).tp.blt.cur = none ∧
    ([0, 1, 2, 3].all (fun n => running blocks (islBank n))) = true ∧ filling.tp.blt.cur.isSome = true ∧
    (nextBlt blocks [1]).2 = none ∧ ((nextBlt (entry true) [1]).2.any (fun p => p.1 = 1 && p.2.2 = 0)) = true ∧
    (Tab.find? (entry true).fw.moorings 1).any (fun m => m.entry 0 = 0x402000) = true ∧
    reads (entry true) 0x402000 16 = true ∧ pageLive (entry false) (0x6000 / 65536) = false ∧
    (after (entry true) .blitStart).tp.blt.cur = none ∧
    Memory.byte (after (entry true) .blitStart).basin.bytes 0x403004 = 1 ∧
    ((after (entry false) .blitStart).tp.blt.cur.any (fun b => !b.unread && b.entry = [1, 0x406000, 0, 0])) = true := by
  decide +kernel

theorem witness_blit_completion :
    filling.tp.blt.cur = some fill ∧ running filling islTP = true ∧ up.tp.blt.cur = none ∧
    fenceIndex filling 0x60010000 = some 0 ∧ (Tab.find? filling.fw.fences 0).isSome = true ∧
    fill.valid = true ∧ fill.op = 1 ∧ fill.empty = false ∧ fill.h = 1 ∧ fill.w = 1 ∧
    fill.dst.span fill.dx fill.dy fill.w = (0x4FFFFF, 1) ∧
    Memory.byte (after filling .blitComplete).basin.bytes 0x4FFFFF = 0xAB ∧
    Memory.byte (after filling .blitComplete).basin.bytes 0x406032 = 1 ∧
    Memory.byte (after filling .blitComplete).basin.bytes 0x403004 = 1 := by decide +kernel

/-- A piece of scene 0, sent in a cycle or not at all. -/
def piece (sent : Option Word) : Piece :=
  { scene := 0, frame := 0, region := 0, piece := 0, pieces := 1, x := 0, y := 0, w := 16, h := 1, sent := sent }

/-- Station 0 awaits the acknowledgement of that piece in cycle 5. -/
def awaiting (sent : Word) : State :=
  { rich with tp := { rich.tp with recv := [(0, { pieces := [piece (some sent)] })] },
              tl := { rich.tl with cyc := { number := 5 } } }

/-- The panel shows scene 0, in a step of its start-up or with a piece to send. -/
def panel (step : PanelStep) (teWait : Bool) : State :=
  { rich with tp := { rich.tp with
      scenes := [(0, { smallScene with staged := [⟨0, 0, 0x100000, 3072⟩] })],
      panel := { scene := some 0, w := 64, h := 16, step := step, teWait := teWait,
                 recv := { pieces := if step = .on then [piece none] else [] } } } }

theorem witness_pieces :
    pieceLate (awaiting 0) (piece (some 0)) = true ∧ pieceLate (awaiting 1) (piece (some 1)) = false ∧
    recvScene (awaiting 0) 0 = some 0 ∧ (recvOf (after (awaiting 0) (.pieceAckTimeout 0)) 0).lost = 1 ∧
    (recvOf (after (awaiting 0) (.pieceAckTimeout 0)) 0).owed = 1 ∧
    (recvOf (after (awaiting 1) (.pieceAckTimeout 0)) 0).lost = 0 ∧
    panelAwaits { (panel .wait false) with tp := { (panel .wait false).tp with panel := { (panel .wait false).tp.panel with await := some (0, 1) } } } = true ∧
    panelAwaits (panel .wait false) = false ∧
    stationOf rich 0 = some smallStation ∧ (recvOf (after rich (.tpStRefresh 2 0)) 0).owed = 0xF ∧
    stationOf up 2047 = none ∧ up.tp.panel.scene = none ∧ (panel .on true).tp.panel.scene = some 0 ∧
    (recvOf (after (panel .wait true) (.tpPnlRefresh 2)) panelId).owed = 0xF ∧
    (after (panel .wait false) .panelInitWait).out = [.panel [0x3A, 0x55]] ∧
    (after { (panel .wait false) with pi := { sq := [(1, { busy := true })] } } .panelInitWait).out = [] ∧
    (after { (panel .wait true) with pi := { sq := [(1, { busy := true })] } } .teTimeout).tp.panel.teMiss = true ∧
    (pieceLines 0 (piece none) 1 (panel .on false) 0).2 = some (List.replicate 48 0) ∧
    (after (panel .on true) .teEdge).out.length = 1 ∧ (after (panel .on true) .teEdge).tp.panel.busy = true := by
  decide +kernel

/-- Voice 0 with its fields, and a mix of station 0; the next sample and block are given. -/
def sounding (n : Nat) (x : Voice) (y : Mix) : State :=
  { rich with cv := { voices := [(0, x)], mixes := [(0, y)], sample := n, bound := n / 16, avail := 0 } }

/-- A square voice at full level in a phase. -/
def square (phase : Nat) (level : BitVec 16) : Voice :=
  { kind := 0, moor := 0, freq := 0x800000, amp := 0xFFFF, phase := phase, level := level, sustain := 0x80, decay := 1,
    attack := 0xFF, release := 0xFF, acc := 0x800000 }

theorem witness_sample_grid :
    cvRuns rich = true ∧ cvRuns (island 4 .fenced 6) = false ∧ voiceOf rich 0 = some { kind := 3, moor := 0 } ∧
    (after rich (.keyOff 2 0)).cv.voices = [(0, { kind := 3, moor := 0, writes := [(0, .keyOff)] })] ∧
    (after rich .sampleTick).cv.sample = 1 ∧ rich.cv.bound * 16 = rich.cv.sample ∧
    (after rich .sampleTick).cv.bound * 16 ≠ (after rich .sampleTick).cv.sample ∧
    (mixOf (sounding 16 (square 0 0) { station := some 0, next := [(49999, 7, none)] }) 0).isSome = true ∧
    ((mixOf (after (sounding 16 (square 0 0) { station := some 0, next := [(49999, 7, none)] }) .blockBoundary) 0).map
      (fun m => m.gainNow)) = some 7 ∧
    ((mixOf (after (sounding 16 (square 0 0) { station := some 0, next := [(50000, 7, none)] }) .blockBoundary) 0).map
      (fun m => m.gainNow)) = some 0 ∧
    ((mixOf (after (sounding 16 (square 0 0) { station := some 0, done := [(0, [1])] }) (.blockAvailable [])) 0).map
      (fun m => m.blocks)) = some [(0, [1])] ∧
    (after (sounding 16 (square 0 0) { station := some 0, done := [(0, [1])] }) (.blockAvailable [0])).cv.overrun = true ∧
    (after (sounding 16 (square 0 0) { station := some 0 }) (.blockAvailable [])).cv.overrun = true := by decide +kernel

theorem witness_voices :
    voiceOf (sounding 1 (square 3 0xFFFF) { station := some 0 }) 0 = some (square 3 0xFFFF) ∧
    (voiceSample (sounding 1 (square 3 0xFFFF) { station := some 0 }) 1 0).2 = -32767 ∧
    ((voiceOf (voiceSample (sounding 1 (square 1 0xFFFE) { station := some 0 }) 1 0).1 0).map (·.phase)) = some 2 ∧
    ((voiceOf (voiceSample (sounding 1 (square 2 0x8081) { station := some 0 }) 1 0).1 0).map (·.phase)) = some 3 ∧
    ((voiceOf (voiceSample (sounding 1 (square 4 4) { station := some 0 }) 1 0).1 0).map (·.phase)) = some 0 ∧
    voiceOf up 511 = none ∧
    ((voiceOf (voiceSample (sounding 1 { square 0 0 with writes := [(3124, .keyOn false)] } { station := some 0 }) 1 0).1 0).map
      (fun x => (x.level, x.acc))) = some (4, 0x800000) ∧
    ((voiceOf (voiceSample (sounding 1 { square 3 9 with writes := [(3124, .keyOff)] } { station := some 0 }) 1 0).1 0).map
      (·.level)) = some 5 := by decide +kernel

/-! ### Witnesses: lanes and stations -/

/-- Lane 7 with its fields, at a tick. -/
def lane (t : Dword) (x : Lane) : State := { up with tick := t, tl := { lanes := [(7, x)] } }

/-- An ALIGNING lane, with a module and block lock. -/
def aligning : Lane :=
  { enable := true, present := true, read := true, kind := 1, blockLock := true, code := 6, txDis := false }

/-- An ALIGNED lane whose last CYCLE frame came at a tick. -/
def alignedAt (t : Dword) : Lane := { aligning with code := 7, aligned := true, last := some (t, 4) }

/-- A received frame to the group address, whole and with its FCS: TYPE, ADDR, CYCLE, SESSION and the
payload. -/
def rxf (type addr cycle session : Nat) (p : List Byte) : RxFrame :=
  let b := groupMac ++ [2, 0, 0, 0, 0, 9] ++ beBytes 2 0x88B5 ++ [1, BitVec.ofNat 8 type] ++ beBytes 2 addr
    ++ beBytes 2 p.length ++ [1, 0] ++ beBytes 4 cycle ++ beBytes 2 session ++ [0, 0] ++ p
  let b := b ++ List.replicate (60 - b.length) 0
  { bytes := b ++ fcsOf b }

/-- A CYCLE frame that lane 7 receives. -/
def cycleIn (f : RxFrame) : Instr := .upstreamCycle 7 f.bytes f.errBlocks f.ended

/-- A station's frame that lane 0 receives, as one of its rows. -/
def frameIn (row : Fin 8 → List Byte → RxEnd → Instr) (f : RxFrame) : Instr :=
  row 0 f.bytes { errBlocks := f.errBlocks, ended := f.ended }

/-- The identification page of a copper module of a length: 7 m is the longest of its kinds. -/
def page (len : Byte) : List Byte :=
  [3, 0, 0, 0, 0, 0, 0, 0, 4, 0, 0, 0, 0, 0, 0, 0, 0, 0, len] ++ List.replicate 44 0 ++ [7 + len] ++ List.replicate 192 0

theorem witness_modules :
    fwRuns up = true ∧ fwRuns State.reset = false ∧ (laneOf (lane 0 { faulted := true }) 7).faulted = true ∧
    (laneOf up 7).faulted = false ∧ (laneOf (lane 0 aligning) 7).present = true ∧ (laneOf up 7).present = false ∧
    moduleKind (page 7) = 3 ∧ moduleKind (page 8) = 0 ∧ moduleKind [] = 0 ∧
    (laneOf (after (lane 0 aligning) (.moduleRead 7 (some (page 7)))) 7).eq.main = 32 ∧
    (laneOf (after (lane 0 aligning) (.moduleRead 7 (some (page 3)))) 7).eq.main = 36 ∧
    (laneOf (after (lane 0 { aligning with i2cFails := 2 }) (.moduleRead 7 none)) 7).i2cErr = true ∧
    (laneOf (lane 0 { aligning with ddm := true }) 7).ddm = true ∧
    (laneOf (after (lane 0 { aligning with ddm := true }) (.ddmPoll 7 (some (page 7)))) 7).alarms = 4 ∧
    laneRuns (lane 0 aligning) 7 = true ∧ (laneOf (lane 0 { aligning with freeze := true }) 7).freeze = true ∧
    (laneOf (after (lane 0 { aligning with eq := { ctle := 15 } }) (.eqAdaptStep 7 1 [-1, 0, 0, 0, 1])) 7).eq.ctle = 15 ∧
    (laneOf (after (lane 0 { aligning with eq := { ctle := 15 } }) (.eqAdaptStep 7 1 [-1, 0, 0, 0, 1])) 7).eq.taps =
      [63, 0, 0, 0, 1] ∧
    (laneOf (after (lane 0 { alignedAt 0 with partnerEye := 9, trial := { test := some (4, 20, 2), sum := 24, n := 2 }, eq := { post := 5 } })
      (.txPostTrial 7)) 7).eq.post = 6 ∧
    (laneOf (after (lane 0 { alignedAt 0 with partnerEye := 9, trial := { test := some (4, 20, 2), sum := 23, n := 2 }, eq := { post := 5 } })
      (.txPostTrial 7)) 7).eq.post = 5 ∧
    (laneOf (after (lane 0 { aligning with lowMs := 99 }) (.eyeMeasure 7 47)) 7).degraded = true ∧
    (laneOf (after (lane 0 { aligning with lowMs := 99 }) (.eyeMeasure 7 48)) 7).degraded = false ∧
    (after (lane 0 { aligning with lowMs := 99 }) (.eyeMeasure 7 47)).staging.length = 1 ∧
    Memory.byte (after (lane 0 { aligning with eq := { main := 36 } }) .tapSave).basin.bytes 0x003C0071 = 36 ∧
    Memory.byte (after (lane 0 aligning) .tapSave).basin.bytes 0x003C007C = 1 ∧ running up islPI = true ∧
    (let s := { lane 0 { present := true } with islands := [(13, { state := .inReset })], basin := { bytes := [(0x003C0071, 36), (0x003C007C, 1)] } }
     (laneOf (after s (.islandResetDone 13)) 7).eq.main = 36) := by decide +kernel

theorem witness_alignment :
    laneSettle up 7 = up ∧ (laneOf (laneSettle (lane 0 { aligning with los := true }) 7) 7).code = 3 ∧
    (laneOf (laneSettle (lane 0 { aligning with los := true }) 7) 7).cntLock = 1 ∧
    (after (lane 0 aligning) (.txFault 7)).out = [.txDis 7 true] ∧
    (laneOf (after (lane 0 aligning) (.hiBerWindow 7 16)) 7).code = 5 ∧
    (laneOf (after (lane 0 aligning) (.hiBerWindow 7 15)) 7).code = 6 ∧
    (laneOf (after (lane 0 aligning) (.blockLockLost 7)) 7).code = 4 ∧
    (laneOf (after (lane 0 aligning) (.rxFrameDrop 7 { bytes := [], errBlocks := 1, ended := false })) 7).cntErrBlk = 1 ∧
    (laneOf (after (lane 0 aligning) (.rxFrameDrop 7 { bytes := (rxf 1 0xFFFF 4 1 []).bytes.set 40 1 })) 7).cntFcs = 1 ∧
    (laneOf (after { (lane 0 aligning) with otp := { mac := 1 } } (.rxFrameDrop 7 (rxf 1 0xFFFF 4 1 []))) 7).cntFilter = 0 ∧
    rxCheck (lane 0 aligning) 7 (rxf 1 0xFFFF 4 1 []) = none ∧ rxCheck (lane 0 aligning) 7 (rxf 2 0xFFFF 4 1 []) = some .header ∧
    rxCheck (lane 0 aligning) 7 { (rxf 1 0xFFFF 4 1 []) with bytes := let b := ((rxf 1 0xFFFF 4 1 []).bytes.take 60).set 0 2; b ++ fcsOf b } = some .filter ∧
    (laneOf (after (lane 0 { aligning with code := 4 }) (cycleIn { rxf 1 0xFFFF 4 1 [] with errBlocks := 2 })) 7).cntErrBlk = 2 ∧
    after (lane 0 { aligning with code := 4 }) (.rxFrameDrop 7 { bytes := [] }) = lane 0 { aligning with code := 4 } ∧
    rxType (rxf 3 0 0 0 []) ≠ 1 ∧
    (laneOf (after (lane 0 aligning) (cycleIn (rxf 1 0xFFFF 4 2 []))) 7).cntSession = 1 ∧
    (laneOf (after (lane 0 aligning) (cycleIn (rxf 1 0x0600 4 1 []))) 7).cntHdr = 1 ∧
    (laneOf (after (lane 9 aligning) (cycleIn (rxf 1 0xFFFF 4 1 []))) 7).hit = some (9, 4) ∧
    (laneOf (after (lane 50050 { aligning with hit := some (0, 4) }) (cycleIn (rxf 1 0x0700 5 1 []))) 7).code = 7 ∧
    (laneOf (after (lane 50051 { aligning with hit := some (0, 4) }) (cycleIn (rxf 1 0x0700 5 1 []))) 7).code = 6 ∧
    (laneOf (after (lane 49950 (alignedAt 0)) (cycleIn (rxf 1 0x0700 5 1 []))) 7).code = 7 ∧
    (laneOf (after (lane 49949 (alignedAt 0)) (cycleIn (rxf 1 0x0700 5 1 []))) 7).code = 6 ∧
    (laneOf (after (lane 50051 (alignedAt 0)) (cycleIn (rxf 1 0x0700 5 1 []))) 7).cntAlign = 1 ∧
    (let s := { lane 0 { alignedAt 0 with cycleRx := 4 } with tl := { lanes := [(7, { alignedAt 0 with cycleRx := 4 })], cyc := { number := 6 } } }
     2 ≤ (cycleNo s - (laneOf s 7).cycleRx).toNat ∧ (laneOf (after s (.alignmentLoss 7)) 7).code = 6) ∧
    (cycleNo (lane 0 (alignedAt 0)) - (laneOf (lane 0 (alignedAt 0)) 7).cycleRx).toNat < 2 := by decide +kernel

/-- Station 0 of lane 0 in a state, in cycle 7 that began at tick 100; the lane is ALIGNED. -/
def exchange (f : Station → Station) (g : Lane → Lane) : State :=
  { rich with
      tick := 101,
      tl := { cyc := { begun := true, number := 7, tick := 100, cutDone := false },
              lanes := [(0, g { alignedAt 0 with partnerEye := 1 })],
              stations := [(0, f smallStation)] } }

/-- A frame of a type of that station. -/
def from5 (type cycle : Nat) (p : List Byte) : RxFrame := rxf type 5 cycle 1 p

/-- The fields of station 0. -/
def st (s : State) : Station := (stationOf s 0).getD smallStation

/-- An IN payload: sequence number 3, configured, eight bytes. -/
def input : List Byte := [0, 3, 1, 8, 1, 2, 3, 4, 5, 6, 7, 8]

/-- An output write with sequence number 3. -/
def write : OutWrite := { based := 7, seq := 3, image := [1], policy := false }

theorem witness_exchange :
    laneOpen (exchange id id) 0 = true ∧ laneOpen up 0 = false ∧ stationAt (exchange id id) 5 = some 0 ∧
    stationAt (exchange id id) 6 = none ∧ stationOf (exchange id id) 0 = some smallStation ∧
    (exchange id id).tick.toNat < 100 + 50000 / 4 ∧
    (st (after (exchange id id) (frameIn .inFrame (from5 3 7 input)))).cand = some (0, 8, 3, [1, 2, 3, 4, 5, 6, 7, 8]) ∧
    (st (after (exchange id id) (frameIn .inFrame (from5 3 6 input)))).cand.map (fun q => q.1) = some 2 ∧
    (st (after (exchange id id) (frameIn .inFrame (from5 3 7 (input.take 11))))).cand.map (fun q => q.1) = some 3 ∧
    (st (after (exchange (fun t => { t with write := some write }) id) (frameIn .inFrame (from5 3 7 input)))).write = none ∧
    (st (after (exchange (fun t => { t with write := some { write with seq := 4 } }) id) (frameIn .inFrame (from5 3 7 input)))).write.isSome = true ∧
    (st (after (exchange (fun t => { t with code := 4 }) id) (frameIn .inFrame (from5 3 7 input)))).code = 1 ∧
    (st (after (exchange id id) (frameIn .ackFrame (from5 6 7 [0, 0, 0, 0])))).idAcked = true ∧
    (st (after (exchange id id) (frameIn .diagFrame (from5 8 7 [])))).diag = 1 ∧
    (let p := { awaiting 1 with tl := { (exchange id id).tl with cyc := { (exchange id id).tl.cyc with number := 5 } } }
     pieceLate p (piece (some 1)) = false ∧
     (recvOf (after p (frameIn .ackFrame (from5 6 5 [0, 0, 0, 0, 0, 1, 0, 0, 0, 0, 0, 0, 0, 0]))) 0).pieces = []) := by decide +kernel

theorem witness_cut :
    smallStation.limits = (3, 50) ∧ smallStation.clean < 10000 ∧
    (st (after (exchange (fun t => { t with clean := 10000, thr := 4 }) id) (.dropoutThresholdLower 0))).thr = 3 ∧
    (st (after (exchange (fun t => { t with clean := 10000, thr := 3 }) id) (.dropoutThresholdLower 0))).thr = 3 ∧
    up.tl.cyc.begun = false ∧ (exchange id id).tl.cyc.cutDone = false ∧
    ((exchange id id).intc.watch.all (fun w => decide (w.2.signal.toNat ≠ 3))) = true ∧
    (st (after (exchange (fun t => { t with code := 3, cand := some (0, 8, 3, [1]) }) id) .inputCut)).code = 2 ∧
    (st (after (exchange (fun t => { t with code := 1, idAcked := true, cand := some (0, 8, 3, [1]) }) id) .inputCut)).code = 2 ∧
    (st (after (exchange id id) .inputCut)).code = 3 ∧
    (st (after (exchange (fun t => { t with code := 3, misses := 2 }) id) .inputCut)).code = 4 ∧
    (after (exchange id id) .inputCut).tick = 12600 ∧
    (privSrc (after (exchange id id) .inputCut) 8 3).count = 1 := by decide +kernel

/-- An OUT frame and a CONFIG frame of station 5. -/
def frame (type : BitVec 8) : Frame :=
  { lane := 0, type := type, station := 5, cycle := 1, seq := 3, session := 9, payload := [1, 2] }

/-- The OUT frame on the wire, byte by byte (R473, R475, R490): the preamble, the group address, the
lane's own address, the EtherType, the header, the payload and the padding; then the FCS. -/
theorem test_frame_wire :
    (frameWire up { frame 2 with cycle := 7, session := 1 }).take 68 =
      [0x55, 0x55, 0x55, 0x55, 0x55, 0x55, 0x55, 0xD5, 0x03, 0x56, 0x59, 0, 0, 0, 0, 0, 0, 0, 0, 0,
       0x88, 0xB5, 1, 2, 0, 5, 0, 2, 0, 0, 0, 0, 0, 7, 0, 1, 0, 0, 1, 2] ++ List.replicate 28 0 ∧
    (frameWire up { frame 2 with cycle := 7, session := 1 }).length = 72 := by decide +kernel

/-- A piece of scene 0 for station 0, its row staged, and nothing else to send. -/
def pushing : State :=
  { exchange id id with tp := { rich.tp with
      scenes := [(0, { smallScene with staged := [⟨0, 0, 0x100000, 3072⟩] })], recv := [(0, { pieces := [piece none] })] } }

theorem witness_transmission :
    laneSends (exchange id id) 0 = true ∧ laneSends up 0 = false ∧
    nextFrame (laneOf (exchange id (fun x => { x with frames := [frame 2] })) 0) = some (frame 2) ∧
    frameFits (exchange id id) 2 = true ∧ frameFits (exchange id id) 2000000 = false ∧ frameFits (exchange id id) 88 = true ∧
    (after (exchange id (fun x => { x with frames := [frame 2] })) (.frameTransmit 0)).out =
      [.frame { frame 2 with cycle := 7, session := 1 } (frameWire up { frame 2 with cycle := 7, session := 1 })] ∧
    (laneOf (after (exchange id (fun x => { x with frames := [frame 7] })) (.frameTransmit 0)) 0).configs = 1 ∧
    nextFrame (laneOf (exchange id id) 0) = none ∧ nextPiece pushing 0 = some (0, piece none) ∧
    frameFits pushing (19 + 16 * 1 * bytesPer pushing 0) = true ∧
    (pieceLines 0 (piece none) 1 pushing 0).2.isSome = true ∧
    (recvOf (after pushing (.frameTransmit 0)) 0).sent = 1 ∧ running (island 3 .fenced 6) islTP = false := by
  decide +kernel

theorem witness_boundary :
    after (inMode 1) .cycleBoundary = inMode 1 ∧ State.reset.sys.inReset = true ∧ up.fw.restarted = false ∧
    up.fw.waiting = [] ∧ fwRuns up = true ∧ fwRuns (island 0 .fenced 7) = false ∧
    (after (exchange id id) .cycleBoundary).tl.cyc.number = 8 ∧ (after (exchange id id) .cycleBoundary).tick = 50100 ∧
    (after up .cycleBoundary).tl.cyc.number = 0 ∧ (after up .cycleBoundary).tl.cyc.begun = true ∧
    (after (exchange id id) .cycleBoundary).out.length = 1 ∧
    (the (after (exchange id id) .cycleBoundary)).start = some 50100 ∧
    (after (island 3 .fenced 6) .cycleBoundary).sys.mode = 4 ∧ (after (inMode 4) .cycleBoundary).sys.mode = 3 ∧
    (let s := { up with fw := { up.fw with wdPeriod := 10, waiting := [(0, .setMode 0x08071000 0 6 0 false)] } }
     wdOut { s with tick := 500000 } = true ∧ (after s .hostWatchdogExpiry).tick = 500000 ∧ classQ 0x08071000 = false ∧
     (after { s with tick := 500000 } .cycleBoundary).sys.mode = 7 ∧
     statusIn (after { s with tick := 500000 } .cycleBoundary) = 0x22) ∧
    (after { exchange id id with tl := { (exchange id id).tl with cyc := { (exchange id id).tl.cyc with nextPeriod := some (100, 12500) } } } .cycleBoundary).tl.cyc.period = 12500 ∧
    up.fw.wdPeriod = 0 := by decide +kernel

/-! ### Witnesses: cores, the deck kernel, accesses and prefixes -/

/-- Core 7 with some fields, in kernel level as reset leaves it. -/
def core (f : Core → Core) : State := { rich with dh := { rich.dh with cores := [(7, f {})] } }

/-- Core 7 runs task 0 in task level, which has some fields; another task of core 7 sleeps. -/
def tasked (f : Core → Core) (g : Task → Task) : State :=
  { rich with dh := { rich.dh with
      cores := [(7, f { kernel := false, ie := true, estat := 0, cur := some 0, pc := 0x2000, cfloor := 0x2000, climit := 0x2002 })],
      tasks := [(0, g { deck := 7, prio := 15, scene := none, moor := 0, len := 1, copy := some (900, 1), state := 2, started := true }),
                (9, { deck := 7, prio := 0, scene := none, moor := 0, slot := 1, state := 3, started := true, wait := some (.sleep 70) })] } }

/-- Core 7 of a state. -/
def c7 (s : State) : Core := coreOf s 7

/-- A core is ready for an instruction (`CoreReady`). -/
def readyFor (s : State) (len : Nat) : Bool := coreBegins s 7 && !fetchBad (c7 s) len

/-- What `readyFor` says is `CoreReady`. -/
theorem readyFor_spec {s : State} {len : Nat} (h : readyFor s len = true) : CoreReady s 7 len := by
  simp only [readyFor, Bool.and_eq_true, Bool.not_eq_true'] at h
  exact h

/-- The state and the fault code of task 0. -/
def fate (s : State) : Option (Nat × Nat) := (taskOf s 0).map (fun t => (t.state, t.faultCode.toNat))

theorem witness_exceptions :
    readyFor (core id) 3 = true ∧ readyFor (tasked id id) 3 = true ∧ readyFor (tasked id id) 4 = false ∧
    undefinedEncoding [0xF000] = true ∧ (c7 (core (fun c => { c with estat := 0x60 }))).estat.getLsbD 6 = true ∧
    (after (core (fun c => { c with estat := 0x60 })) (.illegalEncoding 7 [0xF000])).dh.cores.all (fun p => p.2.halted) = true ∧
    (c7 (after (core id) (.illegalEncoding 7 [0xF000]))).pc = 0x10 ∧
    fate (after (tasked id id) (.illegalEncoding 7 [0xF000])) = some (4, 1) ∧
    ((tasked id id).dh.tasks.filter (fun p => p.1 = 0)).length = 1 ∧
    fetchBad (c7 (tasked (fun c => { c with pc := 0x2003 }) id)) 1 = true ∧
    fate (after (tasked (fun c => { c with pc := 0x2003 }) id) (.nopInstr 7)) = some (4, 3) ∧
    fate (after (tasked id id) (.reti 7)) = some (4, 2) ∧ fate (after (tasked id id) (.divu 7 0 15)) = some (4, 11) ∧
    fate (after (tasked id id) (.bsub 7 0 0 0 0)) = some (4, 4) ∧
    (c7 (after (core id) (.sysCall 7 63))).pc = 0x20 ∧ (c7 (after (core id) (.sysCall 7 63))).epc = 1 ∧
    (c7 (after (core (fun c => { c with storeErr := [5] })) (.sync 7))).ecode = 7 ∧
    (c7 (after (core (fun c => { c with storeErr := [5] })) (.storeError 7))).eaddr = 5 ∧
    (c7 (after (core (fun c => { c with storeErr := [5], estat := 0x60 })) (.storeError 7))).halted = true ∧
    coreRuns (core id) 7 = true ∧ coreRuns (island 2 .fenced 6) 7 = false ∧ requested (core id) 8 = false ∧
    (let s := { core (fun c => { c with ie := true }) with intc := { priv := [(32 * 8 + 4, { prio := 1, en := true, count := 1 })] } }
     requested s 8 = true ∧ (c7 s).deck = false ∧ (c7 (after s (.interruptEntry 7))).estat = 0x70) ∧
    (let s := { tasked id id with intc := { priv := [(32 * 8 + 4, { prio := 1, en := true, count := 1 })] } }
     requested s 8 = true ∧ (c7 s).deck = true ∧ pendPriv 8 4 (privSrc s 8 4) = true ∧
     (c7 (after s (.interruptEntry 7))).timer = 50000) := by decide +kernel

theorem witness_services :
    (c7 (tasked id id)).cur = some 0 ∧ (tasked id id).sys.mode ≠ 7 ∧
    ((tasked id id).dh.tasks.all (fun p => p.1 = 0 || decide (p.2.state ≠ 1))) = true ∧
    fate (after (tasked id (fun t => { t with stopDue := true })) (.yieldService 7)) = some (0, 0) ∧
    fate (after (tasked id id) (.yieldService 7)) = some (2, 0) ∧ (c7 (after (tasked id id) (.yieldService 7))).pc = 0x2001 ∧
    firstSlot { ((taskOf (tasked id id) 0).getD { deck := 0, prio := 0, scene := none, moor := 0 }) with mask := 0 } = none ∧
    fate (after (tasked id id) (.waitService 7)) = some (3, 0) ∧
    (let s := tasked (fun c => { c with d := c.d.set 0 0x20 }) (fun t => { t with slots := [(5, ⟨1, 30, 0, 0⟩)] })
     ((taskOf s 0).map (fun t => (firstSlot { t with mask := (0x20 : Cell).setWidth 6 }).isSome)) = some true ∧
     fate (after s (.waitService 7)) = some (2, 0) ∧ (c7 (after s (.waitService 7))).d[1] = 30) ∧
    fate (after (tasked id id) (.sleepService 7)) = some (3, 0) ∧
    localOwner (tasked id id) 7 1007 = none ∧
    (lockReadReg (tasked id id) 10 0).2.toOption = some 0 ∧ fate (after (tasked id id) (.lockService 7)) = some (2, 0) ∧
    (let s := { tasked id id with weir := { cells := [(0, { owner := 3 })] } }
     (lockReadReg s 10 0).2.toOption = some 3 ∧ fate (after s (.lockService 7)) = some (3, 0)) ∧
    (let s := tasked (fun c => { c with d := c.d.set 0 1008 }) id
     (c7 (after s (.lockService 7))).d[0] = 1) ∧
    (let s := tasked id (fun t => { t with locks := [(0, 0)] })
     localOwner s 7 0 = some 0 ∧ (c7 (after s (.lockService 7))).d[0] = 0 ∧
     ((taskOf (after s (.unlockService 7)) 0).map (fun t => t.locks)) = some []) ∧
    (c7 (after (tasked id id) (.unlockService 7))).d[0] = 1 ∧ stationOf (tasked id id) 0 = some smallStation ∧
    (after (tasked id id) (.postService 7)).staging.length = 1 ∧ stationOf (tasked id id) 2047 = none ∧
    (c7 (after (tasked id id) (.sysCall 7 7))).d[0] = 1 ∧ fate (after (tasked id id) (.exitTask 7)) = some (0, 0) ∧
    firstSleeper (tasked id id) 7 = some (9, 70) ∧ firstSleeper up 7 = none ∧
    (after (tasked id id) (.sleepExpiry 7)).tick = 70 ∧
    (let s := tasked (fun c => { c with cur := none, idle := true, kernel := true, pc := 0 }) (fun t =>
       { t with state := 3, wait := some (.lock 0), ctx := none })
     (c7 s).deck = true ∧ (lockReadReg s 10 0).2.toOption = some 0 ∧ localOwner s 7 0 = none) ∧
    fate (after (tasked id id) (.budgetExpiry 7)) = some (4, 12) ∧
    (after (tasked id id) (.budgetExpiry 7)).tick = 250000 := by decide +kernel

/-- A base register that reaches the user block's last bytes, and a port register. -/
def pointed (p : Cell) (f : Core → Core) : State :=
  core (fun c => f { c with
    d := c.d.set 1 0x1234,
    b := c.b.set 2 { base := 0x4FFFFC, floor := 0x400000, limit := 0x4FFFFF },
    p := c.p.set 3 p })

/-- A register of core 7. -/
def reg (s : State) (r : Fin 16) : Cell := (c7 s).d[r]

theorem witness_accesses :
    readyFor (pointed 0 id) 3 = true ∧ checkData (pointed 0 id) (c7 (pointed 0 id)) 2 0 .pair true = none ∧
    checkData (pointed 0 id) (c7 (pointed 0 id)) 2 3 .byte true = none ∧ pageLive (pointed 0 id) 0x4F = true ∧
    (match (readReq (pointed 0 id) 10 0x4FFFFC 4).2 with | .ok l => l = [0, 0, 0, 0] | .error _ => false) = true ∧
    (writeReq (pointed 0 id) 10 0x4FFFFC (leBytes 4 0x12340000)).2 = none ∧
    Memory.byte (after (pointed 0 id) (.stB 7 1 2 3)).basin.bytes 0x4FFFFF = 0x34 ∧
    Memory.byte (after (pointed 0 id) (.stP 7 0 2 0)).basin.bytes 0x4FFFFE = 0x34 ∧
    reg (after (after (pointed 0 id) (.st 7 1 2 2)) (.ldSb 7 5 2 2)) 5 = 0x34 ∧
    reg (after { (pointed 0 id) with basin := { bytes := [(0x4FFFFF, 0x80)] } } (.ldSb 7 5 2 3)) 5 = 0xFF80 ∧
    reg (after { (pointed 0 id) with basin := { bytes := [(0x4FFFFF, 0x80)] } } (.ldP 7 2 2 0)) 5 = 0x8000 ∧
    (c7 (after { (pointed 0 id) with islands := [(8, { state := .fenced })] } (.st 7 1 2 0))).storeErr = [0x4FFFFC] ∧
    (c7 (after (pointed 0 id) (.ldP 7 2 2 2))).ecode = 5 ∧ (c7 (after (pointed 0 id) (.ldB 7 2 2 4))).ecode = 4 ∧
    (c7 (after (pointed 0 (fun c => { c with b := c.b.set 2 { base := 0x4FFFFC, limit := 0x4FFFFF, mode := 1 } })) (.stB 7 1 2 0))).ecode = 4 ∧
    portAddr (c7 (pointed 0x80 id)) 7 0x80 = some (.fabric 0x2F000000) ∧ taskPort 0x80 false = true ∧
    portAddr (c7 (pointed 0xFFFE id)) 7 0xFFFE = none ∧
    (let s := { (pointed 0x80 id) with tick := 0x50007 }
     reg (after s (.inCell 7 5 3 0)) 5 = 7 ∧ (c7 (after s (.inCell 7 5 3 0))).rport = 0x80 ∧
     reg (after s (.inCell 7 5 3 1)) 5 = 5 ∧ reg (after s (.inPair 7 2 3 0)) 5 = 5 ∧
     reg (after { s with dh := { s.dh with cores := [(7, { c7 s with rport := 0x80, rdata := 9 })] } } (.inCell 7 5 3 1)) 5 = 9) ∧
    (c7 (after (pointed 0x80 id) (.outCell 7 1 3 0))).wdata = 0x1234 ∧
    (c7 (after (pointed 0x80 id) (.inPair 7 2 3 1))).ecode = 5 ∧
    (c7 (after (pointed 0xFFFE id) (.inPair 7 2 3 0))).ecode = 9 ∧
    portAddr (c7 (pointed 4 id)) 7 4 = some (.own 8) ∧
    (c7 (after (pointed 4 id) (.outPair 7 0 3 0))).pc = 2 ∧
    (c7 (after (pointed 4 id) (.outCell 7 1 3 1))).pc = 2 ∧
    (c7 (after (pointed 0 id) (.mvm 7 .pair 2 2 0 0))).pc = 3 ∧
    (c7 (after (pointed 0x80 id) (.inm 7 true 2 3 0 0))).pc = 3 ∧
    (c7 (after (pointed 0x80 id) (.inm 7 false 2 3 0 0))).pc = 3 ∧
    (c7 (after (pointed 4 id) (.outm 7 true 2 3 0 0))).pc = 3 ∧
    (c7 (after (pointed 4 id) (.outm 7 false 2 3 0 0))).wport = 4 := by decide +kernel

theorem witness_prefixes :
    (c7 (after (pointed 0 id) (.repInstr 7 9 (.ld 5 2 0) none))).pc = 3 ∧
    (let s := pointed 0 (fun c => { c with d := c.d.set 9 2 })
     (doMove s 7 (moveOf (.ld 5 2 0))).2 = none ∧
     (c7 (after s (.reps 7 9 (.ld 5 2 0)))).pc = 3 ∧ (c7 (after s (.reps 7 9 (.ld 5 2 0)))).b[2].base = 0x500000 ∧
     reg (after s (.reps 7 9 (.ld 5 2 0))) 9 = 0) ∧
    (let s := pointed 0x80 (fun c => { c with d := c.d.set 9 1 })
     (c7 (after s (.repI 7 9 (.inCell 5 3 0) none))).p[3] = 0x81 ∧ (c7 (after s (.repsI 7 9 (.inCell 5 3 0)))).p[3] = 0x81) ∧
    (let s := pointed 0 (fun c => { c with d := c.d.set 9 3, storeErr := [1] })
     mayStop s 7 = true ∧ reg (after s (.repInstr 7 9 (.ld 5 2 0) (some 1))) 9 = 2 ∧
     (c7 (after s (.repInstr 7 9 (.ld 5 2 0) (some 1)))).pc = 0) ∧
    (c7 (after (pointed 0 (fun c => { c with d := c.d.set 9 33 })) (.reps 7 9 (.ld 5 2 0)))).ecode = 10 := by
  decide +kernel

theorem witness_registers :
    mailboxOffset (0xFFFFFFFC / 4 * 4) = none ∧ areaOf (0xFFFFFFFC / 4 * 4) = none ∧ hostReach up = true ∧
    hostReach { up with pcie := { d3hot := true } } = false ∧
    (after up (.rcFieldRead 2 0xFFFFFFFC true)).out = [.error 2 .unmapped] ∧
    (after { up with tick := 0xFFFFFFFF00000005 } (.sysTickLo 1)).out = [.word 1 5] ∧
    Tab.get 0 (after { up with tick := 0xFFFFFFFF00000005 } (.sysTickLo 1)).sys.tickHi 1 = 0xFFFFFFFF ∧
    (after up (.rcFieldRead 2 0x2F000024 true)).out = [.word 2 1] ∧
    (after up (.registerWrite 2 0x2F000024 0xF 1)).sys.resetCause = 0 ∧
    (after up (.registerWrite 3 0x2F000024 0xF 1)).sys.resetCause = 1 ∧
    (after up (.registerWrite 15 0x2F00002C 0xF 2)).sys.triedB = true ∧
    (after up (.rcFieldRead 3 0x26080000 true)).out = [.error 3 .unmapped] ∧
    running (island 8 .fenced 6) (islBank 3) = false ∧
    (after (island 8 .fenced 6) (.rcFieldRead 2 0x26083000 true)).out = [.error 2 .fenced] ∧
    (bankRegs (after { up with basin := { banks := [(3, { ceCount := 5 })] } } (.rcFieldRead 2 0x26083000 true)) 3).ceCount = 0 ∧
    (bankRegs (after (inMode 6) (.registerWrite 2 0x26083018 0xF 0x80404142)) 3).arm = true ∧
    (bankRegs (after up (.registerWrite 2 0x26083018 0xF 0x80404142)) 3).arm = false ∧
    (bankRegs (after (inMode 6) (.registerWrite 15 0x26083018 0xF 0x80404142)) 3).arm = false ∧
    (isl (after { up with islands := [(15, { stretchUs := 5 })] } (.rcFieldRead 2 0x27000F18 true)) 15).stretchUs = 0 ∧
    (isl (after up (.registerWrite 2 0x27000F0C 0xF 0x0FFF0000)) 15).floorMhz = 0xFFF ∧
    (after { up with win := { status := 1, count := 9 } } (.registerWrite 2 0x25030000 0xF 1)).win = { count := 9 } ∧
    (after up (.registerWrite 2 0x250301FC 0xF 0x80000000)).win.guards = [(1023, 2)] ∧
    (after { up with tick := 9 } (.dhTimerMatch 7)).tick = 0x100000000 ∧
    (9 : Nat) + 2 ^ 32 ≤ 2 ^ 64 ∧ (privSrc (after up (.dhTimerMatch 7)) 8 4).count = 1 ∧
    (privSrc (after up .lkTimerMatch) 0 20).count = 1 ∧ running (island 2 .fenced 6) (islDeck 7) = false ∧
    (coreOf (after { up with tick := 9 } (.dhHeart 10 7)) 7).heart = 9 ∧
    (after up (.dhHeart 9 7)).out = [.error 9 .unmapped] := by decide +kernel

/-! ### Witnesses: the interrupt controller -/

/-- Two shared sources and one private source of target 0 are pending. -/
def pend : State :=
  { up with intc := {
      priv := [(20, { prio := 3, en := true, count := 2 })],
      shared := [(1, { prio := 3, en := true, count := 1, targets := 1 }), (9, { prio := 5, en := true, count := 7, targets := 1 })] } }

/-- Target 0 holds the claim on a private and on a shared source, and debug stands for it. -/
def holding : State :=
  { up with intc := {
      priv := [(20, { prio := 3, en := true, count := 5, holder := some 0 })],
      shared := [(9, { prio := 5, en := true, count := 7, holder := some 0 })] } }

/-- The number of the source that a claim would take. -/
def winner (s : State) (t : Nat) : Option Nat := (bestClaim s t).map (·.1)

theorem witness_claim_choice :
    winner pend 0 = some 0x109 ∧ winner { pend with intc := { pend.intc with shared := [(1, { prio := 3, en := true, count := 1, targets := 1 })] } } 0 = some 20 ∧
    winner holding 0 = none := by decide +kernel

theorem witness_claims :
    agentTarget pend 2 = some 0 ∧ agentTarget pend 15 = some 0 ∧ agentTarget pend 10 = some 8 ∧
    (targetOf (after up (.icClaim 2)) 0).spurious = 1 ∧
    (sharedSrc (after pend (.icClaim 2)) 9).holder = some 0 ∧ (after pend (.icClaim 2)).out = [.word 2 0x05070109] ∧
    (after pend (.icClaim 15)).out = [.word 15 0x05070109] ∧ (sharedSrc (after pend (.icClaim 15)) 9).holder = none ∧
    fld 0x00030109 0 10 = 9 + 256 ∧ (sharedSrc (after holding (.icComplete 2 0x00030109)) 9).count = 4 ∧
    (privSrc (after holding (.icComplete 2 0x00050014)) 0 20).count = 0 ∧
    (targetOf (after pend (.icComplete 2 0x00000109)) 0).completeErr = true ∧
    sharedKind up 0xF0 = .soft ∧ sharedKind up 0xA0 ≠ .soft ∧
    (sharedSrc (after up (.icRaise 10 0x1F0)) 0xF0).count = 1 ∧ (targetOf (after up (.icRaise 10 0x1A0)) 8).raiseErr = true ∧
    (privSrc (after up (.icRaise 2 0x215)) 0 21).count = 0 ∧ (privSrc (after up (.icRaise 2 0x015)) 0 21).count = 1 ∧
    (targetOf (after up (.icRaise 2 0x1215)) 0).raiseErr = true ∧ (targetOf (after up (.icComplete 2 0x3FF)) 0).completeErr = true ∧
    (sharedSrc (after pend (.discardCount 2 true 0 9)) 9).count = 0 ∧
    (privSrc (after pend (.discardCount 3 false 1 4)) 1 4).count = 0 ∧ after pend (.discardCount 10 true 0 9) = pend ∧
    after pend (.discardCount 3 false 2 4) = pend ∧
    (sharedSrc (after pend (.icParityError true 0 9)) 9).perr = true ∧ (sharedSrc (after pend (.icParityError true 0 9)) 9).en = true ∧ fwRuns pend = true ∧ fwRuns State.reset = false ∧
    (sharedSrc (after State.reset (.icParityError true 0 9)) 9).perr = true := by decide +kernel

/-! ### Witnesses: Sluice -/

/-- Channel 0 as given, a live handle of it, and bytes in Basin. -/
def sluice (c : Chan) (b : List (Nat × Byte)) : State :=
  { rich with sl := { chans := [(0, { c with handle := 0x50010000, moor := 0 })] }, basin := { bytes := b } }

/-- A descriptor at 0x411000 that moves 8 bytes from 0x411100 to 0x411200, and is the last. -/
def moving : List Word := [0, 0x10, 0x411100, 0x411200, 0, 0x00010008, 0, 0]

/-- That descriptor's bytes in Basin. -/
def inBasin : List (Nat × Byte) :=
  [(0x411004, 0x10), (0x411009, 0x11), (0x41100A, 0x41), (0x41100D, 0x12), (0x41100E, 0x41), (0x411014, 8), (0x411016, 1)]

/-- Channel 0 of a state. -/
def ch0 (s : State) : Chan := chanOf s 0

/-- A word of Basin as Sluice reads it. -/
def slWord (s : State) (a : Nat) : Option Word := (readWord s 11 a).2

/-- Basin as Sluice writes a word. -/
def slWrites (s : State) (a v : Nat) : Bool := (writeReq s 11 a (leBytes 4 v)).2 = none

/-- A channel in the midst of a transfer. -/
def busyAt (step : ChStep) : Chan := { state := .running, step := step, cur := 0x411000, tail := 0x411000, desc := moving }

theorem witness_channels :
    running (sluice {} []) islSL = true ∧ scriptAgent 10 = true ∧
    after (sluice { state := .running } []) (.slDoorbell 10 0) = sluice { state := .running } [] ∧
    (let s := sluice { state := .idleAtTail, cur := 0x411000 } []
     slWord s 0x411000 = some 0 ∧ (ch0 (after s (.slDoorbell 10 0))).state = .idleAtTail ∧
     (ch0 (after s (.slAbort 10 0))).status = 0x22 ∧ (ch0 (after s (.slClear 10 0))).state = .empty ∧
     slWrites s 0 0x411000 = true ∧ (ch0 (after s (.slAppend 10 0 0x411000))).state = .running) ∧
    (let s := sluice { state := .idleAtTail, cur := 0x411000 } [(0x411000, 0x20), (0x411001, 0x10), (0x411002, 0x41)]
     slWord s 0x411000 = some 0x411020 ∧ (ch0 (after s (.slDoorbell 10 0))).cur = 0x411020) ∧
    (ch0 (after (sluice (busyAt .move) []) (.slAbort 10 0))).state = .stopping ∧
    (ch0 (after (sluice { state := .empty } []) (.slAbort 10 0))).state = .stopped ∧
    after (sluice { state := .stopped } []) (.slAbort 10 0) = sluice { state := .stopped } [] ∧
    (ch0 (after (sluice { state := .stopped, status := 0x22 } []) (.slClear 10 0))).state = .empty ∧
    after (sluice (busyAt .move) []) (.slClear 10 0) = sluice (busyAt .move) [] ∧
    (ch0 (after (sluice { state := .empty } []) (.slAppend 10 0 0x411000))).tail = 0x411000 ∧
    slWrites (sluice (busyAt .move) []) 0x411000 0x411020 = true ∧
    (ch0 (after (sluice (busyAt .move) []) (.slAppend 10 0 0x411020))).next = 0x411020 ∧
    (ch0 (after (sluice { state := .stopping } []) (.slAppend 10 0 0x411020))).appendErr = true ∧
    (let c := { busyAt .move with state := .stopping, issued := 8, err := some (4, 0x21) }
     c.total = 8 ∧ c.flight = [] ∧ c.aborted = false ∧ c.result = true ∧
     (ch0 (after (sluice c []) (.slChannelStopped 0))).residue = 4) := by decide +kernel

/-- A fetch of channel 0 finds the descriptor. -/
def fetching (b : List (Nat × Byte)) : State := sluice { state := .running, step := .fetch, cur := 0x411000 } b

theorem witness_descriptors :
    (match (readMem (fetching inBasin) 11 0x411000 32).2 with | .ok b => b.length = 32 | .error _ => false) = true ∧
    pageLive (fetching inBasin) (0x411000 / 65536) = true ∧ (busyAt .move).valid = true ∧
    (busyAt .move).pagesOk (fetching inBasin) = true ∧ (busyAt .move).total = 8 ∧
    (ch0 (after (fetching inBasin) (.slDescriptorFetch 0))).desc = moving ∧
    (ch0 (after (fetching ((0x411000, 1) :: inBasin)) (.slDescriptorFetch 0))).err = some (0, 0x13) ∧
    (ch0 (after (fetching ((inBasin.take 3) ++ (0x41100B, 1) :: inBasin.drop 3)) (.slDescriptorFetch 0))).err = some (0, 0x40) ∧
    (ch0 (after (fetching []) (.slDescriptorFetch 0))).step = .recheck ∧
    slTurn (sluice (busyAt .move) []) = some 0 ∧ inFlight (sluice (busyAt .move) []) = 0 ∧
    (ch0 (after (sluice (busyAt .move) []) .slBurstIssue)).flight = [⟨0, 0x411100, 0x411200, 8, none, 0⟩] ∧
    (let c := { busyAt .move with issued := 8, flight := [⟨0, 0x411100, 0x411200, 8, none, 0⟩] }
     let s := sluice c [(0x411100, 9)]
     (doBurst s c ⟨0, 0x411100, 0x411200, 8, none, 0⟩ .failed).2 = none ∧
     Memory.byte (after s (.slBurstComplete 0 0 .failed)).basin.bytes 0x411200 = 9 ∧
     (ch0 (after s (.slBurstComplete 0 0 .failed))).step = .recheck ∧
     (ch0 (after s (.slBurstComplete 0 0 .failed))).done = 1) ∧
    (let b : Burst := ⟨0, 0x411100, 0x411200, 4, none, 0⟩
     let c := { busyAt .move with issued := 8, flight := [b, ⟨4, 0, 0, 4, none, 1⟩] }
     (ch0 (after (sluice c []) (.slBurstComplete 0 0 .failed))).flight.length = 1 ∧
     burstHeld (sluice c []) (ch0 (sluice c [])) b = false ∧
     burstHeld (sluice { c with flight := [b, { b with seq := 1 }] } []) c { b with seq := 1 } = true ∧
     (doBurst (sluice c []) c { b with err := some 0x20 } .failed).2 = some 0x20 ∧
     (ch0 (after (sluice { c with flight := [{ b with err := some 0x20 }] } []) (.slBurstComplete 0 0 .failed))).err = some (0, 0x20)) ∧
    (writeResult (sluice (busyAt .move) []) 11 (busyAt .move) 0 0).2 = none ∧
    slWord (sluice (busyAt .recheck) []) 0x411000 = some 0 ∧
    (ch0 (after (sluice (busyAt .recheck) []) (.slTailRecheck 0))).state = .idleAtTail ∧
    (let s := sluice (busyAt .recheck) [(0x411000, 0x20), (0x411001, 0x10), (0x411002, 0x41)]
     slWord s 0x411000 = some 0x411020 ∧ (ch0 (after s (.slTailRecheck 0))).step = .fetch) := by decide +kernel

/-- A submission mooring in slot 0 with one entry, which aborts channel 0. -/
def submitted : State :=
  { sluice { state := .empty } [(0x404000, 2), (0x404006, 1), (0x404007, 0x50), (0x405000, 1)] with
    sl := { chans := [(0, { state := .empty, handle := 0x50010000 })], submits := [(0, 2)] } }

theorem witness_submission :
    (submitted.fw.moorings.find? 2).isSome = true ∧
    (match (readMem submitted 11 0x405000 8).2 with | .ok b => decide (leWord b = leWord (b.drop 4) + 1) | .error _ => false) = true ∧
    (match (readMem submitted 11 0x404000 16).2 with | .ok b => decide (b.length = 16) | .error _ => false) = true ∧
    slWrites submitted 0x405004 1 = true ∧ (ch0 (after submitted .slSubmitPoll)).status = 0x22 ∧
    Memory.byte (after submitted .slSubmitPoll).basin.bytes 0x405004 = 1 := by decide +kernel

/-! ### Witnesses: the peripheral island -/

/-- GA3 is kept for the firmware, and its OUT bit is set. -/
def pins : State := { up with gp := { fw := 8, out := 8 } }

theorem witness_pins :
    portAgent 10 = true ∧ portAgent 1 = false ∧ running pins islPI = true ∧ running (island 15 .fenced 6) islPI = false ∧
    (after pins (.gpOut 2 0 5)).gp.out = 5 ∧ (after pins (.gpOut 10 0 5)).gp.out = 13 ∧
    (after pins (.gpOut 10 0 5)).gp.denied = true ∧ (after pins (.gpOutSet 10 1 5)).gp.out = 0x500000008 ∧
    (after pins (.gpOutClr 2 0 8)).gp.out = 0 ∧ (after pins (.gpOutTgl 2 0 9)).gp.out = 1 ∧
    (after pins (.gpOutMwl 2 0 0x000C0004)).gp.out = 4 ∧ (after pins (.gpOutMwh 2 0 0x00010001)).gp.out = 0x10008 ∧
    (after pins (.gpDir 2 0 1)).gp.dir = 1 ∧ (after pins (.gpDirMwl 2 0 0x00030002)).gp.dir = 2 ∧
    (after pins (.gpDirMwh 2 1 0x80008000)).gp.dir = 0x8000000000000000 ∧
    (after pins (.gpOut 1 0 5)).out = [.error 1 .unmapped] ∧
    (after (island 15 .fenced 6) (.gpOut 2 0 5)).out = [.error 2 .fenced] := by decide +kernel

/-- The pin GA5 has a configuration, and its pad is high. -/
def pinned (cfg : BitVec 15) : State := { up with gp := { cfg := [(5, cfg)], pad := 32 } }

theorem witness_filters :
    padLevel (pinned 0x10) 5 = true ∧ (pinned 0x10).gp.filt.getLsbD 5 = false ∧
    (sharedSrc (after (pinned 0x10) (.gpioFilteredChange 5)) 0x65).count = 1 ∧
    (sharedSrc (after (pinned 0x20) (.gpioFilteredChange 5)) 0x65).count = 0 ∧
    (sharedSrc (after (pinned 0x40) (.gpioFilteredChange 5)) 0x65).input = true ∧
    after (pinned 0x80) (.gpioFilteredChange 5) = pinned 0x80 ∧
    (after (pinned 0) (.gpioPadChange 6 true)).gp.pad = 96 := by decide +kernel

/-- Serial channel 0, bound to GA10 or to no pin, with one last segment of 2 bytes. -/
def wired (f : Sq → Sq) (gp : Gpio) : State :=
  { rich with gp := gp, pi := { sq := [(0, f { segs := [(0, { phase := 0x00400000, cmd := 0x9F, len := 2 })] })] } }

/-- Serial channel 0 of a state. -/
def sq0 (s : State) : Sq := sqOf s 0

/-- A panel frame holds SQ1. -/
def heldSq : State := { rich with pi := { sq := [(1, { busy := true, held := true })] } }

theorem witness_serial :
    running (wired id {}) islPI = true ∧ fwAgent 15 = true ∧ (sq0 (wired id {})).badSeg 0 = false ∧
    (sq0 (after (wired (fun q => { q with busy := true }) {}) (.sqGo 2 0 []))).goErr = true ∧
    (sq0 (after (wired (fun q => { q with cfg := 0x00212820 }) { out := 0x400 }) (.sqGo 2 0 []))).result = 2 ∧
    (sq0 (after (wired (fun q => { q with segs := [] }) {}) (.sqGo 2 0 []))).result = 5 ∧
    (sq0 (after (wired id {}) (.sqGo 2 0 [3]))).miso = [3] ∧
    sqAdvance (wired id {}) 0 = wired id {} ∧
    (sq0 (after (wired id {}) (.sqTxdata 2 0 0x04030201))).tx = [1, 2, 3, 4] ∧
    (after (wired (fun q => { q with rx := [1, 2, 3, 4, 5] }) {}) (.sqRxdata 2 0)).out = [.word 2 0x04030201] ∧
    (let s := wired (fun q => { q with busy := true, tx := [7, 8] }) {}
     (sq0 (sqAdvance s 0)).complete = true ∧ (sq0 (after s (.sqFrameEnd 0))).result = 0 ∧
     (sq0 (after s (.sqFrameEnd 0))).bits = 16 ∧ (sharedSrc (after s (.sqFrameEnd 0)) 0xA0).count = 1) ∧
    (let s := wired (fun q => { q with busy := true, tx := [7] }) {}
     (sq0 (sqAdvance s 0)).complete = false ∧ (sq0 (after s (.sqStallTimeout 0))).result = 3 ∧
     (sq0 (after s (.sqStallTimeout 0))).bits = 8) ∧
    running heldSq islTP = true ∧ (sqOf heldSq 1).held = true ∧ (sqOf (after heldSq (.sqFrameEnd 1)) 1).phase = 3 ∧
    running { heldSq with islands := [(3, { state := .fenced })] } islTP = false ∧
    (sqOf (after { heldSq with islands := [(3, { state := .fenced })] } (.sqStallTimeout 1)) 1).result = 3 := by
  decide +kernel

/-- A data byte 0xA5 leaves MSB first, two bits and four bits at a time too (R705, R706). -/
theorem test_lanes :
    (({ phase := 0x40000 } : SqSeg).read && !({ phase := 0x40000 } : SqSeg).dc9) = true ∧ ({} : SqSeg).read = false ∧
    ({ phase := 1 } : SqSeg).cmdBits = 1 ∧ fld ({ phase := 0x40 } : SqSeg).phase 4 3 = 4 ∧
    (({ phase := 0x50000 } : SqSeg).dataLines [] 8).map (fun x => x.io1) = List.replicate 4 .released ∧
    (({ len := 1 } : SqSeg).dataLines [0xA5] 8).map (fun x => x.io0) =
      [.high, .low, .high, .low, .low, .high, .low, .high] ∧
    (({ phase := 0x10000, len := 1 } : SqSeg).dataLines [0xA5] 8).map (fun x => (x.io1, x.io0)) =
      [(.high, .low), (.high, .low), (.low, .high), (.low, .high)] ∧
    (({ phase := 0x20000, len := 1 } : SqSeg).dataLines [0xA5] 8).map (fun x => [x.io3, x.io2, x.io1, x.io0]) =
      [[.high, .low, .high, .low], [.low, .high, .low, .high]] ∧
    (halves 3 false ⟨.low, .low, .high, .high⟩).map (fun x => x.sclk) = [false, true] ∧
    (halves 1 false ⟨.low, .low, .high, .high⟩).map (fun x => x.sclk) = [true, false] := by decide +kernel

theorem witness_release :
    (let s := wired (fun q => { q with cfg := 0x00212820, busy := true, tx := [7, 8] }) { out := 0x400 }
     (sq0 s).cfg.getLsbD 16 = true ∧ (sq0 s).cfg.getLsbD 17 = false ∧ s.gp.out.getLsbD (fld (sq0 s).cfg 10 6) = true ∧
     (sq0 (after s (.earlyRelease 0 0 3 9))).bits = 16 ∧ (sq0 (after s (.earlyRelease 0 0 3 16))).bits = 16 ∧
     (sq0 (after s (.earlyRelease 0 0 3 0))).result = 1) ∧
    (let s := wired (fun q => { q with cfg := 0x00232820, busy := true, tx := [7, 8] }) { out := 0x400 }
     (sq0 s).cfg.getLsbD 17 = true ∧ (sq0 (after s (.earlyRelease 0 0 3 9))).bits = 9 ∧
     (after s (.earlyRelease 0 0 3 9)).out = [.serial 0 none 0x20 false
       ((({ phase := 0x00400000, cmd := 0x9F, len := 2 } : SqSeg).wave 0 3 none [7, 8] 9))]) := by decide +kernel

/-- An I2C transaction is in progress: a read of 2 bytes at port 1. -/
def i2cBusy : State := { up with pi := { i2c := { busy := true, cur := 0x00200009 } } }

/-- AVSBus port 0 runs a transaction, with some failures behind it. -/
def avsBusy (op v : Nat) (fails : Byte) : State :=
  { up with pi := { avs := [(0, { op := some (op, v), fails := fails })] }, rails := [(0, { loopRun := true })] }

theorem witness_buses :
    i2cShape 0x00200009 = some (0, 2) ∧ i2cShape 0x00080000 = some (8, 0) ∧ i2cShape 0x00090000 = none ∧
    i2cShape 0x08020010 = some (2, 128) ∧
    (after up (.i2cGo 2 0x00004209 true true)).pi.i2c.busy = false ∧
    (after up (.i2cGo 2 0x00204209 true true)).pi.i2c.result = 3 ∧
    (after up (.i2cGo 2 0x00204209 false false)).out = [.i2c 1 0x42 [] 2] ∧
    (after i2cBusy (.i2cDone true [])).pi.i2c.result = 1 ∧ (after i2cBusy .i2cStretchTimeout).pi.i2c.result = 2 ∧
    (after i2cBusy (.i2cDone false [8, 9, 10])).pi.i2c.rdata.take 3 = [8, 9, 0] ∧
    (sharedSrc (after i2cBusy (.i2cDone false [8, 9])) 0xA2).count = 1 ∧
    (after up (.voltageWrite 2 0 650)).out = [.avs 0 1 650] ∧ (after up (.voltageWrite 2 0 900)).out = [.avs 0 1 900] ∧
    (avsOf (after up (.voltageWrite 2 0 649)) 0).result = 2 ∧ (avsOf (after up (.voltageWrite 2 0 901)) 0).result = 2 ∧
    (after up (.voltageRead 2 1)).out = [.avs 1 2 0] ∧ (after up (.statusRead 15 1)).out = [.avs 1 3 0] ∧
    (avsOf (avsBusy 1 700 0) 0).op = some (1, 700) ∧
    (railOf (after (avsBusy 1 700 0) (.avsDone 0 true 0 0)) 0).setMv = 700 ∧
    (railOf (after (avsBusy 2 0 0) (.avsDone 0 true 0 777)) 0).readMv = 777 ∧
    (avsOf (after (avsBusy 1 700 0) (.avsDone 0 true 1 0)) 0).result = 1 ∧
    (railOf (after (avsBusy 1 700 1) (.avsDone 0 false 0 0)) 0).avsLost = false ∧
    (railOf (after (avsBusy 1 700 2) (.avsDone 0 false 0 0)) 0).avsLost = true := by decide +kernel

/-! ### Tests and witnesses: the Ceing instructions -/

/-- Core 7 at task level or at kernel level, with register values. -/
def regs (kernel : Bool) (d : List Cell) (f : Core → Core) : State :=
  { rich with dh := { rich.dh with
      cores := [(7, f { kernel := kernel, estat := 0, d := Vector.ofFn (fun i => d.getD i.val 0) })] } }

/-- Registers 0 and 1 and the flags Z, N, C, V that an instruction of core 7 leaves. -/
def leaves (d : List Cell) (i : Instr) : List Nat :=
  let c := c7 (after (regs true d id) i)
  [c.d[0].toNat, c.d[1].toNat, b2n c.z, b2n c.n, b2n c.c, b2n c.v]

/-- Every instruction begins in these states, with one cell, two cells and room to spare. -/
theorem witness_ready :
    readyFor (regs true [] id) 1 = true ∧ readyFor (regs true [] id) 2 = true ∧
    readyFor (regs false [] (fun c => { c with pc := 0x2000, cfloor := 0x2000, climit := 0x2002 })) 2 = true ∧
    readyFor { (regs true [] (fun c => { c with waiting := true })) with intc := { priv := [(32 * 8 + 4, { prio := 1, en := true, count := 1 })] } } 1 = true := by decide +kernel

theorem test_alu :
    leaves [0x7FFF, 1] (.addReg 7 0 1) = [0x8000, 1, 0, 1, 0, 1] ∧ leaves [0xFFFF, 1] (.addReg 7 0 1) = [0, 1, 1, 0, 1, 0] ∧
    leaves [0, 1] (.subReg 7 0 1) = [0xFFFF, 1, 0, 1, 1, 0] ∧ leaves [0x8000, 1] (.cmpReg 7 0 1) = [0x8000, 1, 0, 0, 0, 1] ∧
    leaves [5, 3] (.sbcReg 7 0 1) = [2, 3, 0, 0, 0, 0] ∧ leaves [0xF0F0, 0x0FF0] (.xorReg 7 0 1) = [0xFF00, 0x0FF0, 0, 1, 0, 0] ∧
    leaves [0xF0F0, 0x0F0F] (.tstReg 7 0 1) = [0xF0F0, 0x0F0F, 1, 0, 0, 0] ∧ leaves [1] (.subi 7 0 1) = [0, 0, 1, 0, 0, 0] ∧
    leaves [7] (.movi 7 1 0x8001) = [7, 0x8001, 0, 1, 0, 0] ∧ leaves [0x55] (.andi 7 0 0x0F) = [5, 0, 0, 0, 0, 0] := by
  decide +kernel

theorem test_shifts :
    leaves [0x8001] (.shl 7 0 0) = [2, 0, 0, 0, 1, 0] ∧ leaves [0x8001] (.shl 7 0 15) = [0, 0, 1, 0, 1, 0] ∧
    leaves [0x8001] (.sar 7 0 15) = [0xFFFF, 0, 0, 1, 1, 0] ∧ leaves [0x8001] (.ror 7 0 0) = [0xC000, 0, 0, 1, 1, 0] ∧
    leaves [0x8001] (.rol 7 0 15) = [0x8001, 0, 0, 1, 1, 0] ∧ leaves [0x8001, 0x10] (.shrReg 7 0 1) = [0x8001, 0x10, 0, 1, 0, 0] ∧
    leaves [0x8001, 1] (.rolReg 7 0 1) = [3, 1, 0, 0, 1, 0] ∧ leaves [0x8000] (.negReg 7 0) = [0x8000, 0, 0, 1, 1, 1] ∧
    leaves [0x1280] (.sxb 7 0) = [0xFF80, 0, 0, 1, 0, 0] ∧ leaves [0x1280] (.swpb 7 0) = [0x8012, 0, 0, 1, 0, 0] ∧
    leaves [0x7FF0] (.addq 7 0 15) = [0x8000, 0, 0, 1, 0, 1] ∧ leaves [0x10] (.subq 7 0 15) = [0, 0, 1, 0, 0, 0] := by
  decide +kernel

theorem test_pairs :
    leaves [0xFFFF, 0, 1] (.addp 7 0 1) = [0, 1, 0, 0, 0, 0] ∧ leaves [0, 0x8000, 1] (.subp 7 0 1) = [0xFFFF, 0x7FFF, 0, 0, 0, 1] ∧
    leaves [0xFFFF, 9, 0xFFFF] (.mulu 7 0 2) = [1, 0xFFFE, 0, 1, 0, 0] ∧ leaves [0xFFFF, 9, 2] (.muls 7 0 2) = [0xFFFE, 0xFFFF, 0, 1, 0, 0] ∧
    leaves [7, 0, 2] (.divu 7 0 2) = [3, 1, 0, 0, 0, 0] ∧ leaves [7, 2, 2] (.divu 7 0 2) = [7, 2, 0, 0, 0, 1] ∧
    leaves [0xFFF9, 0xFFFF, 2] (.divs 7 0 2) = [0xFFFD, 0xFFFF, 0, 1, 0, 0] ∧
    leaves [0, 0xFFFF, 2] (.divs 7 0 2) = [0x8000, 0, 0, 1, 0, 0] ∧ leaves [0, 1, 2] (.divs 7 0 2) = [0, 1, 0, 0, 0, 1] ∧
    (0x10000 : Int).tdiv 2 = 32768 ∧ (-65536 : Int).tdiv 2 = -32768 := by decide +kernel

/-- Base register 2 spans 0x1000 bytes. -/
def spanned : State :=
  regs true [0x10, 0, 0x20, 0, 0x2F, 0, 3] (fun c => { c with b := c.b.set 2 { base := 0x400000, floor := 0x400000, limit := 0x400FFF }, p := c.p.set 1 0x80 })

theorem test_bases :
    readyFor spanned 2 = true ∧ (c7 (after spanned (.baddi 7 2 0xFFFF))).b[2].base = 0x3FFFFF ∧
    (c7 (after spanned (.bsub 7 1 2 0 1))).b[1] = { base := 0x400010, floor := 0x400010, limit := 0x40002F } ∧
    (c7 spanned).pair 1 = 0x20 ∧ (c7 (after spanned (.bset 7 4))).b[4] = { base := 0x10, floor := 0x20, limit := 0x2F, mode := 3 } ∧
    (c7 (after spanned (.bgetL 7 4 2))).d[8] = 0x0FFF ∧ (c7 (after spanned (.bgetL 7 4 2))).d[9] = 0x40 ∧
    (c7 (after spanned (.padd 7 1 0))).p[1] = 0x90 ∧ (c7 (after spanned (.bbase 7 2 0))).b[2].base = 0x10 := by decide +kernel

theorem test_branches :
    (c7 (after (regs true [] (fun c => { c with z := true })) (.bCc 7 1 0xFE))).pc = 0xFFFF ∧
    (c7 (after (regs true [] id) (.bCc 7 1 0xFE))).pc = 1 ∧ (c7 (after (regs true [] id) (.bCcL 7 0 0x10))).pc = 0x12 ∧
    (c7 (after (regs true [2] id) (.dbnz 7 0 0x10))).pc = 0x11 ∧ (c7 (after (regs true [1] id) (.dbnz 7 0 0x10))).pc = 1 ∧
    (c7 (after (regs true [] id) (.callRel 7 0x10))).pc = 0x12 ∧ (c7 (after (regs true [] id) (.callRel 7 0x10))).d[15] = 2 := by
  decide +kernel

theorem test_system :
    (c7 (after (regs true [] id) (.sti 7))).ie = true ∧ (c7 (after (regs true [0xA] id) (.setf 7 0))).z = true ∧
    (c7 (after (regs true [0xA] id) (.setf 7 0))).n = false ∧ (c7 (after (regs true [0x77] id) (.callr 7 0))).pc = 0x77 ∧
    (c7 (after (regs true [] (fun c => { c with epc := 9, estat := 0x11 })) (.reti 7))).pc = 9 ∧
    (c7 (after (regs true [] (fun c => { c with epc := 9, estat := 0x11 })) (.reti 7))).kernel = false ∧
    (c7 (after (regs true [] id) (.wfi 7))).waiting = true ∧ (c7 (after (regs true [] id) (.adr 7 3 4))).d[3] = 6 ∧
    (c7 (regs true [] id)).storeErr = [] := by decide +kernel

end Sys2Proof.Tests
end

section
/-! PROOFS. Receiving from a mailbox, its lock and its interrupt enables (chapter 03, R106 to R113):
what one access does to a mailbox, what flags and replies leave alone, and the obligation O13. -/

open Sys2Proof

namespace Sys2Proof.Machine

/-! ### The parts of a mailbox -/

section Mbx
variable (x : Mbx) (b : Bool) (v : Side) (q : Queue)
@[simp] theorem Mbx.sideOf_setSide_self : sideOf (x.setSide b v) b = v := by cases b <;> rfl
@[simp] theorem Mbx.sideOf_setSide_not : sideOf (x.setSide b v) (!b) = sideOf x (!b) := by
  cases b <;> rfl
@[simp] theorem Mbx.sideOf_not_setSide : sideOf (x.setSide (!b) v) b = sideOf x b := by
  cases b <;> rfl
@[simp] theorem Mbx.txQueue_setSide (c : Bool) : txQueue (x.setSide b v) c = txQueue x c := by
  cases b <;> rfl
@[simp] theorem Mbx.ab_setSide : (x.setSide b v).ab = x.ab := by cases b <;> rfl
@[simp] theorem Mbx.ba_setSide : (x.setSide b v).ba = x.ba := by cases b <;> rfl
@[simp] theorem Mbx.txQueue_setTx_self : txQueue (x.setTx b q) b = q := by cases b <;> rfl
@[simp] theorem Mbx.txQueue_setTx_not : txQueue (x.setTx b q) (!b) = txQueue x (!b) := by
  cases b <;> rfl
@[simp] theorem Mbx.sideOf_setTx (c : Bool) : sideOf (x.setTx b q) c = sideOf x c := by
  cases b <;> rfl
end Mbx

/-- A bit that is set reads as set. -/
theorem getLsbD_setBit_self {n : Nat} (x : BitVec n) {i : Nat} (h : i < n) :
    (setBit x i true).getLsbD i = true := by
  have one : (oneBit n i).getLsbD i = true := by
    rw [oneBit, BitVec.getLsbD_ofNat, Nat.testBit_two_pow_self, decide_eq_true h, Bool.and_true]
  rw [setBit, if_pos rfl, BitVec.getLsbD_or, one, Bool.or_true]

/-- Setting a bit clears none. -/
theorem getLsbD_setBit_of_set {n : Nat} (x : BitVec n) (i : Nat) {j : Nat}
    (h : x.getLsbD j = true) : (setBit x i true).getLsbD j = true := by
  simp [setBit, h]

/-! ### Setting a flag -/

@[simp] theorem mbxOf_emit (s : State) (o : Out) (m : Nat) : mbxOf (emit s o) m = mbxOf s m := rfl

theorem mbxOf_congr {s t : State} (h : t.mbx = s.mbx) (k : Nat) : mbxOf t k = mbxOf s k := by
  rw [mbxOf, h, mbxOf]

@[simp] theorem mbxOf_driveSide (s : State) (m k : Nat) (b : Bool) :
    mbxOf (driveSide s m b) k = mbxOf s k :=
  mbxOf_congr ((driveSide_follows s m b).mbx (by decide)) k

@[simp] theorem mbxOf_vectorReq (s : State) (v k : Nat) : mbxOf (vectorReq s v) k = mbxOf s k :=
  mbxOf_congr ((vectorReq_follows s v).mbx (by decide)) k

/-- A flag changes one bit of one side's MB_IRQ_STATUS in its mailbox (R109). -/
@[simp] theorem mbxOf_flagSide (s : State) (m : Nat) (b : Bool) (i : Nat) :
    mbxOf (flagSide s m b i) m = (mbxOf s m).setSide b
      { sideOf (mbxOf s m) b with status := setBit (sideOf (mbxOf s m) b).status i true } := by
  simp only [flagSide]
  split
  · split <;> simp
  · simp

@[simp] theorem flagSide_fw (s : State) (m : Nat) (b : Bool) (i : Nat) :
    (flagSide s m b i).fw = s.fw := (flagSide_follows s m b i).fw (by decide)

/-! ### What flags and placed words leave of a mailbox -/

/-- What neither a flag nor a word that enters a queue undoes: the committed words stand in front of
their queue, each side's META stands, and no status bit clears. -/
structure Mbx.Grows (x y : Mbx) : Prop where
  words : ∀ b, (txQueue x b).words <+: (txQueue y b).words
  metaStamp : ∀ b, (sideOf y b).metaStamp = (sideOf x b).metaStamp
  metaEom : ∀ b, (sideOf y b).metaEom = (sideOf x b).metaEom
  metaValid : ∀ b, (sideOf y b).metaValid = (sideOf x b).metaValid
  status : ∀ b i, (sideOf x b).status.getLsbD i = true → (sideOf y b).status.getLsbD i = true

namespace Mbx.Grows

theorem refl (x : Mbx) : x.Grows x :=
  ⟨fun _ => List.prefix_rfl, fun _ => rfl, fun _ => rfl, fun _ => rfl, fun _ _ h => h⟩

theorem trans {x y z : Mbx} (h : x.Grows y) (k : y.Grows z) : x.Grows z where
  words b := (h.words b).trans (k.words b)
  metaStamp b := (k.metaStamp b).trans (h.metaStamp b)
  metaEom b := (k.metaEom b).trans (h.metaEom b)
  metaValid b := (k.metaValid b).trans (h.metaValid b)
  status b i e := k.status b i (h.status b i e)

/-- Setting a bit of a side's status. -/
theorem setStatus (x : Mbx) (b : Bool) (i : Nat) :
    x.Grows (x.setSide b { sideOf x b with status := setBit (sideOf x b).status i true }) := by
  have side (c : Bool) : c = b ∨ c = !b := by cases b <;> cases c <;> simp
  constructor
  case words => simp
  case status =>
    intro c j h
    obtain rfl | rfl := side c
    · simpa using getLsbD_setBit_of_set _ i h
    · simpa using h
  all_goals
    intro c
    obtain rfl | rfl := side c <;> simp

/-- Giving a queue more words, whatever becomes of its open message and discard set. -/
theorem setTx (x : Mbx) (b : Bool) (q : Queue) (h : (txQueue x b).words <+: q.words) :
    x.Grows (x.setTx b q) := by
  constructor
  case words =>
    intro c
    obtain rfl | rfl : c = b ∨ c = !b := by cases b <;> cases c <;> simp
    · simpa using h
    · simp
  all_goals simp

end Mbx.Grows

theorem flagSide_grows (s : State) (m : Nat) (b : Bool) (i : Nat) :
    (mbxOf s m).Grows (mbxOf (flagSide s m b i) m) := by
  simpa using Mbx.Grows.setStatus (mbxOf s m) b i

theorem setTx_grows (s : State) (m : Nat) (b : Bool) (q : Queue)
    (h : (txQueue (mbxOf s m) b).words <+: q.words) :
    (mbxOf s m).Grows (mbxOf (updMbx s m (fun y => y.setTx b q)) m) := by
  simpa using Mbx.Grows.setTx (mbxOf s m) b q h

@[simp] theorem Queue.words_lose (q : Queue) (a : Nat) (eom : Bool) :
    (q.lose a eom).words = q.words := by
  cases eom <;> rfl

/-- A word that is written takes none out of a queue (R102, R119 to R121). -/
theorem enqueue_grows (s : State) (a m : Nat) (b : Bool) (v : Word) (eom : Bool) :
    (mbxOf s m).Grows (mbxOf (enqueue s a m b v eom) m) := by
  simp only [enqueue]
  split
  case isTrue => exact setTx_grows s m b _ (by cases eom <;> simp)
  split
  case isTrue => exact (setTx_grows s m b _ (by simp)).trans (flagSide_grows ..)
  split
  case isTrue => exact (setTx_grows s m b _ (by simp)).trans (flagSide_grows ..)
  split
  case isTrue => exact (setTx_grows s m b _ (by simp)).trans (flagSide_grows ..)
  case isFalse => exact setTx_grows s m b _ (by simp)

theorem placeReply_grows (s : State) (m : Nat) (w : List Word) :
    (mbxOf s m).Grows (mbxOf (placeReply s m w) m) := by
  fun_induction placeReply s m w with
  | case1 s m => exact .refl _
  | case2 s m w => exact enqueue_grows ..
  | case3 s m w r _ ih => exact (enqueue_grows ..).trans ih

theorem flushReply_grows (s : State) (m : Nat) :
    (mbxOf s m).Grows (mbxOf (flushReply s m) m) := by
  unfold flushReply
  split
  · exact .refl _
  · split
    · exact placeReply_grows (onFw s _) m _
    · exact .refl _

/-- Replies that are let go take nothing out of a queue (R156). -/
theorem flushReplies_grows (s : State) (m : Nat) :
    (mbxOf s m).Grows (mbxOf (flushReplies s m) m) := by
  unfold flushReplies
  split
  · exact List.foldlRecOn (motive := fun t => (mbxOf s m).Grows (mbxOf t m)) _ _ (.refl _)
      fun t ih _ _ => ih.trans (flushReply_grows t m)
  · exact .refl _

/-- A mailbox for which no reply is kept gets none (R156). -/
theorem flushReplies_of_none {s : State} {m : Nat} (h : takeReply s.fw.replies m = none) :
    flushReplies s m = s := by
  have one : flushReply s m = s := by simp [flushReply, h]
  unfold flushReplies
  split
  · exact List.foldlRecOn (motive := (· = s)) _ _ rfl fun t ih _ _ => by rw [ih, one]
  · rfl

/-! ### Taking a word -/

/-- The state in which a read of MB_RX_DATA has taken word `w` and left the words `r`, before a reply
that was kept for want of room goes into the queue (R107, R108). -/
def popped (s : State) (m : Nat) (b : Bool) (w : QWord) (r : List QWord) : State :=
  let q := txQueue (mbxOf s m) (!b)
  let t := updMbx s m (fun y => (y.setTx (!b) { q with words := r }).setSide b
    { sideOf (mbxOf s m) b with metaStamp := w.stamp, metaEom := w.eom, metaValid := true })
  if r.isEmpty && q.opened.isEmpty then flagSide t m (!b) iTX_EMPTY else t

theorem rxPop_of_cons {s : State} {m : Nat} {b : Bool} {w : QWord} {r : List QWord}
    (h : (txQueue (mbxOf s m) (!b)).words = w :: r) :
    rxPop s m b = (if b then popped s m b w r else flushReplies (popped s m b w r) m, w.data) := by
  simp only [rxPop, h, popped]

theorem rxPop_of_nil {s : State} {m : Nat} {b : Bool} (h : (txQueue (mbxOf s m) (!b)).words = []) :
    rxPop s m b = (flagSide (updMbx s m (fun y => y.setSide b
      { sideOf (mbxOf s m) b with metaValid := false })) m b iUNDERFLOW, 0) := by
  simp only [rxPop, h]

section popped
variable (s : State) (m : Nat) (b : Bool) (w : QWord) (r : List QWord)

theorem popped_fw : (popped s m b w r).fw = s.fw := by
  simp only [popped]
  split <;> simp

theorem txQueue_popped :
    txQueue (mbxOf (popped s m b w r) m) (!b) = { txQueue (mbxOf s m) (!b) with words := r } := by
  simp only [popped]
  split <;> simp

theorem sideOf_popped : sideOf (mbxOf (popped s m b w r) m) b =
    { sideOf (mbxOf s m) b with metaStamp := w.stamp, metaEom := w.eom, metaValid := true } := by
  simp only [popped]
  split <;> simp

/-- The last word to leave a queue flags its sender (R109). -/
theorem status_popped_of_last (hr : r = []) (ho : (txQueue (mbxOf s m) (!b)).opened = []) :
    (sideOf (mbxOf (popped s m b w r) m) (!b)).status.getLsbD 1 = true := by
  have flagged : (sideOf (mbxOf (popped s m b w r) m) (!b)).status =
      setBit (sideOf (mbxOf s m) (!b)).status iTX_EMPTY true := by simp [popped, hr, ho]
  rw [flagged]
  exact getLsbD_setBit_self _ (by decide)

end popped

/-- Replies that go into the queue after the word is taken only add to its mailbox. -/
theorem rxPop_grows_popped {s : State} {m : Nat} {b : Bool} {w : QWord} {r : List QWord}
    (h : (txQueue (mbxOf s m) (!b)).words = w :: r) :
    (mbxOf (popped s m b w r) m).Grows (mbxOf (rxPop s m b).1 m) := by
  rw [rxPop_of_cons h]
  cases b
  · exact flushReplies_grows ..
  · exact .refl _

/-- With no reply kept, a read only takes its word. -/
theorem rxPop_of_no_reply {s : State} {m : Nat} {b : Bool} {w : QWord} {r : List QWord}
    (h : (txQueue (mbxOf s m) (!b)).words = w :: r) (hn : takeReply s.fw.replies m = none) :
    rxPop s m b = (popped s m b w r, w.data) := by
  rw [rxPop_of_cons h, flushReplies_of_none (by rwa [popped_fw]), ite_self]

/-! ### The interrupt enables and the lock -/

/-- An access that a BAR0 offset leads to reaches the endpoint (R137, R144). -/
theorem hostReach_of_not_misses {s : State} {a m : Nat} {b : Bool}
    (h : hostMisses s a m b = false) (ha : a = 1) : hostReach s = true ∧ m < 8 := by
  simp [hostMisses, ha] at h
  exact ⟨h.1.1, h.1.2⟩

/-- A write to MB_IRQ_EN changes the enables of its side, and no other part of a mailbox (R110). -/
theorem mbxOf_irqEnWrite {s : State} {a m : Nat} {b : Bool} (hm : hostMisses s a m b = false)
    (hs : sideAllows m b a = true) (v : Word) (k : Nat) :
    mbxOf (irqEnWrite s a m b true v) k = mbxOf (updMbx s m (fun y =>
      y.setSide b { sideOf (mbxOf s m) b with enable := v.setWidth 8 })) k := by
  simp only [irqEnWrite, hm, hs]
  simp only [Bool.false_eq_true, if_false, Bool.and_self, if_true]
  split
  · split <;> simp
  · simp

/-- A read of MB_LOCK by an agent that may make it takes a free lock, or answers the owner's ID
(R112). -/
theorem mbLockRead_of_allowed {s : State} {a m : Nat} (hm : hostMisses s a m false = false)
    (hs : lockAllows m a = true) :
    mbLockRead s a m true =
      if (mbxOf s m).lock = 0 then
        (updMbx s m (fun y => { y with lock := BitVec.ofNat 4 a }), some 0)
      else (s, some ((mbxOf s m).lock.setWidth 32)) := by
  have hr : ¬ (a = 1 && !hostReach s) = true := by
    simpa using fun ha => (hostReach_of_not_misses hm ha).1
  have h8 : ¬ (decide (a = 1) && decide (8 ≤ m)) = true := by
    simpa using fun ha => (hostReach_of_not_misses hm ha).2
  rw [mbLockRead, if_neg hr, if_neg h8, if_pos (by simpa using hs)]

/-- A write to MB_LOCK by its owner or by debug frees it; any other changes nothing (R113). -/
theorem mbLockWrite_of_allowed {s : State} {a m : Nat} (hm : hostMisses s a m false = false)
    (hs : lockAllows m a = true) :
    mbLockWrite s a m true =
      if (mbxOf s m).lock.toNat = a ∨ a = 15 then updMbx s m (fun y => { y with lock := 0 })
      else s := by
  have hr : ¬ (a = 1 && (!hostReach s || decide (8 ≤ m))) = true := by
    simpa using fun ha => hostReach_of_not_misses hm ha
  rw [mbLockWrite, if_neg hr, if_pos (by simpa using hs)]

/-- A read of MB_RX_DATA by an agent that may make it takes a word (R107). -/
theorem rxRead_of_allowed {s : State} {a m : Nat} {b : Bool} (hm : hostMisses s a m b = false)
    (hs : sideAllows m b a = true) :
    rxRead s a m b true = ((rxPop s m b).1, some (rxPop s m b).2) := by
  have hr : ¬ (a = 1 && !hostReach s) = true := by
    simpa using fun ha => (hostReach_of_not_misses hm ha).1
  rw [rxRead, if_neg hr, hm, if_neg Bool.false_ne_true, if_pos (by simpa using hs)]

/-! ### The four commands -/

section commands
variable {s : State} {a : Agent} {m : Fin 24} {b : Bool}

/-- An agent whose island does not run makes no access to a mailbox (R247). -/
theorem exec_mailbox_of_not_out (h : agentOut s a = false) (v : Word) :
    exec (.mbRxData a m b true) s = .next s ∧ exec (.mbIrqEnWrite a m b true v) s = .next s ∧
    exec (.mbLockRead a m true) s = .next s ∧ exec (.mbLockWrite a m true) s = .next s :=
  ⟨congrArg _ (issue_of_not_out h _), congrArg _ (issue_of_not_out h _),
    congrArg _ (issue_of_not_out h _), congrArg _ (issue_of_not_out h _)⟩

theorem exec_mbIrqEnWrite_of_out (ho : agentOut s a = true) (v : Word) :
    exec (.mbIrqEnWrite a m b true v) s = .next (irqEnWrite s a m b true v) :=
  congrArg _ (issue_of_out ho _)

theorem exec_mbLockRead_of_out (ho : agentOut s a = true) :
    exec (.mbLockRead a m true) s = .next (answer? a (mbLockRead s a m true)) :=
  congrArg _ (issue_of_out ho _)

theorem exec_mbLockWrite_of_out (ho : agentOut s a = true) :
    exec (.mbLockWrite a m true) s = .next (mbLockWrite s a m true) :=
  congrArg _ (issue_of_out ho _)

theorem exec_mbRxData_of_allowed (ho : agentOut s a = true) (hm : hostMisses s a m b = false)
    (hs : sideAllows m b a = true) :
    exec (.mbRxData a m b true) s = .next (emit (rxPop s m b).1 (.word a (rxPop s m b).2)) := by
  refine (congrArg _ (issue_of_out ho _)).trans ?_
  rw [rxRead_of_allowed hm hs, answer?]

end commands

/-- Settles O13: what a read of MB_RX_DATA takes stays taken under the flags and the replies that
follow it (`Mbx.Grows`); the other three accesses change one register of the mailbox each. -/
theorem mailboxReadsAndLocksAnswer : Obligations.MailboxReadsAndLocksAnswer := by
  intro a m b v s x q
  refine ⟨fun h => exec_mailbox_of_not_out h v,
    fun ho hm hs => ⟨fun hq => ?empty, fun w r hq => ?word, ?enable⟩,
    fun ho hm hs => ⟨fun h0 => ?free, fun h0 => ?owned, fun hw => ?release, fun hn h15 => ?keep⟩⟩
  case empty =>
    refine ⟨_, exec_mbRxData_of_allowed ho hm hs, ?_⟩
    rw [rxPop_of_nil hq]
    simp [x, q, iUNDERFLOW]
  case word =>
    have grows := rxPop_grows_popped hq
    refine ⟨_, exec_mbRxData_of_allowed ho hm hs, ?_, ?_, fun hn => ?_, ?_, ?_, ?_, fun hr hop => ?_⟩
    · simp [rxPop_of_cons hq]
    · simpa [txQueue_popped] using grows.words (!b)
    · simpa [rxPop_of_no_reply hq hn] using txQueue_popped s m b w r
    · simpa [sideOf_popped] using grows.metaStamp b
    · simpa [sideOf_popped] using grows.metaEom b
    · simpa [sideOf_popped] using grows.metaValid b
    · exact grows.status (!b) 1 (status_popped_of_last s m b w r hr hop)
  case enable =>
    have mbx := mbxOf_irqEnWrite hm hs v
    exact ⟨_, exec_mbIrqEnWrite_of_out ho v, by simp [mbx, x], by simp [mbx, x], by simp [mbx, x],
      by simp [mbx, x], fun k hk => (mbx k).trans (mbxOf_updMbx_of_ne s _ hk)⟩
  case free => rw [exec_mbLockRead_of_out ho, mbLockRead_of_allowed hm hs, if_pos h0, answer?]
  case owned => rw [exec_mbLockRead_of_out ho, mbLockRead_of_allowed hm hs, if_neg h0, answer?]
  case release => rw [exec_mbLockWrite_of_out ho, mbLockWrite_of_allowed hm hs, if_pos hw]
  case keep =>
    rw [exec_mbLockWrite_of_out ho, mbLockWrite_of_allowed hm hs, if_neg (not_or.mpr ⟨hn, h15⟩)]

end Sys2Proof.Machine
end

section
/-! PROOFS. One doubleword of Basin (chapter 05, R203 to R205): what a read of a doubleword without
an error gives, and what a full write leaves. -/

open Sys2Proof

namespace Sys2Proof.Machine

/-! ### Bytes and numbers (R18) -/

@[simp] theorem length_leBytes (n v : Nat) : (leBytes n v).length = n := by
  induction n generalizing v with
  | zero => rfl
  | succ n ih => simp [leBytes, ih]

theorem leNat_leBytes (n v : Nat) : leNat (leBytes n v) = v % 256 ^ n := by
  induction n generalizing v with
  | zero => simp [leNat, leBytes, Nat.mod_one]
  | succ n ih =>
    have step : leNat (leBytes (n + 1) v) = leNat (leBytes n (v / 256)) * 256 + v % 256 := by
      simp [leNat, leBytes]
    rw [step, ih, Nat.pow_succ', Nat.mod_mul]
    omega

/-- The bytes stored are the bytes read. -/
theorem peek_poke (s : State) (a : Nat) (b : List Byte) : peek (poke s a b) a b.length = b := by
  apply List.ext_getElem
  · simp [peek]
  · intro i _ hi
    simp only [peek, List.getElem_map, List.getElem_range]
    exact Memory.byte_pokeList_inside s.basin.bytes a b hi

/-! ### One doubleword -/

/-- A doubleword of Basin holds the value put there. -/
theorem dwData_putDw (s : State) (d : Nat) (v : Dword) : dwData (putDw s d v) d = v := by
  have bytes : peek (putDw s d v) (8 * d) (leBytes 8 v.toNat).length = leBytes 8 v.toNat :=
    peek_poke s (8 * d) (leBytes 8 v.toNat)
  rw [length_leBytes] at bytes
  rw [dwData, bytes, leNat_leBytes]
  exact BitVec.eq_of_toNat_eq (by simpa using v.isLt)

theorem byte_putDw_of_outside (s : State) (d : Nat) (v : Dword) {x : Nat}
    (h : x < 8 * d ∨ 8 * d + 8 ≤ x) :
    Memory.byte (putDw s d v).basin.bytes x = Memory.byte s.basin.bytes x :=
  Memory.byte_pokeList_of_outside _ _ _ (by simpa using h)

theorem dwData_congr {s t : State} (h : t.basin.bytes = s.basin.bytes) (d : Nat) :
    dwData t d = dwData s d := by
  simp only [dwData, peek, byteAt, h]

/-- A doubleword without an error gives its data; only the copies of its tag are written back
(R204, R205). -/
theorem fetchDw_of_clean {s : State} {d : Nat} (ht : (dwTag s d).vote = false)
    (hs : dwSynd s d = 0) (a : Nat) :
    fetchDw s a d = (setTag s d {}, some (dwData s d), false) := by
  have tag : readTag s a d = (setTag s d {}, false) := by
    simp only [readTag, ht, Bool.false_eq_true, if_false]
  have synd : dwSynd (setTag s d {}) d = 0 := hs
  have clean : classify 0 = .clean := rfl
  simp only [fetchDw, tag, synd, clean, Bool.false_eq_true, if_false]
  rfl

/-- A full write where no injection is armed (R205). -/
theorem fullWrite_of_unarmed {s : State} {d : Nat} (h : (bankRegs s (bankOf (8 * d))).arm = false)
    (v : Dword) : fullWrite s d v = putDw (setTag s d {}) d v := by
  simp only [fullWrite, h, Bool.false_eq_true, if_false]

end Sys2Proof.Machine
end

section
/-! PROOFS. Weir (chapter 05, R214 to R225): its contexts and lock cells, the two operations, who
takes a lock cell and who gets it next, and the obligations O27 and O28. -/

open Sys2Proof

namespace Sys2Proof.Machine

/-! ### The contexts and the lock cells -/

@[simp] theorem ctxOf_updCtx_self (s : State) (a : Nat) (f : WeirCtx → WeirCtx) :
    ctxOf (updCtx s a f) a = f (ctxOf s a) := Tab.get_upd_self _ _ _ _

@[simp] theorem cellOf_setCell_self (s : State) (n : Nat) (c : LockCell) :
    cellOf (setCell s n c) n = c := Tab.get_set_self _ _ _ _

@[simp] theorem cellOf_weirSettle (s : State) (n : Nat) : cellOf (weirSettle s) n = cellOf s n := by
  rw [cellOf, (weirSettle_follows s).weir (by decide), cellOf]

/-! ### Starting an operation (R214, R215, R217, R218) -/

/-- A write to WR_CAS_GO by an agent of Weir, with BS0 running. -/
theorem casGo_of_weirAgent {s : State} {a : Nat} (ho : agentOut s a = true)
    (hr : running s (islBank 0) = true) (ha : weirAgent a = true) (op : Bool) :
    casGo s a op = weirTake s a (.go op) := by
  rw [casGo, issue_of_out ho]
  simp [hr, ha, weirGo]

theorem weirTake_go_of_idle {s : State} {a : Nat} (hb : (ctxOf s a).busy = none)
    (hw : (ctxOf s a).waits = []) (op : Bool) : weirTake s a (.go op) = weirStart s a op := by
  simp [weirTake, hb, hw]

theorem weirTake_go_of_engaged {s : State} {a : Nat}
    (h : (ctxOf s a).busy ≠ none ∨ (ctxOf s a).waits ≠ []) (op : Bool) :
    weirTake s a (.go op) = updCtx s a (fun c => { c with waits := c.waits ++ [.go op] }) := by
  have hold : (!(ctxOf s a).waits.isEmpty || (ctxOf s a).busy.isSome) = true := by
    rcases h with h | h
    · simp [Option.isSome_iff_ne_none.mpr h]
    · simp [h]
  simp [weirTake, hold]

/-- An operation on an address that is not 8-byte aligned ends BAD_ADDR (R217). -/
theorem weirStart_of_misaligned {s : State} {a : Nat} (h : (ctxOf s a).addr.toNat % 8 ≠ 0)
    (op : Bool) : weirStart s a op = weirEnd s a op 4 0 false := if_pos h

/-- An operation of an agent from 3 to 10 below 0x00400000 ends DENIED (R217). -/
theorem weirStart_of_barred {s : State} {a : Nat} (h : (ctxOf s a).addr.toNat % 8 = 0)
    (hb : 3 ≤ a ∧ a ≤ 10 ∧ (ctxOf s a).addr.toNat < 0x00400000) (op : Bool) :
    weirStart s a op = weirEnd s a op 5 0 false :=
  (if_neg (not_not.mpr h)).trans (if_pos hb)

/-- An operation that is not refused for its address goes to its bank, unless that is fenced
(R217). -/
theorem weirStart_of_allowed {s : State} {a : Nat} (h : (ctxOf s a).addr.toNat % 8 = 0)
    (hb : ¬ (3 ≤ a ∧ a ≤ 10 ∧ (ctxOf s a).addr.toNat < 0x00400000)) (op : Bool) :
    weirStart s a op =
      if running s (islBank (bankOf (ctxOf s a).addr.toNat)) then
        updCtx s a (fun c => { c with busy := some (op, (ctxOf s a).addr.toNat, c.cmp, c.new) })
      else weirEnd s a op 3 0 false := by
  refine (if_neg (not_not.mpr h)).trans ((if_neg hb).trans ?_)
  cases running s (islBank (bankOf (ctxOf s a).addr.toNat)) <;> rfl

/-! ### Completing an operation (R215, R216, R218) -/

/-- An operation stores: a swap always, a compare-and-swap where the comparison is equal. -/
def weirStores (s : State) (op : Bool) (ad : Nat) (cmp : Dword) : Bool :=
  op || decide (dwData s (ad / 8) = cmp)

/-- The state after the access of an operation to a doubleword without an error, before its result
is set: what it stores is a full write, and signals the moorings it touches (R649). -/
def weirWritten (s : State) (op : Bool) (ad : Nat) (cmp new : Dword) : State :=
  if weirStores s op ad cmp then
    signalWrite (fullWrite (setTag s (ad / 8) {}) (ad / 8) new) ad 8 [ad / 8]
  else setTag s (ad / 8) {}

theorem weirPerform_of_clean {s : State} {a ad : Nat} {op : Bool} {cmp new : Dword}
    (hr : running s (islBank (bankOf ad)) = true) (ht : (dwTag s (ad / 8)).vote = false)
    (hs : dwSynd s (ad / 8) = 0) :
    weirPerform s a op ad cmp new = weirEnd (weirWritten s op ad cmp new) a op
      (if weirStores s op ad cmp then 0 else 1) (dwData s (ad / 8)) false := by
  simp only [weirPerform, hr, fetchDw_of_clean ht hs, weirWritten, weirStores]
  cases op
  case true => simp
  case false => by_cases hc : dwData s (ad / 8) = cmp <;> simp [hc]

@[simp] theorem signalWrite_basin (s : State) (a n : Nat) (l : List Nat) :
    (signalWrite s a n l).basin = s.basin := (signalWrite_follows s a n l).basin (by decide)

@[simp] theorem dwData_signalWrite (s : State) (a n : Nat) (l : List Nat) (d : Nat) :
    dwData (signalWrite s a n l) d = dwData s d :=
  dwData_congr (congrArg Basin.bytes (signalWrite_basin s a n l)) d

@[simp] theorem ctxOf_signalWrite (s : State) (a n : Nat) (l : List Nat) (x : Nat) :
    ctxOf (signalWrite s a n l) x = ctxOf s x := by
  rw [ctxOf, (signalWrite_follows s a n l).weir (by decide), ctxOf]

@[simp] theorem ctxOf_fullWrite (s : State) (d : Nat) (v : Dword) (x : Nat) :
    ctxOf (fullWrite s d v) x = ctxOf s x := by
  rw [ctxOf, (fullWrite_follows s d v).weir (by decide), ctxOf]

/-- The access of an operation changes no context. -/
@[simp] theorem ctxOf_weirWritten (s : State) (op : Bool) (ad : Nat) (cmp new : Dword) (x : Nat) :
    ctxOf (weirWritten s op ad cmp new) x = ctxOf s x := by
  unfold weirWritten
  split
  case isTrue => simp only [ctxOf_signalWrite, ctxOf_fullWrite]; rfl
  case isFalse => rfl

theorem weirResume_of_no_waits {s : State} {a : Nat} (h : (ctxOf s a).waits = []) :
    weirResume s a = updCtx s a (fun c => { c with waits := [] }) := by
  simp only [weirResume, h, List.foldl_nil]

/-- What an operation leaves of a doubleword without an error, in a bank with no armed injection:
the new value where it stores, and every other byte as it was. -/
theorem basin_weirWritten {s : State} {op : Bool} {ad : Nat} {cmp new : Dword} (had : ad % 8 = 0)
    (harm : (bankRegs s (bankOf ad)).arm = false) :
    dwData (weirWritten s op ad cmp new) (ad / 8) =
        (if weirStores s op ad cmp then new else dwData s (ad / 8)) ∧
      ∀ x, x < ad ∨ ad + 8 ≤ x →
        Memory.byte (weirWritten s op ad cmp new).basin.bytes x = Memory.byte s.basin.bytes x := by
  have hd : 8 * (ad / 8) = ad := by omega
  unfold weirWritten
  by_cases h : weirStores s op ad cmp
  case neg =>
    rw [if_neg h, if_neg h]
    exact ⟨rfl, fun _ _ => rfl⟩
  case pos =>
    have arm : (bankRegs (setTag s (ad / 8) {}) (bankOf (8 * (ad / 8)))).arm = false := by
      rw [hd]; exact harm
    rw [if_pos h, if_pos h, fullWrite_of_unarmed arm]
    constructor
    · rw [dwData_signalWrite, dwData_putDw]
    · intro x hx
      rw [signalWrite_basin, byte_putDw_of_outside _ _ _ (by omega)]
      rfl

/-- The state after the last operation of a context completes without an error. -/
def weirFinished (s : State) (a : Nat) (op : Bool) (ad : Nat) (cmp new : Dword) : State :=
  updCtx (weirEnd (weirWritten s op ad cmp new) a op (if weirStores s op ad cmp then 0 else 1)
    (dwData s (ad / 8)) false) a (fun c => { c with waits := [] })

theorem ctxOf_weirFinished {s : State} {a : Nat} (hw : (ctxOf s a).waits = []) (op : Bool)
    (ad : Nat) (cmp new : Dword) :
    ctxOf (weirFinished s a op ad cmp new) a = { ctxOf s a with
      busy := none, old := dwData s (ad / 8), corrected := false, op := op,
      result := if weirStores s op ad cmp then 0 else 1 } := by
  cases h : weirStores s op ad cmp <;> simp [weirFinished, weirEnd, h, hw]

theorem exec_weirOperationDone_of_last {s : State} {a : Agent} {op : Bool} {ad : Nat}
    {cmp new : Dword} (hb : (ctxOf s a).busy = some (op, ad, cmp, new))
    (hw : (ctxOf s a).waits = []) (hr : running s (islBank (bankOf ad)) = true)
    (ht : (dwTag s (ad / 8)).vote = false) (hs : dwSynd s (ad / 8) = 0) :
    exec (.weirOperationDone a) s = .next (weirFinished s a op ad cmp new) := by
  have done : weirDone s a = weirResume (weirPerform s a op ad cmp new) a := by
    simp only [weirDone, hb]
  refine congrArg Host.Outcome.next (done.trans ?_)
  rw [weirPerform_of_clean hr ht hs, weirResume_of_no_waits (by simp [weirEnd, hw]), weirFinished]

/-! ### Handing a lock cell on (R224, R225) -/

/-- The RESERVEE of a cell that an agent hands on: 0 where nobody waits. -/
def heir (s : State) (waiters : BitVec 16) (by' : Nat) : BitVec 4 :=
  match chooseWaiter s waiters by' with
  | some w => BitVec.ofNat 4 w
  | none => 0

theorem handOn_eq (s : State) (n b : Nat) (c : LockCell) :
    handOn s n b c = setCell s n { c with owner := 0, reservee := heir s c.waiters b } := by
  cases h : chooseWaiter s c.waiters b <;> simp [handOn, heir, h]

/-- A reservation passes on (R225). -/
theorem lapseCell_of_reserved {s : State} {n : Nat} (h : (cellOf s n).reservee ≠ 0) :
    lapseCell s n =
      (let c := cellOf s n
       let left := setBit c.waiters c.reservee.toNat false
       setCell s n { c with
         owner := 0, waiters := left, reservee := heir s left c.reservee.toNat }) := by
  have h0 : (cellOf s n).reservee.toNat ≠ 0 := fun e => h (BitVec.eq_of_toNat_eq e)
  rw [lapseCell, if_neg h0, handOn_eq]

/-- A release by the owner or by debug frees the cell, or reserves it for the next (R223, R224). -/
theorem lockWrite_of_release {s : State} {a n : Nat} (h0 : (cellOf s n).owner ≠ 0)
    (h : (cellOf s n).owner.toNat = a ∨ a = 15) :
    lockWrite s a n = setCell s n { cellOf s n with
      owner := 0, reservee := heir s (cellOf s n).waiters a, broken := false } := by
  rw [lockWrite, if_pos ⟨h0, h⟩, releaseCell, handOn_eq]

/-- A write by neither the owner nor debug is ignored (R223). -/
theorem lockWrite_of_other {s : State} {a n : Nat} (ha : (cellOf s n).owner.toNat ≠ a)
    (hd : a ≠ 15) : lockWrite s a n = s := by
  simp [lockWrite, ha, hd]

/-! ### Reading a lock cell (R220) -/

theorem lockRead_of_free {s : State} {a n : Nat} (h0 : (cellOf s n).owner = 0)
    (hr : (cellOf s n).reservee = 0 ∨ (cellOf s n).reservee.toNat = a) :
    lockRead s a n = (setCell s n { cellOf s n with
      owner := BitVec.ofNat 4 a, reservee := 0,
      waiters := setBit (cellOf s n).waiters a false }, 0) := by
  have hr' : (cellOf s n).reservee.toNat = 0 ∨ (cellOf s n).reservee.toNat = a :=
    hr.imp_left (congrArg BitVec.toNat)
  exact if_pos ⟨congrArg BitVec.toNat h0, hr'⟩

theorem lockRead_of_own {s : State} {a n : Nat} (ha : a ≠ 0) (h : (cellOf s n).owner.toNat = a) :
    lockRead s a n = (s, w32 a) := by
  simp [lockRead, h, ha]

theorem lockRead_of_owned {s : State} {a n : Nat} (h0 : (cellOf s n).owner ≠ 0)
    (ha : (cellOf s n).owner.toNat ≠ a) :
    lockRead s a n = (setCell s n { cellOf s n with
      waiters := setBit (cellOf s n).waiters a true }, (cellOf s n).owner.setWidth 32) := by
  have h0' : (cellOf s n).owner.toNat ≠ 0 := fun e => h0 (BitVec.eq_of_toNat_eq e)
  simp [lockRead, h0', ha, w32]

theorem lockRead_of_reserved {s : State} {a n : Nat} (ha : a ≠ 0) (h0 : (cellOf s n).owner = 0)
    (hr : (cellOf s n).reservee ≠ 0) (hra : (cellOf s n).reservee.toNat ≠ a) :
    lockRead s a n = (setCell s n { cellOf s n with
      waiters := setBit (cellOf s n).waiters a true },
      (cellOf s n).reservee.setWidth 32 ||| 0x10) := by
  have hr' : (cellOf s n).reservee.toNat ≠ 0 := fun e => hr (BitVec.eq_of_toNat_eq e)
  simp [lockRead, h0, hr', hra, ha.symm, pack]

/-! ### The commands on a lock cell (R214, R232, R242, R247) -/

section commands
variable {s : State} {a : Agent} (n : Fin 1024)

theorem exec_lockCell_of_not_out (h : agentOut s a = false) :
    exec (.lockCellRead a n) s = .next s ∧ exec (.lockCellWrite a n) s = .next s :=
  ⟨congrArg _ (issue_of_not_out h _), congrArg _ (issue_of_not_out h _)⟩

theorem exec_lockCellRead_of_weirAgent (ho : agentOut s a = true)
    (hr : running s (islBank 0) = true) (ha : weirAgent a = true) :
    exec (.lockCellRead a n) s = .next (emit (weirSettle (lockRead (weirCatch s a) a n).1)
      (.word a (lockRead (weirCatch s a) a n).2)) := by
  refine (congrArg _ (issue_of_out ho _)).trans ?_
  simp [lockReadReg, hr, ha, answer]

theorem exec_lockCellWrite_of_weirAgent (ho : agentOut s a = true)
    (hr : running s (islBank 0) = true) (ha : weirAgent a = true) :
    exec (.lockCellWrite a n) s = .next (weirSettle (lockWrite (weirCatch s a) a n)) := by
  refine (congrArg _ (issue_of_out ho _)).trans ?_
  simp [lockWriteReg, hr, ha, answerW]

theorem exec_reservationLapse_of_running (hr : running s (islBank 0) = true) :
    exec (.reservationLapse n) s = .next (weirSettle (lapseCell s n)) :=
  congrArg _ (if_pos hr)

theorem exec_waiterLapse_of_running (hr : running s (islBank 0) = true) :
    exec (.waiterLapse a n) s = .next (weirSettle (setCell s n { cellOf s n with
      waiters := setBit (cellOf s n).waiters a false })) :=
  congrArg _ (if_pos hr)

end commands

theorem weirCatch_of_no_waits {s : State} {a : Nat} (h : (ctxOf s a).waits = []) :
    weirCatch s a = s := by
  simp [weirCatch, h]

/-- Neither agent 0 nor the host has a Weir context (R214). -/
theorem two_le_of_weirAgent {a : Nat} (h : weirAgent a = true) : 2 ≤ a := by
  simp [weirAgent] at h
  omega

/-- Settles O27: each command is an equation of its operation on the state (`weirStart_of_allowed`,
`exec_weirOperationDone_of_last`, `lockRead_of_free` and the rules beside them), case by case. -/
theorem weirSwapsDoublewordsAndKeepsLockCells :
    Obligations.WeirSwapsDoublewordsAndKeepsLockCells := by
  refine ⟨fun a s => ?operations, fun a n s => ?cells⟩
  case operations =>
    intro c ends go ho hr ha
    have exec_go (swap : Bool) : exec (go swap) s = .next (weirTake s a (.go swap)) := by
      rw [← casGo_of_weirAgent ho hr ha]
      cases swap <;> rfl
    refine ⟨fun swap hb hw => ?start, fun swap h => ?wait,
      fun swap ad cmp new hb hw had hk ht hs harm => ?done⟩
    case start =>
      rw [exec_go, weirTake_go_of_idle hb hw]
      refine ⟨fun h8 => ?_, fun h8 h3 h10 hlo => ?_, fun h8 hbar => ?_⟩
      · rw [weirStart_of_misaligned h8]; rfl
      · rw [weirStart_of_barred h8 ⟨h3, h10, hlo⟩]; rfl
      · rw [weirStart_of_allowed h8 hbar]; rfl
    case wait => rw [exec_go, weirTake_go_of_engaged h]
    case done =>
      obtain ⟨value, others⟩ := basin_weirWritten (op := swap) (cmp := cmp) (new := new) had harm
      exact ⟨_, exec_weirOperationDone_of_last hb hw hk ht hs,
        ctxOf_weirFinished hw swap ad cmp new, value, others⟩
  case cells =>
    intro v settled next hr ha
    have ha0 : a.val ≠ 0 := by have := two_le_of_weirAgent ha; omega
    refine ⟨?accesses, exec_lockCell_of_not_out n, ?lapses⟩
    case accesses =>
      intro c ho
      have read := exec_lockCellRead_of_weirAgent n ho hr ha
      have write := exec_lockCellWrite_of_weirAgent n ho hr ha
      refine ⟨weirCatch_of_no_waits, fun h0 h => ?free, fun h => ?own, fun h0 h => ?owned,
        fun h0 h1 h => ?reserved, fun h0 h => ?release, fun h0 h hd => ?other⟩
      case free => rw [read, lockRead_of_free h0 h]
      case own => rw [read, lockRead_of_own ha0 h]
      case owned => rw [read, lockRead_of_owned h0 h]
      case reserved => rw [read, lockRead_of_reserved ha0 h0 h1 h]
      case release => rw [write, lockWrite_of_release h0 h]; rfl
      case other => rw [write, lockWrite_of_other h hd]
    case lapses =>
      intro c
      refine ⟨fun h => ?_, exec_waiterLapse_of_running n hr⟩
      rw [exec_reservationLapse_of_running n hr, lapseCell_of_reserved h]
      rfl

/-! ### The choice among the waiters (R224) -/

/-- The place of an agent in the order of R224 after another: 0 for the nearest. -/
def lockPlace (from_ x : Nat) : Nat := (x + 13 - from_) % 14

theorem lockPlace_lockOrder {b : Nat} (h2 : 2 ≤ b) (h15 : b ≤ 15) :
    (lockOrder b).map (lockPlace b) = List.range 14 := by
  rw [lockOrder, List.map_map, List.map_congr_left (g := id), List.map_id]
  intro i hi
  have hi : i < 14 := List.mem_range.mp hi
  simp only [Function.comp_apply, lockPlace, id_eq]
  omega

theorem mem_lockOrder {b x : Nat} : x ∈ lockOrder b ↔ 2 ≤ x ∧ x ≤ 15 := by
  simp only [lockOrder, List.mem_map, List.mem_range]
  constructor
  · rintro ⟨i, hi, rfl⟩
    omega
  · rintro ⟨h2, h15⟩
    exact ⟨(x + 13 * (b - 2) + 11) % 14, by omega, by omega⟩

/-- An agent's bit in a cell's waiting set is set. -/
def Waits (waiters : BitVec 16) (x : Nat) : Prop := 2 ≤ x ∧ x ≤ 15 ∧ waiters.getLsbD x = true

/-- The waiting agents in the order of R224. -/
def waitersFrom (waiters : BitVec 16) (b : Nat) : List Nat :=
  (lockOrder b).filter (fun a => waiters.getLsbD a)

theorem mem_waitersFrom {waiters : BitVec 16} {b x : Nat} :
    x ∈ waitersFrom waiters b ↔ Waits waiters x := by
  rw [waitersFrom, List.mem_filter, mem_lockOrder, Waits, and_assoc]

/-- The waiting agents stand by rising place. -/
theorem waitersFrom_pairwise (waiters : BitVec 16) {b : Nat} (h2 : 2 ≤ b) (h15 : b ≤ 15) :
    (waitersFrom waiters b).Pairwise (fun x y => lockPlace b x < lockPlace b y) := by
  refine List.Pairwise.filter _ (List.pairwise_map.mp ?_)
  rw [lockPlace_lockOrder h2 h15]
  exact List.pairwise_lt_range

/-- The maximum that a fold gathers is 0 or one of the values, and bounds them all. -/
theorem foldl_max_spec (f : Nat → Nat) (l : List Nat) :
    l.foldl (fun m a => max m (f a)) 0 ∈ 0 :: l.map f ∧
      ∀ x ∈ l, f x ≤ l.foldl (fun m a => max m (f a)) 0 := by
  have top : (0 :: l.map f).max? = some (l.foldl (fun m a => max m (f a)) 0) := by
    rw [List.max?_cons', List.foldl_map]
  obtain ⟨mem, le⟩ := List.max?_eq_some_iff.mp top
  exact ⟨mem, fun x hx => le _ (List.mem_cons_of_mem _ (List.mem_map_of_mem hx))⟩

/-- In a list that is not empty, the search for the maximum ends at a member: none has a higher
value, and none before it has the same. -/
theorem exists_find?_max (f : Nat → Nat) {l : List Nat} {y : Nat} (hy : y ∈ l) :
    ∃ w before after, l.find? (fun x => f x = l.foldl (fun m a => max m (f a)) 0) = some w ∧
      l = before ++ w :: after ∧ (∀ x ∈ l, f x ≤ f w) ∧ ∀ x ∈ before, f x ≠ f w := by
  obtain ⟨mem, le⟩ := foldl_max_spec f l
  obtain ⟨m, hm, hmax⟩ : ∃ x ∈ l, f x = l.foldl (fun m a => max m (f a)) 0 := by
    rcases List.mem_cons.mp mem with h0 | h
    · exact ⟨y, hy, by have := le y hy; omega⟩
    · simpa using h
  obtain ⟨w, hw⟩ := Option.isSome_iff_exists.mp
    (List.find?_isSome (p := fun x => decide (f x = _)).mpr ⟨m, hm, decide_eq_true hmax⟩)
  obtain ⟨top, before, after, split, lower⟩ := List.find?_eq_some_iff_append.mp hw
  have top := of_decide_eq_true top
  refine ⟨w, before, after, hw, split, fun x hx => top ▸ le x hx, fun x hx => ?_⟩
  rw [top]
  simpa using lower x hx

/-- Nobody is chosen where nobody waits. -/
theorem chooseWaiter_of_nobody (s : State) {waiters : BitVec 16} (b : Nat)
    (h : ∀ x, ¬ Waits waiters x) : chooseWaiter s waiters b = none := by
  have empty : waitersFrom waiters b = [] :=
    List.eq_nil_iff_forall_not_mem.mpr (fun x hx => h x (mem_waitersFrom.mp hx))
  exact congrArg (List.find? _) empty

/-- Where somebody waits, the one chosen waits, nobody that waits has a higher priority, and nobody
of equal priority has an earlier place. -/
theorem chooseWaiter_of_waits (s : State) {waiters : BitVec 16} {b y : Nat} (h2 : 2 ≤ b)
    (h15 : b ≤ 15) (hy : Waits waiters y) :
    ∃ w, chooseWaiter s waiters b = some w ∧ Waits waiters w ∧ ∀ x, Waits waiters x →
      (ctxOf s x).prio.toNat ≤ (ctxOf s w).prio.toNat ∧
      ((ctxOf s x).prio.toNat = (ctxOf s w).prio.toNat → lockPlace b w ≤ lockPlace b x) := by
  obtain ⟨w, before, after, found, split, highest, lower⟩ :=
    exists_find?_max (fun x => (ctxOf s x).prio.toNat) (mem_waitersFrom (b := b).mpr hy)
  have rising := waitersFrom_pairwise waiters h2 h15
  rw [split] at rising
  have chosen : w ∈ waitersFrom waiters b := by simp [split]
  refine ⟨w, found, mem_waitersFrom.mp chosen, fun x hx => ?_⟩
  have hx := mem_waitersFrom (b := b).mpr hx
  refine ⟨highest x hx, fun heq => ?_⟩
  rw [split, List.mem_append, List.mem_cons] at hx
  rcases hx with early | rfl | late
  · exact absurd heq (lower x early)
  · exact Nat.le_refl _
  · obtain ⟨_, fromChosen, _⟩ := List.pairwise_append.mp rising
    exact Nat.le_of_lt (List.rel_of_pairwise_cons fromChosen late)

/-- Settles O28: the waiters stand in the order of R224 (`waitersFrom_pairwise`), and the first of
those with the highest priority is taken. -/
theorem aReleaseChoosesTheFirstOfTheHighestWaiters :
    Obligations.AReleaseChoosesTheFirstOfTheHighestWaiters := by
  intro a n s v ho hr ha hown
  have h2 : 2 ≤ a.val := two_le_of_weirAgent ha
  have h15 : a.val ≤ 15 := by omega
  have owned : (cellOf v n).owner ≠ 0 := by
    intro e
    rw [e] at hown
    have zero : 0 = a.val := hown
    omega
  have write := exec_lockCellWrite_of_weirAgent n ho hr ha
  rw [lockWrite_of_release owned (.inl hown)] at write
  refine ⟨_, write, by simp, ?_⟩
  simp only [cellOf_weirSettle, cellOf_setCell_self]
  constructor
  · intro nobody
    rw [heir, chooseWaiter_of_nobody v a nobody]
    rfl
  · intro y hy
    obtain ⟨w, hw, waits, best⟩ := chooseWaiter_of_waits v h2 h15 hy
    have id : (heir v (cellOf v n).waiters a).toNat = w := by
      obtain ⟨_, hle, _⟩ := waits
      rw [heir, hw]
      exact (BitVec.toNat_ofNat w 4).trans (Nat.mod_eq_of_lt (by omega))
    rw [id]
    exact ⟨waits, best⟩

end Sys2Proof.Machine
end

section
/-! PROOFS. Raster writes and flips (chapters 07 and 08, R290, R293 to R298, R303, R307, R364): where
the beam is, the effect line of a raster write, who reaches a Towpath register, and the obligation
O33. -/

open Sys2Proof

namespace Sys2Proof.Machine

/-! ### The access to a register (R247, R793) -/

section reach
variable {s : State} {a : Nat} (ad : Nat) {ok up store : Bool} (f : State → State)

theorem reach_of_not_out (h : agentOut s a = false) : reach s a ad ok up store f = s :=
  issue_of_not_out h _

theorem reach_of_barred (ho : agentOut s a = true) (hok : ok = false) :
    reach s a ad ok up store f = errTo s a ad false store .unmapped := by
  simp [reach, issue_of_out ho, hok]

theorem reach_of_fenced (ho : agentOut s a = true) (hok : ok = true) (hup : up = false) :
    reach s a ad ok up store f = errTo s a ad false store .fenced := by
  simp [reach, issue_of_out ho, hok, hup]

theorem reach_of_allowed (ho : agentOut s a = true) (hok : ok = true) (hup : up = true) :
    reach s a ad ok up store f = f s := by
  simp [reach, issue_of_out ho, hok, hup]

end reach

/-- An error completion to an agent that is not the Lockkeeper core only leaves the device. -/
theorem errTo_of_ne {a : Nat} (h : a ≠ 2) (s : State) (ad : Nat) (basin store : Bool) (e : Err) :
    errTo s a ad basin store e = emit s (.error a e) := if_neg h

/-- The Lockkeeper core is one of the agents that write Towpath's registers (R298). -/
theorem ne_two_of_not_scriptAgent {a : Nat} (h : scriptAgent a = false) : a ≠ 2 := by
  rintro rfl
  contradiction

/-! ### The beam (R288 to R290) -/

theorem Scene.period_pos (c : Scene) : 0 < c.period := by
  unfold Scene.period ratePeriod
  split <;> decide

/-- R289 without its rounding down. -/
theorem Scene.lineTick_le_iff {c : Scene} (hT : 0 < c.total) (l r : Nat) :
    c.lineTick l ≤ r ↔ l * c.period < (r + 1) * c.total :=
  Nat.lt_succ_iff.symm.trans (Nat.div_lt_iff_lt_mul hT)

theorem Scene.lineTick_le_period {c : Scene} {l : Nat} (h : l ≤ c.total) :
    c.lineTick l ≤ c.period :=
  Nat.div_le_of_le_mul (Nat.mul_le_mul_right _ h)

/-- The beam is in the line whose interval holds the tick (R290). -/
theorem Scene.beam_of_tickOf {c : Scene} {start : Dword} {n b t : Nat} (hs : c.start = some start)
    (hb : b < c.total) (begun : c.tickOf n b ≤ t) (notOver : t < c.tickOf n (b + 1)) :
    c.beam t = some (n, b) := by
  have hT : 0 < c.total := by omega
  obtain ⟨r, rfl⟩ : ∃ r, t = start.toNat + n * c.period + r :=
    Nat.exists_eq_add_of_le (by simp only [Scene.tickOf, Scene.frameTick, hs] at begun; omega)
  simp only [Scene.tickOf, Scene.frameTick, hs, Nat.add_le_add_iff_left,
    Nat.add_lt_add_iff_left] at begun notOver
  have inFrame : r < c.period := notOver.trans_le (Scene.lineTick_le_period hb)
  have after : b * c.period < (r + 1) * c.total := (Scene.lineTick_le_iff hT b r).mp begun
  have before : (r + 1) * c.total ≤ (b + 1) * c.period :=
    Nat.not_lt.mp (mt (Scene.lineTick_le_iff hT (b + 1) r).mpr (Nat.not_le.mpr notOver))
  have elapsed : start.toNat + n * c.period + r - start.toNat = r + c.period * n := by
    rw [Nat.mul_comm]
    omega
  have line : ((r + 1) * c.total - 1) / c.period = b :=
    Nat.div_eq_of_lt_le (by omega) (by omega)
  simp only [Scene.beam, hs, elapsed, Nat.add_mul_div_left r n c.period_pos,
    Nat.add_mul_mod_self_left, Nat.div_eq_of_lt inFrame, Nat.mod_eq_of_lt inFrame, line,
    Nat.zero_add]
  exact if_neg (by omega)

/-- A frame-latched change that arrives in frame n latches at the start of the next (R301). -/
theorem Scene.nextStart_of_beam {c : Scene} {t n b : Nat} (h : c.beam t = some (n, b)) :
    c.nextStart t = n + 1 := by
  simp only [Scene.nextStart, h]

/-! ### The effect line (R294, R295) -/

/-- A raster write in beam line b under a TP_WHEN comes too late for the line it names (R294). -/
def When.late (w : When) (b : Nat) : Bool :=
  w.en && !w.nextFrame && decide (w.line.toNat ≤ b)

/-- The place of the effect line of a raster write in line b of frame n under a TP_WHEN (R294). -/
def Scene.effectPlace (c : Scene) (w : When) (n b : Nat) : Nat :=
  if !w.en then c.pos (n, b) + 1
  else if w.nextFrame then c.pos (n + 1, w.line.toNat)
  else if b < w.line.toNat then c.pos (n, w.line.toNat)
  else c.pos (n, b) + 1

/-- TP_WHEN names a line the scene does not have (R294). -/
theorem Scene.effect_of_no_line {c : Scene} {w : When}
    (h : (w.en && decide (c.total ≤ w.line.toNat)) = true) (t : Nat) : c.effect t w = none :=
  if_pos h

/-- The line after the beam's: line 0 of the next frame after the last one (R294). -/
theorem Scene.pos_next (c : Scene) (n b : Nat) :
    c.pos (if b + 1 = c.total then (n + 1, 0) else (n, b + 1)) = c.pos (n, b) + 1 := by
  split
  · next last => simp [Scene.pos, Nat.succ_mul, ← last, Nat.add_assoc]
  · simp [Scene.pos, Nat.add_assoc]

/-- A raster write under a TP_WHEN that names a line of the scene takes a line of the scene, at the
place that R294 gives. -/
theorem Scene.effect_of_beam {c : Scene} {t n b : Nat} {w : When} (h : c.beam t = some (n, b))
    (hb : b < c.total) (hw : (w.en && decide (c.total ≤ w.line.toNat)) = false) :
    ∃ f, c.effect t w = some (f, w.late b) ∧ f.2 < c.total ∧ c.pos f = c.effectPlace w n b := by
  have nextInside : (if b + 1 = c.total then (n + 1, 0) else (n, b + 1) : FL).2 < c.total := by
    split
    · exact Nat.zero_lt_of_lt hb
    · exact Nat.lt_of_le_of_ne hb ‹_›
  simp only [Scene.effect, Scene.effectPlace, When.late, hw, h, Bool.false_eq_true, if_false]
  cases en : w.en
  case false => exact ⟨_, rfl, nextInside, c.pos_next n b⟩
  case true =>
    have inside : w.line.toNat < c.total := by simpa [en] using hw
    cases w.nextFrame
    case true => exact ⟨_, rfl, inside, rfl⟩
    case false =>
      rcases Nat.lt_or_ge b w.line.toNat with ahead | behind
      · exact ⟨(n, w.line.toNat), by simp [ahead], inside, by simp [ahead]⟩
      · exact ⟨_, by simp [Nat.not_lt.mpr behind, behind.le], nextInside,
          by simp [Nat.not_lt.mpr behind, c.pos_next n b]⟩

/-! ### A raster write reaches a scene (R295, R297, R298, R307) -/

/-- What every raster write leaves in TP_SC_STATUS and TP_SC_COUNTS (R295, R298). -/
def Scene.noteWrite (c : Scene) (agent : Nat) (late : Bool) : Scene :=
  let c := { c with lastAgent := BitVec.ofNat 4 agent }
  if late then { c with late := true, cntLate := satAdd c.cntLate 1 } else c

section raster
variable {c : Scene} {t : Nat} {w : When} {f : FL} {late : Bool} (agent : Nat) (reg : Option Nat)
  (v : Word)

theorem Scene.raster_of_no_effect (h : c.effect t w = none) :
    c.raster t w agent reg v = { c.noteWrite agent false with wrDrop := true } := by
  have h' : Scene.effect { c with lastAgent := BitVec.ofNat 4 agent } t w = none := h
  simp only [Scene.raster, h']
  rfl

/-- A raster write that finds the 64 entries in use (R297). -/
theorem Scene.raster_of_full (h : c.effect t w = some (f, late)) (full : 64 ≤ c.writes.length) :
    c.raster t w agent reg v =
      { c.noteWrite agent late with wrDrop := true, wrDropped := c.wrDropped + 1 } := by
  have h' : Scene.effect { c with lastAgent := BitVec.ofNat 4 agent } t w = some (f, late) := h
  simp only [Scene.raster, h']
  cases late <;> exact if_pos full

/-- A raster write that is held rolls the scene back from its effect line (R307). -/
theorem Scene.raster_of_room (h : c.effect t w = some (f, late)) (room : c.writes.length < 64) :
    c.raster t w agent reg v = Scene.rollback { c.noteWrite agent late with
      writes := c.writes ++ [{ frame := f.1, line := f.2, reg := reg, val := v }] } (c.pos f) := by
  have h' : Scene.effect { c with lastAgent := BitVec.ofNat 4 agent } t w = some (f, late) := h
  simp only [Scene.raster, h']
  cases late <;> exact if_neg (Nat.not_le.mpr room)

end raster

theorem Scene.frame_eq_pos_div {c : Scene} {f : FL} (h : f.2 < c.total) :
    f.1 = c.pos f / c.total := by
  rw [Scene.pos, Nat.add_comm, Nat.add_mul_div_right _ _ (Nat.zero_lt_of_lt h),
    Nat.div_eq_of_lt h, Nat.zero_add]

theorem Scene.line_eq_pos_mod {c : Scene} {f : FL} (h : f.2 < c.total) :
    f.2 = c.pos f % c.total := by
  rw [Scene.pos, Nat.mul_add_mod_self_right, Nat.mod_eq_of_lt h]

/-- A raster write by where the beam is (R293 to R298, R307). -/
theorem Scene.raster_of_beam {c : Scene} {t n b : Nat} (h : c.beam t = some (n, b))
    (hb : b < c.total) (w : When) (agent : Nat) (reg : Option Nat) (v : Word) :
    c.raster t w agent reg v =
      if w.en && decide (c.total ≤ w.line.toNat) then
        { c.noteWrite agent false with wrDrop := true }
      else if 64 ≤ c.writes.length then
        { c.noteWrite agent (w.late b) with wrDrop := true, wrDropped := c.wrDropped + 1 }
      else Scene.rollback { c.noteWrite agent (w.late b) with writes := c.writes ++
          [{ frame := c.effectPlace w n b / c.total, line := c.effectPlace w n b % c.total,
             reg := reg, val := v }] } (c.effectPlace w n b) := by
  split
  · next noLine =>
    exact Scene.raster_of_no_effect agent reg v (Scene.effect_of_no_line noLine t)
  · next line =>
    obtain ⟨f, effect, inside, place⟩ :=
      Scene.effect_of_beam h hb (Bool.eq_false_of_not_eq_true line)
    rw [← place, ← Scene.frame_eq_pos_div inside, ← Scene.line_eq_pos_mod inside]
    split
    · next full => exact Scene.raster_of_full agent reg v effect full
    · next room => exact Scene.raster_of_room agent reg v effect (Nat.not_le.mp room)

/-! ### The commands (R293, R303, R364) -/

theorem exec_rasterWrite_of_leMask {reg : Fin 256} {mask : Word} (h : leMask reg = some mask)
    (a : Agent) (i : Fin 2048) (v : Word) (s : State) :
    exec (.rasterWrite a i reg v) s = .next (tpReach s a (0x100000 + 0x400 * i + 4 * reg)
      (fun s => rasterWrite s a i (some reg) (v &&& mask))) := by
  have held : (leMask reg).isSome = true := by simp [h]
  refine (if_pos held).trans ?_
  simp only [sceneRegWrite, h]

theorem exec_tpScRedraw (a : Agent) (i : Fin 2048) (s : State) :
    exec (.tpScRedraw a i) s = .next (tpReach s a (0x100038 + 0x400 * i)
      (fun s => rasterWrite s a i none 0)) := rfl

theorem exec_tpScFlip (a : Agent) (i : Fin 2048) (s : State) :
    exec (.tpScFlip a i) s = .next (tpReach s a (0x100208 + 0x400 * i)
      (fun s => flipWrite s i)) := rfl

/-- Settles O33: the beam line that holds the tick (`Scene.beam_of_tickOf`) gives the effect line
(`Scene.effect_of_beam`), and with it the raster write (`Scene.raster_of_beam`). -/
theorem rasterWritesAndFlipsReachTheirScene : Obligations.RasterWritesAndFlipsReachTheirScene := by
  intro a i reg v mask start c n b s w line next late place back seen raster base held
  rw [exec_rasterWrite_of_leMask held, exec_tpScRedraw, exec_tpScFlip]
  refine ⟨fun out => ?dropped, fun out barred => ?barred, fun out may fenced => ?fenced,
    fun out may up => ⟨fun absent => ?noScene, fun found started inside begun notOver => ?reached⟩⟩
  case dropped => simp only [tpReach, reach_of_not_out _ _ out, and_self]
  case barred =>
    rw [tpReach, reach_of_barred _ _ out barred, errTo_of_ne (ne_two_of_not_scriptAgent barred)]
  case fenced =>
    simp only [tpReach, reach_of_fenced _ _ out may fenced]
    refine ⟨?_, ?_, ?_⟩ <;> congr 2 <;> omega
  case noScene =>
    rw [tpReach, reach_of_allowed _ _ out may up, rasterWrite, updScene_of_none _ absent]
  case reached =>
    have beam : c.beam s.tick.toNat = some (n, b) :=
      Scene.beam_of_tickOf started inside begun notOver
    have written (r : Option Nat) (x : Word) : c.raster s.tick.toNat w a r x = raster r x := by
      rw [Scene.raster_of_beam beam inside]
      rfl
    have flipped : c.latch s.tick.toNat (fun n => .flip n c.shadow c.flipFence c.flipValue) =
        back { c with latches := c.latches ++ [.flip (n + 1) c.shadow c.flipFence c.flipValue] }
          ((n + 1) * c.total) := by
      rw [Scene.latch, Scene.nextStart_of_beam beam]
      rfl
    simp only [tpReach, reach_of_allowed _ _ out may up, rasterWrite, flipWrite,
      updScene_of_some _ found]
    exact ⟨congrArg _ (congrArg _ (written _ _)), congrArg _ (congrArg _ (written _ _)),
      congrArg _ (congrArg _ flipped)⟩

end Sys2Proof.Machine
end

section
/-! PROOFS. Reading and writing Basin leaves the user blocks alone (chapters 04 and 05, R172, R204,
R206, R249): an error found on the way posts a record, and a full staging queue only counts a drop. -/

open Sys2Proof

namespace Sys2Proof.Machine

theorem keepDrop_blocks (s : State) (h : Word) : (keepDrop s h).fw.blocks = s.fw.blocks := by
  unfold keepDrop
  split
  · split <;> rfl
  · split <;> rfl

theorem postRec_blocks (s : State) (island type : Nat) (source payload moor : Word) :
    (postRec s island type source payload moor).fw.blocks = s.fw.blocks := by
  unfold postRec stage
  split
  · exact congrArg Fw.blocks ((stagingLevel_follows _).fw (by decide))
  · exact keepDrop_blocks _ _

theorem poisonDw_blocks (s : State) (agent d : Nat) (syn : Byte) :
    (poisonDw s agent d syn).fw.blocks = s.fw.blocks :=
  postRec_blocks ..

theorem readTag_blocks (s : State) (agent d : Nat) :
    (readTag s agent d).1.fw.blocks = s.fw.blocks := by
  unfold readTag
  dsimp only
  split
  · split
    · rfl
    · exact poisonDw_blocks ..
  · rfl

theorem fetchDw_blocks (s : State) (agent d : Nat) :
    (fetchDw s agent d).1.fw.blocks = s.fw.blocks := by
  have tag := readTag_blocks s agent d
  unfold fetchDw
  dsimp only
  split
  · exact tag
  · split
    · exact tag
    · exact tag
    · exact tag
    · exact (poisonDw_blocks ..).trans tag

theorem readDws_blocks (fuel : Nat) (s : State) (agent a n : Nat) :
    (readDws fuel s agent a n).1.fw.blocks = s.fw.blocks := by
  induction fuel generalizing s a n with
  | zero => rfl
  | succ fuel ih =>
    unfold readDws
    dsimp only
    split
    · rfl
    · split <;> exact (ih ..).trans (fetchDw_blocks ..)

theorem readReq_blocks (s : State) (agent a n : Nat) :
    (readReq s agent a n).1.fw.blocks = s.fw.blocks := by
  have read := readDws_blocks n s agent a n
  unfold readReq
  split
  · rfl
  · split <;> next h => rwa [h] at read

theorem readMany_blocks (fuel : Nat) (s : State) (agent a n : Nat) :
    (readMany fuel s agent a n).1.fw.blocks = s.fw.blocks := by
  induction fuel generalizing s a n with
  | zero => rfl
  | succ fuel ih =>
    unfold readMany
    dsimp only
    split
    · rfl
    · split <;> exact (ih ..).trans (readReq_blocks ..)

theorem readMem_blocks (s : State) (agent a n : Nat) :
    (readMem s agent a n).1.fw.blocks = s.fw.blocks :=
  readMany_blocks ..

theorem readWord_blocks (s : State) (agent a : Nat) :
    (readWord s agent a).1.fw.blocks = s.fw.blocks := by
  have read := readReq_blocks s agent a 4
  unfold readWord
  split <;> next h => rwa [h] at read

theorem writeDw_blocks (s : State) (agent d off : Nat) (b : List Byte) :
    (writeDw s agent d off b).1.fw.blocks = s.fw.blocks := by
  have read := fetchDw_blocks s agent d
  unfold writeDw
  split
  · exact congrArg Fw.blocks ((fullWrite_follows ..).fw (by decide))
  · split <;> next h => rwa [h] at read

theorem writeDws_blocks (fuel : Nat) (s : State) (agent a : Nat) (b : List Byte) :
    (writeDws fuel s agent a b).1.fw.blocks = s.fw.blocks := by
  induction fuel generalizing s a b with
  | zero => rfl
  | succ fuel ih =>
    unfold writeDws
    dsimp only
    split
    · rfl
    · exact (ih ..).trans (writeDw_blocks ..)

theorem writeReq_blocks (s : State) (agent a : Nat) (b : List Byte) :
    (writeReq s agent a b).1.fw.blocks = s.fw.blocks := by
  unfold writeReq
  dsimp only
  split
  · rfl
  · exact (congrArg Fw.blocks ((signalWrite_follows ..).fw (by decide))).trans
      (writeDws_blocks ..)

end Sys2Proof.Machine
end

section
/-! PROOFS. Reading Basin where no doubleword has an error (chapter 05, R204, R205, R208): the bytes
stored are read, and only the copies of tags are written back. -/

open Sys2Proof

namespace Sys2Proof.Machine

/-! ### Bytes of a doubleword (R18) -/

theorem leBytes_leNat (b : List Byte) : leBytes b.length (leNat b) = b := by
  induction b with
  | nil => rfl
  | cons x r ih =>
    have number : leNat (x :: r) = leNat r * 256 + x.toNat := rfl
    have low : BitVec.ofNat 8 (leNat (x :: r)) = x := by
      apply BitVec.eq_of_toNat_eq
      rw [number, BitVec.toNat_ofNat]
      omega
    have high : leNat (x :: r) / 256 = leNat r := by
      rw [number]
      omega
    rw [List.length_cons, leBytes, low, high, ih]

theorem leNat_lt (b : List Byte) : leNat b < 256 ^ b.length := by
  induction b with
  | nil => exact Nat.one_pos
  | cons x r ih =>
    have number : leNat (x :: r) = leNat r * 256 + x.toNat := rfl
    rw [number, List.length_cons, Nat.pow_succ]
    omega

@[simp] theorem length_peek (s : State) (a n : Nat) : (peek s a n).length = n := by simp [peek]

theorem leBytes_dwData (s : State) (d : Nat) :
    leBytes 8 (dwData s d).toNat = peek s (8 * d) 8 := by
  have bound := leNat_lt (peek s (8 * d) 8)
  have spelled := leBytes_leNat (peek s (8 * d) 8)
  rw [length_peek] at bound spelled
  have number : (dwData s d).toNat = leNat (peek s (8 * d) 8) := Nat.mod_eq_of_lt bound
  rw [number, spelled]

/-- A part of a run of bytes. -/
theorem take_drop_peek (s : State) (a : Nat) {off k n : Nat} (h : off + k ≤ n) :
    ((peek s a n).drop off).take k = peek s (a + off) k := by
  apply List.ext_getElem
  · simp
    omega
  · intro i _ _
    simp [peek, Nat.add_assoc]

theorem peek_append (s : State) (a k n : Nat) : peek s a k ++ peek s (a + k) n = peek s a (k + n) := by
  simp [peek, List.range_add, Nat.add_assoc]

theorem peek_congr {s t : State} (h : t.basin.bytes = s.basin.bytes) (a n : Nat) :
    peek t a n = peek s a n := by
  simp only [peek, byteAt, h]

/-! ### What reads of clean doublewords leave -/

/-- No doubleword of Basin has an error. -/
def CleanBasin (s : State) : Prop := ∀ d, (dwTag s d).vote = false ∧ dwSynd s d = 0

/-- `t` is `s` after reads of doublewords without an error: only tags were written back (R204), and
still no doubleword has an error. -/
structure Scrubbed (s t : State) : Prop where
  clean : CleanBasin t
  only : t = onBasin s (fun b => { b with tags := t.basin.tags })

namespace Scrubbed

variable {s t u : State}

theorem refl (h : CleanBasin s) : Scrubbed s s := ⟨h, rfl⟩

theorem trans (h : Scrubbed s t) (g : Scrubbed t u) : Scrubbed s u :=
  ⟨g.clean, g.only.trans ((congrArg (fun x =>
    onBasin x (fun b => { b with tags := u.basin.tags })) h.only).trans rfl)⟩

theorem bytes (h : Scrubbed s t) : t.basin.bytes = s.basin.bytes :=
  congrArg (fun x => x.basin.bytes) h.only

theorem fw (h : Scrubbed s t) : t.fw = s.fw := (congrArg State.fw h.only).trans rfl

theorem tp (h : Scrubbed s t) : t.tp = s.tp := (congrArg State.tp h.only).trans rfl

theorem islands (h : Scrubbed s t) : t.islands = s.islands := (congrArg State.islands h.only).trans rfl

end Scrubbed

theorem scrubbed_setTag {s : State} (h : CleanBasin s) (d : Nat) : Scrubbed s (setTag s d {}) := by
  refine ⟨fun x => ⟨?_, (h x).2⟩, rfl⟩
  by_cases same : x = d
  · subst same
    have cleared : dwTag (setTag s x {}) x = {} :=
      Tab.get_set_self ({} : Tag) s.basin.tags x {}
    rw [cleared]
    rfl
  · have kept : dwTag (setTag s d {}) x = dwTag s x :=
      Tab.get_set_of_ne ({} : Tag) s.basin.tags {} same
    rw [kept]
    exact (h x).1

theorem readDws_of_clean {fuel : Nat} {s : State} (h : CleanBasin s) (agent a : Nat) {n : Nat}
    (enough : n ≤ fuel) :
    ∃ t, readDws fuel s agent a n = (t, some (peek s a n)) ∧ Scrubbed s t := by
  induction fuel generalizing s a n with
  | zero =>
    obtain rfl : n = 0 := by omega
    exact ⟨s, rfl, .refl h⟩
  | succ fuel ih =>
    by_cases empty : n = 0
    · subst empty
      exact ⟨s, rfl, .refl h⟩
    have first := scrubbed_setTag h (a / 8)
    obtain ⟨t, rest, scrubbed⟩ := ih first.clean (a + min (8 - a % 8) n)
      (n := n - min (8 - a % 8) n) (by omega)
    refine ⟨t, ?_, first.trans scrubbed⟩
    have here : ((leBytes 8 (dwData s (a / 8)).toNat).drop (a % 8)).take (min (8 - a % 8) n) =
        peek s a (min (8 - a % 8) n) := by
      rw [leBytes_dwData, take_drop_peek _ _ (by omega), Nat.div_add_mod]
    simp only [readDws, empty, if_false, fetchDw_of_clean (h (a / 8)).1 (h (a / 8)).2, rest, here,
      peek_congr first.bytes, peek_append]
    rw [Nat.add_sub_cancel' (Nat.min_le_right _ _)]

/-- A word read from a running bank (R205, R208). -/
theorem readWord_of_clean {s : State} (h : CleanBasin s) (agent : Nat) {a : Nat}
    (up : running s (islBank (bankOf a)) = true) :
    ∃ t, readWord s agent a = (t, some (leWord (peek s a 4))) ∧ Scrubbed s t := by
  obtain ⟨t, read, scrubbed⟩ := readDws_of_clean h agent a (Nat.le_refl 4)
  refine ⟨t, ?_, scrubbed⟩
  simp only [readWord, readReq, up, Bool.not_true, Bool.false_eq_true, if_false, read]

end Sys2Proof.Machine
end

section
/-! PROOFS. The blitter finds and opens entries (chapter 09, R384 to R389, R401): a look at one
mooring, a poll, the choice of an entry, what is decided before any pixel, and the obligation
O35. -/

open Sys2Proof

namespace Sys2Proof.Machine

@[simp] theorem onBlt_fw (s : State) (f : Blitter → Blitter) : (onBlt s f).fw = s.fw := rfl
@[simp] theorem onBlt_basin (s : State) (f : Blitter → Blitter) : (onBlt s f).basin = s.basin := rfl
@[simp] theorem onBlt_blt (s : State) (f : Blitter → Blitter) : (onBlt s f).tp.blt = f s.tp.blt := rfl

/-! ### Looking at PROD (R385) -/

theorem bltLook_of_readWord {s u : State} {i : Nat} {m : Moor} {w : Word}
    (found : Tab.find? s.fw.moorings i = some m) (kind : m.kind = 1)
    (read : readWord s 12 m.cb = (u, some w)) :
    bltLook s i = onBlt u (fun b => { b with seen := Tab.put b.seen i w }) := by
  simp only [bltLook, found, kind, ne_eq, not_true_eq_false, if_false, read]

theorem bltLook_of_not_blt {s : State} {i : Nat}
    (other : ∀ m, Tab.find? s.fw.moorings i = some m → m.kind ≠ 1) : bltLook s i = s := by
  unfold bltLook
  split
  · rfl
  · next m found => exact if_pos (other m found)

/-- PROD of a mooring. -/
def Moor.prod (s : State) (m : Moor) : Word := leWord (peek s m.cb 4)

/-- Every bank runs. -/
def BanksRun (s : State) : Prop := ∀ n : Fin 4, running s (islBank n) = true

/-- `t` is `s` after looks at moorings that met no error. -/
structure Looked (s t : State) : Prop where
  clean : CleanBasin t
  bytes : t.basin.bytes = s.basin.bytes
  moorings : t.fw.moorings = s.fw.moorings
  islands : t.islands = s.islands

theorem Looked.prod {s t : State} (h : Looked s t) (m : Moor) : m.prod t = m.prod s :=
  congrArg leWord (peek_congr h.bytes _ _)

/-- The blitter knows PROD of a mooring, if it is a BLIT mooring. -/
def KnowsProd (s t : State) (i : Nat) : Prop :=
  ∀ m, Tab.find? s.fw.moorings i = some m → m.kind = 1 → Tab.get 0 t.tp.blt.seen i = m.prod s

section look
variable {s t : State} (banks : BanksRun s) (h : Looked s t)
include banks h

/-- A look at a BLIT mooring puts PROD, and nothing else, in what the blitter knows. -/
theorem bltLook_of_looked {i : Nat} {m : Moor} (found : Tab.find? s.fw.moorings i = some m)
    (kind : m.kind = 1) :
    Looked s (bltLook t i) ∧
      (bltLook t i).tp.blt.seen = Tab.put t.tp.blt.seen i (m.prod s) := by
  have up : running t (islBank (bankOf m.cb)) = true := by
    rw [running, isl, h.islands]
    exact banks ⟨bankOf m.cb, Nat.mod_lt _ (by decide)⟩
  obtain ⟨u, read, scrubbed⟩ := readWord_of_clean h.clean 12 up
  rw [bltLook_of_readWord (h.moorings ▸ found) kind read]
  refine ⟨⟨scrubbed.clean, scrubbed.bytes.trans h.bytes, ?_, scrubbed.islands.trans h.islands⟩, ?_⟩
  · rw [onBlt_fw, scrubbed.fw, h.moorings]
  · rw [onBlt_blt, scrubbed.tp]
    exact congrArg (Tab.put _ _) (h.prod m)

theorem looked_bltLook (i : Nat) : Looked s (bltLook t i) := by
  by_cases blt : ∃ m, Tab.find? s.fw.moorings i = some m ∧ m.kind = 1
  · obtain ⟨m, found, kind⟩ := blt
    exact (bltLook_of_looked banks h found kind).1
  · rw [bltLook_of_not_blt (fun m found kind => blt ⟨m, h.moorings ▸ found, kind⟩)]
    exact h

theorem knowsProd_bltLook_self (i : Nat) : KnowsProd s (bltLook t i) i := by
  intro m found kind
  rw [(bltLook_of_looked banks h found kind).2, Tab.get, Tab.find?_put_self]
  rfl

theorem knowsProd_bltLook {j : Nat} (known : KnowsProd s t j) (i : Nat) :
    KnowsProd s (bltLook t i) j := by
  by_cases same : j = i
  · exact same ▸ knowsProd_bltLook_self banks h i
  by_cases blt : ∃ m, Tab.find? s.fw.moorings i = some m ∧ m.kind = 1
  · obtain ⟨m, found, kind⟩ := blt
    intro x hx hk
    rw [(bltLook_of_looked banks h found kind).2, Tab.get, Tab.find?_put_of_ne _ _ same]
    exact known x hx hk
  · rw [bltLook_of_not_blt (fun m found kind => blt ⟨m, h.moorings ▸ found, kind⟩)]
    exact known

end look

/-- After looks at a list of moorings, the blitter knows PROD of those in it and of those it knew
before. -/
theorem foldl_bltLook {s : State} (banks : BanksRun s) (l : List Nat) {t : State}
    (h : Looked s t) :
    Looked s (l.foldl bltLook t) ∧
      ∀ i, i ∈ l ∨ KnowsProd s t i → KnowsProd s (l.foldl bltLook t) i := by
  induction l generalizing t with
  | nil => exact ⟨h, fun i known => known.resolve_left (List.not_mem_nil)⟩
  | cons j l ih =>
    obtain ⟨looked, knows⟩ := ih (looked_bltLook banks h j)
    refine ⟨looked, fun i known => knows i ?_⟩
    rcases known with listed | known
    · rcases List.mem_cons.mp listed with rfl | later
      · exact .inr (knowsProd_bltLook_self banks h i)
      · exact .inl later
    · exact .inr (knowsProd_bltLook banks h known j)

theorem Tab.mem_of_find? {α : Type} {t : Tab α} {i : Nat} {v : α} (h : Tab.find? t i = some v) :
    (i, v) ∈ t := by
  induction t with
  | nil => cases h
  | cons p r ih =>
    obtain ⟨k, w⟩ := p
    rw [Tab.find?] at h
    split at h
    · next same =>
      cases h
      exact same ▸ List.mem_cons_self
    · exact List.mem_cons_of_mem _ (ih h)

theorem mem_bltMoorings {s : State} {i : Nat} {m : Moor}
    (found : Tab.find? s.fw.moorings i = some m) (kind : m.kind = 1) : i ∈ bltMoorings s :=
  List.mem_map.mpr ⟨(i, m),
    List.mem_filter.mpr ⟨Tab.mem_of_find? found, decide_eq_true kind⟩, rfl⟩

/-- A poll that meets no error reads PROD of every BLIT mooring (R385). -/
theorem poll_knowsProd {s : State} (clean : CleanBasin s) (banks : BanksRun s) :
    Looked s ((bltMoorings s).foldl bltLook s) ∧
      ∀ i, KnowsProd s ((bltMoorings s).foldl bltLook s) i := by
  obtain ⟨looked, knows⟩ := foldl_bltLook banks (bltMoorings s) ⟨clean, rfl, rfl, rfl⟩
  exact ⟨looked, fun i m found kind => knows i (.inl (mem_bltMoorings found kind)) m found kind⟩

/-! ### The choice of an entry leaves the user blocks alone (R172, R385) -/

theorem bltAdvance_blocks (s : State) (agent i : Nat) (m : Moor) (c : Word) :
    (bltAdvance s agent i m c).fw.blocks = s.fw.blocks := by
  have write := writeReq_blocks s agent (m.cb + 4) (leBytes 4 (c + 1).toNat)
  unfold bltAdvance
  split <;> next h => rwa [h] at write

theorem bltCons_blocks (s : State) (i : Nat) (m : Moor) :
    (bltCons s i m).1.fw.blocks = s.fw.blocks := by
  unfold bltCons
  split
  · exact readWord_blocks ..
  · exact bltAdvance_blocks ..

theorem nextBlt_blocks (s : State) (l : List Nat) :
    (nextBlt s l).1.fw.blocks = s.fw.blocks := by
  induction l generalizing s with
  | nil => rfl
  | cons i r ih =>
    unfold nextBlt
    split
    · exact ih s
    · next m _ =>
      have cons := bltCons_blocks s i m
      split
      · next h =>
        rw [h] at cons
        split
        · exact (ih _).trans cons
        · exact cons
      · exact ih s
      · next h _ =>
        rw [h] at cons
        exact (ih _).trans cons

/-! ### What is decided before any pixel (R386, R387, R389, R401) -/

theorem pageLive_congr {s t : State} (h : t.fw.blocks = s.fw.blocks) (p : Nat) :
    pageLive t p = pageLive s p := by
  rw [pageLive, pageLive, h]

theorem Blit.pagesOk_congr {s t : State} (h : t.fw.blocks = s.fw.blocks) (b : Blit) :
    b.pagesOk t = b.pagesOk s := by
  simp only [Blit.pagesOk, bytesLive, pageLive_congr h]

/-- The address of a blit's descriptor (R384). -/
def Blit.descAddr (b : Blit) : Nat := (b.entry.getD 1 0).toNat

/-- A blit whose descriptor was read as 64 bytes (R386). -/
def Blit.withDesc (b : Blit) (d : List Byte) : Blit :=
  { b with desc := (List.range 16).map (fun k => leWord (d.drop (4 * k))) }

/-- The RESULT that the checks of a descriptor give (R387, R389). -/
def Blit.checked (s : State) (b : Blit) : Option Nat :=
  if b.valid = false then some 1 else if b.pagesOk s = false then some 2 else b.result

theorem Blit.checked_congr {s t : State} (h : t.fw.blocks = s.fw.blocks) (b : Blit) :
    b.checked t = b.checked s := by
  simp only [Blit.checked, Blit.pagesOk_congr h]

section openBlit
variable (s : State) (b : Blit)

/-- A blit that is opened is of its entry still. -/
theorem openBlit_entry :
    (openBlit s b).2.moor = b.moor ∧ (openBlit s b).2.cons = b.cons ∧
      (openBlit s b).2.entry = b.entry := by
  unfold openBlit
  dsimp only
  split
  · exact ⟨rfl, rfl, rfl⟩
  · split
    · exact ⟨rfl, rfl, rfl⟩
    · split
      · exact ⟨rfl, rfl, rfl⟩
      · split <;> exact ⟨rfl, rfl, rfl⟩

variable {s b}

theorem openBlit_of_unread (h : b.descAddr % 64 ≠ 0 ∨ pageLive s (b.descAddr / 65536) = false) :
    openBlit s b = (s, { b with unread := true, result := some 0 }) :=
  if_pos (h.imp_right (by simp [Blit.descAddr]))

variable (aligned : b.descAddr % 64 = 0) (live : pageLive s (b.descAddr / 65536) = true)
include aligned live

theorem reachable_of_aligned_live : ¬(b.descAddr % 64 ≠ 0 ∨ (!pageLive s (b.descAddr / 65536)) = true) := by
  simp [aligned, live]

theorem openBlit_of_error {t : State} {e : Err}
    (read : readMem s 12 b.descAddr 64 = (t, .error e)) :
    openBlit s b = (t, { b with result := some (errResult e) }) := by
  refine (if_neg (reachable_of_aligned_live aligned live)).trans ?_
  rw [← Blit.descAddr, read]

theorem openBlit_of_desc {t : State} {d : List Byte}
    (read : readMem s 12 b.descAddr 64 = (t, .ok d)) :
    openBlit s b = (t, { b.withDesc d with result := (b.withDesc d).checked t }) := by
  refine (if_neg (reachable_of_aligned_live aligned live)).trans ?_
  rw [← Blit.descAddr, read]
  dsimp only
  rw [← Blit.withDesc]
  simp only [Bool.not_eq_true', Blit.checked]
  split
  · rfl
  · split <;> rfl

/-- The descriptor of a blit in reach is read, with an error or without. -/
theorem unread_openBlit_of_reachable : (openBlit s b).2.unread = b.unread := by
  rcases read : readMem s 12 b.descAddr 64 with ⟨t, e | d⟩
  · rw [openBlit_of_error aligned live read]
  · rw [openBlit_of_desc aligned live read]
    rfl

end openBlit

/-! ### Taking an entry (R384, R386) -/

/-- A word of an entry (R384). -/
def entryWord (e : List Byte) (k : Nat) : Word := leWord (e.drop (4 * k))

/-- The blit of an entry that was read. -/
def entryBlit (i : Nat) (c : Word) (e : List Byte) : Blit :=
  { moor := i, cons := c, entry := (List.range 4).map (entryWord e) }

/-- A mooring is served. -/
def served (s : State) (i : Nat) : State := onBlt s (fun b => { b with last := i })

section takeEntry
variable {s v : State} {i : Nat} {m : Moor} {c : Word} {e : List Byte}
  (read : readMem (served s i) 12 (m.entry c) 16 = (v, .ok e))
include read

theorem takeEntry_of_epoch (epoch : fld (entryWord e 0) 24 8 = 0xFF) :
    takeEntry s i m c = bltAdvance v 12 i m c := by
  unfold takeEntry
  rw [← served]
  simp only [read]
  exact if_pos epoch

theorem takeEntry_of_blit (blit : fld (entryWord e 0) 24 8 ≠ 0xFF) :
    takeEntry s i m c = onBlt (openBlit v (entryBlit i c e)).1
      (fun x => { x with cur := some (openBlit v (entryBlit i c e)).2 }) := by
  unfold takeEntry
  rw [← served]
  simp only [read]
  exact if_neg blit

theorem last_of_read : v.tp.blt.last = i := by
  have same := (readMem_follows (served s i) 12 (m.entry c) 16).tp (by decide)
  rw [read] at same
  rw [same]
  rfl

theorem blocks_of_read : v.fw.blocks = s.fw.blocks := by
  have same := readMem_blocks (served s i) 12 (m.entry c) 16
  rwa [read] at same

end takeEntry

/-! ### The commands (R385, R386, R403) -/

theorem exec_tpBltKick (a : Agent) (k : Fin 16384) (s : State) :
    exec (.tpBltKick a k) s = .next (tpReach s a 0x200 (fun s => bltLook s k)) := rfl

theorem exec_blitPoll_of_running {s : State} (h : running s islTP = true) :
    exec .blitPoll s = .next ((bltMoorings s).foldl bltLook s) :=
  congrArg Host.Outcome.next (if_pos h)

theorem exec_blitPoll_of_fenced {s : State} (h : running s islTP = false) :
    exec .blitPoll s = .next s :=
  congrArg Host.Outcome.next (if_neg (by simp [h]))

/-- The moorings in round-robin order, from the one after the mooring served last (R385). -/
def bltOrder (s : State) : List Nat :=
  (bltMoorings s).filter (fun i => s.tp.blt.last < i) ++
    (bltMoorings s).filter (fun i => i ≤ s.tp.blt.last)

theorem exec_blitStart_of_held {s : State} (h : running s islTP = false ∨ s.tp.blt.cur.isSome) :
    exec .blitStart s = .next s :=
  congrArg Host.Outcome.next (if_pos (by simpa using h))

section start
variable {s u : State} (up : running s islTP = true) (idle : s.tp.blt.cur = none)
include up idle

theorem exec_blitStart_of_no_entry (h : nextBlt s (bltOrder s) = (u, none)) :
    exec .blitStart s = .next u := by
  refine congrArg Host.Outcome.next ((if_neg (by simp [up, idle])).trans ?_)
  dsimp only
  rw [← bltOrder, h]

theorem exec_blitStart_of_entry {i : Nat} {m : Moor} {c : Word}
    (h : nextBlt s (bltOrder s) = (u, some (i, m, c))) :
    exec .blitStart s = .next (takeEntry u i m c) := by
  refine congrArg Host.Outcome.next ((if_neg (by simp [up, idle])).trans ?_)
  dsimp only
  rw [← bltOrder, h]

end start

/-- Settles O35: a poll reads PROD of every BLIT mooring (`poll_knowsProd`), and a start opens the
entry that was chosen (`takeEntry_of_blit`, `openBlit_of_desc`); the user blocks that its checks
look at are those before the start (`nextBlt_blocks`, `blocks_of_read`). -/
theorem theBlitterFindsAndOpensEntries : Obligations.TheBlitterFindsAndOpensEntries := by
  intro a k s l order
  rw [exec_tpBltKick]
  refine ⟨fun out => ?dropped, fun out barred => ?barred, fun out may fenced => ?fenced,
    fun fenced => ⟨exec_blitPoll_of_fenced fenced, exec_blitStart_of_held (.inl fenced)⟩,
    fun up => ⟨fun m u w out may found kind read => ?kick, fun clean banks => ?poll,
      fun busy => exec_blitStart_of_held (.inr busy),
      fun u idle noEntry => exec_blitStart_of_no_entry up idle noEntry,
      fun u i m c v e idle chosen read => ⟨fun epoch => ?epoch, fun blit => ?blit⟩⟩⟩
  case dropped => rw [tpReach, reach_of_not_out _ _ out]
  case barred =>
    rw [tpReach, reach_of_barred _ _ out barred, errTo_of_ne (ne_two_of_not_scriptAgent barred)]
  case fenced => rw [tpReach, reach_of_fenced _ _ out may fenced]
  case kick =>
    rw [tpReach, reach_of_allowed _ _ out may up, bltLook_of_readWord found kind read]
  case poll =>
    obtain ⟨looked, knows⟩ := poll_knowsProd clean banks
    exact ⟨_, exec_blitPoll_of_running up, looked.bytes, knows⟩
  case epoch => rw [exec_blitStart_of_entry up idle chosen, takeEntry_of_epoch read epoch]
  case blit =>
    have started := exec_blitStart_of_entry up idle chosen
    rw [takeEntry_of_blit read blit] at started
    have blocks : v.fw.blocks = s.fw.blocks := by
      have kept := nextBlt_blocks s order
      rw [chosen] at kept
      exact (blocks_of_read read).trans kept
    have last := last_of_read read
    rw [← (openBlit_follows v (entryBlit i c e)).tp (by decide)] at last
    obtain ⟨moor, cons, entry⟩ := openBlit_entry v (entryBlit i c e)
    refine ⟨_, _, started, rfl, last, moor, cons, entry, fun bad => ?_, fun aligned live => ?_⟩
    · rw [← pageLive_congr blocks] at bad
      rw [openBlit_of_unread (b := entryBlit i c e) bad]
      exact ⟨rfl, rfl, rfl⟩
    · rw [← pageLive_congr blocks] at live
      refine ⟨unread_openBlit_of_reachable (b := entryBlit i c e) aligned live, fun x d desc => ?_⟩
      change readMem v 12 (entryBlit i c e).descAddr 64 = (x, .ok d) at desc
      have same : x.fw.blocks = s.fw.blocks := by
        have kept := readMem_blocks v 12 (entryBlit i c e).descAddr 64
        rw [desc] at kept
        exact kept.trans blocks
      rw [openBlit_of_desc (b := entryBlit i c e) aligned live desc]
      exact ⟨rfl, Blit.checked_congr same _⟩

end Sys2Proof.Machine
end

section
/-! PROOFS. The branches of the Ceing cores (chapter 15, R600, R605, R620): the table of the
conditions, a branch as one change of the PC, and the obligation O59. -/

open Sys2Proof

namespace Sys2Proof.Machine

/-! ### The conditions (R605) -/

/-- The truth of each condition under the flags of a core, in the order of the codes (R605). -/
def Core.conditions (c : Core) : Array Bool :=
  #[true, c.z, !c.z, !c.c, c.c, c.n, !c.n, c.v, !c.v, !c.c && !c.z, c.c || c.z,
    c.n == c.v, c.n != c.v, !c.z && c.n == c.v, c.z || c.n != c.v]

/-- Every code of a branch names an entry of the table. -/
theorem Core.cond_eq_conditions (c : Core) (cc : Fin 15) :
    c.cond cc = c.conditions.getD cc.val false := by
  fin_cases cc <;> rfl

/-- A condition looks at the flags alone, which passing an instruction keeps. -/
theorem Core.cond_past (c : Core) (len : Nat) (cc : Fin 15) :
    (c.past len).cond cc = c.conditions.getD cc.val false :=
  (c.past len).cond_eq_conditions cc

/-! ### A branch changes the PC (R600) -/

/-- A jump that may not be taken changes the PC alone. -/
theorem Core.ite_jump (c : Core) (p : Prop) [Decidable p] (rel : Cell) :
    (if p then c.jump rel else c) = { c with pc := if p then c.pc + rel else c.pc } := by
  split <;> rfl

/-! ### The commands (R620) -/

section commands
variable {s : State} {core : Fin 8}

theorem coreGets_bCc (ready : CoreReady s core 1) (cc : Fin 15) (rel : BitVec 8) :
    CoreGets (.bCc core cc rel) s core
      { (coreOf s core).past 1 with
        pc := if (coreOf s core).conditions.getD cc.val false
          then (coreOf s core).pc + 1 + rel.signExtend 16 else (coreOf s core).pc + 1 } := by
  refine .of_regInstr ready rfl ?_
  rw [Core.ite_jump, Core.cond_past]
  rfl

theorem coreGets_bCcL (ready : CoreReady s core 2) (cc : Fin 15) (rel : Cell) :
    CoreGets (.bCcL core cc rel) s core
      { (coreOf s core).past 2 with
        pc := if (coreOf s core).conditions.getD cc.val false
          then (coreOf s core).pc + 2 + rel else (coreOf s core).pc + 2 } := by
  refine .of_regInstr ready rfl ?_
  rw [Core.ite_jump, Core.cond_past]
  rfl

/-- `dbnz` tests the register it has just decremented. -/
theorem coreGets_dbnz (ready : CoreReady s core 1) (rs : Fin 16) (rel : BitVec 8) :
    CoreGets (.dbnz core rs rel) s core
      { (coreOf s core).past 1 with
        d := (coreOf s core).d.set rs ((coreOf s core).d[rs] - 1),
        pc := if (coreOf s core).d[rs] - 1 ≠ 0
          then (coreOf s core).pc + 1 + rel.signExtend 16 else (coreOf s core).pc + 1 } :=
  .of_regInstr ready rfl (Core.ite_jump _ _ _)

/-- `call` keeps the address of the next instruction in d15. -/
theorem coreGets_callRel (ready : CoreReady s core 2) (rel : Cell) :
    CoreGets (.callRel core rel) s core
      { (coreOf s core).past 2 with
        d := (coreOf s core).d.set 15 ((coreOf s core).pc + 2),
        pc := (coreOf s core).pc + 2 + rel } :=
  .of_regInstr ready rfl rfl

end commands

/-- Settles O59: a condition is an entry of the table of R605 (`Core.cond_eq_conditions`), and a
branch that may not be taken is one change of the PC (`Core.ite_jump`). -/
theorem branchInstructionsGoWhereTheirConditionSays :
    Obligations.BranchInstructionsGoWhereTheirConditionSays := by
  intro core cc rs rel8 rel s
  exact ⟨fun ready => ⟨coreGets_bCc ready cc rel8, coreGets_dbnz ready rs rel8⟩,
    fun ready => ⟨coreGets_bCcL ready cc rel, coreGets_callRel ready rel⟩⟩

end Sys2Proof.Machine
end

section
/-! PROOFS. A read of IC_CLAIM (chapter 16, R637 to R639, R654, R660): the sources that qualify, the
choice among them, putting a source in service, and the obligation O48. -/

open Sys2Proof

namespace Sys2Proof.Machine

/-! ### The sources that qualify (R638) -/

/-- The pending sources of a target whose priority lies above its effective threshold. -/
def qualifying (s : State) (t : Nat) : List (Nat × Src) :=
  (pendingList s t).filter (fun p => effThresh s t < p.2.prio.toNat)

/-- The highest priority of a qualifying source, 0 where none qualifies. -/
def topPrio (s : State) (t : Nat) : Nat :=
  (qualifying s t).foldl (fun m p => max m p.2.prio.toNat) 0

/-- The qualifying sources of the highest priority. -/
def foremost (s : State) (t : Nat) : List (Nat × Src) :=
  (qualifying s t).filter (fun p => p.2.prio.toNat = topPrio s t)

section choice
variable {s : State} {t : Nat}

theorem mem_qualifying {p : Nat × Src} :
    p ∈ qualifying s t ↔ p ∈ pendingList s t ∧ effThresh s t < p.2.prio.toNat := by
  simp [qualifying]

theorem mem_foremost {p : Nat × Src} :
    p ∈ foremost s t ↔ p ∈ qualifying s t ∧ p.2.prio.toNat = topPrio s t := by
  simp [foremost]

theorem topPrio_eq_foldl_map (s : State) (t : Nat) :
    topPrio s t = ((qualifying s t).map (·.2.prio.toNat)).foldl (fun m a => max m (id a)) 0 :=
  List.foldl_map.symm

theorem prio_le_topPrio {p : Nat × Src} (h : p ∈ qualifying s t) :
    p.2.prio.toNat ≤ topPrio s t := by
  obtain ⟨_, bound⟩ := foldl_max_spec id ((qualifying s t).map (·.2.prio.toNat))
  rw [topPrio_eq_foldl_map]
  exact bound _ (List.mem_map_of_mem h)

/-- A source that qualifies has a priority above 0, so the highest priority is the priority of one
that qualifies. -/
theorem exists_mem_foremost {p : Nat × Src} (h : p ∈ qualifying s t) : ∃ q, q ∈ foremost s t := by
  obtain ⟨_, above⟩ := mem_qualifying.mp h
  obtain ⟨attained, _⟩ := foldl_max_spec id ((qualifying s t).map (·.2.prio.toNat))
  rw [← topPrio_eq_foldl_map, List.map_id] at attained
  rcases List.mem_cons.mp attained with zero | attained
  · have le := prio_le_topPrio h
    omega
  · obtain ⟨q, hq, top⟩ := List.mem_map.mp attained
    exact ⟨q, mem_foremost.mpr ⟨hq, top⟩⟩

/-! ### The choice (R638, R654) -/

/-- A claim takes the lowest number of those with the highest priority, unless four are held. -/
theorem bestClaim_eq (s : State) (t : Nat) :
    bestClaim s t = if 4 ≤ (claimed s t).length then none else (foremost s t).minOn? Prod.fst := by
  have lower : (fun m y : Nat × Src => if y.1 < m.1 then y else m) = minOn Prod.fst := by
    funext m y
    simp only [minOn, ← Nat.not_lt, ite_not]
  rw [bestClaim, lower]
  refine if_congr Iff.rfl rfl ?_
  split
  case h_1 nil => exact (congrArg (List.minOn? Prod.fst) nil).symm
  case h_2 cons => exact (congrArg (List.minOn? Prod.fst) cons).symm

/-- What is chosen qualifies, no other that does has a higher priority, and none of equal priority
has a lower number. -/
theorem bestClaim_of_some {src : Nat} {x : Src} (h : bestClaim s t = some (src, x)) :
    (src, x) ∈ qualifying s t ∧ ∀ p ∈ qualifying s t,
      p.2.prio.toNat ≤ x.prio.toNat ∧ (p.2.prio.toNat = x.prio.toNat → src ≤ p.1) := by
  rw [bestClaim_eq, Option.ite_none_left_eq_some] at h
  obtain ⟨-, least⟩ := h
  obtain ⟨chosen, top⟩ := mem_foremost.mp (List.minOn?_mem least)
  refine ⟨chosen, fun p hp => ⟨(prio_le_topPrio hp).trans_eq top.symm, fun equal => ?_⟩⟩
  have le := List.apply_get_minOn?_le_of_mem (f := Prod.fst)
    (mem_foremost.mpr ⟨hp, equal.trans top⟩)
  simpa [least] using le

/-- Nothing is chosen only where nothing qualifies or four claims are held. -/
theorem bestClaim_of_none (h : bestClaim s t = none) :
    (∀ p, p ∉ qualifying s t) ∨ 4 ≤ (claimed s t).length := by
  rw [bestClaim_eq] at h
  split at h
  case isTrue full => exact .inr full
  case isFalse =>
    refine .inl fun p hp => ?_
    obtain ⟨q, hq⟩ := exists_mem_foremost hp
    have chosen := List.isSome_minOn?_of_mem (f := Prod.fst) hq
    simp [h] at chosen

end choice

/-! ### Putting a source in service (R662) -/

section service
variable (s : State) (t : Nat) (f : Src → Src)

@[simp] theorem privSrc_updPriv_self (i : Nat) :
    privSrc (updPriv s t i f) t i = f (privSrc s t i) := Tab.get_upd_self _ _ _ _

theorem privSrc_updPriv_of_ne {i j : Nat} (h : j ≠ i) :
    privSrc (updPriv s t i f) t j = privSrc s t j := Tab.get_upd_of_ne _ _ _ (by omega)

theorem updSrc_priv {n : Nat} (h : n < 32) : updSrc s t n f = updPriv s t n f := if_pos h

theorem updSrc_shared {n : Nat} (h : n < 256) :
    updSrc s t (256 + n) f = updShared s n f := by
  rw [updSrc, if_neg (by omega), if_pos (by omega), Nat.add_sub_cancel_left]

/-- A change to a source stays in the interrupt controller. -/
theorem updSrc_frame (src : Nat) :
    updSrc s t src f = { s with intc := (updSrc s t src f).intc } := by
  simp only [updSrc]
  split
  · rfl
  · split <;> rfl

end service

/-! ### The read -/

section read
variable {s : State} {t : Nat}

theorem claim_of_some {src : Nat} {x : Src} (h : bestClaim s t = some (src, x)) :
    claim s t = (updSrc s t src (fun y => { y with holder := some t }),
      pack [(0, src), (16, x.count.toNat), (24, x.prio.toNat)]) := by
  simp only [claim, h, claimWord]

theorem claim_of_none (h : bestClaim s t = none) :
    claim s t = (updTarget s t (fun x => { x with spurious := satAdd x.spurious 1 }), 0x3FF) := by
  simp only [claim, h]

/-- A read by an agent other than debug claims for the agent's target (R660). -/
theorem exec_icClaim_of_out {a : Agent} (ht : agentTarget s a = some t) (ha : a.val ≠ 15)
    (ho : agentOut s a = true) :
    exec (.icClaim a) s = .next (emit (claim s t).1 (.word a (claim s t).2)) := by
  refine (congrArg _ (issue_of_out ho _)).trans ?_
  simp only [claimRead, ht, if_neg ha]

end read

/-- Settles O48: the choice is the lowest number among the highest priorities (`bestClaim_eq`), and
the read changes the source chosen alone (`updSrc_frame`). -/
theorem aClaimTakesTheHighestPendingSource : Obligations.AClaimTakesTheHighestPendingSource := by
  intro a t s ht ha ho able
  have read := exec_icClaim_of_out ht ha ho
  refine ⟨fun src x chosen => ?some, fun nothing => ⟨?why, ?spurious⟩⟩
  case some =>
    obtain ⟨qualifies, best⟩ := bestClaim_of_some chosen
    rw [claim_of_some chosen] at read
    have frame := updSrc_frame s t (fun y => { y with holder := some t }) src
    refine ⟨mem_qualifying.mp qualifies, fun p hp => best p (mem_qualifying.mpr hp), _, read,
      ?out, ?frame, ?shared, ?priv⟩
    case out => rw [frame]; rfl
    case frame => rw [frame]; rfl
    case shared =>
      rintro n rfl
      rw [updSrc_shared s t _ n.isLt]
      exact ⟨sharedSrc_updShared_self .., fun m hm => sharedSrc_updShared_of_ne s _ hm⟩
    case priv =>
      rintro n rfl
      rw [updSrc_priv s t _ n.isLt]
      exact ⟨privSrc_updPriv_self .., fun m _ hm => privSrc_updPriv_of_ne s t _ hm⟩
  case why =>
    exact (bestClaim_of_none nothing).imp_left fun empty p hp => empty p (mem_qualifying.mpr hp)
  case spurious => rw [read, claim_of_none nothing]

end Sys2Proof.Machine
end

section
/-! PROOFS. The commands of a Sluice channel and its stop (chapter 17, R677, R678, R686, R687,
R694): what each command does by the channel's state, the residue of a stop that an error caused, and
the obligation O50. -/

open Sys2Proof

namespace Sys2Proof.Machine

/-- A fetch at an address below 2^32 keeps its low 26 bits, those of SL_CH_CUR. -/
theorem Chan.toFetch_w32 (c : Chan) (n : Nat) :
    c.toFetch (w32 n) = { c.toFetch 0 with cur := BitVec.ofNat 26 n } := by
  rw [Chan.toFetch, w32, BitVec.setWidth_ofNat_of_le (by decide)]
  rfl

section channel
variable {s u : State} {n : Nat}

/-! ### DOORBELL (R666, R677) -/

theorem doorbell_of_idleAtTail (h : (chanOf s n).state = .idleAtTail) :
    doorbell s n = readNext s n false := if_pos h

theorem doorbell_of_not_idleAtTail (h : (chanOf s n).state ≠ .idleAtTail) : doorbell s n = s :=
  if_neg h

theorem followLink_of_descriptor {link : Word} (aligned : link.toNat % 32 = 0)
    (inBasin : link.toNat < 0x04000000) :
    followLink s n link = updChan s n (fun c => c.toFetch link) := by
  rw [followLink, if_neg (not_not_intro aligned), if_neg (Nat.not_le.mpr inBasin)]

theorem readNext_of_no_link (read : readWord s 11 (chanOf s n).cur.toNat = (u, some 0)) :
    readNext s n false = u := by
  rw [readNext, read]
  rfl

theorem readNext_of_link {link : Word} (tail : Bool)
    (read : readWord s 11 (chanOf s n).cur.toNat = (u, some link)) (nonzero : link ≠ 0) :
    readNext s n tail = followLink u n link := by
  rw [readNext, read]
  exact if_pos nonzero

/-! ### ABORT and CLEAR (R686, R687) -/

theorem abort_of_running (h : (chanOf s n).state = .running) :
    abort s n = updChan s n (fun c => { c with state := .stopping, aborted := true }) := by
  rw [abort, h]

theorem abort_of_parked (h : (chanOf s n).state = .empty ∨ (chanOf s n).state = .idleAtTail) :
    abort s n = stopSignal s n slABORTED 0 := by
  obtain h | h := h <;> rw [abort, h]

theorem abort_of_ending (h : (chanOf s n).state = .stopping ∨ (chanOf s n).state = .stopped) :
    abort s n = s := by
  obtain h | h := h <;> rw [abort, h]

theorem clearChan_of_done (h : (chanOf s n).state = .stopped ∨ (chanOf s n).state = .idleAtTail) :
    clearChan s n = updChan s n (fun c =>
      { c with state := .empty, cur := 0, tail := 0, residue := 0, desc := [] }) := if_pos h

theorem clearChan_of_not_done (stopped : (chanOf s n).state ≠ .stopped)
    (idle : (chanOf s n).state ≠ .idleAtTail) : clearChan s n = s :=
  if_neg (not_or.mpr ⟨stopped, idle⟩)

/-! ### An append (R678, R681) -/

/-- SL_CH_TAIL after an append of HEAD and LAST: a LAST of 0 means HEAD. -/
def appendTail (head last : Nat) : BitVec 26 := BitVec.ofNat 26 (if last = 0 then head else last)

section append
variable {head last : Nat}

theorem append_of_empty (h : (chanOf s n).state = .empty) :
    append s n head last =
      updChan s n (fun c => { c.toFetch (w32 head) with tail := appendTail head last }) := by
  rw [append, h]
  rfl

theorem append_of_ending (h : (chanOf s n).state = .stopping ∨ (chanOf s n).state = .stopped) :
    append s n head last = updChan s n (fun c => { c with appendErr := true }) := by
  obtain h | h := h <;> rw [append, h]

variable (write : writeReq s 11 (chanOf s n).tail.toNat (leBytes 4 head) = (u, none))
include write

theorem linkTail_of_written : linkTail s n head = (u, true) := by
  rw [linkTail, write]

theorem append_of_running (h : (chanOf s n).state = .running) :
    append s n head last = updChan u n (fun c => { c with
      next := if c.cur = c.tail && !c.desc.isEmpty then w32 head else c.next,
      tail := appendTail head last }) := by
  rw [append, h, linkTail_of_written write]
  rfl

theorem append_of_idleAtTail (h : (chanOf s n).state = .idleAtTail) :
    append s n head last =
      updChan u n (fun c => { c.toFetch (w32 head) with tail := appendTail head last }) := by
  rw [append, h, linkTail_of_written write]
  rfl

end append

/-! ### A stop (R686, R694, R695) -/

/-- RESULT is written to Basin, so the channels stay as they are. -/
theorem chanOf_writeResult (agent : Nat) (c : Chan) (st residue : Nat) :
    chanOf (writeResult s agent c st residue).1 n = chanOf s n :=
  congrArg (fun sl : Sluice => sl.chans.get ({} : Chan) n) ((writeResult_follows ..).sl (by decide))

/-- The bytes that a channel with an error at an offset leaves unmoved (R695). -/
def Chan.left (c : Chan) (off : Nat) : Nat := c.total - min c.issued off

theorem residueOf_of_err {c : Chan} {off st : Nat} (err : c.err = some (off, st))
    (small : c.total < 2 ^ 24) : residueOf s c = (s, BitVec.ofNat 24 (c.left off)) := by
  have first : (if c.issued < off then c.issued else off) = min c.issued off := by
    split <;> omega
  have fits : c.total - min c.issued off < 2 ^ 24 := by omega
  simp only [residueOf, err, first, if_pos fits, Chan.left]

theorem stopChan_of_err {off st : Nat} (err : (chanOf s n).err = some (off, st))
    (small : (chanOf s n).total < 2 ^ 24) (notAborted : (chanOf s n).aborted = false)
    (result : (chanOf s n).result = true) (desc : (chanOf s n).desc ≠ []) :
    stopChan s n = stopSignal (writeResult s 11 (chanOf s n) st ((chanOf s n).left off)).1 n st
      (BitVec.ofNat 24 ((chanOf s n).left off)) := by
  have fits : (BitVec.ofNat 24 ((chanOf s n).left off)).toNat = (chanOf s n).left off :=
    (BitVec.toNat_ofNat ..).trans (Nat.mod_eq_of_lt ((Nat.sub_le ..).trans_lt small))
  have written : ((chanOf s n).result && !(chanOf s n).desc.isEmpty) = true := by
    simp [result, desc]
  simp only [stopChan, residueOf_of_err err small, fits, if_pos written]
  rw [notAborted, err]
  rfl

end channel

/-! ### The commands (R687, R701) -/

section commands
variable {s : State} {a : Agent} {ch : Fin 64} (up : running s islSL = true)
  (out : agentOut s a = true) (may : scriptAgent a = true)

section access
include up out may

theorem exec_slDoorbell_of_allowed : exec (.slDoorbell a ch) s = .next (doorbell s ch) :=
  congrArg _ (reach_of_allowed _ _ out may up)

theorem exec_slAbort_of_allowed : exec (.slAbort a ch) s = .next (abort s ch) :=
  congrArg _ (reach_of_allowed _ _ out may up)

theorem exec_slClear_of_allowed : exec (.slClear a ch) s = .next (clearChan s ch) :=
  congrArg _ (reach_of_allowed _ _ out may up)

theorem exec_slAppend_of_allowed (v : Word) : exec (.slAppend a ch v) s =
    .next (append s ch (fld v 5 21 * 32) (fld (s.sl.last.get 0 a) 5 21 * 32)) :=
  congrArg _ (reach_of_allowed _ _ out may up)

end access

include up in
theorem exec_slChannelStopped_of_drained (stopping : (chanOf s ch).state = .stopping)
    (drained : (chanOf s ch).flight = []) :
    exec (.slChannelStopped ch) s = .next (stopChan s ch) :=
  congrArg _ (if_pos (by simp [up, stopping, drained]))

end commands

/-- Settles O50: each command is its operation on the channel (`exec_slAbort_of_allowed` and its
like), which has an equation per state, and a stop that an error caused counts the bytes after it
(`stopChan_of_err`). -/
theorem sluiceChannelCommandsActByState : Obligations.SluiceChannelCommandsActByState := by
  intro a ch v s u c head last tail fetching stopped parked ending up
  refine ⟨fun out may => ?commands,
    fun off st stopping drained result desc small notAborted err => ?stop⟩
  case commands =>
    rw [exec_slDoorbell_of_allowed up out may, exec_slAbort_of_allowed up out may,
      exec_slClear_of_allowed up out may, exec_slAppend_of_allowed up out may]
    have fetch (c : Chan) (n : Nat) : c.toFetch (w32 n) = fetching c n := Chan.toFetch_w32 c n
    have parked' (h : parked = true) : c.state = .empty ∨ c.state = .idleAtTail := by
      simpa [parked] using h
    have ending' (h : ending = true) : c.state = .stopping ∨ c.state = .stopped := by
      simpa [ending] using h
    refine ⟨?ring, ?ringNoLink, ?ringLink, ?abortRunning, ?abortParked, ?abortEnding, ?clear,
      ?keep, ?appendEmpty, ?appendRunning, ?appendIdle, ?appendEnding⟩
    case ring => exact fun h => congrArg _ (doorbell_of_not_idleAtTail h)
    case ringNoLink =>
      exact fun h read => congrArg _ ((doorbell_of_idleAtTail h).trans (readNext_of_no_link read))
    case ringLink =>
      intro link h read nonzero aligned inBasin
      rw [doorbell_of_idleAtTail h, readNext_of_link _ read nonzero,
        followLink_of_descriptor aligned inBasin]
      simp only [← fetch, w32, BitVec.ofNat_toNat, BitVec.setWidth_eq]
    case abortRunning => exact fun h => congrArg _ (abort_of_running h)
    case abortParked => exact fun h => congrArg _ (abort_of_parked (parked' h))
    case abortEnding => exact fun h => congrArg _ (abort_of_ending (ending' h))
    case clear => exact fun h => congrArg _ (clearChan_of_done h)
    case keep => exact fun h h' => congrArg _ (clearChan_of_not_done h h')
    case appendEmpty =>
      intro h
      simp only [← fetch]
      exact congrArg _ (append_of_empty h)
    case appendRunning => exact fun h write => congrArg _ (append_of_running write h)
    case appendIdle =>
      intro h write
      simp only [← fetch]
      exact congrArg _ (append_of_idleAtTail write h)
    case appendEnding => exact fun h => congrArg _ (append_of_ending (ending' h))
  case stop =>
    rw [exec_slChannelStopped_of_drained up stopping drained,
      stopChan_of_err err small notAborted result desc, stopSignal, chanOf_writeResult]
    rfl

end Sys2Proof.Machine
end

section
/-! PROOFS. The step, what a command may change, and which commands are refused: the obligations O1 to
O7. -/

open Sys2Proof

namespace Sys2Proof.Machine

/-! ### The queue and the step -/

theorem step_of_cons {s : State} {c : Instr} {q : List Instr} (h : s.pending = c :: q) :
    step s = exec c (s.withPending q) := by
  rw [step, h]

theorem step_of_nil {s : State} (h : s.pending = []) : step s = .next s.idle := by
  rw [step, h]

/-- Settles O1: the queue of the state is the one put into it (`step_of_cons`). -/
theorem stepTakesTheFrontCommand : Obligations.StepTakesTheFrontCommand :=
  fun c q s => step_of_cons (s := s.withPending (c :: q)) rfl

/-- Settles O2, by the empty queue's branch of the step (`step_of_nil`). -/
theorem anEmptyQueueLetsOneTickGoBy : Obligations.AnEmptyQueueLetsOneTickGoBy :=
  fun _ h => step_of_nil h

/-! ### What a command may change -/

/-- Each command's meaning changes only the parts listed for it: one law per meaning. -/
theorem exec_leads (i : Instr) (s : State) : Leads (partsOf i) s (exec i s) :=
  match i with
  | .powerOnReset => execPowerOnReset_follows s
  | .systemReferenceLoss => execSystemReferenceLoss_follows s
  | .rstNReset => execRstNReset_follows s
  | .jtagSysreset => execJtagSysreset_follows s
  | .tapReset => execTapReset_follows s
  | .perst => execPerst_follows s
  | .resetRelease _ _ _ _ _ => execResetRelease_follows _ _ _ _ _ s
  | .firmwareCommissionReached => execFirmwareCommissionReached_follows s
  | .lkWatchdogExpiry => execLkWatchdogExpiry_follows s
  | .lkWdtKick _ => execLkWdtKick_follows _ s
  | .warmRestartResume _ _ => execWarmRestartResume_follows _ _ s
  | .cycleBoundary => execCycleBoundary_follows s
  | .hostWatchdogExpiry => execHostWatchdogExpiry_follows s
  | .mbTxData _ _ _ _ _ => execMbTxData_follows _ _ _ _ _ s
  | .mbTxDataAlias _ _ _ _ _ => execMbTxDataAlias_follows _ _ _ _ _ s
  | .mbTxDoorbell _ _ _ _ _ => execMbTxDoorbell_follows _ _ _ _ _ s
  | .mbRxData _ _ _ _ => execMbRxData_follows _ _ _ _ s
  | .mbLockRead _ _ _ => execMbLockRead_follows _ _ _ s
  | .mbLockWrite _ _ _ => execMbLockWrite_follows _ _ _ s
  | .mbIrqEnWrite _ _ _ _ _ => execMbIrqEnWrite_follows _ _ _ _ _ s
  | .hostBar2Write _ _ _ _ => execHostBar2Write_follows _ _ _ _ s
  | .hostBar2Read _ _ => execHostBar2Read_follows _ _ s
  | .pcieConfigWrite _ => execPcieConfigWrite_follows _ s
  | .undefinedOpcode _ _ _ => execUndefinedOpcode_follows _ _ _ s
  | .identify _ _ => execIdentify_follows _ _ s
  | .statusCommand _ _ => execStatusCommand_follows _ _ s
  | .queryCommand _ _ => execQueryCommand_follows _ _ s
  | .nopCommand _ _ => execNopCommand_follows _ _ s
  | .setMode _ _ => execSetMode_follows _ _ s
  | .setWatchdog _ _ => execSetWatchdog_follows _ _ s
  | .basinAlloc _ _ => execBasinAlloc_follows _ _ s
  | .basinFree _ _ => execBasinFree_follows _ _ s
  | .createMooring _ _ => execCreateMooring_follows _ _ s
  | .createScene _ _ => execCreateScene_follows _ _ s
  | .bindStation _ _ => execBindStation_follows _ _ s
  | .rebindStation _ _ => execRebindStation_follows _ _ s
  | .rebindStationComplete _ => execRebindStationComplete_follows _ s
  | .createVoice _ _ => execCreateVoice_follows _ _ s
  | .createMix _ _ => execCreateMix_follows _ _ s
  | .routeVoice _ _ => execRouteVoice_follows _ _ s
  | .openChannel _ _ => execOpenChannel_follows _ _ s
  | .createFence _ _ => execCreateFence_follows _ _ s
  | .createScript _ _ => execCreateScript_follows _ _ s
  | .scriptControl _ _ => execScriptControl_follows _ _ s
  | .setCycle _ _ => execSetCycle_follows _ _ s
  | .laneConfig _ _ => execLaneConfig_follows _ _ s
  | .setLoopPolicy _ _ => execSetLoopPolicy_follows _ _ s
  | .panelConfig _ _ => execPanelConfig_follows _ _ s
  | .audioPortConfig _ _ => execAudioPortConfig_follows _ _ s
  | .destroyObject _ _ => execDestroyObject_follows _ _ s
  | .loadTiles _ _ => execLoadTiles_follows _ _ s
  | .loadSamples _ _ => execLoadSamples_follows _ _ s
  | .loadScript _ _ => execLoadScript_follows _ _ s
  | .loadDefaults _ _ => execLoadDefaults_follows _ _ s
  | .forceOutput _ _ => execForceOutput_follows _ _ s
  | .laneTest _ _ => execLaneTest_follows _ _ s
  | .diagRead _ _ => execDiagRead_follows _ _ s
  | .imageWrite _ _ _ _ _ => execImageWrite_follows _ _ _ _ _ s
  | .imageConfirm _ _ _ => execImageConfirm_follows _ _ _ s
  | .rollbackAdvance _ _ => execRollbackAdvance_follows _ _ s
  | .keyRevoke _ _ => execKeyRevoke_follows _ _ s
  | .resetCommand _ _ => execResetCommand_follows _ _ s
  | .eventRecordDelivery => execEventRecordDelivery_follows s
  | .basinReadRequest _ _ _ => execBasinReadRequest_follows _ _ _ s
  | .basinWriteRequest _ _ _ => execBasinWriteRequest_follows _ _ _ s
  | .scrubRead _ => execScrubRead_follows _ s
  | .weirCas _ => execWeirCas_follows _ s
  | .weirSwap _ => execWeirSwap_follows _ s
  | .weirOperationDone _ => execWeirOperationDone_follows _ s
  | .lockCellRead _ _ => execLockCellRead_follows _ _ s
  | .lockCellWrite _ _ => execLockCellWrite_follows _ _ s
  | .reservationLapse _ => execReservationLapse_follows _ s
  | .waiterLapse _ _ => execWaiterLapse_follows _ _ s
  | .crossingTimeout _ _ => execCrossingTimeout_follows _ _ s
  | .stateParity _ => execStateParity_follows _ s
  | .pllUnlock _ => execPllUnlock_follows _ s
  | .marginLost _ => execMarginLost_follows _ s
  | .deadman _ => execDeadman_follows _ s
  | .jtagFence _ => execJtagFence_follows _ s
  | .jtagFenceRelease _ => execJtagFenceRelease_follows _ s
  | .isControlFence _ _ => execIsControlFence_follows _ _ s
  | .isControlReset _ _ => execIsControlReset_follows _ _ s
  | .islandResetDone _ => execIslandResetDone_follows _ s
  | .isControlRelease _ _ => execIsControlRelease_follows _ _ s
  | .droopDetected _ _ => execDroopDetected_follows _ _ s
  | .stretchEnd _ => execStretchEnd_follows _ s
  | .stretchLong _ => execStretchLong_follows _ s
  | .voltageLoopStep _ _ _ _ => execVoltageLoopStep_follows _ _ _ _ s
  | .frequencyLoopStep _ _ _ => execFrequencyLoopStep_follows _ _ _ s
  | .tempHigh _ _ => execTempHigh_follows _ _ s
  | .thermN _ _ => execThermN_follows _ _ s
  | .dropoutThresholdLower _ => execDropoutThresholdLower_follows _ s
  | .rasterWrite _ _ _ _ => execRasterWrite_follows _ _ _ _ s
  | .tpScRedraw _ _ => execTpScRedraw_follows _ _ s
  | .lineRender _ => execLineRender_follows _ s
  | .frameStart _ => execFrameStart_follows _ s
  | .lineCommit _ => execLineCommit_follows _ s
  | .sob _ => execSob_follows _ s
  | .lineMatch _ _ => execLineMatch_follows _ _ s
  | .tpEvq _ => execTpEvq_follows _ s
  | .balancerStep _ _ => execBalancerStep_follows _ _ s
  | .tpScFlip _ _ => execTpScFlip_follows _ _ s
  | .blitPoll => execBlitPoll_follows s
  | .tpBltKick _ _ => execTpBltKick_follows _ _ s
  | .blitStart => execBlitStart_follows s
  | .blitComplete => execBlitComplete_follows s
  | .frameTransmit _ => execFrameTransmit_follows _ s
  | .pieceAckTimeout _ => execPieceAckTimeout_follows _ s
  | .tpStRefresh _ _ => execTpStRefresh_follows _ _ s
  | .tpPnlRefresh _ => execTpPnlRefresh_follows _ s
  | .panelInitWait => execPanelInitWait_follows s
  | .teEdge => execTeEdge_follows s
  | .teTimeout => execTeTimeout_follows s
  | .sampleTick => execSampleTick_follows s
  | .blockBoundary => execBlockBoundary_follows s
  | .blockAvailable _ => execBlockAvailable_follows _ s
  | .keyOn _ _ _ => execKeyOn_follows _ _ _ s
  | .keyOff _ _ => execKeyOff_follows _ _ s
  | .moduleInserted _ => execModuleInserted_follows _ s
  | .moduleRead _ _ => execModuleRead_follows _ _ s
  | .moduleRemoved _ => execModuleRemoved_follows _ s
  | .rxLosChange _ _ => execRxLosChange_follows _ _ s
  | .txFault _ => execTxFault_follows _ s
  | .txFaultPulse _ => execTxFaultPulse_follows _ s
  | .ddmPoll _ _ => execDdmPoll_follows _ _ s
  | .eqAdaptStep _ _ _ => execEqAdaptStep_follows _ _ _ s
  | .txPostTrial _ => execTxPostTrial_follows _ s
  | .eyeMeasure _ _ => execEyeMeasure_follows _ _ s
  | .tapSave => execTapSave_follows s
  | .blockLockGained _ => execBlockLockGained_follows _ s
  | .blockLockLost _ => execBlockLockLost_follows _ s
  | .hiBerWindow _ _ => execHiBerWindow_follows _ _ s
  | .rxFrameDrop _ _ => execRxFrameDrop_follows _ _ s
  | .upstreamCycle _ _ _ _ => execUpstreamCycle_follows _ _ _ _ s
  | .alignmentLoss _ => execAlignmentLoss_follows _ s
  | .inFrame _ _ _ => execInFrame_follows _ _ _ s
  | .ackFrame _ _ _ => execAckFrame_follows _ _ _ s
  | .diagFrame _ _ _ => execDiagFrame_follows _ _ _ s
  | .inputCut => execInputCut_follows s
  | .dhTimerMatch _ => execDhTimerMatch_follows _ s
  | .lkTimerMatch => execLkTimerMatch_follows s
  | .dhHeart _ _ => execDhHeart_follows _ _ s
  | .sysTickLo _ => execSysTickLo_follows _ s
  | .interruptEntry _ => execInterruptEntry_follows _ s
  | .storeError _ => execStoreError_follows _ s
  | .illegalEncoding _ _ => execIllegalEncoding_follows _ _ s
  | .nopInstr _ => execNopInstr_follows _ s
  | .sync _ => execSync_follows _ s
  | .reti _ => execReti_follows _ s
  | .wfi _ => execWfi_follows _ s
  | .cli _ => execCli_follows _ s
  | .sti _ => execSti_follows _ s
  | .sysCall _ _ => execSysCall_follows _ _ s
  | .repInstr _ _ _ _ => execRepInstr_follows _ _ _ _ s
  | .reps _ _ _ => execReps_follows _ _ _ s
  | .repI _ _ _ _ => execRepI_follows _ _ _ _ s
  | .repsI _ _ _ => execRepsI_follows _ _ _ s
  | .getf _ _ => execGetf_follows _ _ s
  | .setf _ _ => execSetf_follows _ _ s
  | .jr _ _ => execJr_follows _ _ s
  | .callr _ _ => execCallr_follows _ _ s
  | .adr _ _ _ => execAdr_follows _ _ _ s
  | .movReg _ _ _ => execMovReg_follows _ _ _ s
  | .addReg _ _ _ => execAddReg_follows _ _ _ s
  | .adcReg _ _ _ => execAdcReg_follows _ _ _ s
  | .subReg _ _ _ => execSubReg_follows _ _ _ s
  | .sbcReg _ _ _ => execSbcReg_follows _ _ _ s
  | .andReg _ _ _ => execAndReg_follows _ _ _ s
  | .orReg _ _ _ => execOrReg_follows _ _ _ s
  | .xorReg _ _ _ => execXorReg_follows _ _ _ s
  | .cmpReg _ _ _ => execCmpReg_follows _ _ _ s
  | .tstReg _ _ _ => execTstReg_follows _ _ _ s
  | .movi _ _ _ => execMovi_follows _ _ _ s
  | .addi _ _ _ => execAddi_follows _ _ _ s
  | .subi _ _ _ => execSubi_follows _ _ _ s
  | .andi _ _ _ => execAndi_follows _ _ _ s
  | .ori _ _ _ => execOri_follows _ _ _ s
  | .xori _ _ _ => execXori_follows _ _ _ s
  | .cmpi _ _ _ => execCmpi_follows _ _ _ s
  | .tsti _ _ _ => execTsti_follows _ _ _ s
  | .shl _ _ _ => execShl_follows _ _ _ s
  | .shr _ _ _ => execShr_follows _ _ _ s
  | .sar _ _ _ => execSar_follows _ _ _ s
  | .rol _ _ _ => execRol_follows _ _ _ s
  | .ror _ _ _ => execRor_follows _ _ _ s
  | .shlReg _ _ _ => execShlReg_follows _ _ _ s
  | .shrReg _ _ _ => execShrReg_follows _ _ _ s
  | .sarReg _ _ _ => execSarReg_follows _ _ _ s
  | .rolReg _ _ _ => execRolReg_follows _ _ _ s
  | .rorReg _ _ _ => execRorReg_follows _ _ _ s
  | .negReg _ _ => execNegReg_follows _ _ s
  | .notReg _ _ => execNotReg_follows _ _ s
  | .sxb _ _ => execSxb_follows _ _ s
  | .swpb _ _ => execSwpb_follows _ _ s
  | .addq _ _ _ => execAddq_follows _ _ _ s
  | .subq _ _ _ => execSubq_follows _ _ _ s
  | .movp _ _ _ => execMovp_follows _ _ _ s
  | .addp _ _ _ => execAddp_follows _ _ _ s
  | .subp _ _ _ => execSubp_follows _ _ _ s
  | .cmpp _ _ _ => execCmpp_follows _ _ _ s
  | .mulu _ _ _ => execMulu_follows _ _ _ s
  | .muls _ _ _ => execMuls_follows _ _ _ s
  | .divu _ _ _ => execDivu_follows _ _ _ s
  | .divs _ _ _ => execDivs_follows _ _ _ s
  | .ldB _ _ _ _ => execLdB_follows _ _ _ _ s
  | .ldSb _ _ _ _ => execLdSb_follows _ _ _ _ s
  | .ld _ _ _ _ => execLd_follows _ _ _ _ s
  | .ldP _ _ _ _ => execLdP_follows _ _ _ _ s
  | .stB _ _ _ _ => execStB_follows _ _ _ _ s
  | .st _ _ _ _ => execSt_follows _ _ _ _ s
  | .stP _ _ _ _ => execStP_follows _ _ _ _ s
  | .inCell _ _ _ _ => execInCell_follows _ _ _ _ s
  | .inPair _ _ _ _ => execInPair_follows _ _ _ _ s
  | .outCell _ _ _ _ => execOutCell_follows _ _ _ _ s
  | .outPair _ _ _ _ => execOutPair_follows _ _ _ _ s
  | .mvm _ _ _ _ _ _ => execMvm_follows _ _ _ _ _ _ s
  | .inm _ _ _ _ _ _ => execInm_follows _ _ _ _ _ _ s
  | .outm _ _ _ _ _ _ => execOutm_follows _ _ _ _ _ _ s
  | .bmov _ _ _ => execBmov_follows _ _ _ s
  | .bsub _ _ _ _ _ => execBsub_follows _ _ _ _ _ s
  | .bbase _ _ _ => execBbase_follows _ _ _ s
  | .badd _ _ _ => execBadd_follows _ _ _ s
  | .baddi _ _ _ => execBaddi_follows _ _ _ s
  | .bgetB _ _ _ => execBgetB_follows _ _ _ s
  | .bgetF _ _ _ => execBgetF_follows _ _ _ s
  | .bgetL _ _ _ => execBgetL_follows _ _ _ s
  | .bgetM _ _ _ => execBgetM_follows _ _ _ s
  | .bset _ _ => execBset_follows _ _ s
  | .pmov _ _ _ => execPmov_follows _ _ _ s
  | .pget _ _ _ => execPget_follows _ _ _ s
  | .padd _ _ _ => execPadd_follows _ _ _ s
  | .pseti _ _ _ => execPseti_follows _ _ _ s
  | .bCc _ _ _ => execBCc_follows _ _ _ s
  | .bCcL _ _ _ => execBCcL_follows _ _ _ s
  | .callRel _ _ => execCallRel_follows _ _ s
  | .dbnz _ _ _ => execDbnz_follows _ _ _ s
  | .yieldService _ => execYieldService_follows _ s
  | .waitService _ => execWaitService_follows _ s
  | .postService _ => execPostService_follows _ s
  | .lockService _ => execLockService_follows _ s
  | .lockPoll _ => execLockPoll_follows _ s
  | .unlockService _ => execUnlockService_follows _ s
  | .sleepService _ => execSleepService_follows _ s
  | .sleepExpiry _ => execSleepExpiry_follows _ s
  | .exitTask _ => execExitTask_follows _ s
  | .budgetExpiry _ => execBudgetExpiry_follows _ s
  | .icClaim _ => execIcClaim_follows _ s
  | .icComplete _ _ => execIcComplete_follows _ _ s
  | .icRaise _ _ => execIcRaise_follows _ _ s
  | .discardCount _ _ _ _ => execDiscardCount_follows _ _ _ _ s
  | .icParityError _ _ _ => execIcParityError_follows _ _ _ s
  | .slDoorbell _ _ => execSlDoorbell_follows _ _ s
  | .slAbort _ _ => execSlAbort_follows _ _ s
  | .slClear _ _ => execSlClear_follows _ _ s
  | .slAppend _ _ _ => execSlAppend_follows _ _ _ s
  | .slSubmitPoll => execSlSubmitPoll_follows s
  | .slDescriptorFetch _ => execSlDescriptorFetch_follows _ s
  | .slBurstIssue => execSlBurstIssue_follows s
  | .slBurstComplete _ _ _ => execSlBurstComplete_follows _ _ _ s
  | .slTailRecheck _ => execSlTailRecheck_follows _ s
  | .slChannelStopped _ => execSlChannelStopped_follows _ s
  | .sqGo _ _ _ => execSqGo_follows _ _ _ s
  | .sqTxdata _ _ _ => execSqTxdata_follows _ _ _ s
  | .sqRxdata _ _ => execSqRxdata_follows _ _ s
  | .sqFrameEnd _ => execSqFrameEnd_follows _ s
  | .sqStallTimeout _ => execSqStallTimeout_follows _ s
  | .earlyRelease _ _ _ _ => execEarlyRelease_follows _ _ _ _ s
  | .gpOut _ _ _ => execGpOut_follows _ _ _ s
  | .gpOutSet _ _ _ => execGpOutSet_follows _ _ _ s
  | .gpOutClr _ _ _ => execGpOutClr_follows _ _ _ s
  | .gpOutTgl _ _ _ => execGpOutTgl_follows _ _ _ s
  | .gpOutMwl _ _ _ => execGpOutMwl_follows _ _ _ s
  | .gpOutMwh _ _ _ => execGpOutMwh_follows _ _ _ s
  | .gpDir _ _ _ => execGpDir_follows _ _ _ s
  | .gpDirMwl _ _ _ => execGpDirMwl_follows _ _ _ s
  | .gpDirMwh _ _ _ => execGpDirMwh_follows _ _ _ s
  | .gpioPadChange _ _ => execGpioPadChange_follows _ _ s
  | .gpioFilteredChange _ => execGpioFilteredChange_follows _ s
  | .i2cGo _ _ _ _ => execI2cGo_follows _ _ _ _ s
  | .i2cDone _ _ => execI2cDone_follows _ _ s
  | .i2cStretchTimeout => execI2cStretchTimeout_follows s
  | .voltageWrite _ _ _ => execVoltageWrite_follows _ _ _ s
  | .voltageRead _ _ => execVoltageRead_follows _ _ s
  | .statusRead _ _ => execStatusRead_follows _ _ s
  | .avsDone _ _ _ _ => execAvsDone_follows _ _ _ _ s
  | .registerWrite _ _ _ _ => execRegisterWrite_follows _ _ _ _ s
  | .rcFieldRead _ _ _ => execRcFieldRead_follows _ _ _ s
  | .perstRelease => execPerstRelease_follows s
  | .txFaultCleared _ => execTxFaultCleared_follows _ s
  | .msixTableWrite _ _ => execMsixTableWrite_follows _ _ s

/-- Settles O4, command by command (`exec_leads`). -/
theorem everyCommandChangesOnlyItsParts : Obligations.EveryCommandChangesOnlyItsParts :=
  fun i s => exec_leads i s

/-- A step follows the state without its front command, whichever it is. -/
theorem step_follows {s t : State} (h : step s = .next t) :
    ∃ q l, Follows l (s.withPending q) t := by
  cases e : s.pending with
  | nil =>
    rw [step_of_nil e, Host.Outcome.next.injEq] at h
    exact ⟨s.pending, [.tick], h ▸ Follows.set_tick _ (by decide) (Follows.refl _ s)⟩
  | cons c q => exact ⟨q, partsOf c, exec_leads c _ t (step_of_cons e ▸ h)⟩

/-- Settles O5: every part of a step keeps the canonical form (`step_follows`). -/
theorem everyStepKeepsBasinCanonical : Obligations.EveryStepKeepsBasinCanonical := by
  intro s t ok h
  obtain ⟨_, _, follows⟩ := step_follows h
  exact follows.mem ok

/-- Settles O6: every part of a step only adds to the OTP (`step_follows`). -/
theorem everyStepOnlyAddsToTheOtp : Obligations.EveryStepOnlyAddsToTheOtp := by
  intro s t h
  obtain ⟨_, _, follows⟩ := step_follows h
  exact follows.grows

/-- Settles O7: no byte of Basin is listed after reset. -/
theorem resetHasBasinCanonical : Obligations.ResetHasBasinCanonical := reset_memOk

/-! ### Which commands are refused -/

/-- An outcome is a refusal of ill-formed operands where `ok` does not hold, and a next state where it
does. -/
def Judged (ok : Bool) (o : Host.Outcome State Fault Refusal) : Prop :=
  (ok = false → o = .refused .illFormed) ∧ (ok = true → ∃ t, o = .next t)

namespace Judged

theorem next (t : State) : Judged true (.next t) := ⟨nofun, fun _ => ⟨t, rfl⟩⟩

theorem of_cond {c : Prop} [Decidable c] {ok : Bool} {o : Host.Outcome State Fault Refusal}
    (same : ok = true ↔ c) (no : ¬ c → o = .refused .illFormed) (yes : c → ∃ t, o = .next t) :
    Judged ok o :=
  ⟨fun bad => no fun h => by simp [same.mpr h] at bad, fun good => yes (same.mp good)⟩

/-- A meaning that tests its operands first. -/
theorem ite {c : Prop} [Decidable c] {ok : Bool} {t : State} (same : ok = true ↔ c) :
    Judged ok (if c then .next t else .refused .illFormed) :=
  of_cond same (fun h => if_neg h) fun h => ⟨t, if_pos h⟩

theorem command (op : Nat) (cls : Cls) (rec : Bool) (mb : Fin 8) (msg : Msg) (s : State)
    (run : Cmd → State → Res) : Judged msg.wf (command op cls rec mb msg s run) :=
  ite decide_eq_true_iff

theorem onNext {ok : Bool} {o : Host.Outcome State Fault Refusal} (h : Judged ok o)
    (f : State → State) : Judged ok (onNext o f) := by
  obtain ⟨refused, next⟩ := h
  refine ⟨fun bad => by rw [refused bad]; rfl, fun good => ?_⟩
  obtain ⟨t, e⟩ := next good
  exact ⟨f t, by rw [e]; rfl⟩

end Judged

theorem execHostBar2Read_next (addr : BasinAddr) (len : Nat) (s : State)
    (h : 1 ≤ len ∧ addr.val % 4096 + len ≤ 4096) : ∃ t, execHostBar2Read addr len s = .next t := by
  simp only [execHostBar2Read, if_pos h]
  split
  · exact ⟨_, rfl⟩
  · split
    · exact ⟨_, rfl⟩
    · split <;> exact ⟨_, rfl⟩

theorem execHostBar2Write_next (addr : BasinAddr) (data : List Byte) (ep bar0 : Bool) (s : State)
    (h : 1 ≤ data.length ∧ data.length ≤ 256 ∧ addr.val % 4096 + data.length ≤ 4096 ∧
      (bar0 = true → ep = true)) : ∃ t, execHostBar2Write addr data ep bar0 s = .next t := by
  simp only [execHostBar2Write, if_pos h]
  split
  · exact ⟨_, rfl⟩
  · split
    · exact ⟨_, rfl⟩
    · split
      · exact ⟨_, rfl⟩
      · split <;> exact ⟨_, rfl⟩

/-- The meanings that test their operands test what `Instr.wf` asks of them; every other meaning
answers a next state as it stands. -/
theorem exec_judged (i : Instr) (s : State) : Judged i.wf (exec i s) := by
  cases i
  case identify | statusCommand | queryCommand | nopCommand | setMode | setWatchdog | basinAlloc |
    basinFree | createMooring | createScene | bindStation | rebindStation | createVoice |
    createMix | routeVoice | openChannel | createFence | createScript | scriptControl | setCycle |
    laneConfig | setLoopPolicy | audioPortConfig | destroyObject | loadTiles | loadSamples |
    loadScript | loadDefaults | forceOutput | laneTest | diagRead | imageWrite | imageConfirm |
    rollbackAdvance | keyRevoke | resetCommand=>
    exact Judged.command ..
  case panelConfig => exact (Judged.command ..).onNext _
  case mbTxDataAlias => exact Judged.ite (by simp [Instr.wf])
  case hostBar2Write =>
    refine .of_cond ?_ (fun h => if_neg h) fun h => execHostBar2Write_next _ _ _ _ _ h
    simp only [Instr.wf, runWithin, Bool.and_eq_true, decide_eq_true_eq, Bool.or_eq_true,
      Bool.not_eq_true', and_assoc]
    grind
  case hostBar2Read =>
    exact .of_cond (by simp [Instr.wf, runWithin]) (fun h => if_neg h) 
      fun h => execHostBar2Read_next _ _ _ h
  case basinReadRequest | basinWriteRequest =>
    exact Judged.ite (by simp [Instr.wf, runWithin])
  case msixTableWrite | undefinedOpcode | rasterWrite | illegalEncoding =>
    exact Judged.ite (by simp [Instr.wf])
  case eqAdaptStep => exact Judged.ite (by simp [Instr.wf, eqSteps])
  all_goals exact Judged.next _

/-- Settles O3, command by command (`exec_judged`). -/
theorem onlyIllFormedCommandsAreRefused : Obligations.OnlyIllFormedCommandsAreRefused :=
  fun i s => exec_judged i s

end Sys2Proof.Machine
end

section
/-! PROOFS. The register, shift, pair, base and system instructions of the Ceing cores (chapter 15,
R603 to R619): sums and differences with their flags, the instructions as functions of a core, and the
obligations O55 to O58 and O60. -/

open Sys2Proof

namespace Sys2Proof.Machine

/-! ### How an instruction begins (R553, R608) -/

/-- The state in which an instruction of a core acts: no `wfi` is in progress (R608). -/
def unwaited (s : State) (n : Nat) : State := updCore s n (fun c => { c with waiting := false })

@[simp] theorem coreOf_unwaited (s : State) (n : Nat) :
    coreOf (unwaited s n) n = { coreOf s n with waiting := false } := coreOf_updCore_self ..

/-- A command whose instruction comes down to a change of its core. -/
theorem CoreGets.of_begin {i : Instr} {s : State} {n : Fin 8} {len : Nat} {g : State → State}
    {f : Core → Core} {c : Core} (ready : CoreReady s n len) (he : exec i s = .next (begin_ s n len g))
    (hg : g (unwaited s n) = updCore (unwaited s n) n f)
    (hf : f { coreOf s n with waiting := false } = c) : CoreGets i s n c := by
  have ends : begin_ s n len g = updCore (unwaited s n) n f := (begin_of_ready ready g).trans hg
  refine ⟨_, he.trans (congrArg _ ends), ?_, ((OnlyCore.refl s n).updCore _).updCore f⟩
  rw [coreOf_updCore_self, coreOf_unwaited, hf]

/-! ### Sums and differences (R604) -/

section arith
variable {w : Nat} (a b : BitVec w) (ci : Bool)

theorem addWith_eq : addWith a b ci = (a + b + BitVec.ofNat w (b2n ci),
    decide (2 ^ w ≤ a.toNat + b.toNat + b2n ci),
    decide ((a + b + BitVec.ofNat w (b2n ci)).toInt ≠ a.toInt + b.toInt + b2n ci)) := by
  have sum : BitVec.ofNat w (a.toNat + b.toNat + b2n ci) = a + b + BitVec.ofNat w (b2n ci) := by
    simp [BitVec.ofNat_add]
  rw [addWith, sum]

theorem addWith_no_carry : addWith a b false =
    (a + b, decide (2 ^ w ≤ a.toNat + b.toNat), decide ((a + b).toInt ≠ a.toInt + b.toInt)) := by
  simp [addWith_eq, b2n]

theorem subWith_no_borrow : subWith a b false =
    (a - b, decide (a.toNat < b.toNat), decide ((a - b).toInt ≠ a.toInt - b.toInt)) := by
  simp [subWith, b2n]

end arith

/-! ### The register and immediate forms (R609) -/

section alu
variable (c : Core) (rd : Fin 16) (x : Cell)

theorem Alu.run_add : Alu.run .add c rd x = c.result rd (c.d[rd] + x)
    (decide (2 ^ 16 ≤ c.d[rd].toNat + x.toNat))
    (decide ((c.d[rd] + x).toInt ≠ c.d[rd].toInt + x.toInt)) := by
  simp only [Alu.run, addWith_no_carry]
  rfl

theorem Alu.run_adc : Alu.run .adc c rd x = c.result rd (c.d[rd] + x + BitVec.ofNat 16 (b2n c.c))
    (decide (2 ^ 16 ≤ c.d[rd].toNat + x.toNat + b2n c.c))
    (decide ((c.d[rd] + x + BitVec.ofNat 16 (b2n c.c)).toInt ≠
      c.d[rd].toInt + x.toInt + b2n c.c)) := by
  simp only [Alu.run, addWith_eq]
  rfl

theorem Alu.run_sub : Alu.run .sub c rd x = c.result rd (c.d[rd] - x)
    (decide (c.d[rd].toNat < x.toNat)) (decide ((c.d[rd] - x).toInt ≠ c.d[rd].toInt - x.toInt)) := by
  simp only [Alu.run, subWith_no_borrow]
  rfl

theorem Alu.run_cmp : Alu.run .cmp c rd x = c.flagged (c.d[rd] - x)
    (decide (c.d[rd].toNat < x.toNat)) (decide ((c.d[rd] - x).toInt ≠ c.d[rd].toInt - x.toInt)) := by
  simp only [Alu.run, subWith_no_borrow]
  rfl

end alu

/-- Settles O55: a sum and a difference without a carry in (`addWith_no_carry`, `subWith_no_borrow`)
give the flags of R604; the other forms are their functions as they stand. -/
theorem aluInstructionsComputeTheirResult : Obligations.AluInstructionsComputeTheirResult := by
  refine ⟨fun core rd rs s ready => ?register, fun core rd x s ready => ?immediate⟩
  case register =>
    exact ⟨.of_regInstr ready rfl rfl, .of_regInstr ready rfl (Alu.run_add ..),
      .of_regInstr ready rfl (Alu.run_adc ..), .of_regInstr ready rfl (Alu.run_sub ..),
      .of_regInstr ready rfl rfl, .of_regInstr ready rfl rfl, .of_regInstr ready rfl rfl,
      .of_regInstr ready rfl rfl, .of_regInstr ready rfl (Alu.run_cmp ..),
      .of_regInstr ready rfl rfl⟩
  case immediate =>
    exact ⟨.of_regInstr ready rfl rfl, .of_regInstr ready rfl (Alu.run_add ..),
      .of_regInstr ready rfl (Alu.run_sub ..), .of_regInstr ready rfl rfl,
      .of_regInstr ready rfl rfl, .of_regInstr ready rfl rfl,
      .of_regInstr ready rfl (Alu.run_cmp ..), .of_regInstr ready rfl rfl⟩

/-! ### Unary instructions and shifts (R610) -/

section shift
variable (c : Core) (rd : Fin 16)

/-- A count of 0 leaves the register (R610). -/
theorem Shift.run_zero (k : Shift) (v : Cell) : (k.run v 0).1 = v := by
  cases k
  case sar => simp [Shift.run, BitVec.sshiftRight]
  case rol => simp [Shift.run, BitVec.rotateLeft, BitVec.rotateLeftAux, BitVec.ushiftRight_eq_zero]
  case ror => simp [Shift.run, BitVec.rotateRight, BitVec.rotateRightAux]
  all_goals simp [Shift.run]

theorem Shift.apply_succ (k : Shift) (n : Nat) : k.apply c rd (n + 1) =
    c.result rd (k.run c.d[rd] (n + 1)).1 (k.run c.d[rd] (n + 1)).2 false := by
  simp only [Shift.apply, if_neg (Nat.succ_ne_zero n)]
  rfl

/-- A shift by a count that may be 0, which clears C (R610). -/
theorem Shift.apply_eq (k : Shift) (n : Nat) : k.apply c rd n =
    c.result rd (k.run c.d[rd] n).1 (decide (n ≠ 0) && (k.run c.d[rd] n).2) false := by
  cases n with
  | zero =>
    rw [Shift.run_zero]
    rfl
  | succ n => simp [Shift.apply_succ]

theorem arith_neg : (c.arith (subWith 0 c.d[rd] false)).setD rd (subWith 0 c.d[rd] false).1 =
    c.result rd (-c.d[rd]) (decide (c.d[rd] ≠ 0)) (decide ((-c.d[rd]).toInt ≠ -c.d[rd].toInt)) := by
  have borrow : decide ((0 : Cell).toNat < c.d[rd].toNat) = decide (c.d[rd] ≠ 0) := by
    simp [BitVec.toNat_eq, Nat.pos_iff_ne_zero]
  have minus : (0 : Cell) - c.d[rd] = -c.d[rd] := BitVec.zero_sub _
  have signed : (0 : Cell).toInt - c.d[rd].toInt = -c.d[rd].toInt := Int.zero_sub _
  rw [subWith_no_borrow, borrow, minus, signed]
  rfl

end shift

/-- A constant of `addq` and `subq`, which is 1 to 16. -/
theorem toNat_quick (k : Fin 16) : (BitVec.ofNat 16 (k.val + 1)).toNat = k.val + 1 :=
  (BitVec.toNat_ofNat ..).trans (Nat.mod_eq_of_lt (by omega))

theorem toInt_quick (k : Fin 16) : (BitVec.ofNat 16 (k.val + 1)).toInt = ((k.val + 1 : Nat) : Int) := by
  rw [BitVec.toInt_eq_toNat_of_lt (by rw [toNat_quick]; omega), toNat_quick]

/-- Settles O56: a shift is one write of a register (`Shift.apply_eq`), where a count of 0 leaves it
(`Shift.run_zero`); the constants of `addq` and `subq` are small (`toNat_quick`, `toInt_quick`). -/
theorem unaryAndShiftInstructionsComputeTheirResult :
    Obligations.UnaryAndShiftInstructionsComputeTheirResult := by
  refine ⟨fun core rd k s ready => ?immediate, fun core rd rs s ready => ?register⟩
  case immediate =>
    have shifted (op : Shift) := Shift.apply_succ ((coreOf s core).past 1) rd op k
    refine ⟨.of_regInstr ready rfl (shifted .shl), .of_regInstr ready rfl (shifted .shr),
      .of_regInstr ready rfl (shifted .sar), .of_regInstr ready rfl (shifted .rol),
      .of_regInstr ready rfl (shifted .ror), .of_regInstr ready rfl (arith_neg _ rd),
      .of_regInstr ready rfl rfl, .of_regInstr ready rfl rfl, .of_regInstr ready rfl rfl,
      .of_regInstr ready rfl ?addq, .of_regInstr ready rfl ?subq⟩
    case addq =>
      refine (Alu.run_add _ rd (BitVec.ofNat 16 (k.val + 1))).trans ?_
      rw [toNat_quick, toInt_quick]
      rfl
    case subq =>
      refine (Alu.run_sub _ rd (BitVec.ofNat 16 (k.val + 1))).trans ?_
      rw [toNat_quick, toInt_quick]
      rfl
  case register =>
    have shifted (op : Shift) :=
      Shift.apply_eq ((coreOf s core).past 1) rd op ((coreOf s core).d[rs].toNat % 16)
    have small : (coreOf s core).d[rs].toNat % 16 % 16 = (coreOf s core).d[rs].toNat % 16 :=
      Nat.mod_mod _ _
    refine ⟨.of_regInstr ready rfl (shifted .shl), .of_regInstr ready rfl (shifted .shr),
      .of_regInstr ready rfl (shifted .sar), .of_regInstr ready rfl ?rol,
      .of_regInstr ready rfl ?ror⟩
    case rol =>
      have h := shifted .rol
      rw [Shift.run, small] at h
      exact h
    case ror =>
      have h := shifted .ror
      rw [Shift.run, small] at h
      exact h

/-! ### Pairs, multiplication and division (R611, R612) -/

section pairs
variable (c : Core) (k j : Fin 8) (rs : Fin 16)

theorem arith_addp : (c.arith (addWith (c.pair k) (c.pair j) false)).setPair k
      (addWith (c.pair k) (c.pair j) false).1 =
    c.resultPair k (c.pair k + c.pair j) (decide (2 ^ 32 ≤ (c.pair k).toNat + (c.pair j).toNat))
      (decide ((c.pair k + c.pair j).toInt ≠ (c.pair k).toInt + (c.pair j).toInt)) := by
  rw [addWith_no_carry]
  rfl

theorem arith_subp : (c.arith (subWith (c.pair k) (c.pair j) false)).setPair k
      (subWith (c.pair k) (c.pair j) false).1 =
    c.resultPair k (c.pair k - c.pair j) (decide ((c.pair k).toNat < (c.pair j).toNat))
      (decide ((c.pair k - c.pair j).toInt ≠ (c.pair k).toInt - (c.pair j).toInt)) := by
  rw [subWith_no_borrow]
  rfl

theorem arith_cmpp : c.arith (subWith (c.pair k) (c.pair j) false) =
    c.flagged (c.pair k - c.pair j) (decide ((c.pair k).toNat < (c.pair j).toNat))
      (decide ((c.pair k - c.pair j).toInt ≠ (c.pair k).toInt - (c.pair j).toInt)) := by
  rw [subWith_no_borrow]
  rfl

end pairs

theorem setWidth_mul (x y : Cell) :
    (x.setWidth 32 * y.setWidth 32 : Word) = BitVec.ofNat 32 (x.toNat * y.toNat) := by
  simp [BitVec.ofNat_mul]

theorem signExtend_mul (x y : Cell) :
    (x.signExtend 32 * y.signExtend 32 : Word) = BitVec.ofInt 32 (x.toInt * y.toInt) := by
  rw [BitVec.ofInt_mul]
  rfl

/-- A division by a register that is not 0 is a change of its core (R612). -/
theorem CoreGets.of_divide {i : Instr} {s : State} {core : Fin 8} {rs : Fin 16} {f : Core → Core}
    {c : Core} (ready : CoreReady s core 1) (he : exec i s = .next (divide s core rs f))
    (nonzero : (coreOf s core).d[rs] ≠ 0) (hf : f ((coreOf s core).past 1) = c) :
    CoreGets i s core c := by
  refine .of_begin ready he (if_neg ?_) hf
  rw [coreOf_unwaited]
  exact nonzero

section fits
variable {q : Int}

theorem fitsCell_eq_true : (decide (-32768 ≤ q) && decide (q ≤ 32767)) = true ↔
    -32768 ≤ q ∧ q ≤ 32767 := by simp

theorem fitsCell_eq_false : (decide (-32768 ≤ q) && decide (q ≤ 32767)) = false ↔
    q < -32768 ∨ 32767 < q := by simp [imp_iff_not_or]

end fits

section divided
variable {c : Core} {k : Fin 8} {fits : Bool} {q r : Cell}

theorem Core.divided_of_fits (h : fits = true) : c.divided k fits q r =
    { c.flagged q false false with d := (c.d.set (lowReg k) q).set (highReg k) r } := by
  rw [Core.divided, if_pos h]
  rfl

theorem Core.divided_of_unfit (h : fits = false) :
    c.divided k fits q r = { c with c := false, v := true } := by
  rw [Core.divided, h]
  rfl

end divided

/-- Settles O57: a product of extended operands is that of their values (`setWidth_mul`,
`signExtend_mul`), and a division that may be made is one change of the core (`CoreGets.of_divide`),
by whether its quotient fits. -/
theorem pairMultiplyAndDivideInstructionsComputeTheirResult :
    Obligations.PairMultiplyAndDivideInstructionsComputeTheirResult := by
  refine ⟨fun core k j rs s ready => ?multiply, fun core k rs s ready => ?divide⟩
  case multiply =>
    refine ⟨.of_regInstr ready rfl rfl, .of_regInstr ready rfl (arith_addp ..),
      .of_regInstr ready rfl (arith_subp ..), .of_regInstr ready rfl (arith_cmpp ..),
      .of_regInstr ready rfl ?mulu, .of_regInstr ready rfl ?muls⟩
    case mulu => simp only [setWidth_mul]; rfl
    case muls => simp only [signExtend_mul]; rfl
  case divide =>
    intro c a x done unfit nonzero
    refine ⟨fun fits => ?_, fun large => ?_, fun fits => ?_, fun large => ?_⟩
    all_goals refine .of_divide ready rfl nonzero ?_
    · exact Core.divided_of_fits (decide_eq_true fits)
    · exact Core.divided_of_unfit (decide_eq_false (Nat.not_lt.mpr large))
    · exact Core.divided_of_fits (fitsCell_eq_true.mpr fits)
    · exact Core.divided_of_unfit (fitsCell_eq_false.mpr large)

/-! ### Base registers and port bases (R617 to R619) -/

/-- An instruction of the kernel level that a core at that level executes is a change of the core
(R606). -/
theorem CoreGets.of_privInstr {i : Instr} {s : State} {core : Fin 8} {len : Nat} {g : State → State}
    {f : Core → Core} {c : Core} (ready : CoreReady s core len)
    (he : exec i s = .next (privInstr s core len g)) (kernel : (coreOf s core).kernel = true)
    (hg : g (unwaited s core) = updCore (unwaited s core) core f)
    (hf : f { coreOf s core with waiting := false } = c) : CoreGets i s core c := by
  refine .of_begin ready he ?_ hf
  simp [kernel, hg]

section bsub
variable {s : State} {core k j a b : Fin 8}

theorem w32_toNat_add (x y : Word) : w32 (x.toNat + y.toNat) = x + y := by
  simp [w32, BitVec.ofNat_add]

/-- The last byte of a piece that is not empty (R618). -/
theorem w32_last {x y z : Word} (h : z ≠ 0) :
    w32 (x.toNat + y.toNat + z.toNat - 1) = x + y + z - 1 := by
  have pos : 1 ≤ z.toNat := Nat.pos_of_ne_zero fun e => h (BitVec.eq_of_toNat_eq e)
  apply BitVec.eq_of_toNat_eq
  simp only [w32, BitVec.toNat_ofNat, BitVec.toNat_sub, BitVec.toNat_add]
  simp
  omega

/-- A piece that lies inside its source (R618). -/
theorem coreGets_bsub (ready : CoreReady s core 2) (nonempty : (coreOf s core).pair b ≠ 0)
    (first : (coreOf s core).b[j].floor.toNat ≤
      (coreOf s core).b[j].base.toNat + ((coreOf s core).pair a).toNat)
    (last : (coreOf s core).b[j].base.toNat + ((coreOf s core).pair a).toNat +
      ((coreOf s core).pair b).toNat - 1 ≤ (coreOf s core).b[j].limit.toNat) :
    CoreGets (.bsub core k j a b) s core { (coreOf s core).past 2 with
      b := (coreOf s core).b.set k
        { base := (coreOf s core).b[j].base + (coreOf s core).pair a,
          floor := (coreOf s core).b[j].base + (coreOf s core).pair a,
          limit := (coreOf s core).b[j].base + (coreOf s core).pair a + (coreOf s core).pair b - 1,
          mode := (coreOf s core).b[j].mode } } := by
  refine .of_begin ready rfl (if_neg ?inside) ?ends
  case inside =>
    rw [coreOf_unwaited]
    exact fun h => h.elim nonempty (·.elim (Nat.not_lt.mpr first) (Nat.not_lt.mpr last))
  case ends =>
    have some : Core.pair { coreOf s core with waiting := false } b ≠ 0 := nonempty
    rw [coreOf_unwaited, w32_toNat_add, w32_last some]
    rfl

end bsub

/-- Settles O58: the register instructions are their functions as they stand, `bset` one at the kernel
level (`CoreGets.of_privInstr`), and `bsub` one for a piece inside its source (`coreGets_bsub`). -/
theorem baseInstructionsWriteTheirBase : Obligations.BaseInstructionsWriteTheirBase := by
  refine ⟨fun core k j a b x s => ⟨fun ready => ?base, fun ready => ?piece⟩,
    fun core k r x s => ⟨fun ready => ?port, fun ready => ?pseti⟩⟩
  case base =>
    exact ⟨.of_regInstr ready rfl rfl, .of_regInstr ready rfl rfl, .of_regInstr ready rfl rfl,
      .of_regInstr ready rfl rfl, .of_regInstr ready rfl rfl, .of_regInstr ready rfl rfl,
      .of_regInstr ready rfl rfl, fun kernel => .of_privInstr ready rfl kernel rfl rfl⟩
  case piece =>
    exact ⟨.of_regInstr ready rfl rfl, fun nonempty => coreGets_bsub ready nonempty⟩
  case port =>
    exact ⟨.of_regInstr ready rfl rfl, .of_regInstr ready rfl rfl, .of_regInstr ready rfl rfl⟩
  case pseti => exact .of_regInstr ready rfl rfl

/-! ### System instructions (R606, R608, R570) -/

theorem testBit_mod_sixteen {n : Nat} (x : BitVec n) {i : Nat} (h : i < 4) :
    (x.toNat % 16).testBit i = x.getLsbD i := by
  have low := Nat.testBit_mod_two_pow x.toNat 4 i
  rw [decide_eq_true h, Bool.true_and] at low
  exact low

/-- The flags that four low bits of a value give. -/
theorem Core.setFlags_low {n : Nat} (c : Core) (x : BitVec n) : c.setFlags (x.toNat % 16) =
    { c with z := x.getLsbD 3, n := x.getLsbD 2, c := x.getLsbD 1, v := x.getLsbD 0 } := by
  simp only [Core.setFlags, testBit_mod_sixteen, Nat.reduceLT]

theorem Core.flags_eq (c : Core) : c.flags = 8 * b2n c.z + 4 * b2n c.n + 2 * b2n c.c + b2n c.v := by
  simp only [Core.flags, Nat.mul_comm]

/-- Settles O60: the flags in a register are its four low bits (`Core.setFlags_low`,
`Core.flags_eq`), and what is only for the kernel level is a change of the core there
(`CoreGets.of_privInstr`). -/
theorem systemInstructionsActOnTheirCore : Obligations.SystemInstructionsActOnTheirCore := by
  intro core r rel s
  refine ⟨fun ready => ?_, fun ready => .of_regInstr ready rfl rfl⟩
  refine ⟨.of_regInstr ready rfl rfl, .of_regInstr ready rfl rfl, .of_regInstr ready rfl rfl,
    .of_regInstr ready rfl ?getf, .of_regInstr ready rfl (Core.setFlags_low ..),
    .of_regInstr ready rfl rfl, .of_regInstr ready rfl rfl, fun none => .of_begin (f := fun c => c.skip 1) ready rfl ?sync rfl,
    fun kernel => .of_privInstr ready rfl kernel rfl ?reti,
    fun kernel => .of_privInstr ready rfl kernel rfl rfl⟩
  case getf =>
    rw [Core.flags_eq]
    rfl
  case sync => simp [none]
  case reti =>
    rw [Core.reti, Core.setFlags_low]
    rfl

end Sys2Proof.Machine
end

section
/-! PROOFS. Requests to Basin (chapter 05, R202 to R211): what a write of clean doublewords stores, what
a correction and a poisoning do, the scrubber, and the obligations O25 and O26. -/

open Sys2Proof

namespace Sys2Proof.Machine

/-! ### Clean doublewords -/

/-- Doubleword `d` has no error. -/
def CleanDw (s : State) (d : Nat) : Prop := (dwTag s d).vote = false ∧ dwSynd s d = 0

/-- Every doubleword that a run of bytes touches is clean. -/
def CleanRun (s : State) (a n : Nat) : Prop := ∀ x, a ≤ x → x < a + n → CleanDw s (x / 8)

theorem CleanDw.setTag {s : State} {x : Nat} (h : CleanDw s x) (d : Nat) : CleanDw (setTag s d {}) x := by
  refine ⟨?_, h.2⟩
  by_cases same : x = d
  · subst same
    exact congrArg Tag.vote (Tab.get_set_self ({} : Tag) s.basin.tags x {})
  · exact (congrArg Tag.vote (Tab.get_set_of_ne ({} : Tag) s.basin.tags {} same)).trans h.1

/-- The first part of a run. -/
theorem CleanRun.left {s : State} {a n k : Nat} (h : CleanRun s a n) (hk : k ≤ n) : CleanRun s a k :=
  fun x lo hi => h x lo (by omega)

/-- What follows the first part of a run. -/
theorem CleanRun.right {s : State} {a n k : Nat} (h : CleanRun s a n) (hk : k ≤ n) :
    CleanRun s (a + k) (n - k) :=
  fun x lo hi => h x (by omega) (by omega)

/-- Only tags of Basin differ between two states. -/
def OnlyTags (s t : State) : Prop := t = onBasin s (fun b => { b with tags := t.basin.tags })

theorem OnlyTags.refl (s : State) : OnlyTags s s := rfl

theorem OnlyTags.trans {s t u : State} (h : OnlyTags s t) (g : OnlyTags t u) : OnlyTags s u :=
  Eq.trans (show u = _ from g)
    ((congrArg (fun x => onBasin x (fun b => { b with tags := u.basin.tags })) h).trans rfl)

theorem onlyTags_setTag (s : State) (d : Nat) : OnlyTags s (setTag s d {}) := rfl

/-! ### Reading clean doublewords (R205, R208) -/

theorem readDws_of_cleanRun {fuel : Nat} {s : State} (agent : Nat) {a n : Nat}
    (clean : CleanRun s a n) (enough : n ≤ fuel) :
    ∃ t, readDws fuel s agent a n = (t, some (peek s a n)) ∧ OnlyTags s t := by
  induction fuel generalizing s a n with
  | zero =>
    obtain rfl : n = 0 := by omega
    exact ⟨s, rfl, .refl s⟩
  | succ fuel ih =>
    by_cases empty : n = 0
    · subst empty
      exact ⟨s, rfl, .refl s⟩
    have first : CleanDw s (a / 8) := clean a (Nat.le_refl a) (by omega)
    have later : CleanRun (setTag s (a / 8) {}) (a + min (8 - a % 8) n) (n - min (8 - a % 8) n) :=
      fun x lo hi => (clean.right (Nat.min_le_right _ _) x lo hi).setTag _
    obtain ⟨t, rest, only⟩ := ih later (by omega)
    refine ⟨t, ?_, (onlyTags_setTag s _).trans only⟩
    have here : ((leBytes 8 (dwData s (a / 8)).toNat).drop (a % 8)).take (min (8 - a % 8) n) =
        peek s a (min (8 - a % 8) n) := by
      rw [leBytes_dwData, take_drop_peek _ _ (by omega), Nat.div_add_mod]
    have same : peek (setTag s (a / 8) {}) (a + min (8 - a % 8) n) (n - min (8 - a % 8) n) =
        peek s (a + min (8 - a % 8) n) (n - min (8 - a % 8) n) := peek_congr rfl _ _
    simp only [readDws, empty, if_false, fetchDw_of_clean first.1 first.2, rest, here, same,
      peek_append]
    rw [Nat.add_sub_cancel' (Nat.min_le_right _ _)]

theorem readReq_of_cleanRun {s : State} (agent : Nat) {a n : Nat}
    (up : running s (islBank (bankOf a)) = true) (clean : CleanRun s a n) :
    ∃ t, readReq s agent a n = (t, .ok (peek s a n)) ∧ OnlyTags s t := by
  obtain ⟨t, read, only⟩ := readDws_of_cleanRun agent clean (Nat.le_refl n)
  refine ⟨t, ?_, only⟩
  simp only [readReq, up, Bool.not_true, Bool.false_eq_true, if_false, read]

theorem readReq_of_fenced {s : State} (agent : Nat) {a : Nat} (n : Nat)
    (down : running s (islBank (bankOf a)) = false) : readReq s agent a n = (s, .error .fenced) := by
  simp only [readReq, down, Bool.not_false, if_true]

/-! ### Writing clean doublewords (R205, R209) -/

/-- A doubleword made of eight bytes holds them. -/
theorem leBytes_ofNat_leNat {l : List Byte} (h : l.length = 8) :
    leBytes 8 (BitVec.ofNat 64 (leNat l)).toNat = l := by
  have bound := leNat_lt l
  have spelled := leBytes_leNat l
  rw [h] at bound spelled
  rw [BitVec.toNat_ofNat, Nat.mod_eq_of_lt (by simpa using bound), spelled]

/-- The bytes of a doubleword some of which are replaced. -/
theorem leBytes_mergeDw (s : State) (d : Nat) {off : Nat} {b : List Byte} (h : off + b.length ≤ 8) :
    leBytes 8 (mergeDw (dwData s d) off b).toNat =
      (peek s (8 * d) 8).take off ++ b ++ (peek s (8 * d) 8).drop (off + b.length) := by
  have parts : ((peek s (8 * d) 8).take off ++ b ++
      (peek s (8 * d) 8).drop (off + b.length)).length = 8 := by simp; omega
  rw [mergeDw, leBytes_dwData, leBytes_ofNat_leNat parts]

/-- A write operation on a clean doubleword where no injection is armed, full or partial (R205). -/
theorem writeDw_of_clean {s : State} {d : Nat} (clean : CleanDw s d)
    (unarmed : (bankRegs s (bankOf (8 * d))).arm = false) (agent off : Nat) (b : List Byte) :
    writeDw s agent d off b = (putDw (setTag s d {}) d (mergeDw (dwData s d) off b), true) := by
  by_cases full : off = 0 ∧ b.length = 8
  · obtain ⟨rfl, len⟩ := full
    have whole : mergeDw (dwData s d) 0 b = BitVec.ofNat 64 (leNat b) := by
      simp [mergeDw, len, List.drop_of_length_le]
    simp only [writeDw, len, and_self, if_true, fullWrite_of_unarmed unarmed, whole]
  · simp only [writeDw, if_neg full, fetchDw_of_clean clean.1 clean.2]

/-- Reading a list some of whose entries are replaced. -/
theorem getD_splice (l b : List Byte) {off : Nat} (h : off + b.length ≤ l.length) (i : Nat) :
    (l.take off ++ b ++ l.drop (off + b.length)).getD i 0 =
      if off ≤ i ∧ i < off + b.length then b.getD (i - off) 0 else l.getD i 0 := by
  have front : min off l.length = off := by omega
  simp only [List.getD_eq_getElem?_getD, List.getElem?_append, List.length_append,
    List.length_take, front, List.getElem?_drop]
  by_cases before : i < off
  · rw [if_pos (by omega), if_pos before, if_neg (by omega), List.getElem?_take_of_lt before]
  · by_cases inside : i < off + b.length
    · rw [if_pos inside, if_neg before, if_pos (by omega)]
    · rw [if_neg inside, if_neg (by omega),
        show off + b.length + (i - (off + b.length)) = i by omega]

theorem getD_peek (s : State) (a : Nat) {n i : Nat} (h : i < n) :
    (peek s a n).getD i 0 = Memory.byte s.basin.bytes (a + i) := by
  simp [peek, h, byteAt, Memory.byte]

theorem byte_putDw_inside (s : State) (d : Nat) (v : Dword) {i : Nat} (h : i < 8) :
    Memory.byte (putDw s d v).basin.bytes (8 * d + i) = (leBytes 8 v.toNat).getD i 0 := by
  have inside : i < (leBytes 8 v.toNat).length := by simpa using h
  rw [List.getD_eq_getElem _ _ inside]
  exact Memory.byte_pokeList_inside s.basin.bytes (8 * d) (leBytes 8 v.toNat) inside

/-- The bytes of Basin after a write operation. -/
theorem byte_putDw_mergeDw (s : State) (d : Nat) {off : Nat} {b : List Byte} (h : off + b.length ≤ 8)
    (x : Nat) :
    Memory.byte (putDw (setTag s d {}) d (mergeDw (dwData s d) off b)).basin.bytes x =
      if 8 * d + off ≤ x ∧ x < 8 * d + off + b.length then b.getD (x - (8 * d + off)) 0
      else Memory.byte s.basin.bytes x := by
  by_cases outside : x < 8 * d ∨ 8 * d + 8 ≤ x
  · rw [byte_putDw_of_outside _ _ _ outside, if_neg (by omega)]
    rfl
  · obtain ⟨i, small, rfl⟩ : ∃ i, i < 8 ∧ x = 8 * d + i := ⟨x - 8 * d, by omega, by omega⟩
    rw [byte_putDw_inside _ _ _ small, leBytes_mergeDw s d h, getD_splice _ _ (by simpa using h),
      getD_peek _ _ small, Nat.add_sub_add_left]
    exact if_congr (by omega) rfl rfl

/-- What a write of clean doublewords leaves: its bytes, and no error. -/
structure Stored (s t : State) (a : Nat) (b : List Byte) : Prop where
  bytes : ∀ x, Memory.byte t.basin.bytes x =
    if a ≤ x ∧ x < a + b.length then b.getD (x - a) 0 else Memory.byte s.basin.bytes x
  clean : ∀ d, CleanDw s d → CleanDw t d
  banks : t.basin.banks = s.basin.banks

theorem Stored.refl (s : State) (a : Nat) : Stored s s a [] :=
  ⟨fun x => by rw [if_neg (by simp)], fun _ h => h, rfl⟩

theorem Stored.of_basin {s t u : State} {a : Nat} {b : List Byte} (h : Stored s t a b)
    (same : u.basin = t.basin) : Stored s u a b := by
  refine ⟨?_, fun d k => ?_, ?_⟩
  · rw [same]
    exact h.bytes
  · simpa only [CleanDw, dwTag, dwSynd, same] using h.clean d k
  · rw [same]
    exact h.banks

theorem Stored.trans {s t u : State} {a n : Nat} {b c : List Byte} (h : Stored s t a b)
    (g : Stored t u n c) (next : n = a + b.length) : Stored s u a (b ++ c) := by
  subst next
  refine ⟨fun x => ?_, fun d k => g.clean d (h.clean d k), g.banks.trans h.banks⟩
  rw [g.bytes, h.bytes, List.length_append]
  by_cases first : a ≤ x ∧ x < a + b.length
  · rw [if_neg (by omega), if_pos first, if_pos (by omega),
      List.getD_append _ _ _ _ (by omega)]
  · by_cases second : a + b.length ≤ x ∧ x < a + b.length + c.length
    · rw [if_pos second, if_pos (by omega), List.getD_append_right _ _ _ _ (by omega), Nat.sub_sub]
    · rw [if_neg second, if_neg first, if_neg (by omega)]

theorem dwSynd_putDw_self (s : State) (d : Nat) (v : Dword) : dwSynd (putDw s d v) d = 0 :=
  Tab.get_set_self (0 : Byte) s.basin.synd d 0

theorem cleanDw_putDw {s : State} {x : Nat} (h : CleanDw s x) (d : Nat) (v : Dword) :
    CleanDw (putDw s d v) x := by
  refine ⟨h.1, ?_⟩
  by_cases same : x = d
  · subst same
    exact dwSynd_putDw_self s x v
  · exact (Tab.get_set_of_ne (0 : Byte) s.basin.synd 0 same).trans h.2

/-- One write operation on a clean doubleword (R205). -/
theorem stored_writeDw {s : State} (agent : Nat) {a : Nat} {b : List Byte} (clean : CleanDw s (a / 8))
    (unarmed : (bankRegs s (bankOf (8 * (a / 8)))).arm = false) (fits : a % 8 + b.length ≤ 8) :
    (writeDw s agent (a / 8) (a % 8) b).2 = true ∧
    Stored s (writeDw s agent (a / 8) (a % 8) b).1 a b := by
  rw [writeDw_of_clean clean unarmed]
  refine ⟨rfl, fun x => ?_, fun d h => cleanDw_putDw (h.setTag _) _ _, rfl⟩
  rw [byte_putDw_mergeDw s (a / 8) fits, Nat.div_add_mod]

theorem bankRegs_congr {s t : State} (h : t.basin.banks = s.basin.banks) (b : Nat) :
    bankRegs t b = bankRegs s b := by
  rw [bankRegs, h, bankRegs]

/-- No injection is armed in a bank that a run of bytes touches. -/
def Unarmed (s : State) (a n : Nat) : Prop :=
  ∀ x, a ≤ x → x < a + n → (bankRegs s (bankOf (8 * (x / 8)))).arm = false

/-- A write of some bytes writes those in the first doubleword, and then the others. -/
theorem writeDws_of_ne_nil (fuel : Nat) (s : State) (agent a : Nat) {b : List Byte} {k : Nat}
    (h : b ≠ []) (hk : k = min (8 - a % 8) b.length) :
    writeDws (fuel + 1) s agent a b =
      let w := writeDw s agent (a / 8) (a % 8) (b.take k)
      let r := writeDws fuel w.1 agent (a + k) (b.drop k)
      (r.1, if w.2 then a / 8 :: r.2.1 else r.2.1, w.2 && r.2.2) := by
  subst hk
  rw [writeDws, if_neg (by simp [h])]

theorem writeDws_of_cleanRun {fuel : Nat} {s : State} (agent : Nat) {a : Nat} {b : List Byte}
    (clean : CleanRun s a b.length) (unarmed : Unarmed s a b.length) (enough : b.length ≤ fuel) :
    (writeDws fuel s agent a b).2.2 = true ∧ Stored s (writeDws fuel s agent a b).1 a b := by
  induction fuel generalizing s a b with
  | zero =>
    obtain rfl : b = [] := List.length_eq_zero_iff.mp (by omega)
    exact ⟨rfl, .refl s a⟩
  | succ fuel ih =>
    by_cases empty : b = []
    · subst empty
      exact ⟨rfl, .refl s a⟩
    have some : 0 < b.length := List.length_pos_iff.mpr empty
    obtain ⟨k, hk⟩ : ∃ k, k = min (8 - a % 8) b.length := ⟨_, rfl⟩
    have len : (b.take k).length = k := by simp; omega
    obtain ⟨done, first⟩ := stored_writeDw (b := b.take k) agent
      (clean a (Nat.le_refl a) (by omega)) (unarmed a (Nat.le_refl a) (by omega)) (by omega)
    have left : (b.drop k).length = b.length - k := by simp
    obtain ⟨all, rest⟩ := ih (s := (writeDw s agent (a / 8) (a % 8) (b.take k)).1) (a := a + k)
      (b := b.drop k) (fun x lo hi => first.clean _ (clean x (by omega) (by omega)))
      (fun x lo hi => (congrArg Bank.arm (bankRegs_congr first.banks _)).trans
        (unarmed x (by omega) (by omega))) (by omega)
    have both := first.trans rest (by rw [len])
    rw [List.take_append_drop] at both
    rw [writeDws_of_ne_nil fuel s agent a empty hk]
    exact ⟨by simp [done, all], both⟩

/-- The banks of a run that lies in one granule (R201). -/
theorem bankOf_granule {a n x : Nat} (granule : a % 256 + n ≤ 256) (lo : a ≤ x) (hi : x < a + n) :
    bankOf (8 * (x / 8)) = bankOf a := by
  unfold bankOf
  omega

/-- A write request of clean doublewords in a running bank where no injection is armed. -/
theorem writeReq_of_cleanRun {s : State} (agent : Nat) {a : Nat} {b : List Byte}
    (up : running s (islBank (bankOf a)) = true) (granule : a % 256 + b.length ≤ 256)
    (clean : CleanRun s a b.length) (unarmed : (bankRegs s (bankOf a)).arm = false) :
    (writeReq s agent a b).2 = none ∧ Stored s (writeReq s agent a b).1 a b := by
  obtain ⟨all, stored⟩ := writeDws_of_cleanRun agent clean
    (fun x lo hi => (bankOf_granule granule lo hi).symm ▸ unarmed) (Nat.le_refl _)
  have signals := (signalWrite_follows (writeDws b.length s agent a b).1 a b.length
    (writeDws b.length s agent a b).2.1).basin (by decide)
  simp only [writeReq, up, Bool.not_true, Bool.false_eq_true, if_false, all, if_true, true_and]
  exact stored.of_basin signals

theorem writeReq_of_fenced {s : State} (agent : Nat) {a : Nat} (b : List Byte)
    (down : running s (islBank (bankOf a)) = false) : writeReq s agent a b = (s, some .fenced) := by
  simp only [writeReq, down, Bool.not_false, if_true]

/-! ### The requests of the agents (R229) -/

section requests
variable {a : Agent} {addr : BasinAddr} {n : Nat} {d : List Byte} {s t : State}

section read
variable (pos : 1 ≤ n) (granule : addr.val % 256 + n ≤ 256)
include pos granule

theorem exec_basinReadRequest_of_not_out (barred : agentOut s a = false) :
    exec (.basinReadRequest a addr n) s = .next s :=
  (if_pos ⟨pos, granule⟩).trans (congrArg _ (issue_of_not_out barred _))

theorem exec_basinReadRequest_of_ok (out : agentOut s a = true) {b : List Byte}
    (read : readReq s a addr n = (t, .ok b)) :
    exec (.basinReadRequest a addr n) s = .next (emit t (.bytes a b)) := by
  refine (if_pos ⟨pos, granule⟩).trans (congrArg _ ((issue_of_out out _).trans ?_))
  rw [read]

theorem exec_basinReadRequest_of_error (out : agentOut s a = true) {e : Err}
    (read : readReq s a addr n = (t, .error e)) :
    exec (.basinReadRequest a addr n) s = .next (errTo t a addr true false e) := by
  refine (if_pos ⟨pos, granule⟩).trans (congrArg _ ((issue_of_out out _).trans ?_))
  rw [read]

end read

section write
variable (pos : 1 ≤ d.length) (granule : addr.val % 256 + d.length ≤ 256)
include pos granule

theorem exec_basinWriteRequest_of_not_out (barred : agentOut s a = false) :
    exec (.basinWriteRequest a addr d) s = .next s :=
  (if_pos ⟨pos, granule⟩).trans (congrArg _ (issue_of_not_out barred _))

theorem exec_basinWriteRequest_of_ok (out : agentOut s a = true)
    (write : writeReq s a addr d = (t, none)) : exec (.basinWriteRequest a addr d) s = .next t := by
  refine (if_pos ⟨pos, granule⟩).trans (congrArg _ ((issue_of_out out _).trans ?_))
  rw [write]

theorem exec_basinWriteRequest_of_error (out : agentOut s a = true) {e : Err}
    (write : writeReq s a addr d = (t, some e)) :
    exec (.basinWriteRequest a addr d) s = .next (errTo t a addr true true e) := by
  refine (if_pos ⟨pos, granule⟩).trans (congrArg _ ((issue_of_out out _).trans ?_))
  rw [write]

end write

end requests

/-- Settles O25: a run of clean doublewords is read as it stands (`readReq_of_cleanRun`), and a write
of them stores its bytes and no others (`writeReq_of_cleanRun`). -/
theorem basinRequestsReadAndWriteTheirBytes : Obligations.BasinRequestsReadAndWriteTheirBytes := by
  intro a addr n d s clean bank pos granule pos' granule'
  refine ⟨fun barred => ⟨exec_basinReadRequest_of_not_out pos granule barred,
      exec_basinWriteRequest_of_not_out pos' granule' barred⟩,
    fun out down => ⟨exec_basinReadRequest_of_error pos granule out (readReq_of_fenced _ _ down),
      exec_basinWriteRequest_of_error pos' granule' out (writeReq_of_fenced _ _ down)⟩,
    fun out up ok => ?read, fun out up ok unarmed => ?write⟩
  case read =>
    obtain ⟨t, read, only⟩ := readReq_of_cleanRun a up ok
    refine ⟨_, exec_basinReadRequest_of_ok pos granule out read, ?_⟩
    rw [show t = _ from only]
    exact ⟨rfl, rfl, rfl⟩
  case write =>
    obtain ⟨performed, stored⟩ := writeReq_of_cleanRun a up granule' ok unarmed
    exact ⟨_, exec_basinWriteRequest_of_ok pos' granule' out (Prod.ext rfl performed), stored.bytes,
      fun x lo hi => stored.clean _ (ok x lo hi), stored.banks⟩

/-! ### Corrections and poison (R203 to R207) -/

section same
variable {s t : State} (h : t.basin = s.basin) (d : Nat)
include h

theorem dwTag_of_basin : dwTag t d = dwTag s d := by rw [dwTag, h, dwTag]

theorem dwSynd_of_basin : dwSynd t d = dwSynd s d := by rw [dwSynd, h, dwSynd]

theorem dwData_of_basin : dwData t d = dwData s d := dwData_congr (by rw [h]) d

theorem bankRegs_of_basin : bankRegs t d = bankRegs s d := bankRegs_congr (by rw [h]) d

end same

section banks
variable (s : State) (b : Nat) (f : Bank → Bank)

@[simp] theorem bankRegs_updBank_self : bankRegs (updBank s b f) b = f (bankRegs s b) :=
  Tab.get_upd_self _ _ _ _

theorem bankRegs_updBank_of_ne {c : Nat} (h : c ≠ b) : bankRegs (updBank s b f) c = bankRegs s c :=
  Tab.get_upd_of_ne _ _ _ h

@[simp] theorem dwData_updBank (d : Nat) : dwData (updBank s b f) d = dwData s d := rfl

@[simp] theorem dwSynd_updBank (d : Nat) : dwSynd (updBank s b f) d = dwSynd s d := rfl

@[simp] theorem bankRegs_setTag (d : Nat) (g : Tag) : bankRegs (setTag s d g) b = bankRegs s b := rfl

@[simp] theorem bankRegs_putDw (d : Nat) (v : Dword) : bankRegs (putDw s d v) b = bankRegs s b := rfl

end banks

/-- An inverted data bit has its column for a syndrome (R202, R203). -/
theorem classify_column (i : Fin 64) : classify (column i) = .data i := by
  revert i
  decide +kernel

/-- The state after a correction: counted, noted and written back (R205). -/
def corrected (s : State) (agent d : Nat) (v : Dword) : State :=
  putDw (noteErr (updBank (setTag s d {}) (bankOf (8 * d))
    (fun x => { x with ceCount := satAdd x.ceCount 1 })) agent d (dwSynd s d) false) d v

theorem readTag_of_untagged {s : State} {d : Nat} (untagged : (dwTag s d).vote = false) (a : Nat) :
    readTag s a d = (setTag s d {}, false) := by
  simp only [readTag, untagged, Bool.false_eq_true, if_false]

theorem fetchDw_of_column {s : State} {d : Nat} {i : Fin 64} (untagged : (dwTag s d).vote = false)
    (bit : dwSynd s d = column i) (a : Nat) :
    fetchDw s a d = (corrected s a d (dwData s d ^^^ oneBit 64 i),
      some (dwData s d ^^^ oneBit 64 i), true) := by
  have synd : dwSynd (setTag s d {}) d = column i := bit
  have data : dwData (setTag s d {}) d = dwData s d := dwData_congr rfl d
  simp only [fetchDw, readTag_of_untagged untagged, synd, classify_column, Bool.false_eq_true,
    if_false, corrected, bit, data]

theorem fetchDw_of_bad {s : State} {d : Nat} (untagged : (dwTag s d).vote = false)
    (bad : classify (dwSynd s d) = .bad) (a : Nat) :
    fetchDw s a d = (poisonDw (setTag s d {}) a d (dwSynd s d), none, false) := by
  have synd : dwSynd (setTag s d {}) d = dwSynd s d := rfl
  simp only [fetchDw, readTag_of_untagged untagged, synd, bad, Bool.false_eq_true, if_false]

theorem readDws_nothing (fuel : Nat) (s : State) (agent a : Nat) :
    readDws fuel s agent a 0 = (s, some []) := by
  cases fuel <;> rfl

/-- A read request of one whole doubleword. -/
theorem readReq_of_dword {s : State} (agent : Nat) {d : Nat}
    (up : running s (islBank (bankOf (8 * d))) = true) :
    readReq s agent (8 * d) 8 = ((fetchDw s agent d).1,
      ((fetchDw s agent d).2.1.map fun v => leBytes 8 v.toNat).elim (.error .ecc) .ok) := by
  have number : 8 * d / 8 = d := by omega
  have offset : 8 * d % 8 = 0 := by omega
  have whole (v : Dword) : (leBytes 8 v.toNat).take 8 = leBytes 8 v.toNat :=
    List.take_of_length_le (by simp)
  rw [readReq, up, readDws, if_neg (by decide), number, offset]
  rcases fetchDw s agent d with ⟨t, _ | v, c⟩ <;> simp [readDws_nothing, whole]

/-- What a correction leaves of its doubleword and its bank. -/
theorem bankRegs_corrected (s : State) (a d : Nat) (v : Dword) :
    (bankRegs (corrected s a d v) (bankOf (8 * d))).ceCount =
      satAdd (bankRegs s (bankOf (8 * d))).ceCount 1 ∧
    (bankRegs (corrected s a d v) (bankOf (8 * d))).ueCount = (bankRegs s (bankOf (8 * d))).ueCount := by
  simp [corrected, noteErr]

theorem corrected_out (s : State) (a d : Nat) (v : Dword) : (corrected s a d v).out = s.out := by
  simp only [corrected, putDw, setSynd, poke, noteErr, updBank, setTag, onBasin_out]

theorem dwData_corrected (s : State) (a d : Nat) (v : Dword) : dwData (corrected s a d v) d = v :=
  dwData_putDw ..

theorem dwSynd_corrected (s : State) (a d : Nat) (v : Dword) : dwSynd (corrected s a d v) d = 0 :=
  dwSynd_putDw_self ..

/-- Basin after a poisoning: its record and its interrupt leave Basin as it is (R206). -/
theorem basin_poisonDw (s : State) (a d : Nat) (syn : Byte) :
    (poisonDw s a d syn).basin = (noteErr (updBank (setTag s d { copies := 7, counted := true })
      (bankOf (8 * d)) (fun x => { x with ueCount := satAdd x.ueCount 1 })) a d syn true).basin := by
  simp only [poisonDw]
  exact ((raisePriv_follows _ 0 18).basin (by decide)).trans
    ((postRec_follows ..).basin (by decide))

/-- A record enters a staging queue with room (R249). -/
theorem staging_stage {s : State} (room : s.staging.length < 1024) (r : Rec) :
    (stage s r).staging = s.staging ++ [r.staged s.fw.causer] := by
  have few : (s.staging.filter (fun x => !x.marker)).length < 1024 :=
    (List.length_filter_le ..).trans_lt room
  rw [stage, if_pos (by simp [few])]
  exact (stagingLevel_follows _).staging (by decide)

/-- A poisoning stages its record where the queue has room (R206, R249). -/
theorem staging_poisonDw {s : State} (room : s.staging.length < 1024) (a d : Nat) (syn : Byte) :
    ∃ r, (poisonDw s a d syn).staging = s.staging ++ [r] ∧ r.type = 8 ∧
      r.island = BitVec.ofNat 4 (islBank (bankOf (8 * d))) ∧ r.payload = w32 (8 * d) := by
  have posted := staging_stage (s := noteErr (updBank (setTag s d { copies := 7, counted := true })
    (bankOf (8 * d)) (fun x => { x with ueCount := satAdd x.ueCount 1 })) a d syn true) room
  exact ⟨_, ((raisePriv_follows _ 0 18).staging (by decide)).trans (posted _), rfl, rfl, rfl⟩

/-! ### Error completions (R13) -/

section errTo
variable (s : State) (a ad : Nat) (basin store : Bool) (e : Err)

theorem errTo_out : (errTo s a ad basin store e).out = s.out ++ [.error a e] := by
  rw [errTo]
  split
  · exact (lkException_follows ..).out (by decide)
  · rfl

theorem errTo_basin : (errTo s a ad basin store e).basin = s.basin :=
  (errTo_follows ..).basin (by decide)

theorem errTo_staging : (errTo s a ad basin store e).staging = s.staging :=
  (errTo_follows ..).staging (by decide)

end errTo

/-! ### The scrubber (R210, R211) -/

/-- The doubleword that the scrubber of a bank reads lies in the bank (R201). -/
theorem bankOf_addrOfIndex {b : Nat} (small : b < 4) (p : Nat) :
    bankOf (8 * (addrOfIndex b p / 8)) = b := by
  unfold bankOf addrOfIndex
  omega

/-- Where the scrubber of a bank is, and how often it has passed. -/
def scrubOf (s : State) (b : Nat) : BitVec 21 × BitVec 8 :=
  ((bankRegs s b).scrubPos, (bankRegs s b).passes)

theorem scrubOf_updBank (s : State) (b c : Nat) {f : Bank → Bank}
    (h : ∀ x, ((f x).scrubPos, (f x).passes) = (x.scrubPos, x.passes)) :
    scrubOf (updBank s c f) b = scrubOf s b := by
  by_cases same : b = c
  · subst same
    rw [scrubOf, bankRegs_updBank_self, h, scrubOf]
  · rw [scrubOf, bankRegs_updBank_of_ne _ _ _ same, scrubOf]

theorem scrubOf_putDw (s : State) (d : Nat) (v : Dword) (b : Nat) :
    scrubOf (putDw s d v) b = scrubOf s b := rfl

theorem scrubOf_noteErr (s : State) (a d : Nat) (syn : Byte) (ue : Bool) (b : Nat) :
    scrubOf (noteErr s a d syn ue) b = scrubOf s b :=
  scrubOf_updBank _ _ _ fun _ => rfl

theorem scrubOf_poisonDw (s : State) (a d : Nat) (syn : Byte) (b : Nat) :
    scrubOf (poisonDw s a d syn) b = scrubOf s b := by
  have banks := congrArg Basin.banks (basin_poisonDw s a d syn)
  rw [scrubOf, bankRegs_congr banks]
  exact (scrubOf_noteErr ..).trans (scrubOf_updBank _ _ _ fun _ => rfl)

theorem scrubOf_readTag (s : State) (a d b : Nat) : scrubOf (readTag s a d).1 b = scrubOf s b := by
  unfold readTag
  dsimp only
  split
  · split
    · rfl
    · exact scrubOf_poisonDw ..
  · rfl

theorem scrubOf_correction (s : State) (a d : Nat) (v : Dword) (syn : Byte) (b : Nat) :
    scrubOf (putDw (noteErr (updBank s (bankOf (8 * d))
      (fun x => { x with ceCount := satAdd x.ceCount 1 })) a d syn false) d v) b = scrubOf s b := by
  rw [scrubOf_putDw, scrubOf_noteErr]
  exact scrubOf_updBank _ _ _ fun _ => rfl

/-- A read leaves the scrubbers where they are. -/
theorem scrubOf_fetchDw (s : State) (a d b : Nat) : scrubOf (fetchDw s a d).1 b = scrubOf s b := by
  have tag := scrubOf_readTag s a d b
  unfold fetchDw
  dsimp only
  split
  · exact tag
  · split
    · exact tag
    · exact (scrubOf_correction ..).trans tag
    · exact (scrubOf_correction ..).trans tag
    · exact (scrubOf_poisonDw ..).trans tag

/-- A step of the scrubber of a running bank reads the doubleword where it stands, and goes on. -/
theorem scrubStep_of_running {s : State} {n : Nat} (up : running s (islBank n) = true) :
    scrubStep s n =
      updBank (fetchDw s 0 (addrOfIndex n (bankRegs s n).scrubPos.toNat / 8)).1 n (fun x =>
        { x with scrubPos := x.scrubPos + 1,
                 passes := if (bankRegs s n).scrubPos = BitVec.allOnes 21 then x.passes + 1
                   else x.passes }) := by
  rw [scrubStep, if_pos up]

/-- What a poisoning leaves of its doubleword and its bank (R206). -/
theorem poisoned_poisonDw {s t : State} {a d : Nat} {syn : Byte} (h : t.basin = (poisonDw s a d syn).basin) :
    (dwTag t d).vote = true ∧
    (bankRegs t (bankOf (8 * d))).ueCount = satAdd (bankRegs s (bankOf (8 * d))).ueCount 1 ∧
    (bankRegs t (bankOf (8 * d))).errAddr = BitVec.ofNat 26 (8 * d) ∧ dwData t d = dwData s d := by
  have basin := h.trans (basin_poisonDw s a d syn)
  rw [dwTag_of_basin basin, bankRegs_of_basin basin, dwData_of_basin basin]
  refine ⟨?_, by simp [noteErr], by simp [noteErr], dwData_congr rfl d⟩
  exact congrArg Tag.vote (Tab.get_set_self ({} : Tag) s.basin.tags d { copies := 7, counted := true })

theorem toNat_islBank (a : Nat) : (BitVec.ofNat 4 (islBank (bankOf a))).toNat = islBank (bankOf a) := by
  rw [BitVec.toNat_ofNat, islBank, bankOf]
  omega

/-- Settles O26: a data bit's column names it (`classify_column`), so its doubleword is corrected
(`fetchDw_of_column`); what no code word explains is poisoned (`fetchDw_of_bad`), and the scrubber does
either through the same read (`scrubStep_of_running`). -/
theorem errorsAreCorrectedOrPoisoned : Obligations.ErrorsAreCorrectedOrPoisoned := by
  intro a k i s addr bank b dw out up untagged
  have read := readReq_of_dword a.val (d := k.val) up
  have granule : addr.val % 256 + 8 ≤ 256 := by
    simp only [addr]
    omega
  refine ⟨fun bit => ?corrected, fun bad => ?poisoned, fun n running => ?scrubbed⟩
  case corrected =>
    rw [fetchDw_of_column untagged bit] at read
    obtain ⟨counted, same⟩ := bankRegs_corrected s a k (dw ^^^ oneBit 64 i)
    refine ⟨_, exec_basinReadRequest_of_ok (by decide) granule out read, ?_⟩
    have basin := emit_basin (corrected s a k (dw ^^^ oneBit 64 i))
      (.bytes a (leBytes 8 (dw ^^^ oneBit 64 i).toNat))
    rw [emit_out, corrected_out, dwData_of_basin basin, dwSynd_of_basin basin,
      bankRegs_of_basin basin]
    exact ⟨rfl, dwData_corrected s a k _, dwSynd_corrected s a k _, counted, same⟩
  case poisoned =>
    rw [fetchDw_of_bad untagged bad] at read
    refine ⟨_, exec_basinReadRequest_of_error (by decide) granule out read, ?_⟩
    obtain ⟨tagged, counted, noted, data⟩ := poisoned_poisonDw (errTo_basin
      (poisonDw (setTag s k {}) a k (dwSynd s k)) a addr true false .ecc)
    have dataKept : dwData (setTag s k {}) k = dw := dwData_congr rfl k
    refine ⟨?_, tagged, counted, noted, data.trans dataKept, fun room => ?_⟩
    · rw [errTo_out]
      exact congrArg (· ++ _) ((poisonDw_follows ..).out (by decide))
    · obtain ⟨r, staged, type, island, payload⟩ :=
        staging_poisonDw (s := setTag s k {}) room a k (dwSynd s k)
      exact ⟨r, (errTo_staging ..).trans staged, type, island ▸ toNat_islBank _, payload⟩
  case scrubbed =>
    have kept := scrubOf_fetchDw s 0 (addrOfIndex n (bankRegs s n).scrubPos.toNat / 8) n
    obtain ⟨pos, passes⟩ := Prod.ext_iff.mp kept
    refine ⟨_, congrArg Host.Outcome.next (scrubStep_of_running running), ?_, ?_, ?_,
      fun clean bit => ?_⟩
    · exact (fetchDw_follows ..).out (by decide)
    · rw [bankRegs_updBank_self]
      exact congrArg (· + 1) pos
    · rw [bankRegs_updBank_self]
      exact congrArg (fun x : BitVec 8 =>
        if (bankRegs s n).scrubPos = BitVec.allOnes 21 then x + 1 else x) passes
    · have own := bankOf_addrOfIndex n.isLt (bankRegs s n).scrubPos.toNat
      rw [fetchDw_of_column clean bit, bankRegs_updBank_self, dwData_updBank, dwSynd_updBank]
      obtain ⟨counted, -⟩ := bankRegs_corrected s 0 (addrOfIndex n (bankRegs s n).scrubPos.toNat / 8)
        (dwData s (addrOfIndex n (bankRegs s n).scrubPos.toNat / 8) ^^^ oneBit 64 i)
      rw [own] at counted
      exact ⟨dwData_corrected s 0 _ _, dwSynd_corrected s 0 _ _, counted⟩

end Sys2Proof.Machine
end

section
/-! PROOFS. Device-level resets (chapters 01, 02 and 19, R76, R77, R92, R762, R766): what stands outside
the device, the lanes' inputs among it, and the obligation O8. -/

open Sys2Proof

namespace Sys2Proof.Machine

/-- A table written at every key below a bound. -/
theorem Tab.get_foldl_set {α : Type} [DecidableEq α] (d : α) (f : Nat → α) {n i : Nat} (h : i < n) :
    Tab.get d ((List.range n).foldl (fun t k => Tab.set d t k (f k)) []) i = f i := by
  induction n with
  | zero => omega
  | succ n ih =>
    rw [List.range_succ, List.foldl_append, List.foldl_cons, List.foldl_nil]
    by_cases last : i = n
    · subst last
      exact Tab.get_set_self ..
    · rw [Tab.get_set_of_ne _ _ _ last]
      exact ih (by omega)

/-- What the cage of a lane drives (R479). -/
def Lane.inputs (x : Lane) : Lane := { present := x.present, los := x.los, faultIn := x.faultIn }

theorem get_laneInputs (s : State) (l : Fin 8) :
    Tab.get {} (laneInputs s) l = (laneOf s l).inputs :=
  Tab.get_foldl_set ({} : Lane) (fun l => (laneOf s l).inputs) l.isLt

theorem mem_txDisAll {s : State} {l : Fin 8} (h : (laneOf s l).txDis = false) :
    Out.txDis l true ∈ txDisAll s :=
  List.mem_filterMap.mpr ⟨l, List.mem_range.mpr l.isLt, by rw [h]; rfl⟩

/-- The state that a device-level reset leaves: the reset values, beside what stands outside the device
and what the reset keeps (R77). -/
structure Cleared (s t : State) (thermN : Bool) (tick : Dword) (sys : Sys) (left : List Out) : Prop where
  all : t = { State.reset with
    pending := s.pending, tick := tick, out := s.out ++ left, otp := s.otp, flash := s.flash,
    flashBad := s.flashBad, fresh := s.fresh, sys := sys, tl := { lanes := laneInputs s },
    pins := { s.pins with thermN := thermN }, gp := { pad := s.gp.pad } }
  dark : txDisAll s <+: left

theorem cleared_deviceReset (s : State) (b : Nat) : Cleared s (deviceReset s b) s.pins.thermN s.tick
    { powerOn := s.sys.powerOn, resetCause := setBit s.sys.resetCause b true,
      triedA := s.sys.triedA, triedB := s.sys.triedB } (txDisAll s) :=
  ⟨rfl, List.prefix_rfl⟩

theorem cleared_powerOnReset (s : State) : Cleared s (powerOnReset s) true 0 {}
    (txDisAll s ++ if s.pins.thermN then [] else [.therm true]) := by
  refine ⟨?_, List.prefix_append _ _⟩
  unfold powerOnReset
  cases s.pins.thermN
  · simp only [Bool.false_eq_true, if_false, ← List.append_assoc]
    rfl
  · simp only [if_true, List.append_nil]
    rfl

/-- Settles O8: both resets leave a cleared device (`cleared_deviceReset`, `cleared_powerOnReset`), whose
lanes keep what their cages drive (`get_laneInputs`). -/
theorem deviceLevelResetsClearTheDevice : Obligations.DeviceLevelResetsClearTheDevice := by
  intro s cleared kept
  have of_cleared {i : Instr} {powerOn : Bool} {tick : Dword} {sys : Sys} {t : State} {left : List Out}
      (he : exec i s = .next t) (h : Cleared s t (powerOn || s.pins.thermN) tick sys left) :
      cleared i powerOn tick sys := by
    obtain ⟨rfl, dark⟩ := h
    refine ⟨_, he, rfl, rfl, get_laneInputs s, List.prefix_append _ _, fun l low => ?_⟩
    rw [List.drop_left]
    exact dark.subset (mem_txDisAll low)
  refine ⟨of_cleared rfl (cleared_powerOnReset s), of_cleared rfl (cleared_powerOnReset s),
    of_cleared rfl (cleared_deviceReset s 3), fun off => ?_, fun on => ?_⟩
  · exact of_cleared (congrArg Host.Outcome.next (if_neg (by simp [off]))) (cleared_deviceReset s 1)
  · exact congrArg Host.Outcome.next (if_pos on)

end Sys2Proof.Machine
end

section
/-! PROOFS. Words that enter the queues of a mailbox (chapter 03, R98 to R105, R118 to R121, R156): what
a write leaves of every mailbox, what replies that follow it leave, and the obligation O12. -/

open Sys2Proof

namespace Sys2Proof.Machine

/-! ### The other mailboxes -/

theorem mbxOf_flagSide_of_ne (s : State) {m k : Nat} (b : Bool) (i : Nat) (h : k ≠ m) :
    mbxOf (flagSide s m b i) k = mbxOf s k := by
  simp only [flagSide]
  split
  · split <;> simp [mbxOf_updMbx_of_ne _ _ h]
  · simp [mbxOf_updMbx_of_ne _ _ h]

theorem mbxOf_enqueue_of_ne (s : State) (a : Nat) {m k : Nat} (b : Bool) (v : Word) (eom : Bool)
    (h : k ≠ m) : mbxOf (enqueue s a m b v eom) k = mbxOf s k := by
  simp only [enqueue]
  split
  case isTrue => exact mbxOf_updMbx_of_ne _ _ h
  split
  case isTrue => rw [mbxOf_flagSide_of_ne _ _ _ h, mbxOf_updMbx_of_ne _ _ h]
  split
  case isTrue => rw [mbxOf_flagSide_of_ne _ _ _ h, mbxOf_updMbx_of_ne _ _ h]
  split
  case isTrue => rw [mbxOf_flagSide_of_ne _ _ _ h, mbxOf_updMbx_of_ne _ _ h]
  case isFalse => exact mbxOf_updMbx_of_ne _ _ h

theorem mbxOf_placeReply_of_ne (s : State) {m k : Nat} (w : List Word) (h : k ≠ m) :
    mbxOf (placeReply s m w) k = mbxOf s k := by
  fun_induction placeReply s m w with
  | case1 s m => rfl
  | case2 s m w => exact mbxOf_enqueue_of_ne _ _ _ _ _ h
  | case3 s m w r _ ih => exact (ih h).trans (mbxOf_enqueue_of_ne _ _ _ _ _ h)

theorem mbxOf_flushReply_of_ne (s : State) {m k : Nat} (h : k ≠ m) :
    mbxOf (flushReply s m) k = mbxOf s k := by
  unfold flushReply
  split
  · rfl
  · split
    · exact mbxOf_placeReply_of_ne (onFw s _) _ h
    · rfl

theorem mbxOf_flushReplies_of_ne (s : State) {m k : Nat} (h : k ≠ m) :
    mbxOf (flushReplies s m) k = mbxOf s k := by
  unfold flushReplies
  split
  · exact List.foldlRecOn (motive := fun t => mbxOf t k = mbxOf s k) _ _ rfl
      fun t ih _ _ => (mbxOf_flushReply_of_ne t h).trans ih
  · rfl

/-! ### What a word does to its mailbox (R100, R102, R118 to R121) -/

/-- The status of a side under a flag that a side may be given. -/
def flagged (flag : Option (Bool × Nat)) (side : Bool) (st : BitVec 8) : BitVec 8 :=
  match flag with
  | some (f, n) => if f = side then setBit st n true else st
  | none => st

/-- A write has left queue `b` of mailbox `m` as `r` and has set one status bit at most. -/
structure Wrote (s t : State) (m : Nat) (b : Bool) (r : Queue) (flag : Option (Bool × Nat)) : Prop where
  queue : txQueue (mbxOf t m) b = r
  other : txQueue (mbxOf t m) (!b) = txQueue (mbxOf s m) (!b)
  lock : (mbxOf t m).lock = (mbxOf s m).lock
  elsewhere : ∀ k, k ≠ m → mbxOf t k = mbxOf s k
  sides : ∀ side, sideOf (mbxOf t m) side =
    { sideOf (mbxOf s m) side with status := flagged flag side (sideOf (mbxOf s m) side).status }
  fw : t.fw = s.fw

@[simp] theorem Mbx.lock_setTx (x : Mbx) (b : Bool) (q : Queue) : (x.setTx b q).lock = x.lock := by
  cases b <;> rfl

@[simp] theorem Mbx.lock_setSide (x : Mbx) (b : Bool) (v : Side) : (x.setSide b v).lock = x.lock := by
  cases b <;> rfl

theorem wrote_updMbx (s : State) (m : Nat) (b : Bool) (r : Queue) :
    Wrote s (updMbx s m (fun y => y.setTx b r)) m b r none where
  queue := by simp
  other := by simp
  lock := by simp
  elsewhere _ h := mbxOf_updMbx_of_ne s _ h
  sides side := by simp [flagged]
  fw := rfl

/-- A side of a mailbox whose side `f` is given. -/
theorem Mbx.sideOf_setSide (x : Mbx) (f side : Bool) (v : Side) :
    sideOf (x.setSide f v) side = if f = side then v else sideOf x side := by
  cases f <;> cases side <;> rfl

theorem Wrote.flagSide {s t : State} {m : Nat} {b : Bool} {r : Queue} (h : Wrote s t m b r none)
    (f : Bool) (n : Nat) : Wrote s (flagSide t m f n) m b r (some (f, n)) where
  queue := by simpa using h.queue
  other := by simpa using h.other
  lock := by simpa using h.lock
  elsewhere k hk := (mbxOf_flagSide_of_ne t f n hk).trans (h.elsewhere k hk)
  sides side := by
    rw [mbxOf_flagSide, Mbx.sideOf_setSide]
    split
    next e =>
      subst e
      simp [h.sides, flagged]
    next e => simp [h.sides, flagged, e]
  fw := by simpa using h.fw

theorem wrote_nothing (s : State) (m : Nat) (b : Bool) : Wrote s s m b (txQueue (mbxOf s m) b) none :=
  ⟨rfl, rfl, rfl, fun _ _ => rfl, fun _ => rfl, rfl⟩

section enqueue
variable {s : State} {a m : Nat} {b eom : Bool} {q : Queue} (hq : q = txQueue (mbxOf s m) b) (v : Word)
include hq

theorem enqueue_of_discard (h : q.discard.getLsbD a = true) :
    Wrote s (enqueue s a m b v eom) m b
      (if eom then { q with discard := setBit q.discard a false } else q) none := by
  subst hq
  simp only [enqueue, if_pos h]
  exact wrote_updMbx ..

theorem enqueue_of_clash (h : q.discard.getLsbD a = false) (opened : q.openStamp ≠ none)
    (other : q.openStamp ≠ some (BitVec.ofNat 4 a)) :
    Wrote s (enqueue s a m b v eom) m b (q.lose a eom) (some (b, 4)) := by
  subst hq
  have clash : ((txQueue (mbxOf s m) b).openStamp.isSome &&
      decide ((txQueue (mbxOf s m) b).openStamp ≠ some (BitVec.ofNat 4 a))) = true := by
    simp [Option.isSome_iff_ne_none, opened, other]
  simp only [enqueue, h, Bool.false_eq_true, if_false, if_pos clash]
  exact (wrote_updMbx ..).flagSide ..

theorem not_clash (own : q.openStamp = none ∨ q.openStamp = some (BitVec.ofNat 4 a)) :
    ¬ ((txQueue (mbxOf s m) b).openStamp.isSome &&
      decide ((txQueue (mbxOf s m) b).openStamp ≠ some (BitVec.ofNat 4 a))) = true := by
  subst hq
  rcases own with own | own <;> simp [own]

theorem enqueue_of_full (h : q.discard.getLsbD a = false)
    (own : q.openStamp = none ∨ q.openStamp = some (BitVec.ofNat 4 a)) (full : q.free = 0) :
    Wrote s (enqueue s a m b v eom) m b ({ q with opened := [] }.lose a eom) (some (b, 3)) := by
  have clash := not_clash hq own
  subst hq
  simp only [enqueue, h, Bool.false_eq_true, if_false, if_neg clash, if_pos full]
  exact (wrote_updMbx ..).flagSide ..

theorem enqueue_of_last (h : q.discard.getLsbD a = false)
    (own : q.openStamp = none ∨ q.openStamp = some (BitVec.ofNat 4 a)) (room : q.free ≠ 0) :
    Wrote s (enqueue s a m b v true) m b { q with
      words := q.words ++ q.opened ++ [{ data := v, stamp := BitVec.ofNat 4 a, eom := true }],
      opened := [] } (some (!b, 0)) := by
  have clash := not_clash hq own
  subst hq
  simp only [enqueue, h, Bool.false_eq_true, if_false, if_neg clash, if_neg room, if_true]
  exact (wrote_updMbx ..).flagSide ..

theorem enqueue_of_open (h : q.discard.getLsbD a = false)
    (own : q.openStamp = none ∨ q.openStamp = some (BitVec.ofNat 4 a)) (room : q.free ≠ 0) :
    Wrote s (enqueue s a m b v false) m b { q with
      opened := q.opened ++ [{ data := v, stamp := BitVec.ofNat 4 a, eom := false }] } none := by
  have clash := not_clash hq own
  subst hq
  simp only [enqueue, h, Bool.false_eq_true, if_false, if_neg clash, if_neg room]
  exact wrote_updMbx ..

end enqueue

/-! ### The replies that follow (R156) -/

theorem getLsbD_oneBit_of_ne (n : Nat) {i j : Nat} (h : j ≠ i) : (oneBit n i).getLsbD j = false := by
  rw [oneBit, BitVec.getLsbD_ofNat, Nat.testBit_two_pow_of_ne h.symm, Bool.and_false]

/-- Setting or clearing a bit leaves the others. -/
theorem getLsbD_setBit_of_ne {n : Nat} (x : BitVec n) {i j : Nat} (v : Bool) (h : j ≠ i) :
    (setBit x i v).getLsbD j = x.getLsbD j := by
  cases v
  · by_cases small : j < n
    · rw [setBit, if_neg Bool.false_ne_true, BitVec.getLsbD_and, BitVec.getLsbD_not,
        getLsbD_oneBit_of_ne n h]
      simp [small]
    · rw [BitVec.getLsbD_of_ge _ _ (by omega), BitVec.getLsbD_of_ge _ _ (by omega)]
  · simp [setBit, getLsbD_oneBit_of_ne n h]

/-- What a word that agent `a` writes keeps of its queue: the open message of any other agent was open
before, and the other agents stay in or out of the discard set. -/
structure Queue.WordOf (a : Nat) (q r : Queue) : Prop where
  stamp : ∀ o, o ≠ BitVec.ofNat 4 a → r.openStamp = some o → q.openStamp = some o
  discard : ∀ i, i ≠ a → r.discard.getLsbD i = q.discard.getLsbD i

namespace Queue.WordOf

variable {a : Nat} {q r : Queue}

theorem refl (a : Nat) (q : Queue) : WordOf a q q := ⟨fun _ _ h => h, fun _ _ => rfl⟩

theorem trans {u : Queue} (h : WordOf a q r) (g : WordOf a r u) : WordOf a q u :=
  ⟨fun o ne e => h.stamp o ne (g.stamp o ne e), fun i ne => (g.discard i ne).trans (h.discard i ne)⟩

theorem lose (h : WordOf a q r) (eom : Bool) : WordOf a q (r.lose a eom) := by
  cases eom
  · exact ⟨h.stamp, fun i ne => (getLsbD_setBit_of_ne _ _ ne).trans (h.discard i ne)⟩
  · exact h

theorem close (q : Queue) (a : Nat) (w : List QWord) : WordOf a q { q with words := w, opened := [] } :=
  ⟨fun _ _ e => (nomatch e), fun _ _ => rfl⟩

theorem open' (q : Queue) (a : Nat) {w : QWord} (h : w.stamp = BitVec.ofNat 4 a) :
    WordOf a q { q with opened := q.opened ++ [w] } := by
  refine ⟨fun o ne e => ?_, fun _ _ => rfl⟩
  cases first : q.opened with
  | nil =>
    simp only [Queue.openStamp, first, List.nil_append, List.head?_cons, Option.map_some, h,
      Option.some.injEq] at e
    exact absurd e.symm ne
  | cons y l => simpa [Queue.openStamp, first] using e

end Queue.WordOf

/-- A word that is written is one write to its queue. -/
theorem enqueue_wrote (s : State) (a m : Nat) (b : Bool) (v : Word) (eom : Bool) :
    ∃ r flag, Wrote s (enqueue s a m b v eom) m b r flag ∧
      (txQueue (mbxOf s m) b).WordOf a r := by
  obtain ⟨q, hq⟩ : ∃ q, q = txQueue (mbxOf s m) b := ⟨_, rfl⟩
  rw [← hq]
  by_cases out : q.discard.getLsbD a = true
  · refine ⟨_, _, enqueue_of_discard hq v out, ?_⟩
    split
    · exact ⟨fun _ _ e => e, fun i ne => getLsbD_setBit_of_ne _ _ ne⟩
    · exact .refl a q
  rw [Bool.not_eq_true] at out
  by_cases own : q.openStamp = none ∨ q.openStamp = some (BitVec.ofNat 4 a)
  · by_cases full : q.free = 0
    · exact ⟨_, _, enqueue_of_full hq v out own full, (Queue.WordOf.close q a q.words).lose eom⟩
    · cases eom
      · exact ⟨_, _, enqueue_of_open hq v out own full, .open' q a rfl⟩
      · exact ⟨_, _, enqueue_of_last hq v out own full, .close q a _⟩
  · obtain ⟨opened, other⟩ := not_or.mp own
    exact ⟨_, _, enqueue_of_clash hq v out opened other, (Queue.WordOf.refl a q).lose eom⟩

/-- What replies leave of a mailbox: they only enter queue BA, with the firmware's stamp (R156). -/
structure Mbx.Replied (x y : Mbx) : Prop where
  grows : x.Grows y
  lock : y.lock = x.lock
  ab : y.ab = x.ab
  ba : x.ba.WordOf 2 y.ba

namespace Mbx.Replied

theorem refl (x : Mbx) : x.Replied x := ⟨.refl x, rfl, rfl, .refl 2 _⟩

theorem trans {x y z : Mbx} (h : x.Replied y) (g : y.Replied z) : x.Replied z :=
  ⟨h.grows.trans g.grows, g.lock.trans h.lock, g.ab.trans h.ab, h.ba.trans g.ba⟩

end Mbx.Replied

theorem enqueue_replied (s : State) (m : Nat) (v : Word) (eom : Bool) :
    (mbxOf s m).Replied (mbxOf (enqueue s 2 m true v eom) m) := by
  obtain ⟨r, flag, wrote, word⟩ := enqueue_wrote s 2 m true v eom
  have queue : (mbxOf (enqueue s 2 m true v eom) m).ba = r := wrote.queue
  exact ⟨enqueue_grows .., wrote.lock, wrote.other, queue ▸ word⟩

theorem placeReply_replied (s : State) (m : Nat) (w : List Word) :
    (mbxOf s m).Replied (mbxOf (placeReply s m w) m) := by
  fun_induction placeReply s m w with
  | case1 s m => exact .refl _
  | case2 s m w => exact enqueue_replied ..
  | case3 s m w r _ ih => exact (enqueue_replied ..).trans ih

theorem flushReply_replied (s : State) (m : Nat) :
    (mbxOf s m).Replied (mbxOf (flushReply s m) m) := by
  unfold flushReply
  split
  · exact .refl _
  · split
    · exact placeReply_replied (onFw s _) m _
    · exact .refl _

theorem flushReplies_replied (s : State) (m : Nat) :
    (mbxOf s m).Replied (mbxOf (flushReplies s m) m) := by
  unfold flushReplies
  split
  · exact List.foldlRecOn (motive := fun t => (mbxOf s m).Replied (mbxOf t m)) _ _ (.refl _)
      fun t ih _ _ => ih.trans (flushReply_replied t m)
  · exact .refl _

/-! ### Writes to the transmit registers -/

/-- What a write shows of its mailbox where replies may follow it: the words of its queue stand, and
without a reply that was kept the write is all. -/
structure Gave (s t : State) (m : Nat) (b : Bool) (r : Queue) (flag : Option (Bool × Nat)) : Prop where
  words : r.words <+: (txQueue (mbxOf t m) b).words
  other : txQueue (mbxOf t m) (!b) = txQueue (mbxOf s m) (!b)
  lock : (mbxOf t m).lock = (mbxOf s m).lock
  elsewhere : ∀ k, k ≠ m → mbxOf t k = mbxOf s k
  status : ∀ f n, n < 8 → flag = some (f, n) → (sideOf (mbxOf t m) f).status.getLsbD n = true
  exact : b = false ∨ takeReply s.fw.replies m = none → Wrote s t m b r flag

theorem Wrote.status {s t : State} {m : Nat} {b f : Bool} {n : Nat} {r : Queue}
    (h : Wrote s t m b r (some (f, n))) (small : n < 8) :
    (sideOf (mbxOf t m) f).status.getLsbD n = true := by
  rw [h.sides, flagged, if_pos rfl]
  exact getLsbD_setBit_self _ small

theorem Wrote.gave {s t : State} {m : Nat} {b : Bool} {r : Queue} {flag : Option (Bool × Nat)}
    (h : Wrote s t m b r flag) : Gave s t m b r flag where
  words := by rw [h.queue]
  other := h.other
  lock := h.lock
  elsewhere := h.elsewhere
  status f n small e := Wrote.status (e ▸ h) small
  exact _ := h

/-- Replies that follow a write to queue BA (R156). -/
theorem Wrote.gave_flushReplies {s t : State} {m : Nat} {r : Queue} {flag : Option (Bool × Nat)}
    (h : Wrote s t m true r flag) : Gave s (flushReplies t m) m true r flag := by
  have replied := flushReplies_replied t m
  refine ⟨h.queue ▸ replied.grows.words true, replied.ab.trans h.other, replied.lock.trans h.lock,
    fun k ne => (mbxOf_flushReplies_of_ne t ne).trans (h.elsewhere k ne),
    fun f n small e => replied.grows.status f n (Wrote.status (e ▸ h) small), fun alone => ?_⟩
  have nothing : takeReply t.fw.replies m = none := by
    rw [h.fw]
    simpa using alone
  rw [flushReplies_of_none nothing]
  exact h

theorem txWrite_of_misses {s : State} {a m : Nat} {b : Bool} (h : hostMisses s a m b = true)
    (aligned : Bool) (v : Word) (eom : Bool) : txWrite s a m b aligned v eom = s :=
  if_pos h

/-- A write that an agent may not make (R98, R118). -/
theorem txWrite_of_barred {s : State} {a m : Nat} {b aligned : Bool} (h : hostMisses s a m b = false)
    (barred : aligned = false ∨ sideAllows m b a = false) (v : Word) (eom : Bool) :
    txWrite s a m b aligned v eom = flagSide s m b 6 := by
  rw [txWrite, h, if_neg Bool.false_ne_true, if_neg (by simpa using imp_iff_not_or.mpr (by simpa using barred))]
  rfl

theorem gave_txWrite {s : State} {a m : Nat} {b eom : Bool} (h : hostMisses s a m b = false)
    (allowed : sideAllows m b a = true) {v : Word} {r : Queue} {flag : Option (Bool × Nat)}
    (wrote : Wrote s (enqueue s a m b v eom) m b r flag) :
    Gave s (txWrite s a m b true v eom) m b r flag := by
  rw [txWrite, h, if_neg Bool.false_ne_true, if_pos (by simpa using allowed)]
  cases b
  · exact wrote.gave
  · exact wrote.gave_flushReplies

theorem flag_lt {b : Bool} {n : Nat} (h : n < 8) (f : Bool) (k : Nat)
    (e : some (b, n) = some (f, k)) : k < 8 := by
  cases e
  exact h

theorem exec_mbTxDataAlias {first : Fin 8} {words : List Word}
    (h : 1 ≤ words.length ∧ first.val + words.length ≤ 8) (a : Agent) (m : Fin 24) (b : Bool)
    (s : State) : exec (.mbTxDataAlias a m b first words) s = .next (issue s a
      (fun s => words.foldl (fun s w => txWrite s a m b true w false) s)) :=
  if_pos h

theorem running_of_islands {s t : State} (h : t.islands = s.islands) : running t = running s := by
  funext i
  unfold running isl
  rw [h]

theorem agentOut_of_islands {s t : State} (h : t.islands = s.islands) (a : Nat) :
    agentOut t a = agentOut s a := by
  simp only [agentOut, running_of_islands h]

/-- A word written leaves the islands as they are. -/
theorem agentOut_txWrite (s : State) (a m : Nat) (b aligned : Bool) (v : Word) (eom : Bool) :
    agentOut (txWrite s a m b aligned v eom) a = agentOut s a :=
  agentOut_of_islands ((txWrite_follows ..).islands (by decide)) a

/-- The words of one write are issued one by one (R103). -/
theorem issue_foldl_cons (s : State) (a m : Nat) (b : Bool) (v : Word) (r : List Word) :
    issue s a (fun s => (v :: r).foldl (fun s w => txWrite s a m b true w false) s) =
      issue (issue s a (fun s => txWrite s a m b true v false)) a
        (fun s => r.foldl (fun s w => txWrite s a m b true w false) s) := by
  cases out : agentOut s a with
  | false => simp only [issue_of_not_out out]
  | true =>
    rw [issue_of_out out, issue_of_out out, issue_of_out ((agentOut_txWrite ..).trans out)]
    rfl

/-- Settles O12: a write is one change of its queue and of one flag (`Wrote`), case by case of R102 and
R118 to R121; replies that follow only add to queue BA (`Mbx.Replied`), and the words of one write go in
one by one (`issue_foldl_cons`). -/
theorem writtenWordsEnterTheirQueueOrAreLost : Obligations.WrittenWordsEnterTheirQueueOrAreLost := by
  refine ⟨fun a m b eom aligned v s => ?word, fun a m b first next v r s => ?aliases⟩
  case word =>
    intro i x q stamp lost word full gives
    have run : exec i s = .next (issue s a (fun s => txWrite s a m b aligned v eom)) := by
      cases eom <;> rfl
    have of_gave {r : Queue} {flag : Option (Bool × Nat)} (out : agentOut s a = true)
        (small : ∀ f n, flag = some (f, n) → n < 8)
        (h : Gave s (txWrite s a m b aligned v eom) m b r flag) : gives r flag := by
      refine ⟨_, run.trans (congrArg _ (issue_of_out out _)), h.words, h.other, h.lock, h.elsewhere,
        fun f n e => h.status f n (small f n e) e,
        fun alone => ⟨(h.exact alone).queue, fun side => ?_⟩⟩
      rw [(h.exact alone).sides]
      rcases flag with _ | ⟨f, n⟩ <;> rfl
    refine ⟨fun barred => ?_, fun out reaches => ⟨fun barred => ?_, fun aligned' allowed => ?_⟩⟩
    · rw [run, issue]
      split
      next out => rw [txWrite_of_misses (barred.resolve_left (by simp [out]))]
      next => rfl
    · refine of_gave out (flag_lt (by decide)) ?_
      rw [txWrite_of_barred reaches barred]
      exact ((wrote_nothing s m b).flagSide b 6).gave
    · subst aligned'
      have placed {r : Queue} {flag : Option (Bool × Nat)} (small : ∀ f n, flag = some (f, n) → n < 8)
          (h : Wrote s (enqueue s a m b v eom) m b r flag) : gives r flag :=
        of_gave out small (gave_txWrite reaches allowed h)
      have room (h : full = false) : q.free ≠ 0 := by
        simp only [full, decide_eq_false_iff_not] at h
        simp only [Queue.free]
        omega
      refine ⟨fun dropped => placed nofun (enqueue_of_discard rfl v dropped),
        fun kept => ⟨fun opened other => placed (flag_lt (by decide)) (enqueue_of_clash rfl v kept opened other),
          fun own => ⟨fun h => placed (flag_lt (by decide)) (enqueue_of_full rfl v kept own ?_),
            fun h => ⟨fun last => ?_, fun more => ?_⟩⟩⟩⟩
      · exact Nat.sub_eq_zero_of_le (of_decide_eq_true h)
      · subst last
        exact placed (flag_lt (by decide)) (enqueue_of_last rfl v kept own (room h))
      · subst more
        exact placed nofun (enqueue_of_open rfl v kept own (room h))
  case aliases =>
    refine ⟨?one, fun some follows fits => ?more⟩
    case one => exact if_pos ⟨Nat.le_refl 1, first.isLt⟩
    case more =>
      have pos : 1 ≤ r.length := List.length_pos_iff.mpr some
      have all : 1 ≤ (v :: r).length ∧ first.val + (v :: r).length ≤ 8 := by
        simp only [List.length_cons]
        omega
      have whole := exec_mbTxDataAlias all a m b s
      have rest (t : State) := exec_mbTxDataAlias (first := next) ⟨pos, by omega⟩ a m b t
      refine ⟨_, rfl, ?_, _, whole⟩
      rw [whole, rest]
      exact congrArg _ (issue_foldl_cons ..)

end Sys2Proof.Machine
end

section
/-! PROOFS. The resets of agents (chapters 02, 03 and 16, R70, R123 to R127, R653, R800): what a reset
does to one mailbox, what PERST# holds back, the vectors that its release hands over, and the
obligation O9. -/

open Sys2Proof

namespace Sys2Proof.Machine

/-! ### One mailbox (R124 to R127) -/

/-- Set one bit of a side's status. -/
def Mbx.flag (x : Mbx) (b : Bool) (i : Nat) : Mbx :=
  x.setSide b { sideOf x b with status := setBit (sideOf x b).status i true }

/-- A queue when an agent is reset, which may receive it alone (R124, R125). -/
def Queue.resetBy (q : Queue) (a : Nat) (alone : Bool) : Queue :=
  let q := if q.openStamp = some (BitVec.ofNat 4 a) then { q with opened := [] } else q
  let q := { q with discard := setBit q.discard a false }
  if alone then
    { words := [], opened := [],
      discard := match q.openStamp with
        | some o => setBit q.discard o.toNat true
        | none => q.discard }
  else q

/-- The side and the queue of a side when an agent is reset (R124, R125, R127). -/
def Mbx.resetSideBy (x : Mbx) (a m : Nat) (b : Bool) : Mbx :=
  if onlyAgent m b = some a then x.setSide b {} else x

def Mbx.resetQueueBy (x : Mbx) (a m : Nat) (b : Bool) : Mbx :=
  let alone := decide (onlyAgent m (!b) = some a)
  let y := x.setTx b ((txQueue x b).resetBy a alone)
  if alone then y.flag b 2 else y

/-- The lock when an agent is reset (R126). -/
def Mbx.unlockBy (x : Mbx) (a : Nat) : Mbx :=
  if x.lock.toNat = a then (({ x with lock := 0 } : Mbx).flag false 7).flag true 7 else x

def Mbx.resetBy (x : Mbx) (a m : Nat) : Mbx :=
  ((((x.resetSideBy a m false).resetSideBy a m true).resetQueueBy a m false).resetQueueBy a m
    true).unlockBy a

theorem mbxOf_flagSide' (s : State) (m : Nat) (b : Bool) (i : Nat) :
    mbxOf (flagSide s m b i) m = (mbxOf s m).flag b i := mbxOf_flagSide s m b i

theorem mbxOf_resetSide (s : State) (a m : Nat) (b : Bool) :
    mbxOf (resetSide s a m b) m = (mbxOf s m).resetSideBy a m b := by
  unfold resetSide Mbx.resetSideBy
  split <;> simp

theorem mbxOf_resetQueue (s : State) (a m : Nat) (b : Bool) :
    mbxOf (resetQueue s a m b) m = (mbxOf s m).resetQueueBy a m b := by
  unfold resetQueue Mbx.resetQueueBy Queue.resetBy
  by_cases alone : onlyAgent m (!b) = some a
  · simp only [alone, decide_true, if_true, mbxOf_flagSide', mbxOf_updMbx_self]
    rfl
  · simp only [alone, decide_false, if_false, Bool.false_eq_true, mbxOf_updMbx_self]

theorem mbxOf_resetMbx (s : State) (a m : Nat) :
    mbxOf (resetMbx a s m) m = (mbxOf s m).resetBy a m := by
  unfold resetMbx Mbx.resetBy Mbx.unlockBy
  simp only [mbxOf_resetQueue, mbxOf_resetSide]
  split
  · simp only [mbxOf_flagSide', mbxOf_updMbx_self, mbxOf_resetQueue, mbxOf_resetSide]
    rfl
  · simp only [mbxOf_resetQueue, mbxOf_resetSide]

/-! ### What the reset leaves of a queue -/

theorem getLsbD_setBit_false_self {n : Nat} (x : BitVec n) (i : Nat) :
    (setBit x i false).getLsbD i = false := by
  by_cases small : i < n
  · have one : (oneBit n i).getLsbD i = true := by
      rw [oneBit, BitVec.getLsbD_ofNat, Nat.testBit_two_pow_self, decide_eq_true small, Bool.and_true]
    rw [setBit, if_neg Bool.false_ne_true, BitVec.getLsbD_and, BitVec.getLsbD_not, one]
    simp
  · exact BitVec.getLsbD_of_ge _ _ (by omega)

namespace Queue

variable (q : Queue) (a : Nat)

/-- The queue without an open message of the agent, and the agent out of its discard set (R125). -/
def leftBy : Queue :=
  { if q.openStamp = some (BitVec.ofNat 4 a) then { q with opened := [] } else q with
    discard := setBit q.discard a false }

theorem leftBy_openStamp : (q.leftBy a).openStamp ≠ some (BitVec.ofNat 4 a) := by
  unfold leftBy
  split
  next h => exact nofun
  next h => exact h

theorem resetBy_false : q.resetBy a false = q.leftBy a := by
  unfold resetBy leftBy
  split <;> rfl

theorem resetBy_true : q.resetBy a true = { discard := match (q.leftBy a).openStamp with
    | some o => setBit (q.leftBy a).discard o.toNat true
    | none => (q.leftBy a).discard } := by
  unfold resetBy leftBy
  split <;> rfl

theorem resetBy_openStamp (alone : Bool) : (q.resetBy a alone).openStamp ≠ some (BitVec.ofNat 4 a) := by
  cases alone
  · rw [resetBy_false]
    exact leftBy_openStamp q a
  · exact nofun

theorem words_resetBy (alone : Bool) :
    (q.resetBy a alone).words = if alone then [] else q.words := by
  cases alone
  · rw [resetBy_false]
    unfold leftBy
    split <;> rfl
  · rfl

/-- No message stays open where only the agent receives. -/
theorem opened_resetBy : (q.resetBy a true).opened = [] := rfl

theorem discard_resetBy (alone : Bool) :
    (q.resetBy a alone).discard.getLsbD a = false := by
  have left : (q.leftBy a).discard.getLsbD a = false := getLsbD_setBit_false_self q.discard a
  cases alone
  · rw [resetBy_false, left]
  · rw [resetBy_true]
    split
    next o h =>
      have other : a ≠ o.toNat := fun e =>
        leftBy_openStamp q a (h.trans (congrArg some (BitVec.eq_of_toNat_eq (by simp [e]))))
      rw [getLsbD_setBit_of_ne _ _ other, left]
    next => exact left

end Queue

/-! ### What the reset leaves of a mailbox -/

namespace Mbx

variable (x : Mbx) (a m : Nat) (b c : Bool)

@[simp] theorem lock_flag (i : Nat) : (x.flag b i).lock = x.lock := Mbx.lock_setSide ..

@[simp] theorem txQueue_flag (i : Nat) : txQueue (x.flag b i) c = txQueue x c :=
  Mbx.txQueue_setSide ..

/-- A flag clears no status bit. -/
theorem status_flag_of_set {i j : Nat} (h : (sideOf x c).status.getLsbD j = true) :
    (sideOf (x.flag b i) c).status.getLsbD j = true := by
  rw [flag, Mbx.sideOf_setSide]
  split
  next e => exact getLsbD_setBit_of_set _ _ (e ▸ h)
  next => exact h

theorem status_flag_self {i : Nat} (h : i < 8) : (sideOf (x.flag b i) b).status.getLsbD i = true := by
  rw [flag, Mbx.sideOf_setSide, if_pos rfl]
  exact getLsbD_setBit_self _ h

@[simp] theorem lock_resetSideBy : (x.resetSideBy a m b).lock = x.lock := by
  unfold resetSideBy
  split <;> simp

@[simp] theorem txQueue_resetSideBy : txQueue (x.resetSideBy a m b) c = txQueue x c := by
  unfold resetSideBy
  split <;> simp

@[simp] theorem lock_resetQueueBy : (x.resetQueueBy a m b).lock = x.lock := by
  unfold resetQueueBy
  dsimp only
  split <;> simp

@[simp] theorem txQueue_resetQueueBy_self : txQueue (x.resetQueueBy a m b) b =
    (txQueue x b).resetBy a (decide (onlyAgent m (!b) = some a)) := by
  unfold resetQueueBy
  dsimp only
  split <;> simp

@[simp] theorem txQueue_resetQueueBy_not :
    txQueue (x.resetQueueBy a m b) (!b) = txQueue x (!b) := by
  unfold resetQueueBy
  dsimp only
  split <;> simp

theorem status_resetQueueBy_of_set {j : Nat} (h : (sideOf x c).status.getLsbD j = true) :
    (sideOf (x.resetQueueBy a m b) c).status.getLsbD j = true := by
  unfold resetQueueBy
  dsimp only
  split
  · exact status_flag_of_set _ _ _ (by simpa using h)
  · simpa using h

theorem status_resetQueueBy_self (h : onlyAgent m (!b) = some a) :
    (sideOf (x.resetQueueBy a m b) b).status.getLsbD 2 = true := by
  unfold resetQueueBy
  dsimp only
  rw [if_pos (decide_eq_true h)]
  exact status_flag_self _ _ (by decide)

theorem txQueue_unlockBy : txQueue (x.unlockBy a) c = txQueue x c := by
  unfold unlockBy
  split
  · simp only [txQueue_flag]
    rfl
  · rfl

theorem status_unlockBy_of_set {j : Nat} (h : (sideOf x c).status.getLsbD j = true) :
    (sideOf (x.unlockBy a) c).status.getLsbD j = true := by
  unfold unlockBy
  split
  · exact status_flag_of_set _ _ _ (status_flag_of_set _ _ _ h)
  · exact h

theorem txQueue_resetBy : txQueue (x.resetBy a m) b =
    (txQueue x b).resetBy a (decide (onlyAgent m (!b) = some a)) := by
  unfold resetBy
  rw [txQueue_unlockBy]
  cases b
  · rw [show false = !true from rfl, txQueue_resetQueueBy_not]
    simp
  · rw [txQueue_resetQueueBy_self, show true = !false from rfl, txQueue_resetQueueBy_not]
    simp

theorem lock_resetBy : (x.resetBy a m).lock = if x.lock.toNat = a then 0 else x.lock := by
  unfold resetBy unlockBy
  simp only [lock_resetQueueBy, lock_resetSideBy]
  split <;> simp

/-- A lock that the agent held is broken on both sides (R126). -/
theorem status_resetBy_of_locked (h : x.lock.toNat = a) :
    (sideOf (x.resetBy a m) b).status.getLsbD 7 = true := by
  unfold resetBy unlockBy
  simp only [lock_resetQueueBy, lock_resetSideBy, if_pos h]
  cases b
  · exact status_flag_of_set _ _ _ (status_flag_self _ _ (by decide))
  · exact status_flag_self _ _ (by decide)

/-- ABORT of the side whose queue the agent alone receives (R124). -/
theorem status_resetBy_of_alone (h : onlyAgent m (!b) = some a) :
    (sideOf (x.resetBy a m) b).status.getLsbD 2 = true := by
  refine status_unlockBy_of_set _ _ _ ?_
  cases b
  · exact status_resetQueueBy_of_set _ _ _ _ _ (status_resetQueueBy_self _ _ _ _ h)
  · exact status_resetQueueBy_self _ _ _ _ h

end Mbx

/-! ### All mailboxes -/

theorem mbxOf_resetSide_of_ne (s : State) (a : Nat) {m k : Nat} (b : Bool) (h : k ≠ m) :
    mbxOf (resetSide s a m b) k = mbxOf s k := by
  unfold resetSide
  split <;> simp [mbxOf_updMbx_of_ne _ _ h]

theorem mbxOf_resetQueue_of_ne (s : State) (a : Nat) {m k : Nat} (b : Bool) (h : k ≠ m) :
    mbxOf (resetQueue s a m b) k = mbxOf s k := by
  unfold resetQueue
  dsimp only
  split
  · rw [mbxOf_flagSide_of_ne _ _ _ h, mbxOf_updMbx_of_ne _ _ h]
  · exact mbxOf_updMbx_of_ne _ _ h

theorem mbxOf_resetMbx_of_ne (s : State) (a : Nat) {m k : Nat} (h : k ≠ m) :
    mbxOf (resetMbx a s m) k = mbxOf s k := by
  unfold resetMbx
  dsimp only
  split
  · rw [mbxOf_flagSide_of_ne _ _ _ h, mbxOf_flagSide_of_ne _ _ _ h, mbxOf_updMbx_of_ne _ _ h]
    simp only [mbxOf_resetQueue_of_ne _ _ _ h, mbxOf_resetSide_of_ne _ _ _ h]
  · simp only [mbxOf_resetQueue_of_ne _ _ _ h, mbxOf_resetSide_of_ne _ _ _ h]

/-- Every mailbox is reset once. -/
theorem mbxOf_foldl_resetMbx (s : State) (a m n : Nat) :
    mbxOf ((List.range n).foldl (resetMbx a) s) m =
      if m < n then (mbxOf s m).resetBy a m else mbxOf s m := by
  induction n with
  | zero => rfl
  | succ n ih =>
    rw [List.range_succ, List.foldl_append, List.foldl_cons, List.foldl_nil]
    by_cases last : m = n
    · subst last
      rw [mbxOf_resetMbx, ih, if_neg (Nat.lt_irrefl m), if_pos (Nat.lt_succ_self m)]
    · rw [mbxOf_resetMbx_of_ne _ _ last, ih]
      exact if_congr (by omega) rfl rfl

/-! ### The replies that fill the emptied queues (R156) -/

/-- Taking the reply of another mailbox leaves none for this one. -/
theorem takeReply_of_taken {l r : List (Nat × List Word)} {m k : Nat} {w : List Word}
    (none' : takeReply l m = none) (taken : takeReply l k = some (w, r)) : takeReply r m = none := by
  induction l generalizing r with
  | nil => cases taken
  | cons p l ih =>
    obtain ⟨j, v⟩ := p
    have other : j ≠ m := fun e => by simp [takeReply, e] at none'
    have tail : takeReply l m = none := by simpa [takeReply, other] using none'
    by_cases here : j = k
    · simp only [takeReply, here, if_true, Option.some.injEq, Prod.mk.injEq] at taken
      exact taken.2 ▸ tail
    · simp only [takeReply, here, if_false, Option.map_eq_some_iff, Prod.mk.injEq] at taken
      obtain ⟨⟨u, q⟩, found, rfl, rfl⟩ := taken
      simp [takeReply, other, ih tail found]

theorem takeReply_flushReply {s : State} {m : Nat} (none' : takeReply s.fw.replies m = none) (k : Nat) :
    takeReply (flushReply s k).fw.replies m = none := by
  unfold flushReply
  split
  · exact none'
  next w r taken =>
    split
    · rw [(placeReply_follows ..).fw (by decide)]
      exact takeReply_of_taken none' taken
    · exact none'

theorem takeReply_flushReplies {s : State} {m : Nat} (none' : takeReply s.fw.replies m = none)
    (k : Nat) : takeReply (flushReplies s k).fw.replies m = none := by
  unfold flushReplies
  split
  · exact List.foldlRecOn (motive := fun t : State => takeReply t.fw.replies m = none) _ _ none'
      fun t ih _ _ => takeReply_flushReply ih k
  · exact none'

/-- What the replies that were kept leave of a mailbox. -/
structure Refilled (s t : State) (m : Nat) : Prop where
  replied : (mbxOf s m).Replied (mbxOf t m)
  nothing : takeReply s.fw.replies m = none →
    mbxOf t m = mbxOf s m ∧ takeReply t.fw.replies m = none

theorem Refilled.flushReplies {s t : State} {m : Nat} (h : Refilled s t m) (k : Nat) :
    Refilled s (flushReplies t k) m := by
  refine ⟨?_, fun none' => ?_⟩
  · by_cases own : m = k
    · subst own
      exact h.replied.trans (flushReplies_replied t m)
    · rw [mbxOf_flushReplies_of_ne _ own]
      exact h.replied
  · obtain ⟨same, none''⟩ := h.nothing none'
    refine ⟨?_, takeReply_flushReplies none'' k⟩
    by_cases own : m = k
    · subst own
      rw [flushReplies_of_none none'', same]
    · rw [mbxOf_flushReplies_of_ne _ own, same]

theorem refilled_foldl (s : State) (m : Nat) (l : List Nat) :
    Refilled s (l.foldl flushReplies s) m :=
  List.foldlRecOn (motive := fun t => Refilled s t m) _ _ ⟨.refl _, fun h => ⟨rfl, h⟩⟩
    fun _ ih k _ => ih.flushReplies k

/-- A mailbox after the reset of an agent: reset, and then given what replies were kept for it. -/
theorem agentReset_mbx (s : State) (a : Nat) (m : Fin 24) :
    ((mbxOf s m).resetBy a m).Replied (mbxOf (agentReset s a) m) ∧
    (takeReply s.fw.replies m = none → mbxOf (agentReset s a) m = (mbxOf s m).resetBy a m) := by
  have reset := mbxOf_foldl_resetMbx s a m 24
  rw [if_pos m.isLt] at reset
  have fw : ((List.range 24).foldl (resetMbx a) s).fw = s.fw :=
    (Follows.foldl (l := [.out, .intc, .mbx, .pcie]) (.refl _ s)
      (fun u k => resetMbx_follows a u k)).fw (by decide)
  have weir : mbxOf (agentReset s a) m = mbxOf ((List.range 8).foldl flushReplies
      ((List.range 24).foldl (resetMbx a) s)) m :=
    mbxOf_congr ((weirAgentReset_follows _ a).mbx (by decide)) m
  obtain ⟨replied, nothing⟩ := refilled_foldl ((List.range 24).foldl (resetMbx a) s) m (List.range 8)
  rw [reset] at replied
  rw [reset, fw] at nothing
  rw [weir]
  exact ⟨replied, fun h => (nothing h).1⟩

/-! ### What PERST# holds back (R653) -/

/-- While PERST# is low, the endpoint is left as it is. -/
structure HeldBack (s t : State) : Prop where
  pins : t.pins = s.pins
  pcie : s.pins.perst = false → t.pcie = s.pcie

namespace HeldBack

variable {s t u : State}

theorem refl (s : State) : HeldBack s s := ⟨rfl, fun _ => rfl⟩

theorem trans (h : HeldBack s t) (g : HeldBack t u) : HeldBack s u :=
  ⟨g.pins.trans h.pins, fun low => (g.pcie (h.pins ▸ low)).trans (h.pcie low)⟩

theorem of_follows {l : List Part} (h : Follows l s t) (pins : .pins ∉ l) (pcie : .pcie ∉ l) :
    HeldBack s t :=
  ⟨h.pins pins, fun _ => h.pcie pcie⟩

theorem foldl {β : Type} {f : State → β → State} (h : ∀ u x, HeldBack u (f u x)) (l : List β)
    (s : State) : HeldBack s (l.foldl f s) :=
  List.foldlRecOn (motive := fun t => HeldBack s t) _ _ (.refl s) fun _ ih x _ => ih.trans (h _ x)

end HeldBack

theorem heldBack_updMbx (s : State) (m : Nat) (f : Mbx → Mbx) : HeldBack s (updMbx s m f) :=
  ⟨rfl, fun _ => rfl⟩

theorem heldBack_vectorReq (s : State) (v : Nat) : HeldBack s (vectorReq s v) := by
  refine ⟨(vectorReq_follows s v).pins (by decide), fun low => ?_⟩
  rw [vectorReq, if_neg (by simp [hostInReset, low])]

theorem heldBack_flagSide (s : State) (m : Nat) (b : Bool) (i : Nat) :
    HeldBack s (flagSide s m b i) := by
  simp only [flagSide]
  split
  · split
    · exact (heldBack_updMbx ..).trans (heldBack_vectorReq ..)
    · exact heldBack_updMbx ..
  · exact (heldBack_updMbx ..).trans
      (.of_follows (driveSide_follows ..) (by decide) (by decide))

theorem heldBack_updMbx_flagSide (s : State) (m : Nat) (f : Mbx → Mbx) (b : Bool) (i : Nat) :
    HeldBack s (flagSide (updMbx s m f) m b i) :=
  (heldBack_updMbx ..).trans (heldBack_flagSide ..)

theorem heldBack_enqueue (s : State) (a m : Nat) (b : Bool) (v : Word) (eom : Bool) :
    HeldBack s (enqueue s a m b v eom) := by
  simp only [enqueue]
  split
  case isTrue => exact heldBack_updMbx ..
  split
  case isTrue => exact heldBack_updMbx_flagSide ..
  split
  case isTrue => exact heldBack_updMbx_flagSide ..
  split
  case isTrue => exact heldBack_updMbx_flagSide ..
  case isFalse => exact heldBack_updMbx ..

theorem heldBack_placeReply (s : State) (m : Nat) (w : List Word) : HeldBack s (placeReply s m w) := by
  fun_induction placeReply s m w with
  | case1 s m => exact .refl s
  | case2 s m w => exact heldBack_enqueue ..
  | case3 s m w r _ ih => exact (heldBack_enqueue ..).trans ih

theorem heldBack_onFw (s : State) (f : Fw → Fw) : HeldBack s (onFw s f) := ⟨rfl, fun _ => rfl⟩

theorem heldBack_flushReply (s : State) (m : Nat) : HeldBack s (flushReply s m) := by
  unfold flushReply
  split
  · exact .refl s
  · split
    · exact (heldBack_onFw ..).trans (heldBack_placeReply ..)
    · exact .refl s

theorem heldBack_flushReplies (s : State) (m : Nat) : HeldBack s (flushReplies s m) := by
  unfold flushReplies
  split
  · exact .foldl (fun u _ => heldBack_flushReply u m) _ s
  · exact .refl s

theorem heldBack_resetQueue (s : State) (a m : Nat) (b : Bool) : HeldBack s (resetQueue s a m b) := by
  unfold resetQueue
  dsimp only
  split
  · exact heldBack_updMbx_flagSide ..
  · exact heldBack_updMbx ..

theorem heldBack_resetMbx (a : Nat) (s : State) (m : Nat) : HeldBack s (resetMbx a s m) := by
  have side (s : State) (b : Bool) : HeldBack s (resetSide s a m b) :=
    .of_follows (resetSide_follows s a m b) (by decide) (by decide)
  have before := (((side s false).trans (side _ true)).trans (heldBack_resetQueue _ a m false)).trans
    (heldBack_resetQueue _ a m true)
  unfold resetMbx
  dsimp only
  split
  · exact (before.trans (heldBack_updMbx_flagSide ..)).trans (heldBack_flagSide ..)
  · exact before

theorem heldBack_agentReset (s : State) (a : Nat) : HeldBack s (agentReset s a) :=
  ((HeldBack.foldl (heldBack_resetMbx a) _ s).trans (.foldl heldBack_flushReplies _ _)).trans
    (.of_follows (weirAgentReset_follows _ a) (by decide) (by decide))

/-! ### The release of PERST# -/

/-- A vector that may not be sent stays pending (R142). -/
theorem msixDue_of_no_master {s : State} (h : s.pcie.busMaster = false) (v : Nat) :
    msixDue s v = { s with pcie := { s.pcie with pba := setBit s.pcie.pba v true } } := by
  rw [msixDue, if_neg (by simp [msixOpen, h])]

/-- Without bus mastering, the first `n` vectors that are handed over stay pending. -/
theorem foldl_msixDue_of_no_master {s : State} (h : s.pcie.busMaster = false) (held : BitVec 64)
    (n : Nat) (small : n ≤ 64) :
    ∃ p, (List.range n).foldl (fun s v => if held.getLsbD v then msixDue s v else s) s =
        { s with pcie := { s.pcie with pba := p } } ∧
      ∀ i, p.getLsbD i = (s.pcie.pba.getLsbD i || (decide (i < n) && held.getLsbD i)) := by
  induction n with
  | zero => exact ⟨s.pcie.pba, rfl, by simp⟩
  | succ n ih =>
    obtain ⟨p, so, bits⟩ := ih (by omega)
    rw [List.range_succ, List.foldl_append, List.foldl_cons, List.foldl_nil, so]
    by_cases due : held.getLsbD n = true
    · rw [if_pos due, msixDue_of_no_master (s := { s with pcie := { s.pcie with pba := p } }) h]
      refine ⟨setBit p n true, rfl, fun i => ?_⟩
      by_cases last : i = n
      · subst last
        rw [getLsbD_setBit_self _ (by omega)]
        simp [due]
      · rw [getLsbD_setBit_of_ne _ _ last, bits]
        congr 2
        exact decide_eq_decide.mpr (by omega)
    · rw [if_neg due]
      refine ⟨p, rfl, fun i => ?_⟩
      rw [bits]
      by_cases last : i = n
      · subst last
        simp [due]
      · congr 2
        exact decide_eq_decide.mpr (by omega)

theorem vecRelease_of_no_master {s : State} (h : s.pcie.busMaster = false) :
    vecRelease s = { s with
      intc := { s.intc with vecHeld := 0 },
      pcie := { s.pcie with pba := s.pcie.pba ||| s.intc.vecHeld } } := by
  obtain ⟨p, so, bits⟩ := foldl_msixDue_of_no_master
    (s := { s with intc := { s.intc with vecHeld := 0 } }) h s.intc.vecHeld 64 (Nat.le_refl 64)
  have all : p = s.pcie.pba ||| s.intc.vecHeld := by
    apply BitVec.eq_of_getLsbD_eq
    intro i hi
    refine (bits i).trans ?_
    rw [decide_eq_true hi, Bool.true_and, BitVec.getLsbD_or]
  rw [vecRelease, so, all]

theorem vecRelease_intc (s : State) : (vecRelease s).intc = { s.intc with vecHeld := 0 } :=
  (Follows.foldl (l := [.out, .pcie]) (.refl _ _) fun u v => by
    split
    · exact msixDue_follows u v
    · exact .refl _ u).intc (by decide)

theorem Mbx.Replied.word {x y : Mbx} (h : x.Replied y) (b : Bool) :
    (txQueue x b).WordOf 2 (txQueue y b) := by
  cases b
  · show x.ab.WordOf 2 y.ab
    rw [h.ab]
    exact .refl 2 _
  · exact h.ba

theorem execPerstRelease_of_running {s : State} (h : running s islHI = true) :
    execPerstRelease s = .next (vecRelease { s with pins := { s.pins with perst := true } }) :=
  congrArg Host.Outcome.next
    (if_pos (c := running { s with pins := { s.pins with perst := true } } islHI = true) h)

theorem execPerstRelease_of_stopped {s : State} (h : running s islHI = false) :
    execPerstRelease s = .next { s with pins := { s.pins with perst := true } } :=
  congrArg Host.Outcome.next
    (if_neg (c := running { s with pins := { s.pins with perst := true } } islHI = true)
      (Bool.eq_false_iff.mp h))

/-- Settles O9: a reset acts on each mailbox alone (`Mbx.resetBy`), replies may then follow it
(`agentReset_mbx`), PERST# holds the endpoint (`heldBack_agentReset`), and its release hands over the
vectors that were held (`vecRelease_of_no_master`). -/
theorem agentResetsEndWhatTheAgentHeld : Obligations.AgentResetsEndWhatTheAgentHeld := by
  intro m b s ended
  have ends {a : Nat} {u : State} (small : a < 16) (other : a ≠ 2) (mbx : u.mbx = s.mbx)
      (fw : u.fw = s.fw) : ended a (agentReset u a) := by
    obtain ⟨replied, nothing⟩ := agentReset_mbx u a m
    rw [mbxOf_congr mbx m] at replied nothing
    rw [fw] at nothing
    have word := replied.word b
    have words := replied.grows.words b
    rw [Mbx.txQueue_resetBy] at word words
    rw [Queue.words_resetBy] at words
    refine ⟨?lock, fun alone => ⟨?abort, fun none' => ?empty⟩, fun shared => ⟨?kept, fun none' => ?same⟩,
      ?stamp, ?discard⟩
    case lock =>
      have lock := replied.lock.trans (Mbx.lock_resetBy (mbxOf s m) a m)
      split
      next held =>
        rw [if_pos held] at lock
        exact ⟨lock, replied.grows.status _ _ (Mbx.status_resetBy_of_locked _ _ _ _ held),
          replied.grows.status _ _ (Mbx.status_resetBy_of_locked _ _ _ _ held)⟩
      next free => rwa [if_neg free] at lock
    case abort => exact replied.grows.status _ _ (Mbx.status_resetBy_of_alone _ _ _ _ alone)
    case empty =>
      rw [nothing none', Mbx.txQueue_resetBy, decide_eq_true alone]
      exact ⟨rfl, rfl⟩
    case kept => simpa [shared] using words
    case same =>
      rw [nothing none', Mbx.txQueue_resetBy, Queue.words_resetBy, decide_eq_false shared]
      rfl
    case stamp =>
      have differs : BitVec.ofNat 4 a ≠ BitVec.ofNat 4 2 := fun e => by
        have := congrArg BitVec.toNat e
        simp only [BitVec.toNat_ofNat] at this
        omega
      exact fun e => Queue.resetBy_openStamp _ a _ (word.stamp _ differs e)
    case discard => exact (word.discard a other).trans (Queue.discard_resetBy _ a _)
  have perst := heldBack_agentReset (noteReset { s with
    pins := { s.pins with perst := false }, pcie := {} } rcPERST) 1
  refine ⟨⟨_, rfl, ends (by decide) (by decide) rfl rfl⟩,
    ⟨_, rfl, ends (by decide) (by decide) rfl rfl, ?_, ?_, ?_⟩, ?release⟩
  · rw [perst.pins]
    rfl
  · exact perst.pcie rfl
  · exact (agentReset_follows ..).sys (by decide)
  case release =>
    cases up : running s islHI
    · exact ⟨_, execPerstRelease_of_stopped up, rfl, fun _ => rfl, (nomatch ·)⟩
    · refine ⟨_, execPerstRelease_of_running up, (vecRelease_follows _).pins (by decide), (nomatch ·),
        fun _ => ⟨vecRelease_intc _, fun master => ?_⟩⟩
      rw [vecRelease_of_no_master (s := { s with pins := { s.pins with perst := true } }) master]
      exact ⟨rfl, rfl⟩

end Sys2Proof.Machine
end

section
/-! PROOFS. The host in Basin: its window's guards and errors (O14), and the endpoint (O15). -/
open Sys2Proof

namespace Sys2Proof.Machine

/-! ### Errors of the window (R135, R152) -/

/-- The window after error `bit` of a request at `a`: the first error since the status was cleared is
the one that is kept. -/
def winNoted (w : Window) (bit : Nat) (a : Nat) (bar0 : Bool) : Window :=
  { w with
    status := setBit w.status bit true, count := satAdd w.count 1,
    errAddr := if w.status = 0 then BitVec.ofNat 26 a else w.errAddr,
    errBar0 := if w.status = 0 then bar0 else w.errBar0,
    errValid := if w.status = 0 then true else w.errValid }

theorem winError_eq (s : State) (bit : Nat) (addr : BasinAddr) (bar0 : Bool) :
    winError s bit addr bar0 =
      postRec { s with win := winNoted s.win bit addr bar0 } 14 0x07 (w32 (b2n bar0))
        (pack [(0, addr.val), (26, 2 ^ bit)]) 0 := by
  have small : addr.val % 2 ^ 26 = addr.val := Nat.mod_eq_of_lt addr.isLt
  rw [winError, small]
  refine congrArg (fun w => postRec { s with win := w } 14 0x07 (w32 (b2n bar0))
    (pack [(0, addr.val), (26, 2 ^ bit)]) 0) ?_
  unfold winNoted
  dsimp only
  split <;> rfl

theorem hostError_out_basin (s : State) (write : Bool) (l : List (Err × Nat)) (e : Err) :
    (hostError s write l e).out = s.out ∧ (hostError s write l e).basin = s.basin :=
  ⟨(hostError_follows s write l e).out (by decide), (hostError_follows s write l e).basin (by decide)⟩

/-- Settles O14: every branch of the two requests, with the error that each reports. -/
theorem theHostWindowAnswersByItsGuards : Obligations.TheHostWindowAnswersByItsGuards := by
  intro addr n d bar0 s u guard error pos page some' small dpage
  have guarded : guardOf s addr = guard := rfl
  have read : exec (.hostBar2Read addr n) s = execHostBar2Read addr n s := rfl
  have write (ep bar0 : Bool) : exec (.hostBar2Write addr d ep bar0) s =
    execHostBar2Write addr d ep bar0 s := rfl
  refine ⟨fun out => ⟨?_, ?_⟩, fun reach => ⟨fun barred => ?_, fun b may got => ?_,
    fun e may failed => ?_, ?_, fun barred => ?_, fun may done => ?_⟩⟩
  · rw [read, execHostBar2Read, if_pos ⟨pos, page⟩, if_pos (by simp [out])]
  · rw [write, execHostBar2Write, if_pos ⟨some', small, dpage, nofun⟩, if_pos (by simp [out])]
  · rw [read, execHostBar2Read, if_pos ⟨pos, page⟩, if_neg (by simp [reach]),
      if_pos (by rw [guarded, barred]; rfl), winError_eq]
    rfl
  · rw [read, execHostBar2Read, if_pos ⟨pos, page⟩, if_neg (by simp [reach]),
      if_neg (by simp [guarded, may]), got]
  · rw [read, execHostBar2Read, if_pos ⟨pos, page⟩, if_neg (by simp [reach]),
      if_neg (by simp [guarded, may]), failed]
    obtain ⟨outSame, basinSame⟩ := hostError_out_basin u false (hostErrors u addr n) e
    exact ⟨_, rfl, congrArg (· ++ [Out.ep n]) outSame, basinSame⟩
  · rw [write, execHostBar2Write, if_pos ⟨some', small, dpage, fun _ => rfl⟩, if_neg (by simp [reach]),
      if_pos rfl, winError_eq]
    rfl
  · rw [write, execHostBar2Write, if_pos ⟨some', small, dpage, nofun⟩, if_neg (by simp [reach]),
      if_neg nofun, if_pos (by rw [guarded, barred]; rfl), winError_eq]
    rfl
  · rw [write, execHostBar2Write, if_pos ⟨some', small, dpage, nofun⟩, if_neg (by simp [reach]),
      if_neg nofun, if_neg (by simp [guarded, may]), done]

/-! ### The endpoint (R139, R142, R801) -/

theorem msixDue_of_open {s : State} {v : Nat} (h : msixOpen s v = true) :
    msixDue s v = { s with
      pcie := { s.pcie with pba := setBit s.pcie.pba v false },
      out := s.out ++ [Out.msix v (s.pcie.table.get {} v).addr (s.pcie.table.get {} v).data] } := by
  rw [msixDue, if_pos h]
  rfl

/-- What is so of a state once the pending vectors below `n` that may be sent have been sent. -/
structure SentBelow (n : Nat) (s t : State) : Prop where
  only : t = { s with pcie := { s.pcie with pba := t.pcie.pba }, out := t.out }
  pending : ∀ i, t.pcie.pba.getLsbD i =
    (s.pcie.pba.getLsbD i && !(decide (i < n) && msixOpen s i))
  sent : ∀ i, i < n → s.pcie.pba.getLsbD i = true → msixOpen s i = true →
    Out.msix i (s.pcie.table.get {} i).addr (s.pcie.table.get {} i).data ∈ t.out

theorem SentBelow.msixOpen {n : Nat} {s t : State} (h : SentBelow n s t) (v : Nat) :
    msixOpen t v = msixOpen s v := by rw [h.only]; rfl

theorem SentBelow.table {n : Nat} {s t : State} (h : SentBelow n s t) : t.pcie.table = s.pcie.table := by
  rw [h.only]

theorem sentBelow_foldl (s : State) (n : Nat) :
    SentBelow n s ((List.range n).foldl (fun s v =>
      if s.pcie.pba.getLsbD v && Machine.msixOpen s v then msixDue s v else s) s) := by
  induction n with
  | zero => exact ⟨rfl, by simp, nofun⟩
  | succ n ih =>
    rw [List.range_succ, List.foldl_append, List.foldl_cons, List.foldl_nil]
    generalize List.foldl _ s (List.range n) = u at ih ⊢
    have due : u.pcie.pba.getLsbD n = s.pcie.pba.getLsbD n := by
      rw [ih.pending]
      simp
    rw [due, ih.msixOpen]
    have kept (v : Bool) {i : Nat} (ne : i ≠ n) : (setBit u.pcie.pba n v).getLsbD i =
        (s.pcie.pba.getLsbD i && !(decide (i < n + 1) && Machine.msixOpen s i)) := by
      rw [getLsbD_setBit_of_ne _ _ ne, ih.pending]
      congr 3
      exact decide_eq_decide.mpr (by omega)
    split
    next now =>
      obtain ⟨set, may⟩ := Bool.and_eq_true_iff.mp now
      rw [msixDue_of_open ((ih.msixOpen n).trans may)]
      refine ⟨?_, fun i => ?_, fun i le set may => ?_⟩
      · rw [ih.only]
      · by_cases last : i = n
        · subst last
          simp [may, getLsbD_setBit_false_self]
        · exact kept false last
      · rw [ih.table]
        by_cases last : i = n
        · subst last
          exact List.mem_append_right _ (List.mem_singleton.mpr rfl)
        · exact List.mem_append_left _ (ih.sent i (by omega) set may)
    next notNow =>
      refine ⟨ih.only, fun i => ?_, fun i le set may => ?_⟩
      · by_cases last : i = n
        · subst last
          rw [due]
          cases set : s.pcie.pba.getLsbD i
          · rfl
          · have := by simpa [set] using notNow
            simp [this]
        · rw [← kept true last, getLsbD_setBit_of_ne _ _ last]
      · have ne : i ≠ n := by
          rintro rfl
          exact notNow (by rw [set, may]; rfl)
        exact ih.sent i (by omega) set may

theorem sentBelow_msixFlush (s : State) : SentBelow 64 s (msixFlush s) := sentBelow_foldl s 64

/-- Settles O15: whatever changes the endpoint lets its pending vectors go (`sentBelow_msixFlush`). -/
theorem endpointWritesTakeEffectAndFreeVectors : Obligations.EndpointWritesTakeEffectAndFreeVectors := by
  intro on mask base setting v k x s flushed entry bytes
  have flush {i : Instr} {p : Pcie} (step : exec i s = .next (msixFlush { s with pcie := p }))
      (pba : p.pba = s.pcie.pba) : flushed i p := by
    have sent := sentBelow_msixFlush { s with pcie := p }
    refine ⟨_, step, ?_, ?_, fun n => ⟨?_, fun set may => ?_⟩⟩
    · rw [sent.only, ← pba]
    · rw [sent.only]
    · rw [sent.pending, sent.msixOpen, decide_eq_true n.isLt, Bool.true_and, ← pba]
    · rw [sent.table]
      exact sent.sent n n.isLt (pba ▸ set) (sent.msixOpen n ▸ may)
  have config (w : CfgWrite) {p : Pcie} (reach : cfgReach s = true)
      (put : cfgWrite s w = { s with pcie := p }) (pba : p.pba = s.pcie.pba) :
      flushed (.pcieConfigWrite w) p :=
    flush (congrArg Host.Outcome.next ((if_pos reach).trans (congrArg msixFlush put))) pba
  refine ⟨fun reach => ⟨config _ reach rfl rfl, config _ reach rfl rfl, config _ reach rfl rfl,
    config _ reach rfl rfl, config _ reach rfl rfl, config _ reach rfl rfl, config _ reach rfl rfl⟩,
    fun reach o at' => ⟨?_, ?_⟩⟩
  · refine flush ?_ rfl
    show execMsixTableWrite o [some x] s = _
    have row : o.val / 16 = v.val := by omega
    have col : o.val % 16 = k.val := by omega
    rw [execMsixTableWrite, if_pos (show o.val + [some x].length ≤ 1024 from o.isLt), if_pos reach, msixWrite, if_pos o.isLt, msixWrite, msixPut,
      row, col]
    rfl
  · refine flush ?_ rfl
    show execMsixTableWrite o [none] s = _
    rw [execMsixTableWrite, if_pos (show o.val + [(none : Option Byte)].length ≤ 1024 from o.isLt), if_pos reach, msixWrite, msixWrite]

end Sys2Proof.Machine
end

section
/-! PROOFS. The delivery of staged records (R176 to R180, R803): the obligation O16. -/
open Sys2Proof

namespace Sys2Proof.Machine

theorem execEventRecordDelivery_of_runs {s : State} (h : fwRuns s = true) :
    exec .eventRecordDelivery s = .next (deliverFirst s.staging [] s) :=
  congrArg Host.Outcome.next (if_pos h)

theorem execEventRecordDelivery_of_stopped {s : State} (h : fwRuns s = false) :
    exec .eventRecordDelivery s = .next s :=
  congrArg Host.Outcome.next (if_neg (Bool.eq_false_iff.mp h))

/-- A record at the head that need not wait and is delivered leaves the head. -/
theorem deliverFirst_of_delivered {r : Rec} {l : List Rec} {s t : State} (free : r.held s = false)
    (done : deliver s r = (t, true)) :
    deliverFirst (r :: l) [] s = stagingLevel { t with staging := l ++ t.staging.drop (l.length + 1) } := by
  rw [deliverFirst, if_neg (by simp [free]), done]
  simp [Nat.add_comm]

/-- The only record waits for the reply of the command that caused it. -/
theorem deliverFirst_of_held {r : Rec} {s : State} (held : r.held s = true) :
    deliverFirst [r] [] s = s := by
  rw [deliverFirst, if_pos (by simp [held]), deliverFirst]

theorem settleKept_of_none {s : State} {i : Nat} {m : Moor} {dropped : Word} (h : m.kept = 0) :
    settleKept s i m dropped = (s, m, dropped) := by
  rw [settleKept, if_pos h]

theorem putOverflow_of_none {s : State} {i : Nat} {m : Moor} {prod cons : Word} (h : m.since = 0) :
    putOverflow s i m prod cons = (s, m, prod) := by
  rw [putOverflow, if_pos h]

theorem Moor.not_full {m : Moor} {prod cons : Word} (h : (prod - cons).toNat < m.size) :
    m.full prod cons = false := by
  simpa [Moor.full] using h

/-- A mooring with room, whose drops are all told, takes a record at its PROD. -/
theorem putRec_of_room {s u v : State} {i : Nat} {m : Moor} {prod cons dropped e : Word} {r : Rec}
    (kept : m.kept = 0) (since : m.since = 0) (read : readCb s m = (u, some (prod, cons, dropped, e)))
    (room : (prod - cons).toNat < m.size)
    (put : putEntry u m prod cons r.bytes = (v, true)) :
    putRec s i m r = v := by
  have open' : ¬ m.full prod cons = true := Bool.eq_false_iff.mp (m.not_full room)
  rw [putRec, read]
  simp only [settleKept_of_none kept, putOverflow_of_none since, if_neg open', put]

/-- Settles O16: the record at the head waits, is held, or enters its ring (`putRec_of_room`). -/
theorem aRecordIsDeliveredIntoItsMooring : Obligations.ARecordIsDeliveredIntoItsMooring := by
  intro r l i m prod cons dropped e s u v w staged notMarker
  refine ⟨fun held last => ?_, fun free => ⟨execEventRecordDelivery_of_stopped,
    fun runs moor noDevice room => ?_, fun runs at' found kept since read room put advanced => ?_⟩⟩
  · subst last
    cases runs : fwRuns s
    · exact execEventRecordDelivery_of_stopped runs
    · rw [execEventRecordDelivery_of_runs runs, staged, deliverFirst_of_held held]
  · have delivered : deliver s r = (holdRec s r, true) := by
      rw [deliver, show moorIndex s r.moor = none by rw [moorIndex, if_pos moor, noDevice]]
      exact if_pos moor
    have held : holdRec s r = { s with fw := { s.fw with held := s.fw.held ++ [r] } } := by
      rw [holdRec, if_pos (by rw [notMarker]; exact decide_eq_true room)]
      rfl
    rw [execEventRecordDelivery_of_runs runs, staged, deliverFirst_of_delivered free delivered, held]
    have rest : l ++ s.staging.drop (l.length + 1) = l := by rw [staged]; simp
    exact congrArg (fun x => Host.Outcome.next (stagingLevel { s with
      fw := { s.fw with held := s.fw.held ++ [r] }, staging := x })) rest
  · intro told
    have entered : putEntry u m prod cons r.bytes = (told, true) := by
      rw [putEntry, show writeMem u 2 (m.entry prod) r.bytes = (v, none) from put]
      exact congrArg (·, true) (by rw [← advanced])
    have delivered : deliver s r = (told, true) := by
      rw [deliver, at']
      simp only [found, notMarker]
      rw [if_neg nofun, putRec_of_room kept since read room entered]
    rw [execEventRecordDelivery_of_runs runs, staged, deliverFirst_of_delivered free delivered]

end Sys2Proof.Machine
end

section
/-! PROOFS. The answers of the Lockkeeper's commands (R154 to R166): the fields of a command's header,
its checks, its reply in the queue, and the obligation O17. -/
open Sys2Proof

namespace Sys2Proof.Machine

/-! ### Checks (R163) -/

theorem firstFail_eq_ok {l : List Nat} : firstFail l = stOK ↔ ∀ x ∈ l, x = stOK := by
  induction l with
  | nil => simp [firstFail]
  | cons x l ih =>
    rw [firstFail, List.forall_mem_cons]
    split
    next ok => simp [ok, ih]
    next bad => simp [bad]

theorem firstFail_of_first {x : Nat} (l : List Nat) (bad : x ≠ stOK) : firstFail (x :: l) = x := if_neg bad

theorem firstFail_of_ok {x : Nat} (l : List Nat) (ok : x = stOK) : firstFail (x :: l) = firstFail l :=
  if_pos ok

/-- Every check of a list holds. -/
def Pass (l : List Nat) : Prop := ∀ x ∈ l, x = stOK

theorem Pass.nil : Pass [] := nofun

theorem Pass.cons {x : Nat} {l : List Nat} (h : x = stOK) (r : Pass l) : Pass (x :: l) :=
  List.forall_mem_cons.mpr ⟨h, r⟩

theorem guarded_of_pass {s : State} {l : List Nat} {f : State → Res} (h : Pass l) :
    guarded s l f = f s := if_pos (firstFail_eq_ok.mpr h)

theorem guarded_of_fail {s : State} {l : List Nat} {st : Nat} {f : State → Res} (fails : firstFail l = st)
    (bad : st ≠ stOK) : guarded s l f = .done s st [] := by
  subst fails
  exact if_neg bad

theorem need_of {ok : Bool} (h : ok = true) (st : Nat) : need ok st = stOK := if_pos h

theorem need_of_not {ok : Bool} (h : ok = false) (st : Nat) : need ok st = st :=
  if_neg (Bool.eq_false_iff.mp h)

/-! ### The header of a command (R154) -/

theorem testBit_pack_cons (lo v i : Nat) (l : List (Nat × Nat)) :
    (pack ((lo, v) :: l)).toNat.testBit i =
      ((decide (i < 32) && (decide (lo ≤ i) && v.testBit (i - lo))) || (pack l).toNat.testBit i) := by
  rw [pack, BitVec.toNat_or, Nat.testBit_or, BitVec.toNat_ofNat, Nat.testBit_mod_two_pow,
    Nat.testBit_shiftLeft]

theorem testBit_pack_nil (i : Nat) : (pack []).toNat.testBit i = false := Nat.zero_testBit i

theorem testBit_fld (w : Word) (lo n i : Nat) :
    (fld w lo n).testBit i = (decide (i < n) && w.toNat.testBit (lo + i)) := by
  rw [fld, Nat.testBit_mod_two_pow, Nat.testBit_shiftRight]

theorem flags_cmdOf (op : Nat) (mb : Fin 8) (msg : Msg) : (cmdOf op mb msg).flags = msg.flags.toNat := by
  apply Nat.eq_of_testBit_eq
  intro i
  have high (h : 12 ≤ i) : msg.flags.toNat.testBit i = false :=
    Nat.testBit_lt_two_pow (msg.flags.isLt.trans_le (Nat.pow_le_pow_right (by omega) h))
  rw [Cmd.flags, testBit_fld]
  by_cases small : i < 12
  · simp [cmdOf, testBit_pack_cons, testBit_pack_nil, small, show i < 32 by omega, show ¬ 12 ≤ i by omega,
      show ¬ 16 ≤ i by omega, show ¬ 24 ≤ i by omega]
  · simp [small, high (by omega)]

theorem shape_cmdOf {op : Nat} {mb : Fin 8} {msg : Msg} {count flags : Nat}
    (words : msg.words.length = count) (mask : msg.flags.toNat &&& (4095 - flags) = 0) :
    (cmdOf op mb msg).shape count flags = stOK := by
  have words' : (cmdOf op mb msg).words.length = count := words
  rw [Cmd.shape, flags_cmdOf, mask, words']
  exact need_of (by simp) _

/-! ### A command that is executed -/

section
variable {i : Instr} {op : Nat} {cls : Cls} {rec : Bool} {mb : Fin 8} {msg : Msg} {s u t : State}
  {run : Cmd → State → Res}

/-- What a command that is executed answers, where its row ends it. -/
theorem replies_of_done {st : Nat} {w : List Word} (h : Executes s (cmdOf op mb msg) cls rec u)
    (row : exec i s = command op cls rec mb msg s run) (sound : msg.fault = false)
    (done : run (cmdOf op mb msg) u = .done t st w) : Replies i s t (cmdOf op mb msg) st w := by
  rw [Replies, row, command_of_executes h, sound, faulting_false, done, finish]

/-- A firmware fault takes the place of a reply OK (R186). -/
theorem replies_of_fault {w : List Word} (h : Executes s (cmdOf op mb msg) cls rec u)
    (row : exec i s = command op cls rec mb msg s run) (fault : msg.fault = true)
    (done : run (cmdOf op mb msg) u = .done t stOK w) :
    Replies i s (internalFault u) (cmdOf op mb msg) stINTERNAL [] := by
  rw [Replies, row, command_of_executes h, fault, done]
  rfl

/-- A command that its row lets wait (R158). -/
theorem exec_of_wait {w : Waiting} (h : Executes s (cmdOf op mb msg) cls rec u)
    (row : exec i s = command op cls rec mb msg s run) (sound : msg.fault = false)
    (done : run (cmdOf op mb msg) u = .wait t w) :
    exec i s = .next (caused (onFw t (fun f => { f with waiting := Tab.put f.waiting mb w }))) := by
  rw [row, command_of_executes h, sound, faulting_false, done, finish]
  rfl

/-- A command of the wrong mode is answered so (R51, R54). -/
theorem command_of_wrong_mode (hl : msg.words.length ≤ 7)
    (ht : takes s mb ((cmdOf op mb msg).header :: (cmdOf op mb msg).words) = true)
    (hu : u = takeMsg s mb ((cmdOf op mb msg).header :: (cmdOf op mb msg).words))
    (fresh : duplicateOf u (cmdOf op mb msg) = none) (mode : accepted u cls rec = false) :
    command op cls rec mb msg s run = .next (reply u mb (cmdOf op mb msg).header (cmdOf op mb msg).crc
      stWRONG_MODE []) := by
  subst hu
  have fresh' : duplicateOf (takeMsg s (cmdOf op mb msg).mb
    ((cmdOf op mb msg).header :: (cmdOf op mb msg).words)) (cmdOf op mb msg) = none := fresh
  have mode' : accepted (takeMsg s (cmdOf op mb msg).mb
    ((cmdOf op mb msg).header :: (cmdOf op mb msg).words)) cls rec = false := mode
  simp only [command, hl, if_true, ht, runCommand, fresh', mode', Bool.false_eq_true, if_false, finish]
  rfl
end

/-! ### The reply in its queue (R155, R156, R166) -/

/-- The words of a reply as the firmware enqueues them: the last has EOM. -/
def replyQWords : List Word → List QWord
  | [] => []
  | [w] => [{ data := w, stamp := 2, eom := true }]
  | w :: r => { data := w, stamp := 2, eom := false } :: replyQWords r

theorem zipIdx_eq_replyQWords (l : List Word) (k n : Nat) (h : k + l.length = n) :
    (l.zipIdx k).map (fun p => ({ data := p.1, stamp := 2, eom := decide (p.2 + 1 = n) } : QWord)) =
      replyQWords l := by
  fun_induction replyQWords l generalizing k with
  | case1 => rfl
  | case2 w => simp [show k + 1 = n from h]
  | case3 w r more ih =>
    have : r.length ≠ 0 := fun e => more (List.eq_nil_of_length_eq_zero e)
    rw [List.zipIdx_cons, List.map_cons, ih (k + 1) (by simpa [Nat.add_assoc, Nat.add_comm 1] using h)]
    rw [List.length_cons] at h
    rw [decide_eq_false (by omega)]

/-- A reply that fits stands in the queue behind what was there, and RX_MSG tells the host. -/
theorem placeReply_of_fits (s : State) (m : Nat) (w : List Word) (some' : w ≠ [])
    (fits : w.length ≤ (mbxOf s m).ba.free) (keeps : (mbxOf s m).ba.discard.getLsbD 2 = false)
    (own : (mbxOf s m).ba.openStamp = none ∨ (mbxOf s m).ba.openStamp = some 2) :
    (mbxOf (placeReply s m w) m).ba.words =
        (mbxOf s m).ba.words ++ (mbxOf s m).ba.opened ++ replyQWords w ∧
      (sideOf (mbxOf (placeReply s m w) m) false).status.getLsbD 0 = true := by
  fun_induction placeReply s m w with
  | case1 => exact absurd rfl some'
  | case2 s m w =>
    have room : (mbxOf s m).ba.free ≠ 0 := Nat.one_le_iff_ne_zero.mp fits
    have put := enqueue_of_last (a := 2) (b := true) rfl w keeps own room
    refine ⟨congrArg Queue.words put.queue, ?_⟩
    rw [put.sides false]
    exact getLsbD_setBit_self _ (by decide)
  | case3 s m w r more ih =>
    have put := enqueue_of_open (a := 2) (b := true) (q := (mbxOf s m).ba) rfl w keeps own
      (by rw [List.length_cons] at fits; omega)
    have queue : (mbxOf (enqueue s 2 m true w false) m).ba = { (mbxOf s m).ba with
      opened := (mbxOf s m).ba.opened ++ [{ data := w, stamp := 2, eom := false }] } := put.queue
    rw [queue] at ih
    have stamp : ((mbxOf s m).ba.opened ++ [({ data := w, stamp := 2, eom := false } : QWord)]).head?.map
        (·.stamp) = some 2 := by
      rw [Queue.openStamp] at own
      cases opened : (mbxOf s m).ba.opened with
      | nil => rfl
      | cons x l => simpa [opened] using own
    obtain ⟨words, status⟩ := ih more (by
      simp only [Queue.free, List.length_append, List.length_cons, List.length_nil] at fits ⊢
      omega) keeps (.inr stamp)
    refine ⟨words.trans ?_, status⟩
    rw [replyQWords]
    · simp
    · exact more

theorem takeReply_append_self {l : List (Nat × List Word)} {m : Nat} (w : List Word)
    (h : takeReply l m = none) : takeReply (l ++ [(m, w)]) m = some (w, l) := by
  induction l with
  | nil => simp [takeReply]
  | cons p l ih =>
    obtain ⟨k, v⟩ := p
    have other : k ≠ m := fun e => by simp [takeReply, e] at h
    simp only [takeReply, if_neg other, Option.map_eq_none_iff] at h
    simp only [List.cons_append, takeReply, if_neg other, ih h, Option.map_some]

/-- A reply that fits, with none of its mailbox before it, is placed at once. -/
theorem sendReply_of_fits {s : State} {m : Nat} {w : List Word} (fits : replyFits s m w.length = true)
    (none' : takeReply s.fw.replies m = none) :
    sendReply s m w =
      placeReply (onFw s (fun f => { f with placed := f.placed.upd 0 m (fun n => n + 1) })) m w := by
  rw [sendReply, flushReply]
  simp only [onFw, takeReply_append_self w none']
  exact if_pos fits

theorem record_mbx (s : State) (m : Nat) (h crc : Word) (st : Nat) (w : List Word) :
    (record s m h crc st w).mbx = s.mbx := by
  unfold record
  split <;> rfl

theorem record_replies (s : State) (m : Nat) (h crc : Word) (st : Nat) (w : List Word) :
    (record s m h crc st w).fw.replies = s.fw.replies := by
  unfold record
  split <;> rfl

/-- The result is kept unless the class is Q or the status BUSY (R166). -/
theorem windows_record (s : State) (m : Nat) (h crc : Word) (st : Nat) (w : List Word) :
    if fld h 24 8 ≤ 4 ∨ st = stBUSY then record s m h crc st w = s
    else (windowOf (record s m h crc st w) m).getLast? =
      some { header := h, crc := crc, reply := replyWords h st w } := by
  have q : (classQ h || decide (st = stBUSY)) = true ↔ fld h 24 8 ≤ 4 ∨ st = stBUSY := by
    simp [classQ]
  split
  next lost => exact if_pos (q.mpr lost)
  next kept =>
    rw [record, if_neg (mt q.mp kept), windowOf, keepResult]
    simp only [onFw, Tab.get_set_self]
    rw [List.getLast?_drop]
    simp

theorem length_replyWords (header : Word) (st : Nat) (w : List Word) :
    (replyWords header st w).length = 1 + w.length := Nat.add_comm ..

/-- A reply that fits is the last of its queue, and tells the host. -/
theorem reply_of_fits {s : State} {m : Nat} {header crc : Word} {st : Nat} {w : List Word}
    (fits : replyFits s m (1 + w.length) = true) (none' : takeReply s.fw.replies m = none) :
    (mbxOf (reply s m header crc st w) m).ba.words =
        (mbxOf s m).ba.words ++ replyQWords (replyWords header st w) ∧
      (sideOf (mbxOf (reply s m header crc st w) m) false).status.getLsbD 0 = true ∧
      (reply s m header crc st w).fw.windows = (record s m header crc st w).fw.windows := by
  have mbx := mbxOf_congr (record_mbx s m header crc st w) m
  have replies := record_replies s m header crc st w
  obtain ⟨⟨free, opened⟩, keeps⟩ : (1 + w.length ≤ (mbxOf s m).ba.free ∧ (mbxOf s m).ba.opened = []) ∧
      (mbxOf s m).ba.discard.getLsbD 2 = false := by
    simpa [replyFits] using fits
  have sent := sendReply_of_fits (s := record s m header crc st w) (m := m) (w := replyWords header st w)
    (by rwa [length_replyWords, replyFits, mbx]) (by rwa [replies])
  rw [reply, sent]
  generalize record s m header crc st w = r at mbx ⊢
  have same : mbxOf (onFw r (fun f => { f with placed := f.placed.upd 0 m (fun n => n + 1) })) m =
    mbxOf s m := mbx
  obtain ⟨words, status⟩ := placeReply_of_fits
    (onFw r (fun f => { f with placed := f.placed.upd 0 m (fun n => n + 1) })) m
    (replyWords header st w) (List.cons_ne_nil _ _) (by rwa [same, length_replyWords]) (by rwa [same])
    (by rw [same, Queue.openStamp, opened]; exact .inl rfl)
  rw [same, opened, List.append_nil] at words
  refine ⟨words, status, ?_⟩
  rw [(placeReply_follows ..).fw (by decide)]
  rfl

/-- Settles O17: the reply stands in the queue (`placeReply_of_fits`), the result is kept
(`windows_record`), and each way in which a command is not executed has its answer. -/
theorem commandsAreAnsweredAndKept : Obligations.CommandsAreAnsweredAndKept := by
  intro mb tag header words k st w s u nop c stamped
  refine ⟨fun fits none' => ?_, fun short taken hu => ⟨fun repeated => ?_, fun fresh mode => ?_⟩,
    fun bad taken hu => ?_, fun h => ?_⟩
  · obtain ⟨placed, status, windows⟩ := reply_of_fits (header := header) (crc := payloadCrc words)
      (st := st) fits none'
    have result := windows_record s mb header (payloadCrc words) st w
    refine ⟨placed.trans (congrArg _ ?_), status, ?_⟩
    · exact (zipIdx_eq_replyQWords (replyWords header st w) 0 _ (Nat.zero_add _)).symm
    · split at result
      next lost =>
        rw [result] at windows
        rwa [if_pos (show fld header 24 8 ≤ 4 ∨ st = 0x15 from lost)]
      next kept =>
        rw [if_neg (show ¬ (fld header 24 8 ≤ 4 ∨ st = 0x15) from kept), windowOf, windows]
        exact ⟨_, result, rfl, rfl⟩
  · subst hu
    exact command_of_repeat (op := 0x40) (msg := ⟨tag, 0, words, false⟩) short taken repeated _
  · refine command_of_wrong_mode (op := 0x40) (msg := ⟨tag, 0, words, false⟩) short taken hu fresh ?_
    rw [accepted]
    split
    · rfl
    · exact decide_eq_false mode
  · subst hu
    exact (if_pos bad).trans (congrArg Host.Outcome.next (if_pos taken))
  · refine replies_of_fault h rfl rfl (w := []) (t := u) ?_
    exact guarded_of_pass (.cons (shape_cmdOf rfl (Nat.zero_and _)) .nil)

end Sys2Proof.Machine
end

section
/-! PROOFS. The commands of classes Q and M, SET_CYCLE, and the user blocks (R189 to R192): the
obligations O18 and O19. -/
open Sys2Proof

namespace Sys2Proof.Machine

theorem shape_plain {op : Nat} {mb : Fin 8} {tag : BitVec 8} {words : List Word} {fault : Bool}
    {count flags : Nat} (h : words.length = count) :
    (cmdOf op mb ⟨tag, 0, words, fault⟩).shape count flags = stOK :=
  shape_cmdOf h (Nat.zero_and _)

theorem firstFail_of_need {ok : Bool} {st : Nat} {l : List Nat} (h : ok = false) (bad : st ≠ stOK) :
    firstFail (need ok st :: l) = st := by
  rw [need_of_not h, firstFail_of_first l bad]

theorem firstFail_of_pass {l : List Nat} (h : Pass l) (r : List Nat) : firstFail (l ++ r) = firstFail r := by
  induction l with
  | nil => rfl
  | cons x l ih =>
    obtain ⟨ok, more⟩ := List.forall_mem_cons.mp h
    exact (firstFail_of_ok _ ok).trans (ih more)

/-- A word of one low field has no reserved bits (R163). -/
theorem rsv_of_lt {w : Word} {n : Nat} (h : w.toNat < 2 ^ n) : rsv w (BitVec.ofNat 32 (2 ^ n - 1)) = stOK := by
  refine need_of (decide_eq_true ?_) _
  apply BitVec.eq_of_getLsbD_eq
  intro i hi
  have bits : (BitVec.ofNat 32 (2 ^ n - 1)).getLsbD i = decide (i < n) := by
    rw [BitVec.getLsbD_ofNat, Nat.testBit_two_pow_sub_one, decide_eq_true hi, Bool.true_and]
  have high (e : n ≤ i) : w.getLsbD i = false :=
    Nat.testBit_lt_two_pow (h.trans_le (Nat.pow_le_pow_right (by omega) e))
  simp only [BitVec.getLsbD_and, BitVec.getLsbD_not, hi, bits]
  by_cases low : i < n
  · simp [low]
  · simp [low, high (by omega)]

theorem fld_of_lt {w : Word} {n : Nat} (h : w.toNat < 2 ^ n) : fld w 0 n = w.toNat := by
  rw [fld, Nat.shiftRight_zero, Nat.mod_eq_of_lt h]

/-- A command that its row lets wait keeps its records until its reply is placed (R158). -/
theorem caused_of_waiting {s u : State} {c : Cmd} {cls : Cls} {rec : Bool} (h : Executes s c cls rec u)
    (w : Waiting) :
    caused (onFw u (fun f => { f with waiting := Tab.put f.waiting c.mb w })) =
      onFw u (fun f => { f with causer := none, waiting := Tab.put f.waiting c.mb w }) := by
  rw [h.state]
  generalize takeMsg s c.mb (c.header :: c.words) = t
  have waits : t.fw.placed.get 0 c.mb < t.fw.placed.get 0 c.mb + keptReplies t c.mb + 1 ∧
      (keptReplies t c.mb ≠ 0 ∨ (Tab.find? (Tab.put t.fw.waiting c.mb w) c.mb).isSome) :=
    ⟨by omega, .inr (by rw [Tab.find?_put_self]; rfl)⟩
  exact if_pos waits

/-- Settles O18: each command passes its checks and answers as its row says. -/
theorem queryAndMachineCommandsAnswer : Obligations.QueryAndMachineCommandsAnswer := by
  intro mb tag clear x any s u c flags ident
  refine ⟨fun h => ?ident, fun h => ?_, fun h live free => ?query, fun h => ?_, fun h small => ?mode,
    fun h range => ?watchdog, fun h low high off => ?cycle⟩
  case ident =>
    have set : ident.flags = b2n clear := by
      rw [flags_cmdOf]
      cases clear <;> rfl
    have mask : flags.toNat &&& (4095 - 1) = 0 :=
      (by decide : ∀ b : Bool, (if b then 1 else 0 : BitVec 12).toNat &&& (4095 - 1) = 0) clear
    refine replies_of_done h rfl rfl ((guarded_of_pass (.cons (shape_cmdOf rfl mask) .nil)).trans ?_)
    dsimp only
    rw [show (cmdOf 1 mb ⟨tag, flags, [], false⟩).flags = b2n clear from set]
    cases clear <;> rfl
  · exact replies_of_done h rfl rfl (guarded_of_pass (.cons (shape_plain rfl) .nil))
  case query =>
    refine replies_of_done h rfl rfl
      (guarded_of_pass (.cons ?_ (.cons (shape_plain rfl) (.cons (need_of ?_ _) .nil))))
    · exact live
    · rw [Bool.not_eq_true', Bool.and_eq_false_imp]
      exact fun station => free (of_decide_eq_true station)
  · exact replies_of_done h rfl rfl (guarded_of_pass (.cons (shape_plain rfl) .nil))
  case mode =>
    intro target
    have named : BitVec.ofNat 4 (fld x 0 4) = target := by rw [fld_of_lt small]
    have reserved : rsv x 0xF = stOK := rsv_of_lt (n := 4) small
    have allowed (may : mayGo u.sys.mode target = true ∨ target = u.sys.mode) :
        (([x] : List Word).isEmpty || decide (BitVec.ofNat 4 (fld x 0 4) = u.sys.mode) ||
          mayGo u.sys.mode (BitVec.ofNat 4 (fld x 0 4))) = true := by
      rw [named]
      rcases may with may | same
      · rw [may, Bool.or_true]
      · rw [decide_eq_true same, Bool.or_true, Bool.true_or]
    have passes (may : mayGo u.sys.mode target = true ∨ target = u.sys.mode)
        (idle : modePending u = false) (f : State → Res) := guarded_of_pass (s := u) (f := f)
      (.cons (need_of (allowed may) stWRONG_MODE) (.cons (shape_plain rfl : (c 8 [x]).shape 1 0 = stOK)
        (.cons reserved (.cons (need_of (Bool.not_eq_true' _ ▸ idle) stBUSY) .nil))))
    refine ⟨fun barred other => ?_, fun may pending => ?_, fun same idle => ?_, fun may other idle => ?_⟩
    · refine replies_of_done h rfl rfl (guarded_of_fail (firstFail_of_need ?_ (by decide)) (by decide))
      show (([x] : List Word).isEmpty || decide (BitVec.ofNat 4 (fld x 0 4) = u.sys.mode) ||
          mayGo u.sys.mode (BitVec.ofNat 4 (fld x 0 4))) = false
      rw [named, barred, decide_eq_false other]
      rfl
    · refine replies_of_done h rfl rfl (guarded_of_fail ((firstFail_of_pass
        (.cons (need_of (allowed may) _) (.cons (shape_plain rfl) (.cons reserved .nil))) _).trans
          (firstFail_of_need ?_ (by decide))) (by decide))
      rw [pending]
      rfl
    · refine replies_of_done h rfl rfl ((passes (.inr same) idle _).trans ((if_pos ?_).trans ?_))
      · exact named.trans same
      · have back : (BitVec.ofNat 4 (fld x 0 4)).setWidth 32 = x := by
          apply BitVec.eq_of_toNat_eq
          rw [fld_of_lt small, BitVec.toNat_setWidth, BitVec.toNat_ofNat]
          omega
        exact congrArg (fun v => Res.done u stOK [v]) back
    · refine (exec_of_wait h rfl rfl ((passes (.inl may) idle _).trans (if_neg ?_))).trans ?_
      · exact fun e => other (named.symm.trans e)
      · refine congrArg Host.Outcome.next ((caused_of_waiting h _).trans ?_)
        rw [← named]
        rfl
  case watchdog =>
    refine replies_of_done h rfl rfl
      (guarded_of_pass (.cons (shape_plain rfl) (.cons (need_of ?_ _) .nil)))
    show (decide (x.toNat = 0) || decide (10 ≤ x.toNat ∧ x.toNat ≤ 60000)) = true
    rcases range with rfl | range
    · rfl
    · rw [decide_eq_true range, Bool.or_true]
  case cycle =>
    refine replies_of_done h rfl rfl
      (guarded_of_pass (.cons (shape_plain rfl) (.cons (need_of ?_ _) (.cons (need_of ?_ _) .nil))))
    · exact decide_eq_true ⟨low, high⟩
    · exact List.all_eq_true.mpr fun l hl => by rw [off ⟨l, List.mem_range.mp hl⟩]; rfl

/-! ### User blocks (R192) -/

theorem Tab.find?_filter_keys {α : Type} (t : Tab α) (keep : Nat → Bool) (i : Nat) :
    Tab.find? (t.filter (fun q => keep q.1)) i = if keep i then Tab.find? t i else none := by
  induction t with
  | nil => simp [Tab.find?]
  | cons q r ih =>
    obtain ⟨k, v⟩ := q
    rw [List.filter_cons]
    by_cases here : k = i
    · subst here
      cases kept : keep k <;> simp [kept, Tab.find?, ih]
    · cases kept : keep k <;> simp [Tab.find?, here, ih]

/-- The same value written to a run of keys. -/
theorem Tab.get_foldl_set_run {α : Type} [DecidableEq α] (d : α) (t : Tab α) (first n : Nat) (v : α)
    (q : Nat) : Tab.get d ((List.range n).foldl (fun t i => Tab.set d t (first + i) v) t) q =
      if first ≤ q ∧ q < first + n then v else Tab.get d t q := by
  induction n with
  | zero => rw [if_neg (by omega)]; rfl
  | succ n ih =>
    rw [List.range_succ, List.foldl_append, List.foldl_cons, List.foldl_nil]
    by_cases last : q = first + n
    · subst last
      rw [Tab.get_set_self, if_pos (by omega)]
    · rw [Tab.get_set_of_ne _ _ _ last, ih]
      exact if_congr (by omega) rfl rfl

theorem guards_setGuards (s : State) (first n : Nat) (g : BitVec 2) (q : Nat) :
    (setGuards s first n g).win.guards.get 0 q =
      if first ≤ q ∧ q < first + n then g else s.win.guards.get 0 q :=
  Tab.get_foldl_set_run 0 s.win.guards first n g q

theorem firstFrom_eq_some {p : Nat → Bool} {n i k : Nat} (h : firstFrom p n i = some k) :
    i ≤ k ∧ k < i + n ∧ p k = true := by
  induction n generalizing i with
  | zero => cases h
  | succ n ih =>
    rw [firstFrom] at h
    split at h
    next here =>
      cases h
      exact ⟨Nat.le_refl _, by omega, here⟩
    next later =>
      obtain ⟨low, high, fits⟩ := ih h
      exact ⟨by omega, by omega, fits⟩

/-- Bytes `a` to `e` read as 0, the others as before, and the banks' registers are as before. -/
structure Zeroed (s t : State) (a e : Nat) : Prop where
  bytes : ∀ x, Memory.byte t.basin.bytes x = if a ≤ x ∧ x < e then 0 else Memory.byte s.basin.bytes x
  banks : t.basin.banks = s.basin.banks

theorem Zeroed.putDw {s t : State} {a e d : Nat} (h : Zeroed s t a e) (low : a ≤ 8 * d)
    (high : 8 * d + 8 ≤ e) : Zeroed s (putDw (setTag t d {}) d 0) a e := by
  refine ⟨fun x => ?_, h.banks⟩
  by_cases outside : x < 8 * d ∨ 8 * d + 8 ≤ x
  · rw [byte_putDw_of_outside _ _ _ outside]
    exact h.bytes x
  · obtain ⟨i, small, rfl⟩ : ∃ i, i < 8 ∧ x = 8 * d + i := ⟨x - 8 * d, by omega, by omega⟩
    rw [byte_putDw_inside _ _ _ small, if_pos (by omega)]
    exact (by decide : ∀ i < 8, (leBytes 8 (0 : Dword).toNat).getD i 0 = 0) i small

/-- The pages of a block read as 0 (R192). -/
theorem zeroed_zeroPages {s : State} (p : Nat) {n : Nat} (some' : 1 ≤ n)
    (unarmed : ∀ b : Fin 4, (bankRegs s b).arm = false) :
    Zeroed s (zeroPages s p n) (p * 65536) ((p + n) * 65536) := by
  unfold zeroPages
  refine List.foldlRecOn (motive := fun t => Zeroed s t _ _) _ _ ⟨fun x => ?_, rfl⟩ fun t zeroed b hb => ?_
  · refine (congrArg (Option.getD · 0) (Tab.find?_filter_keys s.basin.bytes
      (fun k => decide (k < p * 65536) || decide ((p + n) * 65536 ≤ k)) x)).trans ?_
    by_cases inside : p * 65536 ≤ x ∧ x < (p + n) * 65536
    · rw [if_pos inside, if_neg (by simp; omega)]
      rfl
    · rw [if_neg inside, if_pos (by simp; omega)]
      rfl
  · have small := List.mem_range.mp hb
    have bank : bankOf (8 * ((p * 65536 + 256 * b) / 8)) < 4 := Nat.mod_lt _ (by decide)
    rw [fullWrite_of_unarmed]
    · exact zeroed.putDw (by omega) (by omega)
    · rw [bankRegs, zeroed.banks]
      exact unarmed ⟨_, bank⟩

/-- Settles O19: a block takes the first place where it fits (`firstFrom_eq_some`), reads as 0
(`zeroed_zeroPages`) and has its guards (`guards_setGuards`). -/
theorem userBlocksAreAllocatedAndFreed : Obligations.UserBlocksAreAllocatedAndFreed := by
  intro mb tag x s u c n guard clear
  have word (op : Nat) : (c op).w 1 = x := rfl
  refine ⟨fun h reserved low high up => ?alloc, ?free⟩
  case alloc =>
    have runs : needs u banks = stOK := need_of (List.all_eq_true.mpr fun i hi => by
      have : i = 5 ∨ i = 6 ∨ i = 7 ∨ i = 8 := by simpa [banks] using hi
      rcases this with rfl | rfl | rfl | rfl
      exacts [up 0, up 1, up 2, up 3]) _
    have passes (f : State → Res) := guarded_of_pass (s := u) (f := f)
      (.cons (shape_plain rfl : (c 0x10).shape 1 0 = stOK)
        (.cons (need_of (decide_eq_true reserved) stBAD_ARG)
          (.cons (need_of (decide_eq_true (And.intro low high)) stBAD_ARG) (.cons runs .nil))))
    refine ⟨fun full => ?_, fun p fits unarmed => ?_⟩
    · refine replies_of_done h rfl rfl ((passes _).trans ?_)
      rw [show poolFit u (fld ((c 0x10).w 1) 0 11) = none from full]
      rfl
    · obtain ⟨from64, _, clears⟩ := firstFrom_eq_some fits
      obtain ⟨within, blocks⟩ := Bool.and_eq_true_iff.mp clears
      let taken := onFw u (fun f => { f with blocks := Tab.put f.blocks p n })
      have zero := zeroed_zeroPages (s := taken) p low unarmed
      refine ⟨from64, of_decide_eq_true within, fun r hr => ?_, setGuards (zeroPages taken p n) p n guard,
        replies_of_done h rfl rfl ((passes _).trans ?_), ?_, ?_, fun q => ?_⟩
      · simpa using List.all_eq_true.mp blocks r hr
      · rw [show poolFit u (fld ((c 0x10).w 1) 0 11) = some p from fits]
        rfl
      · exact ((setGuards_follows _ p n guard).fw (by decide)).trans
          ((zeroPages_follows taken p n).fw (by decide))
      · rw [(setGuards_follows _ p n guard).basin (by decide)]
        exact zero.bytes
      · rw [guards_setGuards, (zeroPages_follows taken p n).win (by decide)]
        rfl
  case free =>
    intro p size h page named
    have passes : Pass [(c 0x11).shape 1 0, need (x.toNat % 65536 = 0 && size ≠ 0) stBAD_ARG] :=
      .cons (shape_plain rfl) (.cons (need_of (by simpa using ⟨page, named⟩) _) .nil)
    refine ⟨fun busy => ?_, fun idle => ⟨setGuards (onFw u (fun f => { f with
      blocks := Tab.erase f.blocks p })) p size 0, ?_, ?_, ?_, fun q => ?_⟩⟩
    · refine replies_of_done h rfl rfl (guarded_of_fail
        ((firstFail_of_pass passes _).trans (firstFail_of_need ?_ (by decide))) (by decide))
      exact congrArg (!·) busy
    · refine replies_of_done h rfl rfl (guarded_of_pass ?_)
      obtain ⟨shape, block⟩ := List.forall_mem_cons.mp passes
      exact .cons shape (.cons (block _ (List.mem_singleton.mpr rfl))
        (.cons (need_of (congrArg (!·) idle) _) .nil))
    · exact (setGuards_follows _ p size 0).fw (by decide)
    · exact (setGuards_follows _ p size 0).basin (by decide)
    · exact guards_setGuards _ p size 0 q

end Sys2Proof.Machine
end

section
/-! PROOFS. The commands that create objects (R189, R192, R193): what Basin leaves of the firmware's
tables, the checks of handles, and the obligation O20. -/
open Sys2Proof

namespace Sys2Proof.Machine

/-! ### What an access to Basin leaves of the firmware (R172, R204, R206) -/

/-- The firmware's tables, but for the counts of dropped records. -/
def Fw.tables (f : Fw) : Fw := { f with moorings := [], heldDropped := 0 }

theorem keepDrop_tables (s : State) (h : Word) : (keepDrop s h).fw.tables = s.fw.tables := by
  unfold keepDrop
  split
  · split <;> rfl
  · split <;> rfl

theorem postRec_tables (s : State) (island type : Nat) (source payload moor : Word) :
    (postRec s island type source payload moor).fw.tables = s.fw.tables := by
  unfold postRec stage
  split
  · exact congrArg Fw.tables ((stagingLevel_follows _).fw (by decide))
  · exact keepDrop_tables _ _

theorem poisonDw_tables (s : State) (agent d : Nat) (syn : Byte) :
    (poisonDw s agent d syn).fw.tables = s.fw.tables :=
  postRec_tables ..

theorem readTag_tables (s : State) (agent d : Nat) :
    (readTag s agent d).1.fw.tables = s.fw.tables := by
  unfold readTag
  dsimp only
  split
  · split
    · rfl
    · exact poisonDw_tables ..
  · rfl

theorem fw_correction (s : State) (agent d b : Nat) (syn : Byte) (f : Bank → Bank) (v : Dword) :
    (putDw (noteErr (updBank s b f) agent d syn false) d v).fw = s.fw :=
  ((putDw_follows ..).fw (by decide)).trans
    (((noteErr_follows ..).fw (by decide)).trans ((updBank_follows ..).fw (by decide)))

theorem fetchDw_tables (s : State) (agent d : Nat) :
    (fetchDw s agent d).1.fw.tables = s.fw.tables := by
  have tag := readTag_tables s agent d
  unfold fetchDw
  dsimp only
  split
  · exact tag
  · split
    · exact tag
    · exact (congrArg Fw.tables (fw_correction ..)).trans tag
    · exact (congrArg Fw.tables (fw_correction ..)).trans tag
    · exact (poisonDw_tables ..).trans tag

theorem readDws_tables (fuel : Nat) (s : State) (agent a n : Nat) :
    (readDws fuel s agent a n).1.fw.tables = s.fw.tables := by
  induction fuel generalizing s a n with
  | zero => rfl
  | succ fuel ih =>
    unfold readDws
    dsimp only
    split
    · rfl
    · split <;> exact (ih ..).trans (fetchDw_tables ..)

theorem readReq_tables (s : State) (agent a n : Nat) :
    (readReq s agent a n).1.fw.tables = s.fw.tables := by
  have read := readDws_tables n s agent a n
  unfold readReq
  split
  · rfl
  · split <;> next h => rwa [h] at read

theorem readMany_tables (fuel : Nat) (s : State) (agent a n : Nat) :
    (readMany fuel s agent a n).1.fw.tables = s.fw.tables := by
  induction fuel generalizing s a n with
  | zero => rfl
  | succ fuel ih =>
    unfold readMany
    dsimp only
    split
    · rfl
    · split <;> exact (ih ..).trans (readReq_tables ..)

theorem readMem_tables (s : State) (agent a n : Nat) :
    (readMem s agent a n).1.fw.tables = s.fw.tables :=
  readMany_tables ..

theorem writeDw_tables (s : State) (agent d off : Nat) (b : List Byte) :
    (writeDw s agent d off b).1.fw.tables = s.fw.tables := by
  have read := fetchDw_tables s agent d
  unfold writeDw
  split
  · exact congrArg Fw.tables ((fullWrite_follows ..).fw (by decide))
  · split <;> next h => rwa [h] at read

theorem writeDws_tables (fuel : Nat) (s : State) (agent a : Nat) (b : List Byte) :
    (writeDws fuel s agent a b).1.fw.tables = s.fw.tables := by
  induction fuel generalizing s a b with
  | zero => rfl
  | succ fuel ih =>
    unfold writeDws
    dsimp only
    split
    · rfl
    · exact (ih ..).trans (writeDw_tables ..)

theorem writeReq_tables (s : State) (agent a : Nat) (b : List Byte) :
    (writeReq s agent a b).1.fw.tables = s.fw.tables := by
  unfold writeReq
  dsimp only
  split
  · rfl
  · exact (congrArg Fw.tables ((signalWrite_follows ..).fw (by decide))).trans
      (writeDws_tables ..)

theorem writeMany_tables (fuel : Nat) (s : State) (agent a : Nat) (b : List Byte) :
    (writeMany fuel s agent a b).1.fw.tables = s.fw.tables := by
  induction fuel generalizing s a b with
  | zero => rfl
  | succ fuel ih =>
    unfold writeMany
    dsimp only
    split
    · rfl
    · exact (ih ..).trans (writeReq_tables ..)

theorem writeMem_tables (s : State) (agent a : Nat) (b : List Byte) :
    (writeMem s agent a b).1.fw.tables = s.fw.tables :=
  writeMany_tables ..

theorem gens_of_tables {s t : State} (h : t.fw.tables = s.fw.tables) : t.fw.gens = s.fw.gens := by
  have gens : t.fw.tables.gens = s.fw.tables.gens := by rw [h]
  exact gens

theorem deviceMoor_of_tables {s t : State} (h : t.fw.tables = s.fw.tables) :
    t.fw.deviceMoor = s.fw.deviceMoor := by
  have moor : t.fw.tables.deviceMoor = s.fw.tables.deviceMoor := by rw [h]
  exact moor

/-! ### Checks of handles and islands (R40, R161, R163) -/

theorem needs_of {s : State} {l : List Nat} (h : ∀ i ∈ l, running s i = true) : needs s l = stOK :=
  need_of (List.all_eq_true.mpr h) _

theorem needs_one {s : State} {i : Nat} (h : running s i = true) : needs s [i] = stOK :=
  needs_of fun _ e => List.mem_singleton.mp e ▸ h

theorem Cmd.handle_of {c : Cmd} {s : State} {k : Nat} {types : List Nat}
    (h : handleStatus s types (c.w k) = 0) : c.handle s k types = stOK := by
  rw [Cmd.handle]
  split
  · rfl
  · exact h

theorem Cmd.handle0_of {c : Cmd} {s : State} {k : Nat} {types : List Nat}
    (h : c.w k = 0 ∨ handleStatus s types (c.w k) = 0) : c.handle0 s k types = stOK := by
  rw [Cmd.handle0]
  split
  · rfl
  next other => exact c.handle_of (h.resolve_left other)

theorem Cmd.mooring_of {c : Cmd} {s : State} {k : Nat} {w : Word} (is : c.w k = w)
    (h : w = 0 ∨ handleStatus s [7] w = 0 ∧
      (Tab.find? s.fw.moorings (handleIndex w)).any (fun m => m.kind = 0) = true) :
    c.mooring s k = stOK := by
  subst is
  have handle : c.handle0 s k [tMOORING] = stOK := c.handle0_of (h.imp_right And.left)
  rw [Cmd.mooring, handle]
  split
  · rfl
  next other =>
    rw [not_or, not_or] at other
    exact need_of (h.resolve_left other.2.1).2 _

theorem flags_plain {op : Nat} {mb : Fin 8} {tag : BitVec 8} {words : List Word} {fault : Bool} :
    (cmdOf op mb ⟨tag, 0, words, fault⟩).flags = 0 := flags_cmdOf ..

theorem withIndex_of {s : State} {t i : Nat} (f : Nat → Res) (h : freeIndex s t = some i) :
    withIndex s t f = f i := by rw [withIndex, h]

theorem created_of_gens {s v : State} (h : v.fw.gens = s.fw.gens) (t i : Nat) :
    created v t i = .done v stOK [handleOf s t i] := by
  rw [created, handleOf, genOf, h]
  rfl

/-- Registers that are each given a value of their own. -/
theorem rget_foldl_rset (f : Nat → Word) (l : List Nat) (t : Tab Word) (r : Nat) :
    rget (l.foldl (fun t r => rset t r (f r)) t) r = if r ∈ l then f r else rget t r := by
  induction l generalizing t with
  | nil => rfl
  | cons x l ih =>
    rw [List.foldl_cons, ih]
    by_cases later : r ∈ l
    · rw [if_pos later, if_pos (List.mem_cons_of_mem x later)]
    · rw [if_neg later]
      by_cases here : r = x
      · subst here
        rw [if_pos List.mem_cons_self]
        exact Tab.get_set_self ..
      · rw [if_neg (by simp [here, later])]
        exact Tab.get_set_of_ne _ _ _ here

theorem rget_blockRegs (b : List Byte) (mask : Nat → Option Word) {regs : List Nat} {r : Nat}
    (has : r ∈ regs) : rget (blockRegs b regs mask) r =
      (leWord (b.drop (4 * r - 0x80)) &&& (mask r).getD 0) :=
  (rget_foldl_rset (fun r => leWord (b.drop (4 * r - 0x80)) &&& (mask r).getD 0) regs [] r).trans
    (if_pos has)

theorem placeSig_gens {s t : State} {n a : Nat} (h : placeSig s n = some (t, a)) :
    t.fw.gens = s.fw.gens := by
  unfold placeSig at h
  dsimp only at h
  split at h
  · cases h
    rfl
  · obtain ⟨q, taken, same⟩ := Option.map_eq_some_iff.mp h
    cases same
    obtain ⟨p, -, same⟩ := Option.map_eq_some_iff.mp taken
    cases same
    exact (congrArg Fw.gens ((zeroPages_follows ..).fw (by decide))).trans rfl

theorem toNat_fld (w : Word) (lo n : Nat) : (BitVec.ofNat n (fld w lo n)).toNat = fld w lo n := by
  rw [BitVec.toNat_ofNat, fld, Nat.mod_mod]

/-- Settles O20: each object stands at the free index with what its command asks for. -/
theorem objectsAreCreatedAsAsked : Obligations.ObjectsAreCreatedAsAsked := by
  intro mb tag w1 w2 w3 w4 i s u r msg made runs moorOk m
  have word (op : Nat) (l : List Word) (k : Nat) : (cmdOf op mb (msg l)).w k = l.getD (k - 1) 0 := rfl
  have make {op t : Nat} {w : List Word} {cls : Cls} {rec : Bool} {instr : Instr} {holds : State → Prop}
      {run : Cmd → State → Res} {v : State} (h : Executes s (cmdOf op mb (msg w)) cls rec u)
      (row : exec instr s = command op cls rec mb (msg w) s run)
      (done : run (cmdOf op mb (msg w)) u = created v t i) (gens : v.fw.gens = u.fw.gens)
      (so : holds v) : made op t w instr holds :=
    ⟨v, replies_of_done h row rfl (done.trans (created_of_gens gens t i)), gens, so⟩
  refine ⟨?mooring, ?scene, ?voice, ?mix, ?channel, ?fence, ?script⟩
  case fence =>
    intro h moor free
    refine make h rfl ((guarded_of_pass ?_).trans (withIndex_of _ free)) rfl rfl
    exact .cons (Cmd.mooring_of (word _ _ _) moor) (.cons (shape_plain rfl) .nil)
  case channel =>
    intro h moor prio up free
    refine make h rfl ((guarded_of_pass ?_).trans (withIndex_of _ free)) rfl ?_
    · exact .cons (Cmd.mooring_of (word _ _ _) moor) (.cons (shape_plain rfl)
        (.cons (rsv_of_lt (n := 2) prio) (.cons (needs_one up) .nil)))
    · rw [show (cmdOf 0x19 mb (msg [w1, w2])).w 1 = w1 from rfl, fld_of_lt prio]
      rfl
  case voice =>
    intro h moor kind up free
    refine make h rfl ((guarded_of_pass ?_).trans (withIndex_of _ free)) rfl ?_
    · exact .cons (Cmd.mooring_of (word _ _ _) moor) (.cons (shape_plain rfl)
        (.cons (rsv_of_lt (n := 2) kind) (.cons (needs_one up) .nil)))
    · rw [show (cmdOf 0x16 mb (msg [w1, w2])).w 1 = w1 from rfl, fld_of_lt kind]
      rfl
  case mix =>
    intro h slot up station st port slot' quiet unused free
    have free' : (cmdOf 0x17 mb (msg [w1, w2])).free u 1 = stOK := need_of (by
      show (!(handleType w1 = tSTATION && rebindWaits u (handleIndex w1))) = true
      rcases station with rfl | ⟨-, idle⟩
      · rfl
      · rw [idle, Bool.and_false, Bool.not_false]) _
    have asked : (if (if w1 = 0 then none else some (handleIndex w1)).isSome then 0 else fld w2 0 1) = port ∧
        (if (if w1 = 0 then none else some (handleIndex w1)).isSome then 0 else fld w2 1 3) = slot' := by
      by_cases none' : w1 = 0 <;> simp [none', port, slot']
    have plain : decide ((cmdOf 0x17 mb (msg [w1, w2])).flags % 2 = 1) = false := by
      rw [flags_plain]
      rfl
    refine make h rfl ((guarded_of_pass ?_).trans (withIndex_of _ free)) rfl ?_
    · refine .cons (Cmd.handle0_of ?_) (.cons (shape_plain rfl)
        (.cons (rsv_of_lt (n := 4) slot) (.cons (needs_one up) (.cons free' (.cons (need_of ?_ _) .nil)))))
      · exact station.imp_right And.left
      · show (!mixExists u (if w1 = 0 then none else some (handleIndex w1))
          (if (if w1 = 0 then none else some (handleIndex w1)).isSome then 0 else fld w2 0 1)
          (if (if w1 = 0 then none else some (handleIndex w1)).isSome then 0 else fld w2 1 3)) = true
        rw [asked.1, asked.2]
        exact congrArg (!·) unused
    · have silent (x : Mix) (at' : x.station = st) (wash : x.washAudible = false) :
          x.quiet u.sys.mode = quiet := by
        rw [Mix.quiet, at', wash, Bool.not_false, Bool.and_true, Bool.and_comm]
        rfl
      have same : ({
          station := st, port := if st.isSome then 0 else fld w2 0 1,
          slot := if st.isSome then 0 else fld w2 1 3,
          washAudible := decide ((cmdOf 0x17 mb (msg [w1, w2])).flags % 2 = 1),
          first := u.cv.sample / 16, samples := List.replicate (u.cv.sample % 16) 0 } : Mix) = {
          station := st, port := port, slot := slot',
          first := u.cv.sample / 16, samples := List.replicate (u.cv.sample % 16) 0 } := by
        rw [asked.1, asked.2, plain]
      refine (congrArg (fun x : Mix => setMix u i { x with
        silenced := x.quiet u.sys.mode, gainNow := if x.quiet u.sys.mode then 255 else 0 }) same).trans ?_
      dsimp only
      rw [silent _ rfl rfl]
  case script =>
    intro k h scene moor mask up tp stack free
    let t : Task := {
      deck := fld w1 0 3, prio := BitVec.ofNat 4 (fld w1 4 4),
      scene := if w2 = 0 then none else some (handleIndex w2), moor := w3, slot := k }
    have tasks : (setDhMask (setTask u i t) t.scene).dh = (setTask u i t).dh :=
      (setDhMask_follows ..).dh (by decide)
    refine make (v := setDhMask (setTask u i t) t.scene) h rfl ((guarded_of_pass ?_).trans ?_) ?_
      ⟨?_, fun j other => ?_⟩
    · refine .cons (Cmd.handle0_of ?_) (.cons (Cmd.mooring_of (word _ _ _) ?_) (.cons (shape_plain rfl)
        (.cons (need_of (decide_eq_true mask) _) (.cons (needs_of fun k hk => ?_) .nil))))
      · exact scene
      · exact moor
      · rcases List.mem_cons.mp hk with rfl | hk
        · exact up
        · by_cases none' : w2 = 0
          · rw [show (cmdOf 0x1B mb (msg [w1, w2, w3])).w 2 = w2 from rfl, if_pos none'] at hk
            cases hk
          · rw [show (cmdOf 0x1B mb (msg [w1, w2, w3])).w 2 = w2 from rfl, if_neg none'] at hk
            exact List.mem_singleton.mp hk ▸ tp none'
    · rw [show freeStack u (fld ((cmdOf 0x1B mb (msg [w1, w2, w3])).w 1) 0 3) = some k from stack]
      exact withIndex_of _ free
    · exact congrArg Fw.gens ((setDhMask_follows ..).fw (by decide))
    · rw [taskOf, tasks]
      exact Tab.find?_put_self ..
    · rw [taskOf, tasks]
      exact Tab.find?_put_of_ne _ _ other
  case mooring =>
    intro h reserved low high pair signal ring cb inRing inCb up few subs watch free
    let put := setMoor (writeMem u 2 m.cb (List.replicate 16 0)).1 i m
    have fw : (registerMoor put i m).fw = put.fw := (registerMoor_follows ..).fw (by decide)
    have plain : ¬ (cmdOf 0x12 mb (msg [w1, w2, w3])).flags % 2 = 1 := by
      rw [flags_plain]
      decide
    have tables := writeMem_tables u 2 m.cb (List.replicate 16 0)
    refine make (v := registerMoor put i m) h rfl ((guarded_of_pass ?_).trans ((withIndex_of _ free).trans ?_))
      ?_ ⟨?_, ?_⟩
    · refine .cons (shape_plain rfl) (.cons (need_of (decide_eq_true reserved) _) (.cons (need_of ?_ _)
        (.cons (need_of ?_ _) (.cons (need_of inRing _) (.cons (need_of inCb _) (.cons (needs_of up)
          (.cons (need_of ?_ _) (.cons (need_of ?_ _) .nil))))))))
      · show (decide (4 ≤ fld w3 0 4 ∧ fld w3 0 4 ≤ 12) && pairOk m.kind m.producer m.consumer &&
          signalOk m.consumer m.signal && (!decide ((cmdOf 0x12 mb (msg [w1, w2, w3])).flags % 2 = 1) ||
            decide (m.kind = 0))) = true
        rw [decide_eq_true (And.intro low high), pair, signal, decide_eq_false plain]
        rfl
      · show (decide (m.ring % (16 * m.size) = 0) && decide (m.cb % 16 = 0)) = true
        rw [decide_eq_true ring, decide_eq_true cb]
        rfl
      · show (!(decide ((cmdOf 0x12 mb (msg [w1, w2, w3])).flags % 2 = 1) && u.fw.deviceMoor.isSome)) = true
        rw [decide_eq_false plain]
        rfl
      · show (!(decide (m.kind = 1) && decide (64 ≤ countMoors u (fun x => x.kind = 1))) &&
          !(m.submits && decide (64 ≤ countMoors u Moor.submits)) &&
          !(m.watched && decide (2048 ≤ u.intc.watch.length))) = true
        rw [decide_eq_false (Nat.not_le_of_lt few), decide_eq_false (Nat.not_le_of_lt subs),
          decide_eq_false (Nat.not_le_of_lt watch)]
        simp only [Bool.and_false, Bool.not_false, Bool.and_self]
    · exact congrArg (created · tMOORING i) (if_neg plain)
    · rw [fw]
      exact gens_of_tables tables
    · rw [fw]
      exact Tab.find?_put_self ..
    · rw [fw]
      exact deviceMoor_of_tables tables
  case scene =>
    intro b h moor r1 r2 x ok block inUser' up load read place place' free
    obtain ⟨⟨t, a⟩, placed⟩ := Option.isSome_iff_exists.mp place'
    let y : Scene := { x with
      madeAt := t.tick, regs := blockRegs b leRegs leMask, active := blockRegs b shadowRegs shadowMask,
      shadow := blockRegs b shadowRegs shadowMask, pipe := placePipe t, sigAddr := a }
    refine make (v := setScene (fillSig t y) i y) h rfl
      (((guarded_of_pass ?_).trans (withIndex_of _ free)).trans ((if_neg ?_).trans ?_)) ?_ ⟨y, ?_, ?_⟩
    · refine .cons (Cmd.mooring_of (word _ _ _) ?_) (.cons (shape_plain rfl)
        (.cons (need_of (decide_eq_true r1) _) (.cons (need_of (decide_eq_true r2) _)
          (.cons (need_of ?_ _) (.cons (need_of inUser' _) (.cons (needs_of up)
            (.cons (need_of (decide_eq_true load) _) .nil)))))))
      · exact moor
      · exact (congrArg₂ (· && ·) ok (decide_eq_true block)).trans rfl
    · exact Bool.not_eq_true _ ▸ Option.isNone_eq_false_iff.mpr place
    · have got : readMem u 2 (x.block + 0x80) 0x380 = (r, .ok b) := read
      have put : placeSig r (sigBytes x) = some (t, a) := placed
      dsimp only
      rw [got]
      dsimp only
      rw [put]
      rfl
    · have fill : (fillSig t y).fw = t.fw := (fillSig_follows t y).fw (by decide)
      have kept := gens_of_tables (readMem_tables u 2 (w3.toNat + 0x80) 0x380)
      rw [read] at kept
      exact ((congrArg Fw.gens fill).trans (placeSig_gens placed)).trans kept
    · exact Tab.find?_put_self ..
    · exact ⟨rfl, rfl, rfl, rfl, rfl, rfl, toNat_fld w2 8 4, rget_blockRegs b leMask (by decide),
        rget_blockRegs b leMask (by decide)⟩

end Sys2Proof.Machine
end

section
/-! PROOFS. SCRIPT_CONTROL and DESTROY (R193, R194, R587): what the deck kernel leaves of the tasks and
of the firmware's tables, what each object leaves when it is dropped, and the obligation O21. -/
open Sys2Proof

namespace Sys2Proof.Machine

/-! ### Weir leaves the firmware's tables (R215, R223) -/

theorem weirPerform_tables (s : State) (a : Nat) (op : Bool) (ad : Nat) (cmp new : Dword) :
    (weirPerform s a op ad cmp new).fw.tables = s.fw.tables := by
  have read := fetchDw_tables s a (ad / 8)
  have ends (u : State) (res : Nat) (old : Dword) (corr : Bool) :
      (weirEnd u a op res old corr).fw.tables = u.fw.tables :=
    congrArg Fw.tables ((weirEnd_follows ..).fw (by decide))
  have writes (u : State) : (signalWrite (fullWrite u (ad / 8) new) ad 8 [ad / 8]).fw.tables = u.fw.tables :=
    congrArg Fw.tables (((signalWrite_follows ..).fw (by decide)).trans ((fullWrite_follows ..).fw (by decide)))
  unfold weirPerform
  split
  · exact ends ..
  · dsimp only
    generalize fetchDw s a (ad / 8) = r at read
    obtain ⟨t, v, corr⟩ := r
    have read' : t.fw.tables = s.fw.tables := read
    cases v with
    | none =>
      cases op
      · exact (ends ..).trans read'
      · exact (ends ..).trans ((writes t).trans read')
    | some v =>
      cases op
      · dsimp only
        split
        · exact (ends ..).trans ((writes t).trans read')
        · exact (ends ..).trans read'
      · exact (ends ..).trans ((writes t).trans read')

theorem weirDone_tables (s : State) (a : Nat) : (weirDone s a).fw.tables = s.fw.tables := by
  unfold weirDone
  split
  · rfl
  · exact (congrArg Fw.tables ((weirResume_follows ..).fw (by decide))).trans (weirPerform_tables ..)

theorem weirDrain_tables (n : Nat) (s : State) (a : Nat) : (weirDrain n s a).fw.tables = s.fw.tables := by
  induction n generalizing s with
  | zero => rfl
  | succ n ih => exact (ih _).trans (weirDone_tables s a)

theorem weirCatch_tables (s : State) (a : Nat) : (weirCatch s a).fw.tables = s.fw.tables := by
  unfold weirCatch
  split
  · rfl
  · exact weirDrain_tables ..

theorem lockWriteReg_tables (s : State) (a n : Nat) : (lockWriteReg s a n).1.fw.tables = s.fw.tables := by
  unfold lockWriteReg
  split
  · rfl
  · split
    · rfl
    · exact (congrArg Fw.tables (((weirSettle_follows _).fw (by decide)).trans
        ((lockWrite_follows ..).fw (by decide)))).trans (weirCatch_tables s a)

/-! ### The deck kernel makes no task (R582 to R595) -/

/-- The firmware's tables stand, and no task is there that was not. -/
structure NoNewTask (s t : State) : Prop where
  tables : t.fw.tables = s.fw.tables
  gone : ∀ j, taskOf s j = none → taskOf t j = none

namespace NoNewTask
variable {s t u : State}

theorem refl (s : State) : NoNewTask s s := ⟨rfl, fun _ h => h⟩

theorem trans (h : NoNewTask s t) (k : NoNewTask t u) : NoNewTask s u :=
  ⟨k.tables.trans h.tables, fun j e => k.gone j (h.gone j e)⟩

/-- The last step first, which names the state before it. -/
theorem after (k : NoNewTask t u) (h : NoNewTask s t) : NoNewTask s u := h.trans k

/-- Nothing of the Deckhands has changed. -/
theorem of_dh (tables : t.fw.tables = s.fw.tables) (dh : t.dh = s.dh) : NoNewTask s t :=
  ⟨tables, fun j e => by rwa [taskOf, dh]⟩

theorem of_fw (fw : t.fw = s.fw) (dh : t.dh = s.dh) : NoNewTask s t := of_dh (congrArg Fw.tables fw) dh

theorem foldl {α : Type} {f : State → α → State} (step : ∀ s x, NoNewTask s (f s x)) (l : List α)
    (s : State) : NoNewTask s (l.foldl f s) :=
  List.foldlRecOn (motive := NoNewTask s) l f (refl s) fun u h x _ => h.trans (step u x)

end NoNewTask

theorem taskOf_of_dh {s t : State} (h : t.dh = s.dh) (i : Nat) : taskOf t i = taskOf s i := by
  rw [taskOf, h, taskOf]

theorem noNewTask_updCore (s : State) (n : Nat) (f : Core → Core) : NoNewTask s (updCore s n f) :=
  ⟨rfl, fun _ h => h⟩

theorem noNewTask_setTask {s : State} {i : Nat} {x : Task} (has : taskOf s i = some x) (t : Task) :
    NoNewTask s (setTask s i t) := by
  refine ⟨rfl, fun j e => ?_⟩
  have other : j ≠ i := by
    rintro rfl
    exact nomatch has.symm.trans e
  exact (Tab.find?_put_of_ne s.dh.tasks t other).trans e

theorem noNewTask_updTask (s : State) (i : Nat) (f : Task → Task) : NoNewTask s (updTask s i f) := by
  cases has : taskOf s i with
  | none =>
    rw [updTask_of_none f has]
    exact .refl s
  | some x =>
    rw [updTask_of_some f has]
    exact noNewTask_setTask has _

theorem noNewTask_onTp (s : State) (f : Towpath → Towpath) : NoNewTask s (onTp s f) := ⟨rfl, fun _ h => h⟩

theorem noNewTask_onSl (s : State) (f : Sluice → Sluice) : NoNewTask s (onSl s f) := ⟨rfl, fun _ h => h⟩

theorem noNewTask_postRec (s : State) (island type : Nat) (source payload moor : Word) :
    NoNewTask s (postRec s island type source payload moor) :=
  .of_dh (postRec_tables ..) ((postRec_follows ..).dh (by decide))

theorem noNewTask_writePrio (s : State) (n p : Nat) : NoNewTask s (writePrio s n p) :=
  .of_fw ((writePrio_follows ..).fw (by decide)) ((writePrio_follows ..).dh (by decide))

theorem noNewTask_passPrio (s : State) (t : Task) : NoNewTask s (passPrio s t) := by
  unfold passPrio
  split
  · split
    · exact .refl s
    · exact noNewTask_updTask ..
  · exact .refl s

theorem noNewTask_inheritLocal (s : State) (n : Nat) : NoNewTask s (inheritLocal s n) := by
  unfold inheritLocal
  refine .foldl (fun s _ => .foldl (fun s i => ?_) _ s) _ s
  split
  · split
    · exact noNewTask_passPrio ..
    · exact .refl s
  · exact .refl s

theorem noNewTask_lockWriteReg (s : State) (a n : Nat) : NoNewTask s (lockWriteReg s a n).1 :=
  .of_dh (lockWriteReg_tables s a n) ((lockWriteReg_follows ..).dh (by decide))

theorem noNewTask_releaseLocks (s : State) (n i : Nat) : NoNewTask s (releaseLocks s n i) := by
  unfold releaseLocks
  split
  · exact .refl s
  next t _ =>
    dsimp only
    refine .after (noNewTask_updTask ..) ?_
    exact .foldl (f := fun s (p : Nat × BitVec 4) => (lockWriteReg s (n + 3) p.1).1)
      (fun u p => noNewTask_lockWriteReg u (n + 3) p.1) t.locks s

theorem noNewTask_stopTask (s : State) (i state : Nat) : NoNewTask s (stopTask s i state) := by
  unfold stopTask
  split
  · exact .refl s
  · exact .after (noNewTask_updTask ..) (noNewTask_releaseLocks ..)

theorem noNewTask_faultTask (s : State) (n i code : Nat) (pc : Cell) :
    NoNewTask s (faultTask s n i code pc) := by
  unfold faultTask
  split
  · exact .refl s
  · dsimp only
    exact .after (noNewTask_postRec ..)
      (.after (noNewTask_updTask ..) (noNewTask_stopTask ..))

theorem noNewTask_syncSwitch (s : State) (n i : Nat) : NoNewTask s (syncSwitch s n i) := by
  unfold syncSwitch
  dsimp only
  split
  · exact .refl s
  · split
    · exact noNewTask_updCore ..
    · exact .after (noNewTask_faultTask ..) (noNewTask_updCore ..)

theorem noNewTask_runTask (s : State) (n i : Nat) : NoNewTask s (runTask s n i) := by
  unfold runTask
  split
  · exact .refl s
  next t has =>
    dsimp only
    refine .after (noNewTask_writePrio ..) (.after (noNewTask_setTask (x := t) ?_ _)
      (.after (noNewTask_onSl ..) (.after (noNewTask_onTp ..) (noNewTask_updCore ..))))
    exact (taskOf_of_dh ((onSl_follows ..).dh (by decide)) i).trans
      ((taskOf_of_dh ((onTp_follows ..).dh (by decide)) i).trans has)

theorem noNewTask_dispatch (s : State) (n : Nat) : NoNewTask s (dispatch s n) := by
  unfold dispatch
  split
  · exact noNewTask_runTask ..
  · exact noNewTask_updCore ..

theorem noNewTask_switchFrom (s : State) (n i : Nat) : NoNewTask s (switchFrom s n i) :=
  .after (noNewTask_dispatch ..) (.after (noNewTask_updCore ..) (.after (noNewTask_updTask ..)
    (noNewTask_syncSwitch ..)))

theorem noNewTask_kernelExit (s : State) (n : Nat) : NoNewTask s (kernelExit s n) := by
  have inherits := noNewTask_inheritLocal s n
  unfold kernelExit
  dsimp only
  split
  · exact .after (noNewTask_dispatch ..) inherits
  · split
    · exact .after (noNewTask_dispatch ..) (.after (noNewTask_updCore ..) inherits)
    · refine iteInduction (motive := NoNewTask s) (fun _ => ?_) (fun _ => ?_)
      · exact .after (noNewTask_writePrio ..) (.after (noNewTask_updCore ..) inherits)
      · exact .after (noNewTask_switchFrom ..) inherits

theorem noNewTask_reschedule (s : State) (n : Nat) : NoNewTask s (reschedule s n) := by
  unfold reschedule
  dsimp only
  split
  · exact .refl s
  · split
    · exact noNewTask_kernelExit ..
    · split
      · exact .after (noNewTask_kernelExit ..) (noNewTask_updCore ..)
      · exact .refl s

/-! ### Whether an object is in use (R194) -/

theorem readCb_tables (s : State) (m : Moor) : (readCb s m).1.fw.tables = s.fw.tables := by
  have read := readMem_tables s 2 m.cb 16
  unfold readCb
  split <;> next h => rwa [h] at read

theorem entryNames_tables (h : Word) (m : Moor) (k : Nat) (n : Word) (s : State) :
    (entryNames h m k n s).1.fw.tables = s.fw.tables := by
  induction k generalizing n s with
  | zero => rfl
  | succ k ih =>
    have read := readMem_tables s 2 (m.entry n + 8) 4
    unfold entryNames
    split
    next e => rwa [e] at read
    next e =>
      rw [e] at read
      split
      · exact read
      · exact (ih ..).trans read

theorem blitNames_tables (h : Word) (i : Nat) (m : Moor) (s : State) :
    (blitNames h i m s).1.fw.tables = s.fw.tables := by
  have read := readCb_tables s m
  unfold blitNames
  split
  next e => rwa [e] at read
  next e =>
    rw [e] at read
    exact (entryNames_tables ..).trans read

theorem fenceNamed_tables (s : State) (h : Word) : (fenceNamed s h).1.fw.tables = s.fw.tables := by
  unfold fenceNamed
  split
  · rfl
  · refine List.foldlRecOn (motive := fun r : State × Bool => r.1.fw.tables = s.fw.tables) _ _ rfl
      fun r same p _ => ?_
    split
    · exact same
    · exact (blitNames_tables ..).trans same

theorem blitterUses_tables (s : State) (i : Nat) (m : Moor) :
    (blitterUses s i m).1.fw.tables = s.fw.tables := by
  have read := readCb_tables s m
  unfold blitterUses
  split
  · rfl
  · split
    · rfl
    · split <;> next e => rwa [e] at read

theorem dropBusy_tables (s : State) (t i : Nat) (h : Word) :
    (dropBusy s t i h).1.fw.tables = s.fw.tables := by
  unfold dropBusy
  split
  · rfl
  · split
    · rfl
    · split
      · rfl
      · split
        · rfl
        · split
          · exact fenceNamed_tables s h
          · split
            · split
              · rfl
              · split
                · rfl
                · exact blitterUses_tables ..
            · split <;> rfl

/-! ### An object that is dropped (R194) -/

theorem retireBank_keeps (s : State) (b : Nat) : (retireBank s b).fw.gens = s.fw.gens ∧
    (retireBank s b).tp.scenes = s.tp.scenes := by
  unfold retireBank
  dsimp only
  split <;> exact ⟨rfl, rfl⟩

theorem retireBanks_keeps (s : State) : (retireBanks s).fw.gens = s.fw.gens ∧
    (retireBanks s).tp.scenes = s.tp.scenes :=
  List.foldlRecOn (motive := fun t : State => t.fw.gens = s.fw.gens ∧ t.tp.scenes = s.tp.scenes) _ _
    ⟨rfl, rfl⟩ fun t ⟨gens, scenes⟩ b _ =>
      ⟨(retireBank_keeps t b).1.trans gens, (retireBank_keeps t b).2.trans scenes⟩

/-- An object is no more, and no generation has moved. -/
structure Dropped (s t : State) (type i : Nat) : Prop where
  gens : t.fw.gens = s.fw.gens
  gone : objectLive t type i = false

theorem dropped_dropScene (s : State) (i : Nat) : Dropped s (dropScene s i) tSCENE i := by
  have erased (u : State) (gens : u.fw.gens = s.fw.gens) (scenes : u.tp.scenes = Tab.erase s.tp.scenes i) :
      Dropped s (retireBanks u) tSCENE i := by
    obtain ⟨gens', scenes'⟩ := retireBanks_keeps u
    refine ⟨gens'.trans gens, ?_⟩
    show (Tab.find? (retireBanks u).tp.scenes i).isSome = false
    rw [scenes', scenes, Tab.find?_erase_self]
    rfl
  unfold dropScene
  dsimp only
  split
  · exact erased _ rfl rfl
  · exact erased _ rfl rfl

theorem gens_freeRun (s : State) (r : Option (Nat × Nat)) : (freeRun s r).fw.gens = s.fw.gens := by
  unfold freeRun
  split <;> rfl

theorem dropped_dropVoice (s : State) (i : Nat) : Dropped s (dropVoice s i) tVOICE i := by
  unfold dropVoice
  refine ⟨?_, ?_⟩
  · exact gens_freeRun s _
  · show (Tab.find? (Tab.erase (freeRun s _).cv.voices i) i).isSome = false
    rw [Tab.find?_erase_self]
    rfl

theorem mixOf_touchMix_of_none {s : State} {m : Nat} (k : Nat) (f : Mix → Mix) (h : mixOf s m = none) :
    mixOf (touchMix s k f) m = none := by
  unfold touchMix updMix
  split
  · exact h
  next x found =>
    have other : m ≠ k := by
      rintro rfl
      exact nomatch h.symm.trans found
    exact (Tab.find?_put_of_ne _ _ other).trans h

theorem dropped_dropMix (s : State) (i : Nat) : Dropped s (dropMix s i) tMIX i := by
  refine ⟨congrArg Fw.gens ((dropMix_follows s i).fw (by decide)), ?_⟩
  have none' (u : State) : mixOf (onCv u (fun c => { c with mixes := Tab.erase c.mixes i })) i = none :=
    Tab.find?_erase_self ..
  unfold dropMix
  refine Option.isSome_eq_false_iff.mpr (Option.isNone_iff_eq_none.mpr ?_)
  exact List.foldlRecOn (motive := fun u : State => mixOf u i = none) _ _ (none' _)
    fun u gone k _ => mixOf_touchMix_of_none k _ gone

theorem dropped_dropMoor (s : State) (i : Nat) (m : Moor) : Dropped s (dropMoor s i m) tMOORING i := by
  have fw : (dropMoor s i m).fw = { s.fw with
      moorings := Tab.erase s.fw.moorings i,
      deviceMoor := if s.fw.deviceMoor = some i then none else s.fw.deviceMoor } := by
    unfold dropMoor
    dsimp only
    split <;> rfl
  refine ⟨by rw [fw], ?_⟩
  show (Tab.find? (dropMoor s i m).fw.moorings i).isSome = false
  rw [fw, Tab.find?_erase_self]
  rfl

theorem dropped_dropScript (s : State) (i : Nat) : Dropped s (dropScript s i) tSCRIPT i := by
  unfold dropScript
  split
  next absent =>
    refine ⟨rfl, ?_⟩
    show (taskOf s i).isSome = false
    rw [absent]
    rfl
  next t _ =>
    dsimp only
    generalize freed : freeRun (stopTask s i 0) t.copy = u
    generalize masked : setDhMask (onDh u (fun x => { x with tasks := Tab.erase x.tasks i })) t.scene = v
    have gens : u.fw.gens = s.fw.gens := by
      rw [← freed, gens_freeRun, gens_of_tables (noNewTask_stopTask s i 0).tables]
    have fw : v.fw = u.fw := by
      rw [← masked, (setDhMask_follows ..).fw (by decide)]
      rfl
    have gone : taskOf v i = none := by
      rw [← masked, taskOf, (setDhMask_follows ..).dh (by decide)]
      exact Tab.find?_erase_self ..
    have kernel := noNewTask_reschedule v t.deck
    refine ⟨(gens_of_tables kernel.tables).trans ((congrArg Fw.gens fw).trans gens), ?_⟩
    show (taskOf (reschedule v t.deck) i).isSome = false
    rw [kernel.gone i gone]
    rfl

theorem stationOf_updStation_self (s : State) (i : Nat) (f : Station → Station) :
    stationOf (updStation s i f) i = (stationOf s i).map f := by
  cases found : stationOf s i with
  | none => rw [updStation_of_none f found, found]; rfl
  | some x => rw [updStation_of_some f found]; exact Tab.find?_put_self ..

theorem dropped_dropObject (s : State) {type : Nat} (i : Nat) (known : type ∈ anyType) :
    Dropped s (dropObject s type i) type i := by
  have cases8 : type = 1 ∨ type = 2 ∨ type = 3 ∨ type = 4 ∨ type = 5 ∨ type = 6 ∨ type = 7 ∨ type = 8 := by
    simpa [anyType] using known
  rcases cases8 with rfl | rfl | rfl | rfl | rfl | rfl | rfl | rfl
  · exact dropped_dropScene s i
  · refine ⟨congrArg Fw.gens ((updStation_follows ..).fw (by decide)), ?_⟩
    show (stationOf (updStation s i _) i).any (fun x => !x.ending) = false
    rw [stationOf_updStation_self]
    cases stationOf s i <;> rfl
  · exact dropped_dropVoice s i
  · exact dropped_dropMix s i
  · refine ⟨rfl, ?_⟩
    show decide ((chanOf (updChan s i (fun _ => {})) i).state ≠ .closed) = false
    rw [chanOf_updChan_self]
    rfl
  · refine ⟨rfl, ?_⟩
    show (Tab.find? (Tab.erase s.fw.fences i) i).isSome = false
    rw [Tab.find?_erase_self]
    rfl
  · show Dropped s (match Tab.find? s.fw.moorings i with
      | none => s
      | some m => dropMoor s i m) tMOORING i
    split
    next absent =>
      refine ⟨rfl, ?_⟩
      show (Tab.find? s.fw.moorings i).isSome = false
      rw [absent]
      rfl
    · exact dropped_dropMoor ..
  · exact dropped_dropScript s i

theorem handleStatus_eq_ok {s : State} {types : List Nat} {h : Word} (ok : handleStatus s types h = 0) :
    handleType h ∈ types ∧ handleOf s (handleType h) (handleIndex h) = h := by
  unfold handleStatus at ok
  dsimp only at ok
  split at ok
  · exact absurd ok (by decide)
  next named =>
    split at ok
    · exact absurd ok (by decide)
    next fresh =>
      exact ⟨by_contra fun out => named (.inr (.inl (by simpa using out))), by_contra fresh⟩

theorem fw_retireHandle (s : State) (t i : Nat) : (retireHandle s t i).fw = { s.fw with
    gens := Tab.set 1 s.fw.gens (65536 * t + i) (nextGen (genOf s t i)),
    held := s.fw.held.filter (fun r => r.source ≠ handleOf s t i) } :=
  ((stagingLevel_follows _).fw (by decide)).trans rfl

theorem staging_retireHandle (s : State) (t i : Nat) : (retireHandle s t i).staging =
    s.staging.filter (fun r => r.source ≠ handleOf s t i) :=
  ((stagingLevel_follows _).staging (by decide)).trans rfl

theorem objectLive_retireHandle (s : State) (t i : Nat) :
    objectLive (retireHandle s t i) t i = objectLive s t i := by
  have same := retireHandle_follows s t i
  have tp := same.tp (by decide)
  have tl := same.tl (by decide)
  have cv := same.cv (by decide)
  have sl := same.sl (by decide)
  have dh := same.dh (by decide)
  simp only [objectLive, sceneOf, stationOf, voiceOf, mixOf, chanOf, taskOf, tp, tl, cv, sl, dh,
    fw_retireHandle]
  rfl

/-- Settles O21: a script is started or stopped as its state asks, and an object that is not in use is
dropped (`dropped_dropObject`) and its handle retired. -/
theorem scriptsAreControlledAndObjectsDestroyed : Obligations.ScriptsAreControlledAndObjectsDestroyed := by
  intro mb tag h w2 k s u v c t i
  refine ⟨fun run live found small => ?script, fun run live mode up idle => ?destroy⟩
  case script =>
    have passes : Pass [(c 0x1C [h, w2]).handle u 1 [tSCRIPT], (c 0x1C [h, w2]).shape 2 0, rsv w2 1] :=
      .cons (Cmd.handle_of live) (.cons (shape_plain rfl)
        (.cons (rsv_of_lt (n := 1) (Nat.lt_succ_of_le small)) .nil))
    have empties : (taskOf u i).any (fun t => t.len = 0) = decide (k.len = 0) := by rw [found]; rfl
    have all (ok : (!(bit w2 0 && decide (k.len = 0))) = true) : Pass
        ([(c 0x1C [h, w2]).handle u 1 [tSCRIPT], (c 0x1C [h, w2]).shape 2 0, rsv w2 1] ++
          [need (!(bit w2 0 && (taskOf u i).any (fun t => t.len = 0))) stBUSY]) := by
      intro x hx
      rcases List.mem_append.mp hx with hx | hx
      · exact passes x hx
      · rw [List.mem_singleton.mp hx, empties]
        exact need_of ok _
    have answer {t : State} (ok : (!(bit w2 0 && decide (k.len = 0))) = true)
        (is : (if bit w2 0 then startScript u i k else stopScript u i k) = t) :
        Replies (.scriptControl mb ⟨tag, 0, [h, w2], false⟩) s t (c 0x1C [h, w2]) 0 [] := by
      refine replies_of_done run rfl rfl ((guarded_of_pass (all ok)).trans ?_)
      rw [show taskOf u (handleIndex ((c 0x1C [h, w2]).w 1)) = some k from found, ← is]
      rfl
    refine ⟨fun start empty => ?_, fun start full => ?_, fun stop => ?_⟩
    · refine replies_of_done run rfl rfl (guarded_of_fail
        ((firstFail_of_pass passes _).trans (firstFail_of_need ?_ (by decide))) (by decide))
      show (!(bit w2 0 && (taskOf u i).any (fun t => t.len = 0))) = false
      rw [empties, start, decide_eq_true empty]
      rfl
    · subst start
      refine answer (by rw [decide_eq_false full]; rfl) ((if_pos rfl).trans ?_)
      unfold startScript
      cases running u (islDeck k.deck) <;> rfl
    · subst stop
      refine answer rfl ((if_neg (by decide)).trans ?_)
      unfold stopScript
      cases running u (islDeck k.deck) <;> rfl
  case destroy =>
    have passes : Pass [need (!(decide (u.sys.mode = mWASH) && decide (t = tSTATION))) stWRONG_MODE,
        (c 0x2F [h]).handle u 1 anyType, (c 0x2F [h]).shape 1 0, needs u (dropNeeds u t i),
        (c 0x2F [h]).free u 1] := by
      refine .cons (need_of ?_ _) (.cons (Cmd.handle_of live) (.cons (shape_plain rfl)
        (.cons (needs_of up) (.cons (need_of ?_ _) .nil))))
      · rw [Bool.not_eq_true', Bool.and_eq_false_imp, decide_eq_true_iff, decide_eq_false_iff_not]
        exact fun wash station => mode ⟨wash, station⟩
      · rw [Bool.not_eq_true', Bool.and_eq_false_imp]
        exact fun station => idle (of_decide_eq_true station)
    refine ⟨fun busy => ?_, fun free => ?_⟩
    · refine replies_of_done run rfl rfl ((guarded_of_pass passes).trans ?_)
      rw [show dropBusy u (handleType ((c 0x2F [h]).w 1)) (handleIndex ((c 0x2F [h]).w 1))
        ((c 0x2F [h]).w 1) = (v, true) from busy]
      rfl
    · obtain ⟨known, own⟩ := handleStatus_eq_ok live
      have tables := dropBusy_tables u t i h
      rw [free] at tables
      have same : handleOf v t i = h := by
        rw [← own, handleOf, handleOf, genOf, gens_of_tables tables]
        rfl
      obtain ⟨gens, gone⟩ := dropped_dropObject v i known
      have same' : handleOf (dropObject v t i) t i = h := by
        rw [← same, handleOf, handleOf, genOf, gens]
        rfl
      refine ⟨retireHandle (dropObject v t i) t i,
        replies_of_done run rfl rfl ((guarded_of_pass passes).trans ?_), ?_, ?_, fun r hr => ?_⟩
      · rw [show dropBusy u (handleType ((c 0x2F [h]).w 1)) (handleIndex ((c 0x2F [h]).w 1))
          ((c 0x2F [h]).w 1) = (v, false) from free]
        rfl
      · exact (objectLive_retireHandle ..).trans gone
      · have gen : genOf (dropObject v t i) t i = genOf u t i := by
          rw [genOf, gens, gens_of_tables tables, genOf]
        rw [genOf, fw_retireHandle, Tab.get_set_self, gen]
        rfl
      · rw [staging_retireHandle, fw_retireHandle, same'] at hr
        rcases List.mem_append.mp hr with hr | hr <;>
          exact of_decide_eq_true (List.mem_filter.mp hr).2

end Sys2Proof.Machine
end

section
/-! PROOFS. The commands that bind and configure (R192, R193, R195): a station that enters CONFIG, a lane
that is configured, the panel, and the obligation O22. -/
open Sys2Proof

namespace Sys2Proof.Machine

/-! ### A station enters CONFIG (R527, R528) -/

theorem stationOf_of_tl {s t : State} (h : t.tl = s.tl) (i : Nat) : stationOf t i = stationOf s i := by
  rw [stationOf, h, stationOf]

theorem laneOf_of_lanes {s t : State} (h : t.tl.lanes = s.tl.lanes) (l : Nat) : laneOf t l = laneOf s l := by
  rw [laneOf, h, laneOf]

theorem updStation_lanes (s : State) (i : Nat) (f : Station → Station) :
    (updStation s i f).tl.lanes = s.tl.lanes := by
  unfold updStation
  split <;> rfl

theorem stationOf_updLane (s : State) (l : Nat) (f : Lane → Lane) (i : Nat) :
    stationOf (updLane s l f) i = stationOf s i := rfl

/-- A station that takes a code other than LOST keeps all else. -/
theorem tl_setCode {s : State} {i code : Nat} {t : Station} (found : stationOf s i = some t)
    (moves : t.code ≠ code) (notLost : code ≠ 4) :
    (setCode s i code).tl = (setStation s i { t with code := code }).tl := by
  unfold setCode
  rw [found]
  dsimp only
  rw [if_neg moves, updStation_of_some _ found, if_neg notLost, if_neg notLost,
    (writeOutStatus_follows ..).tl (by decide)]
  split
  · rfl
  · exact (postCycleRec_follows ..).tl (by decide)

theorem stationOf_setCode {s : State} {i code : Nat} {t : Station} (found : stationOf s i = some t)
    (notLost : code ≠ 4) : stationOf (setCode s i code) i = some { t with code := code } := by
  by_cases same : t.code = code
  · have stays : setCode s i code = s := by
      unfold setCode
      rw [found]
      exact if_pos same
    rw [stays, found, ← same]
  · rw [stationOf_of_tl (tl_setCode found same notLost)]
    exact Tab.find?_put_self ..

theorem lanes_setCode (s : State) (i : Nat) {code : Nat} (notLost : code ≠ 4) :
    (setCode s i code).tl.lanes = s.tl.lanes := by
  cases found : stationOf s i with
  | none =>
    unfold setCode
    rw [found]
  | some t =>
    by_cases same : t.code = code
    · unfold setCode
      rw [found]
      exact congrArg (fun u : State => u.tl.lanes) (if_pos same)
    · rw [tl_setCode found same notLost]
      rfl

theorem postCycleRec_tables (s : State) (island type : Nat) (source cyc payload moor : Word) :
    (postCycleRec s island type source cyc payload moor).fw.tables = s.fw.tables := by
  unfold postCycleRec stage
  split
  · exact congrArg Fw.tables ((stagingLevel_follows _).fw (by decide))
  · exact keepDrop_tables _ _

theorem setCode_tables (s : State) (i : Nat) {code : Nat} (notLost : code ≠ 4) :
    (setCode s i code).fw.tables = s.fw.tables := by
  have out (u : State) : (writeOutStatus u i).fw.tables = u.fw.tables := by
    unfold writeOutStatus
    split
    · rfl
    · exact writeReq_tables ..
  unfold setCode
  split
  · rfl
  · split
    · rfl
    · dsimp only
      rw [out]
      split
      · exact congrArg Fw.tables ((updStation_follows ..).fw (by decide))
      · exact (postCycleRec_tables ..).trans (congrArg Fw.tables ((updStation_follows ..).fw (by decide)))

/-- A station before it takes the code of CONFIG (R527, R528). -/
def Station.anew (t : Station) : Station := { t.newConfig with misses := 0, clean := 0 }

theorem enterConfig_of_some {s : State} {i : Nat} {t : Station} (found : stationOf s i = some t) :
    enterConfig s i = setCode (freeAll (cancelUnsent
      (dropFrames (setStation s i t.anew) t.lane t.addr) i true)) i 1 := by
  unfold enterConfig
  rw [found]
  dsimp only
  rw [updStation_of_some _ found]
  rfl

theorem tl_dropFrames_cancelled (s : State) (i : Nat) (b : Bool) :
    (freeAll (cancelUnsent s i b)).tl = s.tl :=
  ((freeAll_follows ..).tl (by decide)).trans ((cancelUnsent_follows ..).tl (by decide))

theorem stationOf_enterConfig {s : State} {i : Nat} {t : Station} (found : stationOf s i = some t) :
    stationOf (enterConfig s i) i = some { t.anew with code := 1 } := by
  rw [enterConfig_of_some found]
  refine stationOf_setCode ?_ (by decide)
  rw [stationOf_of_tl (tl_dropFrames_cancelled ..)]
  exact Tab.find?_put_self ..

theorem enable_enterConfig (s : State) (i l : Nat) :
    (laneOf (enterConfig s i) l).enable = (laneOf s l).enable := by
  cases found : stationOf s i with
  | none =>
    unfold enterConfig
    rw [found]
  | some t =>
    rw [enterConfig_of_some found, laneOf_of_lanes (lanes_setCode _ _ (by decide)),
      laneOf_of_lanes (congrArg Towline.lanes (tl_dropFrames_cancelled ..)), dropFrames]
    by_cases here : l = t.lane
    · subst here
      rw [laneOf_updLane_self]
      rfl
    · rw [laneOf_updLane_of_ne _ _ here]
      rfl

theorem enterConfig_tables (s : State) (i : Nat) : (enterConfig s i).fw.tables = s.fw.tables := by
  cases found : stationOf s i with
  | none =>
    unfold enterConfig
    rw [found]
  | some t =>
    rw [enterConfig_of_some found, setCode_tables _ _ (by decide), (freeAll_follows ..).fw (by decide),
      (cancelUnsent_follows ..).fw (by decide)]
    rfl

/-! ### A lane that is configured (R493, R509) -/

theorem enable_updLane (s : State) (l : Nat) {f : Lane → Lane} (keeps : ∀ x, (f x).enable = x.enable)
    (k : Nat) : (laneOf (updLane s l f) k).enable = (laneOf s k).enable := by
  by_cases here : k = l
  · subst here
    rw [laneOf_updLane_self, keeps]
  · rw [laneOf_updLane_of_ne _ _ here]

theorem enable_newSession (s : State) (l k : Nat) :
    (laneOf (newSession s l) k).enable = (laneOf s k).enable := by
  unfold newSession
  refine List.foldlRecOn (motive := fun u => (laneOf u k).enable = (laneOf s k).enable) _ _ ?_
    fun u same i _ => ?_
  · refine enable_updLane _ _ ?_ _
    exact fun _ => rfl
  split
  · split
    · rw [enable_enterConfig, laneOf_of_lanes (updStation_lanes ..)]
      exact same
    · exact same
  · exact same

theorem emit_lanes (s : State) (o : Out) : (emit s o).tl.lanes = s.tl.lanes := rfl

theorem enable_driveTx (s : State) (l k : Nat) : (laneOf (driveTx s l) k).enable = (laneOf s k).enable := by
  unfold driveTx
  dsimp only
  split
  · rfl
  · refine (congrArg Lane.enable (laneOf_of_lanes (emit_lanes _ _) k)).trans (enable_updLane _ _ ?_ _)
    exact fun _ => rfl

theorem enable_laneSettle (s : State) (l k : Nat) :
    (laneOf (laneSettle s l) k).enable = (laneOf s k).enable := by
  unfold laneSettle
  split
  · rfl
  · dsimp only
    split
    · exact enable_driveTx ..
    · rw [laneOf_of_lanes (congrArg Towline.lanes ((postRec_follows ..).tl (by decide))), enable_driveTx]
      refine enable_updLane s l (fun x => ?_) k
      split <;> split <;> rfl

theorem enable_laneCtrl (s : State) (l : Nat) (en freeze : Bool) (test : BitVec 2) (k : Nat) :
    (laneOf (laneCtrl s l en freeze test) k).enable = if k = l then en else (laneOf s k).enable := by
  have set : (laneOf (updLane s l (fun x => { x with enable := en, freeze := freeze, test := test })) k).enable =
      if k = l then en else (laneOf s k).enable := by
    split
    next here =>
      subst here
      rw [laneOf_updLane_self]
    next other => rw [laneOf_updLane_of_ne _ _ other]
  unfold laneCtrl
  dsimp only
  rw [enable_laneSettle]
  split
  · rw [enable_newSession, set]
  · exact set

theorem takePages_gens {s t : State} {n p : Nat} (h : takePages s n = some (t, p)) :
    t.fw.gens = s.fw.gens := by
  obtain ⟨q, -, same⟩ := Option.map_eq_some_iff.mp h
  cases same
  rw [(zeroPages_follows ..).fw (by decide)]
  rfl

theorem defaultsPage_gens {s t : State} {i : Nat} (h : defaultsPage s i = some t) :
    t.fw.gens = s.fw.gens := by
  unfold defaultsPage at h
  split at h
  · cases h
    rfl
  · obtain ⟨q, taken, same⟩ := Option.map_eq_some_iff.mp h
    cases same
    show q.1.fw.gens = s.fw.gens
    exact takePages_gens (p := q.2) taken

/-- A command that its row lets wait keeps its records until its reply is placed (R158). -/
theorem caused_of_waiting_of_fw {s u t : State} {c : Cmd} {cls : Cls} {rec : Bool}
    (h : Executes s c cls rec u) (fw : t.fw = u.fw) (w : Waiting) :
    caused (onFw t (fun f => { f with waiting := Tab.put f.waiting c.mb w })) =
      onFw t (fun f => { f with causer := none, waiting := Tab.put f.waiting c.mb w }) := by
  rw [h.state] at fw
  generalize takeMsg s c.mb (c.header :: c.words) = v at fw
  have causer : t.fw.causer = some (c.mb, v.fw.placed.get 0 c.mb + keptReplies v c.mb + 1) := by rw [fw]; rfl
  have placed : t.fw.placed = v.fw.placed := by rw [fw]; rfl
  unfold caused
  rw [show (onFw t (fun f => { f with waiting := Tab.put f.waiting c.mb w })).fw.causer =
    some (c.mb, v.fw.placed.get 0 c.mb + keptReplies v c.mb + 1) from causer]
  have waits : t.fw.placed.get 0 c.mb < v.fw.placed.get 0 c.mb + keptReplies v c.mb + 1 ∧
      (keptReplies t c.mb ≠ 0 ∨ (Tab.find? (Tab.put t.fw.waiting c.mb w) c.mb).isSome) :=
    ⟨by rw [placed]; omega, .inr (by rw [Tab.find?_put_self]; rfl)⟩
  exact if_pos waits

/-! ### The panel (R423 to R428) -/


theorem panel_freeAll (s : State) : (freeAll s).tp.panel = s.tp.panel := by
  have rows (u : State) (i n : Nat) : (freeRows u i n).tp.panel = u.tp.panel := by
    unfold freeRows updScene
    dsimp only
    split <;> rfl
  unfold freeAll
  refine List.foldlRecOn (motive := fun u : State => u.tp.panel = s.tp.panel) _ _ rfl fun u same p _ => ?_
  split
  · split
    · exact (rows ..).trans same
    · exact same
  · exact (rows ..).trans same

theorem panel_oweAll (s : State) (r : Nat) :
    (oweAll s r).tp.panel = { s.tp.panel with recv := (oweAll s r).tp.panel.recv } := by
  unfold oweAll
  split
  · rfl
  · unfold updRecv
    split <;> rfl

theorem getLsbD_foldl_setBit {l : List Nat} {n : Nat} (f : BitVec 64) (small : n < 64)
    (has : n ∈ l ∨ f.getLsbD n = true) : (l.foldl (fun f k => setBit f k true) f).getLsbD n = true := by
  induction l generalizing f with
  | nil => exact has.resolve_left (List.not_mem_nil)
  | cons x l ih =>
    refine ih _ ?_
    by_cases later : n ∈ l
    · exact .inl later
    · by_cases here : n = x
      · subst here
        exact .inr (getLsbD_setBit_self _ small)
      · refine .inr ((getLsbD_setBit_of_ne _ _ here).trans (has.resolve_left ?_))
        simp [here, later]

section
variable (u : State) (c : Cmd)

theorem fld_lt (w : Word) (lo n : Nat) : fld w lo n < 2 ^ n := Nat.mod_lt _ (Nat.two_pow_pos n)

/-- The records of a command that is executed await its reply (R158). -/
theorem causer_of_executes {s u : State} {c : Cmd} {cls : Cls} {rec : Bool} (h : Executes s c cls rec u) :
    ∃ n, u.fw.causer = some (c.mb, n) ∧ u.fw.placed.get 0 c.mb < n := by
  rw [h.state]
  exact ⟨_, rfl, Nat.lt_succ_of_le (Nat.le_add_right _ _)⟩

theorem fw_gpChange (s : State) (f : Gpio → Gpio) : (gpChange s f).gp.fw = (f s.gp).fw := by
  unfold gpChange
  dsimp only
  split <;> rfl

/-- The panel as PANEL_CONFIG leaves it, before its pieces are owed. -/
def configuredPanel : Panel := newPanel c (cancelUnsent u panelId false).tp.panel

/-- The state in which the wires of the panel are set. -/
def panelWired : State :=
  panelWire (onPanel (cancelUnsent u panelId false) (newPanel c)) u.tp.panel (configuredPanel u c)

/-- The state in which PANEL_CONFIG is answered. -/
def panelConfigured : State := panelAfterReply (freeAll (oweAll (panelWired u c) panelId))

theorem fw_panelWired : (panelWired u c).fw = u.fw :=
  ((panelWire_follows ..).fw (by decide)).trans
    (((onPanel_follows ..).fw (by decide)).trans ((cancelUnsent_follows ..).fw (by decide)))

theorem fw_panelOwed : (freeAll (oweAll (panelWired u c) panelId)).fw = u.fw :=
  ((freeAll_follows ..).fw (by decide)).trans
    (((oweAll_follows ..).fw (by decide)).trans (fw_panelWired u c))

theorem fw_panelConfigured : (panelConfigured u c).fw = u.fw :=
  ((panelAfterReply_follows ..).fw (by decide)).trans (fw_panelOwed u c)

theorem pi_panelConfigured : (panelConfigured u c).pi = (panelWired u c).pi :=
  ((panelAfterReply_follows ..).pi (by decide)).trans
    (((freeAll_follows ..).pi (by decide)).trans ((oweAll_follows ..).pi (by decide)))

theorem gp_panelConfigured : (panelConfigured u c).gp = (panelWired u c).gp :=
  ((panelAfterReply_follows ..).gp (by decide)).trans
    (((freeAll_follows ..).gp (by decide)).trans ((oweAll_follows ..).gp (by decide)))

theorem panel_panelWired : (panelWired u c).tp.panel = configuredPanel u c :=
  congrArg Towpath.panel ((panelWire_follows ..).tp (by decide))

theorem panel_panelOwed : (freeAll (oweAll (panelWired u c) panelId)).tp.panel =
    { configuredPanel u c with recv := (oweAll (panelWired u c) panelId).tp.panel.recv } := by
  rw [panel_freeAll, panel_oweAll, panel_panelWired]

theorem panel_panelConfigured : (panelConfigured u c).tp.panel = { configuredPanel u c with
    recv := (oweAll (panelWired u c) panelId).tp.panel.recv,
    await := if (configuredPanel u c).scene.isSome then u.fw.causer else none } := by
  have owed := panel_panelOwed u c
  have fw := fw_panelOwed u c
  unfold panelConfigured panelAfterReply onPanel
  generalize freeAll (oweAll (panelWired u c) panelId) = s at owed fw ⊢
  show ({ s.tp.panel with await := if s.tp.panel.scene.isSome then s.fw.causer else none } : Panel) = _
  rw [owed, fw]

variable {c} (some' : c.w 1 ≠ 0)
include some'

/-- The panel that the command names. -/
theorem configuredPanel_names : (configuredPanel u c).scene = some (handleIndex (c.w 1)) ∧
    (configuredPanel u c).w = fld (c.w 3) 0 11 ∧ (configuredPanel u c).h = fld (c.w 3) 16 10 ∧
    (configuredPanel u c).variant = BitVec.ofNat 2 (fld (c.w 4) 0 2) ∧
    (configuredPanel u c).tePin = BitVec.ofNat 6 (fld (c.w 4) 8 6) ∧
    ((configuredPanel u c).busy = false → (configuredPanel u c).step = .exitSleep) := by
  unfold configuredPanel newPanel
  rw [if_neg some']
  refine ⟨rfl, rfl, rfl, rfl, rfl, fun idle => ?_⟩
  exact if_neg (Bool.eq_false_iff.mp idle)

/-- The pins of the panel belong to the firmware (R744). -/
theorem fw_gp_panelConfigured {n : Nat} (small : n < 64) (pin : n = 1 ∨ n = fld (c.w 4) 8 6) :
    (panelConfigured u c).gp.fw.getLsbD n = true := by
  obtain ⟨scene, -, -, -, tePin, -⟩ := configuredPanel_names u some'
  have pins : n ∈ panelPins (configuredPanel u c) := by
    unfold panelPins
    rw [if_pos (by rw [scene]; rfl), tePin, toNat_fld]
    refine List.mem_append_left _ ?_
    simpa using pin
  rw [gp_panelConfigured]
  refine (congrArg (BitVec.getLsbD · n) (fw_gpChange _ _)).trans ?_
  exact getLsbD_foldl_setBit _ small (.inl pins)

theorem sq_panelConfigured : (sqOf (panelConfigured u c) 1).cfg.getLsbD 16 = true := by
  obtain ⟨scene, -⟩ := configuredPanel_names u some'
  have some' : (configuredPanel u c).scene.isSome = true := by rw [scene]; rfl
  have wired : (panelWired u c).pi = (updSq (onPanel (cancelUnsent u panelId false) (newPanel c)) 1
      (fun q => if (configuredPanel u c).scene.isSome then
        { q with cfg := (q.cfg &&& 0x07000000) ||| 0x0041040A } else q)).pi :=
    (gpChange_follows ..).pi (by decide)
  rw [sqOf, pi_panelConfigured, wired, ← sqOf, sqOf_updSq_self, if_pos some']
  exact (BitVec.getLsbD_or ..).trans (Bool.or_eq_true_iff.mpr (.inr rfl))

/-- The start-up waits for the reply (R427). -/
theorem panelKick_panelConfigured {m n : Nat} (causer : u.fw.causer = some (m, n))
    (waits : u.fw.placed.get 0 m < n) : panelKick (panelConfigured u c) = panelConfigured u c := by
  obtain ⟨scene, -, -, -, -, step⟩ := configuredPanel_names u some'
  have panel := panel_panelConfigured u c
  have awaits : panelAwaits (panelConfigured u c) = true := by
    unfold panelAwaits
    rw [panel, fw_panelConfigured, scene, causer]
    exact decide_eq_true waits
  unfold panelKick panelKickFuel
  dsimp only
  split
  · rfl
  next goes =>
    have idle : (configuredPanel u c).busy = false := by
      have := congrArg Panel.busy panel
      simp only [Bool.or_eq_true, not_or] at goes
      rw [this] at goes
      exact Bool.eq_false_iff.mpr goes.1.2
    rw [congrArg Panel.step panel, step idle]
    simp only [stepBytes]
end

/-- Settles O22: a station enters CONFIG (`stationOf_enterConfig`), a lane is configured
(`enable_laneCtrl`), the panel is set and waits for the reply (`panelKick_panelConfigured`), and each
other row answers at once. -/
theorem bindingAndConfigurationCommandsTakeEffect : Obligations.BindingAndConfigurationCommandsTakeEffect := by
  intro mb tag w1 w2 w3 w4 w5 i x v s u msg c runs st rb scene addr lane
  refine ⟨?bind, ?rebind, ?rebound, ?voice, ?lane, ?voltage, ?bounds, ?panel, ?audio⟩
  case voice =>
    intro run live found mix gain up
    refine replies_of_done run rfl rfl ((guarded_of_pass ?_).trans ?_)
    · refine .cons (Cmd.handle_of ?_) (.cons (Cmd.handle0_of ?_) (.cons (shape_plain rfl)
        (.cons (rsv_of_lt (n := 8) gain) (.cons (needs_one up) .nil))))
      · exact live
      · exact mix
    · rw [show handleIndex ((c 0x18 [w1, w2, w3]).w 1) = handleIndex w1 from rfl, updVoice_of_some _ found,
        show (c 0x18 [w1, w2, w3]).w 3 = w3 from rfl, fld_of_lt gain]
      rfl
  case lane =>
    intro run reserved up may
    refine ⟨laneCtrl u lane (bit w1 8) (laneOf u lane).freeze (laneOf u lane).test,
      replies_of_done run rfl rfl (guarded_of_pass ?_), ?_, fun l other => ?_⟩
    · refine .cons (shape_plain rfl) (.cons (need_of (decide_eq_true reserved) _)
        (.cons (needs_one up) (.cons (need_of ?_ _) .nil)))
      show (bit w1 8 || (boundOn u lane).isEmpty) = true
      rcases may with may | may
      · rw [may, Bool.true_or]
      · rw [may, List.isEmpty_nil, Bool.or_true]
    · rw [enable_laneCtrl, if_pos rfl]
    · rw [enable_laneCtrl, if_neg other]
  case rebound =>
    intro h crc k fw
    have complete : exec (.rebindStationComplete mb) s = .next (match Tab.find? s.fw.waiting mb with
        | some (.rebind h crc i sc _ true) =>
          let s := if sc.isSome then updStation s i (fun t => { t with pendScene := none }) else s
          endWaiting s mb h crc stFENCED []
        | some (.rebind h crc _ none none false) => endWaiting s mb h crc stOK []
        | _ => s) := congrArg Host.Outcome.next (if_neg (by rw [fw]; decide))
    refine ⟨fun waits => ?_, fun a waits => ?_, fun n a waits => ?_⟩ <;> rw [complete, waits] <;> rfl
  case voltage =>
    intro run island mv
    have policy : policyOk (c 0x1F [0, w2, w3, 0]) = true := by
      rw [policyOk, if_pos (show (c 0x1F [0, w2, w3, 0]).w 1 = 0 from rfl)]
      show (decide (w2.toNat < 16) && (decide (w3.toNat = 0) || decide (650 ≤ w3.toNat ∧ w3.toNat ≤ 900)) &&
        decide ((0 : Word).toNat = 0)) = true
      rw [decide_eq_true island]
      rcases mv with rfl | mv
      · rfl
      · rw [decide_eq_true mv, Bool.or_true]
        rfl
    refine replies_of_done run rfl rfl ((guarded_of_pass ?_).trans ?_)
    · exact .cons rfl (.cons (shape_plain rfl) (.cons (need_of policy _) (.cons rfl (.cons rfl .nil))))
    · rfl
  case bounds =>
    intro run live found idle up low order high
    have third (a b : Nat) : (if (c 0x1F [3, w2, w3, w4]).w 1 = 3 then a else b) = a := if_pos rfl
    have policy : policyOk (c 0x1F [3, w2, w3, w4]) = true := by
      show ((decide (w3.toNat = 0) && decide (w4.toNat = 0)) ||
        decide (1 ≤ w3.toNat ∧ w3.toNat ≤ w4.toNat ∧ w4.toNat ≤ 65535)) = true
      rw [decide_eq_true (And.intro low (And.intro order high)), Bool.or_true]
    refine replies_of_done run rfl rfl ((guarded_of_pass ?_).trans ?_)
    · refine .cons ((if_pos rfl).trans (Cmd.handle_of ?_)) (.cons (shape_plain rfl) (.cons (need_of policy _)
        (.cons (needs_of ?_) (.cons ((third _ _).trans (need_of ?_ _)) .nil))))
      · exact live
      · have lanes : policyNeeds u (c 0x1F [3, w2, w3, w4]) = [islLane x.lane] := by
          have here : stationOf u (handleIndex ((c 0x1F [3, w2, w3, w4]).w 2)) = some x := found
          have three : (c 0x1F [3, w2, w3, w4]).w 1 = 3 := rfl
          rw [policyNeeds, three, if_neg (by decide), if_pos rfl, here]
          rfl
        rw [lanes]
        exact fun k hk => List.mem_singleton.mp hk ▸ up
      · show (!(decide (handleType w2 = tSTATION) && rebindWaits u (handleIndex w2))) = true
        rw [idle, Bool.and_false, Bool.not_false]
    · have some' : w3 ≠ 0 := fun e => by subst e; exact absurd low (by decide)
      have set : setPolicy u (c 0x1F [3, w2, w3, w4]) =
          updStation u (handleIndex w2) (fun x => { x with
            bounds := if w3 = 0 then none else some (w3.toNat, w4.toNat) }) := rfl
      rw [set, updStation_of_some _ found, if_neg some']
      rfl
  case audio =>
    intro run small some' few tdm up none'
    refine replies_of_done run rfl rfl ((guarded_of_pass ?_).trans ?_)
    · refine .cons (shape_plain rfl) (.cons (rsv_of_lt (n := 8) small) (.cons (show rsv (0 : Word) 0 = stOK by decide) (.cons (need_of ?_ _)
        (.cons (needs_one up) (.cons (need_of ?_ _) .nil)))))
      · show (decide (1 ≤ fld w1 2 4 ∧ fld w1 2 4 ≤ 8) && (bit w1 7 || decide (fld w1 2 4 ≤ 2))) = true
        rw [decide_eq_true (And.intro some' few), Bool.true_and]
        rcases tdm with tdm | tdm
        · rw [tdm, Bool.true_or]
        · rw [decide_eq_true tdm, Bool.or_true]
      · rw [none']
        rfl
    · rfl
  case bind =>
    intro run wash scene' washScene r1 r3 r4 ok free up few index page
    obtain ⟨p, page⟩ := Option.isSome_iff_exists.mp page
    obtain ⟨q, wrote⟩ : ∃ q, (writeMem p 2 (recordOf i) (List.replicate 256 0)).1 = q := ⟨_, rfl⟩
    have here : stationOf (setStation q i { st with boundAt := q.tick }) i =
      some { st with boundAt := q.tick } := Tab.find?_put_self ..
    have gens : (enterConfig (setStation q i { st with boundAt := q.tick }) i).fw.gens = u.fw.gens := by
      rw [gens_of_tables (enterConfig_tables ..), ← defaultsPage_gens page,
        (setStation_follows ..).fw (by decide)]
      exact wrote ▸ gens_of_tables (writeMem_tables ..)
    have next' : nextStation u = i := by rw [nextStation, show freeIndex u tSTATION = some i from index]; rfl
    refine ⟨enterConfig (setStation q i { st with boundAt := q.tick }) i,
      { Station.anew { st with boundAt := q.tick } with code := 1 },
      replies_of_done run rfl rfl ((guarded_of_pass ?_).trans ((withIndex_of _ index).trans ?_)),
      stationOf_enterConfig here, rfl, rfl, rfl, rfl, rfl, rfl, rfl, rfl, rfl⟩
    · refine .cons (need_of (decide_eq_true wash) _) (.cons (Cmd.handle_of ?_) (.cons (Cmd.handle0_of ?_)
        (.cons (shape_plain rfl) (.cons (need_of (decide_eq_true r1) _) (.cons (need_of (decide_eq_true r3) _)
          (.cons (need_of (decide_eq_true r4) _) (.cons (need_of ok _) (.cons (needs_of ?_)
            (.cons (need_of (decide_eq_true few) _) (.cons (need_of free _) .nil))))))))))
      · exact scene'
      · exact washScene
      · rw [next']
        exact up
    · rw [page]
      dsimp only
      rw [wrote]
      exact created_of_gens gens _ _
  case rebind =>
    intro run wash station scene' addr' found idle
    have passes : Pass [need (decide (u.sys.mode ≠ mWASH)) stWRONG_MODE, rb.handle u 1 [tSTATION],
        rb.handle0 u 2 [tSCENE], rb.shape 3 0,
        need (decide (w3.toNat = 0xFFFF) || decide (w3.toNat < 2048)) stBAD_ARG] := by
      refine .cons (need_of (decide_eq_true wash) _) (.cons (Cmd.handle_of ?_) (.cons (Cmd.handle0_of ?_)
        (.cons (shape_plain rfl) (.cons (need_of ?_ _) .nil))))
      · exact station
      · exact scene'
      · rcases addr' with addr' | addr'
        · rw [decide_eq_true addr', Bool.true_or]
        · rw [decide_eq_true addr', Bool.or_true]
    have free : rb.free u 1 = stOK := need_of (by
      show (!(decide (handleType w1 = tSTATION) && rebindWaits u (handleIndex w1))) = true
      rw [idle, Bool.and_false, Bool.not_false]) _
    have parts : rebindParts rb x = (scene, addr) := rfl
    have here : stationOf u (handleIndex (rb.w 1)) = some x := found
    clear_value scene addr
    refine ⟨fun noScene noAddr => ?_, fun some' tp lanes => ?_⟩
    · subst noScene noAddr
      refine replies_of_done run rfl rfl ((guarded_of_pass passes).trans ?_)
      rw [here]
      dsimp only
      rw [parts]
      exact guarded_of_pass (.cons rfl (.cons rfl (.cons free (.cons rfl .nil))))
    · have bound : addr.all (bindable u) = true := by
        cases addr with
        | none => rfl
        | some a => exact (lanes a rfl).1
      let t := match scene with
        | none => u
        | some n => bindScene u (handleIndex w1) n
      have fw : t.fw = u.fw := by
        cases scene with
        | none => rfl
        | some n => exact (bindScene_follows ..).fw (by decide)
      have waits : ¬ (scene.isNone && addr.isNone) = true := by
        rw [Bool.and_eq_true, Option.isNone_iff_eq_none, Option.isNone_iff_eq_none]
        exact some'
      refine (exec_of_wait (t := t) (w := .rebind rb.header rb.crc (handleIndex w1) scene
        (addr.map (fun a => (u.tick, a))) false) run rfl rfl ?_).trans ?_
      · refine (guarded_of_pass passes).trans ?_
        rw [here]
        dsimp only
        rw [parts]
        refine (guarded_of_pass (.cons (needs_of ?_) (.cons (needs_of ?_) (.cons free
          (.cons (need_of bound _) .nil))))).trans ((if_neg waits).trans ?_)
        · cases scene with
          | none => nofun
          | some n => exact fun k hk => List.mem_singleton.mp hk ▸ tp (nofun)
        · cases addr with
          | none => nofun
          | some a =>
            obtain ⟨-, old, new⟩ := lanes a rfl
            intro k hk
            rcases List.mem_cons.mp hk with rfl | hk
            · exact old
            · exact List.mem_singleton.mp hk ▸ new
        · cases scene <;> rfl
      · exact congrArg Host.Outcome.next (caused_of_waiting_of_fw run fw _)
  case panel =>
    intro run live r2 r3 r4 variant pin tp pi
    have passes : Pass [(c 0x20 [w1, w2, w3, w4]).handle0 u 1 [tSCENE], (c 0x20 [w1, w2, w3, w4]).shape 4 0,
        rsv w2 0x03FF07FF, rsv w3 0x03FF07FF, rsv w4 0x7F03,
        need (panelOk (c 0x20 [w1, w2, w3, w4])) stBAD_ARG, needs u [islTP, islPI]] := by
      refine .cons (Cmd.handle0_of (.inr ?_)) (.cons (shape_plain rfl) (.cons (need_of (decide_eq_true r2) _)
        (.cons (need_of (decide_eq_true r3) _) (.cons (need_of (decide_eq_true r4) _)
          (.cons (need_of ?_ _) (.cons (needs_of ?_) .nil))))))
      · exact live
      · show (decide (fld w4 0 2 ≠ 3) && (decide (w1 = 0) ||
          (decide (fld w4 8 6 ≠ 0) && decide (fld w4 8 6 ≠ 1) && decide (fld w4 8 6 ≠ 8)))) = true
        simp only [List.contains_iff_mem, List.mem_cons, List.not_mem_nil, or_false, not_or] at pin
        simp [variant, pin]
      · simpa using ⟨tp, pi⟩
    have row : exec (.panelConfig mb (msg [w1, w2, w3, w4])) s =
        .next (panelStart (caused (reply (panelKick (panelConfigured u (c 0x20 [w1, w2, w3, w4]))) mb
          (c 0x20 [w1, w2, w3, w4]).header (c 0x20 [w1, w2, w3, w4]).crc 0 []))) := by
      show onNext (command 0x20 .c false mb (msg [w1, w2, w3, w4]) s _) panelStart = _
      rw [command_of_executes run, show (msg [w1, w2, w3, w4]).fault = false from rfl, faulting_false]
      exact congrArg (fun r => Host.Outcome.next (panelStart (caused (finish (c 0x20 [w1, w2, w3, w4]) r))))
        (guarded_of_pass passes)
    have named : (c 0x20 [w1, w2, w3, w4]).w 1 ≠ 0 := by
      rintro e
      have bad : handleStatus u [1] 0 = stBAD_HANDLE := by
        unfold handleStatus
        exact if_pos (Or.inl rfl)
      rw [show w1 = 0 from e, bad] at live
      exact absurd live (by decide)
    obtain ⟨scene, w, h, kind, te, -⟩ := configuredPanel_names u named
    have panel := panel_panelConfigured u (c 0x20 [w1, w2, w3, w4])
    obtain ⟨n, causer, waits⟩ := causer_of_executes run
    rw [panelKick_panelConfigured u named causer waits] at row
    refine ⟨panelConfigured u (c 0x20 [w1, w2, w3, w4]), row, ?_, ?_, ?_, ?_, ?_, ?_, ?_,
      sq_panelConfigured u named⟩
    · rw [panel, scene]; rfl
    · rw [panel, w]; rfl
    · rw [panel, h]; rfl
    · rw [panel, kind]; exact toNat_fld w4 0 2
    · rw [panel, te]; exact toNat_fld w4 8 6
    · exact fw_gp_panelConfigured u named (by decide) (.inl rfl)
    · exact fw_gp_panelConfigured u named (fld_lt w4 8 6) (.inr rfl)

end Sys2Proof.Machine
end

section
/-! PROOFS. The commands that load data and the service commands (R195 to R197): the obligation O23. -/
open Sys2Proof

namespace Sys2Proof.Machine

theorem withSource_of_read {s r : State} {a n : Nat} {b : List Byte} (f : State → List Byte → Res)
    (read : readMem s 2 a n = (r, .ok b)) : withSource s a n f = f r b := by
  rw [withSource, read]

/-- Settles O23: each command passes its checks, reads its source (`withSource_of_read`), and takes
effect as its row says. -/
theorem dataAndServiceCommandsTakeEffect : Obligations.DataAndServiceCommandsTakeEffect := by
  intro mb tag w1 w2 w3 w4 x v k b s u r msg c up tile pages
  refine ⟨?tiles, ?samples, ?script, ?station, ?lane, ?diag⟩
  case tiles =>
    intro run reserved small format some' range block upBanks room read bank fresh
    refine replies_of_done run rfl rfl ((guarded_of_pass ?_).trans (withSource_of_read _ read))
    refine .cons (shape_plain rfl) (.cons (need_of (decide_eq_true reserved) _)
      (.cons (rsv_of_lt (n := 16) (Nat.lt_succ_of_le small))
        (.cons (need_of (decide_eq_true (And.intro format (And.intro some' range))) _)
          (.cons (need_of block _) (.cons (needs_of upBanks) (.cons (need_of (decide_eq_true room) _) .nil))))))
  case lane =>
    intro l run reserved upLane
    have passes : Pass [(c 0x41 [w1]).shape 1 0, rsv w1 0x37, needs u [islLane l]] :=
      .cons (shape_plain rfl) (.cons (need_of (decide_eq_true reserved) _) (.cons (needs_one upLane) .nil))
    refine ⟨fun bound => ?_, fun free => ?_⟩
    · refine replies_of_done run rfl rfl (guarded_of_fail
        ((firstFail_of_pass passes _).trans (firstFail_of_need ?_ (by decide))) (by decide))
      exact List.isEmpty_eq_false_iff.mpr bound
    · have keeps : testKeep u l (BitVec.ofNat 2 (fld w1 4 2)) = (if (laneOf u l).test ≠ 0 ∧
          BitVec.ofNat 2 (fld w1 4 2) ≠ (laneOf u l).test then testNote u l else u) := by
        unfold testKeep
        exact if_congr (by simp) rfl rfl
      rw [← keeps]
      obtain ⟨shape, rest⟩ := List.forall_mem_cons.mp passes
      obtain ⟨bits, rest⟩ := List.forall_mem_cons.mp rest
      obtain ⟨lanes, -⟩ := List.forall_mem_cons.mp rest
      exact replies_of_done run rfl rfl (guarded_of_pass
        (.cons shape (.cons bits (.cons lanes (.cons (need_of (List.isEmpty_iff.mpr free) _) .nil)))))
  case station =>
    intro i lane found live idle
    have lanes (op : Nat) : stationTl u (c op [w1, w2]) = lane := by
      rw [stationTl, show stationOf u (handleIndex ((c op [w1, w2]).w 1)) = some x from found]
      rfl
    have free (op : Nat) : (c op [w1, w2]).free u 1 = stOK := need_of (by
      show (!(decide (handleType w1 = tSTATION) && rebindWaits u (handleIndex w1))) = true
      rw [idle, Bool.and_false, Bool.not_false]) _
    refine ⟨fun run block up' read => ?_, fun run block up' read => ?_⟩
    · intro q
      refine replies_of_done run rfl rfl ((guarded_of_pass ?_).trans (withSource_of_read _ read))
      refine .cons (Cmd.handle_of ?_) (.cons (shape_plain rfl) (.cons (need_of block _)
        (.cons (needs_of ?_) (.cons (free _) .nil))))
      · exact live
      · rw [lanes]
        exact up'
    · refine replies_of_done run rfl rfl ((guarded_of_pass ?_).trans (withSource_of_read _ read))
      refine .cons (Cmd.handle_of ?_) (.cons (shape_plain rfl) (.cons (need_of block _)
        (.cons (needs_of ?_) (.cons (free _) .nil))))
      · exact live
      · rw [lanes]
        exact up'
  case diag =>
    intro run aligned low high errs
    have passes : Pass [(c 0x42 [w1, w2]).shape 2 0,
        need (decide (w1.toNat % 4 = 0) && decide (1 ≤ w2.toNat ∧ w2.toNat ≤ 6)) stBAD_ARG] := by
      refine .cons (shape_plain rfl) (.cons (need_of ?_ _) .nil)
      rw [decide_eq_true aligned, decide_eq_true (And.intro low high)]
      rfl
    have seen {e : Err} (h : some e ∈ errs) : (!errs.contains (some e)) = false := by simpa using h
    have mapped (ok : some .unmapped ∉ errs) : need (!errs.contains (some .unmapped)) stBAD_ARG = stOK :=
      need_of (by simpa using ok) _
    have reads (ok : some .unmapped ∉ errs) (open' : some .fenced ∉ errs) : Pass
        [need (!errs.contains (some .unmapped)) stBAD_ARG, need (!errs.contains (some .fenced)) stFENCED] :=
      .cons (mapped ok) (.cons (need_of (by simpa using open') _) .nil)
    refine ⟨fun bad => ?_, fun ok fenced => ?_, fun l ok open' read => ?_, fun e ok open' read => ?_⟩
    · refine replies_of_done run rfl rfl ((guarded_of_pass passes).trans
        (guarded_of_fail (firstFail_of_need ?_ (by decide)) (by decide)))
      exact seen bad
    · refine replies_of_done run rfl rfl ((guarded_of_pass passes).trans (guarded_of_fail
        ((firstFail_of_ok _ (mapped ok)).trans (firstFail_of_need ?_ (by decide))) (by decide)))
      exact seen fenced
    · refine replies_of_done run rfl rfl ((guarded_of_pass passes).trans
        ((guarded_of_pass (reads ok open')).trans ?_))
      rw [show diagWords ((c 0x42 [w1, w2]).w 2).toNat u ((c 0x42 [w1, w2]).w 1).toNat = (r, .ok l) from read]
      rfl
    · refine replies_of_done run rfl rfl ((guarded_of_pass passes).trans
        ((guarded_of_pass (reads ok open')).trans ?_))
      rw [show diagWords ((c 0x42 [w1, w2]).w 2).toNat u ((c 0x42 [w1, w2]).w 1).toNat = (r, .error e) from read]
      rfl
  case samples =>
    intro i n run live found kind quiet format long block up' room read q p took
    let w := (writeMem q 2 (p * 65536) b).1
    have cv : w.cv = u.cv := by
      have reads := (readMem_follows u 2 w1.toNat n).cv (by decide)
      rw [read] at reads
      exact ((writeMem_follows ..).cv (by decide)).trans (((takePages_follows took).cv (by decide)).trans reads)
    let t := freeRun w ((voiceOf w i).bind (fun x => x.pages))
    have here : voiceOf t i = some v := by
      rw [voiceOf, (freeRun_follows ..).cv (by decide), cv]
      exact found
    let y : Voice := { v with fmt := fld w2 30 2, pages := some (p, (n + 65535) / 65536), bytes := n }
    have stored : updVoice t i (fun x => { x with
        fmt := fld w2 30 2, pages := some (p, (n + 65535) / 65536), bytes := n }) = setVoice t i y :=
      updVoice_of_some _ here
    have kinds (f : Voice → Bool) : (voiceOf u (handleIndex ((c 0x31 [w1, w2, w3]).w 3))).any f = f v := by
      rw [show voiceOf u (handleIndex ((c 0x31 [w1, w2, w3]).w 3)) = some v from found]
      rfl
    refine ⟨setVoice t i y, y, replies_of_done run rfl rfl ((guarded_of_pass ?_).trans
      ((withSource_of_read _ read).trans ?_)), (freeRun_follows ..).basin (by decide),
      Tab.find?_put_self .., rfl, rfl, rfl⟩
    · refine .cons (Cmd.handle_of ?_) (.cons (need_of ?_ _) (.cons (shape_plain rfl)
        (.cons (need_of (decide_eq_true format) _) (.cons (need_of (decide_eq_true long) _)
          (.cons (need_of block _) (.cons (needs_of up') (.cons (need_of ?_ _)
            (.cons (need_of room _) .nil))))))))
      · exact live
      · rw [kinds, decide_eq_true kind, Bool.or_true]
      · rw [kinds, decide_eq_true quiet]
    · rw [show takePages r ((fld ((c 0x31 [w1, w2, w3]).w 2) 0 30 + 65535) / 65536) = some (q, p) from took]
      exact congrArg (Res.done · stOK []) stored
  case script =>
    intro i run live found stopped even block up' read cell q p place place' room found' took t
    have here : taskOf u (handleIndex ((c 0x32 [w1, w2, w3]).w 1)) = some k := found
    refine replies_of_done run rfl rfl ?_
    dsimp only
    rw [here]
    refine (guarded_of_pass ?_).trans ((withSource_of_read _ read).trans ?_)
    · refine .cons (Cmd.handle_of ?_) (.cons (shape_plain rfl) (.cons (need_of (decide_eq_true even) _)
        (.cons (need_of block _) (.cons (needs_of up') (.cons (need_of ?_ _) (.cons (need_of ?_ _) .nil))))))
      · exact live
      · show (!running u (islDeck k.deck) || (decide (k.state = 0) || decide (k.state = 4))) = true
        rcases stopped with off | idle | ended
        · rw [off]
          rfl
        · rw [decide_eq_true idle, Bool.true_or, Bool.or_true]
        · rw [decide_eq_true ended, Bool.or_true, Bool.or_true]
      · show ((placeCode u k.deck i (w3.toNat / 2)).isSome &&
          (copyRun u k ((w3.toNat + 65535) / 65536)).isSome) = true
        rw [place, room]
        rfl
    · have copied : ((some k : Option Task).bind (fun t => copyRun r t ((((c 0x32 [w1, w2, w3]).w 3).toNat + 65535) /
          65536))) = some (q, p) := took
      have placed : placeCode r (((some k : Option Task).map (fun t => t.deck)).getD 0)
          (handleIndex ((c 0x32 [w1, w2, w3]).w 1)) (((c 0x32 [w1, w2, w3]).w 3).toNat / 2) = some cell := place'
      rw [copied, placed]
      rfl

end Sys2Proof.Machine
end

section
/-! PROOFS. Fences (chapter 06, R245 to R248, R277, R280, R281, R797): what entering a fence leaves of the
islands and of the Lockkeeper's sources, and the obligation O29. -/
open Sys2Proof

namespace Sys2Proof.Machine

/-! ### The Lockkeeper's fence source (R246) -/

/-- The Lockkeeper's private source `i` keeps its state. -/
def KeepsLkSource (s t : State) (i : Nat) : Prop := privSrc t 0 i = privSrc s 0 i

namespace KeepsLkSource
variable {s t u : State} {i : Nat}

theorem refl (s : State) (i : Nat) : KeepsLkSource s s i := rfl

theorem after (k : KeepsLkSource t u i) (h : KeepsLkSource s t i) : KeepsLkSource s u i := k.trans h

theorem of_intc (h : t.intc = s.intc) : KeepsLkSource s t i := by rw [KeepsLkSource, privSrc, h, privSrc]

end KeepsLkSource

theorem keepsLkSource_updPriv (s : State) {t i k : Nat} (f : Src → Src) (other : i ≠ 32 * t + k) :
    KeepsLkSource s (updPriv s t k f) i :=
  Tab.get_upd_of_ne _ _ _ (by omega)

theorem keepsLkSource_vectorReq (s : State) (v i : Nat) : KeepsLkSource s (vectorReq s v) i := by
  unfold vectorReq
  split
  · exact .of_intc ((msixDue_follows ..).intc (by decide))
  · rfl

section
variable {i : Nat} (high : 16 ≤ i) (low : i < 32)
include high low

/-- The mailboxes drive the Lockkeeper's sources below 16 (R120). -/
theorem keepsLkSource_driveSide (s : State) (m : Nat) (b : Bool) : KeepsLkSource s (driveSide s m b) i := by
  have priv (t k : Nat) (v : Bool) (other : i ≠ 32 * t + k) : KeepsLkSource s (drivePriv s t k v) i :=
    keepsLkSource_updPriv s _ other
  unfold driveSide
  dsimp only
  split
  · split
    · exact priv _ _ _ (by omega)
    · rfl
  · split
    · split
      · exact priv _ _ _ (by omega)
      · exact priv _ _ _ (by omega)
    · rfl

theorem keepsLkSource_flagSide (s : State) (m : Nat) (b : Bool) (n : Nat) :
    KeepsLkSource s (flagSide s m b n) i := by
  have set (f : Mbx → Mbx) : KeepsLkSource s (updMbx s m f) i := rfl
  unfold flagSide
  dsimp only
  split
  · split
    · exact .after (keepsLkSource_vectorReq ..) (set _)
    · exact set _
  · exact .after (keepsLkSource_driveSide high low ..) (set _)

theorem keepsLkSource_enqueue (s : State) (a m : Nat) (b : Bool) (v : Word) (eom : Bool) :
    KeepsLkSource s (enqueue s a m b v eom) i := by
  have set (f : Mbx → Mbx) : KeepsLkSource s (updMbx s m f) i := rfl
  unfold enqueue
  dsimp only
  split
  · exact set _
  · split
    · exact .after (keepsLkSource_flagSide high low ..) (set _)
    · split
      · exact .after (keepsLkSource_flagSide high low ..) (set _)
      · split
        · exact .after (keepsLkSource_flagSide high low ..) (set _)
        · exact set _

theorem keepsLkSource_placeReply (s : State) (m : Nat) (w : List Word) :
    KeepsLkSource s (placeReply s m w) i := by
  fun_induction placeReply s m w with
  | case1 s m => rfl
  | case2 s m w => exact keepsLkSource_enqueue high low ..
  | case3 s m w r _ ih => exact .after ih (keepsLkSource_enqueue high low ..)

omit high low in
theorem keepsLkSource_record (s : State) (m : Nat) (h crc : Word) (st : Nat) (w : List Word) :
    KeepsLkSource s (record s m h crc st w) i := by
  unfold record
  split <;> rfl

theorem keepsLkSource_reply (s : State) (m : Nat) (h crc : Word) (st : Nat) (w : List Word) :
    KeepsLkSource s (reply s m h crc st w) i := by
  have recorded : KeepsLkSource s (record s m h crc st w) i := keepsLkSource_record ..
  have queued (u : State) (f : Fw → Fw) : KeepsLkSource u (onFw u f) i := rfl
  unfold reply sendReply flushReply
  split
  · exact .after (queued ..) recorded
  · split
    · exact .after (keepsLkSource_placeReply high low ..) (.after (queued ..) (.after (queued ..) recorded))
    · exact .after (queued ..) recorded

theorem keepsLkSource_resetReply (s : State) (island st : Nat) :
    KeepsLkSource s (resetReply s island st) i := by
  have freed (f : Island → Island) : KeepsLkSource s (updIsl s island f) i := rfl
  have queued (u : State) (f : Fw → Fw) : KeepsLkSource u (onFw u f) i := rfl
  unfold resetReply
  split
  · rfl
  · dsimp only
    split
    · unfold endWaiting
      dsimp only
      split
      · exact .after (keepsLkSource_record ..) (.after (queued ..) (freed _))
      · exact .after (keepsLkSource_reply high low ..) (.after (queued ..) (freed _))
    · exact freed _
end

/-! ### Islands under a fence (R245, R280, R284) -/

theorem isl_of_islands {s t : State} (h : t.islands = s.islands) (j : Nat) : isl t j = isl s j := by
  rw [isl, h, isl]

theorem isl_resetReply_of_ne (s : State) {k j : Nat} (st : Nat) (other : j ≠ k) :
    isl (resetReply s k st) j = isl s j := by
  unfold resetReply
  split
  · rfl
  · dsimp only
    split
    · exact (isl_of_islands ((endWaiting_follows ..).islands (by decide)) j).trans
        (isl_updIsl_of_ne _ _ other)
    · exact isl_updIsl_of_ne _ _ other

theorem isl_resetReply_self (s : State) (k st : Nat) :
    ∃ c, isl (resetReply s k st) k = { isl s k with resetCmd := c } := by
  unfold resetReply
  split
  · exact ⟨(isl s k).resetCmd, rfl⟩
  · refine ⟨none, ?_⟩
    dsimp only
    split
    · exact (isl_of_islands ((endWaiting_follows ..).islands (by decide)) k).trans (isl_updIsl_self ..)
    · exact isl_updIsl_self ..

/-- The state in which the island is fenced, before the Lockkeeper is told. -/
def fencedFirst (s : State) (i cause : Nat) : State :=
  let first := running s i
  let s := updIsl s i (fun x => { x with recent := s.tick :: recentOf s i, total := satAdd x.total 1 })
  let held := holds s i
  let s := updIsl s i (fun x => { x with
    state := if held then .held else .fenced, cause := BitVec.ofNat 8 (causeField held cause) })
  if first then fenceEffects s i else s

/-- R280 will hold the island, whose fences so far are counted. -/
def willHold (s : State) (k : Nat) : Bool := decide (2 ≤ (recentOf s k).length) && decide (k ≠ 14)

theorem recentOf_noted (s : State) (i : Nat) (f : Island → Island)
    (recent : ∀ x, (f x).recent = s.tick :: recentOf s i) :
    recentOf (updIsl s i f) i = s.tick :: recentOf s i := by
  have now : ticksSince s s.tick = 0 := by simp [ticksSince]
  have same (t : Dword) : ticksSince (updIsl s i f) t = ticksSince s t := rfl
  rw [recentOf, isl_updIsl_self, recent]
  simp only [same, List.filter_cons, now, recentOf, List.filter_filter, Bool.and_self]
  rfl

theorem holds_noted {s : State} {i : Nat} (notLk : i ≠ 0) (f : Island → Island)
    (recent : ∀ x, (f x).recent = s.tick :: recentOf s i) :
    holds (updIsl s i f) i = willHold s i := by
  rw [holds, recentOf_noted s i f recent, willHold, List.length_cons, decide_eq_true (show i ≠ islLK from notLk),
    Bool.true_and, Bool.and_comm]
  exact congrArg (· && _) (decide_eq_decide.mpr (by omega))

/-- What a fence of an island other than the Lockkeeper's leaves. -/
structure Fenced (s t : State) (k cause : Nat) : Prop where
  self : ∃ c, isl t k = { isl s k with
    recent := s.tick :: recentOf s k, total := satAdd (isl s k).total 1,
    state := if willHold s k then .held else .fenced,
    cause := BitVec.ofNat 8 (if willHold s k then cause + 0x80 else cause), resetCmd := c }
  others : ∀ j, j ≠ k → isl t j = isl s j
  told : (privSrc t 0 19).count ≠ 0
  sys : t.sys = s.sys

theorem satAdd_one_ne_zero : ∀ c : BitVec 8, satAdd c 1 ≠ 0 := by decide

theorem count_raisePriv (s : State) (t i : Nat) : (privSrc (raisePriv s t i) t i).count ≠ 0 := by
  have raised : privSrc (raisePriv s t i) t i = (privSrc s t i).events 1 := by
    show Tab.get {} (Tab.upd {} s.intc.priv (32 * t + i) (fun x => x.events 1)) (32 * t + i) = _
    exact Tab.get_upd_self ..
  rw [raised]
  exact satAdd_one_ne_zero _

theorem isl_fencedFirst {s : State} {k : Nat} (cause : Nat) (notLk : k ≠ 0) :
    isl (fencedFirst s k cause) k = { isl s k with
      recent := s.tick :: recentOf s k, total := satAdd (isl s k).total 1,
      state := if willHold s k then .held else .fenced,
      cause := BitVec.ofNat 8 (causeField (willHold s k) cause) } ∧
    (∀ j, j ≠ k → isl (fencedFirst s k cause) j = isl s j) ∧ (fencedFirst s k cause).sys = s.sys := by
  have effects (b : Bool) (u : State) : (if b then fenceEffects u k else u).islands = u.islands ∧
      (if b then fenceEffects u k else u).sys = u.sys := by
    cases b
    · exact ⟨rfl, rfl⟩
    · exact ⟨(fenceEffects_follows ..).islands (by decide), (fenceEffects_follows ..).sys (by decide)⟩
  have held := holds_noted notLk
    (fun x => { x with recent := s.tick :: recentOf s k, total := satAdd x.total 1 }) (fun _ => rfl)
  unfold fencedFirst
  dsimp only
  rw [held]
  refine ⟨?_, fun j other => ?_, (effects _ _).2.trans rfl⟩
  · rw [isl_of_islands (effects _ _).1, isl_updIsl_self, isl_updIsl_self]
  · rw [isl_of_islands (effects _ _).1, isl_updIsl_of_ne _ _ other, isl_updIsl_of_ne _ _ other]

theorem fenced_fenceIsland {s : State} {k : Nat} (cause : Nat) (can : canFence s k = true) (notLk : k ≠ 0) :
    Fenced s (fenceIsland s k cause) k cause := by
  obtain ⟨self, others, sys⟩ := isl_fencedFirst (s := s) cause notLk
  have held := holds_noted (s := s) notLk
    (fun x => { x with recent := s.tick :: recentOf s k, total := satAdd x.total 1 }) (fun _ => rfl)
  obtain ⟨told, is⟩ : ∃ told, told = raisePriv (postRec (fencedFirst s k cause) k 0x05 0
    (pack [(0, k), (8, causeField (willHold s k) cause)]) 0) 0 19 := ⟨_, rfl⟩
  have done : fenceIsland s k cause = if willHold s k then resetReply told k stFENCED else told := by
    rw [fenceIsland, can, is, ← held]
    exact (if_neg (show ¬ k = islLK from notLk)).trans rfl
  have islands : told.islands = (fencedFirst s k cause).islands := by
    rw [is, (raisePriv_follows ..).islands (by decide), (postRec_follows ..).islands (by decide)]
  have sysTold : told.sys = (fencedFirst s k cause).sys := by
    rw [is, (raisePriv_follows ..).sys (by decide), (postRec_follows ..).sys (by decide)]
  have count : (privSrc told 0 19).count ≠ 0 := by
    rw [is]
    exact count_raisePriv _ 0 19
  rw [done]
  split
  · obtain ⟨c, here⟩ := isl_resetReply_self told k stFENCED
    refine ⟨⟨c, ?_⟩, fun j other => ?_, ?_, ?_⟩
    · rw [here, isl_of_islands islands, self]
      rfl
    · rw [isl_resetReply_of_ne _ _ other, isl_of_islands islands, others j other]
    · rw [keepsLkSource_resetReply (i := 19) (by decide) (by decide) told k stFENCED]
      exact count
    · rw [(resetReply_follows ..).sys (by decide), sysTold, sys]
  · refine ⟨⟨(isl s k).resetCmd, ?_⟩, fun j other => ?_, count, sysTold.trans sys⟩
    · rw [isl_of_islands islands, self]
      rfl
    · rw [isl_of_islands islands, others j other]

/-- What O29 says of a fence: the island, the Lockkeeper's source and the other islands. -/
def FenceTakes (s t : State) (k cause : Nat) : Prop :=
  (isl t k).state = (if willHold s k then .held else .fenced) ∧
  (isl t k).cause = BitVec.ofNat 8 (if willHold s k then cause + 0x80 else cause) ∧
  (isl t k).epoch = (isl s k).epoch ∧ (isl t k).total = satAdd (isl s k).total 1 ∧
  (privSrc t 0 19).count ≠ 0 ∧
  ∀ j, j ≠ k → (isl t j).state = (isl s j).state ∧ (isl t j).epoch = (isl s j).epoch

theorem Fenced.takes {s t : State} {k cause : Nat} (f : Fenced s t k cause) : FenceTakes s t k cause := by
  obtain ⟨⟨c, self⟩, others, told, -⟩ := f
  refine ⟨?_, ?_, ?_, ?_, told, fun j other => ?_⟩
  · rw [self]
  · rw [self]
  · rw [self]
  · rw [self]
  · rw [others j other]
    exact ⟨rfl, rfl⟩

/-- A count of the issuer's timeouts changes nothing that a fence looks at. -/
theorem isl_timeouts (s : State) (i j : Nat) (n : Nat) :
    ∃ m, isl (updIsl s i (fun x => { x with timeouts := satAdd x.timeouts n })) j =
      { isl s j with timeouts := m } := by
  by_cases same : j = i
  · subst same
    exact ⟨_, isl_updIsl_self ..⟩
  · exact ⟨(isl s j).timeouts, isl_updIsl_of_ne _ _ same⟩

theorem FenceTakes.of_timeouts {s t : State} {i k cause : Nat} {n : Nat}
    (f : FenceTakes (updIsl s i (fun x => { x with timeouts := satAdd x.timeouts n })) t k cause) :
    FenceTakes s t k cause := by
  have same (j : Nat) := isl_timeouts s i j n
  have recent : recentOf (updIsl s i (fun x => { x with timeouts := satAdd x.timeouts n })) k = recentOf s k := by
    obtain ⟨m, here⟩ := same k
    rw [recentOf, here]
    rfl
  obtain ⟨state, held, epoch, total, told, others⟩ := f
  obtain ⟨m, here⟩ := same k
  rw [willHold, recent] at state held
  rw [here] at epoch total
  refine ⟨state, held, epoch, total, told, fun j other => ?_⟩
  obtain ⟨m, there⟩ := same j
  have := others j other
  rwa [there] at this

theorem canFence_timeouts (s : State) (i k : Nat) (n : Nat) :
    canFence (updIsl s i (fun x => { x with timeouts := satAdd x.timeouts n })) k = canFence s k := by
  obtain ⟨m, here⟩ := isl_timeouts s i k n
  rw [canFence, here]
  rfl

theorem fenceIsland_of_not {s : State} {k : Nat} (cause : Nat) (cannot : canFence s k = false) :
    fenceIsland s k cause = s := by
  rw [fenceIsland, cannot]
  rfl

theorem FenceTakes.of_same {s t u : State} {k cause : Nat} (f : FenceTakes s t k cause)
    (islands : u.islands = t.islands) (intc : u.intc = t.intc) : FenceTakes s u k cause := by
  rw [FenceTakes, funext (isl_of_islands islands), privSrc, intc]
  exact f

/-- R277: the issuer counts the timeout, the target is fenced, and the request that waited at the
crossing ends with an error completion. -/
theorem exec_crossingTimeout (a : Agent) (issuer k : Fin 16) (s : State) :
    ∃ u ad basin store,
      u = fenceIsland (updIsl s issuer (fun x => { x with timeouts := satAdd x.timeouts 1 })) k cTIMEOUT ∧
      exec (.crossingTimeout ⟨a, issuer⟩ k) s =
        .next (if running s issuer then errTo (drawFree u).1 a ad basin store .fenced else u) :=
  ⟨_, _, _, _, rfl, rfl⟩

theorem crossingTimeout_takes {s : State} {k : Fin 16} (a : Agent) (issuer : Fin 16)
    (can : canFence s k = true) (notLk : k.val ≠ 0) :
    ∃ t, exec (.crossingTimeout ⟨a, issuer⟩ k) s = .next t ∧ FenceTakes s t k 1 ∧
      (a.val ≠ 2 ∨ running s issuer = false → t.sys = s.sys) := by
  obtain ⟨u, ad, basin, store, is, run⟩ := exec_crossingTimeout a issuer k s
  have fenced : Fenced _ u k 1 := is ▸ fenced_fenceIsland cTIMEOUT ((canFence_timeouts s issuer k 1).trans can) notLk
  refine ⟨_, run, ?_⟩
  split
  next out =>
    have follows := errTo_follows (drawFree u).1 a ad basin store .fenced
    refine ⟨fenced.takes.of_timeouts.of_same (follows.islands (by decide)) (follows.intc (by decide)),
      fun quiet => ?_⟩
    have ne : a.val ≠ 2 := quiet.resolve_right (by rw [out]; decide)
    rw [errTo_of_ne ne]
    exact fenced.sys
  next => exact ⟨fenced.takes.of_timeouts, fun _ => fenced.sys⟩

/-- R245: an island that is fenced already is not fenced again, and the request that waited there
still ends. -/
theorem crossingTimeout_of_not {s : State} {k : Fin 16} (a : Agent) (issuer : Fin 16)
    (cannot : canFence s k = false) :
    ∃ t, exec (.crossingTimeout ⟨a, issuer⟩ k) s = .next t ∧ (isl t k).state = (isl s k).state ∧
      (isl t issuer).timeouts = satAdd (isl s issuer).timeouts 1 ∧
      (running s issuer = true → t.out = s.out ++ [.error a .fenced]) ∧
      (running s issuer = false → { t with islands := s.islands } = s) := by
  obtain ⟨u, ad, basin, store, is, run⟩ := exec_crossingTimeout a issuer k s
  rw [fenceIsland_of_not cTIMEOUT ((canFence_timeouts s issuer k 1).trans cannot)] at is
  have state : (isl u k).state = (isl s k).state := by
    obtain ⟨m, here⟩ := isl_timeouts s issuer k 1
    rw [is, here]
  have counted : (isl u issuer).timeouts = satAdd (isl s issuer).timeouts 1 := by
    rw [is, isl_updIsl_self]
  refine ⟨_, run, ?_⟩
  split
  next out =>
    have islands := isl_of_islands ((errTo_follows (drawFree u).1 a ad basin store .fenced).islands (by decide))
    refine ⟨(congrArg Island.state (islands k)).trans state,
      (congrArg Island.timeouts (islands issuer)).trans counted, fun _ => ?_,
      fun stopped => absurd (out.symm.trans stopped) (by decide)⟩
    rw [errTo_out, is]
    rfl
  next stopped =>
    refine ⟨state, counted, fun out => absurd out stopped, fun _ => ?_⟩
    rw [is]
    rfl

/-! ### The Lockkeeper's own island (R72, R284) -/

theorem isl_restartRecoveries_zero (s : State) : isl (restartRecoveries s) 0 = isl s 0 := by
  refine List.foldlRecOn (motive := fun t => isl t 0 = isl s 0) _ _ rfl (fun t kept k _ => ?_)
  exact (isl_updIsl_of_ne _ _ (Nat.succ_ne_zero k).symm).trans kept

/-- R72: a warm restart keeps the mode and notes its cause. -/
theorem warmRestart_takes (s : State) (b : Nat) :
    (isl (warmRestart s b) 0).state = .restoring ∧ (warmRestart s b).sys.mode = s.sys.mode ∧
    (warmRestart s b).sys.resetCause = setBit s.sys.resetCause b true := by
  obtain ⟨r, reset⟩ : ∃ r, icTargetReset (agentReset (noteReset s b) 2) 0 = r := ⟨_, rfl⟩
  have kept : r.sys = (noteReset s b).sys :=
    reset ▸ ((icTargetReset_follows ..).sys (by decide)).trans ((agentReset_follows ..).sys (by decide))
  obtain ⟨q, is, mode, cause⟩ : ∃ q,
      warmRestart s b = updIsl (restartRecoveries q) 0 (fun x => { x with state := .restoring }) ∧
      q.sys.mode = r.sys.mode ∧ q.sys.resetCause = r.sys.resetCause := by
    unfold warmRestart
    rw [reset]
    exact ⟨_, rfl, rfl, rfl⟩
  have sys : (warmRestart s b).sys = q.sys := by
    rw [is, (updIsl_follows (restartRecoveries q) _ _).sys (by decide),
      (restartRecoveries_follows q).sys (by decide)]
  refine ⟨?_, ?_, ?_⟩
  · rw [is, isl_updIsl_self]
  · rw [sys, mode, kept]
    rfl
  · rw [sys, cause, kept]
    rfl

/-- R280 never holds the Lockkeeper's own island. -/
theorem fencedFirst_lk (s : State) (cause : Nat) :
    (isl (fencedFirst s 0 cause) 0).state = .fenced ∧ (fencedFirst s 0 cause).sys = s.sys ∧
    (fencedFirst s 0 cause).tick = s.tick := by
  have effects (b : Bool) (u : State) : (if b then fenceEffects u 0 else u).islands = u.islands ∧
      (if b then fenceEffects u 0 else u).sys = u.sys ∧ (if b then fenceEffects u 0 else u).tick = u.tick := by
    cases b
    · exact ⟨rfl, rfl, rfl⟩
    · have follows := fenceEffects_follows u 0
      exact ⟨follows.islands (by decide), follows.sys (by decide), follows.tick (by decide)⟩
  unfold fencedFirst
  dsimp only
  refine ⟨?_, (effects _ _).2.1.trans rfl, (effects _ _).2.2.trans rfl⟩
  rw [isl_of_islands (effects _ _).1, isl_updIsl_self]
  rfl

/-- The Lockkeeper's own island is fenced and the firmware answers. -/
theorem fenceIsland_lk {s : State} (cause : Nat) (can : canFence s 0 = true) :
    ∃ u, fenceIsland s 0 cause = answerLk u cause ∧ (isl u 0).state = .fenced ∧ u.sys = s.sys ∧
      u.tick = s.tick := by
  obtain ⟨here, sys, tick⟩ := fencedFirst_lk s cause
  refine ⟨raisePriv (postRec (fencedFirst s 0 cause) 0 0x05 0 (pack [(0, 0), (8, cause)]) 0) 0 19, ?_, ?_, ?_, ?_⟩
  · rw [fenceIsland, can]
    rfl
  · rw [isl_of_islands ((raisePriv_follows ..).islands (by decide)),
      isl_of_islands ((postRec_follows ..).islands (by decide)), here]
  · exact ((raisePriv_follows ..).sys (by decide)).trans (((postRec_follows ..).sys (by decide)).trans sys)
  · exact ((raisePriv_follows ..).tick (by decide)).trans (((postRec_follows ..).tick (by decide)).trans tick)

/-- R245 to R247: a parity error in the Lockkeeper restarts it. -/
theorem fenceIsland_parity_lk {s : State} (can : canFence s 0 = true) (commissioned : s.sys.commissioned = true)
    (few : (s.sys.restarts.filter (fun r => decide (ticksSince s r ≤ minute))).length < 2) :
    ∃ u, fenceIsland s 0 cPARITY = warmRestart u rcFENCEWARM ∧ u.sys.mode = s.sys.mode ∧
      u.sys.resetCause = s.sys.resetCause := by
  obtain ⟨u, is, -, sys, tick⟩ := fenceIsland_lk cPARITY can
  have since (r : Dword) : ticksSince u r = ticksSince s r := by rw [ticksSince, tick, ticksSince]
  refine ⟨onSys u (fun x => { x with
      restarts := u.tick :: u.sys.restarts.filter (fun r => decide (ticksSince u r ≤ minute)) }), ?_, ?_, ?_⟩
  · rw [is, answerLk]
    refine (if_neg (show ¬ cPARITY = cDEBUG by decide)).trans ((if_neg ?_).trans rfl)
    simp only [since, sys, commissioned, Bool.not_true, Bool.false_or, decide_eq_true_eq]
    omega
  · show u.sys.mode = s.sys.mode
    rw [sys]
  · show u.sys.resetCause = s.sys.resetCause
    rw [sys]

/-- Settles O29: each cause is a fence of its island, whose parts are `Fenced`; a crossing ends its
request beside it, and the Lockkeeper answers a fence of its own island by a warm restart. -/
theorem eachCauseFencesItsIsland : Obligations.EachCauseFencesItsIsland := by
  intro a k issuer s x held fences
  have takes {i : Instr} {cause : Nat} {quiet : Prop} {t : State} (run : exec i s = .next t)
      (f : FenceTakes s t k cause) (sys : quiet → t.sys = s.sys) : fences i cause quiet := by
    obtain ⟨state, which, epoch, total, told, others⟩ := f
    exact ⟨t, run, state, which, epoch, total, told, sys, others⟩
  refine ⟨fun can notLk => ?_, fun quiet => ?_, fun cannot => ?_, fun can commissioned few => ?_⟩
  · have simple {i : Instr} {cause : Nat} (run : exec i s = .next (fenceIsland s k cause)) :
        fences i cause True :=
      have fenced := fenced_fenceIsland cause can notLk
      takes run fenced.takes (fun _ => fenced.sys)
    refine ⟨?_, simple rfl, simple rfl, fun stretch => simple ?_, fun lost => simple ?_,
      fun fw out => simple ?_, simple rfl⟩
    · obtain ⟨t, run, f, sys⟩ := crossingTimeout_takes a issuer can notLk
      exact takes run f sys
    · exact congrArg Host.Outcome.next (if_pos stretch)
    · refine congrArg Host.Outcome.next (if_pos ?_)
      rw [Bool.or_eq_true, List.isEmpty_iff]
      exact lost
    · exact congrArg Host.Outcome.next ((issue_of_out out _).trans (if_pos fw))
  · exact congrArg Host.Outcome.next (if_neg (by rw [quiet]; decide))
  · have none (cause : Nat) : fenceIsland s k cause = s := fenceIsland_of_not cause cannot
    have same (c : Prop) [Decidable c] (cause : Nat) : (if c then fenceIsland s k cause else s) = s := by
      rw [none, ite_self]
    refine ⟨congrArg Host.Outcome.next (none _), congrArg Host.Outcome.next (none _),
      congrArg Host.Outcome.next (same _ _), congrArg Host.Outcome.next (same _ _),
      congrArg Host.Outcome.next (none _), fun fw => congrArg Host.Outcome.next ?_,
      crossingTimeout_of_not a issuer cannot⟩
    cases out : agentOut s a
    · exact issue_of_not_out out _
    · exact (issue_of_out out _).trans ((if_pos fw).trans (none _))
  · refine ⟨?_, ?_⟩
    · obtain ⟨u, is, mode, cause⟩ := fenceIsland_parity_lk can commissioned few
      obtain ⟨state, modeKept, noted⟩ := warmRestart_takes u rcFENCEWARM
      refine ⟨_, congrArg Host.Outcome.next is, state, modeKept.trans mode, noted.trans ?_⟩
      rw [cause]
      rfl
    · obtain ⟨u, is, state, sys, -⟩ := fenceIsland_lk cDEBUG can
      have answer : fenceIsland s 0 cDEBUG = restartRecoveries u := by
        rw [is, answerLk]
        exact if_pos rfl
      refine ⟨restartRecoveries u, congrArg Host.Outcome.next answer, ?_, ?_⟩
      · rw [isl_restartRecoveries_zero, state]
      · exact ((restartRecoveries_follows u).sys (by decide)).trans sys

end Sys2Proof.Machine
end

section
/-! PROOFS. The image commands, the one-time-programmable storage and RESET (R198, R199): the obligation
O24. -/
open Sys2Proof

namespace Sys2Proof.Machine

theorem caused_waiting (s : State) : (caused s).fw.waiting = s.fw.waiting := by
  unfold caused
  split
  · rfl
  · dsimp only
    split <;> rfl

/-- A failed write leaves the slot broken. -/
theorem flashBad_spoilSlot (s : State) (k : Nat) :
    ∃ n, Tab.find? (spoilSlot s k).flashBad k = some n ∧ n ≠ 0 :=
  ⟨_, Tab.find?_put_self .., by omega⟩

/-- The word that names an island (R199). -/
theorem resetWord (k : Fin 16) {w : Word} (names : w.toNat = 16 * k.val + 1) :
    bit w 0 = true ∧ fld w 4 4 = k ∧ rsv w 0xF1 = stOK := by
  have is : w = BitVec.ofNat 32 (16 * k.val + 1) := by
    apply BitVec.eq_of_toNat_eq
    rw [names, BitVec.toNat_ofNat]
    omega
  subst is
  clear names
  revert k
  decide

/-- RESET of an island fences it, and never holds it (R199, R280). -/
theorem isl_resetScope {s : State} (c : Cmd) {k : Fin 16} (notLk : k.val ≠ 0) (notHi : k.val ≠ 14)
    (up : running s k = true) (out : s.sys.inReset = false) :
    ∃ x : Island, isl (resetScope s c k) k = { x with
      recent := [], resetCmd := some c.mb, state := .fenced, cause := 6 } := by
  obtain ⟨u, is⟩ : ∃ u, updIsl s k (fun x => { x with recent := [] }) = u := ⟨_, rfl⟩
  have here : isl u k = { isl s k with recent := [] } := by rw [← is, isl_updIsl_self]
  have can : canFence u k = true := by
    have hi : k.val ≠ islHI := notHi
    have sys : u.sys = s.sys := by rw [← is]; rfl
    have runs : (isl s k).state = .running := of_decide_eq_true up
    rw [canFence, here, sys, out, runs, decide_eq_false hi]
    rfl
  have free : willHold u k = false := by
    rw [willHold, recentOf, here]
    rfl
  obtain ⟨y, after⟩ : ∃ y, isl (fenceIsland u k cCOMMAND) k = y := ⟨_, rfl⟩
  obtain ⟨state, cause, -⟩ := (fenced_fenceIsland cCOMMAND can notLk).takes
  rw [free, after] at state cause
  refine ⟨y, ?_⟩
  rw [resetScope, is, isl_updIsl_self, after, cause, state]
  rfl

/-- Settles O24: each command passes its checks and takes effect as its row says; the island that RESET
names is fenced (`isl_resetScope`). -/
theorem imageAndResetCommandsTakeEffect : Obligations.ImageAndResetCommandsTakeEffect := by
  intro mb tag w1 w2 flashOk readA readB readOk b s u r msg c i g code slot
  refine ⟨fun run block up read => ?write, fun run slots => ?confirm, fun run => ?rollback,
    fun run small => ?revoke, fun run => ?device, fun k notLk notHi names run up out => ?island⟩
  case write =>
    have reads (f : State → List Byte → Res) := (guarded_of_pass (s := u)
      (f := fun s => withSource s w1.toNat w2.toNat f)
      (.cons (shape_plain rfl : (c 0x50 [w1, w2]).shape 2 0 = stOK)
        (.cons block (.cons (needs_of up) .nil)))).trans (withSource_of_read f read)
    refine ⟨fun bad => ?_, fun good flash => ?_, fun good flash => ?_⟩
    · exact replies_of_done run rfl rfl ((reads _).trans (if_pos bad))
    · refine replies_of_done run rfl rfl ((reads _).trans ((if_neg (not_not.mpr good)).trans ?_))
      exact if_pos flash
    · refine ⟨spoilSlot r slot, replies_of_done run rfl rfl
        ((reads _).trans ((if_neg (not_not.mpr good)).trans (if_neg ?_))), flashBad_spoilSlot r slot, rfl, rfl⟩
      rw [flash]
      decide
  case confirm =>
    have passes : Pass [(c 0x51 [w1]).shape 1 0,
        need (decide (w1.toNat = 1) || decide (w1.toNat = 2)) stBAD_ARG] := by
      refine .cons (shape_plain rfl) (.cons (need_of ?_ _) .nil)
      rcases slots with rfl | rfl <;> rfl
    refine ⟨fun up => ?_, fun off => ?_⟩
    · obtain ⟨shape, rest⟩ := List.forall_mem_cons.mp passes
      obtain ⟨named, -⟩ := List.forall_mem_cons.mp rest
      exact replies_of_done run rfl rfl
        (guarded_of_pass (.cons shape (.cons named (.cons (needs_one up) .nil))))
    · refine replies_of_done run rfl rfl (guarded_of_fail
        ((firstFail_of_pass passes _).trans (firstFail_of_need ?_ (by decide))) (by decide))
      rw [List.all_cons, off]
      rfl
  case rollback =>
    have shape : Pass [(c 0x52 [w1]).shape 1 0] := .cons (shape_plain rfl) .nil
    refine ⟨fun beyond => ?_, fun within => ?_⟩
    · exact replies_of_done run rfl rfl (guarded_of_fail ((firstFail_of_pass shape _).trans
        (firstFail_of_need (decide_eq_false (Nat.not_le.mpr beyond)) (by decide))) (by decide))
    · intro v
      have larger : (if u.otp.rollback.toNat < w1.toNat then w1 else u.otp.rollback) = v := by
        apply BitVec.eq_of_toNat_eq
        have : w1.toNat < 2 ^ 32 := w1.isLt
        have : u.otp.rollback.toNat < 2 ^ 32 := u.otp.rollback.isLt
        rw [show v.toNat = max w1.toNat u.otp.rollback.toNat % 2 ^ 32 from BitVec.toNat_ofNat ..]
        split <;> omega
      refine replies_of_done run rfl rfl ((guarded_of_pass (.cons (shape_plain rfl)
        (.cons (need_of (decide_eq_true within) _) .nil))).trans ?_)
      rw [← larger]
      rfl
  case revoke =>
    intro revoked
    have key : fld ((c 0x53 [w1]).w 1) 0 2 = w1.toNat := fld_of_lt small
    have passes : Pass [(c 0x53 [w1]).shape 1 0, rsv w1 3] :=
      .cons (shape_plain rfl) (.cons (rsv_of_lt (n := 2) small) .nil)
    refine ⟨fun bad => ?_, fun other some' => ?_⟩
    · refine replies_of_done run rfl rfl (guarded_of_fail
        ((firstFail_of_pass passes _).trans (firstFail_of_need ?_ (by decide))) (by decide))
      rw [key]
      rcases bad with same | all
      · simp [same]
      · simp [show setBit u.otp.revoked w1.toNat true = 0xF from all]
    · refine replies_of_done run rfl rfl ((guarded_of_pass (.cons (shape_plain rfl)
        (.cons (rsv_of_lt (n := 2) small) (.cons (need_of ?_ _) .nil)))).trans ?_)
      · rw [key, decide_eq_true other, decide_eq_true some']
        rfl
      · rw [key]
        rfl
  case device =>
    have passes : Pass [(c 0x54 [0]).shape 1 0, rsv (0 : Word) 0xF1,
        need (!(bit (0 : Word) 0 && (decide (fld (0 : Word) 4 4 = 0) || decide (fld (0 : Word) 4 4 = 14))))
          stBAD_ARG] := .cons (shape_plain rfl) (.cons (by decide) (.cons (by decide) .nil))
    have device : ¬ bit (0 : Word) 0 = true := by decide
    have record : (!bit (([0] : List Word).headD 0) 0) = true := by decide
    refine (command_of_executes (rec := !bit (([0] : List Word).headD 0) 0) (record ▸ run) _).trans
      (congrArg Host.Outcome.next ?_)
    have silent {r : Res} (is : r = .silent (deviceReset u rcHOST)) :
        caused (finish (c 0x54 [0]) (faulting false u r)) = deviceReset u 2 := by
      rw [is]
      rfl
    exact silent ((guarded_of_pass passes).trans (if_neg device))
  case island =>
    obtain ⟨isle, which, reserved⟩ := resetWord k names
    obtain ⟨x, here⟩ := isl_resetScope (c 0x54 [w1]) notLk notHi up out
    have passes : Pass [(c 0x54 [w1]).shape 1 0, rsv w1 0xF1,
        need (!(bit w1 0 && (decide (fld w1 4 4 = 0) || decide (fld w1 4 4 = 14)))) stBAD_ARG] := by
      refine .cons (shape_plain rfl) (.cons reserved (.cons (need_of ?_ _) .nil))
      rw [which, decide_eq_false notLk, decide_eq_false notHi, isle]
      rfl
    have record : (!bit (([w1] : List Word).headD 0) 0) = false := by
      rw [Bool.not_eq_false']
      exact isle
    have done := exec_of_wait (rec := !bit (([w1] : List Word).headD 0) 0)
      (i := .resetCommand mb (msg [w1])) (record ▸ run) rfl rfl ((guarded_of_pass passes).trans (if_pos isle))
    rw [show fld ((c 0x54 [w1]).w 1) 4 4 = k from which] at done
    have kept : isl (caused (onFw (resetScope u (c 0x54 [w1]) k) (fun f => { f with
        waiting := Tab.put f.waiting mb (.reset (c 0x54 [w1]).header (c 0x54 [w1]).crc k) }))) k =
        isl (resetScope u (c 0x54 [w1]) k) k :=
      isl_of_islands (((caused_follows _).islands (by decide)).trans
        ((onFw_follows (resetScope u (c 0x54 [w1]) k) _).islands (by decide))) k
    refine ⟨_, done, ?_, ?_, ?_, ?_, (c 0x54 [w1]).header, (c 0x54 [w1]).crc, ?_⟩
    · rw [kept, here]
    · rw [kept, here]
    · rw [kept, here]
    · rw [kept, here]
      rfl
    · rw [caused_waiting]
      exact Tab.find?_put_self ..

end Sys2Proof.Machine
end

section
/-! PROOFS. The way back from a fence (R246, R276, R283 to R286): the obligation O30. -/
open Sys2Proof

namespace Sys2Proof.Machine

/-! ### A reset (R283) -/

/-- A reset of a bank keeps what Basin stores. -/
theorem basin_wipeBank (s : State) (b : Nat) :
    (wipeBank s b).basin.bytes = s.basin.bytes ∧ (wipeBank s b).basin.tags = s.basin.tags := by
  have settled (t : State) : (weirSettle { t with weir := {} }).basin = t.basin :=
    (weirSettle_follows ..).basin (by decide)
  unfold wipeBank
  dsimp only
  split
  · rw [settled]
    exact ⟨rfl, rfl⟩
  · exact ⟨rfl, rfl⟩

theorem basin_wipe (s : State) (i : Nat) :
    (wipe s i).basin.bytes = s.basin.bytes ∧ (wipe s i).basin.tags = s.basin.tags := by
  have same {t : State} (h : t.basin = s.basin) : t.basin.bytes = s.basin.bytes ∧ t.basin.tags = s.basin.tags := by
    rw [h]
    exact ⟨rfl, rfl⟩
  have decks : ((decksOf i).foldl wipeDeck s).basin = s.basin :=
    List.foldlRecOn (motive := fun t => t.basin = s.basin) _ _ rfl
      (fun t kept n _ => ((wipeDeck_follows t n).basin (by decide)).trans kept)
  unfold wipe
  split
  · exact same decks
  · exact same decks
  · exact same ((wipeTp_follows ..).basin (by decide))
  · exact same ((wipeCv_follows ..).basin (by decide))
  · exact basin_wipeBank ..
  · exact basin_wipeBank ..
  · exact basin_wipeBank ..
  · exact basin_wipeBank ..
  · exact same ((wipeSl_follows ..).basin (by decide))
  · exact same ((wipeTl_follows ..).basin (by decide))
  · exact same ((wipeTl_follows ..).basin (by decide))
  · exact same ((wipeTl_follows ..).basin (by decide))
  · exact same ((wipeTl_follows ..).basin (by decide))
  · exact same ((agentReset_follows ..).basin (by decide))
  · exact same ((wipePi_follows ..).basin (by decide))
  · exact ⟨rfl, rfl⟩

/-- One island takes a value, and the others stay. -/
structure IslandGets (s t : State) (k : Nat) (y : Island) : Prop where
  self : isl t k = y
  others : ∀ j, j ≠ k → isl t j = isl s j

theorem islandGets_updIsl (s : State) (k : Nat) (f : Island → Island) :
    IslandGets s (updIsl s k f) k (f (isl s k)) :=
  ⟨isl_updIsl_self .., fun _ other => isl_updIsl_of_ne _ _ other⟩

theorem IslandGets.of_islands {s t u : State} {k : Nat} {y : Island} (g : IslandGets s t k y)
    (h : u.islands = t.islands) : IslandGets s u k y :=
  ⟨(isl_of_islands h k).trans g.self, fun j other => (isl_of_islands h j).trans (g.others j other)⟩

theorem IslandGets.trans {s t u : State} {k : Nat} {x y : Island} (g : IslandGets s t k x)
    (h : IslandGets t u k y) : IslandGets s u k y :=
  ⟨h.self, fun j other => (h.others j other).trans (g.others j other)⟩

theorem IslandGets.refl (s : State) (k : Nat) : IslandGets s s k (isl s k) := ⟨rfl, fun _ _ => rfl⟩

theorem resetIsland_of_fenced {s : State} {k : Nat} (notLk : k ≠ 0) (fenced : (isl s k).state = .fenced) :
    resetIsland s k = wipe (updIsl s k (fun x => { x with state := .inReset })) k :=
  if_pos ⟨notLk, fenced⟩

theorem resetIsland_of_not {s : State} {k : Nat} (h : k = 0 ∨ (isl s k).state ≠ .fenced) :
    resetIsland s k = s :=
  if_neg fun both => h.elim both.1 (· both.2)

/-! ### The release (R286) -/

/-- An entry of a marker ahead of the release changes only the list of marked moorings. -/
theorem islandGets_premark (k : Nat) (s : State) (n : Nat) :
    ∃ l, IslandGets s (premark k s n) k { isl s k with marked := l } := by
  have kept : IslandGets s s k { isl s k with marked := (isl s k).marked } := .refl s k
  unfold premark
  split
  · exact ⟨_, kept⟩
  · split
    · exact ⟨_, kept⟩
    next m _ =>
      dsimp only
      have same := (putMarker_follows s n m { markerRec s k (isl s k).epoch (handleOf s tMOORING n) with
        epoch := (isl s k).epoch + 1 }).islands (by decide)
      split
      next t put =>
        rw [put] at same
        have step := islandGets_updIsl t k (fun x => { x with marked := x.marked ++ [n] })
        rw [isl_of_islands same] at step
        exact ⟨_, (kept.of_islands same).trans step⟩
      next t put =>
        rw [put] at same
        exact ⟨_, kept.of_islands same⟩

theorem islandGets_premarks (s : State) (k : Nat) :
    ∃ l, IslandGets s (premarks s k) k { isl s k with marked := l } := by
  unfold premarks
  refine List.foldlRecOn (motive := fun t => ∃ l, IslandGets s t k { isl s k with marked := l }) _ _
    ⟨(isl s k).marked, .refl s k⟩ fun t sofar n _ => ?_
  obtain ⟨l, g⟩ := sofar
  obtain ⟨l', g'⟩ := islandGets_premark k t n
  refine ⟨l', g.trans ?_⟩
  rw [g.self] at g'
  exact g'

theorem islandGets_leaveFence (s : State) (k : Nat) :
    IslandGets s (leaveFence s k) k { isl s k with
      state := .running, epoch := (isl s k).epoch + 1, marked := [] } := by
  have first := islandGets_updIsl s k (fun x => { x with state := .running, epoch := x.epoch + 1 })
  obtain ⟨t, is⟩ : ∃ t, postMarkers (updIsl s k (fun x => { x with state := .running, epoch := x.epoch + 1 }))
    k (isl s k).epoch = t := ⟨_, rfl⟩
  have marked := first.of_islands (is ▸ (postMarkers_follows ..).islands (by decide))
  have last := islandGets_updIsl t k (fun x => { x with marked := [] })
  rw [marked.self] at last
  unfold leaveFence
  dsimp only
  rw [is]
  exact (marked.trans last).of_islands ((postRec_follows ..).islands (by decide))

theorem islandGets_resetReply (s : State) (k st : Nat) :
    IslandGets s (resetReply s k st) k { isl s k with resetCmd := none } := by
  refine ⟨?_, fun j other => isl_resetReply_of_ne s st other⟩
  unfold resetReply
  split
  next asked =>
    rw [← asked]
  next =>
    dsimp only
    split
    · exact (isl_of_islands ((endWaiting_follows ..).islands (by decide)) k).trans (isl_updIsl_self ..)
    · exact isl_updIsl_self ..

/-- A release: the island runs, its epoch counts up, and the RESET command that waited is answered. -/
theorem islandGets_releaseIsland (s : State) (k : Nat) :
    IslandGets s (releaseIsland s k) k { isl s k with
      state := .running, epoch := (isl s k).epoch + 1, resetCmd := none, marked := [] } := by
  have released {u : State} (same : u.islands = s.islands) (b : Bool) :
      IslandGets s (caused (resetReply (releaseEffects (leaveFence u k) k b) k stOK)) k { isl s k with
        state := .running, epoch := (isl s k).epoch + 1, resetCmd := none, marked := [] } := by
    obtain ⟨v, is⟩ : ∃ v, releaseEffects (leaveFence u k) k b = v := ⟨_, rfl⟩
    have left := (islandGets_leaveFence u k).of_islands
      (is ▸ (releaseEffects_follows (leaveFence u k) k b).islands (by decide))
    have answered := islandGets_resetReply v k stOK
    rw [left.self] at answered
    have done := (left.trans answered).of_islands ((caused_follows _).islands (by decide))
    rw [is]
    refine ⟨done.self.trans ?_, fun j other => (done.others j other).trans (isl_of_islands same j)⟩
    rw [isl_of_islands same]
  unfold releaseIsland
  dsimp only
  split
  next m _ => exact released (u := causes s m) ((causes_follows s m).islands (by decide)) _
  next => exact released (u := s) rfl _

/-- A release after the markers ahead of it. -/
theorem islandGets_release_premarks (s : State) (k : Nat) :
    IslandGets s (releaseIsland (premarks s k) k) k { isl s k with
      state := .running, epoch := (isl s k).epoch + 1, resetCmd := none, marked := [] } := by
  obtain ⟨l, g⟩ := islandGets_premarks s k
  have h := islandGets_releaseIsland (premarks s k) k
  rw [g.self] at h
  exact g.trans h

/-! ### O30 -/

/-- An agent of the firmware reaches the control registers while the Lockkeeper's core runs. -/
theorem isReach_of_running {s : State} {a : Agent} (ad : Nat) (f : State → State) (fw : fwAgent a = true)
    (up : running s 0 = true) : isReach s a ad f = f s := by
  have out : agentOut s a = true := by
    have : a = 2 ∨ a = 15 := by revert fw a; decide
    rcases this with rfl | rfl
    · exact up
    · rfl
  exact (issue_of_out out _).trans (if_pos fw)

theorem isReach_of_same {s : State} {a : Agent} (ad : Nat) {f : State → State} (fw : fwAgent a = true)
    (same : f s = s) : isReach s a ad f = s := by
  cases out : agentOut s a
  · exact issue_of_not_out out _
  · exact (issue_of_out out _).trans ((if_pos fw).trans same)

theorem controlReset_of_not {s : State} {a k : Nat}
    (h : running s 0 = false ∨ k = 0 ∨ (isl s k).state ≠ .fenced ∨
      (a = 2 ∧ (recovering s = true ∨ recoveryOrder.find? (recoverable s) ≠ some k))) :
    controlReset s a k = s := by
  unfold controlReset
  split
  · rfl
  next up =>
    split
    · rfl
    next may =>
      refine resetIsland_of_not ?_
      rcases h with off | lk | other | busy
      · exact absurd (show (!running s 0) = true by rw [off]; rfl) up
      · exact .inl lk
      · exact .inr other
      · exact absurd busy may

theorem controlReset_of_may {s : State} {a k : Nat} (up : running s 0 = true)
    (may : ¬ (a = 2 ∧ (recovering s = true ∨ recoveryOrder.find? (recoverable s) ≠ some k))) :
    controlReset s a k = resetIsland s k := by
  refine (if_neg (c := (!running s 0) = true) ?_).trans (if_neg may)
  rw [up]
  decide

theorem controlRelease_of_may {s : State} {a k : Nat} (up : running s 0 = true) (notLk : k ≠ 0)
    (may : (isl s k).state = .restoring ∨ ((isl s k).state = .fenced ∧ ¬ (a = 2 ∧ (isl s k).cause.toNat = cDEBUG))) :
    controlRelease s a k = firmwareRelease s k := by
  unfold controlRelease
  rw [if_neg (by rintro (lk | off); exacts [notLk lk, absurd (up.symm.trans off) (by decide)])]
  rcases may with restoring | ⟨fenced, may⟩
  · rw [restoring]
  · rw [fenced]
    exact if_neg may

theorem controlRelease_of_not {s : State} {a k : Nat}
    (h : running s 0 = false ∨ k = 0 ∨ (isl s k).state = .held ∨ (isl s k).state = .inReset ∨
      (isl s k).state = .running ∨ ((isl s k).state = .fenced ∧ a = 2 ∧ (isl s k).cause.toNat = cDEBUG)) :
    controlRelease s a k = s := by
  unfold controlRelease
  split
  · rfl
  next up =>
    rcases h with off | lk | held | reset | runs | ⟨fenced, both⟩
    · exact absurd (.inr off) up
    · exact absurd (.inl lk) up
    · rw [held]
    · rw [reset]
    · rw [runs]
    · rw [fenced]
      exact if_pos both

/-- Settles O30: every step of the way back gives its island its next state and leaves the others
(`IslandGets`), and a reset keeps what Basin stores (`basin_wipe`). -/
theorem aFencedIslandIsResetRestoredAndReleased : Obligations.AFencedIslandIsResetRestoredAndReleased := by
  intro a k s x others
  have byJtag : x.cause = 7 ↔ x.cause.toNat = cDEBUG :=
    ⟨fun h => by rw [h]; rfl, fun h => BitVec.eq_of_toNat_eq h⟩
  have released {i : Instr} {t : State} {y : Island} (run : exec i s = .next t) (g : IslandGets s t k y) :
      ∃ t, exec i s = .next t ∧ isl t k = y ∧ others t := ⟨t, run, g.self, g.others⟩
  refine ⟨fun fw up notLk fenced may => ?_, fun fw not => ?_, fun reset up => ?_, fun fw up notLk may => ?_,
    fun fw not => ?_, fun fenced cause not => ?_, fun fenced cause lk reloading => ?_, fun not => ?_⟩
  · have allowed : ¬ (a.val = 2 ∧ (recovering s = true ∨ recoveryOrder.find? (recoverable s) ≠ some k.val)) := by
      rintro ⟨two, busy⟩
      rcases may with debugger | ⟨idle, next⟩
      · omega
      · rcases busy with busy | other
        · exact absurd (busy.symm.trans idle) (by decide)
        · exact other next
    have run : exec (.isControlReset a k) s = .next (wipe (updIsl s k (fun x => { x with state := .inReset })) k) :=
      congrArg Host.Outcome.next ((isReach_of_running _ _ fw up).trans
        ((controlReset_of_may up allowed).trans (resetIsland_of_fenced notLk fenced)))
    have g := (islandGets_updIsl s k (fun x => { x with state := .inReset })).of_islands
      ((wipe_follows _ k).islands (by decide))
    obtain ⟨bytes, tags⟩ := basin_wipe (updIsl s k (fun x => { x with state := .inReset })) k
    exact ⟨_, run, g.self, g.others, bytes, tags⟩
  · exact congrArg Host.Outcome.next (isReach_of_same _ fw (controlReset_of_not not))
  · have may : (decide (x.state = .inReset) && running s islLK) = true := by
      rw [decide_eq_true reset]
      exact up
    exact released (congrArg Host.Outcome.next (if_pos may))
      ((islandGets_updIsl s k (fun x => { x with state := .restoring })).of_islands
        ((restore_follows _ k).islands (by decide)))
  · have run : exec (.isControlRelease a k) s = .next (firmwareRelease s k) := by
      refine congrArg Host.Outcome.next ((isReach_of_running _ _ fw up).trans (controlRelease_of_may up notLk ?_))
      refine may.imp_right fun ⟨fenced, may⟩ => ⟨fenced, fun ⟨two, cause⟩ => ?_⟩
      rcases may with debugger | other
      · omega
      · exact other (byJtag.mpr cause)
    refine ⟨fun marked => ?_, fun unmarked => ?_⟩
    · exact released (run.trans (congrArg Host.Outcome.next (if_pos marked))) (islandGets_release_premarks s k)
    · refine run.trans (congrArg Host.Outcome.next (if_neg ?_))
      rw [unmarked]
      decide
  · refine congrArg Host.Outcome.next (isReach_of_same _ fw (controlRelease_of_not ?_))
    rwa [← byJtag]
  · have may : (decide (x.state = .fenced) && decide (x.cause.toNat = cDEBUG)) = true := by
      rw [decide_eq_true fenced, decide_eq_true (byJtag.mp cause)]
      rfl
    have back : ¬ (k = 0 ∧ s.sys.reloading = true) := by
      rintro ⟨lk, reloading⟩
      rcases not with other | done
      · exact other (congrArg Fin.val lk)
      · exact absurd (reloading.symm.trans done) (by decide)
    have run : exec (.jtagFenceRelease k) s =
        .next (releaseIsland (if running s islLK then premarks s k else s) k) :=
      congrArg Host.Outcome.next ((if_pos may).trans (if_neg back))
    refine released run ?_
    split
    · exact islandGets_release_premarks s k
    · exact islandGets_releaseIsland s k
  · have may : (decide (x.state = .fenced) && decide (x.cause.toNat = cDEBUG)) = true := by
      rw [decide_eq_true fenced, decide_eq_true (byJtag.mp cause)]
      rfl
    have zero : k = 0 := Fin.ext lk
    subst zero
    have g := islandGets_updIsl s 0 (fun x => { x with state := .restoring })
    exact ⟨updIsl s 0 (fun x => { x with state := .restoring }),
      congrArg Host.Outcome.next ((if_pos may).trans (if_pos ⟨rfl, reloading⟩)), g.self, g.others, rfl⟩
  · have not' : ¬ (decide (x.state = .fenced) && decide (x.cause.toNat = cDEBUG)) = true := by
      rw [Bool.and_eq_true, decide_eq_true_iff, decide_eq_true_iff, ← byJtag]
      rintro ⟨fenced, cause⟩
      exact not.elim (· fenced) (· cause)
    exact congrArg Host.Outcome.next (if_neg not')

end Sys2Proof.Machine
end

section
/-! PROOFS. The Lockkeeper watchdog (R71): the refutation of O11. -/
open Sys2Proof

namespace Sys2Proof.Machine

/-- A device that is held in reset, with the Lockkeeper watchdog armed: no reachable state, and one that
O11 speaks of. -/
def armedInReset : State := { sys := { inReset := true, wdtArmed := true } }

/-- Refutes O11: nothing is fenced while a device-level reset is asserted (`canFence`), so there the
watchdog's expiry resets nothing, and leaves the watchdog armed. -/
theorem not_theLockkeeperWatchdogRestartsTheLockkeeper :
    ¬ Obligations.TheLockkeeperWatchdogRestartsTheLockkeeper := by
  intro holds
  obtain ⟨-, expiry, -⟩ := holds 2 ⟨true, true, none⟩ true armedInReset
  obtain ⟨t, run, -, device, -⟩ := expiry rfl rfl
  obtain ⟨sys, -⟩ := device (.inl rfl)
  obtain ⟨late, is⟩ : ∃ late, atTick armedInReset (armedInReset.sys.wdtStart.toNat + 50000000) = late := ⟨_, rfl⟩
  have kept : late.sys = armedInReset.sys := is ▸ (atTick_follows ..).sys (by decide)
  have stays : exec .lkWatchdogExpiry armedInReset = .next late := by
    have cannot : canFence late 0 = false := by
      rw [canFence, kept]
      exact Bool.and_false _
    rw [← fenceIsland_of_not cWATCHDOG cannot, ← is]
    exact congrArg Host.Outcome.next (if_pos rfl)
  have same : t = late := Host.Outcome.next.inj (run.symm.trans stays)
  have armed : t.sys.wdtArmed = true := by rw [same, kept]; rfl
  rw [sys] at armed
  exact absurd armed (by decide)

end Sys2Proof.Machine
end

section
/-! PROOFS. Droops, temperatures and the loops (chapter 06, R264 to R274): the obligations O31 and O32. -/
open Sys2Proof

namespace Sys2Proof.Machine

/-! ### Droops and temperatures -/

/-- What a droop of 30 mV notes. -/
theorem droop_notes (x : Island) (depth : BitVec 8) (tick : Dword) :
    (let x : Island := { x with depthMv := if x.depthMv < depth then depth else x.depthMv }
     if x.stretch then x
     else { x with stretch := true, stretchStart := tick, stretchMark := tick, droopCount := satAdd x.droopCount 1 }) =
    { x with
      depthMv := if x.depthMv < depth then depth else x.depthMv, stretch := true,
      stretchStart := if x.stretch then x.stretchStart else tick,
      stretchMark := if x.stretch then x.stretchMark else tick,
      droopCount := if x.stretch then x.droopCount else satAdd x.droopCount 1 } := by
  obtain ⟨stretch, is⟩ : ∃ b, x.stretch = b := ⟨_, rfl⟩
  cases stretch
  · simp only [is, Bool.false_eq_true, if_false]
  · simp only [is, if_true]

theorem any_range_eq_exists (n : Nat) (p : Nat → Prop) [DecidablePred p] :
    (List.range n).any (fun j => decide (p j)) = decide (∃ j : Fin n, p j) := by
  rw [Bool.eq_iff_iff, List.any_eq_true, decide_eq_true_iff]
  constructor
  · rintro ⟨j, small, holds⟩
    exact ⟨⟨j, List.mem_range.mp small⟩, of_decide_eq_true holds⟩
  · rintro ⟨j, holds⟩
    exact ⟨j, List.mem_range.mpr j.isLt, decide_eq_true holds⟩

theorem all_range_eq_forall (n : Nat) (p : Nat → Prop) [DecidablePred p] :
    (List.range n).all (fun j => decide (p j)) = decide (∀ j : Fin n, p j) := by
  rw [Bool.eq_iff_iff, List.all_eq_true, decide_eq_true_iff]
  constructor
  · intro holds j
    exact of_decide_eq_true (holds j (List.mem_range.mpr j.isLt))
  · intro holds j small
    exact decide_eq_true (holds ⟨j, List.mem_range.mp small⟩)

/-- Settles O31: each command is its row's update, of which `droop_notes` says what a droop notes. -/
theorem droopsAndTemperaturesAreAnswered : Obligations.DroopsAndTemperaturesAreAnswered := by
  intro k depth temp s x own read hot cool level noted
  have owns : ownClock k = own := by
    show (decide (k.val < 10) || decide (k.val = 15)) = decide (k.val < 10 ∨ k.val = 15)
    rw [Bool.decide_or]
  have notes : noteTemp s k temp = noted := by
    unfold noteTemp
    dsimp only
    rw [any_range_eq_exists 16 (fun j => 290 ≤ (isl read j).temp.toInt),
      all_range_eq_forall 16 (fun j => (isl read j).temp.toInt < 280)]
    rfl
  refine ⟨fun mine deep => ?_, fun not => ?_, fun stretched => ?_, fun stretched => ?_, ?_, fun high => ?_⟩
  · refine congrArg Host.Outcome.next ((if_neg ?_).trans ?_)
    · rw [owns, show own = true from mine, decide_eq_false (Nat.not_lt.mpr deep)]
      decide
    · exact congrArg (updIsl s k) (funext fun x => droop_notes x depth s.tick)
  · refine congrArg Host.Outcome.next (if_pos ?_)
    rw [owns, Bool.or_eq_true, Bool.not_eq_true', decide_eq_true_iff]
    exact not
  · exact congrArg Host.Outcome.next (if_pos stretched)
  · exact congrArg Host.Outcome.next (if_pos stretched)
  · exact congrArg Host.Outcome.next notes
  · refine congrArg Host.Outcome.next ?_
    dsimp only
    rw [notes, if_neg (Int.not_le.mpr high), owns]

/-! ### What the loops leave of the islands -/

section
variable {α : Type} (g : Island → α)

theorem kept_updIsl {s : State} {k : Nat} {f : Island → Island} (same : ∀ x, g (f x) = g x) (j : Nat) :
    g (isl (updIsl s k f) j) = g (isl s j) := by
  by_cases here : j = k
  · subst here
    rw [isl_updIsl_self, same]
  · rw [isl_updIsl_of_ne _ _ here]

theorem kept_foldl {β : Type} (step : State → β → State)
    (same : ∀ s b j, g (isl (step s b) j) = g (isl s j)) (l : List β) (s : State) (j : Nat) :
    g (isl (l.foldl step s) j) = g (isl s j) :=
  List.foldlRecOn (motive := fun t => g (isl t j) = g (isl s j)) _ _ rfl
    (fun t kept b _ => (same t b j).trans kept)

theorem kept_capRefused (s : State) (rail needMv : Nat)
    (act : ∀ x : Island, g { x with capAct := x.capMv, capOver := x.capOver && x.capAct = x.capMv } = g x)
    (marks : ∀ (x : Island) (b : Bool), g { x with capOver := b } = g x) (j : Nat) :
    g (isl (capRefused s rail needMv) j) = g (isl s j) := by
  have taken (t : State) : g (isl (takeCaps t rail) j) = g (isl t j) := by
    refine kept_foldl g _ (fun t i j => ?_) _ t j
    split
    · exact kept_updIsl g act j
    · rfl
  have checked (t : State) (i j : Nat) : g (isl (capCheck needMv t i) j) = g (isl t j) := by
    unfold capCheck
    dsimp only
    refine (kept_updIsl g (fun x => marks x _) j).trans ?_
    split
    · exact congrArg g (isl_of_islands ((policyConflict_follows ..).islands (by decide)) j)
    · rfl
  unfold capRefused
  dsimp only
  split
  · exact (kept_foldl g _ checked _ _ j).trans (taken s)
  · exact taken s
end

/-- The margins of a step are noted in their islands. -/
theorem worstPs_noteMargins (l : List (Nat × Int)) (distinct : (l.map (·.1)).Nodup) (s : State) :
    ∀ p ∈ l, (isl (l.foldl (fun s p => noteMargin s p.1 p.2) s) p.1).worstPs = marginField p.2 := by
  induction l generalizing s with
  | nil => nofun
  | cons q l ih =>
    obtain ⟨fresh, rest⟩ := List.nodup_cons.mp distinct
    intro p hp
    rcases List.mem_cons.mp hp with rfl | later
    · have other : isl (l.foldl (fun s p => noteMargin s p.1 p.2) (noteMargin s p.1 p.2)) p.1 =
          isl (noteMargin s p.1 p.2) p.1 :=
        List.foldlRecOn (motive := fun t => isl t p.1 = isl (noteMargin s p.1 p.2) p.1) _ _ rfl
          (fun t kept q hq => by
            have other : p.1 ≠ q.1 := fun e => fresh (List.mem_map.mpr ⟨q, hq, e.symm⟩)
            exact (isl_updIsl_of_ne _ _ other).trans kept)
      rw [List.foldl_cons, other, noteMargin, isl_updIsl_self]
    · exact ih rest _ p later

theorem follows_noteMargins (l : List (Nat × Int)) (s : State) :
    Follows [.islands] s (l.foldl (fun s p => noteMargin s p.1 p.2) s) :=
  List.foldlRecOn (motive := fun t => Follows [.islands] s t) _ _ (.refl _ s)
    (fun _ h q _ => .after (noteMargin_follows _ q.1 q.2) (by decide) h)

/-! ### The ceiling of a rail (R273, R274) -/

theorem capAct_takeCaps_list (l : List Nat) (s : State) (j : Nat) :
    (isl (l.foldl (fun s i =>
      if running s i then updIsl s i (fun x => { x with capAct := x.capMv, capOver := x.capOver && x.capAct = x.capMv })
      else s) s) j).capAct = if j ∈ l ∧ running s j = true then (isl s j).capMv else (isl s j).capAct := by
  induction l generalizing s with
  | nil => rw [if_neg (by simp)]; rfl
  | cons i l ih =>
    rw [List.foldl_cons, ih]
    split
    next up =>
      have capMv := kept_updIsl (s := s) (k := i) (·.capMv) (f := fun x => { x with
        capAct := x.capMv, capOver := x.capOver && x.capAct = x.capMv }) (fun _ => rfl) j
      have state := kept_updIsl (s := s) (k := i) (·.state) (f := fun x => { x with
        capAct := x.capMv, capOver := x.capOver && x.capAct = x.capMv }) (fun _ => rfl) j
      rw [running, state, capMv]
      by_cases here : j = i
      · subst here
        rw [isl_updIsl_self, ite_self, if_pos ⟨List.mem_cons_self .., up⟩]
      · rw [isl_updIsl_of_ne _ _ here]
        exact if_congr (by simp [here, running]) rfl rfl
    next off =>
      refine if_congr ?_ rfl rfl
      constructor
      · rintro ⟨member, up⟩
        exact ⟨List.mem_cons_of_mem _ member, up⟩
      · rintro ⟨member, up⟩
        refine ⟨(List.mem_cons.mp member).resolve_left ?_, up⟩
        rintro rfl
        exact off up

theorem railCap_congr {s t : State} (rail : Nat) (same : ∀ j, (isl t j).capAct = (isl s j).capAct) :
    railCap t rail = railCap s rail := by
  unfold railCap
  simp only [same]

/-- Noting a margin leaves the caps. -/
theorem railCap_takeCaps_noted {s t : State} (rail : Nat) (mv : ∀ j, (isl t j).capMv = (isl s j).capMv)
    (act : ∀ j, (isl t j).capAct = (isl s j).capAct) (state : ∀ j, (isl t j).state = (isl s j).state) (r : Nat) :
    railCap (takeCaps t rail) r = railCap (takeCaps s rail) r := by
  refine railCap_congr r fun j => ?_
  rw [takeCaps, takeCaps, capAct_takeCaps_list, capAct_takeCaps_list, mv, act, running, state]
  rfl

theorem railCap_le (s : State) (rail : Nat) : railCap s rail ≤ 900 := by
  refine List.foldlRecOn (motive := fun m => m ≤ 900) _ _ (Nat.le_refl 900) fun m small i _ => ?_
  dsimp only
  split
  · exact small
  · omega

/-- What a rail's registers are once its caps are taken. -/
theorem railOf_capRefused (s : State) (rail needMv : Nat) :
    railOf (capRefused s rail needMv) rail = { railOf s rail with
      ceilMv := BitVec.ofNat 10 (railCeil (takeCaps s rail) rail needMv) } := by
  have taken : (takeCaps s rail).rails = s.rails := (takeCaps_follows ..).rails (by decide)
  have first (f : Rail → Rail) : railOf (updRail (takeCaps s rail) rail f) rail = f (railOf s rail) := by
    rw [railOf_updRail_self, railOf, taken, railOf]
  unfold capRefused
  dsimp only
  split
  · have checked (u : State) : ((railIslands 1).foldl (capCheck needMv) u).rails = u.rails :=
      List.foldlRecOn (motive := fun t => t.rails = u.rails) _ _ rfl
        (fun t kept i _ => ((capCheck_follows needMv t i).rails (by decide)).trans kept)
    rw [railOf, checked]
    exact first _
  · exact first _

theorem railOf_railAtMax (s : State) (rail now : Nat) (low : Option (Nat × Int)) :
    ∃ b, railOf (railAtMax s rail now low) rail = { railOf s rail with atMax := b } := by
  unfold railAtMax
  split
  · split
    · refine ⟨true, ?_⟩
      rw [railOf, (loopWarning_follows ..).rails (by decide)]
      exact railOf_updRail_self ..
    · exact ⟨(railOf s rail).atMax, rfl⟩
  · split
    · exact ⟨false, railOf_updRail_self ..⟩
    · exact ⟨(railOf s rail).atMax, rfl⟩

/-! ### The steps -/

theorem zip_all_snd {α : Type} (p : Int → Bool) (l : List α) (m : List Int) (same : m.length = l.length) :
    (l.zip m).all (fun q => p q.2) = m.all p := by
  have := List.all_map (l := l.zip m) (f := Prod.snd) (p := p)
  rwa [List.map_snd_zip (Nat.le_of_eq same), eq_comm] at this

theorem zip_any_snd {α : Type} (p : Int → Bool) (l : List α) (m : List Int) (same : m.length = l.length) :
    (l.zip m).any (fun q => p q.2) = m.any p := by
  have := List.any_map (l := l.zip m) (f := Prod.snd) (p := p)
  rwa [List.map_snd_zip (Nat.le_of_eq same), eq_comm] at this

theorem railIslands_nodup (rail : Nat) : (railIslands rail).Nodup := by
  unfold railIslands
  split <;> decide

/-- The state after the margins and the caps of a voltage step, and what it leaves (R271, R273). -/
theorem voltageStep_caps {s v : State} {rail : Fin 2} {margins : List Int} (needMv : Nat)
    (length : margins.length = (railIslands rail).length)
    (is : capRefused (((railIslands rail).zip margins).foldl (fun s p => noteMargin s p.1 p.2) s) rail needMv = v) :
    v.pi = s.pi ∧ v.out = s.out ∧
    railOf v rail = { railOf s rail with ceilMv := BitVec.ofNat 10 (railCeil (takeCaps s rail) rail needMv) } ∧
    ∀ p ∈ (railIslands rail).zip margins, (isl v p.1).worstPs = marginField p.2 := by
  obtain ⟨u, noted⟩ : ∃ u, ((railIslands rail).zip margins).foldl (fun s p => noteMargin s p.1 p.2) s = u := ⟨_, rfl⟩
  have kept : Follows [.islands] s u := noted ▸ follows_noteMargins _ s
  have same {α : Type} (g : Island → α) (h : ∀ (x : Island) (m : Int), g { x with
      worstPs := marginField m,
      minPs := if (marginField m).toInt < x.minPs.toInt then marginField m else x.minPs } = g x) (j : Nat) :
      g (isl u j) = g (isl s j) :=
    noted ▸ kept_foldl g _ (fun t p j => kept_updIsl g (h · p.2) j) _ s j
  have caps (r : Nat) : railCap (takeCaps u rail) r = railCap (takeCaps s rail) r :=
    railCap_takeCaps_noted rail (same (·.capMv) fun _ _ => rfl) (same (·.capAct) fun _ _ => rfl)
      (same (·.state) fun _ _ => rfl) r
  have ceil : railCeil (takeCaps u rail) rail needMv = railCeil (takeCaps s rail) rail needMv := by
    rw [railCeil, caps, caps, railCeil]
  have regs := railOf_capRefused u rail needMv
  rw [ceil, show railOf u rail = railOf s rail by rw [railOf, kept.rails (by decide), railOf]] at regs
  subst is
  rw [noted]
  have capped := capRefused_follows u rail needMv
  refine ⟨(capped.pi (by decide)).trans (kept.pi (by decide)), (capped.out (by decide)).trans (kept.out (by decide)),
    regs, fun p hp => ?_⟩
  have distinct : (((railIslands rail).zip margins).map (·.1)).Nodup := by
    rw [List.map_fst_zip (Nat.le_of_eq length.symm)]
    exact railIslands_nodup rail
  rw [kept_capRefused (·.worstPs) u rail needMv (fun _ => rfl) (fun _ _ => rfl), ← noted]
  exact worstPs_noteMargins _ distinct s p hp

/-- An AVSBus command within its range is sent (R278). -/
theorem avsCmd_of_within {s : State} {n mv : Nat} (idle : (avsOf s n).op = none) (low : 650 ≤ mv)
    (high : mv ≤ 900) : avsCmd s n 1 mv =
      emit (updAvs s n (fun x => { x with op := some (1, mv) })) (.avs n 1 mv) := by
  refine (if_neg ?_).trans (if_neg ?_)
  · rw [idle]
    decide
  · omega

/-! ### The frequency loop (R270) -/

/-- K after a step of the frequency loop. -/
def nextK (s : State) (i : Nat) (margin : Int) (held : Bool) : BitVec 5 :=
  let x := isl s i
  if ownClock i = true ∧ held = true ∧ running s i = true then
    if margin < 30 then
      if 8 < x.k.toNat ∧ (railOf s (islandRail i)).ceilMv.toNat ≤ railNow s (islandRail i) then x.k - 1 else x.k
    else if 80 < margin ∧ x.k.toNat < 16 ∧ x.temp.toInt ≤ 300 then x.k + 1 else x.k
  else x.k

theorem ofNat_pred {k : BitVec 5} (h : 8 < k.toNat) : BitVec.ofNat 5 (k.toNat - 1) = k - 1 := by
  apply BitVec.eq_of_toNat_eq
  bv_omega

theorem ofNat_succ (k : BitVec 5) : BitVec.ofNat 5 (k.toNat + 1) = k + 1 := by
  apply BitVec.eq_of_toNat_eq
  bv_omega

theorem frequencyStep_takes (k : Fin 16) (m : Int) (held : Bool) (s : State) :
    ∃ t x, exec (.frequencyLoopStep k m held) s = .next t ∧ IslandGets s t k x ∧
      x.worstPs = marginField m ∧ x.k = nextK s k m held := by
  obtain ⟨u, is⟩ : ∃ u, (if running (noteMargin s k m) k then
    updIsl (noteMargin s k m) k (fun x => { x with floorAct := x.floorMhz }) else noteMargin s k m) = u := ⟨_, rfl⟩
  obtain ⟨y, gets, worst, oldK, temp, state⟩ : ∃ y, IslandGets s u k y ∧ y.worstPs = marginField m ∧
      y.k = (isl s k).k ∧ y.temp = (isl s k).temp ∧ y.state = (isl s k).state := by
    have noted := islandGets_updIsl s k (fun x => { x with
      worstPs := marginField m,
      minPs := if (marginField m).toInt < x.minPs.toInt then marginField m else x.minPs })
    subst is
    split
    · have floor := islandGets_updIsl (noteMargin s k m) k (fun x => { x with floorAct := x.floorMhz })
      rw [show isl (noteMargin s k m) k = _ from noted.self] at floor
      exact ⟨_, noted.trans floor, rfl, rfl, rfl, rfl⟩
    · exact ⟨_, noted, rfl, rfl, rfl, rfl⟩
  have rails : railOf u = railOf s := by
    have : u.rails = s.rails := by
      subst is
      split <;> rfl
    funext n
    rw [railOf, this, railOf]
  have now : railNow u (islandRail k) = railNow s (islandRail k) := by rw [railNow, rails, railNow]
  have runs : running u k = running s k := by rw [running, gets.self, state, running]
  have changed (f : Nat) (v : State) (islands : v.islands = (updIsl u k (fun x => { x with k := BitVec.ofNat 5 f })).islands) :
      IslandGets s v k { y with k := BitVec.ofNat 5 f } := by
    have g := islandGets_updIsl u k (fun x => { x with k := BitVec.ofNat 5 f })
    rw [gets.self] at g
    exact (gets.trans g).of_islands islands
  show ∃ t x, execFrequencyLoopStep k m held s = .next t ∧ _
  unfold execFrequencyLoopStep nextK
  dsimp only
  rw [is, runs, rails, now, gets.self, oldK, temp]
  split
  next not =>
    refine ⟨_, y, rfl, gets, worst, ?_⟩
    rw [if_neg ?_, oldK]
    rintro ⟨mine, hold, up⟩
    rw [mine, hold, up] at not
    exact absurd not (by decide)
  next may =>
    have all : ownClock k = true ∧ held = true ∧ running s k = true := by
      simpa [and_assoc] using may
    rw [if_pos all]
    split
    · split
      next lower =>
        have done {v : State} (islands : v.islands =
            (updIsl u k (fun x => { x with k := BitVec.ofNat 5 ((isl s k).k.toNat - 1) })).islands) :
            ∃ t x, (Host.Outcome.next v : Host.Outcome State Fault Refusal) = .next t ∧ IslandGets s t k x ∧ x.worstPs = marginField m ∧
              x.k = (isl s k).k - 1 := ⟨_, _, rfl, changed _ v islands, worst, ofNat_pred lower.1⟩
        split
        · exact done ((policyConflict_follows ..).islands (by decide))
        · split
          · exact done ((loopWarning_follows ..).islands (by decide))
          · exact done rfl
      next => exact ⟨_, y, rfl, gets, worst, oldK⟩
    · split
      next higher => exact ⟨_, _, rfl, changed _ _ rfl, worst, ofNat_succ _⟩
      next => exact ⟨_, y, rfl, gets, worst, oldK⟩

/-- Settles O32: the caps and margins of a voltage step are `voltageStep_caps`, and K of a frequency step
is `nextK`. -/
theorem voltageAndFrequencyLoopsStep : Obligations.VoltageAndFrequencyLoopsStep := by
  intro rail margins settled held needMv k m s volts now fed cap ceil need next field x own
  refine ⟨fun runs up length idle low high => ?voltage, fun not => ?_, ?frequency⟩
  case frequency =>
    obtain ⟨t, y, run, gets, worst, isK⟩ := frequencyStep_takes k m held s
    have self : (isl t k).k = nextK s k m held := by rw [gets.self, isK]
    have owns : ownClock k = true ↔ k.val < 10 ∨ k.val = 15 := by
      rw [ownClock, Bool.or_eq_true, decide_eq_true_iff, decide_eq_true_iff]
    refine ⟨t, run, (congrArg Island.worstPs gets.self).trans worst, fun mine hold up => ⟨fun tight more ceiling => ?_,
      fun loose less cool => ?_⟩, fun not => ?_, gets.others⟩
    · rw [self, nextK, if_pos ⟨owns.mpr mine, hold, up⟩, if_pos tight]
      exact if_pos ⟨more, ceiling⟩
    · rw [self, nextK, if_pos ⟨owns.mpr mine, hold, up⟩, if_neg (by omega)]
      exact if_pos ⟨loose, less, cool⟩
    · rw [self, nextK]
      split
      next all =>
        obtain ⟨mine, hold, up⟩ := all
        have within : 30 ≤ m ∧ m ≤ 80 := by
          rcases not with off | stopped | ⟨high, other⟩ | within
          · exact absurd (hold.symm.trans off) (by decide)
          · exact absurd (up.symm.trans stopped) (by decide)
          · have := owns.mp mine
            omega
          · exact within
        rw [if_neg (by omega), if_neg (by omega)]
      next => rfl
  case voltage =>
    have ceilEq : railCeil (takeCaps s rail) rail needMv = ceil := by
      unfold railCeil
      by_cases one : rail.val = 1
      · rw [if_pos one, show ceil = min 900 (max cap needMv) from if_pos one, ← one]
      · rw [if_neg one]
        exact (if_neg one).symm
    have small : ceil ≤ 900 := by
      have : cap ≤ 900 := railCap_le ..
      show (if rail.val = 1 then min 900 (max cap needMv) else cap) ≤ 900
      split <;> omega
    have exact' : (BitVec.ofNat 10 ceil).toNat = ceil := by
      rw [BitVec.toNat_ofNat, Nat.mod_eq_of_lt (by omega)]
    have lowAny : (((railIslands rail).zip margins).find? (fun p => decide (p.2 < 50))).isSome =
        margins.any (fun p => decide (p < 50)) := by
      have find {l : List (Nat × Int)} (p : Nat × Int → Bool) : (l.find? p).isSome = l.any p := by
        rw [Bool.eq_iff_iff, List.find?_isSome, List.any_eq_true]
      rw [find]
      exact zip_any_snd (fun q => decide (q < 50)) (railIslands rail) margins length
    have quietAll : ((railIslands rail).zip margins).all (fun p => decide (120 < p.2)) =
        margins.all (fun p => decide (120 < p)) :=
      zip_all_snd (fun q => decide (120 < q)) (railIslands rail) margins length
    obtain ⟨v, is⟩ : ∃ v, capRefused (((railIslands rail).zip margins).foldl
        (fun s p => noteMargin s p.1 p.2) s) rail needMv = v := ⟨_, rfl⟩
    obtain ⟨pi, out, regs, worst⟩ := voltageStep_caps needMv length is
    rw [ceilEq] at regs
    have nowEq : railNow v rail = now := by
      rw [railNow, regs]
    have ceilV : (railOf v rail).ceilMv.toNat = ceil := by
      rw [regs]
      exact exact'
    obtain ⟨low', lowIs⟩ : ∃ l, ((railIslands rail).zip margins).find? (fun p => decide (p.2 < 50)) = l := ⟨_, rfl⟩
    have run : exec (.voltageLoopStep rail margins settled needMv) s =
        .next (if next = now then railAtMax v rail now low' else avsCmd (railAtMax v rail now low') rail 1 next) := by
      refine congrArg Host.Outcome.next ((if_neg ?_).trans ?_)
      · rw [runs, up]
        decide
      · dsimp only
        rw [is, nowEq, ceilV, quietAll, lowAny, lowIs]
        rfl
    obtain ⟨w, atMax⟩ : ∃ w, railAtMax v rail now low' = w := ⟨_, rfl⟩
    have kept : Follows [.rails, .staging, .intc, .fw] v w := atMax ▸ railAtMax_follows v rail now low'
    obtain ⟨b, regsW⟩ := railOf_railAtMax v rail now low'
    rw [atMax, regs] at regsW
    rw [atMax] at run
    have done {t : State} (after : Follows [.out, .intc, .pi] w t) :
        (railOf t rail).ceilMv = BitVec.ofNat 10 ceil ∧ (railOf t rail).setMv = (railOf s rail).setMv ∧
        ∀ p ∈ fed.zip margins, (isl t p.1).worstPs = field p.2 := by
      have rails : railOf t rail = railOf w rail := by rw [railOf, after.rails (by decide), railOf]
      rw [rails, regsW]
      refine ⟨rfl, rfl, fun p hp => ?_⟩
      rw [isl_of_islands (after.islands (by decide)), isl_of_islands (kept.islands (by decide))]
      exact worst p hp
    have piW : w.pi = s.pi := (kept.pi (by decide)).trans pi
    have outW : w.out = s.out := (kept.out (by decide)).trans out
    by_cases same : next = now
    · exact ⟨w, run.trans (congrArg Host.Outcome.next (if_pos same)), fun _ => ⟨piW, outW⟩,
        fun other => absurd same other, done (.refl _ w)⟩
    · have idleW : (avsOf w rail).op = none := by
        rw [avsOf, piW]
        exact idle
      have sent := avsCmd_of_within idleW low high
      refine ⟨avsCmd w rail 1 next, run.trans (congrArg Host.Outcome.next (if_neg same)),
        fun e => absurd e same, fun _ => ?_, done (avsCmd_follows ..)⟩
      rw [sent]
      refine ⟨?_, congrArg (· ++ [Out.avs rail 1 next]) outW⟩
      exact congrArg Avs.op (avsOf_updAvs_self w rail _)
  · refine congrArg Host.Outcome.next (if_pos ?_)
    rcases not with off | off
    · rw [off]
      rfl
    · rw [off]
      exact Bool.or_true _

end Sys2Proof.Machine
end

section
/-! PROOFS. I2C and AVSBus (chapter 18, R737 to R741, R278): the obligation O54. -/
open Sys2Proof

namespace Sys2Proof.Machine

/-! ### Records and the shared sources -/

theorem shared_stage (s : State) (r : Rec) : (stage s r).intc.shared = s.intc.shared := by
  unfold stage
  split
  · rfl
  · exact congrArg Intc.shared ((keepDrop_follows ..).intc (by decide))

theorem sharedSrc_postRec (s : State) (island type : Nat) (source payload moor : Word) (n : Nat) :
    sharedSrc (postRec s island type source payload moor) n = sharedSrc s n := by
  rw [sharedSrc, postRec, shared_stage, sharedSrc]

/-! ### I2C (R737 to R739) -/

theorem overlay_of_le {old b : List Byte} (h : b.length ≤ old.length) :
    overlay old b = b ++ old.drop b.length := by
  rw [overlay, List.take_of_length_le h]

/-- A GO starts its transaction, after pulses that free the bus (R738). -/
theorem i2cGo_of_shape {s : State} {v : Word} {w r : Nat} (idle : s.pi.i2c.busy = false)
    (shape : i2cShape v = some (w, r)) (low stuck : Bool) :
    i2cGo s v low stuck =
      let port := fld v 0 3
      let began : I2c := { s.pi.i2c with
        ctrl := v &&& i2cCtrlMask, cur := v &&& i2cCtrlMask,
        recover := setBit s.pi.i2c.recover port false }
      let pulses : List Out := if s.pi.i2c.recover.getLsbD port || low then [.i2cRecover port] else []
      if low && stuck then i2cEnd { s with pi := { s.pi with i2c := began }, out := s.out ++ pulses } 3
      else { s with
        pi := { s.pi with i2c := { began with busy := true } },
        out := s.out ++ pulses ++ [.i2c port (fld v 8 7) (s.pi.i2c.wdata.take w) r] } := by
  have free : (updI2c s (fun x => { x with ctrl := v &&& i2cCtrlMask })).pi.i2c.busy = false := idle
  unfold i2cGo
  dsimp only
  rw [free, if_neg (by decide), shape]
  dsimp only
  cases pulse : (s.pi.i2c.recover.getLsbD (fld v 0 3) || low)
  · have pulse' : ((updI2c s (fun x => { x with ctrl := v &&& i2cCtrlMask })).pi.i2c.recover.getLsbD (fld v 0 3) ||
      low) = false := pulse
    have skip := (Bool.not_eq_true _).mpr pulse'
    obtain ⟨-, high⟩ := Bool.or_eq_false_iff.mp pulse
    rw [if_neg skip, high]
    simp only [Bool.false_and, Bool.false_eq_true, if_false, List.append_nil, updI2c, onPi, emit]
  · have pulse' : ((updI2c s (fun x => { x with ctrl := v &&& i2cCtrlMask })).pi.i2c.recover.getLsbD (fld v 0 3) ||
      low) = true := pulse
    rw [if_pos pulse', if_pos rfl]
    simp only [updI2c, onPi, emit]

/-! ### AVSBus (R278, R740, R741) -/

/-- An end of a transaction: its rail's register, its event, and no other rail. -/
theorem avsEnd_takes (s : State) (n result : Nat) :
    avsOf (avsEnd s n result) n = { avsOf s n with op := none, done := true, result := result } ∧
    (∀ m, m ≠ n → avsOf (avsEnd s n result) m = avsOf s m) ∧ (avsEnd s n result).rails = s.rails ∧
    sharedSrc (avsEnd s n result) 0xA3 = (sharedSrc s 0xA3).events 1 ∧
    (avsEnd s n result).staging = s.staging := by
  refine ⟨avsOf_updAvs_self .., fun m other => avsOf_updAvs_of_ne _ _ other, rfl, ?_, rfl⟩
  exact sharedSrc_updShared_self ..

/-- What the end of a transaction with an answer leaves (R741). -/
structure AvsEnds (s t : State) (n : Nat) (x : Avs) (r : Rail) : Prop where
  avs : avsOf t n = x
  rail : railOf t n = r
  others : ∀ m, m ≠ n → avsOf t m = avsOf s m ∧ railOf t m = railOf s m
  event : sharedSrc t 0xA3 = (sharedSrc s 0xA3).events 1

theorem avsEnds_avsOk (s : State) (n op mv : Nat) (ack : BitVec 2) (data : BitVec 16) :
    AvsEnds s (avsOk (updAvs s n (fun x => { x with ack := ack, data := data })) n op mv data) n
      { avsOf s n with op := none, done := true, ack := ack, data := data, result := 0, fails := 0 }
      (if op = 1 then { railOf s n with setMv := BitVec.ofNat 10 mv }
       else if op = 2 then { railOf s n with readMv := data.truncate 10 }
       else if (railOf s n).avsLost then { railOf s n with avsLost := false, loopRun := true }
       else railOf s n) ∧
    (avsOk (updAvs s n (fun x => { x with ack := ack, data := data })) n op mv data).staging = s.staging := by
  obtain ⟨u, is⟩ : ∃ u, updAvs (updAvs s n (fun x => { x with ack := ack, data := data })) n
    (fun x => { x with fails := 0 }) = u := ⟨_, rfl⟩
  obtain ⟨self, others, rails, event, staging⟩ := avsEnd_takes u n 0
  have regs (m : Nat) : railOf (avsEnd u n 0) m = railOf s m := by
    rw [railOf, rails, ← is]
    rfl
  unfold avsOk
  dsimp only
  rw [is]
  refine ⟨⟨?_, ?_, fun m other => ⟨?_, ?_⟩, ?_⟩, staging.trans ?_⟩
  · refine self.trans ?_
    rw [← is, avsOf_updAvs_self, avsOf_updAvs_self]
  · rw [railOf_updRail_self, regs]
  · refine (others m other).trans ?_
    rw [← is, avsOf_updAvs_of_ne _ _ other, avsOf_updAvs_of_ne _ _ other]
  · rw [railOf_updRail_of_ne _ _ other, regs]
  · refine event.trans ?_
    rw [← is]
    rfl
  · rw [← is]
    rfl

theorem avsEnds_avsFail (s : State) (n : Nat) (ack : BitVec 2) (data : BitVec 16) :
    let lost := decide (3 ≤ (satAdd (avsOf s n).fails 1).toNat) && !(railOf s n).avsLost
    AvsEnds s (avsFail (updAvs s n (fun x => { x with ack := ack, data := data })) n) n
      { avsOf s n with
        op := none, done := true, ack := ack, data := data, result := 1,
        fails := satAdd (avsOf s n).fails 1 }
      (if lost then { railOf s n with avsLost := true, loopRun := false } else railOf s n) ∧
    (lost = false → (avsFail (updAvs s n (fun x => { x with ack := ack, data := data })) n).staging = s.staging) := by
  intro lost
  obtain ⟨u, is⟩ : ∃ u, updAvs (updAvs s n (fun x => { x with ack := ack, data := data })) n
    (fun x => { x with fails := satAdd x.fails 1 }) = u := ⟨_, rfl⟩
  obtain ⟨self, others, rails, event, staging⟩ := avsEnd_takes u n 1
  have regs (m : Nat) : railOf (avsEnd u n 1) m = railOf s m := by
    rw [railOf, rails, ← is]
    rfl
  have here : avsOf (avsEnd u n 1) n = { avsOf s n with
      op := none, done := true, ack := ack, data := data, result := 1,
      fails := satAdd (avsOf s n).fails 1 } := by
    refine self.trans ?_
    rw [← is, avsOf_updAvs_self, avsOf_updAvs_self]
  have others' (m : Nat) (other : m ≠ n) : avsOf (avsEnd u n 1) m = avsOf s m := by
    refine (others m other).trans ?_
    rw [← is, avsOf_updAvs_of_ne _ _ other, avsOf_updAvs_of_ne _ _ other]
  have event' : sharedSrc (avsEnd u n 1) 0xA3 = (sharedSrc s 0xA3).events 1 := by
    refine event.trans ?_
    rw [← is]
    rfl
  have staging' : (avsEnd u n 1).staging = s.staging := by
    refine staging.trans ?_
    rw [← is]
    rfl
  have test : (3 ≤ (avsOf (avsEnd u n 1) n).fails.toNat ∧ (!(railOf (avsEnd u n 1) n).avsLost) = true) ↔ lost = true := by
    rw [here, regs, Bool.and_eq_true, decide_eq_true_iff]
  unfold avsFail
  dsimp only
  rw [is]
  by_cases third : lost = true
  · rw [if_pos (test.mpr third), if_pos third]
    have kept := loopWarning_follows (updRail (avsEnd u n 1) n
      (fun r => { r with avsLost := true, loopRun := false })) islLK 0 n 3
    refine ⟨⟨?_, ?_, fun m other => ⟨?_, ?_⟩, ?_⟩, fun not => absurd (third.symm.trans not) (by decide)⟩
    · rw [avsOf, kept.pi (by decide)]
      exact here
    · rw [railOf, kept.rails (by decide)]
      exact (railOf_updRail_self ..).trans (by rw [regs])
    · rw [avsOf, kept.pi (by decide)]
      exact others' m other
    · rw [railOf, kept.rails (by decide)]
      exact (railOf_updRail_of_ne _ _ other).trans (regs m)
    · rw [loopWarning, sharedSrc_postRec]
      exact event'
  · rw [if_neg (fun h => third (test.mp h)), if_neg third]
    exact ⟨⟨here, regs n, fun m other => ⟨others' m other, regs m⟩, event'⟩, fun _ => staging'⟩

/-- Settles O54: a GO is `i2cGo_of_shape`, and an AVSBus answer is `avsEnds_avsOk` or
`avsEnds_avsFail`. -/
theorem i2cAndAvsBusTransactionsRunAndEnd : Obligations.I2cAndAvsBusTransactionsRunAndEnd := by
  refine ⟨?i2c, ?avs⟩
  case i2c =>
    intro a v low stuck got w r s port x began pulses ended up
    refine ⟨fun out fw idle shape => ?_, fun busy => ?_⟩
    · refine congrArg Host.Outcome.next ((reach_of_allowed _ _ out fw up).trans ?_)
      refine (i2cGo_of_shape idle shape low stuck).trans ?_
      dsimp only
      split
      next both =>
        obtain ⟨isLow, -⟩ := Bool.and_eq_true_iff.mp both
        have pulse : (s.pi.i2c.recover.getLsbD (fld v 0 3) || low) = true := by rw [isLow, Bool.or_true]
        rw [if_pos pulse]
        rfl
      next => rfl
    · have free : ¬ (!running s islPI || !s.pi.i2c.busy) = true := by
        rw [up, busy]
        decide
      refine ⟨congrArg Host.Outcome.next ((if_neg free).trans (if_pos rfl)),
        congrArg Host.Outcome.next (if_neg free), fun shape enough room => ?_⟩
      refine congrArg Host.Outcome.next ((if_neg free).trans ((if_neg (by decide)).trans ?_))
      have length : (got.take r).length = r := List.length_take_of_le enough
      have bytes : overlay x.rdata (got.take r ++ List.replicate (r - got.length) 0xFF) =
          got.take r ++ x.rdata.drop r := by
        rw [Nat.sub_eq_zero_of_le enough, List.replicate_zero, List.append_nil,
          overlay_of_le (by omega), length]
      dsimp only
      rw [show i2cShape s.pi.i2c.cur = some (w, r) from shape]
      show i2cEnd (updI2c s (fun x => { x with
        rdata := overlay x.rdata (got.take r ++ List.replicate (r - got.length) 0xFF) })) 0 = _
      rw [← bytes]
      rfl
  case avs =>
    intro a n mv data ack crcOk s x sent up
    refine ⟨fun out fw idle => ?_, fun op v busy => ?_⟩
    · have none : ¬ (avsOf s n).op.isSome = true := by
        rw [show (avsOf s n).op = none from idle]
        decide
      have reaches (f : State → State) : reach s a (0x28000000 + (0x500 + 0x10 * n)) (fwAgent a) (running s islPI)
          true f = f s := reach_of_allowed _ _ out fw up
      refine ⟨?_, ?_, ?_⟩
      · refine congrArg Host.Outcome.next ((reaches _).trans ((if_neg none).trans ?_))
        by_cases within : 650 ≤ mv.toNat ∧ mv.toNat ≤ 900
        · rw [if_pos within, if_neg (by omega)]
        · rw [if_neg within, if_pos (by omega)]
          rfl
      · exact congrArg Host.Outcome.next ((reaches _).trans ((if_neg none).trans (if_neg (by omega))))
      · exact congrArg Host.Outcome.next ((reaches _).trans ((if_neg none).trans (if_neg (by omega))))
    · obtain ⟨okEnds, okStaging⟩ := avsEnds_avsOk s n op v ack data
      obtain ⟨failEnds, failStaging⟩ := avsEnds_avsFail s n ack data
      have taken : exec (.avsDone n crcOk ack data) s = .next (if (crcOk && decide (ack = 0)) = true then
          avsOk (updAvs s n (fun x => { x with ack := ack, data := data })) n op v data
          else avsFail (updAvs s n (fun x => { x with ack := ack, data := data })) n) := by
        refine congrArg Host.Outcome.next ((if_neg ?_).trans ?_)
        · rw [up]
          decide
        · rw [show (avsOf s n).op = some (op, v) from busy]
      cases good : (crcOk && decide (ack = 0))
      · rw [good, if_neg (by decide)] at taken
        exact ⟨_, taken, failEnds.avs, failEnds.rail, failEnds.others, failEnds.event,
          fun quiet => failStaging ((Bool.not_eq_true' _).mp quiet)⟩
      · rw [good, if_pos rfl] at taken
        exact ⟨_, taken, okEnds.avs, okEnds.rail, okEnds.others, okEnds.event, fun _ => okStaging⟩

end Sys2Proof.Machine
end

section
/-! PROOFS. GPIO (chapter 18, R725 to R735): what a write changes of the pins' bits, and the obligation
O52. -/
open Sys2Proof

namespace Sys2Proof.Machine

theorem gpChange_takes (s : State) (f : Gpio → Gpio) :
    ∃ b c, gpChange s f = { s with gp := { f s.gp with before := b, changed := c } } ∧ c = s.tick := by
  unfold gpChange
  dsimp only
  split
  next same => exact ⟨_, _, rfl, same⟩
  next => exact ⟨_, _, rfl, rfl⟩

/-- Bits written under a mask. -/
theorem getLsbD_merge (old val mask : BitVec 64) {n : Nat} (h : n < 64) :
    ((old &&& ~~~ mask) ||| (val &&& mask)).getLsbD n =
      if mask.getLsbD n then val.getLsbD n else old.getLsbD n := by
  simp only [BitVec.getLsbD_or, BitVec.getLsbD_and, BitVec.getLsbD_not, h, decide_true, Bool.true_and]
  cases mask.getLsbD n <;> simp

/-! ### The bits that a write names (R726, R728) -/

theorem getLsbD_bankBits {bank : Nat} (w : Word) {n : Nat} (h : n < 64) :
    (bankBits bank w).getLsbD n = (decide (n / 32 = bank) && w.getLsbD (n % 32)) := by
  rw [bankBits, BitVec.getLsbD_shiftLeft, BitVec.getLsbD_setWidth, decide_eq_true h, Bool.true_and]
  by_cases here : n / 32 = bank
  · have : n - 32 * bank = n % 32 := by omega
    rw [this, decide_eq_true here, decide_eq_false (show ¬ n < 32 * bank by omega),
      decide_eq_true (show n % 32 < 64 by omega)]
    rfl
  · rw [decide_eq_false here, Bool.false_and]
    by_cases low : n < 32 * bank
    · rw [decide_eq_true low]
      rfl
    · rw [BitVec.getLsbD_of_ge w _ (by omega), Bool.and_false, Bool.and_false]

theorem getLsbD_w32_fld (w : Word) {lo i : Nat} (h : i < 32) :
    (w32 (fld w lo 16)).getLsbD i = (decide (i < 16) && w.getLsbD (lo + i)) := by
  rw [w32, BitVec.getLsbD_ofNat, testBit_fld, decide_eq_true h, Bool.true_and]
  rfl

/-- The mask of a half-bank write names a bit of its half by the bit of the mask half (R728). -/
theorem getLsbD_halfBits_low {bank : Nat} (w : Word) {n : Nat} (h : n < 64) :
    (halfBits bank false w).1.getLsbD n =
      (decide (n / 32 = bank) && decide (n % 32 < 16) && w.getLsbD (n % 32 + 16)) ∧
    (halfBits bank false w).2.getLsbD n =
      (decide (n / 32 = bank) && decide (n % 32 < 16) && w.getLsbD (n % 32)) := by
  have narrow : n % 32 < 32 := Nat.mod_lt _ (by decide)
  unfold halfBits
  simp only [Bool.false_eq_true, if_false, BitVec.shiftLeft_zero, getLsbD_bankBits _ h,
    getLsbD_w32_fld w narrow, Nat.zero_add, Nat.add_comm 16, Bool.and_assoc]
  exact ⟨trivial, trivial⟩

theorem getLsbD_halfBits_high {bank : Nat} (w : Word) {n : Nat} (h : n < 64) :
    (halfBits bank true w).1.getLsbD n =
      (decide (n / 32 = bank) && decide (16 ≤ n % 32) && w.getLsbD (n % 32)) ∧
    (halfBits bank true w).2.getLsbD n =
      (decide (n / 32 = bank) && decide (16 ≤ n % 32) && w.getLsbD (n % 32 - 16)) := by
  have narrow : n % 32 < 32 := Nat.mod_lt _ (by decide)
  have shifted (lo : Nat) : (w32 (fld w lo 16) <<< 16).getLsbD (n % 32) =
      (decide (16 ≤ n % 32) && w.getLsbD (lo + (n % 32 - 16))) := by
    rw [BitVec.getLsbD_shiftLeft, getLsbD_w32_fld w (by omega), decide_eq_true narrow, Bool.true_and]
    by_cases low : n % 32 < 16
    · rw [decide_eq_true low, decide_eq_false (show ¬ 16 ≤ n % 32 by omega)]
      rfl
    · rw [decide_eq_false low, decide_eq_true (show 16 ≤ n % 32 by omega),
        decide_eq_true (show n % 32 - 16 < 16 by omega)]
      rfl
  unfold halfBits
  simp only [if_true, getLsbD_bankBits _ h, shifted, Nat.zero_add, Bool.and_assoc]
  refine ⟨?_, trivial⟩
  by_cases high : 16 ≤ n % 32
  · rw [show 16 + (n % 32 - 16) = n % 32 by omega]
  · rw [decide_eq_false high]
    rfl

/-! ### What a write leaves (R725, R727) -/

/-- A Deckhand's write leaves a pin that the firmware reserves (R727). -/
def spares (s : State) (a n : Nat) : Bool := decide (3 ≤ a ∧ a ≤ 10) && s.gp.fw.getLsbD n

theorem getLsbD_deniedBits (s : State) (a : Nat) (mask : BitVec 64) (n : Nat) :
    (deniedBits s a mask).getLsbD n = (mask.getLsbD n && spares s a n) := by
  unfold deniedBits spares
  split
  next deck => rw [BitVec.getLsbD_and, decide_eq_true deck, Bool.true_and]
  next other =>
    rw [decide_eq_false other, Bool.false_and, Bool.and_false]
    exact BitVec.getLsbD_zero

theorem eq_zero_iff_getLsbD {w : Nat} (v : BitVec w) : v = 0 ↔ ¬ ∃ n < w, v.getLsbD n = true := by
  constructor
  · rintro rfl ⟨n, -, set⟩
    exact absurd (set.symm.trans (BitVec.getLsbD_zero ..)) (by decide)
  · intro clear
    apply BitVec.eq_of_getLsbD_eq
    intro n h
    refine (Bool.not_eq_true _ ▸ fun set => clear ⟨n, h, set⟩ : v.getLsbD n = false).trans ?_
    exact BitVec.getLsbD_zero.symm

/-- A write reaches the bits that its mask names and that are not spared, each by its value. -/
structure PinsWritten (s t : State) (a : Nat) (dir : Bool) (mask val : BitVec 64) : Prop where
  rest : t = { s with gp := { s.gp with
    out := t.gp.out, dir := t.gp.dir, denied := t.gp.denied, before := t.gp.before, changed := t.gp.changed } }
  out : ∀ n < 64, t.gp.out.getLsbD n =
    if !dir && mask.getLsbD n && !spares s a n then val.getLsbD n else s.gp.out.getLsbD n
  dirs : ∀ n < 64, t.gp.dir.getLsbD n =
    if dir && mask.getLsbD n && !spares s a n then val.getLsbD n else s.gp.dir.getLsbD n
  denied : t.gp.denied = true ↔ s.gp.denied = true ∨ ∃ n < 64, (mask.getLsbD n && spares s a n) = true

theorem gpWrite_takes (s : State) (a : Nat) (dir : Bool) (mask val : BitVec 64) :
    let m := mask &&& ~~~ deniedBits s a mask
    ∃ b c, gpWrite s a dir mask val = { s with gp := { s.gp with
      out := if dir then s.gp.out else (s.gp.out &&& ~~~ m) ||| (val &&& m),
      dir := if dir then (s.gp.dir &&& ~~~ m) ||| (val &&& m) else s.gp.dir,
      denied := s.gp.denied || decide (deniedBits s a mask ≠ 0), before := b, changed := c } } := by
  intro m
  obtain ⟨b, c, is, -⟩ := gpChange_takes s (fun g =>
    let g := if deniedBits s a mask = 0 then g else { g with denied := true }
    if dir then { g with dir := (g.dir &&& ~~~ m) ||| (val &&& m) }
    else { g with out := (g.out &&& ~~~ m) ||| (val &&& m) })
  refine ⟨b, c, is.trans ?_⟩
  by_cases clear : deniedBits s a mask = 0
  · simp only [clear, if_true, ne_eq, not_true, decide_false, Bool.or_false]
    cases dir <;> rfl
  · simp only [clear, if_false, ne_eq, not_false_iff, decide_true, Bool.or_true]
    cases dir <;> rfl

theorem pinsWritten_gpWrite (s : State) (a : Nat) (dir : Bool) (mask val : BitVec 64) :
    PinsWritten s (gpWrite s a dir mask val) a dir mask val := by
  obtain ⟨b, c, is⟩ := gpWrite_takes s a dir mask val
  have named {n : Nat} (h : n < 64) : (mask &&& ~~~ deniedBits s a mask).getLsbD n =
      (mask.getLsbD n && !spares s a n) := by
    rw [BitVec.getLsbD_and, BitVec.getLsbD_not, getLsbD_deniedBits, decide_eq_true h]
    cases mask.getLsbD n <;> rfl
  rw [is]
  refine ⟨rfl, fun n h => ?_, fun n h => ?_, ?_⟩
  · cases dir
    · exact (getLsbD_merge _ _ _ h).trans (by rw [named h]; rfl)
    · rfl
  · cases dir
    · rfl
    · exact (getLsbD_merge _ _ _ h).trans (by rw [named h]; rfl)
  · simp only [Bool.or_eq_true, decide_eq_true_iff, ne_eq, eq_zero_iff_getLsbD, not_not, getLsbD_deniedBits]

/-- Settles O52: every write is `pinsWritten_gpWrite` under its mask. -/
theorem gpioRegistersAndPinsFollowTheirRules : Obligations.GpioRegistersAndPinsFollowTheirRules := by
  refine ⟨?registers, ?pins⟩
  case pins =>
    intro pin s cfg level t
    refine ⟨fun high => ?_, fun up same => ?_, fun up other => ?_⟩
    · obtain ⟨b, c, is, now⟩ := gpChange_takes s (fun g => { g with pad := setBit g.pad pin high })
      refine ⟨_, rfl, ?_, ?_⟩
      · rw [is]
      · rw [is]
        exact now
    · exact congrArg Host.Outcome.next ((if_neg (by rw [up]; decide)).trans (if_pos same.symm))
    · refine congrArg Host.Outcome.next ((if_neg (by rw [up]; decide)).trans
        ((if_neg (fun e => other e.symm)).trans ?_))
      refine if_congr Iff.rfl rfl (if_congr ?_ rfl rfl)
      change ((level && cfg.getLsbD 4) || (!level && cfg.getLsbD 5)) = true ↔ _
      cases level <;> simp
  case registers =>
    intro a bank v s inBank same lowHalf highHalf shifted masked writes
    have written {i : Instr} {o : Nat} {dir : Bool} {named value : Nat → Bool} {mask val : BitVec 64}
        {f : State → State} (row : exec i s = .next (gpReach s a (0x40 * bank + o) f))
        (is : f s = gpWrite s a dir mask val)
        (names : ∀ n < 64, mask.getLsbD n = named n)
        (values : ∀ n < 64, named n = true → val.getLsbD n = value n) : writes i o dir named value := by
      have wrote := pinsWritten_gpWrite s a dir mask val
      have merged (n : Nat) (h : n < 64) (on : Bool) (old : Bool) :
          (if on && mask.getLsbD n && !spares s a n then val.getLsbD n else old) =
          (if on && named n && !masked n then value n else old) := by
        rw [names n h]
        refine if_ctx_congr Iff.rfl (fun all => ?_) (fun _ => rfl)
        obtain ⟨named', -⟩ := Bool.and_eq_true_iff.mp all
        exact values n h (Bool.and_eq_true_iff.mp named').2
      refine ⟨fun out => ?_, fun out bar => ?_, fun out may off => ?_, fun out may up => ?_⟩
      · exact row.trans (congrArg Host.Outcome.next (reach_of_not_out _ _ out))
      · refine row.trans (congrArg Host.Outcome.next ((reach_of_barred _ _ out bar).trans (errTo_of_ne ?_ ..)))
        rintro two
        rw [two] at bar
        exact absurd bar (by decide)
      · refine row.trans (congrArg Host.Outcome.next ((reach_of_fenced _ _ out may off).trans ?_))
        rw [← Nat.add_assoc]
      · refine ⟨gpWrite s a dir mask val, row.trans (congrArg Host.Outcome.next
            ((reach_of_allowed _ _ out may up).trans is)),
          wrote.rest, fun n h => ⟨?_, ?_⟩, ?_⟩
        · exact (wrote.out n h).trans (merged n h _ _)
        · exact (wrote.dirs n h).trans (merged n h _ _)
        · refine wrote.denied.trans (or_congr Iff.rfl (exists_congr fun n => and_congr_right fun h => ?_))
          rw [names n h]
          exact Iff.rfl
    have whole (w : Word) : ∀ n < 64, (bankBits bank w).getLsbD n = (inBank n && w.getLsbD (n % 32)) :=
      fun n h => getLsbD_bankBits w h
    have all : ∀ n < 64, (bankBits bank 0xFFFFFFFF).getLsbD n = inBank n := by
      intro n h
      have ones : (0xFFFFFFFF : Word).getLsbD (n % 32) = true :=
        (by decide : ∀ k < 32, (0xFFFFFFFF : Word).getLsbD k = true) _ (Nat.mod_lt _ (by decide))
      rw [whole _ n h, ones, Bool.and_true]
    have inside : ∀ n < 64, inBank n = true → (bankBits bank v).getLsbD n = same n := by
      intro n h here
      rw [whole v n h, here, Bool.true_and]
    have low : ∀ n < 64, lowHalf n = true → (halfBits bank false v).2.getLsbD n = same n := by
      intro n h named
      rw [(getLsbD_halfBits_low v h).2, (Bool.and_eq_true_iff.mp named).1, Bool.true_and]
    have high : ∀ n < 64, highHalf n = true → (halfBits bank true v).2.getLsbD n = shifted n := by
      intro n h named
      rw [(getLsbD_halfBits_high v h).2, (Bool.and_eq_true_iff.mp named).1, Bool.true_and]
    refine ⟨written rfl rfl all inside, written rfl rfl (whole v) ?_, written rfl rfl (whole v) ?_,
      written rfl rfl (whole v) ?_, written rfl rfl (fun n h => (getLsbD_halfBits_low v h).1) low,
      written rfl rfl (fun n h => (getLsbD_halfBits_high v h).1) high, written rfl rfl all inside,
      written rfl rfl (fun n h => (getLsbD_halfBits_low v h).1) low,
      written rfl rfl (fun n h => (getLsbD_halfBits_high v h).1) high⟩
    · exact fun n h named => (whole v n h).trans named
    · exact fun n h named => BitVec.getLsbD_zero
    · intro n h named
      rw [BitVec.getLsbD_not, decide_eq_true h, Bool.true_and]

end Sys2Proof.Machine
end

section
/-! PROOFS. Interrupt sources (chapter 16, R644, R650, R656 to R663): the obligation O49. -/
open Sys2Proof

namespace Sys2Proof.Machine

theorem events_one (x : Src) :
    x.events 1 = { x with count := satAdd x.count 1, ovf := x.ovf || decide (x.count = 255) } := by
  have full : decide (255 < x.count.toNat + 1) = decide (x.count = 255) := by
    refine decide_eq_decide.mpr ⟨fun h => ?_, fun h => by rw [h]; decide⟩
    apply BitVec.eq_of_toNat_eq
    have : (255 : BitVec 8).toNat = 255 := rfl
    omega
  rw [Src.events, full]

theorem count_minus_ack (c : BitVec 8) (k : Nat) :
    c - BitVec.ofNat 8 (min k c.toNat) = BitVec.ofNat 8 (c.toNat - k) := by
  apply BitVec.eq_of_toNat_eq
  rw [BitVec.toNat_sub, BitVec.toNat_ofNat, BitVec.toNat_ofNat]
  omega

/-- The sources of a completion's word (R656). -/
theorem srcOf_named (s : State) (t : Nat) {shared : Bool} {n : Nat} (h : shared = true ∨ n < 32) (small : n < 256) :
    srcOf s t (n + 256 * b2n shared) = some (if shared then sharedSrc s n else privSrc s t n) := by
  cases shared
  · have : n < 32 := h.resolve_left (by decide)
    exact if_pos this
  · refine (if_neg (by simp [b2n])).trans ((if_pos (by simp [b2n]; omega)).trans ?_)
    simp [b2n]

theorem updSrc_named (s : State) (t : Nat) {shared : Bool} {n : Nat} (f : Src → Src) (h : shared = true ∨ n < 32)
    (small : n < 256) : updSrc s t (n + 256 * b2n shared) f = updNamed s shared t n f := by
  cases shared
  · have : n < 32 := h.resolve_left (by decide)
    exact (updSrc_priv s t f this).trans (if_pos this).symm
  · exact (congrArg (updSrc s t · f) (Nat.add_comm n 256)).trans (updSrc_shared s t f small)

/-- A source that no word names is none. -/
theorem srcOf_eq_some {s : State} {t src : Nat} {x : Src} (h : srcOf s t src = some x) :
    ∃ (shared : Bool) (n : Fin 256), (shared = true ∨ n.val < 32) ∧ src = n + 256 * b2n shared ∧
      x = if shared then sharedSrc s n else privSrc s t n := by
  unfold srcOf at h
  split at h
  next low => exact ⟨false, ⟨src, by omega⟩, .inr low, rfl, (Option.some.inj h).symm⟩
  next =>
    split at h
    next within =>
      exact ⟨true, ⟨src - 0x100, by omega⟩, .inl rfl, by simp [b2n]; omega, (Option.some.inj h).symm⟩
    next => cases h

theorem complete_of_held {s : State} {t : Nat} {v : Word} {shared : Bool} {n : Nat}
    (h : shared = true ∨ n < 32) (small : n < 256) (names : fld v 0 10 = n + 256 * b2n shared)
    (held : (if shared then sharedSrc s n else privSrc s t n).holder = some t) :
    complete s t v = updNamed s shared t n (fun y => { y with
      holder := none, count := BitVec.ofNat 8 (y.count.toNat - fld v 16 8) }) := by
  simp only [complete, names, srcOf_named s t h small, if_pos held, updSrc_named s t _ h small, count_minus_ack]

theorem complete_of_not_held {s : State} {t : Nat} {v : Word}
    (free : ∀ (shared : Bool) (n : Fin 256), (shared = true ∨ n.val < 32) ∧ fld v 0 10 = n + 256 * b2n shared →
      (if shared then sharedSrc s n else privSrc s t n).holder ≠ some t) :
    complete s t v = updTarget s t (fun x => { x with completeErr := true }) := by
  unfold complete
  dsimp only
  split
  · rfl
  next x found =>
    obtain ⟨shared, n, range, names, rfl⟩ := srcOf_eq_some found
    exact if_neg (free shared n ⟨range, names⟩)

/-- Settles O49: a completion is `complete_of_held` or `complete_of_not_held`; the others are their
rows. -/
theorem interruptSourcesAreClaimedAndCompleted : Obligations.InterruptSourcesAreClaimedAndCompleted := by
  intro a v shared target n t s own ofCore update source named raiseErr
  have taken (h : own = true) : agentOut s a = true ∧ agentTarget s a = some t := by
    simpa [own] using h
  have may : mayWriteSrc a shared target = true ↔ a.val = 2 ∨ (ofCore = true ∧ shared = false) := by
    simp only [mayWriteSrc, ofCore, Bool.or_eq_true, Bool.and_eq_true, decide_eq_true_iff, Bool.not_eq_true', and_assoc]
    tauto
  refine ⟨fun mine isDebug => ?_, fun mine names held => ?_, fun mine free => ?_, fun mine low kind => ?raise,
    fun out => ?_, fun out allowed => ?_, fun barred => ?_, fun stopped => ?_, fun runs => ?_⟩
  · obtain ⟨out, at'⟩ := taken mine
    refine congrArg Host.Outcome.next ((issue_of_out out _).trans ?_)
    simp only [claimRead, at', if_pos isDebug]
  · obtain ⟨out, at'⟩ := taken mine
    refine congrArg Host.Outcome.next ((issue_of_out out _).trans ?_)
    simp only [completeWrite, at']
    exact complete_of_held names.1 n.isLt names.2 held
  · obtain ⟨out, at'⟩ := taken mine
    refine congrArg Host.Outcome.next ((issue_of_out out _).trans ?_)
    simp only [completeWrite, at']
    exact complete_of_not_held free
  case raise =>
    obtain ⟨out, at'⟩ := taken mine
    have agent : ¬ (!((decide (2 ≤ a.val) && decide (a.val ≤ 10)) || decide (a.val = 15))) = true := by
      unfold agentTarget at at'
      split at at'
      next within => simp [within.1, within.2]
      next =>
        split at at'
        next isDebug => simp [isDebug.1]
        next => cases at'
    have raises (f : State) (is : (if bit v 8 then
          (if sharedKind s (fld v 0 8) = .soft then raiseShared s (fld v 0 8) else Machine.raiseErr s a)
        else if fld v 0 8 < 32 ∧ fld v 9 4 ≤ 8 ∧ privKind (fld v 9 4) (fld v 0 8) = .soft then
          raisePriv s (fld v 9 4) (fld v 0 8)
        else Machine.raiseErr s a) = f) : exec (.icRaise a v) s = .next f :=
      congrArg Host.Outcome.next ((issue_of_out out _).trans ((if_neg agent).trans is))
    have err : Machine.raiseErr s a = raiseErr := by
      rw [Machine.raiseErr, at']
    refine ⟨fun soft priv => raises _ ?_, fun isShared other => raises _ ?_, fun isPriv other => raises _ ?_⟩
    · have event (f : (Src → Src) → State) : f (fun x => x.events 1) = f (fun x => { x with
          count := satAdd x.count 1, ovf := x.ovf || decide (x.count = 255) }) :=
        congrArg f (funext events_one)
      cases shared
      · obtain ⟨small, at8, isSoft⟩ := priv rfl
        rw [kind, low, at8, if_neg (by decide), if_pos ⟨small, by omega, isSoft⟩]
        exact (event (updPriv s target n)).trans (if_pos small).symm
      · rw [kind, low, if_pos rfl, if_pos (soft rfl)]
        exact event (updShared s n)
    · rw [kind, isShared, low, if_pos rfl, if_neg other]
      exact err
    · rw [kind, isPriv, low, if_neg (by decide), if_neg ?_]
      · exact err
      · rintro ⟨small, eight, isSoft⟩
        rcases other with wide | high | hard
        · omega
        · omega
        · exact hard isSoft
  · have none (f : State → State) : issue s a f = s := issue_of_not_out out f
    exact ⟨congrArg Host.Outcome.next (none _), congrArg Host.Outcome.next (none _),
      congrArg Host.Outcome.next (none _), congrArg Host.Outcome.next (none _)⟩
  · exact congrArg Host.Outcome.next ((issue_of_out out _).trans (if_pos (may.mpr allowed)))
  · cases out : agentOut s a
    · exact congrArg Host.Outcome.next (issue_of_not_out out _)
    · exact congrArg Host.Outcome.next ((issue_of_out out _).trans (if_neg (fun h => barred (may.mp h))))
  · exact congrArg Host.Outcome.next (if_neg (by rw [stopped]; decide))
  · intro p
    have fresh : p.fresh = s.fresh := by
      show (if shared then _ else if n.val < 32 then _ else _ : State).fresh = s.fresh
      split
      · rfl
      · split <;> rfl
    refine ⟨(Config.freeValue p.fresh).truncate 32, congrArg Host.Outcome.next ((if_pos runs).trans ?_)⟩
    rw [← fresh]
    rfl

end Sys2Proof.Machine
end

section
/-! PROOFS. One sample of a voice (chapter 11, R439 to R449): the obligation O39. -/
open Sys2Proof

namespace Sys2Proof.Machine

/-! ### The envelope (R447) -/

section
variable (x : Voice)

theorem envelope_attack (h : x.phase = 1) : ∃ y, x.envelope = (y, false) ∧
    y.level.toNat = min 65535 (x.level.toNat + envStep x.attack) ∧
    y = { x with level := y.level, phase := if y.level.toNat = 65535 then 2 else 1 } := by
  have fits : (BitVec.ofNat 16 (min 65535 (x.level.toNat + envStep x.attack))).toNat =
      min 65535 (x.level.toNat + envStep x.attack) := by
    rw [BitVec.toNat_ofNat]
    omega
  refine ⟨_, if_pos h, fits, ?_⟩
  simp only [fits]

theorem envelope_decay (h : x.phase = 2) : ∃ y, x.envelope = (y, false) ∧
    y.level.toNat = max (x.sustain.toNat * 257) (x.level.toNat - envStep x.decay) ∧
    y = { x with level := y.level, phase := if y.level.toNat = x.sustain.toNat * 257 then 3 else 2 } := by
  have fits : (BitVec.ofNat 16 (max (x.sustain.toNat * 257) (x.level.toNat - envStep x.decay))).toNat =
      max (x.sustain.toNat * 257) (x.level.toNat - envStep x.decay) := by
    have := x.sustain.isLt
    have := x.level.isLt
    rw [BitVec.toNat_ofNat]
    omega
  refine ⟨_, (if_neg (by omega)).trans (if_pos h), fits, ?_⟩
  simp only [fits]

theorem envelope_release (h : x.phase = 4) : ∃ y, x.envelope = (y, decide (y.level = 0)) ∧
    y.level.toNat = x.level.toNat - envStep x.release ∧
    y = { x with level := y.level, phase := if y.level = 0 then 0 else 4 } := by
  have fits : (BitVec.ofNat 16 (x.level.toNat - envStep x.release)).toNat = x.level.toNat - envStep x.release := by
    have := x.level.isLt
    rw [BitVec.toNat_ofNat]
    omega
  have zero : BitVec.ofNat 16 (x.level.toNat - envStep x.release) = 0 ↔ x.level.toNat - envStep x.release = 0 :=
    ⟨fun e => fits.symm.trans (congrArg BitVec.toNat e), fun e => by rw [e]; rfl⟩
  have ended : x.envelope = ({ x with
      level := BitVec.ofNat 16 (x.level.toNat - envStep x.release),
      phase := if x.level.toNat - envStep x.release = 0 then 0 else 4 },
      decide (x.level.toNat - envStep x.release = 0)) :=
    (if_neg (by omega)).trans ((if_neg (by omega)).trans (if_pos h))
  refine ⟨{ x with
    level := BitVec.ofNat 16 (x.level.toNat - envStep x.release),
    phase := if x.level.toNat - envStep x.release = 0 then 0 else 4 }, ?_, fits, ?_⟩
  · rw [ended]
    simp only [zero]
  · simp only [zero]

theorem envelope_still (h : x.phase = 0 ∨ x.phase = 3) : x.envelope = (x, false) :=
  (if_neg (by omega)).trans ((if_neg (by omega)).trans (if_neg (by omega)))

/-- The envelope changes a voice's level and phase alone. -/
theorem envelope_keeps : ∃ l p, x.envelope.1 = { x with level := l, phase := p } := by
  unfold Voice.envelope
  dsimp only
  split
  · exact ⟨_, _, rfl⟩
  · split
    · exact ⟨_, _, rfl⟩
    · split
      · exact ⟨_, _, rfl⟩
      · exact ⟨x.level, x.phase, rfl⟩
end

/-! ### The sample (R439) -/

theorem voiceOf_setVoice_self (s : State) (v : Nat) (x : Voice) : voiceOf (setVoice s v x) v = some x :=
  Tab.find?_put_self ..

theorem voiceOf_of_cv {s t : State} (h : t.cv = s.cv) (v : Nat) : voiceOf t v = voiceOf s v := by
  rw [voiceOf, h, voiceOf]

/-- The value of a generator whose level and AMP are `l` and `a` (R439). -/
def voiced (x : Voice) : Int :=
  if x.phase = 0 then 0 else asr (asr (x.gen * x.amp.toNat) 16 * x.level.toNat) 16

/-- A sample of a generator voice, from the voice with its writes applied. -/
theorem voiceSample_takes {s : State} {n v : Nat} {x z y : Voice} {fin : Bool} (found : voiceOf s v = some x)
    (applied : (x.writes.filter (fun w => w.1 < sampleTick n)).foldl (fun x w => x.apply w.2)
      { x with writes := x.writes.filter (fun w => sampleTick n ≤ w.1) } = z)
    (kind : z.kind ≠ 3) (next : z.advance.envelope = (y, fin)) :
    (voiceSample s n v).2 = voiced z ∧
    voiceOf (voiceSample s n v).1 v = some { y with ended := y.ended || fin } ∧
    (voiceSample s n v).1.cv.endedCount = if fin then satAdd s.cv.endedCount 1 else s.cv.endedCount := by
  have begun : voiceOf (setVoice s v z.advance) v = some z.advance := voiceOf_setVoice_self ..
  have is : voiceSample s n v = (if fin then voiceEnded (setVoice (setVoice s v z.advance) v y) v
      else setVoice (setVoice s v z.advance) v y, voiced z) := by
    unfold voiceSample
    rw [found]
    dsimp only
    rw [applied, if_neg kind]
    dsimp only
    rw [begun]
    dsimp only
    rw [next]
    rfl
  rw [is]
  refine ⟨rfl, ?_, ?_⟩
  · cases fin
    · rw [Bool.or_false]
      exact voiceOf_setVoice_self ..
    · rw [if_pos rfl, voiceEnded, voiceOf_setVoice_self, Bool.or_true]
      dsimp only
      rw [voiceOf_of_cv ((postRec_follows ..).cv (by decide))]
      exact voiceOf_setVoice_self ..
  · cases fin
    · rfl
    · rw [if_pos rfl, if_pos rfl, voiceEnded, voiceOf_setVoice_self]
      dsimp only
      rw [(postRec_follows ..).cv (by decide)]
      rfl

theorem filter_due {w k : Nat} (c : VWrite) (h : w < k) :
    [(w, c)].filter (fun w => decide (w.1 < k)) = [(w, c)] :=
  List.filter_cons_of_pos (decide_eq_true h)

theorem filter_waiting {w k : Nat} (c : VWrite) (h : w < k) :
    [(w, c)].filter (fun w => decide (k ≤ w.1)) = [] :=
  List.filter_cons_of_neg (fun later => by have := of_decide_eq_true later; omega)

/-- Settles O39: a sample is `voiceSample_takes`, and its envelope one of the lemmas on
`Voice.envelope`. -/
theorem aVoiceSoundsItsGeneratorUnderItsEnvelope : Obligations.AVoiceSoundsItsGeneratorUnderItsEnvelope := by
  intro n v x s u val l carry step gen
  refine ⟨fun none => ?_, fun found kind later => ?_, fun found kind w keep one before => ?_,
    fun found kind sounds w one before => ?_⟩
  · have is : voiceSample s n v = (s, 0) := by
      unfold voiceSample
      rw [none]
    exact ⟨congrArg Prod.fst is, congrArg Prod.snd is⟩
  · have at' : sampleTick n = 3125 * n := Nat.mul_comm ..
    have none : x.writes.filter (fun w => decide (w.1 < sampleTick n)) = [] := by
      rw [List.filter_eq_nil_iff]
      intro w hw
      have := later w hw
      rw [decide_eq_true_iff]
      omega
    have all : x.writes.filter (fun w => decide (sampleTick n ≤ w.1)) = x.writes := by
      rw [List.filter_eq_self]
      intro w hw
      have := later w hw
      rw [decide_eq_true_iff]
      omega
    have applied : (x.writes.filter (fun w => w.1 < sampleTick n)).foldl (fun x w => x.apply w.2)
        { x with writes := x.writes.filter (fun w => sampleTick n ≤ w.1) } = x := by
      rw [none, all]
      rfl
    have sample {y : Voice} {fin : Bool} (next : x.advance.envelope = (y, fin)) :=
      voiceSample_takes found applied (by omega) next
    have genIs : x.gen = gen := by
      unfold Voice.gen
      refine if_congr Iff.rfl rfl (if_congr Iff.rfl ?_ rfl)
      dsimp only
      refine if_congr ?_ ?_ ?_
      · omega
      · omega
      · omega
    obtain ⟨y, fin, next⟩ : ∃ y fin, x.advance.envelope = (y, fin) := ⟨_, _, rfl⟩
    obtain ⟨value, after, count⟩ := sample next
    obtain ⟨l', p', is⟩ := envelope_keeps x.advance
    rw [next] at is
    change y = _ at is
    have still (h : x.advance.phase = 0 ∨ x.advance.phase = 3) : y = x.advance ∧ fin = false := by
      have := next.symm.trans (envelope_still x.advance h)
      exact ⟨congrArg Prod.fst this, congrArg Prod.snd this⟩
    refine ⟨?_, _, after, ?_, ?_, fun c => ?_, fun c => ?_, fun h => ?_, fun h => ?_, fun h => ?_, fun h => ?_⟩
    · refine value.trans ?_
      rw [voiced, genIs]
      rfl
    · rw [is]
      rfl
    · rw [is]
      rfl
    · rw [is]
      exact if_pos c
    · rw [is]
      exact if_neg c
    · obtain ⟨rfl, rfl⟩ := still h
      exact ⟨rfl, rfl, Bool.or_false _⟩
    · obtain ⟨z, env, level, whole⟩ := envelope_attack x.advance h
      obtain ⟨rfl, rfl⟩ := Prod.mk.inj (next.symm.trans env)
      rw [whole]
      exact ⟨level, Bool.or_false _, rfl⟩
    · obtain ⟨z, env, level, whole⟩ := envelope_decay x.advance h
      obtain ⟨rfl, rfl⟩ := Prod.mk.inj (next.symm.trans env)
      rw [whole]
      exact ⟨level, Bool.or_false _, rfl⟩
    · obtain ⟨z, env, level, whole⟩ := envelope_release x.advance h
      obtain ⟨rfl, rfl⟩ := Prod.mk.inj (next.symm.trans env)
      refine ⟨level, ?_, ?_, ?_⟩
      · rw [whole]
      · rw [whole]
        rfl
      · rw [count]
        simp only [decide_eq_true_iff]
  · have applied : (x.writes.filter (fun w => w.1 < sampleTick n)).foldl (fun x w => x.apply w.2)
        { x with writes := x.writes.filter (fun w => sampleTick n ≤ w.1) } =
        ({ x with writes := [] } : Voice).apply (.keyOn keep) := by
      have now : w < sampleTick n := by rw [sampleTick]; omega
      rw [one, filter_due _ now, filter_waiting _ now]
      rfl
    obtain ⟨y, env, level, whole⟩ :=
      envelope_attack ((({ x with writes := [] } : Voice).apply (.keyOn keep)).advance) rfl
    obtain ⟨-, after, -⟩ := voiceSample_takes found applied (show x.kind ≠ 3 by omega) env
    refine ⟨_, after, ?_, ?_, level⟩
    · rw [whole]
      rfl
    · rw [whole]
      rfl
  · have applied : (x.writes.filter (fun w => w.1 < sampleTick n)).foldl (fun x w => x.apply w.2)
        { x with writes := x.writes.filter (fun w => sampleTick n ≤ w.1) } =
        { x with writes := [], phase := 4 } := by
      have now : w < sampleTick n := by rw [sampleTick]; omega
      rw [one, filter_due _ now, filter_waiting _ now]
      exact if_neg sounds
    obtain ⟨y, env, level, whole⟩ := envelope_release ({ x with writes := [], phase := 4 } : Voice).advance rfl
    obtain ⟨-, after, -⟩ := voiceSample_takes found applied (show x.kind ≠ 3 by omega) env
    refine ⟨_, after, ?_, level⟩
    rw [whole]
    rfl

end Sys2Proof.Machine
end

section
/-! PROOFS. Region push and the pit panel (chapter 10, R415 to R434): the obligation O37. -/
open Sys2Proof

namespace Sys2Proof.Machine

theorem satAdd_satAdd {n : Nat} (c : BitVec n) (a b : Nat) : satAdd (satAdd c a) b = satAdd c (a + b) := by
  have small : min (2 ^ n - 1) (c.toNat + a) < 2 ^ n := by
    have := Nat.two_pow_pos n
    omega
  rw [satAdd, satAdd, satAdd, BitVec.toNat_ofNat, Nat.mod_eq_of_lt small]
  congr 1
  omega

theorem satAdd_zero {n : Nat} (c : BitVec n) : satAdd c 0 = c := by
  have := c.isLt
  rw [satAdd, Nat.add_zero, Nat.min_eq_right (by omega), BitVec.ofNat_toNat, BitVec.setWidth_eq]

/-! ### Receivers -/

theorem recvOf_updRecv_self (s : State) (r : Nat) (f : Recv → Recv) :
    recvOf (updRecv s r f) r = f (recvOf s r) := by
  unfold recvOf updRecv
  by_cases panel : r = panelId
  · rw [if_pos panel, if_pos panel, if_pos panel]
    rfl
  · rw [if_neg panel, if_neg panel, if_neg panel]
    exact Tab.get_upd_self ..

theorem recvOf_updRecv_of_ne (s : State) {r j : Nat} (f : Recv → Recv) (other : j ≠ r) :
    recvOf (updRecv s r f) j = recvOf s j := by
  unfold recvOf updRecv
  by_cases panel : r = panelId
  · rw [if_pos panel, if_neg (panel ▸ other), if_neg (panel ▸ other)]
    rfl
  · rw [if_neg panel]
    split
    · rfl
    · exact Tab.get_upd_of_ne _ _ _ other

/-- What a station's receiver does not concern. -/
theorem updRecv_station {k : Nat} (station : k ≠ panelId) (s : State) (f : Recv → Recv) :
    (updRecv s k f).tp.scenes = s.tp.scenes ∧ (updRecv s k f).tp.panel = s.tp.panel ∧ (updRecv s k f).tl = s.tl := by
  rw [updRecv, if_neg station]
  exact ⟨rfl, rfl, rfl⟩

/-- The patches of a piece in its receiver's window (R423). -/
def pieceDue (s : State) (r : Nat) (p : Piece) : BitVec 3072 :=
  match (recvScene s r).bind (sceneOf s) with
  | none => 0
  | some c => patchesIn c (({ x := p.x, y := p.y, w := p.w, h := p.h } : Rect).meet (window s r c))

/-- A late piece of a station: it goes, it is counted, and its patches are owed. -/
structure PiecesLost (s t : State) (k : Nat) (late : List Piece) : Prop where
  pieces : (recvOf t k).pieces = (recvOf s k).pieces.filter (fun q => !late.contains q)
  lost : (recvOf t k).lost = satAdd (recvOf s k).lost late.length
  sent : (recvOf t k).sent = (recvOf s k).sent
  owed : ∀ i, (recvOf t k).owed.getLsbD i =
    ((recvOf s k).owed.getLsbD i || late.any (fun q => (pieceDue s k q).getLsbD i))
  others : ∀ j, j ≠ k → recvOf t j = recvOf s j
  scenes : t.tp.scenes = s.tp.scenes
  panel : t.tp.panel = s.tp.panel
  tl : t.tl = s.tl

theorem PiecesLost.nil (s : State) (k : Nat) : PiecesLost s s k [] where
  pieces := (List.filter_true _).symm
  lost := (satAdd_zero _).symm
  sent := rfl
  owed _ := (Bool.or_false _).symm
  others _ _ := rfl
  scenes := rfl
  panel := rfl
  tl := rfl

theorem pieceDue_congr {s t : State} (scenes : t.tp.scenes = s.tp.scenes) (panel : t.tp.panel = s.tp.panel)
    (tl : t.tl = s.tl) (k : Nat) (p : Piece) : pieceDue t k p = pieceDue s k p := by
  have station (n : Nat) : stationOf t n = stationOf s n := stationOf_of_tl tl n
  have scene : recvScene t k = recvScene s k := by rw [recvScene, panel, station, recvScene]
  have found : sceneOf t = sceneOf s := funext fun n => by rw [sceneOf, scenes, sceneOf]
  have win (c : Scene) : window t k c = window s k c := by rw [window, panel, station, window]
  simp only [pieceDue, scene, found, win]

theorem PiecesLost.trans {s t u : State} {k : Nat} {l m : List Piece} (h : PiecesLost s t k l)
    (g : PiecesLost t u k m) : PiecesLost s u k (l ++ m) where
  pieces := by
    rw [g.pieces, h.pieces, List.filter_filter]
    refine List.filter_congr fun q _ => ?_
    rw [List.contains_append, Bool.not_or, Bool.and_comm]
  lost := by rw [g.lost, h.lost, satAdd_satAdd, List.length_append]
  sent := g.sent.trans h.sent
  owed i := by
    simp only [g.owed, h.owed, pieceDue_congr h.scenes h.panel h.tl, List.any_append, Bool.or_assoc]
  others j other := (g.others j other).trans (h.others j other)
  scenes := g.scenes.trans h.scenes
  panel := g.panel.trans h.panel
  tl := g.tl.trans h.tl

theorem piecesLost_losePiece (s : State) {k : Nat} (station : k ≠ panelId) (p : Piece) :
    PiecesLost s (losePiece s k p) k [p] := by
  obtain ⟨u, is⟩ : ∃ u, updRecv s k (fun v => { v with
    pieces := v.pieces.filter (fun q => q ≠ p), lost := satAdd v.lost 1 }) = u := ⟨_, rfl⟩
  obtain ⟨scenes, panel, tl⟩ := is ▸ updRecv_station station s (fun v => { v with
    pieces := v.pieces.filter (fun q => q ≠ p), lost := satAdd v.lost 1 })
  have self : recvOf u k = { recvOf s k with
      pieces := (recvOf s k).pieces.filter (fun q => q ≠ p), lost := satAdd (recvOf s k).lost 1 } :=
    is ▸ recvOf_updRecv_self ..
  have others (j : Nat) (other : j ≠ k) : recvOf u j = recvOf s j := is ▸ recvOf_updRecv_of_ne _ _ other
  have gone : (recvOf s k).pieces.filter (fun q => q ≠ p) = (recvOf s k).pieces.filter (fun q => !([p].contains q)) := by
    refine List.filter_congr fun q _ => ?_
    simp
  have due : pieceDue u k p = pieceDue s k p := pieceDue_congr scenes panel tl k p
  rw [losePiece, is, owePiece]
  rw [pieceDue] at due
  cases found : (recvScene u k).bind (sceneOf u) with
  | none =>
    rw [found] at due
    refine ⟨?_, ?_, ?_, fun i => ?_, others, scenes, panel, tl⟩
    · rw [self, ← gone]
    · rw [self]
      rfl
    · rw [self]
    · have zero : pieceDue s k p = 0 := due.symm
      rw [self, List.any_cons, List.any_nil, zero]
      simp
  | some c =>
    rw [found] at due
    obtain ⟨scenes', panel', tl'⟩ := updRecv_station station u (fun v => { v with
      owed := v.owed ||| patchesIn c (({ x := p.x, y := p.y, w := p.w, h := p.h } : Rect).meet (window u k c)) })
    refine ⟨?_, ?_, ?_, fun i => ?_, fun j other => ?_, scenes'.trans scenes, panel'.trans panel, tl'.trans tl⟩
    · rw [recvOf_updRecv_self, self, ← gone]
    · rw [recvOf_updRecv_self, self]
      rfl
    · rw [recvOf_updRecv_self, self]
    · have due' : patchesIn c (({ x := p.x, y := p.y, w := p.w, h := p.h } : Rect).meet (window u k c)) =
          pieceDue s k p := due
      rw [recvOf_updRecv_self, self, due', List.any_cons, List.any_nil, Bool.or_false]
      exact BitVec.getLsbD_or
    · rw [recvOf_updRecv_of_ne _ _ other, others j other]

theorem piecesLost_foldl (s : State) {k : Nat} (station : k ≠ panelId) (l : List Piece) :
    PiecesLost s (l.foldl (fun s p => losePiece s k p) s) k l := by
  induction l generalizing s with
  | nil => exact .nil s k
  | cons p l ih => exact (piecesLost_losePiece s station p).trans (ih _)

theorem and_eq_left_of_getLsbD {w : Nat} {a b : BitVec w} (h : ∀ i, a.getLsbD i = true → b.getLsbD i = true) :
    a &&& b = a := by
  apply BitVec.eq_of_getLsbD_eq
  intro i _
  rw [BitVec.getLsbD_and]
  cases set : a.getLsbD i
  · rfl
  · rw [h i set]
    rfl

/-! ### The panel (R427 to R434) -/

theorem panelKick_of_not_free {s : State}
    (not : (running s islTP && running s islPI && !s.tp.panel.busy && !(sqOf s 1).busy) = false) :
    panelKick s = s := by
  have busy : (!running s islTP || !running s islPI || s.tp.panel.busy || (sqOf s 1).busy) = true := by
    rw [← Bool.not_not (_ || _), Bool.not_or, Bool.not_or, Bool.not_or, Bool.not_not, Bool.not_not, not]
    rfl
  exact if_pos busy

/-- SQ1 is free: a start-up command goes once its reply is written (R427). -/
theorem panelKick_of_free {s : State}
    (free : (running s islTP && running s islPI && !s.tp.panel.busy && !(sqOf s 1).busy) = true) :
    ¬ (!running s islTP || !running s islPI || s.tp.panel.busy || (sqOf s 1).busy) = true := by
  rw [Bool.not_eq_true, ← Bool.not_eq_true', Bool.not_or, Bool.not_or, Bool.not_or, Bool.not_not, Bool.not_not]
  exact free

/-- The first unsent piece goes where its pixels can be read (R428). -/
theorem panelKick_of_piece {s u : State} {q : Piece} {pix : List Byte}
    (free : (running s islTP && running s islPI && !s.tp.panel.busy && !(sqOf s 1).busy) = true)
    (on : s.tp.panel.step = .on) (goes : s.tp.panel.teWait = false)
    (next : s.tp.panel.recv.pieces.find? (fun q => q.sent.isNone) = some q)
    (lines : pieceLines q.scene q q.h s q.y = (u, some pix)) :
    panelKick s = freeAll (panelSend (updRecv u panelId (fun v => { v with
      pieces := v.pieces.map (fun x => if x = q then { q with sent := some (cycleNo u) } else x) }))
      (dcsCommands u panelId q pix)) := by
  have may : ¬ (PanelStep.on ≠ .on ∨ s.tp.panel.teWait = true) := by
    rw [goes]
    decide
  rw [panelKick, panelKickFuel, if_neg (panelKick_of_free free), on, stepBytes]
  dsimp only
  rw [if_neg may, next]
  dsimp only
  rw [lines]

/-- Settles O37: pieces that are late leave as `piecesLost_foldl` says, and a free panel takes its next
piece (`panelKick_of_piece`). -/
theorem piecesAreOwedLostAndSentToThePanel : Obligations.PiecesAreOwedLostAndSentToThePanel := by
  intro a k s old late p free put sent
  have station : k.val ≠ panelId := Nat.ne_of_lt k.isLt
  have reaches (o : Nat) (f : State → State) {i : Instr} (row : exec i s = .next (tpReach s a o f)) :
      (agentOut s a = false → exec i s = .next s) ∧
      (agentOut s a = true → scriptAgent a = false → exec i s = .next (emit s (.error a .unmapped))) ∧
      (agentOut s a = true → scriptAgent a = true → running s islTP = false →
        exec i s = .next (errTo s a (0x20000000 + o) false true .fenced)) ∧
      (agentOut s a = true → scriptAgent a = true → running s islTP = true → exec i s = .next (f s)) :=
    ⟨fun out => row.trans (congrArg Host.Outcome.next (reach_of_not_out _ _ out)),
     fun out bar => row.trans (congrArg Host.Outcome.next ((reach_of_barred _ _ out bar).trans
      (errTo_of_ne (ne_two_of_not_scriptAgent bar) ..))),
     fun out may off => row.trans (congrArg Host.Outcome.next (reach_of_fenced _ _ out may off)),
     fun out may up => row.trans (congrArg Host.Outcome.next (reach_of_allowed _ _ out may up))⟩
  obtain ⟨out1, bar1, fenced1, go1⟩ := reaches (0x40000C + 0x20 * k.val) (fun s => oweAll s k)
    (i := .tpStRefresh a k) rfl
  obtain ⟨out2, bar2, fenced2, go2⟩ := reaches 0x608 (fun s => oweAll s panelId) (i := .tpPnlRefresh a) rfl
  refine ⟨?late, fun out => ⟨out1 out, out2 out⟩, fun out bar => ⟨bar1 out bar, bar2 out bar⟩,
    fun out may off => ⟨?_, fenced2 out may off⟩, fun out may up => ⟨fun x c found scene => ?_, fun none => ?_,
      fun i c at' scene => ?_, fun none => ?_⟩, fun waits => ⟨fun go reply => ?_, fun stays => ?_⟩, fun other => ?_,
    fun not => ?_, fun not => ?_, fun waits not => ?_, fun q u pix on go next lines => ?piece⟩
  case late =>
    have lost := piecesLost_foldl s station late
    refine ⟨_, rfl, ?_, lost.lost, lost.sent, and_eq_left_of_getLsbD fun i set => ?_, fun q j c hq at' scene => ?_,
      lost.others⟩
    · refine lost.pieces.trans (List.filter_congr fun q hq => ?_)
      congr 1
      rw [Bool.eq_iff_iff, List.contains_iff_mem, List.mem_filter]
      exact ⟨And.right, fun h => ⟨hq, h⟩⟩
    · rw [lost.owed i, set]
      rfl
    · refine and_eq_left_of_getLsbD fun i set => ?_
      have due : pieceDue s k q = patchesIn c (({ x := q.x, y := q.y, w := q.w, h := q.h } : Rect).meet
          (window s k c)) := by
        have found : (recvScene s k).bind (sceneOf s) = some c := by rw [at', Option.bind_some, scene]
        rw [pieceDue, found]
      rw [lost.owed i, Bool.or_eq_true, List.any_eq_true]
      exact .inr ⟨q, hq, by rw [due]; exact set⟩
  · refine (fenced1 out may off).trans ?_
    rw [show 0x20000000 + (0x40000C + 0x20 * k.val) = 0x2040000C + 0x20 * k.val by omega]
  · refine (go1 out may up).trans (congrArg Host.Outcome.next ?_)
    have at' : (recvScene s k).bind (sceneOf s) = some c := by
      rw [recvScene, if_neg station, found]
      exact scene
    have win : window s k c = ⟨0, 0, min c.width x.panelW, min c.height x.panelH⟩ := by
      rw [window, if_neg station, found]
    rw [oweAll, at']
    dsimp only
    rw [win]
  · refine (go1 out may up).trans (congrArg Host.Outcome.next ?_)
    rw [oweAll, recvScene, if_neg station, none]
    rfl
  · refine (go2 out may up).trans (congrArg Host.Outcome.next ?_)
    have found : (recvScene s panelId).bind (sceneOf s) = some c := by
      rw [recvScene, if_pos rfl, show s.tp.panel.scene = some i from at']
      exact scene
    rw [oweAll, found]
    rfl
  · refine (go2 out may up).trans (congrArg Host.Outcome.next ?_)
    rw [oweAll, recvScene, if_pos rfl, show s.tp.panel.scene = Option.none from none]
    rfl
  · refine congrArg Host.Outcome.next ((if_pos waits).trans ?_)
    refine (if_neg (panelKick_of_free (s := onPanel s (fun p => { p with step := .pixelFormat })) go)).trans ?_
    refine (if_neg ?_).trans rfl
    rw [show panelAwaits (onPanel s (fun p => { p with step := .pixelFormat })) = false from reply]
    decide
  · refine congrArg Host.Outcome.next ((if_pos waits).trans ?_)
    rcases stays with off | reply
    · exact panelKick_of_not_free (s := onPanel s (fun p => { p with step := .pixelFormat })) off
    · by_cases go : free = true
      · refine (if_neg (panelKick_of_free (s := onPanel s (fun p => { p with step := .pixelFormat })) go)).trans ?_
        exact if_pos reply
      · exact panelKick_of_not_free (s := onPanel s (fun p => { p with step := .pixelFormat }))
          (Bool.eq_false_iff.mpr go)
  · exact congrArg Host.Outcome.next (if_neg other)
  · exact congrArg Host.Outcome.next (panelKick_of_not_free (s := onPanel s (fun p => { p with teWait := false })) not)
  · exact congrArg Host.Outcome.next (if_neg (Bool.eq_false_iff.mp not))
  · exact congrArg Host.Outcome.next ((if_pos waits).trans (panelKick_of_not_free
      (s := onPanel s (fun p => { p with teWait := false, teMiss := true })) not))
  case piece =>
    have kicked := panelKick_of_piece (s := onPanel s (fun p => { p with teWait := false })) go on rfl next lines
    have kept : Follows [.basin, .staging, .intc, .fw] (onPanel s (fun p => { p with teWait := false })) u := by
      have := pieceLines_follows q.scene q q.h (onPanel s (fun p => { p with teWait := false })) q.y
      rw [show pieceLines q.scene q q.h (onPanel s (fun p => { p with teWait := false })) q.y = (u, some pix) from
        lines] at this
      exact this
    have panel : u.tp.panel = { p with teWait := false } := congrArg Towpath.panel (kept.tp (by decide))
    have out : u.out = s.out := kept.out (by decide)
    have cycle : cycleNo u = cycleNo s := congrArg (fun t => t.cyc.number) (kept.tl (by decide))
    obtain ⟨v, is⟩ : ∃ v, updRecv u panelId (fun v => { v with
        pieces := v.pieces.map (fun x => if x = q then { q with sent := some (cycleNo u) } else x) }) = v := ⟨_, rfl⟩
    rw [is] at kicked
    have panelV : v.tp.panel = { p with
        teWait := false,
        recv := { p.recv with
          pieces := p.recv.pieces.map (fun x => if x = q then { q with sent := some (cycleNo s) } else x) } } := by
      rw [← is, cycle, updRecv, if_pos rfl]
      show ({ u.tp.panel with recv := _ } : Panel) = _
      rw [panel]
    have outV : v.out = s.out := by
      rw [← is, ← out]
      rfl
    obtain ⟨l, isL⟩ : ∃ l, dcsCommands u panelId q pix = l := ⟨_, rfl⟩
    rw [isL] at kicked
    have bytes : l.flatMap (fun x => x.1 :: x.2) = [0x2A] ++ beBytes 2 (q.x - p.offX) ++
        beBytes 2 (q.x - p.offX + q.w - 1) ++ [0x2B] ++ beBytes 2 (q.y - p.offY) ++
        beBytes 2 (q.y - p.offY + q.h - 1) ++ [0x2C] ++ formatRun 0 [] pix := by
      rw [← isL]
      show List.flatMap (fun x : Byte × List Byte => x.1 :: x.2)
        [(0x2A, beBytes 2 (q.x - u.tp.panel.offX) ++ beBytes 2 (q.x - u.tp.panel.offX + q.w - 1)),
          (0x2B, beBytes 2 (q.y - u.tp.panel.offY) ++ beBytes 2 (q.y - u.tp.panel.offY + q.h - 1)),
          (0x2C, formatRun 0 [] pix)] = _
      rw [panel]
      simp
    refine ⟨_, congrArg Host.Outcome.next kicked, ?_, ?_, ?_, ?_, ?_, ?_⟩
    · rw [panel_freeAll]
      exact congrArg Panel.teWait panelV
    · rw [panel_freeAll]
      rfl
    · rw [sqOf, (freeAll_follows _).pi (by decide)]
      exact congrArg Sq.busy (sqOf_updSq_self v 1 _)
    · rw [sqOf, (freeAll_follows _).pi (by decide)]
      exact congrArg Sq.held (sqOf_updSq_self v 1 _)
    · rw [(freeAll_follows _).out (by decide), ← bytes, ← outV]
      rfl
    · rw [panel_freeAll]
      exact congrArg (fun p => p.recv.pieces) panelV

end Sys2Proof.Machine
end

section
/-! PROOFS. Sluice's descriptors (chapter 17, R667 to R684): the obligation O51. -/
open Sys2Proof

namespace Sys2Proof.Machine

section
variable {s u : State} {n : Nat}

/-- A fetch that reads its descriptor (R667, R671). -/
theorem fetchDesc_of_read {b : List Byte} {w : List Word} {t : State}
    (live : pageLive s ((chanOf s n).cur.toNat / 65536) = true)
    (read : readMem s 11 (chanOf s n).cur.toNat 32 = (u, .ok b))
    (words : (List.range 8).map (fun k => leWord (b.drop (4 * k))) = w)
    (is : updChan u n (fun c => { c with desc := w, next := w.getD 0 0, issued := 0, step := .move }) = t) :
    fetchDesc s n = if !(chanOf t n).valid then updChan t n (fun c => c.fail 0 slBAD_ARG)
      else if !(chanOf t n).pagesOk t then updChan t n (fun c => c.fail 0 slDENIED)
      else if (chanOf t n).total = 0 then completeDesc t n else t := by
  unfold fetchDesc
  dsimp only
  rw [live, if_neg (by decide), read]
  dsimp only
  rw [words, is]

theorem completeDesc_of_written (write : writeResult s 11 (chanOf s n) 0 0 = (u, none))
    (last : (chanOf s n).next = 0) :
    completeDesc s n = updChan
      (if (chanOf s n).notify then
        postRec (raiseShared (updChan u n (fun c => { c with done := c.done + 1 })) n) islSL 0x20 (chanOf s n).handle
          ((chanOf s n).done + 1) (chanOf s n).moor
       else updChan u n (fun c => { c with done := c.done + 1 })) n (fun c => { c with step := .recheck }) := by
  unfold completeDesc
  dsimp only
  rw [write]
  exact if_neg (not_not.mpr last)

/-- A burst that may be performed ends (R673). -/
theorem endBurst_of_done {k : Nat} {h : HostCpl} {b : Burst} {t : State}
    (flies : (chanOf s n).flight[k]? = some b) (free : burstHeld s (chanOf s n) b = false)
    (done : doBurst s (chanOf s n) b h = (u, none))
    (is : updChan u n (fun c => { c with flight := c.flight.eraseIdx k }) = t) :
    endBurst s n k h = if (chanOf t n).state = .running && (chanOf t n).flight.isEmpty &&
      (chanOf t n).total ≤ (chanOf t n).issued then completeDesc t n else t := by
  subst is
  unfold endBurst
  dsimp only
  rw [flies]
  dsimp only
  rw [free, if_neg (by decide), done]

/-- A burst that ends in an error stops its channel (R694). -/
theorem endBurst_of_error {k st : Nat} {h : HostCpl} {b : Burst}
    (flies : (chanOf s n).flight[k]? = some b) (free : burstHeld s (chanOf s n) b = false)
    (done : doBurst s (chanOf s n) b h = (u, some st)) :
    endBurst s n k h = updChan (updChan u n (fun c => { c with flight := c.flight.eraseIdx k })) n
      (fun c => c.fail b.off st) := by
  unfold endBurst
  dsimp only
  rw [flies]
  dsimp only
  rw [free, if_neg (by decide), done]

theorem endBurst_of_held {k : Nat} {h : HostCpl} {b : Burst}
    (flies : (chanOf s n).flight[k]? = some b) (held : burstHeld s (chanOf s n) b = true) :
    endBurst s n k h = s := by
  unfold endBurst
  dsimp only
  rw [flies]
  exact if_pos held

/-- One entry of a submission mooring (R684). -/
theorem submitEntries_of_one {m : Moor} {b : List Byte} {v x : State} {fuel : Nat} {cons : Word}
    (some' : 0 < fuel) (read : readMem u 11 (m.entry cons) 16 = (v, .ok b))
    (write : writeReq (submitEntry v ((List.range 4).map (fun k => leWord (b.drop (4 * k))))) 11 (m.cb + 4)
      (leBytes 4 (cons + 1).toNat) = (x, none)) :
    submitEntries fuel u m (cons + 1) cons = x := by
  obtain ⟨fuel, rfl⟩ : ∃ k, fuel = k + 1 := ⟨fuel - 1, by omega⟩
  have differ : ¬ cons + 1 = cons := by
    intro same
    have := congrArg BitVec.toNat same
    have small := cons.isLt
    rw [BitVec.toNat_add] at this
    have one : (1 : Word).toNat = 1 := rfl
    omega
  have rest : submitEntries fuel x m (cons + 1) (cons + 1) = x := by
    cases fuel with
    | zero => rfl
    | succ k => exact if_pos rfl
  rw [submitEntries, if_neg differ, read]
  dsimp only
  rw [write]
  exact rest
end

/-- What issuing a burst leaves (R672, R673). -/
theorem issueBurst_takes (s : State) (n : Nat) :
    let c := chanOf s n
    let e := if c.srcSpace = 1 ∨ c.dstSpace = 1 then hostErr s else none
    chanOf (issueBurst s n) n = { c with
      flight := c.flight ++ [{ c.burst with err := e, seq := s.sl.bursts }], issued := c.issued + c.burst.len } ∧
    (∀ m, m ≠ n → chanOf (issueBurst s n) m = chanOf s m) ∧
    (c.srcSpace ≠ 1 → (issueBurst s n).out = s.out) := by
  intro c e
  obtain ⟨u, is⟩ : ∃ u, onSl (updChan s n (fun x => { x with
    flight := x.flight ++ [{ c.burst with err := e, seq := s.sl.bursts }], issued := x.issued + c.burst.len }))
    (fun x => { x with served := x.served.put c.prio.toNat n, bursts := x.bursts + 1 }) = u := ⟨_, rfl⟩
  have chans (m : Nat) : chanOf u m = chanOf (updChan s n (fun x => { x with
      flight := x.flight ++ [{ c.burst with err := e, seq := s.sl.bursts }], issued := x.issued + c.burst.len })) m := by
    rw [← is]
    rfl
  have issued : issueBurst s n = if c.srcSpace = 1 ∧ e = none then
      emit u (.hostRead (BitVec.ofNat 64 (c.burst.src / 4 * 4))
        ((c.burst.src + c.burst.len + 3) / 4 * 4 - c.burst.src / 4 * 4)) else u := by
    rw [← is]
    rfl
  have same (m : Nat) : chanOf (issueBurst s n) m = chanOf u m := by
    rw [issued]
    split <;> rfl
  refine ⟨?_, fun m other => ?_, fun noRead => ?_⟩
  · rw [same, chans, chanOf_updChan_self]
  · rw [same, chans, chanOf_updChan_of_ne _ _ other]
  · rw [issued, if_neg (fun both => noRead both.1), ← is]
    rfl

/-- Settles O51: each command is the lemma on its row. -/
theorem sluiceExecutesDescriptors : Obligations.SluiceExecutesDescriptors := by
  intro ch k host s u c up
  refine ⟨fun b running fetching read => ?fetch, fun turn room => ?issue, fun b flies held => ?_,
    fun b flies free done => ?complete, fun b st flies free done => ?_, fun write last => ?_,
    fun running recheck read => ?_, fun link running recheck read some' aligned inside => ?_,
    fun slot i m b e v x one moor sized read next entry => ?submit⟩
  case fetch =>
    intro w f t live
    have begins : (Machine.running s islSL && decide (c.state = .running) && decide (c.step = .fetch)) = true := by
      rw [up, decide_eq_true running, decide_eq_true fetching]
      rfl
    have self : chanOf t ch = f := chanOf_updChan_self ..
    have run : exec (.slDescriptorFetch ch) s = .next (if !f.valid then updChan t ch (fun c => c.fail 0 slBAD_ARG)
        else if !f.pagesOk t then updChan t ch (fun c => c.fail 0 slDENIED)
        else if f.total = 0 then completeDesc t ch else t) := by
      rw [← self]
      exact congrArg Host.Outcome.next ((if_pos begins).trans (fetchDesc_of_read live read rfl rfl))
    refine ⟨fun valid pages some' => run.trans ?_, fun bad => run.trans ?_, fun valid bad => run.trans ?_,
      fun valid pages none => run.trans ?_⟩
    · rw [valid, pages, if_neg (by decide), if_neg (by decide), if_neg some']
    · rw [bad, if_pos (by decide)]
      rfl
    · rw [valid, bad, if_neg (by decide), if_pos (by decide)]
      rfl
    · rw [valid, pages, if_neg (by decide), if_neg (by decide), if_pos none]
  case issue =>
    have may : ¬ (!Machine.running s islSL || decide (64 ≤ inFlight s)) = true := by
      rw [up, decide_eq_false (Nat.not_le.mpr room)]
      decide
    have run : exec .slBurstIssue s = .next (issueBurst s ch) := by
      refine congrArg Host.Outcome.next ((if_neg may).trans ?_)
      rw [turn]
    obtain ⟨self, others, out⟩ := issueBurst_takes s ch
    exact ⟨_, run, self, others, out⟩
  · exact congrArg Host.Outcome.next ((if_pos up).trans (endBurst_of_held flies held))
  case complete =>
    intro t d
    have run : exec (.slBurstComplete ch k host) s = .next (if (decide (d.state = .running) && d.flight.isEmpty &&
        decide (d.total ≤ d.issued)) = true then completeDesc t ch else t) :=
      congrArg Host.Outcome.next ((if_pos up).trans (endBurst_of_done flies free done rfl))
    refine ⟨fun more => run.trans ?_, fun none running all => run.trans ?_⟩
    · rw [if_neg ?_]
      rw [Bool.and_eq_true, Bool.and_eq_true, decide_eq_true_iff, List.isEmpty_iff]
      rintro ⟨⟨running, none⟩, -⟩
      exact more.elim (· none) (· running)
    · rw [if_pos ?_]
      rw [decide_eq_true running, decide_eq_true all, List.isEmpty_iff.mpr none]
      rfl
  · exact congrArg Host.Outcome.next ((if_pos up).trans (endBurst_of_error flies free done))
  · intro t told
    exact completeDesc_of_written write last
  · have begins : (Machine.running s islSL && decide (c.state = .running) && decide (c.step = .recheck)) = true := by
      rw [up, decide_eq_true running, decide_eq_true recheck]
      rfl
    refine congrArg Host.Outcome.next ((if_pos begins).trans ?_)
    rw [readNext, read]
    rfl
  · have begins : (Machine.running s islSL && decide (c.state = .running) && decide (c.step = .recheck)) = true := by
      rw [up, decide_eq_true running, decide_eq_true recheck]
      rfl
    exact congrArg Host.Outcome.next ((if_pos begins).trans
      ((readNext_of_link true read some').trans (followLink_of_descriptor aligned inside)))
  case submit =>
    intro w write
    refine congrArg Host.Outcome.next ((if_pos up).trans ?_)
    rw [one, List.foldl_cons, List.foldl_nil, pollMoor, moor]
    dsimp only
    rw [read]
    dsimp only
    rw [next] at write ⊢
    exact submitEntries_of_one sized entry write

end Sys2Proof.Machine
end

section
/-! PROOFS. The serial channels (chapter 18, R704 to R721, R742): the obligation O53. -/
open Sys2Proof

namespace Sys2Proof.Machine

/-! ### The lines of a segment (R705, R706) -/

theorem clocksOf_eq_map (lanes k : Nat) (l : List Bool) :
    clocksOf lanes k l = (List.range k).map (fun i => driven ((l.drop (lanes * i)).take lanes)) := by
  induction k generalizing l with
  | zero => rfl
  | succ k ih =>
    rw [clocksOf, ih, List.range_succ_eq_map, List.map_cons, List.map_map]
    congr 1
    refine List.map_congr_left fun i _ => ?_
    rw [Function.comp_apply, List.drop_drop, Nat.mul_succ, Nat.add_comm]

/-- The bits of one clock, in their order. -/
theorem take_drop_eq_map (l : List Bool) {at' n : Nat} (h : at' + n ≤ l.length) :
    (l.drop at').take n = (List.range n).map (fun j => l.getD (at' + j) false) := by
  apply List.ext_getElem
  · simp only [List.length_take, List.length_drop, List.length_map, List.length_range]
    omega
  · intro i small _
    have : i < n := by
      simp only [List.length_take] at small
      omega
    simp [List.getD_eq_getElem?_getD, List.getElem?_eq_getElem (show at' + i < l.length by omega)]

theorem onLanes_eq_map (code : Nat) (l : List Bool) :
    onLanes code l = (List.range (l.length / 2 ^ code)).map (fun i =>
      driven ((List.range (2 ^ code)).map (fun j => l.getD (2 ^ code * i + j) false))) := by
  rw [onLanes, laneCount, clocksOf_eq_map]
  refine List.map_congr_left fun i hi => ?_
  rw [take_drop_eq_map]
  have clock := Nat.succ_le_of_lt (List.mem_range.mp hi)
  calc 2 ^ code * i + 2 ^ code = (i + 1) * 2 ^ code := by rw [Nat.succ_mul, Nat.mul_comm]
    _ ≤ l.length := (Nat.le_div_iff_mul_le (Nat.two_pow_pos code)).mp clock

theorem onLanes_one (l : List Bool) :
    onLanes 0 l = l.map (fun v => { io0 := ioBit v, io1 := .released, io2 := .high, io3 := .high }) := by
  rw [onLanes_eq_map]
  apply List.ext_getElem
  · simp
  · intro i small _
    have : i < l.length := by simpa using small
    simp [driven, List.getD_eq_getElem?_getD, List.getElem?_eq_getElem this]

theorem onLanes_two (l : List Bool) : onLanes 1 l = (List.range (l.length / 2)).map (fun i =>
    { io0 := ioBit (l.getD (2 * i + 1) false), io1 := ioBit (l.getD (2 * i) false), io2 := .high, io3 := .high }) :=
  onLanes_eq_map 1 l

theorem onLanes_four (l : List Bool) : onLanes 2 l = (List.range (l.length / 4)).map (fun i =>
    { io0 := ioBit (l.getD (4 * i + 3) false), io1 := ioBit (l.getD (4 * i + 2) false),
      io2 := ioBit (l.getD (4 * i + 1) false), io3 := ioBit (l.getD (4 * i) false) }) :=
  onLanes_eq_map 2 l

/-- Bits of a run of bytes, the most significant of each first. -/
theorem flatMap_msbFirst (b : List Byte) : b.flatMap (fun x => msbFirst 8 x.toNat) =
    (List.range (8 * b.length)).map (fun n => (b.getD (n / 8) 0).getLsbD (7 - n % 8)) := by
  induction b with
  | nil => rfl
  | cons x r ih =>
    rw [List.flatMap_cons, ih, List.length_cons, Nat.mul_succ, Nat.add_comm, List.range_add, List.map_append,
      List.map_map]
    congr 1
    refine List.map_congr_left fun n _ => ?_
    rw [Function.comp_apply, Nat.add_div_left n (by decide), List.getD_cons_succ, Nat.add_mod_left]

theorem dataLines_of_write {g : SqSeg} (write : g.read = false) (plain : g.dc9 = false) {b : List Byte}
    {bits : Nat} (enough : bits ≤ 8 * b.length) :
    g.dataLines b bits = onLanes (fld g.phase 16 2)
      ((List.range bits).map (fun n => (b.getD (n / 8) 0).getLsbD (7 - n % 8))) := by
  have sent : b.flatMap (fun x => (if g.dc9 then [true] else []) ++ msbFirst 8 x.toNat) =
      b.flatMap (fun x => msbFirst 8 x.toNat) := by
    rw [plain]
    rfl
  rw [SqSeg.dataLines, if_neg (by rw [write]; decide), sent, flatMap_msbFirst, ← List.map_take, List.take_range,
    Nat.min_eq_left enough]

/-- The first four bytes of a word are its fields (R710). -/
theorem leBytes_four (v : Word) : leBytes 4 v.toNat =
    [v.extractLsb' 0 8, v.extractLsb' 8 8, v.extractLsb' 16 8, v.extractLsb' 24 8] := by
  have byte (k : Nat) : BitVec.ofNat 8 (v.toNat / 2 ^ k) = v.extractLsb' k 8 := by
    apply BitVec.eq_of_toNat_eq
    rw [BitVec.toNat_ofNat, BitVec.extractLsb'_toNat, Nat.shiftRight_eq_div_pow]
  simp only [leBytes, ← byte, Nat.pow_zero, Nat.div_one, Nat.div_div_eq_div_mul]
  rfl

/-! ### The run of a frame (R710, R711) -/

theorem sqAdvance_of_idle {s : State} {ch : Nat} (idle : (sqOf s ch).busy = false) : sqAdvance s ch = s := by
  have stays : ¬ ((sqOf s ch).busy && !(sqOf s ch).held) = true := by
    rw [idle, Bool.false_and]
    decide
  exact if_neg stays

theorem emits_nil (s : State) : emits s [] = s := by
  have out : s.out ++ [] = s.out := List.append_nil _
  show ({ s with out := s.out ++ [] } : State) = s
  rw [out]

/-- The write of a first segment of whole units up to a byte that the FIFO holds. -/
theorem sqTo_of_write {s : State} {ch whole : Nat} (busy : (sqOf s ch).busy = true)
    (free : (sqOf s ch).held = false) (first : (sqOf s ch).at_ = 0) (start : (sqOf s ch).off = 0)
    (fresh : (sqOf s ch).sent = []) (write : ((sqOf s ch).segAt 0).read = false)
    (fits : whole ≤ ((sqOf s ch).segAt 0).len) (holds : whole ≤ (sqOf s ch).tx.length) :
    sqTo s ch 0 whole = updSq s ch (fun _ => { sqOf s ch with
      sent := (sqOf s ch).tx.take whole, tx := (sqOf s ch).tx.drop whole, off := whole }) := by
  obtain ⟨q, is⟩ : ∃ q, sqOf s ch = q := ⟨_, rfl⟩
  rw [is] at busy free first start fresh write fits holds
  rw [is]
  obtain ⟨m, isM⟩ : ∃ m : Sq, { q with sent := q.tx.take whole, tx := q.tx.drop whole, off := whole } = m :=
    ⟨_, rfl⟩
  have still : m.at_ = 0 := by
    rw [← isM]
    exact first
  rw [isM]
  have run : sqRun ch 0 whole 5 q = (m, []) := by
    rw [sqRun]
    dsimp only
    by_cases none : whole = 0
    · rw [if_pos ⟨Nat.zero_le _, .inr (by omega)⟩, ← isM, none, List.take_zero, List.drop_zero, ← fresh, ← start]
    · have moved : q.moveData (min whole (q.segAt 0).len) = m := by
        rw [Sq.moveData, first, if_neg (by rw [write]; decide), Nat.min_eq_left fits, start, fresh, Nat.sub_zero,
          Nat.min_eq_left holds, ← isM]
        dsimp only
        rw [Nat.zero_add, List.nil_append, first]
      have more : ¬ (0 ≤ q.at_ ∧ (0 < q.at_ ∨ whole ≤ q.off)) := by omega
      rw [if_neg more, if_pos first, first, moved, if_pos (.inr (.inr still))]
  unfold sqTo
  dsimp only
  rw [is, if_pos (by rw [busy, free]; rfl), run]
  exact emits_nil _

/-- An early release in the data phase of the first segment, past bytes that the FIFO holds (R717 to
R719). -/
theorem earlyRelease_of_write {s : State} {ch bits : Nat} (busy : (sqOf s ch).busy = true)
    (free : (sqOf s ch).held = false) (first : (sqOf s ch).at_ = 0) (start : (sqOf s ch).off = 0)
    (fresh : (sqOf s ch).sent = []) (write : ((sqOf s ch).segAt 0).read = false)
    (plain : ((sqOf s ch).segAt 0).dc9 = false) (fits : bits ≤ 8 * ((sqOf s ch).segAt 0).len)
    {commit : Bool} (policy : (sqOf s ch).cfg.getLsbD 17 = commit) {whole : Nat}
    (units : (if commit then bits / 8 else (bits + 7) / 8) = whole) (holds : whole ≤ (sqOf s ch).tx.length) :
    ∃ u, sqOf u ch = { sqOf s ch with
        sent := (sqOf s ch).tx.take whole, tx := (sqOf s ch).tx.drop whole, off := whole } ∧
      (∀ k, k ≠ ch → sqOf u k = sqOf s k) ∧ u.out = s.out ∧ u.intc = s.intc ∧
      earlyRelease s ch 0 3 bits = sqEnd (emit (updSq u ch (fun q => q.partialUnit (if commit then bits % 8 else 0)))
        ((sqOf u ch).wireTo ch 3 none (if commit then bits % 8 else 0))) ch 1 0 3
        (whole * 8 + if commit then bits % 8 else 0) := by
  have len : whole ≤ ((sqOf s ch).segAt 0).len := by
    rw [← units]
    split <;> omega
  have ran := sqTo_of_write busy free first start fresh write len holds
  have unit : ((sqOf s ch).segAt 0).unit = 8 := by
    rw [SqSeg.unit, plain]
    rfl
  obtain ⟨m, isM⟩ : ∃ m : Sq, { sqOf s ch with
    sent := (sqOf s ch).tx.take whole, tx := (sqOf s ch).tx.drop whole, off := whole } = m := ⟨_, rfl⟩
  have mAt : m.at_ = 0 := by
    rw [← isM]
    exact first
  have mOff : m.off = whole := by rw [← isM]
  have mUnit : (m.segAt 0).unit = 8 := by
    rw [← isM]
    exact unit
  rw [isM] at ran ⊢
  refine ⟨updSq s ch (fun _ => m), sqOf_updSq_self .., fun k other => sqOf_updSq_of_ne _ _ other, rfl, rfl, ?_⟩
  have clipped : min bits (((sqOf s ch).segAt 0).len * 8) = bits := by omega
  have policy' : bit (sqOf s ch).cfg 17 = commit := policy
  unfold earlyRelease
  dsimp only
  rw [unit, clipped, policy', if_pos rfl, show (if commit = true then bits / 8 else (bits + 8 - 1) / 8) = whole from units,
    ran, sqOf_updSq_self, mAt, mOff, mUnit]
  simp

/-! ### The end of a frame (R711) -/

/-- A frame that goes no further than its first segment sends no break before it. -/
theorem wireTo_of_first {m : Sq} (first : m.at_ = 0) (ch extra : Nat) {bits : Nat}
    (sent : m.off * (m.segAt 0).unit + extra = bits) :
    m.wireTo ch 3 none extra = .serial ch none (fld m.cfg 0 8) (decide (2 ≤ fld m.cfg 8 2))
      ((m.segAt 0).wave (fld m.cfg 8 2) 3 none (m.sent ++ m.tx.take 1) bits) := by
  unfold Sq.wireTo Sq.segOut
  dsimp only
  rw [first, sent, decide_eq_true rfl, if_neg (by rw [Bool.not_true, Bool.and_false]; decide)]
  rfl

theorem intc_raiseShared {s u : State} (n : Nat) (same : u.intc = s.intc) :
    (raiseShared u n).intc = (raiseShared s n).intc := by
  unfold raiseShared updShared
  dsimp only
  rw [same]

theorem sqOf_of_pi {s u : State} (ch : Nat) (same : u.pi = s.pi) : sqOf u ch = sqOf s ch := by
  unfold sqOf
  rw [same]

theorem sqOf_sqEnd_self (s : State) (ch result seg phase bits : Nat) :
    sqOf (sqEnd s ch result seg phase bits) ch = { sqOf s ch with
      busy := false, done := true, result := result, seg := seg, phase := phase, bits := bits,
      at_ := 0, off := 0, sent := [], miso := [] } := by
  unfold sqEnd
  dsimp only
  rw [sqOf_of_pi ch ((raiseShared_follows _ _).pi (by decide)), sqOf_updSq_self]

theorem sqOf_sqEnd_of_ne (s : State) {ch c : Nat} (result seg phase bits : Nat) (other : c ≠ ch) :
    sqOf (sqEnd s ch result seg phase bits) c = sqOf s c := by
  unfold sqEnd
  dsimp only
  rw [sqOf_of_pi c ((raiseShared_follows _ _).pi (by decide)), sqOf_updSq_of_ne _ _ other]

theorem intc_sqEnd (s : State) (ch result seg phase bits : Nat) :
    (sqEnd s ch result seg phase bits).intc = (raiseShared s (0xA0 + ch)).intc :=
  intc_raiseShared _ rfl

theorem take_append_take_drop (l : List Byte) (k : Nat) : l.take k ++ (l.drop k).take 1 = l.take (k + 1) :=
  List.take_add.symm

theorem piReach_of_allowed {s : State} {a : Agent} (o : Nat) (store : Bool) (f : State → State)
    (out : agentOut s a = true) (ok : fwAgent a = true) (up : running s islPI = true) :
    piReach s a o store f = f s :=
  reach_of_allowed _ _ out ok up

/-- Settles O53, by the commands' branches for the frames, by the run of the bytes that the FIFO holds for the
early release, and by the order of the bits on each number of lanes for the lines. -/
theorem serialChannelsRunAndEndTheirFrames : Obligations.SerialChannelsRunAndEndTheirFrames := by
  refine ⟨?frames, ?release, ?lines⟩
  case lines =>
    intro g b bits mode l io code bitOf lvl
    refine ⟨onLanes_one l, onLanes_two l, onLanes_four l, fun eight => ?_, fun small => ?_, fun write plain enough => ?_,
      fun read some' => ?_, fun read one x hx => ?_, ?_⟩
    · rw [SqSeg.cmdLines, eight]
      rfl
    · rw [SqSeg.addrLines, SqSeg.addrBytes, Nat.min_eq_right small]
      rfl
    · exact dataLines_of_write write plain enough
    · rw [SqSeg.dataLines, if_pos read, receiving, if_neg some']
      rfl
    · rw [SqSeg.dataLines, if_pos read, receiving, if_pos one] at hx
      rw [List.eq_of_mem_replicate hx]
      exact ⟨rfl, rfl, rfl⟩
    · unfold halves
      by_cases first : mode = 1 ∨ mode = 2
      · rw [if_pos first, decide_eq_true first]
        rfl
      · rw [if_neg first, decide_eq_false first]
        rfl
  case release =>
    intro ch bits s q g whole up busy free policed raised first start fresh write plain fits holds
    obtain ⟨u, moved, others, out, intc, ran⟩ :=
      earlyRelease_of_write busy free first start fresh write plain fits rfl rfl holds
    have taken : exec (.earlyRelease ch 0 3 bits) s = .next (earlyRelease s ch 0 3 bits) := by
      refine congrArg Host.Outcome.next (if_pos ?_)
      have released : q.released s = true := by
        rw [Sq.released, raised, show bit q.cfg 16 = true from policed]
        rfl
      rw [up, busy, free, released]
      rfl
    have bitsSent : (whole * 8 + if q.cfg.getLsbD 17 then bits % 8 else 0) =
        if q.cfg.getLsbD 17 then bits else 8 * whole := by
      by_cases commit : q.cfg.getLsbD 17 = true
      · rw [show whole = bits / 8 from if_pos commit, if_pos commit, if_pos commit]
        exact Nat.div_add_mod' _ _
      · rw [if_neg commit, if_neg commit]
        exact Nat.mul_comm _ _
    have unit : (q.segAt 0).unit = 8 := by
      rw [SqSeg.unit, show (q.segAt 0).dc9 = false from plain]
      rfl
    refine ⟨_, taken, ?_⟩
    rw [show earlyRelease s ch 0 3 bits = _ from ran, sqOf_sqEnd_self, bitsSent]
    refine ⟨rfl, rfl, rfl, rfl, rfl, rfl, ?_, ?_, fun c other => ?_⟩
    · rw [(sqEnd_follows _ _ _ _ _ _).out (by decide)]
      show u.out ++ [_] = _
      rw [out, wireTo_of_first ((congrArg Sq.at_ moved).trans first) _ _ ?sent, moved]
      · dsimp only
        rw [take_append_take_drop]
        rfl
      case sent =>
        rw [moved]
        exact (congrArg (whole * · + _) unit).trans bitsSent
    · rw [intc_sqEnd]
      exact intc_raiseShared _ intc
    · have apart : (c : Nat) ≠ ch := fun same => other (Fin.ext same)
      rw [sqOf_sqEnd_of_ne _ _ _ _ _ apart]
      show sqOf (updSq u ch _) c = _
      rw [sqOf_updSq_of_ne _ _ apart, others _ apart]
  case frames =>
    intro a ch miso v s q ended noSelect u p g w r z y up
    have runsAs (i : Nat) : running w i = running s i := by
      unfold running isl
      rw [(panelStart_follows s).islands (by decide)]
    have upW : running w islPI = true := (runsAs _).trans up
    refine ⟨fun out ok => ⟨fun busy => ?_, fun busy raised => ?_, fun busy lowered bad => ?_,
        fun busy lowered good => ?_, fun busy => sqAdvance_of_idle busy, ?_, ?_⟩,
      fun none => ?_, fun busy free whole => ?_, fun busy held upTp => ?_, fun busy free part => ?_,
      fun busy held upTp => ?_⟩
    · refine congrArg Host.Outcome.next ((piReach_of_allowed _ _ _ out ok up).trans ?_)
      exact if_pos busy
    · refine congrArg Host.Outcome.next ((piReach_of_allowed _ _ _ out ok up).trans ?_)
      exact (if_neg (by rw [busy]; decide)).trans (if_pos raised)
    · refine congrArg Host.Outcome.next ((piReach_of_allowed _ _ _ out ok up).trans ?_)
      exact (if_neg (by rw [busy]; decide)).trans ((if_neg ((Bool.not_eq_true _).mpr lowered)).trans (if_pos bad))
    · refine congrArg Host.Outcome.next ((piReach_of_allowed _ _ _ out ok up).trans ?_)
      exact (if_neg (by rw [busy]; decide)).trans
        ((if_neg ((Bool.not_eq_true _).mpr lowered)).trans (if_neg (by rw [good]; decide)))
    · refine congrArg Host.Outcome.next ((piReach_of_allowed _ _ _ out ok up).trans ?_)
      unfold sqTx
      rw [leBytes_four]
    · exact congrArg Host.Outcome.next (piReach_of_allowed _ _ _ out ok up)
    · exact if_neg (by rw [none]; decide)
    · have runs : ¬ (!running w islPI || !r.busy) = true := by
        rw [upW, busy]
        decide
      refine congrArg Host.Outcome.next ((if_neg runs).trans ?_)
      exact (if_neg (by rw [free]; decide)).trans (if_pos whole)
    · have runs : ¬ (!running w islPI || !r.busy) = true := by
        rw [upW, busy]
        decide
      have upTpW : ¬ (!running w islTP) = true := by
        rw [runsAs, upTp]
        decide
      refine congrArg Host.Outcome.next ((if_neg runs).trans ?_)
      exact (if_pos held).trans (if_neg upTpW)
    · have runs : ¬ (!running s islPI || !q.busy) = true := by
        rw [up, busy]
        decide
      refine congrArg Host.Outcome.next ((if_neg runs).trans ?_)
      exact (if_neg (by rw [free]; decide)).trans (if_neg (by rw [part]; decide))
    · have runs : ¬ (!running s islPI || !q.busy) = true := by
        rw [up, busy]
        decide
      refine congrArg Host.Outcome.next ((if_neg runs).trans ?_)
      exact (if_pos held).trans (if_neg (by rw [upTp]; decide))

end Sys2Proof.Machine
end

section
/-! PROOFS. The sample grid (chapter 11, R437 to R468): the obligation O38. -/
open Sys2Proof

namespace Sys2Proof.Machine

/-! ### A fold that takes every index -/

/-- What holds after the turn of one index of a list, where the others keep what it needs and every turn
keeps what it gives. -/
theorem foldl_of_mem {β : Type} {f : β → Nat → β} {before after : β → Prop} {m : Nat}
    (others : ∀ b k, k ≠ m → before b → before (f b k)) (turn : ∀ b, before b → after (f b m))
    (kept : ∀ b k, after b → after (f b k)) {l : List Nat} (mem : m ∈ l) {b : β} (start : before b) :
    after (l.foldl f b) := by
  have keeps (l : List Nat) (b : β) (h : after b) : after (l.foldl f b) := by
    induction l generalizing b with
    | nil => exact h
    | cons k l ih => exact ih _ (kept b k h)
  induction l generalizing b with
  | nil => exact absurd mem List.not_mem_nil
  | cons k l ih =>
    by_cases own : k = m
    · subst own
      exact keeps l _ (turn b start)
    · exact ih (List.mem_of_ne_of_mem (Ne.symm own) mem) (others b k own start)

theorem foldl_keeps {β : Type} {f : β → Nat → β} {p : β → Prop} (kept : ∀ b k, p b → p (f b k)) (l : List Nat)
    {b : β} (start : p b) : p (l.foldl f b) := by
  induction l generalizing b with
  | nil => exact start
  | cons k l ih => exact ih (kept b k start)

theorem Tab.find?_map_values {α β : Type} (g : α → β) (t : Tab α) (i : Nat) :
    Tab.find? (t.map (fun p => (p.1, g p.2))) i = (Tab.find? t i).map g := by
  induction t with
  | nil => rfl
  | cons p r ih =>
    rw [List.map_cons, Tab.find?, Tab.find?, ih]
    split <;> rfl

/-! ### The block that becomes available (R456 to R458) -/

theorem mixOf_setMix_self (s : State) (m : Nat) (x : Mix) : mixOf (setMix s m x) m = some x :=
  Tab.find?_put_self ..

theorem mixOf_setMix_of_ne (s : State) {m k : Nat} (x : Mix) (other : m ≠ k) : mixOf (setMix s k x) m = mixOf s m :=
  Tab.find?_put_of_ne _ _ other

theorem mixOf_of_cv {s t : State} (same : t.cv = s.cv) (m : Nat) : mixOf t m = mixOf s m := by
  rw [mixOf, same, mixOf]

theorem cyc_dropAudio (s : State) (i : Nat) : (dropAudio s i).tl.cyc = s.tl.cyc := by
  unfold dropAudio
  split <;> rfl

theorem cyc_dropStale (s : State) (m : Nat) : (dropStale s m).tl.cyc = s.tl.cyc := by
  unfold dropStale
  split
  · rfl
  · split
    · rfl
    · exact cyc_dropAudio _ _

/-- The blocks of a mix that no frame sent could have carried, after a later one is available. -/
theorem mixOf_dropStale {s : State} {m st : Nat} {x : Mix} (found : mixOf s m = some x) (routed : x.station = some st) :
    mixOf (dropStale s m) m =
      some { x with blocks := x.blocks.filter (fun b => decide (s.tl.cyc.tick.toNat < availTick b.1)) } := by
  unfold dropStale
  rw [found]
  dsimp only
  rw [routed]
  dsimp only
  rw [mixOf_of_cv ((dropAudio_follows _ _).cv (by decide)), mixOf_setMix_self]

theorem mixOf_dropStale_of_ne (s : State) {m k : Nat} (other : m ≠ k) : mixOf (dropStale s k) m = mixOf s m := by
  unfold dropStale
  split
  · rfl
  · split
    · rfl
    · rw [mixOf_of_cv ((dropAudio_follows _ _).cv (by decide)), mixOf_setMix_of_ne _ _ other]

theorem mixOf_updMix_of_ne (s : State) {m j : Nat} (f : Mix → Mix) (other : m ≠ j) :
    mixOf (updMix s j f) m = mixOf s m := by
  unfold updMix
  split
  · rfl
  · exact mixOf_setMix_of_ne _ _ other

/-- A late block is counted, and CV_OVERRUN stays set. -/
theorem mixOf_counted (s : State) (m : Nat) (c : Bool) :
    mixOf (if c = true then onCv s (fun c => { c with overrun := true, lateBlocks := satAdd c.lateBlocks 1 }) else s) m =
      mixOf s m := by
  cases c <;> rfl

section
variable {k m : Nat} {late : List Nat} {a : State × Played}

theorem mixOf_availMix_of_ne {j : Nat} (other : j ≠ m) : mixOf (availMix k late a j).1 m = mixOf a.1 m := by
  obtain ⟨s, played⟩ := a
  unfold availMix
  dsimp only
  split
  · rfl
  · next x _ =>
    split
    · rfl
    · split
      · split
        · rw [mixOf_updMix_of_ne _ _ (Ne.symm other), mixOf_dropStale_of_ne _ (Ne.symm other),
            mixOf_setMix_of_ne _ _ (Ne.symm other)]
          exact mixOf_counted ..
        · rw [mixOf_setMix_of_ne _ _ (Ne.symm other)]
          exact mixOf_counted ..
      · rw [mixOf_setMix_of_ne _ _ (Ne.symm other)]
        exact mixOf_counted ..

theorem availMix_of_early {x : Mix} (found : mixOf a.1 m = some x) (early : k < x.first) : availMix k late a m = a := by
  unfold availMix
  dsimp only
  rw [found]
  dsimp only
  rw [if_pos early]

variable {x : Mix} {st : Nat} (found : mixOf a.1 m = some x) (routed : x.station = some st) (begun : x.first ≤ k)
include found routed begun

/-- A block that is ready joins those of its mix (R456). -/
theorem availMix_of_ready {b : List Int} (timely : late.contains m = false)
    (ready : x.done.find? (fun q => q.1 = k) = some (k, b)) :
    mixOf (availMix k late a m).1 m = some { x with
      done := x.done.filter (fun q => k < q.1),
      blocks := x.blocks.filter (fun q => decide (a.1.tl.cyc.tick.toNat < availTick q.1)) ++ [(k, b)] } := by
  obtain ⟨s, played⟩ := a
  unfold availMix
  dsimp only at found ⊢
  rw [found]
  dsimp only
  obtain ⟨y, isY⟩ : ∃ y : Mix, { x with done := x.done.filter (fun q => k < q.1) } = y := ⟨_, rfl⟩
  have routedY : y.station = some st := by
    rw [← isY]
    exact routed
  have blocks : y.blocks = x.blocks := by rw [← isY]
  rw [if_neg (by omega), if_neg (by rw [timely]; decide), ready, isY]
  dsimp only [Option.map_some]
  rw [routed, if_neg (c := (some b).isNone = true) Bool.false_ne_true]
  dsimp only
  unfold updMix
  rw [mixOf_dropStale (mixOf_setMix_self ..) routedY]
  dsimp only
  rw [mixOf_setMix_self, blocks, show (setMix s m y).tl = s.tl from rfl, ← isY]
  congr

/-- A block that is not ready is late (R466). -/
theorem availMix_of_late (missing : late.contains m = true ∨ x.done.find? (fun q => q.1 = k) = none) :
    (availMix k late a m).1 = setMix (onCv a.1 (fun c =>
      { c with overrun := true, lateBlocks := satAdd c.lateBlocks 1 })) m
        { x with done := x.done.filter (fun q => k < q.1) } := by
  obtain ⟨s, played⟩ := a
  have none' : (if late.contains m = true then none else (x.done.find? (fun q => decide (q.1 = k))).map (·.2)) = none := by
    rcases missing with listed | absent
    · exact if_pos listed
    · rw [absent]
      exact ite_self _
  unfold availMix
  dsimp only at found ⊢
  rw [found]
  dsimp only
  rw [if_neg (by omega), none', routed]
  exact congrArg (setMix · m _) (if_pos rfl)
end

section
variable (k : Nat) (late : List Nat) (a : State × Played) (j : Nat)

/-- What the turn of a mix keeps of the rest of CV and of the clocks. -/
structure AvailKeeps (s t : State) : Prop where
  sample : t.cv.sample = s.cv.sample
  bound : t.cv.bound = s.cv.bound
  avail : t.cv.avail = s.cv.avail
  overrun : s.cv.overrun = true → t.cv.overrun = true
  cyc : t.tl.cyc = s.tl.cyc

theorem AvailKeeps.refl (s : State) : AvailKeeps s s := ⟨rfl, rfl, rfl, id, rfl⟩

theorem AvailKeeps.trans {s t u : State} (f : AvailKeeps s t) (g : AvailKeeps t u) : AvailKeeps s u :=
  ⟨g.sample.trans f.sample, g.bound.trans f.bound, g.avail.trans f.avail, g.overrun ∘ f.overrun, g.cyc.trans f.cyc⟩

theorem availKeeps_setMix (s : State) (m : Nat) (x : Mix) : AvailKeeps s (setMix s m x) :=
  ⟨rfl, rfl, rfl, id, rfl⟩

theorem availKeeps_updMix (s : State) (m : Nat) (f : Mix → Mix) : AvailKeeps s (updMix s m f) := by
  unfold updMix
  split
  · exact .refl s
  · exact availKeeps_setMix ..

theorem availKeeps_dropStale (s : State) (m : Nat) : AvailKeeps s (dropStale s m) := by
  have cyc := cyc_dropStale s m
  unfold dropStale at cyc ⊢
  split
  · exact .refl s
  · split
    · exact .refl s
    · have same (u : State) (i : Nat) : (dropAudio u i).cv = u.cv := (dropAudio_follows u i).cv (by decide)
      refine (availKeeps_setMix ..).trans ⟨?_, ?_, ?_, ?_, cyc_dropAudio ..⟩ <;> rw [same]
      exact id

theorem availKeeps_counted (s : State) (c : Bool) : AvailKeeps s (if c = true then
    onCv s (fun c => { c with overrun := true, lateBlocks := satAdd c.lateBlocks 1 }) else s) := by
  cases c
  · exact .refl s
  · exact ⟨rfl, rfl, rfl, fun _ => rfl, rfl⟩

theorem availKeeps_availMix : AvailKeeps a.1 (availMix k late a j).1 := by
  obtain ⟨s, played⟩ := a
  unfold availMix
  dsimp only
  split
  · exact .refl s
  · split
    · exact .refl s
    · split
      · split
        · exact (((availKeeps_counted ..).trans (availKeeps_setMix ..)).trans (availKeeps_dropStale ..)).trans
            (availKeeps_updMix ..)
        · exact (availKeeps_counted ..).trans (availKeeps_setMix ..)
      · exact (availKeeps_counted ..).trans (availKeeps_setMix ..)
end

/-- The turns of all mixes (R456). -/
def availAll (k : Nat) (late : List Nat) (s : State) : State × Played :=
  (s.cv.mixes.map (·.1)).foldl (availMix k late) (s, [])

theorem mem_of_mixOf {s : State} {m : Nat} {x : Mix} (found : mixOf s m = some x) : m ∈ s.cv.mixes.map (·.1) :=
  List.mem_map.mpr ⟨(m, x), Tab.mem_of_find? found, rfl⟩

section
variable (k : Nat) (late : List Nat) (s : State)

theorem availKeeps_availAll : AvailKeeps s (availAll k late s).1 :=
  foldl_keeps (p := fun b => AvailKeeps s b.1) (fun b j h => h.trans (availKeeps_availMix k late b j)) _ (.refl s)

variable {k late s} {m : Nat} {x : Mix} (found : mixOf s m = some x)
include found

theorem mixOf_availAll_of_early (early : k < x.first) : mixOf (availAll k late s).1 m = some x := by
  refine foldl_keeps (p := fun (b : State × Played) => mixOf b.1 m = some x) (fun b j h => ?_) _ found
  by_cases own : j = m
  · rw [own, availMix_of_early h early, h]
  · rw [mixOf_availMix_of_ne own, h]

variable {st : Nat} (routed : x.station = some st) (begun : x.first ≤ k)
include routed begun

theorem availAll_of_late (missing : late.contains m = true ∨ x.done.find? (fun q => q.1 = k) = none) :
    (availAll k late s).1.cv.overrun = true ∧ ∃ z, mixOf (availAll k late s).1 m = some z ∧ z.blocks = x.blocks := by
  have turn (b : State × Played) (y : Mix) (h : mixOf b.1 m = some y) (blocks : y.blocks = x.blocks)
      (station : y.station = some st) (first : y.first ≤ k)
      (gone : late.contains m = true ∨ y.done.find? (fun q => q.1 = k) = none) :
      (availMix k late b m).1.cv.overrun = true ∧ ∃ z, mixOf (availMix k late b m).1 m = some z ∧
        z.blocks = x.blocks ∧ z.station = some st ∧ z.first ≤ k ∧
        (late.contains m = true ∨ z.done.find? (fun q => q.1 = k) = none) := by
    rw [availMix_of_late h station first gone]
    refine ⟨rfl, _, mixOf_setMix_self .., blocks, station, first, gone.imp id fun none => ?_⟩
    exact List.find?_eq_none.mpr fun q mem => List.find?_eq_none.mp none q (List.mem_of_mem_filter mem)
  obtain ⟨over', z, is, blocks, -⟩ := foldl_of_mem (f := availMix k late)
    (before := fun (b : State × Played) => mixOf b.1 m = some x)
    (after := fun b => b.1.cv.overrun = true ∧ ∃ z, mixOf b.1 m = some z ∧ z.blocks = x.blocks ∧
      z.station = some st ∧ z.first ≤ k ∧ (late.contains m = true ∨ z.done.find? (fun q => q.1 = k) = none))
    (fun b j other h => (mixOf_availMix_of_ne other).trans h)
    (fun b h => turn b x h rfl routed begun missing)
    (fun b j ⟨over', z, is, blocks, station, first, gone⟩ => by
      by_cases own : j = m
      · subst own
        exact turn b z is blocks station first gone
      · exact ⟨(availKeeps_availMix k late b j).overrun over', z, (mixOf_availMix_of_ne own).trans is, blocks, station,
          first, gone⟩)
    (mem_of_mixOf found) (b := (s, [])) found
  exact ⟨over', z, is, blocks⟩

theorem availAll_of_ready {b : List Int} (timely : late.contains m = false)
    (ready : x.done.find? (fun q => q.1 = k) = some (k, b)) :
    ∃ z, mixOf (availAll k late s).1 m = some z ∧
      z.blocks = x.blocks.filter (fun q => decide (s.tl.cyc.tick.toNat < availTick q.1)) ++ [(k, b)] ∧
      z.done = x.done.filter (fun q => k < q.1) := by
  have passed : (x.done.filter (fun q => k < q.1)).find? (fun q => q.1 = k) = none :=
    List.find?_eq_none.mpr fun q mem own => by
      have after := of_decide_eq_true (List.mem_filter.mp mem).2
      exact absurd (of_decide_eq_true own) (by omega)
  obtain ⟨z, is, blocks, done, -⟩ := foldl_of_mem (f := availMix k late)
    (before := fun (u : State × Played) => mixOf u.1 m = some x ∧ u.1.tl.cyc = s.tl.cyc)
    (after := fun (u : State × Played) => ∃ z, mixOf u.1 m = some z ∧
      z.blocks = x.blocks.filter (fun q => decide (s.tl.cyc.tick.toNat < availTick q.1)) ++ [(k, b)] ∧
      z.done = x.done.filter (fun q => k < q.1) ∧ z.station = some st ∧ z.first ≤ k)
    (fun u j other h => ⟨(mixOf_availMix_of_ne other).trans h.1, (availKeeps_availMix k late u j).cyc.trans h.2⟩)
    (fun u h => by
      refine ⟨_, availMix_of_ready h.1 routed begun timely ready, ?_, rfl, routed, begun⟩
      rw [h.2])
    (fun u j ⟨z, is, blocks, done, station, first⟩ => by
      by_cases own : j = m
      · subst own
        rw [availMix_of_late is station first (.inr (by rw [done]; exact passed))]
        refine ⟨_, mixOf_setMix_self .., blocks, ?_, station, first⟩
        dsimp only
        rw [done, List.filter_filter]
        simp only [Bool.and_self]
      · exact ⟨z, (mixOf_availMix_of_ne own).trans is, blocks, done, station, first⟩)
    (mem_of_mixOf found) (b := (s, [])) ⟨found, rfl⟩
  exact ⟨z, is, blocks, done⟩
end

/-! ### A block boundary (R454, R455, R464) -/

theorem mixOf_blockBoundary (s : State) (m : Nat) :
    mixOf (blockBoundary s) m = (mixOf s m).map (fun x => x.boundary (s.cv.bound * 50000)) :=
  Tab.find?_map_values (fun x : Mix => x.boundary (s.cv.bound * 50000)) s.cv.mixes m

theorem voiceOf_blockBoundary {s : State} {h : Nat} (due : s.cv.keyOffDue = some h) (past : h < s.cv.bound * 50000)
    (v : Nat) : voiceOf (blockBoundary s) v = (voiceOf s v).map (fun x => (x.boundary (s.cv.bound * 50000)).keyOff) ∧
      (blockBoundary s).cv.keyOffDue = none := by
  unfold blockBoundary onCv voiceOf
  dsimp only
  simp only [due, past, decide_true, if_true]
  exact ⟨Tab.find?_map_values (fun x : Voice => (x.boundary (s.cv.bound * 50000)).keyOff) s.cv.voices v, trivial⟩

section
variable {x : Mix} {t b : Nat} {g : Byte} {p : Option Parent}

theorem boundary_of_unchanged (still : x.next = []) : x.boundary t =
    { x with
      gainFrom := none
      parFrom := none
      next := []
      samples := [] } := by
  unfold Mix.boundary
  rw [still]
  rfl

theorem boundary_of_changed (change : x.next = [(b, g, p)]) (before : b < t) : x.boundary t =
    { x with
      gainFrom := if g = x.gainNow then none else some x.gainNow
      gainNow := g
      parFrom := if p = x.parNow then none else some x.parNow
      parNow := p
      next := []
      samples := [] } := by
  have last : lastBefore t x.next = (some (g, p), []) := by
    simp [change, lastBefore, before, Nat.not_le.mpr before]
  unfold Mix.boundary
  rw [last]

theorem boundary_of_later (change : x.next = [(b, g, p)]) (after : t ≤ b) : x.boundary t =
    { x with
      gainFrom := none
      parFrom := none
      samples := [] } := by
  have last : lastBefore t x.next = (none, x.next) := by
    simp [change, lastBefore, after, Nat.not_lt.mpr after]
  unfold Mix.boundary
  rw [last]
end

theorem phase_keyOff_boundary (x : Voice) (t : Nat) :
    (x.boundary t).keyOff.phase = if x.phase = 0 then 0 else 4 := by
  have kept : (x.boundary t).phase = x.phase := by
    unfold Voice.boundary
    dsimp only
    split <;> rfl
  unfold Voice.keyOff
  rw [kept]
  split
  · next silent => exact kept.trans silent
  · rfl

/-! ### The ports while CV is fenced (R463) -/

theorem sd_frameBits_of_zero (tdm : Bool) {l : List Word} (zero : ∀ w ∈ l, w = 0) :
    ∀ b ∈ frameBits tdm l, b.sd = false := by
  intro b hb
  obtain ⟨p, listed, rfl⟩ := List.mem_map.mp hb
  obtain ⟨w, hw, sent⟩ := List.mem_flatMap.mp (List.fst_mem_of_mem_zipIdx listed)
  obtain ⟨i, -, is⟩ := List.mem_map.mp sent
  rw [zero w hw, BitVec.ofNat_eq_ofNat, BitVec.getLsbD_zero] at is
  exact is.symm

/-- A port with no mix sends zeros (R462). -/
theorem portWave_nil (p : Port) (k : Nat) : ∀ b ∈ portWave p k [], b.sd = false := by
  intro b hb
  obtain ⟨f, -, frame⟩ := List.mem_flatMap.mp hb
  refine sd_frameBits_of_zero _ (fun w hw => ?_) b frame
  obtain ⟨q, -, rfl⟩ := List.mem_map.mp hw
  rfl

/-- What one port drives for a block. -/
def portOut (s : State) (played : Played) (k : Nat) : List Out :=
  let p := s.cv.ports.get {} k
  if p.enable then [.audio k (if p.tdm then 1 else 4) (portWave p k played)] else []

theorem drivePort_eq (played : Played) (s : State) (k : Nat) :
    drivePort played s k = { s with out := s.out ++ portOut s played k } := by
  unfold drivePort portOut
  dsimp only
  split
  · rfl
  · rw [List.append_nil]

theorem drivePorts_eq (s : State) (played : Played) :
    drivePorts s played = { s with out := s.out ++ (portOut s played 0 ++ portOut s played 1) } := by
  rw [drivePorts, List.foldl_cons, List.foldl_cons, List.foldl_nil, drivePort_eq, drivePort_eq, ← List.append_assoc]
  rfl

theorem mem_portOut {s : State} {played : Played} {k : Nat} (enabled : (Tab.get {} s.cv.ports k).enable = true) :
    .audio k (if (Tab.get {} s.cv.ports k).tdm then 1 else 4) (portWave (Tab.get {} s.cv.ports k) k played) ∈
      portOut s played k := by
  rw [portOut, if_pos enabled]
  exact List.mem_singleton_self _

/-! ### The commands -/

theorem errTo_of_barred {a : Nat} (barred : scriptAgent a = false) (s : State) (ad : Nat) (e : Err) :
    errTo s a ad false true e = emit s (.error a e) :=
  errTo_of_ne (ne_two_of_not_scriptAgent barred) ..

theorem voiceWrite_of_found {s : State} {v : Nat} {x : Voice} (found : voiceOf s v = some x) (w : VWrite) :
    voiceWrite s v w = setVoice s v { x with writes := x.writes ++ [(s.tick.toNat, w)] } := by
  unfold voiceWrite updVoice
  rw [found]

/-- One step of the sample grid (R437). -/
theorem sampleTick_takes {s : State} (runs : cvRuns s = true) : ∃ t, exec .sampleTick s = .next t ∧
    t.tick = (atTick s (sampleTick s.cv.sample)).tick ∧ t.cv.sample = s.cv.sample + 1 := by
  have go : ¬ (!cvRuns s) = true := by
    rw [runs]
    decide
  refine ⟨_, congrArg Host.Outcome.next (if_neg go), ?_⟩
  dsimp only
  obtain ⟨u, isU⟩ : ∃ u, (if s.cv.bound * 16 = s.cv.sample then
      blockBoundary (atTick s (sampleTick s.cv.sample)) else atTick s (sampleTick s.cv.sample)) = u := ⟨_, rfl⟩
  have tickU : u.tick = (atTick s (sampleTick s.cv.sample)).tick := by
    rw [← isU]
    split
    · exact (blockBoundary_follows _).tick (by decide)
    · rfl
  have bound : (atTick s (sampleTick s.cv.sample)).cv.bound = s.cv.bound := by
    rw [(atTick_follows _ _).cv (by decide)]
  rw [bound, isU]
  obtain ⟨w, isW⟩ : ∃ w, List.foldl (mixSample (allVoices s.cv.sample u).2 (s.cv.sample % 16))
    (allVoices s.cv.sample u).1 ((allVoices s.cv.sample u).1.cv.mixes.map (·.1)) = w := ⟨_, rfl⟩
  have tickW : w.tick = u.tick := by
    rw [← isW, (Follows.foldl (.refl _ (allVoices s.cv.sample u).1) (fun u m => mixSample_follows _ _ u m)).tick
      (by decide)]
    exact (allVoices_follows _ u).tick (by decide)
  rw [isW]
  refine ⟨Eq.trans ?_ (tickW.trans tickU), ?_⟩
  · split
    · exact (endBlock_follows _ _).tick (by decide)
    · rfl
  · split <;> rfl

theorem atTick_eq (s : State) (t : Nat) : atTick s t = { s with tick := (atTick s t).tick } := by
  unfold atTick
  split <;> rfl

/-- E(k) while the image of CV does not run (R463): the ports send zeros. -/
theorem blockAvailable_of_stopped {s : State} (later : 2 ≤ s.sys.mode.toNat) (stopped : cvRuns s = false)
    (late : List Nat) : ∃ t, exec (.blockAvailable late) s = .next t ∧
      t.out = s.out ++ (portOut s [] 0 ++ portOut s [] 1) ∧
      t = { s with
        tick := (atTick s (availTick s.cv.avail)).tick
        out := t.out
        cv := { s.cv with avail := s.cv.avail + 1 } } := by
  obtain ⟨tick, ticked⟩ : ∃ k, atTick s (availTick s.cv.avail) = { s with tick := k } := ⟨_, atTick_eq ..⟩
  have same (c : Chervil) : cvRuns { s with tick := tick, cv := c } = cvRuns s := rfl
  have started : ¬ (s.sys.mode = mBOOT ∨ s.sys.mode = mRECOVER) := by
    rintro (boot | recover)
    · rw [boot] at later
      exact absurd later (by decide)
    · rw [recover] at later
      exact absurd later (by decide)
  have is : exec (.blockAvailable late) s =
      .next (drivePorts { s with tick := tick, cv := { s.cv with avail := s.cv.avail + 1 } } []) := by
    refine congrArg Host.Outcome.next ((if_neg started).trans ?_)
    dsimp only
    rw [ticked]
    exact if_pos (by rw [onCv, same, stopped]; rfl)
  refine ⟨_, is, ?_, ?_⟩
  · rw [drivePorts_eq]
    rfl
  · rw [drivePorts_eq, ticked]

/-- E(k) of a block while CV runs (R456). -/
theorem blockAvailable_of_running {s : State} (runs : cvRuns s = true) (late : List Nat) :
    ∃ u t, u.tick = (atTick s (availTick s.cv.avail)).tick ∧ u.cv = { s.cv with avail := s.cv.avail + 1 } ∧
      u.tl = s.tl ∧ exec (.blockAvailable late) s = .next t ∧ t.tick = u.tick ∧
      t.cv = { (availAll s.cv.avail late u).1.cv with block := BitVec.ofNat 16 s.cv.avail } := by
  obtain ⟨tick, ticked⟩ : ∃ k, atTick s (availTick s.cv.avail) = { s with tick := k } := ⟨_, atTick_eq ..⟩
  obtain ⟨u, isU⟩ : ∃ u : State, { s with tick := tick, cv := { s.cv with avail := s.cv.avail + 1 } } = u := ⟨_, rfl⟩
  have same : cvRuns u = cvRuns s := by
    rw [← isU]
    rfl
  have started : ¬ (s.sys.mode = mBOOT ∨ s.sys.mode = mRECOVER) := by
    unfold cvRuns at runs
    simp only [Bool.and_eq_true, decide_eq_true_eq] at runs
    exact not_or.mpr ⟨runs.1.2, runs.2⟩
  have turns : exec (.blockAvailable late) s = .next (drivePorts
      (onCv (availAll s.cv.avail late u).1 (fun c => { c with block := BitVec.ofNat 16 s.cv.avail }))
      (availAll s.cv.avail late u).2) := by
    refine congrArg Host.Outcome.next ((if_neg started).trans ?_)
    dsimp only
    rw [ticked, show onCv ({ s with tick := tick } : State) (fun c => { c with avail := s.cv.avail + 1 }) = u from isU]
    refine if_neg ?_
    rw [same, runs]
    decide
  refine ⟨u, _, ?_, ?_, ?_, turns, ?_, ?_⟩
  · rw [ticked, ← isU]
  · rw [← isU]
  · rw [← isU]
  · rw [(drivePorts_follows ..).tick (by decide)]
    refine (Follows.foldlFst (.refl _ u) fun p x => availMix_follows s.cv.avail late p x).tick (by decide)
  · rw [(drivePorts_follows ..).cv (by decide)]
    rfl

/-- Settles O38, by the grid's commands, by the change that each boundary takes up in a mix, and by the turn of each
mix at E(k). -/
theorem voicesAndMixesFollowTheSampleGrid : Obligations.VoicesAndMixesFollowTheSampleGrid := by
  intro a v keep x s n due reg
  refine ⟨fun silent => ⟨?_, ?_⟩, fun out barred => ⟨?_, ?_⟩, fun out ok down => ⟨?_, ?_⟩,
    fun out ok up found => ⟨?_, ?_⟩, fun stopped => ⟨?_, ?_⟩, fun early late => ?_, fun later down late => ?_,
    fun runs => ⟨?_, ?_, ?_, ?_⟩⟩
  · exact congrArg Host.Outcome.next (reach_of_not_out _ _ silent)
  · exact congrArg Host.Outcome.next (reach_of_not_out _ _ silent)
  · exact congrArg Host.Outcome.next ((reach_of_barred _ _ out barred).trans (errTo_of_barred barred ..))
  · exact congrArg Host.Outcome.next ((reach_of_barred _ _ out barred).trans (errTo_of_barred barred ..))
  · exact congrArg Host.Outcome.next (reach_of_fenced _ _ out ok down)
  · exact congrArg Host.Outcome.next (reach_of_fenced _ _ out ok down)
  · exact congrArg Host.Outcome.next ((reach_of_allowed _ _ out ok up).trans (voiceWrite_of_found found _))
  · exact congrArg Host.Outcome.next ((reach_of_allowed _ _ out ok up).trans (voiceWrite_of_found found _))
  · exact congrArg Host.Outcome.next (if_pos (by rw [stopped]; rfl))
  · exact congrArg Host.Outcome.next (if_neg (by rw [stopped]; exact Bool.false_ne_true))
  · refine congrArg Host.Outcome.next (if_pos ?_)
    have low : s.sys.mode.toNat = 0 ∨ s.sys.mode.toNat = 1 := by omega
    exact low.imp (fun h => BitVec.eq_of_toNat_eq h) (fun h => BitVec.eq_of_toNat_eq h)
  · have stopped : cvRuns s = false := by
      rw [cvRuns, down]
      rfl
    obtain ⟨t, is, out, rest⟩ := blockAvailable_of_stopped later stopped late
    refine ⟨t, _, is, out, rest, fun k one enabled => ?_⟩
    rcases one with rfl | rfl
    · exact ⟨_, _, List.mem_append_left _ (mem_portOut enabled), portWave_nil _ _⟩
    · exact ⟨_, _, List.mem_append_right _ (mem_portOut enabled), portWave_nil _ _⟩
  · obtain ⟨t, is, tick, sample⟩ := sampleTick_takes runs
    rw [show sampleTick s.cv.sample = 3125 * n from Nat.mul_comm _ _] at tick
    exact ⟨t, is, tick, sample⟩
  · intro off
    refine congrArg Host.Outcome.next (if_neg ?_)
    rw [decide_eq_false off, Bool.and_false]
    exact Bool.false_ne_true
  · intro on
    obtain ⟨u, isU⟩ : ∃ u, atTick s (s.cv.bound * 50000) = u := ⟨_, rfl⟩
    have go : (cvRuns s && s.cv.bound * 16 = s.cv.sample) = true := by
      rw [runs, decide_eq_true on]
      rfl
    have same : u.cv = s.cv := isU ▸ (atTick_follows s _).cv (by decide)
    have is : exec .blockBoundary s = .next (blockBoundary u) := by
      rw [← isU]
      exact congrArg Host.Outcome.next (if_pos go)
    refine ⟨_, is, ?_, ?_, ?_, fun m y found => ?_, fun h found due past => ?_⟩
    · rw [(blockBoundary_follows u).tick (by decide), ← isU]
    · rw [← same]
      rfl
    · rw [show (blockBoundary u).cv.sample = u.cv.sample from rfl, same]
    · have is := mixOf_blockBoundary u m
      rw [mixOf_of_cv same, found, same] at is
      dsimp only [Option.map_some] at is
      refine ⟨_, is, ?_, fun still => ?_, fun b g p change before => ?_, fun b g p change later => ?_⟩
      · unfold Mix.boundary
        dsimp only
        split <;> rfl
      · rw [boundary_of_unchanged still]
        exact ⟨rfl, rfl, rfl, rfl⟩
      · rw [boundary_of_changed change before]
        exact ⟨rfl, rfl, rfl, rfl, rfl⟩
      · rw [boundary_of_later change later]
        exact ⟨rfl, rfl, rfl⟩
    · have is := voiceOf_blockBoundary (s := u) (h := h) (by rw [same]; exact due) (by rw [same]; exact past) v
      rw [voiceOf_of_cv same, found, same] at is
      dsimp only [Option.map_some] at is
      refine ⟨is.2, _, is.1, ?_⟩
      exact phase_keyOff_boundary x _
  · intro late k
    obtain ⟨u, t, tickU, cvU, tlU, is, tick, cv⟩ := blockAvailable_of_running runs late
    obtain ⟨sample, bound, avail, overrun, cyc⟩ := availKeeps_availAll s.cv.avail late u
    have mixU (m : Nat) : mixOf u m = mixOf s m := by
      unfold mixOf
      rw [cvU]
    have mixT (m : Nat) : mixOf t m = mixOf (availAll s.cv.avail late u).1 m := by
      unfold mixOf
      rw [cv]
    refine ⟨t, is, tick.trans tickU, ?_, ?_, fun m y found early => ?_,
      fun m y st b found routed begun timely ready => ?_, fun m y st found routed begun missing => ?_⟩
    · rw [cv]
      dsimp only
      rw [avail, cvU]
    · rw [cv]
    · rw [mixT]
      exact mixOf_availAll_of_early ((mixU m).trans found) early
    · rw [mixT, ← tlU]
      exact availAll_of_ready ((mixU m).trans found) routed begun timely ready
    · obtain ⟨late', z, found', blocks⟩ := availAll_of_late ((mixU m).trans found) routed begun missing
      refine ⟨?_, z, (mixT m).trans found', blocks⟩
      rw [cv]
      exact late'

end Sys2Proof.Machine
end

section
/-! PROOFS. Modules and equalisers (chapter 12, R476 to R486): the obligation O40. -/
open Sys2Proof

namespace Sys2Proof.Machine

/-! ### Changes of one lane -/

/-- `i` gives lane `l` the value `y` and changes no other part of the state. -/
def LaneGets (i : Instr) (l : Nat) (y : Lane) (s : State) : Prop :=
  ∃ t, exec i s = .next t ∧ t = { s with tl := { s.tl with lanes := t.tl.lanes } } ∧ laneOf t l = y ∧
    ∀ k, k ≠ l → laneOf t k = laneOf s k

theorem LaneGets.of_updLane {i : Instr} {s : State} {l : Nat} {f : Lane → Lane} {y : Lane}
    (is : exec i s = .next (updLane s l f)) (gives : f (laneOf s l) = y) : LaneGets i l y s :=
  ⟨_, is, rfl, (laneOf_updLane_self ..).trans gives, fun _ other => laneOf_updLane_of_ne _ _ other⟩

/-- An input of a lane's state changes, and the lane takes its state up. -/
theorem laneChange_eq {s : State} {l : Nat} {f : Lane → Lane} {y : Lane} (gives : f (laneOf s l) = y) :
    laneChange s l f = laneSettle (updLane s l (fun _ => y)) l := by
  subst gives
  rfl

/-- Five bits by their places. -/
theorem getLsbD_ofNat_bits (f : Nat → Bool) {q : Nat} (small : q < 5) :
    (BitVec.ofNat 5 ((List.range 5).foldl (fun a q => a + b2n (f q) * 2 ^ q) 0)).getLsbD q = f q := by
  have bits : ∀ a b c d e : Bool, ∀ k : Fin 5,
      (BitVec.ofNat 5 (0 + b2n a * 2 ^ 0 + b2n b * 2 ^ 1 + b2n c * 2 ^ 2 + b2n d * 2 ^ 3 + b2n e * 2 ^ 4)).getLsbD k =
        ([a, b, c, d, e].getD k false) := by decide
  rw [show List.range 5 = [0, 1, 2, 3, 4] from rfl]
  refine (bits (f 0) (f 1) (f 2) (f 3) (f 4) ⟨q, small⟩).trans ?_
  obtain rfl | rfl | rfl | rfl | rfl : q = 0 ∨ q = 1 ∨ q = 2 ∨ q = 3 ∨ q = 4 := by omega
  all_goals rfl

theorem identify_eq (x : Lane) (p : List Byte) : x.identify p = { x with
    i2cFails := 0
    i2cErr := false
    read := true
    kind := moduleKind p
    ddm := (p.getD 92 0).getLsbD 6
    lengthM := if 3 ≤ moduleKind p then p.getD 18 0 else 0
    eq := if moduleKind p = 0 ∨ x.freeze = true then x.eq else
      if moduleKind p ≤ 2 then { pre := 0, main := 40, post := 0, ctle := 8, taps := [0, 0, 0, 0, 0] }
      else if pb p 18 ≤ 3 then { pre := 0, main := 36, post := 2, ctle := 8, taps := [0, 0, 0, 0, 0] }
      else { pre := 1, main := 32, post := 4, ctle := 8, taps := [0, 0, 0, 0, 0] } } := by
  have bit : decide (pb p 92 / 64 % 2 = 1) = (p.getD 92 0).getLsbD 6 := by
    rw [pb, BitVec.getLsbD, Nat.testBit_eq_decide_div_mod_eq]
  unfold Lane.identify
  dsimp only
  rw [bit]
  rfl

/-! ### The search of POST (R483) -/

/-- POST after the judgement of the step under test. -/
def judged (x : Lane) : BitVec 4 :=
  match x.trial.test with
  | none => x.eq.post
  | some (old, sum, n) =>
    if 0 < n ∧ 0 < x.trial.n ∧ sum * x.trial.n + 2 * n * x.trial.n ≤ x.trial.sum * n then x.eq.post else old

theorem judge_eq (x : Lane) : x.judge = { x with
    eq := { x.eq with post := judged x }
    trial := { x.trial with test := none } } := by
  rcases h : x.trial.test with _ | ⟨old, sum, n⟩
  · have post : judged x = x.eq.post := by
      unfold judged
      rw [h]
    unfold Lane.judge
    rw [post, h, show ({ x.trial with test := none } : Trial) = x.trial by rw [← h]]
  · have post : judged x = if 0 < n ∧ 0 < x.trial.n ∧ sum * x.trial.n + 2 * n * x.trial.n ≤ x.trial.sum * n
        then x.eq.post else old := by
      unfold judged
      rw [h]
    unfold Lane.judge
    rw [post, h]
    simp only [Bool.and_eq_true, decide_eq_true_eq, and_assoc]

theorem toNat_pred (p : BitVec 4) : (if p = 0 then p else p - 1).toNat = p.toNat - 1 := by
  split
  · next zero =>
    subst zero
    rfl
  · bv_omega

theorem toNat_succ (p : BitVec 4) : (if p = 15 then p else p + 1).toNat = min 15 (p.toNat + 1) := by
  split
  · next full =>
    subst full
    rfl
  · bv_omega

/-- The step of POST after the judgement. -/
theorem tryPost_judge (x : Lane) : ∃ y, x.judge.tryPost = y ∧ y.eq = { x.eq with post := y.eq.post } ∧
    y.eq.post.toNat = (if x.trial.up then (judged x).toNat - 1 else min 15 ((judged x).toNat + 1)) ∧
    y.trial = { up := !x.trial.up, test := some (judged x, x.trial.sum, x.trial.n) } := by
  rw [judge_eq]
  refine ⟨_, rfl, rfl, ?_, rfl⟩
  show (if x.trial.up then _ else _ : BitVec 4).toNat = _
  cases x.trial.up
  · exact toNat_succ _
  · exact toNat_pred _

theorem toNat_islLane (l : Fin 8) : (BitVec.ofNat 4 (islLane l)).toNat = islLane l := by
  revert l
  decide

/-! ### The saved taps (R486) -/

/-- A write of whole doublewords stores them, whatever errors stood in them (R205). -/
theorem stored_writeDw_of_whole {s : State} (agent : Nat) {a : Nat} {b : List Byte} (aligned : a % 8 = 0)
    (len : b.length = 8) (unarmed : (bankRegs s (bankOf (8 * (a / 8)))).arm = false) :
    (writeDw s agent (a / 8) (a % 8) b).2 = true ∧ Stored s (writeDw s agent (a / 8) (a % 8) b).1 a b := by
  have whole : mergeDw (dwData s (a / 8)) 0 b = BitVec.ofNat 64 (leNat b) := by
    simp [mergeDw, len, List.drop_of_length_le]
  have is : writeDw s agent (a / 8) (a % 8) b =
      (putDw (setTag s (a / 8) {}) (a / 8) (mergeDw (dwData s (a / 8)) 0 b), true) := by
    rw [writeDw, if_pos ⟨aligned, len⟩, fullWrite_of_unarmed unarmed, whole]
  rw [is]
  refine ⟨rfl, fun x => ?_, fun d h => cleanDw_putDw (h.setTag _) _ _, rfl⟩
  rw [byte_putDw_mergeDw s (a / 8) (by omega), show 8 * (a / 8) + 0 = a by omega]

theorem writeDws_of_whole {fuel k : Nat} {s : State} (agent : Nat) {a : Nat} {b : List Byte} (aligned : a % 8 = 0)
    (len : b.length = 8 * k) (unarmed : Unarmed s a b.length) (enough : b.length ≤ fuel) :
    (writeDws fuel s agent a b).2.2 = true ∧ Stored s (writeDws fuel s agent a b).1 a b := by
  induction fuel generalizing s a b k with
  | zero =>
    obtain rfl : b = [] := List.length_eq_zero_iff.mp (by omega)
    exact ⟨rfl, .refl s a⟩
  | succ fuel ih =>
    by_cases empty : b = []
    · subst empty
      exact ⟨rfl, .refl s a⟩
    have some : 0 < b.length := List.length_pos_iff.mpr empty
    have eight : 8 = min (8 - a % 8) b.length := by omega
    have front : (b.take 8).length = 8 := by simp; omega
    have left : (b.drop 8).length = 8 * (k - 1) := by simp; omega
    obtain ⟨done, first⟩ := stored_writeDw_of_whole agent aligned front (unarmed a (Nat.le_refl a) (by omega))
    obtain ⟨all, rest⟩ := ih (s := (writeDw s agent (a / 8) (a % 8) (b.take 8)).1) (a := a + 8) (b := b.drop 8)
      (by omega) left
      (fun x lo hi => (congrArg Bank.arm (bankRegs_congr first.banks _)).trans (unarmed x (by omega) (by omega)))
      (by omega)
    have both := first.trans rest (by rw [front])
    rw [List.take_append_drop] at both
    rw [writeDws_of_ne_nil fuel s agent a empty eight]
    exact ⟨by simp [done, all], both⟩

theorem writeReq_of_whole {s : State} (agent : Nat) {a k : Nat} {b : List Byte}
    (up : running s (islBank (bankOf a)) = true) (granule : a % 256 + b.length ≤ 256) (aligned : a % 8 = 0)
    (len : b.length = 8 * k) (unarmed : (bankRegs s (bankOf a)).arm = false) : Stored s (writeReq s agent a b).1 a b := by
  obtain ⟨-, stored⟩ := writeDws_of_whole agent aligned len
    (fun x lo hi => (bankOf_granule granule lo hi).symm ▸ unarmed) (Nat.le_refl _)
  have signals := (signalWrite_follows (writeDws b.length s agent a b).1 a b.length
    (writeDws b.length s agent a b).2.1).basin (by decide)
  simp only [writeReq, up, Bool.not_true, Bool.false_eq_true, if_false]
  exact stored.of_basin signals

theorem leWord_leBytes (w : Word) : leWord (leBytes 4 w.toNat) = w := by
  have four : (leBytes 4 w.toNat).take 4 = leBytes 4 w.toNat := List.take_of_length_le (by simp)
  have value : leNat (leBytes 4 w.toNat) = w.toNat := by
    rw [leNat_leBytes]
    exact Nat.mod_eq_of_lt w.isLt
  rw [leWord, four, show List.foldr _ 0 _ = _ from value]
  exact (BitVec.ofNat_toNat ..).trans (BitVec.setWidth_eq w)

/-- The block of a lane's taps. -/
def tapBlock (e : Eq) : List Byte := [e.txWord, e.rxWord, e.dfeWord, 1].flatMap (fun w => leBytes 4 w.toNat)

/-- The firmware saves the taps of a lane. -/
def savesTaps (s : State) (l : Nat) : Bool := laneRuns s l && !(laneOf s l).freeze

/-- A byte of Basin after the taps of the first `n` lanes are saved. -/
def savedByte (s : State) (n x : Nat) : Byte :=
  if 0x003C0000 ≤ x ∧ (x - 0x003C0000) / 16 < n ∧ savesTaps s ((x - 0x003C0000) / 16) = true then
    (tapBlock (laneOf s ((x - 0x003C0000) / 16)).eq).getD ((x - 0x003C0000) % 16) 0
  else Memory.byte s.basin.bytes x

theorem length_tapBlock (e : Eq) : (tapBlock e).length = 16 := by
  simp [tapBlock, leBytes]

/-- What the saving of taps keeps. -/
structure TapsSaved (s t : State) (n : Nat) : Prop where
  tl : t.tl = s.tl
  islands : t.islands = s.islands
  banks : t.basin.banks = s.basin.banks
  bytes : ∀ x, Memory.byte t.basin.bytes x = savedByte s n x

theorem TapsSaved.next {s t : State} {n : Nat} (h : TapsSaved s t n) (small : n < 8)
    (up : running s (islBank (bankOf 0x3C0000)) = true) (unarmed : (bankRegs s (bankOf 0x3C0000)).arm = false) :
    TapsSaved s (saveTaps t n) (n + 1) := by
  obtain ⟨tl, islands, banks, bytes⟩ := h
  have lane : laneOf t n = laneOf s n := laneOf_of_lanes (by rw [tl]) n
  have runs : laneRuns t n = laneRuns s n := by
    rw [laneRuns, running, isl, islands]
    rfl
  have follows := saveTaps_follows t n
  have bank : bankOf (tapsOf n) = bankOf 0x3C0000 := by
    unfold bankOf tapsOf
    omega
  have upT : running t (islBank (bankOf (tapsOf n))) = true := by
    rw [bank, running, isl, islands]
    exact up
  have unarmedT : (bankRegs t (bankOf (tapsOf n))).arm = false := by
    rw [bank, bankRegs_congr banks]
    exact unarmed
  by_cases saves : savesTaps s n = true
  · have is : saveTaps t n = (writeReq t 2 (tapsOf n) (tapBlock (laneOf s n).eq)).1 := by
      have go : (laneRuns t n && !(laneOf t n).freeze) = true := by
        rw [runs, lane]
        exact saves
      rw [saveTaps, if_pos go, lane]
      rfl
    have stored := writeReq_of_whole (k := 2) (b := tapBlock (laneOf s n).eq) 2 upT
      (by rw [length_tapBlock]; unfold tapsOf; omega) (by unfold tapsOf; omega) (length_tapBlock _) unarmedT
    rw [← is] at stored
    refine ⟨(follows.tl (by decide)).trans tl, (follows.islands (by decide)).trans islands, stored.banks.trans banks,
      fun x => ?_⟩
    rw [stored.bytes, length_tapBlock, bytes]
    unfold savedByte tapsOf
    by_cases own : 0x003C0000 + 16 * n ≤ x ∧ x < 0x003C0000 + 16 * n + 16
    · have lane : (x - 0x003C0000) / 16 = n := by omega
      have place : x - (0x003C0000 + 16 * n) = (x - 0x003C0000) % 16 := by omega
      rw [if_pos own, lane, if_pos ⟨by omega, by omega, saves⟩, place]
    · rw [if_neg own]
      refine if_congr ⟨fun ⟨base, lane, saved⟩ => ⟨base, by omega, saved⟩,
        fun ⟨base, lane, saved⟩ => ⟨base, by omega, saved⟩⟩ rfl rfl
  · have is : saveTaps t n = t := by
      refine if_neg ?_
      rw [runs, lane]
      exact saves
    rw [is]
    refine ⟨tl, islands, banks, fun x => (bytes x).trans (if_congr ?_ rfl rfl)⟩
    by_cases last : (x - 0x003C0000) / 16 = n
    · rw [last]
      simp [saves]
    · have step : (x - 0x003C0000) / 16 < n ↔ (x - 0x003C0000) / 16 < n + 1 := by omega
      rw [step]

theorem tapsSaved_foldl {s : State} {n : Nat} (small : n ≤ 8) (up : running s (islBank (bankOf 0x3C0000)) = true)
    (unarmed : (bankRegs s (bankOf 0x3C0000)).arm = false) : TapsSaved s ((List.range n).foldl saveTaps s) n := by
  induction n with
  | zero => exact ⟨rfl, rfl, rfl, fun x => by rw [savedByte, if_neg (by omega)]; rfl⟩
  | succ n ih =>
    rw [List.range_succ, List.foldl_append]
    exact (ih (by omega)).next (by omega) up unarmed

/-- A word of the block of a lane that is saved. -/
theorem tapWord_of_saved {s t : State} (h : TapsSaved s t 8) (k : Fin 8) (saves : savesTaps s k = true) {o : Nat}
    (inside : o + 4 ≤ 16) :
    leWord ((List.range 4).map (fun j => Memory.byte t.basin.bytes (0x003C0000 + 16 * k + o + j))) =
      leWord ((List.range 4).map (fun j => (tapBlock (laneOf s k).eq).getD (o + j) 0)) := by
  refine congrArg leWord (List.map_congr_left fun j hj => ?_)
  have small := List.mem_range.mp hj
  have lane : (0x003C0000 + 16 * k + o + j - 0x003C0000) / 16 = k := by omega
  have place : (0x003C0000 + 16 * k + o + j - 0x003C0000) % 16 = o + j := by omega
  rw [h.bytes, savedByte, lane, place, if_pos ⟨by omega, by omega, saves⟩]

/-! ### The taps that are loaded again (R486) -/

/-- The loading of a lane's taps changes that lane's equaliser alone. -/
structure TapsLoaded (s t : State) (l : Nat) : Prop where
  clean : CleanBasin t
  bytes : t.basin.bytes = s.basin.bytes
  islands : t.islands = s.islands
  others : ∀ k, k ≠ l → laneOf t k = laneOf s k

theorem loadTaps_takes {s : State} (clean : CleanBasin s) {l : Nat} (small : l < 8)
    (up : running s (islBank (bankOf 0x3C0000)) = true) : TapsLoaded s (loadTaps s l) l ∧
      ((laneOf s l).freeze = false → leWord ((peek s (tapsOf l) 16).drop 12) = 1 →
        (laneOf (loadTaps s l) l).eq = eqOf (leWord (peek s (tapsOf l) 16)) (leWord ((peek s (tapsOf l) 16).drop 4))
          (leWord ((peek s (tapsOf l) 16).drop 8))) := by
  by_cases frozen : (laneOf s l).freeze = true
  · have is : loadTaps s l = s := if_pos frozen
    rw [is]
    exact ⟨⟨clean, rfl, rfl, fun _ _ => rfl⟩, fun thawed => absurd frozen (by rw [thawed]; decide)⟩
  · have bank : bankOf (tapsOf l) = bankOf 0x3C0000 := by
      unfold bankOf tapsOf
      omega
    have upHere : running s (islBank (bankOf (tapsOf l))) = true := by rw [bank]; exact up
    obtain ⟨u, read, scrubbed⟩ := readDws_of_clean clean 2 (tapsOf l) (Nat.le_refl 16)
    have request : readReq s 2 (tapsOf l) 16 = (u, .ok (peek s (tapsOf l) 16)) := by
      simp only [readReq, upHere, Bool.not_true, Bool.false_eq_true, if_false, read]
    obtain ⟨e, is, taken⟩ : ∃ e, loadTaps s l = updLane u l (fun x => { x with eq := e }) ∧
        (leWord ((peek s (tapsOf l) 16).drop 12) = 1 → e = eqOf (leWord (peek s (tapsOf l) 16))
          (leWord ((peek s (tapsOf l) 16).drop 4)) (leWord ((peek s (tapsOf l) 16).drop 8))) := by
      unfold loadTaps
      rw [if_neg frozen, request]
      exact ⟨_, rfl, fun saved => if_pos saved⟩
    have lanes (k : Nat) : laneOf u k = laneOf s k := by
      rw [laneOf, scrubbed.only]
      rfl
    rw [is]
    refine ⟨⟨scrubbed.clean, scrubbed.bytes, scrubbed.islands, fun k other => ?_⟩, fun _ saved => ?_⟩
    · rw [laneOf_updLane_of_ne _ _ other, lanes]
    · rw [laneOf_updLane_self, ← taken saved]

theorem leWord_take (b : List Byte) : leWord (b.take 4) = leWord b := by
  rw [leWord, List.take_take, Nat.min_self, leWord]

theorem leWord_drop_peek (s : State) (a : Nat) {o n : Nat} (inside : o + 4 ≤ n) :
    leWord ((peek s a n).drop o) = leWord (peek s (a + o) 4) := by
  rw [← leWord_take, take_drop_peek s a inside]

/-- A lane whose taps were saved takes them from a Basin without an error. -/
theorem eq_loadTaps_of_saved {s : State} (clean : CleanBasin s) {l : Nat} (small : l < 8)
    (up : running s (islBank (bankOf 0x3C0000)) = true) (thawed : (laneOf s l).freeze = false)
    (saved : leWord (peek s (tapsOf l + 12) 4) = 1) : (laneOf (loadTaps s l) l).eq =
      eqOf (leWord (peek s (tapsOf l) 4)) (leWord (peek s (tapsOf l + 4) 4)) (leWord (peek s (tapsOf l + 8) 4)) := by
  have loaded := (loadTaps_takes clean small up).2 thawed ((leWord_drop_peek s _ (by decide)).trans saved)
  rw [loaded, leWord_drop_peek s _ (o := 4) (by decide), leWord_drop_peek s _ (o := 8) (by decide)]
  have first := leWord_drop_peek s (tapsOf l) (o := 0) (n := 16) (by decide)
  rw [List.drop_zero, Nat.add_zero] at first
  rw [first]

/-- The restore of a lane pair loads the taps of both of its lanes. -/
theorem restore_of_lanes (s : State) (l : Fin 8) :
    restore s (islLane l) = loadTaps (loadTaps s (2 * (l / 2))) (2 * (l / 2) + 1) := by
  have pairs : ∀ p : Fin 4, restore s (10 + p) = loadTaps (loadTaps s (2 * p)) (2 * p + 1) := by
    intro p
    obtain rfl | rfl | rfl | rfl : p = 0 ∨ p = 1 ∨ p = 2 ∨ p = 3 := by omega
    all_goals rfl
  exact pairs ⟨l / 2, by omega⟩

theorem eq_restore_of_saved {s : State} (clean : CleanBasin s) (l : Fin 8)
    (up : running s (islBank (bankOf 0x3C0000)) = true) (thawed : (laneOf s l).freeze = false)
    (saved : leWord (peek s (tapsOf l + 12) 4) = 1) : (laneOf (restore s (islLane l)) l).eq =
      eqOf (leWord (peek s (tapsOf l) 4)) (leWord (peek s (tapsOf l + 4) 4)) (leWord (peek s (tapsOf l + 8) 4)) := by
  rw [restore_of_lanes]
  obtain ⟨clean', bytes, islands, others⟩ := (loadTaps_takes clean (l := 2 * (l / 2)) (by omega) up).1
  have up' : running (loadTaps s (2 * (l / 2))) (islBank (bankOf 0x3C0000)) = true := by
    rw [running, isl, islands]
    exact up
  by_cases even : (l : Nat) = 2 * (l / 2)
  · rw [(loadTaps_takes clean' (l := 2 * (l / 2) + 1) (by omega) up').1.others l (by omega), ← even]
    exact eq_loadTaps_of_saved clean l.isLt up thawed saved
  · have odd : (l : Nat) = 2 * (l / 2) + 1 := by omega
    have same := eq_loadTaps_of_saved clean' l.isLt up' (by rw [others l even]; exact thawed)
      (by rw [peek_congr bytes]; exact saved)
    rw [peek_congr bytes, peek_congr bytes, peek_congr bytes] at same
    rw [← odd]
    exact same

/-- Settles O40: the commands change one lane or settle it, the saved taps are four words of the lane's block, and a
restore reads them back from a Basin without an error. -/
theorem modulesAndEqualisersChangeTheirLane : Obligations.ModulesAndEqualisersChangeTheirLane := by
  intro l p eye ctle taps s x is settles failed ok kind copper fresh cl low high warn word taps'
  have settled {i : Instr} {f : Lane → Lane} {y : Lane} (go : exec i s = .next (laneChange s l f)) (gives : f x = y) :
      settles i y := go.trans (congrArg Host.Outcome.next (laneChange_eq gives))
  refine ⟨settled rfl rfl, settled rfl rfl, settled rfl rfl, settled rfl rfl, settled rfl rfl, settled rfl rfl,
    fun fw faulted => ?_, fun idle => ?_, fun fw pi present => ⟨?_, ?_⟩, fun fw pi present read ddm => ⟨?_, ?_⟩,
    fun idle => ⟨?_, ?_⟩, fun five steps => ⟨fun runs lock thawed => ?_, fun idle => ?_⟩, fun runs frozen => ?_,
    fun runs thawed aligned eyed => ?_, fun runs => ?_, fun fw up unarmed => ?_,
    fun i own reset lk thawed up clean saved => ?_⟩
  · exact congrArg Host.Outcome.next (if_pos (by rw [fw, faulted]; rfl))
  · refine congrArg Host.Outcome.next (if_neg ?_)
    rcases idle with h | h <;> simp [x, h] at *
  · refine settled (congrArg Host.Outcome.next (if_pos ?_)) rfl
    rw [modulePort, fw, pi, present]
    rfl
  · refine settled (congrArg Host.Outcome.next (if_pos ?_)) (identify_eq x p)
    rw [modulePort, fw, pi, present]
    rfl
  · refine LaneGets.of_updLane (congrArg Host.Outcome.next (if_pos ?_)) rfl
    rw [modulePort, fw, pi, present, read, ddm]
    rfl
  · refine ⟨_, LaneGets.of_updLane (congrArg Host.Outcome.next (if_pos ?_)) rfl, fun q small =>
      getLsbD_ofNat_bits (fun q => alarm p q (pw p (96 + 2 * q))) small⟩
    rw [modulePort, fw, pi, present, read, ddm]
    rfl
  · refine congrArg Host.Outcome.next (if_neg ?_)
    rcases idle with h | h | h <;> simp [modulePort, x, h] at *
  · refine congrArg Host.Outcome.next (if_neg ?_)
    rcases idle with h | h | h <;> simp [modulePort, x, h] at *
  · refine LaneGets.of_updLane ((if_pos ⟨five, steps⟩).trans (congrArg Host.Outcome.next (if_pos ?_))) rfl
    rw [runs, lock, thawed]
    rfl
  · refine (if_pos ⟨five, steps⟩).trans (congrArg Host.Outcome.next (if_neg ?_))
    rcases idle with h | h | h <;> simp [x, h] at *
  · have go : ¬ (!laneRuns s l) = true := by
      rw [runs]
      decide
    exact ⟨_, LaneGets.of_updLane (congrArg Host.Outcome.next (if_neg go)) (if_pos frozen), rfl, rfl⟩
  · have go : ¬ (!laneRuns s l) = true := by
      rw [runs]
      decide
    have seen : (x.aligned && decide (x.partnerEye ≠ 0)) = true := by
      rw [aligned, decide_eq_true eyed]
      rfl
    obtain ⟨y, gives, eq, post, trial⟩ := tryPost_judge x
    have turned : (if x.freeze then { x with trial := { x.trial with test := none, sum := 0, n := 0 } }
        else if x.aligned && x.partnerEye ≠ 0 then x.judge.tryPost
        else { ({ x with trial := { x.trial with n := 0 } } : Lane).judge with trial := { up := x.trial.up } }) = y := by
      rw [if_neg (by rw [thawed]; decide), if_pos seen, gives]
    exact ⟨y, LaneGets.of_updLane (congrArg Host.Outcome.next (if_neg go)) turned, eq, post, trial⟩
  · have go : ¬ (!laneRuns s l) = true := by
      rw [runs]
      decide
    obtain ⟨u, isU⟩ : ∃ u, updLane s l (fun x => { x with
      eye := eye, minEye := if eye < x.minEye then eye else x.minEye, lowMs := low, highMs := high,
      degraded := warn || (x.degraded && decide (high < 1000)) }) = u := ⟨_, rfl⟩
    have laneU : laneOf u l = { x with
        eye := eye, minEye := if eye.toNat < x.minEye.toNat then eye else x.minEye, lowMs := low,
        highMs := high, degraded := warn || (x.degraded && decide (high < 1000)) } := by
      rw [← isU, laneOf_updLane_self]
      rfl
    have stagingU : u.staging = s.staging := by
      rw [← isU]
      rfl
    have taken : exec (.eyeMeasure l eye) s =
        .next (if warn = true then loopWarning u (islLane l) 2 l 2 else u) := by
      rw [← isU]
      exact congrArg Host.Outcome.next (if_neg go)
    refine ⟨_, taken, ?_, fun quiet => ?_, fun warned room => ?_⟩
    · rw [← laneU]
      split
      · exact laneOf_of_lanes (congrArg Towline.lanes ((postRec_follows ..).tl (by decide))) _
      · rfl
    · rw [if_neg (by rw [quiet]; decide), stagingU]
    · rw [if_pos warned, ← stagingU]
      rw [← stagingU] at room
      exact ⟨_, staging_stage room _, rfl, toNat_islLane l, rfl⟩
  · have after := tapsSaved_foldl (s := s) (Nat.le_refl 8) up unarmed
    refine ⟨_, congrArg Host.Outcome.next (if_pos fw), after.tl, fun k runs thawed => ?_, fun a outside => ?_⟩
    · have saves : savesTaps s k = true := by
        rw [savesTaps, runs, thawed]
        rfl
      have at' {o : Nat} (inside : o + 4 ≤ 16) := tapWord_of_saved after k saves inside
      refine ⟨?_, ?_, ?_, ?_⟩
      · exact (at' (o := 0) (by decide)).trans (leWord_leBytes _)
      · exact (at' (o := 4) (by decide)).trans (leWord_leBytes _)
      · exact (at' (o := 8) (by decide)).trans (leWord_leBytes _)
      · exact (at' (o := 12) (by decide)).trans (leWord_leBytes _)
    · rw [after.bytes, savedByte]
      refine if_neg fun ⟨base, lane, saves⟩ => ?_
      have both := (Bool.and_eq_true _ _ ▸ saves : _ ∧ _)
      have apart := outside ⟨(a - 0x003C0000) / 16, lane⟩ both.1 (by simpa using both.2)
      dsimp only [taps'] at apart
      omega
  · have go : ((isl s i).state = .inReset && running s islLK) = true := by
      rw [reset, show running s islLK = true from lk]
      rfl
    refine ⟨_, congrArg Host.Outcome.next (if_pos go), ?_⟩
    obtain ⟨u, isU⟩ : ∃ u, updIsl s i (fun x => { x with state := .restoring }) = u := ⟨_, rfl⟩
    have basin : u.basin = s.basin := by
      rw [← isU]
      rfl
    have lane : laneOf u l = x := by
      rw [← isU]
      rfl
    have upU : running u (islBank (bankOf 0x3C0000)) = true := by
      have bank : islBank (bankOf 0x3C0000) = 5 := rfl
      have apart : islBank (bankOf 0x3C0000) ≠ i := by
        rw [own, bank]
        unfold islLane
        omega
      rw [← isU, running, isl_updIsl_of_ne _ _ apart]
      exact up
    have cleanU : CleanBasin u := fun d => by
      rw [dwTag_of_basin basin, dwSynd_of_basin basin]
      exact clean d
    have peekU (a : Nat) : leWord (peek u a 4) = word s a := by
      rw [peek_congr (congrArg Basin.bytes basin)]
      rfl
    rw [isU, own, eq_restore_of_saved cleanU l upU (by rw [lane]; exact thawed) ((peekU _).trans saved), peekU, peekU,
      peekU]
    rfl

end Sys2Proof.Machine
end

section
/-! PROOFS. The states, the received frames and the alignment of the lanes (chapter 12, R473 to R509): the
obligation O41. -/
open Sys2Proof

namespace Sys2Proof.Machine

/-! ### Two changes of one entry -/

section
variable {α : Type} (t : Tab α) (i : Nat) (v w : α)

theorem Tab.put_put : Tab.put (Tab.put t i v) i w = Tab.put t i w := by
  induction t with
  | nil => simp [Tab.put]
  | cons p r ih =>
    obtain ⟨k, u⟩ := p
    by_cases own : k = i
    · simp [Tab.put, own]
    · by_cases before : i < k
      · simp [Tab.put, own, before]
      · simp [Tab.put, own, before, ih]

theorem Tab.erase_put : Tab.erase (Tab.put t i v) i = Tab.erase t i := by
  induction t with
  | nil => simp [Tab.put, Tab.erase]
  | cons p r ih =>
    obtain ⟨k, u⟩ := p
    unfold Tab.erase at ih ⊢
    by_cases own : k = i
    · simp [Tab.put, own]
    · by_cases before : i < k
      · simp [Tab.put, own, before]
      · simp [Tab.put, own, before, ih]

variable [DecidableEq α] {d : α}

theorem Tab.set_set_of_ne {v : α} (listed : v ≠ d) : Tab.set d (Tab.set d t i v) i w = Tab.set d t i w := by
  unfold Tab.set
  rw [if_neg listed, Tab.erase_put, Tab.put_put]
end

/-- Two changes of a lane that is not in its reset state between them are one change. -/
theorem updLane_updLane {s : State} {l : Nat} {y : Lane} (listed : y ≠ {}) (f : Lane → Lane) :
    updLane (updLane s l (fun _ => y)) l f = updLane s l (fun _ => f y) := by
  have lane : Tab.get {} (Tab.set {} s.tl.lanes l y) l = y := Tab.get_set_self ..
  unfold updLane onTl Tab.upd
  dsimp only
  rw [lane, Tab.set_set_of_ne _ _ _ listed]

/-- A change of a lane gives it a value. -/
theorem updLane_const (s : State) (l : Nat) (f : Lane → Lane) :
    updLane s l f = updLane s l (fun _ => f (laneOf s l)) := rfl

/-! ### The state of a lane (R479, R489, R509) -/

theorem codeNow_eq (x : Lane) : x.codeNow =
    if x.test ≠ 0 then 8 else if x.enable = false then 0 else if x.present = false ∨ x.read = false then 1
    else if x.kind = 0 then 2 else if x.faulted then 9 else if x.los then 3
    else if x.blockLock = false then 4 else if x.hiBer then 5 else if x.aligned then 7 else 6 := by
  unfold Lane.codeNow
  simp only [Bool.not_eq_true', Bool.or_eq_true]

/-- What a change of state makes of a lane (R489). -/
def Lane.takes (x : Lane) (c : Nat) : Lane :=
  let y : Lane := { x with code := c }
  let y := if codeSilent c then y.unlock c else y
  if c = 6 ∨ c = 7 then y else y.unalign

theorem laneSettle_of_same {s : State} {l : Nat} (runs : laneRuns s l = true)
    (same : (laneOf s l).codeNow = (laneOf s l).code) : laneSettle s l = driveTx s l := by
  have go : ¬ (!laneRuns s l) = true := by
    rw [runs]
    decide
  exact (if_neg go).trans (if_pos same)

theorem laneSettle_of_changed {s : State} {l : Nat} (runs : laneRuns s l = true)
    (changed : (laneOf s l).codeNow ≠ (laneOf s l).code) : laneSettle s l =
      postRec (driveTx (updLane s l (fun x => x.takes (laneOf s l).codeNow)) l) (islLane l) 0x25 0
        (pack [(0, l), (8, (laneOf s l).codeNow)]) 0 := by
  have go : ¬ (!laneRuns s l) = true := by
    rw [runs]
    decide
  exact (if_neg go).trans (if_neg changed)

/-- The fields that a change of state does not touch, and those that it does (R487, R489). -/
structure Took (x y : Lane) (c : Nat) : Prop where
  code : y.code = c
  blockLock : y.blockLock = (x.blockLock && !codeSilent c)
  hiBer : y.hiBer = (x.hiBer && !codeSilent c)
  cntLock : y.cntLock = if x.blockLock && (c = 1 || c = 3) then x.cntLock + 1 else x.cntLock
  aligned : y.aligned = (x.aligned && (c = 6 || c = 7))
  hit : y.hit = if c = 6 ∨ c = 7 then x.hit else none
  cntAlign : y.cntAlign = if x.aligned && !(c = 6 || c = 7) then x.cntAlign + 1 else x.cntAlign
  eq : y.eq = x.eq
  session : y.session = x.session
  txDis : y.txDis = x.txDis
  module : y.present = x.present ∧ y.read = x.read ∧ y.kind = x.kind

theorem took_takes (x : Lane) (c : Nat) : Took x (x.takes c) c := by
  by_cases opens : c = 6 ∨ c = 7
  · have loud : codeSilent c = false := by rcases opens with rfl | rfl <;> rfl
    have is : x.takes c = { x with code := c } := by
      unfold Lane.takes
      dsimp only
      rw [loud, if_pos opens]
      rfl
    rw [is]
    constructor <;> simp [loud, opens] <;> omega
  · have is : x.takes c = ((if codeSilent c then ({ x with code := c } : Lane).unlock c else { x with code := c }) :
        Lane).unalign := by
      unfold Lane.takes
      dsimp only
      rw [if_neg opens]
    have shut : (decide (c = 6) || decide (c = 7)) = false := by simpa using opens
    rw [is]
    cases silent : codeSilent c
    · have kept : (decide (c = 1) || decide (c = 3)) = false := by
        unfold codeSilent at silent
        simp only [Bool.or_eq_false_iff] at silent ⊢
        exact ⟨silent.1.1.2, silent.1.2⟩
      constructor <;> simp [Lane.unalign, silent, opens, shut, kept]
    · constructor <;> simp [Lane.unalign, Lane.unlock, silent, opens, shut]

/-- The pin follows the lane (R476, R479). -/
theorem driveTx_takes {s : State} {l : Nat} {d : Bool} (off : (laneOf s l).txOff = d) :
    laneOf (driveTx s l) l = { laneOf s l with txDis := d } ∧ (∀ k, k ≠ l → laneOf (driveTx s l) k = laneOf s k) ∧
      (driveTx s l).out = s.out ++ if d = (laneOf s l).txDis then [] else [.txDis l d] := by
  unfold driveTx
  rw [off]
  dsimp only
  by_cases same : d = (laneOf s l).txDis
  · rw [if_pos same, if_pos same, List.append_nil]
    refine ⟨?_, fun _ _ => rfl, rfl⟩
    rw [same]
  · rw [if_neg same, if_neg same]
    exact ⟨laneOf_updLane_self .., fun _ other => laneOf_updLane_of_ne _ _ other, rfl⟩

/-! ### Received frames (R474, R488, R492) -/

theorem rxWhole_iff (f : RxFrame) : rxWhole f = true ↔ f.ended = true ∧ f.errBlocks = 0 ∧ 64 ≤ f.bytes.length ∧
    f.bytes.length ≤ 9216 ∧ f.bytes.drop (f.bytes.length - 4) = fcsOf (f.bytes.take (f.bytes.length - 4)) := by
  unfold rxWhole
  simp only [Bool.and_eq_true, decide_eq_true_eq, and_assoc]

theorem rxHeaderOk_iff (f : RxFrame) (l : Nat) : rxHeaderOk f l = true ↔ rxAt f 14 1 = 1 ∧
    (rxAt f 15 1 = 1 ∨ rxAt f 15 1 = 3 ∨ rxAt f 15 1 = 6 ∨ rxAt f 15 1 = 8) ∧ rxAt f 20 1 = 1 ∧ rxAt f 21 1 = 0 ∧
    rxAt f 28 2 = 0 ∧ 34 + rxAt f 18 2 ≤ f.bytes.length ∧ (rxAt f 16 2 = 0xFFFF ∨ rxAt f 16 2 / 256 = l) := by
  unfold rxHeaderOk rxType rxLen rxAddr
  simp only [Bool.and_eq_true, Bool.or_eq_true, decide_eq_true_eq, List.contains_iff_mem, List.mem_cons,
    List.not_mem_nil, or_false, and_assoc]

/-- The frame is addressed to the lane or to the group, and is of the Towline (R474). -/
def RxHere (s : State) (l : Nat) (f : RxFrame) : Prop :=
  (f.bytes.take 6 = laneMac s l ∨ f.bytes.take 6 = groupMac) ∧ rxAt f 12 2 = 0x88B5

section
variable {s : State} {l : Nat} {f : RxFrame}

theorem rxCheck_of_broken (broken : ¬ rxWhole f = true) : rxCheck s l f = some .fcs :=
  if_pos (by rw [Bool.not_eq_true _ |>.mp broken]; rfl)

variable (whole : rxWhole f = true)
include whole

theorem rxCheck_of_whole : rxCheck s l f =
    if (f.bytes.take 6 ≠ laneMac s l ∧ f.bytes.take 6 ≠ groupMac) ∨ rxAt f 12 2 ≠ 0x88B5 then some .filter
    else if rxSession f ≠ (laneOf s l).session then some .session
    else if !rxHeaderOk f l then some .header
    else none :=
  if_neg (by rw [whole]; decide)

theorem rxCheck_of_foreign (foreign : ¬ RxHere s l f) : rxCheck s l f = some .filter := by
  rw [rxCheck_of_whole whole]
  refine if_pos ?_
  unfold RxHere at foreign
  tauto

variable (here : RxHere s l f)
include here

theorem rxCheck_of_here : rxCheck s l f =
    if rxSession f ≠ (laneOf s l).session then some .session
    else if !rxHeaderOk f l then some .header
    else none := by
  rw [rxCheck_of_whole whole]
  refine if_neg ?_
  unfold RxHere at here
  tauto

theorem rxCheck_of_stale (stale : rxSession f ≠ (laneOf s l).session) : rxCheck s l f = some .session :=
  (rxCheck_of_here whole here).trans (if_pos stale)

theorem rxCheck_of_unread (fresh : rxSession f = (laneOf s l).session) (bad : ¬ rxHeaderOk f l = true) :
    rxCheck s l f = some .header :=
  (rxCheck_of_here whole here).trans ((if_neg (not_not_intro fresh)).trans
    (if_pos (by rw [Bool.not_eq_true _ |>.mp bad]; rfl)))

theorem rxCheck_of_good (fresh : rxSession f = (laneOf s l).session) (good : rxHeaderOk f l = true) :
    rxCheck s l f = none :=
  (rxCheck_of_here whole here).trans ((if_neg (not_not_intro fresh)).trans (if_neg (by rw [good]; decide)))
end

section
variable {s : State} {l : Nat} {f : RxFrame}

/-- The frame has blocks in error that the receiver counts (R512). -/
def RxBlocks (s : State) (l : Nat) (f : RxFrame) : Prop := f.errBlocks ≠ 0 ∧ laneListens s l = true

theorem countBlocks_of_blocks (blocks : RxBlocks s l f) : countBlocks s l f =
    updLane s l (fun x => { x with cntErrBlk := x.cntErrBlk + w32 f.errBlocks }) :=
  if_pos (by rw [blocks.2, decide_eq_true blocks.1]; rfl)

theorem countBlocks_of_not (none' : ¬ RxBlocks s l f) : countBlocks s l f = s := by
  refine if_neg fun both => none' ?_
  simp only [Bool.and_eq_true, decide_eq_true_eq] at both
  exact ⟨both.2, both.1⟩

/-- A count of error blocks changes nothing that the checks look at. -/
theorem rxCheck_countBlocks : rxCheck (countBlocks s l f) l f = rxCheck s l f ∧
    laneOpen (countBlocks s l f) l = laneOpen s l := by
  by_cases blocks : RxBlocks s l f
  · have session : (laneOf (countBlocks s l f) l).session = (laneOf s l).session ∧
        (laneOf (countBlocks s l f) l).code = (laneOf s l).code := by
      rw [countBlocks_of_blocks blocks, laneOf_updLane_self]
      exact ⟨rfl, rfl⟩
    have otp : (countBlocks s l f).otp = s.otp := by
      rw [countBlocks_of_blocks blocks]
      rfl
    have islands : (countBlocks s l f).islands = s.islands := by
      rw [countBlocks_of_blocks blocks]
      rfl
    unfold rxCheck laneMac laneOpen laneRuns running isl
    rw [session.1, session.2, otp, islands]
    exact ⟨rfl, rfl⟩
  · rw [countBlocks_of_not blocks]
    exact ⟨rfl, rfl⟩

theorem rxAccept_of_drop {d : Drop} (opened : laneOpen s l = true) (check : rxCheck s l f = some d) :
    rxAccept s l f = (countDrop (countBlocks s l f) l d, false) := by
  unfold rxAccept
  dsimp only
  rw [rxCheck_countBlocks.1, rxCheck_countBlocks.2, if_neg (by rw [opened]; decide), check]

theorem rxAccept_of_good (opened : laneOpen s l = true) (check : rxCheck s l f = none) (whole : rxWhole f = true) :
    rxAccept s l f = (updLane s l (fun x => { x with cntRx := x.cntRx + 1 }), true) := by
  have unstruck : countBlocks s l f = s := countBlocks_of_not fun blocks => blocks.1 ((rxWhole_iff f).mp whole).2.1
  unfold rxAccept
  dsimp only
  rw [unstruck, if_neg (by rw [opened]; decide), check]

theorem rxAccept_of_shut (shut : laneOpen s l = false) : rxAccept s l f = (countBlocks s l f, false) := by
  unfold rxAccept
  dsimp only
  rw [rxCheck_countBlocks.2, if_pos (by rw [shut]; rfl)]

/-- A lane that takes frames is not in its reset state. -/
theorem ne_default_of_open {x : Lane} (opened : x.code = 6 ∨ x.code = 7) : x ≠ {} := by
  rintro rfl
  exact absurd opened (by decide)
end

theorem countDrop_of_blocks {s : State} {l : Nat} {f : RxFrame} (blocks : RxBlocks s l f)
    (open' : (laneOf s l).code = 6 ∨ (laneOf s l).code = 7) : countDrop (countBlocks s l f) l .fcs =
      updLane s l (fun _ => { laneOf s l with
        cntErrBlk := (laneOf s l).cntErrBlk + w32 f.errBlocks, cntFcs := (laneOf s l).cntFcs + 1 }) := by
  rw [countBlocks_of_blocks blocks, updLane_const s, countDrop, updLane_updLane (ne_default_of_open ?taken)]
  case taken => exact open'

/-! ### Alignment (R501 to R504) -/

theorem laneOf_setDev (s : State) (l : Nat) (d : Int) :
    (∃ v, laneOf (setDev s l d) l = { laneOf s l with dev := v }) ∧ (setDev s l d).tick = s.tick := by
  unfold setDev
  split
  · exact ⟨⟨_, laneOf_updLane_self ..⟩, rfl⟩
  · exact ⟨⟨_, laneOf_updLane_self ..⟩, rfl⟩

section
variable {s : State} {l : Nat} {h : Lane} {c : Word}

/-- A pair of frames that does not align the lane leaves the second as its hit. -/
theorem alignHit_of_other {t : Dword} {c' : Word} (first : h.hit = some (t, c'))
    (apart : deviation s t 1 < -50 ∨ 50 < deviation s t 1 ∨ c ≠ c' + 1) :
    laneOf (alignHit (updLane s l (fun _ => h)) l c) l =
      { h with dev := (laneOf (alignHit (updLane s l (fun _ => h)) l c) l).dev, hit := some (s.tick, c) } := by
  have dev : deviation (updLane s l (fun _ => h)) t 1 = deviation s t 1 := rfl
  have skip : ¬ (-50 ≤ deviation s t 1 ∧ deviation s t 1 ≤ 50 ∧ c = c' + 1) := by
    rintro ⟨low, high, next⟩
    rcases apart with h | h | h
    · omega
    · omega
    · exact h next
  unfold alignHit
  rw [laneOf_updLane_self, first]
  dsimp only
  obtain ⟨⟨v, lane⟩, tick⟩ := laneOf_setDev (updLane s l (fun _ => h)) l (deviation s t 1)
  rw [laneOf_updLane_self] at lane
  rw [dev, if_neg skip, laneOf_updLane_self, lane, tick]
  rfl

variable (open' : h.code = 6 ∨ h.code = 7)
include open'

theorem setDev_of_fits {d : Int} (low : -32768 ≤ d) (high : d ≤ 32767) :
    setDev (updLane s l (fun _ => h)) l d = updLane s l (fun _ => { h with dev := BitVec.ofInt 16 d }) :=
  (if_pos ⟨low, high⟩).trans (updLane_updLane (ne_default_of_open open') _)

theorem alignHit_of_none (none' : h.hit = none) : alignHit (updLane s l (fun _ => h)) l c =
    updLane s l (fun _ => { h with hit := some (s.tick, c) }) := by
  unfold alignHit
  rw [laneOf_updLane_self, none']
  exact updLane_updLane (ne_default_of_open open') _

theorem alignHit_of_second {t : Dword} {c' : Word} (first : h.hit = some (t, c')) (low : -50 ≤ deviation s t 1)
    (high : deviation s t 1 ≤ 50) (next : c = c' + 1) : alignHit (updLane s l (fun _ => h)) l c =
      laneSettle (updLane s l (fun _ => { h with
        dev := BitVec.ofInt 16 (deviation s t 1), aligned := true, alignTick := s.tick, hit := none,
        last := some (s.tick, c) })) l := by
  have dev : deviation (updLane s l (fun _ => h)) t 1 = deviation s t 1 := rfl
  unfold alignHit
  rw [laneOf_updLane_self, first]
  dsimp only
  rw [dev, setDev_of_fits open' (by omega) (by omega), if_pos ⟨low, high, next⟩]
  unfold laneChange
  rw [updLane_updLane (ne_default_of_open ?taken)]
  · rfl
  case taken => exact open'

section
variable {t : Dword} {c' : Word} (last : h.last = some (t, c'))
include last

theorem alignCheck_of_near (low : -50 ≤ deviation s t (c - c').toNat) (high : deviation s t (c - c').toNat ≤ 50) :
    alignCheck (updLane s l (fun _ => h)) l c = updLane s l (fun _ => { h with
      dev := BitVec.ofInt 16 (deviation s t (c - c').toNat), last := some (s.tick, c) }) := by
  have dev : deviation (updLane s l (fun _ => h)) t (c - c').toNat = deviation s t (c - c').toNat := rfl
  unfold alignCheck
  rw [laneOf_updLane_self, last]
  dsimp only
  rw [dev, setDev_of_fits open' (by omega) (by omega), if_pos ⟨low, high⟩,
    updLane_updLane (ne_default_of_open ?taken)]
  · rfl
  case taken => exact open'

theorem alignCheck_of_far (low : -32768 ≤ deviation s t (c - c').toNat)
    (high : deviation s t (c - c').toNat ≤ 32767)
    (far : deviation s t (c - c').toNat < -50 ∨ 50 < deviation s t (c - c').toNat) :
    alignCheck (updLane s l (fun _ => h)) l c = laneSettle (updLane s l (fun _ =>
      Lane.unalign { h with dev := BitVec.ofInt 16 (deviation s t (c - c').toNat) })) l := by
  have dev : deviation (updLane s l (fun _ => h)) t (c - c').toNat = deviation s t (c - c').toNat := rfl
  unfold alignCheck
  rw [laneOf_updLane_self, last]
  dsimp only
  rw [dev, setDev_of_fits open' low high, if_neg (by omega)]
  unfold laneLose laneChange
  rw [updLane_updLane (ne_default_of_open ?taken), ← last]
  case taken => exact open'
end
end

/-- What a lane has heard of its partner with a recognised CYCLE frame (R498, R499). -/
def Lane.heard (x : Lane) (f : RxFrame) : Lane :=
  { x with
    cntRx := x.cntRx + 1, cycleRx := rxCycle f, partnerEye := (rxPayload f).getD 0 0,
    partnerAligned := ((rxPayload f).getD 1 0).getLsbD 0,
    trial := { x.trial with sum := x.trial.sum + ((rxPayload f).getD 0 0).toNat, n := x.trial.n + 1 } }

theorem cycleHeard_eq {s : State} {l : Nat} {f : RxFrame} (open' : (laneOf s l).code = 6 ∨ (laneOf s l).code = 7) :
    cycleHeard (updLane s l (fun x => { x with cntRx := x.cntRx + 1 })) l f =
      if (laneOf s l).aligned then alignCheck (updLane s l (fun _ => (laneOf s l).heard f)) l (rxCycle f)
      else alignHit (updLane s l (fun _ => (laneOf s l).heard f)) l (rxCycle f) := by
  unfold cycleHeard
  dsimp only
  rw [updLane_const s, updLane_updLane (ne_default_of_open ?taken), laneOf_updLane_self]
  · rfl
  case taken => exact open'

theorem unalign_of_aligned {x : Lane} (aligned : x.aligned = true) : x.unalign = { x with
    aligned := false
    hit := none
    last := none
    cntAlign := x.cntAlign + 1 } := by
  unfold Lane.unalign
  rw [aligned]
  rfl

/-- Settles O41: the state that a lane's inputs give and what it changes (`took_takes`), the first check that a frame
fails (`rxCheck_of_*`), and the hits and checks of alignment. -/
theorem lanesTakeUpTheirStateAndAlign : Obligations.LanesTakeUpTheirStateAndAlign := by
  intro l n f s x code dark silent settles gets listens opened be len whole here session header cyc payload blocks
    struck drops heard gap unalign
  have settled {i : Instr} {g : Lane → Lane} {y : Lane} (go : exec i s = .next (laneChange s l g)) (gives : g x = y) :
      settles i y := go.trans (congrArg Host.Outcome.next (laneChange_eq gives))
  have codeIs : x.codeNow = code := codeNow_eq x
  have offIs {y : Lane} (took : y.code = code) (module : y.present = x.present ∧ y.read = x.read ∧ y.kind = x.kind) :
      y.txOff = dark := by
    obtain ⟨present, read, kind⟩ := module
    rw [Lane.txOff, took, present, read, kind]
    rfl
  have wholeIs : rxWhole f = true ↔ whole := rxWhole_iff f
  have headerIs : rxHeaderOk f l = true ↔ header := rxHeaderOk_iff f l
  have code67 (open' : opened = true) : x.code = 6 ∨ x.code = 7 := by
    simpa only [Bool.or_eq_true, decide_eq_true_eq] using ((Bool.and_eq_true _ _).mp open').2
  have dropped {i : Instr} (row : ∀ t, rxAccept s l f = (t, false) → exec i s = .next t) (open' : opened = true) :
      drops i := by
    have taken {d : Drop} (check : rxCheck s l f = some d) :
        exec i s = .next (countDrop (countBlocks s l f) l d) := row _ (rxAccept_of_drop open' check)
    have clean {d : Drop} (w : whole) (check : rxCheck s l f = some d) : exec i s = .next (countDrop s l d) := by
      have unstruck : countBlocks s l f = s := countBlocks_of_not fun b => b.1 w.2.1
      rw [taken check, unstruck]
    refine ⟨fun broken blk => ?_, fun broken unblk => ?_, fun w foreign => ?_, fun w h stale => ?_,
      fun w h fresh bad => ?_⟩
    · exact (taken (rxCheck_of_broken (wholeIs.not.mpr broken))).trans
        (congrArg Host.Outcome.next (countDrop_of_blocks blk (code67 open')))
    · refine (taken (rxCheck_of_broken (wholeIs.not.mpr broken))).trans ?_
      rw [countBlocks_of_not unblk]
      rfl
    · exact clean w (rxCheck_of_foreign (wholeIs.mpr w) foreign)
    · exact clean w (rxCheck_of_stale (wholeIs.mpr w) h stale)
    · exact clean w (rxCheck_of_unread (wholeIs.mpr w) h fresh (headerIs.not.mpr bad))
  have gets_eq (i : Instr) (y : Lane) : gets i y = (exec i s = .next (updLane s l (fun _ => y))) := rfl
  have settles_eq (i : Instr) (y : Lane) :
      settles i y = (exec i s = .next (laneSettle (updLane s l (fun _ => y)) l)) := rfl
  have accepted (cycle : be 15 1 = 1) (w : whole) (h : here) (fresh : session = x.session) (good : header)
      (open' : opened = true) : exec (.upstreamCycle l f.bytes f.errBlocks f.ended) s =
        .next (if x.aligned then alignCheck (updLane s l (fun _ => x.heard f)) l cyc
          else alignHit (updLane s l (fun _ => x.heard f)) l cyc) := by
    refine congrArg Host.Outcome.next ((if_neg (not_not_intro cycle)).trans ?_)
    have good' := rxCheck_of_good (s := s) (wholeIs.mpr w) h fresh (headerIs.mpr good)
    rw [rxAccept_of_good open' good' (wholeIs.mpr w)]
    exact cycleHeard_eq (code67 open')
  refine ⟨fun stopped => ?_, fun runs same => ?_, fun runs changed => ?_, fun on => ⟨?_, fun lock => ?_, ?_⟩,
    fun off => ⟨?_, ?_, ?_⟩, fun other => ?_, fun open' => ⟨?_, fun cycle => ?_, fun w h fresh good => ?_,
      fun w h fresh good cycle => ⟨fun una none' => ?_, fun t c una hit low high next => ?_,
        fun t c una hit apart => ?_, fun t c ali last => ⟨fun low high => ?_, fun low high => ?_, fun low high => ?_⟩⟩⟩,
    fun shut => ⟨fun blk => ⟨?_, fun cycle => ?_⟩, fun unblk => ⟨?_, ?_⟩⟩, fun runs ali late => ?_, fun idle => ?_⟩
  · exact if_pos (by rw [stopped]; rfl)
  · rw [laneSettle_of_same runs (codeIs.trans same), driveTx, offIs same.symm ⟨rfl, rfl, rfl⟩]
  · have is := laneSettle_of_changed runs (fun h => changed (codeIs.symm.trans h))
    rw [show (laneOf s l).codeNow = code from codeIs] at is
    obtain ⟨v, isV⟩ : ∃ v, updLane s l (fun x => x.takes code) = v := ⟨_, rfl⟩
    have laneV : laneOf v l = x.takes code := by rw [← isV, laneOf_updLane_self]
    have took := took_takes x code
    have off : (laneOf v l).txOff = dark := by
      rw [laneV]
      exact offIs took.code took.module
    obtain ⟨lane, others, out⟩ := driveTx_takes off
    rw [isV] at is
    have posted := postRec_follows (driveTx v l) (islLane l) 0x25 0 (pack [(0, l), (8, code)]) 0
    have lanes (k : Nat) : laneOf (laneSettle s l) k = laneOf (driveTx v l) k := by
      rw [is]
      exact laneOf_of_lanes (congrArg Towline.lanes (posted.tl (by decide))) k
    intro t y
    have yIs : y = { x.takes code with txDis := dark } := by
      rw [← laneV]
      exact (lanes l).trans lane
    rw [yIs]
    refine ⟨took.code, took.blockLock, took.hiBer, took.cntLock, took.aligned, took.hit, took.cntAlign, took.eq,
      took.session, rfl, ?_, fun room => ?_, fun k other => ?_⟩
    · rw [show t.out = (driveTx v l).out from (congrArg State.out is).trans (posted.out (by decide)), out, laneV, took.txDis, ← isV]
      rfl
    · have drive := driveTx_follows v l
      have stagingV : (driveTx v l).staging = s.staging := by
        rw [drive.staging (by decide), ← isV]
        rfl
      have tickV : (driveTx v l).tick = s.tick := by
        rw [drive.tick (by decide), ← isV]
        rfl
      have added := staging_stage (s := driveTx v l) (by rw [stagingV]; exact room)
      rw [show t.staging = _ from (congrArg State.staging is).trans (added _), stagingV]
      exact ⟨_, rfl, rfl, rfl, toNat_islLane l, rfl, congrArg (BitVec.truncate 32) tickV, rfl⟩
    · rw [lanes, others k other, ← isV, laneOf_updLane_of_ne _ _ other]
  · exact settled (congrArg Host.Outcome.next (if_pos on)) rfl
  · exact settled (congrArg Host.Outcome.next (if_pos (by rw [show laneListens s l = true from on, lock]; rfl))) rfl
  · have counted : (if decide (16 ≤ n) && !x.hiBer then x.cntHiBer + 1 else x.cntHiBer) =
        if 16 ≤ n ∧ x.hiBer = false then x.cntHiBer + 1 else x.cntHiBer :=
      if_congr (by simp only [Bool.and_eq_true, decide_eq_true_eq, Bool.not_eq_true']) rfl rfl
    exact settled (congrArg Host.Outcome.next (if_pos on)) (congrArg (fun k : BitVec 16 => ({ x with
      hiBer := decide (16 ≤ n), cntErrBlk := x.cntErrBlk + BitVec.ofNat 32 n, cntHiBer := k } : Lane)) counted)
  · exact congrArg Host.Outcome.next (if_neg ((Bool.not_eq_true _).mpr off))
  · refine congrArg Host.Outcome.next (if_neg ?_)
    rw [show laneListens s l = false from off]
    exact Bool.false_ne_true
  · exact congrArg Host.Outcome.next (if_neg ((Bool.not_eq_true _).mpr off))
  · exact congrArg Host.Outcome.next (if_pos other)
  · exact dropped (fun t is => by
      refine congrArg Host.Outcome.next ?_
      rw [is]) open'
  · exact dropped (fun t is => by
      refine congrArg Host.Outcome.next ((if_neg (not_not_intro cycle)).trans ?_)
      rw [is]) open'
  · refine congrArg Host.Outcome.next ?_
    rw [rxAccept_of_good open' (rxCheck_of_good (wholeIs.mpr w) h fresh (headerIs.mpr good)) (wholeIs.mpr w)]
  · rw [gets_eq, accepted cycle w h fresh good open', if_neg (Bool.eq_false_iff.mp una)]
    exact congrArg Host.Outcome.next (alignHit_of_none (h := x.heard f) (code67 open') none')
  · rw [settles_eq, accepted cycle w h fresh good open', if_neg (Bool.eq_false_iff.mp una)]
    exact congrArg Host.Outcome.next (alignHit_of_second (h := x.heard f) (code67 open') hit low high next)
  · refine ⟨_, (accepted cycle w h fresh good open').trans (congrArg Host.Outcome.next (if_neg (Bool.eq_false_iff.mp una))), ?_⟩
    exact alignHit_of_other (h := x.heard f) hit apart
  · rw [gets_eq, accepted cycle w h fresh good open', if_pos ali]
    exact congrArg Host.Outcome.next (alignCheck_of_near (h := x.heard f) (code67 open') last low high)
  · rw [settles_eq, accepted cycle w h fresh good open', if_pos ali]
    refine congrArg Host.Outcome.next ?_
    rw [alignCheck_of_far (h := x.heard f) (code67 open') last low (Int.le_of_lt (Int.lt_trans high (by decide))) (.inl high),
      unalign_of_aligned ?ali]
    · rfl
    case ali => exact ali
  · rw [settles_eq, accepted cycle w h fresh good open', if_pos ali]
    refine congrArg Host.Outcome.next ?_
    rw [alignCheck_of_far (h := x.heard f) (code67 open') last (Int.le_of_lt (Int.lt_trans (by decide) low)) high (.inr low),
      unalign_of_aligned ?ali]
    · rfl
    case ali => exact ali
  · refine congrArg Host.Outcome.next ?_
    rw [rxAccept_of_shut shut]
    exact countBlocks_of_blocks blk
  · refine congrArg Host.Outcome.next ((if_neg (not_not_intro cycle)).trans ?_)
    rw [rxAccept_of_shut shut]
    exact countBlocks_of_blocks blk
  · refine congrArg Host.Outcome.next ?_
    rw [rxAccept_of_shut shut]
    exact countBlocks_of_not unblk
  · refine congrArg Host.Outcome.next ?_
    by_cases cycle : be 15 1 = 1
    · refine (if_neg (not_not_intro cycle)).trans ?_
      rw [rxAccept_of_shut shut]
      exact countBlocks_of_not unblk
    · exact if_pos cycle
  · refine settled (congrArg Host.Outcome.next (if_pos ?_)) (unalign_of_aligned ali)
    rw [runs, ali, decide_eq_true late]
    rfl
  · refine congrArg Host.Outcome.next (if_neg ?_)
    intro due
    simp only [Bool.and_eq_true, decide_eq_true_eq] at due
    obtain ⟨⟨runs, ali⟩, late⟩ := due
    rcases idle with h | h | h
    · exact absurd runs (by rw [h]; decide)
    · exact absurd ali (by rw [show (laneOf s l).aligned = false from h]; decide)
    · exact absurd late (Nat.not_le.mpr h)

end Sys2Proof.Machine
end

section
/-! PROOFS. Exceptions and interrupts of the Ceing cores (chapter 14, R565 to R596): the obligation O44, which fails
for a task table that is not in ascending order. -/
open Sys2Proof

namespace Sys2Proof.Machine

/-- The task that is current on core 0 of the counterexample, recorded as ready. -/
def strayTask : Task := { deck := 0, prio := 0, scene := none, moor := 0, state := 1 }

/-- A task of another Deckhand, with a greater index. -/
def otherTask : Task := { deck := 1, prio := 0, scene := none, moor := 0 }

/-- A state whose tasks do not stand in ascending order: a change of task 3 is entered before task 5 and leaves the
old entry of task 3, which is still ready, behind it. -/
def strayState : State :=
  { islands := [(1, { state := .running })]
    dh := { cores := [(0, { cur := some 3, kernel := false })]
            tasks := [(5, otherTask), (3, strayTask)] } }

theorem coreReady_strayState : CoreReady strayState 0 1 := ⟨by decide, by decide⟩

/-- The exception of a `reti` in task level stops task 3, and the kernel picks its old entry and runs it again. -/
theorem reti_strayState : ∃ u, exec (.reti 0) strayState = .next u ∧ (taskOf u 3).map (·.state) = some 2 :=
  ⟨_, rfl, by decide⟩

/-- Refutes O44: in `strayState` the task that raised the exception does not end in state 4 but runs again, because
its entry is the only one of its index and yet not where an ascending table has it. -/
theorem not_coresTakeExceptionsAndInterrupts : ¬ Obligations.CoresTakeExceptionsAndInterrupts := by
  intro holds
  obtain ⟨-, -, privileged, -⟩ := holds 0 [] 0 0 0 0 0 0 strayState
  obtain ⟨⟨-, -, stops⟩, -⟩ := privileged coreReady_strayState rfl
  obtain ⟨u, x, is, found, stopped, -⟩ := stops 3 strayTask rfl rfl rfl
  obtain ⟨v, ran, again⟩ := reti_strayState
  obtain rfl : u = v := Host.Outcome.next.inj (is.symm.trans ran)
  rw [found, Option.map_some, stopped] at again
  exact absurd again (by decide)

end Sys2Proof.Machine
end

section
/-! PROOFS. The services of the deck kernel (chapter 14, R581 to R595): the obligation O45, which fails for a task
table that is not in ascending order. -/
open Sys2Proof

namespace Sys2Proof.Machine

/-- The calling task of the counterexample: it owns lock cell 0. -/
def owningTask : Task := { deck := 0, prio := 0, scene := none, moor := 0, state := 2, locks := [(0, 0)] }

/-- A task of a higher priority that waits for that cell. -/
def blockedTask : Task := { deck := 0, prio := 5, scene := none, moor := 0, state := 3, wait := some (.lock 0) }

/-- A state whose tasks do not stand in ascending order: a change of task 3 is entered before task 5 and leaves the
old entry of task 3, which still owns the cell, behind it. -/
def staleState : State :=
  { islands := [(1, { state := .running })]
    dh := { cores := [(0, { cur := some 3, kernel := false })]
            tasks := [(5, blockedTask), (3, owningTask)] } }

theorem coreReady_staleState : CoreReady staleState 0 1 := ⟨by decide, by decide⟩

/-- UNLOCK releases the cell, and the inheritance of the waiting task's priority gives it to task 3 again, for the old
entry still owns it. -/
theorem unlockService_staleState : ∃ u, exec (.unlockService 0) staleState = .next u ∧
    (taskOf u 3).map (fun x => Tab.find? x.locks 0) = some (some 5) :=
  ⟨_, rfl, by decide +kernel⟩

/-- Refutes O45: in `staleState` the cell that UNLOCK released is the caller's again after the service, because the
caller's entry is the only one of its index and yet not where an ascending table has it. -/
theorem not_servicesActOnTheCallingTask : ¬ Obligations.ServicesActOnTheCallingTask := by
  intro holds
  obtain ⟨-, services, -⟩ := holds 0 3 owningTask staleState
  have alone : ∀ p ∈ staleState.dh.tasks, p.1 ≠ 3 → p.2.deck = 0 → p.2.state ≠ 1 := by decide
  obtain ⟨-, -, -, -, -, -, -, unlocks, -⟩ :=
    services ⟨rfl, rfl⟩ coreReady_staleState rfl rfl rfl rfl (by decide) alone
  obtain ⟨u, x, is, found, -, released, -⟩ := unlocks rfl
  obtain ⟨v, ran, again⟩ := unlockService_staleState
  obtain rfl : u = v := Host.Outcome.next.inj (is.symm.trans ran)
  have released' : Tab.find? x.locks 0 = none := released
  rw [found, Option.map_some, released'] at again
  exact absurd again (by decide)

end Sys2Proof.Machine
end

section
/-! PROOFS. The cycle boundary (chapters 02, 07, 12 and 13): the obligation O43. -/
open Sys2Proof

namespace Sys2Proof.Machine

/-! ### What a boundary leaves of the scenes and of the lanes -/

/-- When a scene's beam starts and when it was created. -/
def Scene.birth (c : Scene) : Option Dword × Dword := (c.start, c.madeAt)

/-- What decides whether a lane sends, and its session. -/
def Lane.link (x : Lane) : Bool × BitVec 2 × Nat × BitVec 16 := (x.enable, x.test, x.code, x.session)

/-- Every scene keeps its birth and every lane its link. -/
structure Unmoved (s t : State) : Prop where
  scenes : ∀ i, (sceneOf t i).map Scene.birth = (sceneOf s i).map Scene.birth
  lanes : ∀ l, (laneOf t l).link = (laneOf s l).link

namespace Unmoved
variable {s t u : State}

theorem refl (s : State) : Unmoved s s := ⟨fun _ => rfl, fun _ => rfl⟩

theorem trans (h : Unmoved s t) (k : Unmoved t u) : Unmoved s u :=
  ⟨fun i => (k.scenes i).trans (h.scenes i), fun l => (k.lanes l).trans (h.lanes l)⟩

/-- The last step first, which names the state before it. -/
theorem after (k : Unmoved t u) (h : Unmoved s t) : Unmoved s u := h.trans k

theorem of_tables (scenes : t.tp.scenes = s.tp.scenes) (lanes : t.tl.lanes = s.tl.lanes) : Unmoved s t :=
  ⟨fun i => by rw [sceneOf, scenes, sceneOf], fun l => by rw [laneOf, lanes, laneOf]⟩

theorem of_parts (tp : t.tp = s.tp) (tl : t.tl = s.tl) : Unmoved s t :=
  of_tables (congrArg Towpath.scenes tp) (congrArg Towline.lanes tl)

theorem foldl {α : Type} {f : State → α → State} (step : ∀ s x, Unmoved s (f s x)) (l : List α) (s : State) :
    Unmoved s (l.foldl f s) :=
  List.foldlRecOn (motive := Unmoved s) l f (refl s) fun u h x _ => h.trans (step u x)

end Unmoved

theorem unmoved_updLane (s : State) (l : Nat) {f : Lane → Lane} (keeps : ∀ x, (f x).link = x.link) :
    Unmoved s (updLane s l f) := by
  refine ⟨fun _ => rfl, fun k => ?_⟩
  by_cases own : k = l
  · subst own
    rw [laneOf_updLane_self, keeps]
  · rw [laneOf_updLane_of_ne _ _ own]

theorem unmoved_updScene (s : State) (i : Nat) {f : Scene → Scene} (keeps : ∀ c, (f c).birth = c.birth) :
    Unmoved s (updScene s i f) := by
  unfold updScene
  split
  · exact .refl s
  · next c found =>
    refine ⟨fun k => ?_, fun _ => rfl⟩
    by_cases own : k = i
    · subst own
      rw [found, show sceneOf (setScene s k (f c)) k = some (f c) from Tab.find?_put_self .., Option.map_some,
        Option.map_some, keeps]
    · rw [show sceneOf (setScene s i (f c)) k = sceneOf s k from Tab.find?_put_of_ne _ _ own]

theorem unmoved_onTp (s : State) {f : Towpath → Towpath} (keeps : ∀ x, (f x).scenes = x.scenes) : Unmoved s (onTp s f) :=
  .of_tables (keeps _) rfl

theorem unmoved_onTl (s : State) {f : Towline → Towline} (keeps : ∀ x, (f x).lanes = x.lanes) : Unmoved s (onTl s f) :=
  .of_tables rfl (keeps _)

theorem unmoved_setStation (s : State) (i : Nat) (t : Station) : Unmoved s (setStation s i t) :=
  .of_tables rfl rfl

theorem unmoved_updStation (s : State) (i : Nat) (f : Station → Station) : Unmoved s (updStation s i f) := by
  unfold updStation
  split
  · exact .refl s
  · exact unmoved_setStation ..

theorem unmoved_updRecv (s : State) (r : Nat) (f : Recv → Recv) : Unmoved s (updRecv s r f) := by
  unfold updRecv
  split <;> exact .of_tables rfl rfl

/-! #### Pieces and stations -/

theorem unmoved_owePiece (s : State) (r : Nat) (p : Piece) : Unmoved s (owePiece s r p) := by
  unfold owePiece
  split
  · exact .refl s
  · exact unmoved_updRecv ..

theorem unmoved_oweAll (s : State) (r : Nat) : Unmoved s (oweAll s r) := by
  unfold oweAll
  split
  · exact .refl s
  · exact unmoved_updRecv ..

theorem unmoved_losePiece (s : State) (r : Nat) (p : Piece) : Unmoved s (losePiece s r p) :=
  .after (unmoved_owePiece ..) (unmoved_updRecv ..)

theorem unmoved_cancelUnsent (s : State) (r : Nat) (owe : Bool) : Unmoved s (cancelUnsent s r owe) := by
  unfold cancelUnsent
  dsimp only
  split
  · exact .after (.foldl (fun s p => unmoved_owePiece s r p) _ _) (unmoved_updRecv ..)
  · exact unmoved_updRecv ..

theorem unmoved_freeRows (s : State) (i n : Nat) : Unmoved s (freeRows s i n) :=
  unmoved_updScene _ _ fun _ => rfl

theorem unmoved_freeAll (s : State) : Unmoved s (freeAll s) := by
  unfold freeAll
  refine .foldl (fun u p => ?_) _ _
  split
  · split
    · exact unmoved_freeRows ..
    · exact .refl u
  · exact unmoved_freeRows ..

theorem unmoved_dropFrames (s : State) (l addr : Nat) : Unmoved s (dropFrames s l addr) :=
  unmoved_updLane _ _ fun _ => rfl

theorem unmoved_dropAudio (s : State) (i : Nat) : Unmoved s (dropAudio s i) := by
  unfold dropAudio
  split
  · exact .refl s
  · exact unmoved_updLane _ _ fun _ => rfl

theorem unmoved_writeOutStatus (s : State) (i : Nat) : Unmoved s (writeOutStatus s i) :=
  .of_parts ((writeOutStatus_follows ..).tp (by decide)) ((writeOutStatus_follows ..).tl (by decide))

theorem unmoved_setCode (s : State) (i code : Nat) : Unmoved s (setCode s i code) := by
  unfold setCode
  split
  · exact .refl s
  · next t _ =>
    split
    · exact .refl s
    · dsimp only
      refine .after (unmoved_writeOutStatus ..) ?_
      have posted (u : State) : Unmoved u (if t.ending then u else postCycleRec u (islLane t.lane) 0x18
          (handleOf u tSTATION i) (cycleNo u) (w32 code) (stationMoor u t)) := by
        split
        · exact .refl u
        · exact .of_parts ((postCycleRec_follows ..).tp (by decide)) ((postCycleRec_follows ..).tl (by decide))
      split
      · exact .after (unmoved_dropAudio ..) (.after (unmoved_freeAll ..) (.after (unmoved_cancelUnsent ..)
          (.after (posted _) (unmoved_updStation ..))))
      · exact .after (posted _) (unmoved_updStation ..)

theorem unmoved_enterConfig (s : State) (i : Nat) : Unmoved s (enterConfig s i) := by
  unfold enterConfig
  split
  · exact .refl s
  · exact .after (unmoved_setCode ..) (.after (unmoved_freeAll ..) (.after (unmoved_cancelUnsent ..)
      (.after (unmoved_dropFrames ..) (unmoved_updStation ..))))

theorem unmoved_moveStation (s : State) (k a : Nat) : Unmoved s (moveStation s k a) := by
  unfold moveStation
  split
  · exact .refl s
  · next t _ =>
    dsimp only
    obtain ⟨u, isU⟩ : ∃ u, enterConfig (setStation (dropFrames s t.lane t.addr) k
      { t with addr := a, write := none }) k = u := ⟨_, rfl⟩
    have entered : Unmoved s u := by
      rw [← isU]
      exact .after (unmoved_enterConfig ..) (.after (unmoved_setStation ..) (unmoved_dropFrames ..))
    rw [isU]
    exact .after (unmoved_oweAll ..) (.after (.foldl (fun u p => unmoved_losePiece u k p) _ u) entered)

theorem unmoved_endStation (s : State) (k : Nat) (t : Station) : Unmoved s (endStation s k t) := by
  unfold endStation
  dsimp only
  refine .after (unmoved_freeAll ..) ?_
  refine .after (unmoved_onTp _ fun _ => rfl) (.after (unmoved_onTl _ fun _ => rfl) ?_)
  exact .after (unmoved_updLane _ _ fun _ => rfl) (unmoved_dropFrames ..)

/-! #### The deck kernel -/

theorem unmoved_onDh (s : State) (f : Decks → Decks) : Unmoved s (onDh s f) := .of_parts rfl rfl

theorem unmoved_onSl (s : State) (f : Sluice → Sluice) : Unmoved s (onSl s f) := .of_parts rfl rfl

theorem unmoved_onCv (s : State) (f : Chervil → Chervil) : Unmoved s (onCv s f) := .of_parts rfl rfl

theorem unmoved_updCore (s : State) (n : Nat) (f : Core → Core) : Unmoved s (updCore s n f) := .of_parts rfl rfl

theorem unmoved_setTask (s : State) (i : Nat) (t : Task) : Unmoved s (setTask s i t) := .of_parts rfl rfl

theorem unmoved_updTask (s : State) (i : Nat) (f : Task → Task) : Unmoved s (updTask s i f) :=
  .of_parts ((updTask_follows ..).tp (by decide)) ((updTask_follows ..).tl (by decide))

theorem unmoved_writePrio (s : State) (n p : Nat) : Unmoved s (writePrio s n p) :=
  .of_parts ((writePrio_follows ..).tp (by decide)) ((writePrio_follows ..).tl (by decide))

theorem unmoved_syncSwitch (s : State) (n i : Nat) : Unmoved s (syncSwitch s n i) :=
  .of_parts ((syncSwitch_follows ..).tp (by decide)) ((syncSwitch_follows ..).tl (by decide))

theorem unmoved_runTask (s : State) (n i : Nat) : Unmoved s (runTask s n i) := by
  unfold runTask
  split
  · exact .refl s
  · dsimp only
    exact .after (unmoved_writePrio ..) (.after (unmoved_setTask ..) (.after (unmoved_onSl ..)
      (.after (unmoved_onTp _ fun _ => rfl) (unmoved_updCore ..))))

theorem unmoved_dispatch (s : State) (n : Nat) : Unmoved s (dispatch s n) := by
  unfold dispatch
  split
  · exact unmoved_runTask ..
  · exact unmoved_updCore ..

theorem unmoved_switchFrom (s : State) (n i : Nat) : Unmoved s (switchFrom s n i) := by
  unfold switchFrom
  exact .after (unmoved_dispatch ..) (.after (unmoved_updCore ..) (.after (unmoved_updTask ..) (unmoved_syncSwitch ..)))

theorem unmoved_kernelExit (s : State) (n : Nat) : Unmoved s (kernelExit s n) := by
  have inherits : Unmoved s (inheritLocal s n) :=
    .of_parts ((inheritLocal_follows ..).tp (by decide)) ((inheritLocal_follows ..).tl (by decide))
  unfold kernelExit
  dsimp only
  split
  · exact .after (unmoved_dispatch ..) inherits
  · split
    · exact .after (unmoved_dispatch ..) (.after (unmoved_updCore ..) inherits)
    · refine iteInduction (motive := Unmoved s) (fun _ => ?_) (fun _ => ?_)
      · exact .after (unmoved_writePrio ..) (.after (unmoved_updCore ..) inherits)
      · exact .after (unmoved_switchFrom ..) inherits

theorem unmoved_reschedule (s : State) (n : Nat) : Unmoved s (reschedule s n) := by
  unfold reschedule
  dsimp only
  split
  · exact .refl s
  · split
    · exact unmoved_kernelExit ..
    · split
      · exact .after (unmoved_kernelExit ..) (unmoved_updCore ..)
      · exact .refl s

theorem unmoved_deckHold (s : State) : Unmoved s (deckHold s) := by
  unfold deckHold
  refine .foldl (fun u n => ?_) _ _
  dsimp only
  split
  · exact .after (unmoved_kernelExit ..) (unmoved_updCore ..)
  · exact .refl u

theorem unmoved_discardBank (s : State) (n : Nat) : Unmoved s (discardBank s n) :=
  .of_parts ((discardBank_follows ..).tp (by decide)) ((discardBank_follows ..).tl (by decide))

theorem unmoved_deckUnhold (s : State) : Unmoved s (deckUnhold s) := by
  unfold deckUnhold
  dsimp only
  refine .after (.foldl (fun u n => unmoved_reschedule u n) _ _) ?_
  exact .after (unmoved_onDh ..) (.foldl (fun u n => unmoved_discardBank u n) _ _)

/-! #### Modes -/

theorem unmoved_endWaiting (s : State) (m : Nat) (h crc : Word) (st : Nat) (w : List Word) :
    Unmoved s (endWaiting s m h crc st w) :=
  .of_parts ((endWaiting_follows ..).tp (by decide)) ((endWaiting_follows ..).tl (by decide))

theorem unmoved_abortRebind (s : State) (k : Nat) : Unmoved s (abortRebind s k) := by
  unfold abortRebind
  refine .foldl (fun u p => ?_) _ _
  split
  · split
    · exact unmoved_endWaiting ..
    · exact .refl u
  · exact .refl u

theorem unmoved_bindScene (s : State) (k i : Nat) : Unmoved s (bindScene s k i) :=
  .after (unmoved_updStation ..) (unmoved_updScene _ _ fun _ => rfl)

theorem unmoved_washScenes (s : State) (on : Bool) : Unmoved s (washScenes s on) := by
  unfold washScenes
  refine .foldl (fun u k => ?_) _ _
  split
  · exact .refl u
  · split
    · exact .refl u
    · exact .after (unmoved_bindScene ..) (unmoved_abortRebind ..)

theorem unmoved_endForcing (s : State) : Unmoved s (endForcing s) :=
  .foldl (fun u k => unmoved_updStation u k _) _ _

theorem unmoved_abandonWrites (s : State) : Unmoved s (abandonWrites s) := by
  unfold abandonWrites
  refine .foldl (fun u k => ?_) _ _
  dsimp only
  split
  · exact .refl u
  · split
    · exact .refl u
    · exact .after (unmoved_writeOutStatus ..) (.after (unmoved_updStation ..) (unmoved_updLane _ _ fun _ => rfl))

theorem unmoved_silenceMixes (s : State) : Unmoved s (silenceMixes s) :=
  .of_parts ((silenceMixes_follows ..).tp (by decide)) ((silenceMixes_follows ..).tl (by decide))

/-- A step that is made in one of two cases. -/
theorem Unmoved.ite {s t u : State} (c : Prop) [Decidable c] (yes : Unmoved s t) (no : Unmoved s u) :
    Unmoved s (if c then t else u) := by
  split
  · exact yes
  · exact no

theorem unmoved_modeEffects (s : State) (old new : BitVec 4) : Unmoved s (modeEffects s old new) := by
  obtain ⟨a, isA⟩ : ∃ a, (if outputPolicy old = outputPolicy new then s else abandonWrites s) = a := ⟨_, rfl⟩
  obtain ⟨b, isB⟩ : ∃ b, (if old = mSERVICE then endForcing a else a) = b := ⟨_, rfl⟩
  obtain ⟨c, isC⟩ : ∃ c, (if old = mWASH then washScenes b false else b) = c := ⟨_, rfl⟩
  obtain ⟨d, isD⟩ : ∃ d, silenceMixes (if new = mWASH then washScenes c true else c) = d := ⟨_, rfl⟩
  obtain ⟨e, isE⟩ : ∃ e, (if old = mHOLD then deckUnhold d else d) = e := ⟨_, rfl⟩
  have toA : Unmoved s a := isA ▸ .ite _ (.refl s) (unmoved_abandonWrites s)
  have toB : Unmoved a b := isB ▸ .ite _ (unmoved_endForcing a) (.refl a)
  have toC : Unmoved b c := isC ▸ .ite _ (unmoved_washScenes b false) (.refl b)
  have toD : Unmoved c d :=
    isD ▸ .after (unmoved_silenceMixes _) (.ite _ (unmoved_washScenes c true) (.refl c))
  have toE : Unmoved d e := isE ▸ .ite _ (unmoved_deckUnhold d) (.refl d)
  have toEnd : Unmoved e (if new = mHOLD then deckHold (onCv e (fun c => { c with keyOffDue := some e.tick.toNat }))
      else e) := .ite _ (.after (unmoved_deckHold _) (unmoved_onCv ..)) (.refl e)
  unfold modeEffects
  dsimp only
  rw [isA, isB, isC, isD, isE]
  exact toA.trans (toB.trans (toC.trans (toD.trans (toE.trans toEnd))))

theorem unmoved_enterMode (s : State) (m : BitVec 4) (cause : Nat) : Unmoved s (enterMode s m cause) :=
  .of_parts ((enterMode_follows ..).tp (by decide)) ((enterMode_follows ..).tl (by decide))

theorem unmoved_changeMode (s : State) (m : BitVec 4) (cause : Nat) : Unmoved s (changeMode s m cause) :=
  .after (unmoved_modeEffects ..) (unmoved_enterMode ..)

theorem unmoved_cancelSetMode (s : State) : Unmoved s (cancelSetMode s) := .of_parts rfl rfl

theorem unmoved_autoMode (s : State) : Unmoved s (autoMode s) :=
  .ite _ (.after (unmoved_changeMode ..) (unmoved_cancelSetMode s))
    (.ite _ (unmoved_changeMode ..) (.ite _ (unmoved_changeMode ..) (.refl s)))

theorem unmoved_dueMode (s : State) (m : Nat) (h crc : Word) (t : BitVec 4) (cancelled : Bool) :
    Unmoved s (dueMode s m h crc t cancelled) := by
  unfold dueMode
  refine .ite _ (unmoved_endWaiting ..) (.ite _ (unmoved_endWaiting ..) (.ite _ (unmoved_endWaiting ..) ?_))
  exact .after (unmoved_modeEffects ..) (.after (unmoved_endWaiting ..) (unmoved_enterMode ..))

theorem unmoved_caused (s : State) : Unmoved s (caused s) :=
  .of_parts ((caused_follows _).tp (by decide)) ((caused_follows _).tl (by decide))

theorem unmoved_causes (s : State) (m : Nat) : Unmoved s (causes s m) := .of_parts rfl rfl

theorem unmoved_dueModes (s : State) (b : Nat) : Unmoved s (dueModes s b) := by
  unfold dueModes
  refine .foldl (fun u p => ?_) _ _
  split
  · split
    · exact .after (unmoved_caused _) (.after (unmoved_dueMode ..) (unmoved_causes ..))
    · exact .refl u
  · exact .refl u

theorem unmoved_boundaryModes (s : State) (b : Nat) : Unmoved s (boundaryModes s b) := by
  have restarted : Unmoved s (afterRestart s) :=
    .of_parts ((afterRestart_follows _).tp (by decide)) ((afterRestart_follows _).tl (by decide))
  exact .ite _ (.refl s) (.after (unmoved_dueModes ..) (.after (unmoved_autoMode _) restarted))

/-! #### Stations and lanes at a boundary -/

theorem unmoved_boundaryStation (b : Nat) (s : State) (k : Nat) : Unmoved s (boundaryStation b s k) := by
  unfold boundaryStation
  split
  · exact .refl s
  · refine .ite _ (unmoved_endStation ..) ?_
    refine .ite _ ?_ (unmoved_setStation ..)
    exact .after (unmoved_oweAll ..) (.after (unmoved_updScene _ _ fun _ => rfl) (unmoved_setStation ..))

theorem unmoved_boundaryRebinds (s : State) (b : Nat) : Unmoved s (boundaryRebinds s b) := by
  refine .ite _ (.refl s) (.foldl (fun u p => ?_) _ _)
  split
  · split
    · refine .after (unmoved_caused _) ?_
      exact .trans (.after (unmoved_moveStation ..) (unmoved_causes u _)) (.of_parts rfl rfl)
    · exact .refl u
  · exact .refl u

theorem unmoved_readReq (s : State) (a ad n : Nat) : Unmoved s (readReq s a ad n).1 :=
  .of_parts ((readReq_follows ..).tp (by decide)) ((readReq_follows ..).tl (by decide))

theorem unmoved_queueFrame (s : State) (t : Station) (type : Nat) (payload : List Byte) :
    Unmoved s (queueFrame s t type payload) :=
  unmoved_updLane _ _ fun _ => rfl

theorem unmoved_readOut (s : State) (i len : Nat) : Unmoved s (readOut s i len).1 := by
  have first := unmoved_readReq s 14 (recordOf i + 0x10) 4
  unfold readOut
  generalize readReq s 14 (recordOf i + 0x10) 4 = r at first
  obtain ⟨u, c⟩ := r
  dsimp only at first ⊢
  cases c with
  | error e => exact first
  | ok b =>
    dsimp only
    have second := unmoved_readReq u 14 (recordOf i + 0xC0) len
    generalize readReq u 14 (recordOf i + 0xC0) len = r at second
    obtain ⟨v, c⟩ := r
    cases c <;> exact first.trans second

theorem unmoved_formOutput (s : State) (m : Word) (i : Nat) : Unmoved s (formOutput s m i) := by
  unfold formOutput
  split
  · exact .refl s
  next t _ =>
    refine .ite _ (.refl s) ?_
    have read := unmoved_readOut s i t.outLen
    generalize readOut s i t.outLen = r at read
    obtain ⟨u, commit, img, bad⟩ := r
    dsimp only at read ⊢
    have counted (f : Station → Station) : Unmoved s (updStation u i f) := .after (unmoved_updStation ..) read
    split
    · exact .after (unmoved_writeOutStatus ..) (.after (unmoved_queueFrame ..) (.after (unmoved_updStation ..)
        (.after (unmoved_updLane _ _ fun _ => rfl) (counted _))))
    · split
      · exact counted _
      · exact .ite _ (counted _) (.after (unmoved_queueFrame ..) (.after (unmoved_updStation ..) (counted _)))

theorem unmoved_sendFrame (s : State) (f : Frame) : Unmoved s (sendFrame s f) := by
  have sent (u : State) (o : Out) : Unmoved u (emit u o) := .of_parts rfl rfl
  unfold sendFrame
  exact .after (sent ..) (unmoved_updLane _ _ fun _ => rfl)

theorem unmoved_queueConfigs (s : State) (l : Nat) : Unmoved s (queueConfigs s l) := by
  unfold queueConfigs
  refine .foldl (fun u i => ?_) _ _
  split
  · exact .refl u
  · exact .ite _ (unmoved_queueFrame ..) (.refl u)

theorem unmoved_queueAudio (s : State) (l : Nat) : Unmoved s (queueAudio s l) := by
  unfold queueAudio
  refine .foldl (fun u i => ?_) _ _
  unfold queueAudioOf
  split
  · exact .ite _ (.refl u) (.after (unmoved_queueFrame ..) (unmoved_dropAudio ..))
  · exact .refl u

theorem unmoved_boundaryLane (s : State) (l : Nat) : Unmoved s (boundaryLane s l) := by
  unfold boundaryLane
  dsimp only
  obtain ⟨u, isU⟩ : ∃ u, updLane s l (fun x => { x with configs := 0 }) = u := ⟨_, rfl⟩
  obtain ⟨v, isV⟩ : ∃ v, (if laneSends u l then sendFrame u (cycleFrame u l) else u) = v := ⟨_, rfl⟩
  have toU : Unmoved s u := isU ▸ unmoved_updLane _ _ fun _ => rfl
  have toV : Unmoved u v := isV ▸ .ite _ (unmoved_sendFrame ..) (.refl u)
  rw [isU, isV]
  exact toU.trans (toV.trans (.ite _ (.after (unmoved_queueAudio ..) (unmoved_queueConfigs ..)) (.refl v)))

end Sys2Proof.Machine
end

section
/-! PROOFS. The cycle boundary (chapters 02, 07, 12 and 13), continued: the modes, the waiting commands and the
frames of the new cycle, and the obligation O43. -/
open Sys2Proof

namespace Sys2Proof.Machine

/-! ### The firmware's tables through a mode change -/

theorem waiting_of_tables {s t : State} (h : t.fw.tables = s.fw.tables) : t.fw.waiting = s.fw.waiting :=
  show t.fw.tables.waiting = s.fw.tables.waiting from congrArg Fw.waiting h

theorem windowOf_of_tables {s t : State} (h : t.fw.tables = s.fw.tables) (m : Nat) : windowOf t m = windowOf s m := by
  have windows : t.fw.tables.windows = s.fw.tables.windows := congrArg Fw.windows h
  exact congrArg (Tab.get [] · m) windows

theorem writeOutStatus_tables (s : State) (i : Nat) : (writeOutStatus s i).fw.tables = s.fw.tables := by
  unfold writeOutStatus
  split
  · rfl
  · exact writeReq_tables ..

theorem enterMode_tables (s : State) (m : BitVec 4) (cause : Nat) : (enterMode s m cause).fw.tables = s.fw.tables :=
  postCycleRec_tables ..

theorem tables_foldl {α : Type} {f : State → α → State} {s : State}
    (step : ∀ u x, u.fw.tables = s.fw.tables → (f u x).fw.tables = s.fw.tables) (l : List α) :
    (l.foldl f s).fw.tables = s.fw.tables :=
  List.foldlRecOn (motive := fun u => u.fw.tables = s.fw.tables) l f rfl fun u h x _ => step u x h

theorem abandonWrites_tables (s : State) : (abandonWrites s).fw.tables = s.fw.tables := by
  unfold abandonWrites
  refine tables_foldl (fun u k h => ?_) _
  split
  · exact h
  · split
    · exact h
    · dsimp only
      rw [writeOutStatus_tables, (updStation_follows ..).fw (by decide)]
      exact h

theorem deckHold_tables (s : State) : (deckHold s).fw.tables = s.fw.tables := by
  unfold deckHold
  refine tables_foldl (fun u n h => ?_) _
  dsimp only
  split
  · rw [(noNewTask_kernelExit ..).tables]
    exact h
  · exact h

/-- No rebinding waits that a mode change could cancel. -/
def NoRebind (w : Tab Waiting) : Prop := ∀ s k, s.fw.waiting = w → abortRebind s k = s

theorem noRebind_nil : NoRebind [] := by
  intro s k waits
  unfold abortRebind
  rw [waits]
  rfl

theorem noRebind_setMode (m : Nat) (h crc : Word) (t : BitVec 4) (a : Dword) (x : Bool) :
    NoRebind [(m, .setMode h crc t a x)] := by
  intro s k waits
  unfold abortRebind
  rw [waits]
  rfl

theorem washScenes_tables {s : State} (still : NoRebind s.fw.waiting) (on : Bool) :
    (washScenes s on).fw.tables = s.fw.tables := by
  unfold washScenes
  refine tables_foldl (fun u k same => ?_) _
  split
  · exact same
  · split
    · exact same
    · rw [still u k (waiting_of_tables same), (bindScene_follows ..).fw (by decide)]
      exact same

/-- The effects of a mode change out of another mode than HOLD, into another than WASH (R46 to R50, R594). -/
theorem modeEffects_tables {s : State} (still : NoRebind s.fw.waiting) {old new : BitVec 4} (active : old ≠ mHOLD)
    (dry : new ≠ mWASH) : (modeEffects s old new).fw.tables = s.fw.tables := by
  obtain ⟨p, isP⟩ : ∃ p, (if outputPolicy old = outputPolicy new then s else abandonWrites s) = p := ⟨_, rfl⟩
  obtain ⟨q, isQ⟩ : ∃ q, (if old = mSERVICE then endForcing p else p) = q := ⟨_, rfl⟩
  obtain ⟨r, isR⟩ : ∃ r, (if old = mWASH then washScenes q false else q) = r := ⟨_, rfl⟩
  have toP : p.fw.tables = s.fw.tables := by
    rw [← isP]
    split
    · rfl
    · exact abandonWrites_tables s
  have toQ : q.fw.tables = s.fw.tables := by
    rw [← isQ]
    split
    · rw [(endForcing_follows p).fw (by decide)]
      exact toP
    · exact toP
  have toR : r.fw.tables = s.fw.tables := by
    rw [← isR]
    split
    · exact (washScenes_tables (by rw [waiting_of_tables toQ]; exact still) false).trans toQ
    · exact toQ
  unfold modeEffects
  dsimp only
  rw [isP, isQ, isR, if_neg active, if_neg dry]
  have silenced : (silenceMixes r).fw.tables = s.fw.tables := by
    rw [(silenceMixes_follows r).fw (by decide)]
    exact toR
  split
  · rw [deckHold_tables, (onCv_follows ..).fw (by decide)]
    exact silenced
  · exact silenced

/-! ### The end of a waiting command -/

theorem fw_placeReply (s : State) (m : Nat) (w : List Word) : (placeReply s m w).fw = s.fw :=
  (placeReply_follows ..).fw (by decide)

theorem flushReply_keeps (s : State) (m : Nat) :
    (flushReply s m).fw.windows = s.fw.windows ∧ (flushReply s m).fw.waiting = s.fw.waiting := by
  unfold flushReply
  split
  · exact ⟨rfl, rfl⟩
  · split
    · rw [fw_placeReply]
      exact ⟨rfl, rfl⟩
    · exact ⟨rfl, rfl⟩

theorem record_waiting (s : State) (m : Nat) (h crc : Word) (st : Nat) (w : List Word) :
    (record s m h crc st w).fw.waiting = s.fw.waiting := by
  unfold record
  split <;> rfl

/-- The end of the only command that waits: its result is kept, and none waits any more. -/
theorem endWaiting_of_last {s : State} {m : Nat} {x : Waiting} (waits : s.fw.waiting = [(m, x)]) {h crc : Word}
    {st : Nat} (kept : classQ h = false) (done : st ≠ stBUSY) (w : List Word) :
    (endWaiting s m h crc st w).fw.waiting = [] ∧ (windowOf (endWaiting s m h crc st w) m).getLast? =
      some { header := h, crc := crc, reply := replyWords h st w } := by
  have erased : Tab.erase s.fw.waiting m = [] := by
    rw [waits]
    simp [Tab.erase]
  unfold endWaiting
  dsimp only
  obtain ⟨u, isU, none'⟩ : ∃ u, onFw s (fun f => { f with
      waiting := Tab.erase f.waiting m, silent := f.silent && !(Tab.erase f.waiting m).isEmpty }) = u ∧
      u.fw.waiting = [] := ⟨_, rfl, erased⟩
  rw [isU]
  have result := windows_record u m h crc st w
  rw [if_neg (by
    rintro (q | busy)
    · exact absurd (decide_eq_true q) (by rw [show decide (fld h 24 8 ≤ 4) = false from kept]; decide)
    · exact done busy)] at result
  split
  · exact ⟨(record_waiting ..).trans none', result⟩
  · unfold reply sendReply
    have flushed := flushReply_keeps (onFw (record u m h crc st w) (fun f => { f with
      replies := f.replies ++ [(m, replyWords h st w)] })) m
    refine ⟨flushed.2.trans ((record_waiting ..).trans none'), ?_⟩
    unfold windowOf at result ⊢
    rw [flushed.1]
    exact result

theorem caused_windows (s : State) : (caused s).fw.windows = s.fw.windows := by
  unfold caused
  split
  · rfl
  · dsimp only
    split <;> rfl

/-! ### The modes at a boundary (R55, R57, R64) -/

theorem sys_changeMode (s : State) (m : BitVec 4) (cause : Nat) : (changeMode s m cause).sys = { s.sys with
    mode := m, prevMode := s.sys.mode, cause := BitVec.ofNat 4 cause, changeCount := s.sys.changeCount + 1 } := by
  unfold changeMode
  dsimp only
  rw [(modeEffects_follows ..).sys (by decide), enterMode]
  exact (postCycleRec_follows ..).sys (by decide)

theorem changeMode_tables {s : State} (still : NoRebind s.fw.waiting) {m : BitVec 4} (cause : Nat)
    (active : s.sys.mode ≠ mHOLD) (dry : m ≠ mWASH) : (changeMode s m cause).fw.tables = s.fw.tables := by
  have entered := enterMode_tables s m cause
  unfold changeMode
  exact (modeEffects_tables (by rw [waiting_of_tables entered]; exact still) active dry).trans entered

theorem boundaryModes_of_running {s : State} (runs : fwRuns s = true) (fresh : s.fw.restarted = false) (b : Nat) :
    boundaryModes s b = dueModes (autoMode s) b := by
  have same : afterRestart s = s := if_pos (by rw [fresh]; rfl)
  unfold boundaryModes
  rw [if_neg (by rw [runs]; decide), same]

theorem dueModes_of_nil {s : State} (none' : s.fw.waiting = []) (b : Nat) : dueModes s b = s := by
  unfold dueModes
  rw [none']
  rfl

/-- The automatic change where nothing waits, from the mode, the watchdog and the fences. -/
theorem sys_boundaryModes_of_idle {s : State} (runs : fwRuns s = true) (fresh : s.fw.restarted = false)
    (none' : s.fw.waiting = []) (b : Nat) : (boundaryModes s b).sys = (autoMode s).sys := by
  rw [boundaryModes_of_running runs fresh]
  have waits : (autoMode s).fw.waiting = [] := by
    have idle : NoRebind s.fw.waiting := none' ▸ noRebind_nil
    unfold autoMode
    split
    · next late =>
      have cancelled : (cancelSetMode s).fw.waiting = [] := by
        rw [show (cancelSetMode s).fw.waiting = _ from congrArg (List.map _) none']
        rfl
      have active : (cancelSetMode s).sys.mode ≠ mHOLD := by
        intro hold
        have hold' : s.sys.mode = mHOLD := hold
        rw [hold'] at late
        exact Bool.false_ne_true (((congrArg (· && wdOut s) (show watched mHOLD = false from rfl)).trans
          (Bool.false_and _)).symm.trans late)
      exact (waiting_of_tables (changeMode_tables (cancelled ▸ noRebind_nil) 4 active (by decide))).trans cancelled
    · split
      · next run =>
        exact (waiting_of_tables (changeMode_tables idle 2 (by rw [run.1]; decide) (by decide))).trans none'
      · split
        · next degraded =>
          exact (waiting_of_tables (changeMode_tables idle 3 (by rw [degraded.1]; decide) (by decide))).trans none'
        · exact none'
  rw [dueModes_of_nil waits]

/-! ### A waiting SET_MODE whose watchdog runs out -/

/-- The watchdog enters HOLD, and the waiting SET_MODE ends ABORTED. -/
theorem boundaryModes_of_late {s : State} (runs : fwRuns s = true) (fresh : s.fw.restarted = false)
    (late : (watched s.sys.mode && wdOut s) = true) {m : Nat} {h crc : Word} {t : BitVec 4} {a : Dword} {x : Bool}
    (waits : s.fw.waiting = [(m, .setMode h crc t a x)]) (asks : classQ h = false) {b : Nat} (due : a.toNat < b) :
    (boundaryModes s b).sys.mode = mHOLD ∧ (boundaryModes s b).fw.waiting = [] ∧
      (windowOf (boundaryModes s b) m).getLast? = some { header := h, crc := crc, reply := replyWords h stABORTED [] } := by
  have held : autoMode s = changeMode (cancelSetMode s) mHOLD 4 := if_pos late
  have cancelled : (cancelSetMode s).fw.waiting = [(m, .setMode h crc t a true)] :=
    congrArg (List.map _) waits
  have active : (cancelSetMode s).sys.mode ≠ mHOLD := by
    intro hold
    have hold' : s.sys.mode = mHOLD := hold
    rw [hold'] at late
    exact Bool.false_ne_true late
  obtain ⟨v, isV⟩ : ∃ v, changeMode (cancelSetMode s) mHOLD 4 = v := ⟨_, rfl⟩
  have waitsV : v.fw.waiting = [(m, .setMode h crc t a true)] := by
    rw [← isV]
    exact (waiting_of_tables (changeMode_tables (by rw [cancelled]; exact noRebind_setMode _ _ _ _ _ _) 4 active (by decide))).trans cancelled
  have modeV : v.sys.mode = mHOLD := by rw [← isV, sys_changeMode]
  have ended : dueModes v b = caused (endWaiting (causes v m) m h crc stABORTED []) := by
    unfold dueModes
    rw [waitsV]
    exact if_pos due
  rw [boundaryModes_of_running runs fresh, held, isV, ended]
  obtain ⟨none', kept⟩ := endWaiting_of_last (s := causes v m) waitsV (st := stABORTED) (w := []) asks (by decide)
  refine ⟨?_, (caused_waiting _).trans none', ?_⟩
  · rw [(caused_follows _).sys (by decide), (endWaiting_follows ..).sys (by decide)]
    exact modeV
  · unfold windowOf
    rw [caused_windows]
    exact kept

/-! ### The steps of a boundary after its modes -/

/-- The stations, the rebindings and the beams, the outputs, and the lanes. -/
def boundaryEnds (s : State) (b : Nat) : State :=
  let s := (stationIds s).foldl (boundaryStation b) s
  let s := startBeams (boundaryRebinds s b) b
  let s := (stationIds s).foldl (fun s k => formOutput s (cycleNo s) k) s
  (List.range 8).foldl boundaryLane s

theorem cycleBoundary_eq (s : State) : cycleBoundary s =
    boundaryEnds (boundaryModes (beginCycle s (nextBoundary s)) (nextBoundary s)) (nextBoundary s) := rfl

/-- The parts that the stations, the outputs and the lanes change at a boundary. -/
abbrev boundaryParts : List Part := [.out, .basin, .staging, .intc, .pcie, .fw, .tp, .tl]

theorem boundaryStations_follows (s : State) (b : Nat) :
    Follows boundaryParts s ((stationIds s).foldl (boundaryStation b) s) :=
  Follows.foldl (.refl _ s) fun u k => (boundaryStation_follows b u k).mono (by decide)

theorem boundaryOutputs_follows (s : State) :
    Follows boundaryParts s ((stationIds s).foldl (fun s k => formOutput s (cycleNo s) k) s) :=
  Follows.foldl (.refl _ s) fun u k => (formOutput_follows u (cycleNo u) k).mono (by decide)

theorem boundaryLanes_follows (s : State) : Follows boundaryParts s ((List.range 8).foldl boundaryLane s) :=
  Follows.foldl (.refl _ s) fun u k => (boundaryLane_follows u k).mono (by decide)

theorem boundaryBeams_follows (s : State) (b : Nat) :
    Follows boundaryParts s (startBeams (boundaryRebinds s b) b) :=
  ((boundaryRebinds_follows s b).mono (by decide)).trans ((startBeams_follows ..).mono (by decide))

theorem boundaryEnds_follows (s : State) (b : Nat) : Follows boundaryParts s (boundaryEnds s b) := by
  unfold boundaryEnds
  dsimp only
  refine .trans ?_ (boundaryLanes_follows _)
  refine .trans ?_ (boundaryOutputs_follows _)
  exact (boundaryStations_follows s b).trans (boundaryBeams_follows ..)

theorem beginCycle_kept (s : State) (b : Nat) :
    Unmoved s (beginCycle s b) ∧ (beginCycle s b).tick = (atTick s b).tick ∧ (beginCycle s b).out = s.out ∧
      (beginCycle s b).islands = s.islands ∧ (beginCycle s b).sys = s.sys ∧ (beginCycle s b).fw = s.fw := by
  have tl := (atTick_follows s b).tl (by decide)
  have tp := (atTick_follows s b).tp (by decide)
  have lanes : (beginCycle s b).tl.lanes = s.tl.lanes :=
    Eq.trans (show _ = (atTick s b).tl.lanes from rfl) (congrArg Towline.lanes tl)
  exact ⟨.of_tables (congrArg Towpath.scenes tp) lanes, rfl, (atTick_follows s b).out (by decide),
    (atTick_follows s b).islands (by decide), (atTick_follows s b).sys (by decide), (atTick_follows s b).fw (by decide)⟩

theorem cyc_beginCycle (s : State) (b : Nat) : (beginCycle s b).tl.cyc = { s.tl.cyc with
    begun := true, number := if s.tl.cyc.begun then s.tl.cyc.number + 1 else s.tl.cyc.number,
    tick := BitVec.ofNat 64 b,
    period := ((s.tl.cyc.nextPeriod.filter (fun p => p.1.toNat < b)).map (·.2)).getD s.tl.cyc.period,
    nextPeriod := if (s.tl.cyc.nextPeriod.filter (fun p => p.1.toNat < b)).isSome then none else s.tl.cyc.nextPeriod,
    cutDone := false } := by
  rw [← (atTick_follows s b).tl (by decide)]
  rfl

/-! ### The beams of a boundary (R57) -/

/-- The scene as a boundary at tick `b` starts it. -/
def Scene.begun (b : Nat) (c : Scene) : Scene :=
  if c.start.isNone && decide (c.madeAt.toNat < b) then { c with start := some (BitVec.ofNat 64 b) } else c

theorem sceneOf_startBeams (s : State) (b i : Nat) : sceneOf (startBeams s b) i = (sceneOf s i).map (Scene.begun b) :=
  Tab.find?_map_values (Scene.begun b) s.tp.scenes i

theorem birth_begun (b : Nat) (c : Scene) : (c.begun b).birth =
    if c.birth.1.isNone ∧ c.birth.2.toNat < b then (some (BitVec.ofNat 64 b), c.birth.2) else c.birth := by
  show _ = if c.start.isNone ∧ c.madeAt.toNat < b then _ else _
  unfold Scene.begun
  simp only [Bool.and_eq_true, decide_eq_true_eq]
  split <;> rfl

theorem birth_begun_of_birth {b : Nat} {c d : Scene} (h : c.birth = d.birth) : (c.begun b).birth = (d.begun b).birth := by
  rw [birth_begun, birth_begun, h]

theorem begun_births {b : Nat} {x y : Option Scene} (h : y.map Scene.birth = x.map Scene.birth) :
    (y.map (Scene.begun b)).map Scene.birth = (x.map (Scene.begun b)).map Scene.birth := by
  cases x <;> cases y
  case none.none => rfl
  case none.some => exact absurd h (by simp)
  case some.none => exact absurd h (by simp)
  case some.some => exact congrArg some (birth_begun_of_birth (Option.some.inj h))

theorem sceneOf_boundaryEnds (s : State) (b i : Nat) :
    (sceneOf (boundaryEnds s b) i).map Scene.birth = ((sceneOf s i).map (Scene.begun b)).map Scene.birth := by
  have first : Unmoved s (boundaryRebinds ((stationIds s).foldl (boundaryStation b) s) b) :=
    .after (unmoved_boundaryRebinds ..) (.foldl (unmoved_boundaryStation b) _ _)
  obtain ⟨u, isU⟩ : ∃ u, boundaryRebinds ((stationIds s).foldl (boundaryStation b) s) b = u := ⟨_, rfl⟩
  have last : Unmoved (startBeams u b) (boundaryEnds s b) := by
    unfold boundaryEnds
    dsimp only
    rw [isU]
    exact .after (.foldl unmoved_boundaryLane _ _) (.foldl (fun v k => unmoved_formOutput v (cycleNo v) k) _ _)
  rw [last.scenes, sceneOf_startBeams]
  exact begun_births ((isU ▸ first).scenes i)

/-! ### The CYCLE frames of a boundary (R495) -/

/-- A state on the way through a boundary that began at `s`. -/
structure OnBoundary (s u : State) : Prop where
  lanes : ∀ l, (laneOf u l).link = (laneOf s l).link
  islands : u.islands = s.islands
  cyc : u.tl.cyc = s.tl.cyc
  trace : s.out <+: u.out

theorem OnBoundary.step {s u v : State} (h : OnBoundary s u) (lanes : ∀ l, (laneOf v l).link = (laneOf u l).link)
    (ends : Follows boundaryParts u v) : OnBoundary s v :=
  ⟨fun l => (lanes l).trans (h.lanes l), (ends.islands (by decide)).trans h.islands,
    (ends.cyc (by decide)).trans h.cyc, h.trace.trans ends.trace⟩

theorem laneSends_of_link {s u : State} {l : Nat} (link : (laneOf u l).link = (laneOf s l).link)
    (islands : u.islands = s.islands) : laneSends u l = laneSends s l := by
  simp only [Lane.link, Prod.mk.injEq] at link
  obtain ⟨enable, test, code, -⟩ := link
  have runs : laneRuns u l = laneRuns s l := congrFun (running_of_islands islands) _
  unfold laneSends
  dsimp only
  rw [runs, enable, test, code]

/-- The CYCLE frame of a lane has left since `s`. -/
def CycleSent (s u : State) (l : Nat) : Prop :=
  ∃ wire, Out.frame { cycleFrame s l with session := (laneOf s l).session } wire ∈ u.out.drop s.out.length

theorem CycleSent.later {s u v : State} {l : Nat} (h : CycleSent s u l) (trace : u.out <+: v.out) : CycleSent s v l := by
  obtain ⟨wire, sent⟩ := h
  exact ⟨wire, (trace.drop _).subset sent⟩

theorem out_sendFrame (s : State) (f : Frame) : ∃ wire, (sendFrame s f).out =
    s.out ++ [.frame { f with cycle := cycleNo s, session := (laneOf s f.lane).session } wire] := by
  obtain ⟨u, isU, out⟩ : ∃ u, updLane s f.lane (fun x => { x with cntTx := x.cntTx + 1 }) = u ∧ u.out = s.out :=
    ⟨_, rfl, (updLane_follows ..).out (by decide)⟩
  have session : (laneOf u f.lane).session = (laneOf s f.lane).session := by
    rw [← isU, laneOf_updLane_self]
  have number : cycleNo u = cycleNo s :=
    congrArg (·.number) (isU ▸ (updLane_follows ..).cyc (by decide))
  unfold sendFrame
  dsimp only
  rw [isU, session, number, ← out]
  exact ⟨_, rfl⟩

theorem boundaryLane_sends {s u : State} (h : OnBoundary s u) {l : Nat} (sends : laneSends s l = true) :
    CycleSent s (boundaryLane u l) l := by
  obtain ⟨v, isV⟩ : ∃ v, updLane u l (fun x => { x with configs := 0 }) = v := ⟨_, rfl⟩
  have lanes := (unmoved_updLane u l (f := fun x => { x with configs := 0 }) fun _ => rfl).lanes
  have follows := updLane_follows u l (fun x => { x with configs := 0 })
  rw [isV] at lanes follows
  have here : OnBoundary s v := h.step lanes (follows.mono (by decide))
  have sent : CycleSent s (sendFrame v (cycleFrame v l)) l := by
    have session : (laneOf v l).session = (laneOf s l).session := congrArg (·.2.2.2) (here.lanes l)
    have frame : cycleFrame v l = cycleFrame s l := by
      unfold cycleFrame cycleNo
      rw [here.cyc]
    have number : cycleNo v = cycleNo s := congrArg (·.number) here.cyc
    obtain ⟨wire, out⟩ := out_sendFrame v (cycleFrame v l)
    rw [show (cycleFrame v l).lane = l from rfl, session, frame, number] at out
    refine ⟨wire, ?_⟩
    rw [frame, out, List.drop_append_of_le_length here.trace.length_le]
    exact List.mem_append_right _ (List.mem_singleton.mpr rfl)
  unfold boundaryLane
  dsimp only
  rw [isV, if_pos ((laneSends_of_link (here.lanes l) here.islands).trans sends)]
  split
  · exact sent.later ((queueConfigs_follows ..).trace.trans (queueAudio_follows ..).trace)
  · exact sent

theorem boundaryLane_onBoundary {s u : State} (h : OnBoundary s u) (k : Nat) : OnBoundary s (boundaryLane u k) :=
  h.step (unmoved_boundaryLane u k).lanes ((boundaryLane_follows u k).mono (by decide))

theorem boundaryLanes_send {s u : State} (h : OnBoundary s u) {l : Nat} (inside : l < 8) (sends : laneSends s l = true) :
    CycleSent s ((List.range 8).foldl boundaryLane u) l :=
  foldl_of_mem (before := OnBoundary s) (after := fun v => CycleSent s v l) (fun _ k _ here => boundaryLane_onBoundary here k)
    (fun _ here => boundaryLane_sends here sends) (fun v k sent => sent.later (boundaryLane_follows v k).trace)
    (List.mem_range.mpr inside) h

theorem boundaryEnds_send {s u : State} (h : OnBoundary s u) (b : Nat) {l : Nat} (inside : l < 8)
    (sends : laneSends s l = true) : CycleSent s (boundaryEnds u b) l := by
  unfold boundaryEnds
  dsimp only
  refine boundaryLanes_send ?_ inside sends
  refine .step ?_ (Unmoved.foldl (fun v k => unmoved_formOutput v (cycleNo v) k) _ _).lanes (boundaryOutputs_follows _)
  refine .step ?_ (fun l => ?_) (boundaryBeams_follows ..)
  · exact h.step (Unmoved.foldl (unmoved_boundaryStation b) _ _).lanes (boundaryStations_follows ..)
  · exact (unmoved_boundaryRebinds ..).lanes l

/-! ### The waiting commands past a boundary's modes -/

theorem readOut_tables (s : State) (i len : Nat) : (readOut s i len).1.fw.tables = s.fw.tables := by
  unfold readOut
  have first := readReq_tables s 14 (recordOf i + 0x10) 4
  generalize readReq s 14 (recordOf i + 0x10) 4 = r at first
  obtain ⟨u, c⟩ := r
  cases c
  case error => exact first
  case ok =>
    dsimp only
    have second := readReq_tables u 14 (recordOf i + 0xC0) len
    generalize readReq u 14 (recordOf i + 0xC0) len = r at second
    obtain ⟨v, c⟩ := r
    cases c <;> exact second.trans first

theorem updStation_tables (s : State) (i : Nat) (f : Station → Station) : (updStation s i f).fw.tables = s.fw.tables :=
  congrArg Fw.tables ((updStation_follows ..).fw (by decide))

theorem queueFrame_tables (s : State) (t : Station) (type : Nat) (payload : List Byte) :
    (queueFrame s t type payload).fw.tables = s.fw.tables :=
  congrArg Fw.tables ((queueFrame_follows ..).fw (by decide))

theorem tables_ite {s t u : State} (c : Prop) [Decidable c] (yes : t.fw.tables = s.fw.tables)
    (no : u.fw.tables = s.fw.tables) : (if c then t else u).fw.tables = s.fw.tables := by
  split
  · exact yes
  · exact no

theorem formOutput_tables (s : State) (m : Word) (i : Nat) : (formOutput s m i).fw.tables = s.fw.tables := by
  unfold formOutput
  split
  · rfl
  next t _ =>
    split
    · rfl
    have read := readOut_tables s i t.outLen
    generalize readOut s i t.outLen = r at read
    obtain ⟨u, commit, img, bad⟩ := r
    dsimp only at read ⊢
    split
    · rw [writeOutStatus_tables, queueFrame_tables, updStation_tables, (updLane_follows ..).fw (by decide),
        updStation_tables, read]
    · split
      · rw [updStation_tables, read]
      · refine tables_ite _ ?_ ?_
        · rw [updStation_tables, read]
        · rw [queueFrame_tables, updStation_tables, updStation_tables, read]

theorem boundaryRebinds_of_nil {s : State} (none' : s.fw.waiting = []) (b : Nat) : boundaryRebinds s b = s := by
  unfold boundaryRebinds
  rw [none']
  exact ite_self _

theorem boundaryEnds_tables {s : State} (none' : s.fw.waiting = []) (b : Nat) :
    (boundaryEnds s b).fw.tables = s.fw.tables := by
  have stations : ((stationIds s).foldl (boundaryStation b) s).fw = s.fw :=
    (Follows.foldl (l := [.tp, .tl]) (.refl _ s) fun u k => boundaryStation_follows b u k).fw (by decide)
  have lanes (u : State) : ((List.range 8).foldl boundaryLane u).fw = u.fw :=
    (Follows.foldl (l := [.out, .tl]) (.refl _ u) fun v k => boundaryLane_follows v k).fw (by decide)
  have outputs (u : State) : ((stationIds u).foldl (fun s k => formOutput s (cycleNo s) k) u).fw.tables = u.fw.tables :=
    tables_foldl (fun v k h => (formOutput_tables v _ k).trans h) _
  unfold boundaryEnds
  dsimp only
  rw [lanes, outputs, (startBeams_follows ..).fw (by decide), boundaryRebinds_of_nil (by rw [stations]; exact none'), stations]

/-! ### The obligation -/

theorem autoMode_sys_of_late {s : State} (late : (watched s.sys.mode && wdOut s) = true) :
    (autoMode s).sys = { s.sys with
      mode := mHOLD, prevMode := s.sys.mode, cause := 4, changeCount := s.sys.changeCount + 1 } := by
  unfold autoMode
  rw [if_pos late, sys_changeMode]
  rfl

theorem watched_eq (m : BitVec 4) : watched m = decide (m = 3 ∨ m = 4 ∨ m = 5) := by
  unfold watched
  simp only [Bool.decide_or, Bool.or_assoc]
  rfl

/-- The mode that a boundary enters by itself, and the cause it records (R57 to R64). -/
theorem autoMode_sys {s : State} {to' cause : BitVec 4}
    (goal : to' = if watched s.sys.mode && wdOut s then 7
      else if s.sys.mode = 3 ∧ anyFenced s = true then 4
      else if s.sys.mode = 4 ∧ anyFenced s = false then 3 else s.sys.mode)
    (why : cause = if watched s.sys.mode && wdOut s then 4 else if s.sys.mode = 3 then 2 else 3) :
    (autoMode s).sys = if to' = s.sys.mode then s.sys else { s.sys with
      mode := to', prevMode := s.sys.mode, cause := cause, changeCount := s.sys.changeCount + 1 } := by
  by_cases late : (watched s.sys.mode && wdOut s) = true
  · rw [if_pos late] at goal why
    have other : to' ≠ s.sys.mode := by
      intro same
      have hold : s.sys.mode = 7 := same.symm.trans goal
      rw [hold] at late
      exact Bool.false_ne_true late
    rw [if_neg other, autoMode_sys_of_late late, goal, why]
    rfl
  rw [if_neg late] at goal why
  unfold autoMode
  rw [if_neg late]
  by_cases falls : s.sys.mode = mRUN ∧ anyFenced s = true
  · rw [if_pos (show s.sys.mode = 3 ∧ anyFenced s = true from falls)] at goal
    rw [if_pos falls]
    have run : s.sys.mode = 3 := falls.1
    rw [if_pos run] at why
    rw [sys_changeMode, goal, why, if_neg (by rw [run]; decide)]
    rfl
  rw [if_neg (show ¬(s.sys.mode = 3 ∧ anyFenced s = true) from falls)] at goal
  rw [if_neg falls]
  by_cases rises : s.sys.mode = mDEGRADED ∧ anyFenced s = false
  · rw [if_pos (show s.sys.mode = 4 ∧ anyFenced s = false from rises)] at goal
    rw [if_pos rises]
    have degraded : s.sys.mode = 4 := rises.1
    rw [if_neg (by rw [degraded]; decide)] at why
    rw [sys_changeMode, goal, why, if_neg (by rw [degraded]; decide)]
    rfl
  · rw [if_neg (show ¬(s.sys.mode = 4 ∧ anyFenced s = false) from rises)] at goal
    rw [if_neg rises]
    rw [if_pos goal]

/-- A boundary with a mode that runs the cycle. -/
theorem exec_cycleBoundary {s : State} (awake : (!s.sys.inReset && decide (2 ≤ s.sys.mode.toNat)) = true) :
    exec .cycleBoundary s = .next (cycleBoundary s) := by
  have runs : (s.sys.inReset || !cyclic s.sys.mode) = false := by
    rw [Bool.and_eq_true, Bool.not_eq_true', decide_eq_true_eq] at awake
    obtain ⟨up, cyc⟩ := awake
    have notBoot : s.sys.mode ≠ mBOOT := by
      intro e
      rw [e] at cyc
      exact absurd cyc (by decide)
    have notRecover : s.sys.mode ≠ mRECOVER := by
      intro e
      rw [e] at cyc
      exact absurd cyc (by decide)
    rw [up, cyclic, decide_eq_true notBoot, decide_eq_true notRecover]
    rfl
  exact congrArg Host.Outcome.next (if_neg (by rw [runs]; exact Bool.false_ne_true))

/-- Settles O43: the boundary's steps change neither the cycle nor the modes, nor when a beam started but for
the beams that wait for it; the last of them sends the CYCLE frame of each lane. -/
theorem aCycleBoundaryBeginsTheNextCycle : Obligations.ACycleBoundaryBeginsTheNextCycle := by
  intro s c b at' num due period m awake guarded late
  obtain ⟨begun, tick, out, islands, sys, fw⟩ := beginCycle_kept s b
  obtain ⟨u, isU⟩ : ∃ u, beginCycle s b = u := ⟨_, rfl⟩
  have cycU : u.tl.cyc = { c with
      begun := true, number := num, tick := at', period := period,
      nextPeriod := if due.isSome then none else c.nextPeriod, cutDone := false } := by
    rw [← isU]
    exact cyc_beginCycle s b
  rw [isU] at begun tick out islands sys fw
  have whole : cycleBoundary s = boundaryEnds (boundaryModes u b) b := by rw [← isU]; rfl
  have pins : u.pins = s.pins := isU ▸ (beginCycle_follows s b).pins (by decide)
  have modes := boundaryModes_follows u b
  have ends := boundaryEnds_follows (boundaryModes u b) b
  have runsU : fwRuns u = fwRuns s := by unfold fwRuns; rw [running_of_islands islands, sys]
  have wdU : wdOut u = wdOut (atTick s b) := by
    unfold wdOut ticksSince
    rw [fw, tick, (atTick_follows s b).fw (by decide)]
  have here : OnBoundary u (boundaryModes u b) := ⟨fun l => (unmoved_boundaryModes u b).lanes l,
    modes.islands (by decide), modes.cyc (by decide), modes.trace⟩
  refine ⟨?boot, ?reset, ?boundary, ?unwatched, ?expiry, ?aborts⟩
  case boot =>
    intro k low mode
    have still : cyclic s.sys.mode = false := by
      rw [← mode]
      rcases low with rfl | rfl <;> rfl
    exact congrArg Host.Outcome.next (if_pos (by rw [still, Bool.not_false, Bool.or_true]))
  case reset =>
    intro held
    exact congrArg Host.Outcome.next (if_pos (by rw [held]; rfl))
  case unwatched =>
    intro off
    refine congrArg Host.Outcome.next (if_pos ?_)
    rcases off with stopped | zero
    · rw [stopped]; rfl
    · rw [decide_eq_true zero, Bool.or_true]
  case expiry =>
    intro runs watch
    refine congrArg Host.Outcome.next (if_neg ?_)
    rw [runs, decide_eq_false watch]
    exact Bool.false_ne_true
  case aborts =>
    intro up runs fresh guard out' mb h w g a x waits early asks
    have lateU : (watched u.sys.mode && wdOut u) = true := by
      rw [wdU, sys, watched_eq, out', Bool.and_true]
      exact guard
    obtain ⟨mode, none', kept⟩ := boundaryModes_of_late (b := b) (runsU.trans runs) (fw ▸ fresh) lateU (fw ▸ waits) asks early
    have tables := boundaryEnds_tables none' b
    refine ⟨_, exec_cycleBoundary up, ?_⟩
    rw [whole, ends.sys (by decide), waiting_of_tables tables, windowOf_of_tables tables]
    exact ⟨mode, none', kept⟩
  case boundary =>
    intro up
    refine ⟨_, exec_cycleBoundary up, ?_⟩
    rw [whole]
    refine ⟨?_, ?_, fun l sends => ?_, fun i x found => ?_, fun stopped => ?_, fun runs fresh none' to' cause goal why => ?_⟩
    · rw [ends.tick (by decide), modes.tick (by decide), tick]
    · rw [ends.cyc (by decide), modes.cyc (by decide), cycU]
    · have sent := boundaryEnds_send here b l.isLt
        ((laneSends_of_link (begun.lanes l) islands).trans sends)
      have session : (laneOf u l).session = (laneOf s l).session := congrArg (·.2.2.2) (begun.lanes l)
      unfold CycleSent cycleFrame cycleNo at sent
      rw [cycU, session, out] at sent
      exact sent
    · have births := (sceneOf_boundaryEnds (boundaryModes u b) b i).trans
        (begun_births ((begun.trans (unmoved_boundaryModes u b)).scenes i))
      rw [found] at births
      obtain ⟨y, yes, same⟩ : ∃ y, sceneOf (boundaryEnds (boundaryModes u b) b) i = some y ∧ y.birth = (x.begun b).birth := by
        simpa using births
      refine ⟨y, yes, (congrArg Prod.fst same).trans ?_⟩
      rw [birth_begun]
      exact apply_ite Prod.fst _ _ _
    · rw [ends.sys (by decide), show boundaryModes u b = u from if_pos (by rw [runsU, stopped]; rfl), sys]
    · rw [ends.sys (by decide), sys_boundaryModes_of_idle (runsU.trans runs) (fw ▸ fresh) (fw ▸ none')]
      have fences : anyFenced u = anyFenced s := by
        unfold anyFenced
        rw [running_of_islands islands, pins]
      rw [autoMode_sys (s := u) (to' := to') (cause := cause), sys]
      · rw [wdU, sys, watched_eq, fences]
        exact goal
      · rw [wdU, sys, watched_eq]
        exact why

end Sys2Proof.Machine
end

section
/-! PROOFS. The beam (chapter 07): what the steps of a frame and of a line leave of the scenes. -/
open Sys2Proof

namespace Sys2Proof.Machine

/-! ### Scenes alike under a view -/

/-- Every scene is the same as before under a view of it. -/
structure ScenesAs {α : Type} (g : Scene → α) (s t : State) : Prop where
  alike : ∀ i, (sceneOf t i).map g = (sceneOf s i).map g

namespace ScenesAs
variable {α β : Type} {g : Scene → α} {s t u : State}

theorem refl (s : State) : ScenesAs g s s := ⟨fun _ => rfl⟩

theorem trans (h : ScenesAs g s t) (k : ScenesAs g t u) : ScenesAs g s u := ⟨fun i => (k.alike i).trans (h.alike i)⟩

/-- The last step first, which names the state before it. -/
theorem after (k : ScenesAs g t u) (h : ScenesAs g s t) : ScenesAs g s u := h.trans k

theorem of_scenes (scenes : t.tp.scenes = s.tp.scenes) : ScenesAs g s t :=
  ⟨fun i => by rw [sceneOf, scenes, sceneOf]⟩

theorem of_tp (tp : t.tp = s.tp) : ScenesAs g s t := of_scenes (congrArg Towpath.scenes tp)

theorem ite {c : Prop} [Decidable c] (yes : ScenesAs g s t) (no : ScenesAs g s u) : ScenesAs g s (if c then t else u) := by
  split
  · exact yes
  · exact no

theorem foldl {γ : Type} {f : State → γ → State} (step : ∀ s x, ScenesAs g s (f s x)) (l : List γ) (s : State) :
    ScenesAs g s (l.foldl f s) :=
  List.foldlRecOn (motive := ScenesAs g s) l f (refl s) fun u h x _ => h.trans (step u x)

/-- A view of a view. -/
theorem mono (h : ScenesAs g s t) (f : α → β) : ScenesAs (fun c => f (g c)) s t := ⟨fun i => by
  have under := congrArg (Option.map f) (h.alike i)
  simp only [Option.map_map] at under
  exact under⟩

theorem some {i : Nat} {c : Scene} (h : ScenesAs g s t) (found : sceneOf s i = .some c) :
    ∃ d, sceneOf t i = .some d ∧ g d = g c := by
  have here := h.alike i
  rw [found] at here
  simpa using here

end ScenesAs

theorem scenesAs_updScene {α : Type} {g : Scene → α} (s : State) (i : Nat) {f : Scene → Scene} (keeps : ∀ c, g (f c) = g c) :
    ScenesAs g s (updScene s i f) := by
  unfold updScene
  split
  · exact .refl s
  · next c found =>
    refine ⟨fun k => ?_⟩
    by_cases own : k = i
    · subst own
      rw [show sceneOf (setScene s k (f c)) k = some (f c) from Tab.find?_put_self .., found]
      exact congrArg some (keeps c)
    · rw [show sceneOf (setScene s i (f c)) k = sceneOf s k from Tab.find?_put_of_ne _ _ own]

theorem sceneOf_updScene_self {s : State} {i : Nat} {c : Scene} (found : sceneOf s i = some c) (f : Scene → Scene) :
    sceneOf (updScene s i f) i = some (f c) := by
  rw [updScene_of_some f found]
  exact Tab.find?_put_self ..

theorem sceneOf_updScene_of_ne {s : State} {i k : Nat} (other : k ≠ i) (f : Scene → Scene) :
    sceneOf (updScene s i f) k = sceneOf s k := by
  unfold updScene
  split
  · rfl
  · exact Tab.find?_put_of_ne _ _ other

/-- A scene without what its regions, its pushes and its line store hold. -/
def Scene.bare (c : Scene) : Scene := { c with
  rowLines := [], sig := [], changed := 0, staged := [], psRegions := 0, psTruncated := false, psDeferred := false,
  psEcc := false, psFrame := 0, cntChanged := 0, cntStaged := 0, luts := [], ltStop := none }

abbrev BeamKept : State → State → Prop := ScenesAs Scene.bare

theorem BeamKept.upd (s : State) (i : Nat) {f : Scene → Scene} (keeps : ∀ c, (f c).bare = c.bare) :
    BeamKept s (updScene s i f) := scenesAs_updScene s i keeps

/-! ### Receivers and regions (chapter 10) -/

theorem scenes_updRecv (s : State) (r : Nat) (f : Recv → Recv) : (updRecv s r f).tp.scenes = s.tp.scenes := by
  unfold updRecv
  split <;> rfl

theorem beamKept_updRecv (s : State) (r : Nat) (f : Recv → Recv) : BeamKept s (updRecv s r f) :=
  .of_scenes (scenes_updRecv ..)

theorem beamKept_onTp (s : State) {f : Towpath → Towpath} (keeps : ∀ x, (f x).scenes = x.scenes) :
    BeamKept s (onTp s f) := .of_scenes (keeps s.tp)

theorem beamKept_setStation (s : State) (k : Nat) (t : Station) : BeamKept s (setStation s k t) := .of_scenes rfl

theorem beamKept_owePiece (s : State) (r : Nat) (p : Piece) : BeamKept s (owePiece s r p) := by
  unfold owePiece
  split
  · exact .refl s
  · exact beamKept_updRecv ..

theorem beamKept_oweAll (s : State) (r : Nat) : BeamKept s (oweAll s r) := by
  unfold oweAll
  split
  · exact .refl s
  · exact beamKept_updRecv ..

theorem beamKept_oweBits (s : State) (r : Nat) (m : BitVec 3072) : BeamKept s (oweBits s r m) :=
  .ite (.refl s) (beamKept_updRecv ..)

theorem beamKept_cancelUnsent (s : State) (r : Nat) (owe : Bool) : BeamKept s (cancelUnsent s r owe) := by
  unfold cancelUnsent
  dsimp only
  exact .ite (.after (.foldl (fun u p => beamKept_owePiece u r p) ..) (beamKept_updRecv ..)) (beamKept_updRecv ..)

theorem beamKept_freeRows (s : State) (i n : Nat) : BeamKept s (freeRows s i n) :=
  BeamKept.upd _ _ fun _ => rfl

theorem beamKept_freeAll (s : State) : BeamKept s (freeAll s) := by
  unfold freeAll
  refine .foldl (fun u p => ?_) _ _
  exact .ite (.ite (beamKept_freeRows ..) (.refl u)) (beamKept_freeRows ..)

theorem beamKept_givePieces (s : State) (i n r : Nat) (rowOk : Nat → Bool) (list : List Rect) :
    BeamKept s (givePieces s i n r rowOk list) := by
  unfold givePieces
  split
  · exact .refl s
  · refine .ite (beamKept_oweBits ..) ?_
    exact .ite (.after (beamKept_onTp _ fun _ => rfl) (beamKept_updRecv ..)) (beamKept_updRecv ..)

theorem beamKept_signOne (s : State) (i row : Nat) (lines : List (List Word)) (col : Nat) :
    BeamKept s (signOne s i row lines col) := by
  unfold signOne
  split
  · exact .refl s
  next c _ =>
    have read : BeamKept s (readReq s 12 (c.sigWord col row) 4).1 := .of_tp ((readReq_follows ..).tp (by decide))
    dsimp only
    generalize readReq s 12 (c.sigWord col row) 4 = r at read
    obtain ⟨u, v⟩ := r
    dsimp only at read ⊢
    refine .ite read ?_
    obtain ⟨w, isW, changed⟩ : ∃ w, updScene u i (fun c => { c with
        changed := setBit c.changed (patchBit col row) true, cntChanged := satAdd c.cntChanged 1 }) = w ∧
        BeamKept u w := ⟨_, rfl, BeamKept.upd _ _ fun _ => rfl⟩
    rw [isW]
    split
    · next written => exact (read.trans changed).trans (.of_tp
        ((congrArg (·.1.tp) written).symm.trans ((writeSig_follows ..).tp (by decide))))
    · next written => exact .after (BeamKept.upd _ _ fun _ => rfl) ((read.trans changed).trans (.of_tp
        ((congrArg (·.1.tp) written).symm.trans ((writeSig_follows ..).tp (by decide)))))

theorem beamKept_closeRow (s : State) (i n row : Nat) : BeamKept s (closeRow s i n row) := by
  unfold closeRow
  split
  · exact .refl s
  next c _ =>
  split
  · exact .refl s
  next lines _ =>
    obtain ⟨u, isU, signed⟩ : ∃ u, (List.range c.cols).foldl (fun s k => signOne s i row lines k) s = u ∧
        BeamKept s u := ⟨_, rfl, .foldl (fun v k => beamKept_signOne v i row lines k) ..⟩
    dsimp only
    rw [isU]
    split
    · exact signed
    refine .ite signed ?_
    have deferred (v : State) (l : List Nat) (m : Nat → State → BitVec 3072) : BeamKept v (updScene (onTp
        (l.foldl (fun s r => oweBits s r (m r s)) v) (fun t => { t with pushDeferred := satAdd t.pushDeferred 1 }))
        i (fun c => { c with psDeferred := true })) :=
      .after (BeamKept.upd _ _ fun _ => rfl) (.after (beamKept_onTp _ fun _ => rfl) (.foldl (fun w r => beamKept_oweBits ..) ..))
    split
    · exact .after (deferred ..) signed
    split
    · next written => exact .after (deferred ..) (signed.trans (.of_tp
        ((congrArg (·.1.tp) written).symm.trans ((writeMem_follows ..).tp (by decide)))))
    · next written => exact .after (BeamKept.upd _ _ fun _ => rfl) (signed.trans (.of_tp
        ((congrArg (·.1.tp) written).symm.trans ((writeMem_follows ..).tp (by decide)))))

theorem beamKept_formList (s : State) (i n : Nat) : BeamKept s (formList s i n) := by
  unfold formList
  dsimp only
  obtain ⟨u, isU, cancelled⟩ : ∃ u, (receivers s i).foldl (fun s r => cancelUnsent s r true) s = u ∧ BeamKept s u :=
    ⟨_, rfl, .foldl (fun v r => beamKept_cancelUnsent v r true) ..⟩
  rw [isU]
  split
  · exact cancelled
  · exact .after (beamKept_freeRows ..) (.after (BeamKept.upd _ _ fun _ => rfl) (.after
      (.foldl (fun v r => beamKept_givePieces ..) ..) (.after (BeamKept.upd _ _ fun _ => rfl)
        (.after (.foldl (fun v r => beamKept_oweBits ..) ..) cancelled))))

/-! ### The panel -/

theorem beamKept_panelSend (s : State) (l : List (Byte × List Byte)) : BeamKept s (panelSend s l) :=
  .of_scenes rfl

theorem beamKept_dropPiece (s : State) (r : Nat) (p : Piece) : BeamKept s (dropPiece s r p) :=
  .after (beamKept_freeAll _) (.after (BeamKept.upd _ _ fun _ => rfl)
    (.after (beamKept_owePiece ..) (beamKept_updRecv ..)))

theorem beamKept_panelKickFuel (fuel : Nat) (s : State) : BeamKept s (panelKickFuel fuel s) := by
  induction fuel generalizing s with
  | zero => exact .refl s
  | succ fuel ih =>
    unfold panelKickFuel
    dsimp only
    refine .ite (.refl s) ?_
    split
    · exact .ite (.refl s) (.after (beamKept_panelSend ..) (beamKept_onTp _ fun _ => rfl))
    refine .ite (.refl s) ?_
    split
    · exact .refl s
    next q _ =>
      have read : BeamKept s (pieceLines q.scene q q.h s q.y).1 := .of_tp ((pieceLines_follows ..).tp (by decide))
      generalize pieceLines q.scene q q.h s q.y = r at read
      obtain ⟨u, pix⟩ := r
      cases pix
      case none => exact .after (ih _) (.after (beamKept_dropPiece ..) read)
      case some => exact .after (beamKept_freeAll _) (.after (beamKept_panelSend ..) (.after (beamKept_updRecv ..) read))

theorem beamKept_panelKick (s : State) : BeamKept s (panelKick s) := beamKept_panelKickFuel ..

/-! ### Events -/

theorem tp_evqLevel (s : State) (n : Nat) : (evqLevel s n).tp = s.tp := rfl

theorem scenes_evqPush (s : State) (n t : Nat) (e : Word) : (evqPush s n t e).tp.scenes = s.tp.scenes := by
  unfold evqPush
  split
  · rfl
  · dsimp only
    rw [tp_evqLevel]
    rfl

theorem scenes_sceneEvent (s : State) (i : Nat) (c : Scene) (kind t n line comp : Nat) :
    (sceneEvent s i c kind t n line comp).tp.scenes = s.tp.scenes := by
  unfold sceneEvent
  dsimp only
  have staged (r : Rec) : (if c.evHost.getLsbD kind = true then stageBefore (recLater r) s r else s).tp = s.tp := by
    split
    · exact (stageBefore_follows ..).tp (by decide)
    · rfl
  have pushed (u : State) (e : Word) (l : List Nat) (same : u.tp = s.tp) :
      (l.foldl (fun s d => if c.dhMask.getLsbD d then evqPush s d t e else s) u).tp.scenes = s.tp.scenes :=
    List.foldlRecOn (motive := fun v : State => v.tp.scenes = s.tp.scenes) l _ (congrArg Towpath.scenes same)
      fun v h d _ => by
        split
        · exact (scenes_evqPush ..).trans h
        · exact h
  split
  · exact pushed _ _ _ (staged _)
  · exact congrArg Towpath.scenes (staged _)

theorem scenes_raiseFd (s : State) (i n t : Nat) : (raiseFd s i n t).tp.scenes = s.tp.scenes := by
  unfold raiseFd
  split
  · rfl
  · exact scenes_sceneEvent ..

/-! ### The steps of a frame and of a line -/

theorem scenes_rebindSceneDone (s : State) (k : Nat) : (rebindSceneDone s k).tp = s.tp :=
  (rebindSceneDone_follows ..).tp (by decide)

theorem beamKept_applyScene (s : State) (i n k : Nat) : BeamKept s (applyScene s i n k) := by
  unfold applyScene
  split
  · exact .refl s
  split
  · exact .refl s
  · exact .ite (.after (beamKept_freeAll _) (.after (.of_tp (scenes_rebindSceneDone ..)) (.after (beamKept_oweAll ..)
      (.after (beamKept_setStation ..) (beamKept_cancelUnsent ..))))) (.refl s)

theorem beamKept_applyLut (s : State) (i n k : Nat) : BeamKept s (applyLut s i n k) := by
  unfold applyLut
  split
  · exact .refl s
  split
  · exact .refl s
  · exact .ite (.after (beamKept_oweAll ..) (beamKept_setStation ..)) (.refl s)

/-- The start of a frame latches the changes of its scene, and nothing more of it but its staged rows. -/
theorem beamKept_frameStart (s : State) (i n : Nat) : BeamKept (latchScene s i n) (frameStart s i n) :=
  .foldl (fun u k => .after (beamKept_applyLut ..) (beamKept_applyScene u i n k)) ..

theorem beamKept_retireBanks (s : State) : BeamKept s (retireBanks s) :=
  .foldl (fun u b => .of_scenes (by unfold retireBank; dsimp only; split <;> rfl)) ..

/-- A scene as `bare`, without the frame whose FD waits. -/
def Scene.core (c : Scene) : Scene := { c.bare with fdDue := none }

theorem ScenesAs.core {s t : State} (h : BeamKept s t) : ScenesAs Scene.core s t :=
  h.mono fun c => { c with fdDue := none }

theorem coreKept_endOfRow (s : State) (i n l t : Nat) : ScenesAs Scene.core s (endOfRow s i n l t) := by
  unfold endOfRow
  split
  · exact .refl s
  refine .ite (.refl s) (.ite ?_ (.refl s))
  have closed (u : State) (q : Nat) : ScenesAs Scene.core u (updScene (closeRow u i n q) i (fun c => { c with rowLines := [] })) :=
    .after (scenesAs_updScene _ _ fun _ => rfl) (beamKept_closeRow ..).core
  refine .ite (.after (beamKept_panelKick _).core ?_) (closed ..)
  refine .ite (.after (.of_scenes (scenes_raiseFd ..)) ?_) (.after (scenesAs_updScene _ _ fun _ => rfl) ?_)
  · exact .after (beamKept_formList ..).core (closed ..)
  · exact .after (beamKept_formList ..).core (closed ..)

theorem state_flag_ite (c : Prop) [Decidable c] (m : Comp) (n : Nat) : (if c then m.flag n else m).s = m.s := by
  split <;> rfl

/-- The LUTs of a frame are read at its first line. -/
def withLuts (s : State) (i : Nat) (c : Scene) (n : Nat) : State × Scene :=
  let (s, t) := readLut s (c.activeFor n)
  let s := updScene s i (fun c => { c with luts := Tab.put (c.luts.filter (fun q => n ≤ q.1 + 2)) n t })
  (s, (sceneOf s i).getD c)

theorem beamKept_withLuts (s : State) (i : Nat) (c : Scene) (n : Nat) : BeamKept s (withLuts s i c n).1 :=
  .after (BeamKept.upd _ _ fun _ => rfl) (.of_tp ((readLut_follows ..).tp (by decide)))

/-- The rendering of a line whose registers are known. -/
def drawLine (s : State) (i : Nat) (c : Scene) (p : Nat) (regs : Tab Word) (err : Bool) : State × RLine :=
  let n := p / c.total
  let l := p % c.total
  if c.height ≤ l then (s, { frame := n, line := l, regs := regs, ltErr := err })
  else
    let act := c.activeFor n
    let (s, c) := if l = 0 then withLuts s i c n else (s, c)
    let k : LineCtx := { i := i, frame := n, y := l, width := c.width, regs := regs, act := act, lut := c.lutFor n }
    let m : Comp := { s := s }
    let (m, sp) := lineSprites (if l = 0 && k.lut.isNone then m.flag 6 else m) k
    let (m, pix, a) := linePixels k sp c.width m 0 {}
    (m.s, { frame := n, line := l, pix := pix, regs := regs, lay := m.lay, ltErr := err,
            coll := a.bits, ss := a.ss, sl := a.sl })

/-- A line of a place, and a state that left the scenes as they stood but for what they hold beside the beam. -/
structure Drawn (s : State) (c : Scene) (p : Nat) (x : State × RLine) : Prop where
  kept : BeamKept s x.1
  frame : x.2.frame = p / c.total
  line : x.2.line = p % c.total

theorem Drawn.after {s u : State} {c : Scene} {p : Nat} {x : State × RLine} (h : Drawn u c p x) (k : BeamKept s u) :
    Drawn s c p x := ⟨k.trans h.kept, h.frame, h.line⟩

theorem drawLine_drawn (s : State) (i : Nat) (c : Scene) (p : Nat) (regs : Tab Word) (err : Bool) :
    Drawn s c p (drawLine s i c p regs err) := by
  unfold drawLine
  dsimp only
  split
  · exact ⟨.refl s, rfl, rfl⟩
  refine ⟨?_, rfl, rfl⟩
  refine .after (.of_tp ((linePixels_follows ..).tp (by decide))) (.after (.of_tp ((lineSprites_follows ..).tp (by decide))) ?_)
  rw [state_flag_ite]
  split
  · exact beamKept_withLuts ..
  · exact .refl s

theorem renderLine_drawn (s : State) (i : Nat) (c : Scene) (p : Nat) : Drawn s c p (renderLine s i c p) := by
  unfold renderLine
  dsimp only
  have before : (regsBefore s c p).1.tp = s.tp := (regsBefore_follows ..).tp (by decide)
  generalize regsBefore s c p = x at before
  obtain ⟨u, regs⟩ := x
  have row := (lineRegs_follows u c p regs).tp (by decide)
  dsimp only
  generalize lineRegs u c p regs = x at row
  obtain ⟨v, regs, bad, cut⟩ := x
  have here : BeamKept s v := .of_tp (row.trans before)
  cases cut
  case none => exact (drawLine_drawn v i c p regs (bad || false)).after here
  case some k => exact (drawLine_drawn (updScene v i (fun c => { c with ltStop := some (p, k) })) i c p regs
      (bad || true)).after (here.trans (BeamKept.upd v i (f := fun c => { c with ltStop := some (p, k) }) fun _ => rfl))

end Sys2Proof.Machine
end

section
/-! PROOFS. The beam (chapter 07), continued: what latches at the start of a frame, what a line's commit and the
start of blanking leave, and the obligation O34. -/
open Sys2Proof

namespace Sys2Proof.Machine

/-! ### Latching (R301, R364, R365) -/

/-- A scene without what one change can latch. -/
def Scene.still (c : Scene) : Scene := { c with
  linetab := 0, active := [], flipFrame := 0, blockDue := false, signals := [], fenceDrop := false }

section
variable (live : Word → Bool) (n : Nat)

theorem linetab_latchOne_flip (c : Scene) (m : Nat) (sh : Tab Word) (f v : Word) :
    (c.latchOne live n (.flip m sh f v)).linetab = c.linetab ∧ (c.latchOne live n (.flip m sh f v)).active = sh := by
  unfold Scene.latchOne
  dsimp only
  split
  · exact ⟨rfl, rfl⟩
  · split <;> exact ⟨rfl, rfl⟩

theorem still_latchOne (c : Scene) (l : Latch) : (c.latchOne live n l).still = c.still := by
  cases l
  case linetab => rfl
  case flip =>
    unfold Scene.latchOne
    dsimp only
    split
    · rfl
    · split <;> rfl

/-- The first change of a list latches if it is due. -/
theorem values_cons (c : Scene) (x : Latch) (l : List Latch) :
    Scene.linetabFor { c with latches := x :: l } n =
      Scene.linetabFor { (if x.frame ≤ n then c.latchOne live n x else c) with latches := l } n ∧
    Scene.activeFor { c with latches := x :: l } n =
      Scene.activeFor { (if x.frame ≤ n then c.latchOne live n x else c) with latches := l } n := by
  unfold Scene.linetabFor Scene.activeFor
  rw [List.foldl_cons, List.foldl_cons]
  refine ⟨congrArg (l.foldl _) ?_, congrArg (l.foldl _) ?_⟩ <;> cases x
  case refine_1.linetab m v =>
    show (if m ≤ n then v else c.linetab) = Scene.linetab (if m ≤ n then _ else c)
    split <;> rfl
  case refine_1.flip m sh f v =>
    show c.linetab = Scene.linetab (if m ≤ n then _ else c)
    split
    · exact (linetab_latchOne_flip ..).1.symm
    · rfl
  case refine_2.linetab m v =>
    show c.active = Scene.active (if m ≤ n then _ else c)
    split <;> rfl
  case refine_2.flip m sh f v =>
    show (if m ≤ n then sh else c.active) = Scene.active (if m ≤ n then _ else c)
    split
    · exact (linetab_latchOne_flip ..).2.symm
    · rfl

theorem latched_values (l : List Latch) (c : Scene) :
    ((l.filter (fun x => x.frame ≤ n)).foldl (Scene.latchOne live n) c).linetab =
      Scene.linetabFor { c with latches := l } n ∧
    ((l.filter (fun x => x.frame ≤ n)).foldl (Scene.latchOne live n) c).active =
      Scene.activeFor { c with latches := l } n := by
  induction l generalizing c with
  | nil => exact ⟨rfl, rfl⟩
  | cons x l ih =>
    obtain ⟨linetab, active⟩ := values_cons live n c x l
    rw [linetab, active, List.filter_cons]
    by_cases due : x.frame ≤ n
    · rw [if_pos (decide_eq_true due), if_pos due, List.foldl_cons]
      exact ih _
    · rw [if_neg (fun yes => due (of_decide_eq_true yes)), if_neg due]
      exact ih _

theorem latched_still (l : List Latch) (c : Scene) : (l.foldl (Scene.latchOne live n) c).still = c.still := by
  induction l generalizing c with
  | nil => rfl
  | cons x l ih => exact (ih _).trans (still_latchOne ..)

/-- A scene without what latches and without the changes to come. -/
def Scene.settledDown (c : Scene) : Scene := { c.still with latches := [], latched := 0 }

theorem latchTo_tells (c : Scene) : (c.latchTo live n).settledDown = c.settledDown ∧
    (c.latchTo live n).latches = c.latches.filter (fun x => n < x.frame) ∧
    (c.latchTo live n).latched = max c.latched (n + 1) := by
  have folded := latched_still live n (c.latches.filter (fun l => l.frame ≤ n)) c
  unfold Scene.latchTo
  dsimp only
  generalize (c.latches.filter (fun l => l.frame ≤ n)).foldl (Scene.latchOne live n) c = d at folded
  have latches : d.latches = c.latches := (congrArg Scene.latches folded :)
  have latched : d.latched = c.latched := (congrArg Scene.latched folded :)
  refine ⟨congrArg (fun c : Scene => { c with latches := [], latched := 0 }) folded, ?_, ?_⟩
  · rw [latches]
  · rw [latched]

theorem linetab_latchTo (c : Scene) : (c.latchTo live n).linetab = c.linetabFor n := (latched_values live n c.latches c).1

theorem active_latchTo (c : Scene) : (c.latchTo live n).active = c.activeFor n := (latched_values live n c.latches c).2

end

/-- What is left of a scene beside what latches and what its regions hold. -/
def Scene.steady (c : Scene) : Scene := c.bare.settledDown

/-- The start of frame `n` in a scene that exists. -/
theorem frameStart_takes {s : State} {i : Nat} {c : Scene} (found : sceneOf s i = some c) (n : Nat) :
    ∃ d live, sceneOf (frameStart s i n) i = some d ∧ d.bare = (c.latchTo live n).bare ∧ d.steady = c.steady := by
  have latched : sceneOf (latchScene s i n) i = some (c.latchTo (fun f => (fenceIndex s f).isSome) n) :=
    sceneOf_updScene_self found _
  obtain ⟨d, here, same⟩ := (beamKept_frameStart s i n).some latched
  refine ⟨d, _, here, same, ?_⟩
  obtain ⟨still, -, -⟩ := latchTo_tells (fun f => (fenceIndex s f).isSome) n c
  calc d.steady = (c.latchTo (fun f => (fenceIndex s f).isSome) n).bare.settledDown := congrArg Scene.settledDown same
    _ = (c.latchTo (fun f => (fenceIndex s f).isSome) n).settledDown.bare := rfl
    _ = c.settledDown.bare := congrArg Scene.bare still
    _ = c.steady := rfl

theorem sceneOf_atTick (s : State) (t i : Nat) : sceneOf (atTick s t) i = sceneOf s i := by
  rw [sceneOf, (atTick_follows s t).tp (by decide), sceneOf]

theorem tick_frameStart (s : State) (i n : Nat) : (frameStart s i n).tick = s.tick :=
  (frameStart_follows ..).tick (by decide)

/-- FRAME_START: what latches, and the next frame. -/
theorem frameStart_values {s : State} {i : Nat} {c : Scene} (found : sceneOf s i = some c) :
    ∃ d, sceneOf (frameStart s i c.latched) i = some d ∧ d.linetab = c.linetabFor c.latched ∧
      d.active = c.activeFor c.latched ∧ d.latches = c.latches.filter (fun x => c.latched < x.frame) ∧
      d.latched = c.latched + 1 := by
  obtain ⟨d, live, here, same, -⟩ := frameStart_takes found c.latched
  obtain ⟨-, latches, latched⟩ := latchTo_tells live c.latched c
  refine ⟨d, here, (congrArg Scene.linetab same).trans (linetab_latchTo ..),
    (congrArg Scene.active same).trans (active_latchTo ..), ?_, ?_⟩
  · exact (congrArg Scene.latches same).trans latches
  · exact (congrArg Scene.latched same).trans (latched.trans (Nat.max_eq_right (Nat.le_succ _)))

/-! ### Commits and underruns (R308, R309) -/

theorem underrun_takes {s : State} {i : Nat} {c : Scene} (found : sceneOf s i = some c) (p t : Nat) :
    ∃ regs, sceneOf (underrun s i c p t) i = some (Scene.passLine { c with
      regs := regs, ur := true, cntUr := satAdd c.cntUr 1, urFrame := some (p / c.total) } p true) := by
  unfold underrun
  dsimp only
  have before : (regsBefore s c p).1.tp = s.tp := (regsBefore_follows ..).tp (by decide)
  generalize regsBefore s c p = x at before
  obtain ⟨u, regs⟩ := x
  have row := (lineRegs_follows u c p regs).tp (by decide)
  generalize lineRegs u c p regs = x at row
  obtain ⟨v, regs, err, cut⟩ := x
  refine ⟨regs, ?_⟩
  have there : sceneOf v i = some c := by
    rw [sceneOf, show v.tp = s.tp from row.trans before]
    exact found
  have passed := sceneOf_updScene_self there (fun d => Scene.passLine { d with
      regs := regs, ur := true, cntUr := satAdd d.cntUr 1, urFrame := some (p / c.total) } p true)
  obtain ⟨w, isW⟩ : ∃ w, updScene v i (fun d => Scene.passLine { d with
      regs := regs, ur := true, cntUr := satAdd d.cntUr 1, urFrame := some (p / c.total) } p true) = w := ⟨_, rfl⟩
  rw [isW] at passed
  dsimp only
  rw [isW]
  obtain ⟨x, isX, event⟩ : ∃ x, (if c.urFrame ≠ some (p / c.total) then
      sceneEvent w i c kUR t (p / c.total) (p % c.total) 0 else w) = x ∧ sceneOf x i = sceneOf w i := by
    refine ⟨_, rfl, ?_⟩
    split
    · rw [sceneOf, scenes_sceneEvent, sceneOf]
    · rfl
  rw [isX]
  split
  · rw [sceneOf, (loopWarning_follows ..).tp (by decide)]
    exact event.trans passed
  · exact event.trans passed

theorem pack_zero (k : Nat) (r : List (Nat × Nat)) : pack ((k, 0) :: r) = pack r := by
  rw [pack, Nat.zero_shiftLeft]
  exact BitVec.zero_or

section
variable {s : State} {i : Nat} {c : Scene}

/-- The commit of a line after its frame has started: what is left to settle beside the line itself. -/
theorem core_commitNext (found : sceneOf s i = some c) : ∃ u d,
    u = frameStart (atTick s (c.commitTick c.nextPos)) i (c.nextPos / c.total) ∧ sceneOf u i = some d ∧
    d.steady = c.steady ∧
    (∀ r, d.lines.find? (fun r => r.at d = c.nextPos) = some r → ∃ e, sceneOf (commitNext s i c) i = some e ∧
      e.core = ((d.commitLine r).passLine c.nextPos false).core) ∧
    (d.lines.find? (fun r => r.at d = c.nextPos) = none → c.nextPos % c.total < d.height → ∃ e regs,
      sceneOf (commitNext s i c) i = some e ∧ e.core = (Scene.passLine { d with
        regs := regs, ur := true, cntUr := satAdd d.cntUr 1, urFrame := some (c.nextPos / d.total) }
          c.nextPos true).core) := by
  obtain ⟨d, live, here, -, steady⟩ := frameStart_takes (s := atTick s (c.commitTick c.nextPos))
    ((sceneOf_atTick ..).trans found) (c.nextPos / c.total)
  refine ⟨_, d, rfl, here, steady, fun r hit => ?_, fun miss visible => ?_⟩
  · unfold commitNext
    dsimp only
    rw [here]
    dsimp only
    rw [hit]
    dsimp only
    exact ((coreKept_endOfRow ..).trans (beamKept_retireBanks _).core).some (sceneOf_updScene_self here _)
  · unfold commitNext
    dsimp only
    rw [here]
    dsimp only
    rw [miss]
    dsimp only
    rw [if_neg (Nat.not_le.mpr visible)]
    dsimp only
    obtain ⟨regs, under⟩ := underrun_takes here c.nextPos (c.commitTick c.nextPos)
    obtain ⟨e, there, core⟩ := ((coreKept_endOfRow ..).trans (beamKept_retireBanks _).core).some under
    exact ⟨e, regs, there, core⟩

theorem tick_commitNext (s : State) (i : Nat) (c : Scene) :
    (commitNext s i c).tick = (atTick s (c.commitTick c.nextPos)).tick := by
  have started : (frameStart (atTick s (c.commitTick c.nextPos)) i (c.nextPos / c.total)).tick =
      (atTick s (c.commitTick c.nextPos)).tick := tick_frameStart ..
  unfold commitNext
  dsimp only
  generalize frameStart (atTick s (c.commitTick c.nextPos)) i (c.nextPos / c.total) = u at started
  split
  · exact started
  next d _ =>
    rw [(retireBanks_follows _).tick (by decide), (endOfRow_follows ..).tick (by decide)]
    cases d.lines.find? (fun r => r.at d = c.nextPos)
    case some => exact ((updScene_follows ..).tick (by decide)).trans started
    case none =>
      by_cases blank : d.height ≤ c.nextPos % c.total
      · simp only [if_pos blank]
        exact ((updScene_follows ..).tick (by decide)).trans (((renderLine_follows ..).tick (by decide)).trans started)
      · simp only [if_neg blank]
        exact ((underrun_follows ..).tick (by decide)).trans started

/-- LINE_COMMIT of a line that was rendered. -/
theorem lineCommit_of_rendered (found : sceneOf s i = some c) {r : RLine}
    (hit : c.lines.find? (fun r => r.at c = c.nextPos) = some r) : ∃ e, sceneOf (commitNext s i c) i = some e ∧
      e.regs = r.regs ∧ e.laystat = c.laystat ||| r.lay ∧ e.coll = c.coll ||| r.coll ∧
      e.nextFrame = (c.nextPos + 1) / c.total ∧ e.nextLine = (c.nextPos + 1) % c.total ∧
      e.comm = pack [(0, c.nextPos % c.total), (16, c.nextPos / c.total % 65536)] ∧
      e.lines = c.lines.filter (fun r => c.nextPos < r.at c) ∧ e.cntUr = c.cntUr := by
  obtain ⟨u, d, -, -, steady, rendered, -⟩ := core_commitNext found
  have lines : d.lines = c.lines := (congrArg Scene.lines steady :)
  have laystat : d.laystat = c.laystat := (congrArg Scene.laystat steady :)
  have coll : d.coll = c.coll := (congrArg Scene.coll steady :)
  have total : d.total = c.total := (congrArg Scene.total steady :)
  have cntUr : d.cntUr = c.cntUr := (congrArg Scene.cntUr steady :)
  have places (r : RLine) : r.at d = r.at c := (congrArg (RLine.at · r) steady :)
  obtain ⟨e, here, core⟩ := rendered r (by simp only [places, lines]; exact hit)
  refine ⟨e, here, (congrArg Scene.regs core :), ?_, ?_, ?_, ?_, ?_, ?_, ?_⟩
  · rw [← laystat]; exact (congrArg Scene.laystat core :)
  · rw [← coll]; exact (congrArg Scene.coll core :)
  · rw [← total]; exact (congrArg Scene.nextFrame core :)
  · rw [← total]; exact (congrArg Scene.nextLine core :)
  · rw [← total]
    have comm : e.comm = pack [(0, c.nextPos % d.total), (10, 0), (16, c.nextPos / d.total % 65536)] :=
      (congrArg Scene.comm core :)
    rw [comm]
    exact congrArg (BitVec.ofNat 32 _ ||| ·) (pack_zero ..)
  · simp only [← lines, ← places]; exact (congrArg Scene.lines core :)
  · rw [← cntUr]; exact (congrArg Scene.cntUr core :)

/-- LINE_COMMIT of a visible line that was not rendered. -/
theorem lineCommit_of_unrendered (found : sceneOf s i = some c)
    (miss : c.lines.find? (fun r => r.at c = c.nextPos) = none) (visible : c.nextPos % c.total < c.height) :
    ∃ e, sceneOf (commitNext s i c) i = some e ∧ e.ur = true ∧ e.cntUr = satAdd c.cntUr 1 ∧
      e.urFrame = some (c.nextPos / c.total) ∧ e.laystat = c.laystat ∧ e.coll = c.coll ∧ e.collValid = c.collValid ∧
      e.comm = pack [(0, c.nextPos % c.total), (10, 1), (16, c.nextPos / c.total % 65536)] ∧
      e.nextFrame = (c.nextPos + 1) / c.total ∧ e.nextLine = (c.nextPos + 1) % c.total := by
  obtain ⟨u, d, -, -, steady, -, unrendered⟩ := core_commitNext found
  have lines : d.lines = c.lines := (congrArg Scene.lines steady :)
  have total : d.total = c.total := (congrArg Scene.total steady :)
  have height : d.height = c.height := (congrArg Scene.height steady :)
  have cntUr : d.cntUr = c.cntUr := (congrArg Scene.cntUr steady :)
  have places (r : RLine) : r.at d = r.at c := (congrArg (RLine.at · r) steady :)
  obtain ⟨e, regs, here, core⟩ := unrendered (by simp only [places, lines]; exact miss) (height ▸ visible)
  refine ⟨e, here, (congrArg Scene.ur core :), ?_, ?_, ?_, ?_, ?_, ?_, ?_, ?_⟩
  · rw [← cntUr]; exact (congrArg Scene.cntUr core :)
  · rw [← total]; exact (congrArg Scene.urFrame core :)
  · exact (congrArg Scene.laystat core).trans (congrArg Scene.laystat steady :)
  · exact (congrArg Scene.coll core).trans (congrArg Scene.coll steady :)
  · exact (congrArg Scene.collValid core).trans (congrArg Scene.collValid steady :)
  · rw [← total]; exact (congrArg Scene.comm core :)
  · rw [← total]; exact (congrArg Scene.nextFrame core :)
  · rw [← total]; exact (congrArg Scene.nextLine core :)

end

/-! ### The start of blanking (R311, R320, R366) -/

theorem tp_writeBlock (s : State) (base : Nat) (regs : List Nat) (v : Tab Word) :
    (writeBlock s base regs v).tp = s.tp := (writeBlock_follows ..).tp (by decide)

theorem tp_foldl {α : Type} {f : State → α → State} (keeps : ∀ u x, (f u x).tp = u.tp) (l : List α) (s : State) :
    (l.foldl f s).tp = s.tp :=
  List.foldlRecOn (motive := fun u : State => u.tp = s.tp) l f rfl fun u h x _ => (keeps u x).trans h

/-- A scene past the start of blanking of frame `n`. -/
def Scene.blanked (c : Scene) (n : Nat) : Scene := { c with
  signals := [], blockDue := false, sobFrame := n + 1, pipe := c.moveTo.getD c.pipe, moveTo := none,
  lines := if c.moveTo.isSome then [] else c.lines, ltStop := if c.moveTo.isSome then none else c.ltStop }

theorem blanked_of_move {c : Scene} {q : Nat} (moves : c.moveTo = some q) (n : Nat) :
    { Scene.discard { c with signals := [], blockDue := false, sobFrame := n + 1 } 0 with pipe := q, moveTo := none } =
      c.blanked n := by
  have lines : c.lines.filter (fun r => r.at c < 0) = [] :=
    List.filter_eq_nil_iff.mpr fun r _ => by simp
  have stop : c.ltStop.filter (fun k => decide (k.1 < 0)) = none := by
    cases c.ltStop <;> rfl
  unfold Scene.blanked Scene.discard
  rw [moves]
  dsimp only
  rw [if_pos (by rfl), if_pos (by rfl), stop]
  congr 1

/-- A frame's waiting FD is raised at its start of blanking (R312). -/
theorem sceneOf_raisedFd {s : State} {i : Nat} {e : Scene} (found : sceneOf s i = some e) {due : Option Nat}
    (same : e.fdDue = due) (n t : Nat) :
    sceneOf (if due = some n then raiseFd (updScene s i (fun c => { c with fdDue := none })) i n t else s) i =
      some { e with fdDue := if due = some n then none else due } := by
  split
  · rw [sceneOf, scenes_raiseFd]
    exact sceneOf_updScene_self found _
  · rw [found, ← same]

theorem raiseSob_takes {s : State} {i : Nat} {c : Scene} (found : sceneOf s i = some c) (n t : Nat) :
    sceneOf (raiseSob s i n t) i = some { c.blanked n with fdDue := if c.fdDue = some n then none else c.fdDue } := by
  have event := scenes_sceneEvent s i c kSOB t n c.height 0
  unfold raiseSob
  rw [found]
  dsimp only
  generalize sceneEvent s i c kSOB t n c.height 0 = u at event
  refine sceneOf_raisedFd (e := c.blanked n) ((sceneOf_updScene_self (c := c) ?_ _).trans (congrArg some ?_)) rfl n t
  · rw [sceneOf, tp_foldl (fun w f => by
      split
      · rfl
      · exact (signalFence_follows ..).tp (by decide))]
    refine Eq.trans ?_ (show s.tp.scenes.find? i = some c from found)
    rw [← event]
    split
    · rw [tp_writeBlock, tp_writeBlock]
    · rw [tp_writeBlock]
  · split
    · next stays =>
      have stays' : c.moveTo = none := stays
      unfold Scene.blanked
      rw [stays']
      rfl
    · next q moves => exact blanked_of_move moves n

/-! ### The stations at the start of a frame (R301, R360, R424) -/

/-- What a station shows, and what it is to show. -/
def Station.shown (t : Station) : Nat × Option (Nat × Nat) × List Byte × Option (Nat × Nat × List Byte) :=
  (t.scene, t.pendScene, t.lut, t.pendLut)

/-- Every station shows what it showed. -/
structure Showing (s t : State) : Prop where
  alike : ∀ k, (stationOf t k).map Station.shown = (stationOf s k).map Station.shown

namespace Showing
variable {s t u : State}

theorem refl (s : State) : Showing s s := ⟨fun _ => rfl⟩

theorem trans (h : Showing s t) (k : Showing t u) : Showing s u := ⟨fun i => (k.alike i).trans (h.alike i)⟩

theorem of_tl (tl : t.tl = s.tl) : Showing s t := ⟨fun k => by rw [stationOf_of_tl tl]⟩

theorem some (h : Showing s t) {k : Nat} {x : Station} (found : stationOf s k = .some x) :
    ∃ y, stationOf t k = .some y ∧ y.shown = x.shown := by
  have here := h.alike k
  rw [found] at here
  simpa using here

end Showing

theorem stationOf_setStation_self (s : State) (k : Nat) (t : Station) : stationOf (setStation s k t) k = some t :=
  Tab.find?_put_self ..

theorem stationOf_setStation_of_ne (s : State) {j k : Nat} (other : j ≠ k) (t : Station) :
    stationOf (setStation s k t) j = stationOf s j := Tab.find?_put_of_ne _ _ other

theorem showing_setStation {s : State} {k : Nat} {t u : Station} (found : stationOf s k = some t) (same : u.shown = t.shown) :
    Showing s (setStation s k u) := by
  refine ⟨fun j => ?_⟩
  by_cases own : j = k
  · subst own
    rw [stationOf_setStation_self, found]
    exact congrArg some same
  · rw [stationOf_setStation_of_ne _ own]

theorem showing_rebindSceneDone (s : State) (k : Nat) : Showing s (rebindSceneDone s k) := by
  unfold rebindSceneDone
  refine Showing.trans (t := s.fw.waiting.foldl _ s) ?_ (.of_tl rfl)
  refine List.foldlRecOn (motive := Showing s) _ _ (.refl s) fun u h p _ => h.trans ?_
  split
  · split
    · next found =>
      split
      · next own =>
        subst own
        exact showing_setStation found rfl
      · exact .refl u
    · exact .refl u
  · exact .refl u

/-- A station's own turn at the start of a frame: the scene it is to show. -/
theorem applyScene_takes {s : State} {k : Nat} {x : Station} (found : stationOf s k = some x) (i n : Nat) :
    ∃ y, stationOf (applyScene s i n k) k = some y ∧ y.lut = x.lut ∧ y.pendLut = x.pendLut ∧
      ((∃ m, m ≤ n ∧ x.pendScene = some (i, m)) → y.scene = i) ∧
      ((¬∃ m, m ≤ n ∧ x.pendScene = some (i, m)) → y.scene = x.scene) := by
  unfold applyScene
  rw [found]
  dsimp only
  cases waits : x.pendScene
  case none => exact ⟨x, found, rfl, rfl, fun ⟨_, _, no⟩ => (Option.some_ne_none _ no.symm).elim, fun _ => rfl⟩
  case some p =>
    obtain ⟨j, m⟩ := p
    dsimp only
    by_cases due : j = i ∧ m ≤ n
    · rw [if_pos due]
      have set := stationOf_setStation_self (cancelUnsent s k false) k { x with scene := i, pendScene := none }
      obtain ⟨y, here, shown⟩ := ((Showing.of_tl (s := setStation (cancelUnsent s k false) k
        { x with scene := i, pendScene := none }) ((oweAll_follows _ k).tl (by decide))).trans
        ((showing_rebindSceneDone _ k).trans (.of_tl ((freeAll_follows _).tl (by decide))))).some set
      simp only [Station.shown, Prod.mk.injEq] at shown
      obtain ⟨scene, -, lut, pendLut⟩ := shown
      exact ⟨y, here, lut, pendLut, fun _ => scene, fun not => (not ⟨m, due.2, by rw [due.1]⟩).elim⟩
    · rw [if_neg due]
      refine ⟨x, found, rfl, rfl, fun ⟨m', le, same⟩ => (due ?_).elim, fun _ => rfl⟩
      obtain ⟨rfl, rfl⟩ := Prod.mk.inj (Option.some.inj same)
      exact ⟨rfl, le⟩

/-- A station's own turn at the start of a frame: its new LUT. -/
theorem applyLut_takes {s : State} {k : Nat} {x : Station} (found : stationOf s k = some x) (i n : Nat) :
    ∃ y, stationOf (applyLut s i n k) k = some y ∧ y.scene = x.scene ∧
      (∀ j m l, x.pendLut = some (j, m, l) → x.scene = i → j ≠ i ∨ m ≤ n → y.lut = l) ∧
      (x.pendLut = none ∨ x.scene ≠ i → y.lut = x.lut) := by
  unfold applyLut
  rw [found]
  dsimp only
  cases waits : x.pendLut
  case none => exact ⟨x, found, rfl, fun _ _ _ no => (Option.some_ne_none _ no.symm).elim, fun _ => rfl⟩
  case some p =>
    obtain ⟨j, m, l⟩ := p
    dsimp only
    by_cases due : x.scene = i ∧ (j ≠ i ∨ m ≤ n)
    · rw [if_pos due, stationOf_of_tl ((oweAll_follows ..).tl (by decide)), stationOf_setStation_self]
      refine ⟨_, rfl, rfl, fun j' m' l' same _ _ => ?_, fun other => ?_⟩
      · simp only [Option.some.injEq, Prod.mk.injEq] at same
        exact same.2.2
      · exact (other.resolve_left (Option.some_ne_none _) due.1).elim
    · rw [if_neg due]
      refine ⟨x, found, rfl, fun j' m' l' same shows first => (due ⟨shows, ?_⟩).elim, fun _ => rfl⟩
      simp only [Option.some.injEq, Prod.mk.injEq] at same
      rw [same.1, same.2.1]
      exact first

/-- The turn of another station. -/
theorem shown_turn_of_ne {s : State} {j k : Nat} (other : k ≠ j) (i n : Nat) :
    (stationOf (applyLut (applyScene s i n j) i n j) k).map Station.shown = (stationOf s k).map Station.shown := by
  have lut (u : State) : stationOf (applyLut u i n j) k = stationOf u k := by
    unfold applyLut
    split
    · rfl
    split
    · rfl
    split
    · rw [stationOf_of_tl ((oweAll_follows ..).tl (by decide)), stationOf_setStation_of_ne _ other]
    · rfl
  rw [lut]
  unfold applyScene
  split
  · rfl
  split
  · rfl
  split
  · rw [stationOf_of_tl ((freeAll_follows _).tl (by decide)), (showing_rebindSceneDone ..).alike,
      stationOf_of_tl ((oweAll_follows ..).tl (by decide)), stationOf_setStation_of_ne _ other,
      stationOf_of_tl ((cancelUnsent_follows ..).tl (by decide))]
  · rfl

/-- What a fold leaves of one index that it meets once. -/
theorem foldl_once {β γ : Type} {f : β → Nat → β} {view : β → γ} {m : Nat} (others : ∀ b k, k ≠ m → view (f b k) = view b)
    {l : List Nat} (distinct : l.Nodup) (mem : m ∈ l) (b : β) :
    ∃ c, view c = view b ∧ view (l.foldl f b) = view (f c m) := by
  have past (l : List Nat) (no : m ∉ l) (b : β) : view (l.foldl f b) = view b :=
    List.foldlRecOn (motive := fun c => view c = view b) l f rfl fun c h k mem =>
      (others c k (fun same => no (same ▸ mem))).trans h
  obtain ⟨p, q, rfl⟩ := List.append_of_mem mem
  rw [List.nodup_append] at distinct
  obtain ⟨-, rest, apart⟩ := distinct
  refine ⟨p.foldl f b, past p (fun at' => apart m at' m (List.mem_cons_self ..) rfl) b, ?_⟩
  rw [List.foldl_append, List.foldl_cons]
  exact past q (List.nodup_cons.mp rest).1 _

theorem station_frameStart {s : State} {i n k : Nat} {x : Station} (found : stationOf s k = some x) :
    ∃ y, stationOf (frameStart s i n) k = some y ∧
      ((∃ m, m ≤ n ∧ x.pendScene = some (i, m)) → y.scene = i) ∧
      ((¬∃ m, m ≤ n ∧ x.pendScene = some (i, m)) → y.scene = x.scene) ∧
      (∀ j m l, x.pendLut = some (j, m, l) → y.scene = i → j ≠ i ∨ m ≤ n → y.lut = l) ∧
      (x.pendLut = none ∨ y.scene ≠ i → y.lut = x.lut) := by
  have here : stationOf (latchScene s i n) k = some x := by
    rw [stationOf_of_tl ((latchScene_follows ..).tl (by decide)), found]
  have listed : k ∈ stationIds (latchScene s i n) :=
    List.mem_dedup.mpr (List.mem_map.mpr ⟨(k, x), Tab.mem_of_find? here, rfl⟩)
  unfold frameStart
  dsimp only
  obtain ⟨u, before, after⟩ := foldl_once (f := fun s k => applyLut (applyScene s i n k) i n k)
    (view := fun u => (stationOf u k).map Station.shown) (m := k)
    (fun b j other => shown_turn_of_ne (Ne.symm other) i n) (List.nodup_dedup _) listed (latchScene s i n)
  obtain ⟨v, atTurn, shown⟩ : ∃ v, stationOf u k = some v ∧ v.shown = x.shown := by
    rw [here] at before
    simpa using before
  obtain ⟨w, bound, lut, pendLut, due, notDue⟩ := applyScene_takes atTurn i n
  obtain ⟨z, turned, scene, newLut, oldLut⟩ := applyLut_takes bound i n
  rw [turned] at after
  obtain ⟨y, last, same⟩ := Option.map_eq_some_iff.mp after
  simp only [Station.shown, Prod.mk.injEq] at shown same
  obtain ⟨scene', pendScene', lut', pendLut'⟩ := shown
  obtain ⟨sceneY, -, lutY, -⟩ := same
  rw [pendScene'] at due notDue
  rw [pendLut, pendLut', lut, lut'] at oldLut
  rw [pendLut, pendLut'] at newLut
  rw [← scene] at due notDue newLut oldLut
  rw [← sceneY, scene'] at notDue
  rw [← sceneY] at due newLut oldLut
  rw [← lutY] at newLut oldLut
  exact ⟨y, last, due, notDue, newLut, oldLut⟩

end Sys2Proof.Machine
end

section
/-! PROOFS. The beam (chapter 07), continued: the choices of the pipes and of the balancer, and the obligation O34. -/
open Sys2Proof

namespace Sys2Proof.Machine

/-! ### Choices -/

/-- The lesser of two candidates of a pipe (R306): by commit tick, then by scene. -/
def lesser (m y : Nat × Nat × Nat) : Nat × Nat × Nat := if y.1 < m.1 ∨ (y.1 = m.1 ∧ y.2.1 < m.2.1) then y else m

/-- `m` comes no later than `y`. -/
def NoLater (m y : Nat × Nat × Nat) : Prop := m.1 ≤ y.1 ∧ (m.1 = y.1 → m.2.1 ≤ y.2.1)

theorem NoLater.trans {a b c : Nat × Nat × Nat} (h : NoLater a b) (k : NoLater b c) : NoLater a c := by
  obtain ⟨h₁, h₂⟩ := h
  obtain ⟨k₁, k₂⟩ := k
  exact ⟨by omega, fun e => (h₂ (by omega)).trans (k₂ (by omega))⟩

theorem lesser_noLater (m y : Nat × Nat × Nat) : NoLater (lesser m y) m ∧ NoLater (lesser m y) y ∧
    (lesser m y = m ∨ lesser m y = y) := by
  unfold lesser NoLater
  split
  · exact ⟨by omega, ⟨by omega, fun _ => Nat.le_refl _⟩, .inr rfl⟩
  · exact ⟨⟨Nat.le_refl _, fun _ => Nat.le_refl _⟩, by omega, .inl rfl⟩

theorem foldl_lesser (r : List (Nat × Nat × Nat)) (x : Nat × Nat × Nat) :
    r.foldl lesser x ∈ x :: r ∧ ∀ y ∈ x :: r, NoLater (r.foldl lesser x) y := by
  induction r generalizing x with
  | nil => exact ⟨List.mem_cons_self .., fun y h => by rw [List.mem_singleton.mp h]; exact ⟨Nat.le_refl _, fun _ => Nat.le_refl _⟩⟩
  | cons z r ih =>
    obtain ⟨first, second, which⟩ := lesser_noLater x z
    obtain ⟨mem, least⟩ := ih (lesser x z)
    have front := least _ (List.mem_cons_self ..)
    refine ⟨?_, fun y h => ?_⟩
    · rcases List.mem_cons.mp mem with here | later
      · rw [List.foldl_cons, here]
        rcases which with e | e <;> rw [e]
        · exact List.mem_cons_self ..
        · exact List.mem_cons_of_mem _ (List.mem_cons_self ..)
      · exact List.mem_cons_of_mem _ (List.mem_cons_of_mem _ later)
    · rcases List.mem_cons.mp h with rfl | h
      · exact front.trans first
      rcases List.mem_cons.mp h with rfl | h
      · exact front.trans second
      · exact least y (List.mem_cons_of_mem _ h)

/-- The candidates of a pipe: commit tick, scene and place. -/
def candidates (s : State) (pipe : Nat) : List (Nat × Nat × Nat) := s.tp.scenes.filterMap (fun p =>
  if p.2.pipe = pipe then (eligible s p.2).map (fun q => (p.2.commitTick q, p.1, q)) else none)

theorem mem_candidates {s : State} {pipe : Nat} {y : Nat × Nat × Nat} : y ∈ candidates s pipe ↔
    ∃ k e m, (k, e) ∈ s.tp.scenes ∧ e.pipe = pipe ∧ eligible s e = some m ∧ y = (e.commitTick m, k, m) := by
  unfold candidates
  rw [List.mem_filterMap]
  constructor
  · rintro ⟨⟨k, e⟩, mem, h⟩
    dsimp only at h
    split at h
    · next own =>
      obtain ⟨m, may, rfl⟩ := Option.map_eq_some_iff.mp h
      exact ⟨k, e, m, mem, own, may, rfl⟩
    · exact absurd h (by simp)
  · rintro ⟨k, e, m, mem, own, may, rfl⟩
    exact ⟨(k, e), mem, by dsimp only; rw [if_pos own, may]; rfl⟩

theorem pipeChoice_of_nil {s : State} {pipe : Nat} (h : candidates s pipe = []) : pipeChoice s pipe = none := by
  unfold candidates at h
  unfold pipeChoice
  rw [h]

theorem pipeChoice_of_cons {s : State} {pipe : Nat} {x : Nat × Nat × Nat} {r : List (Nat × Nat × Nat)}
    (h : candidates s pipe = x :: r) : pipeChoice s pipe = some (r.foldl lesser x).2 := by
  unfold candidates at h
  unfold pipeChoice
  rw [h]
  rfl

theorem pipeChoice_tells {s : State} {pipe i q : Nat} (h : pipeChoice s pipe = some (i, q)) :
    ∃ b ∈ candidates s pipe, b.2 = (i, q) ∧ ∀ y ∈ candidates s pipe, NoLater b y := by
  cases all : candidates s pipe
  case nil => exact absurd (h.symm.trans (pipeChoice_of_nil all)) (Option.some_ne_none _)
  case cons x r =>
    obtain ⟨mem, least⟩ := foldl_lesser r x
    exact ⟨_, mem, Option.some.inj ((pipeChoice_of_cons all).symm.trans h), least⟩

theorem eligible_tells {s : State} {c : Scene} {q : Nat} (h : eligible s c = some q) :
    (∀ b, c.beam s.tick.toNat = some b → c.pos b ≤ q ∧ q ≤ c.pos b + 32) ∧ c.nextPos ≤ q ∧ ∀ r ∈ c.lines, r.at c ≠ q := by
  unfold eligible at h
  cases beam : c.beam s.tick.toNat
  case none => rw [beam] at h; exact absurd h (by simp)
  case some b =>
    rw [beam] at h
    obtain ⟨le, lt, may⟩ := firstFrom_eq_some h
    simp only [Bool.and_eq_true, Bool.not_eq_true', decide_eq_true_eq, List.any_eq_false] at may
    obtain ⟨⟨due, fresh⟩, -⟩ := may
    refine ⟨fun b' same => ?_, due, fun r mem => fresh r mem⟩
    obtain rfl := Option.some.inj same
    exact ⟨le, by omega⟩

/-- LINE_RENDER of the line that a pipe chooses. -/
theorem lineRender_of_choice {s : State} {i q : Nat} {pipe : Fin 8} {c : Scene} (up : running s islTP = true)
    (found : sceneOf s i = some c) (choice : pipeChoice s pipe = some (i, q)) :
    ∃ t d r, exec (.lineRender pipe) s = .next t ∧ t.tick = s.tick ∧ sceneOf t i = some d ∧
      d.lines = c.lines ++ [r] ∧ r.frame = q / c.total ∧ r.line = q % c.total := by
  obtain ⟨kept, frame, line⟩ := renderLine_drawn s i c q
  obtain ⟨d, here, bare⟩ := kept.some found
  have lines : d.lines = c.lines := (congrArg Scene.lines bare :)
  refine ⟨updScene (renderLine s i c q).1 i (fun d => { d with lines := d.lines ++ [(renderLine s i c q).2] }), _,
    (renderLine s i c q).2, ?_, ?_, sceneOf_updScene_self here _, ?_, frame, line⟩
  · refine congrArg Host.Outcome.next ((if_neg (by rw [up]; decide)).trans ?_)
    rw [choice]
    dsimp only
    rw [found]
  · exact ((updScene_follows ..).tick (by decide)).trans ((renderLine_follows ..).tick (by decide))
  · exact congrArg (· ++ _) lines

/-! ### The balancer (R319 to R321) -/

section
variable {better : Nat → Nat → Bool} (irrefl : ∀ a, better a a = false)
  (trans : ∀ a b c, better a b = true → better b c = true → better a c = true)
include irrefl trans

theorem foldl_best (f : Nat → Nat) (n : Nat) :
    let b := (List.range n).foldl (fun b p => if better (f p) (f b) then p else b) 0
    (b < n ∨ b = 0) ∧ ∀ k < n, better (f k) (f b) = false ∧ (f k = f b → b ≤ k) := by
  induction n with
  | zero => exact ⟨.inr rfl, fun k h => absurd h (Nat.not_lt_zero k)⟩
  | succ n ih =>
    dsimp only at ih ⊢
    rw [List.range_succ, List.foldl_append, List.foldl_cons, List.foldl_nil]
    generalize (List.range n).foldl (fun b p => if better (f p) (f b) then p else b) 0 = b at ih
    obtain ⟨inside, best⟩ := ih
    by_cases wins : better (f n) (f b) = true
    · rw [if_pos wins]
      refine ⟨.inl (Nat.lt_succ_self n), fun k h => ?_⟩
      rcases Nat.lt_succ_iff_lt_or_eq.mp h with before | rfl
      · obtain ⟨not, -⟩ := best k before
        refine ⟨(Bool.not_eq_true _).mp fun yes => ?_, fun same => ?_⟩
        · exact Bool.false_ne_true (not.symm.trans (trans _ _ _ yes wins))
        · rw [same, wins] at not
          exact absurd not.symm Bool.false_ne_true
      · exact ⟨irrefl _, fun _ => Nat.le_refl _⟩
    · rw [if_neg wins]
      refine ⟨inside.imp Nat.lt_succ_of_lt id, fun k h => ?_⟩
      rcases Nat.lt_succ_iff_lt_or_eq.mp h with before | rfl
      · exact best k before
      · refine ⟨(Bool.not_eq_true _).mp wins, fun _ => ?_⟩
        rcases inside with lt | zero
        · exact Nat.le_of_lt lt
        · exact zero ▸ Nat.zero_le _

theorem pickPipe_eq (total : ∀ a b, better a b = false → better b a = false → a = b) (busy : List Nat) {hi : Fin 8}
    (best : ∀ k : Fin 8, better (busy.getD k 0) (busy.getD hi 0) = false ∧ (busy.getD k 0 = busy.getD hi 0 → hi ≤ k)) :
    pickPipe better busy = hi := by
  obtain ⟨inside, first⟩ := foldl_best irrefl trans (fun k => busy.getD k 0) 8
  have within : pickPipe better busy < 8 := inside.elim id (fun zero => by rw [pickPipe, zero]; decide)
  obtain ⟨not, least⟩ := first hi hi.isLt
  obtain ⟨not', least'⟩ := best ⟨pickPipe better busy, within⟩
  have same : busy.getD hi 0 = busy.getD (pickPipe better busy) 0 := total _ _ not not'
  exact Nat.le_antisymm (least same) (least' same.symm)

end

theorem busiest_eq (busy : List Nat) {hi : Fin 8}
    (best : ∀ k : Fin 8, busy.getD k 0 ≤ busy.getD hi 0 ∧ (busy.getD k 0 = busy.getD hi 0 → hi ≤ k)) :
    pickPipe (fun a b => decide (b < a)) busy = hi := by
  refine pickPipe_eq (fun a => decide_eq_false (Nat.lt_irrefl a)) (fun a b c h k => ?_) (fun a b h k => ?_) busy fun k =>
    ⟨decide_eq_false (Nat.not_lt.mpr (best k).1), (best k).2⟩
  · exact decide_eq_true ((of_decide_eq_true k).trans (of_decide_eq_true h))
  · exact Nat.le_antisymm (Nat.not_lt.mp (of_decide_eq_false h)) (Nat.not_lt.mp (of_decide_eq_false k))

theorem idlest_eq (busy : List Nat) {lo : Fin 8}
    (best : ∀ k : Fin 8, busy.getD lo 0 ≤ busy.getD k 0 ∧ (busy.getD k 0 = busy.getD lo 0 → lo ≤ k)) :
    pickPipe (fun a b => decide (a < b)) busy = lo := by
  refine pickPipe_eq (fun a => decide_eq_false (Nat.lt_irrefl a)) (fun a b c h k => ?_) (fun a b h k => ?_) busy fun k =>
    ⟨decide_eq_false (Nat.not_lt.mpr (best k).1), (best k).2⟩
  · exact decide_eq_true ((of_decide_eq_true h).trans (of_decide_eq_true k))
  · exact Nat.le_antisymm (Nat.not_lt.mp (of_decide_eq_false k)) (Nat.not_lt.mp (of_decide_eq_false h))

/-- The busy fraction of each pipe, in percent. -/
def busyShares (busy : List Nat) : Tab (BitVec 7) := (List.range 8).foldl (fun m p =>
  Tab.set 0 m p (BitVec.ofNat 7 (min 100 (busy.getD p 0 / 100)))) []

/-- The balancer's move of a scene, from the busiest pipe to the idlest. -/
def balancerMove (s : State) (hi lo d : Nat) (load : Tab Nat) : State :=
  if !s.tp.balRun || d ≤ 1000 then s
  else match pickScene s hi d load with
    | none => s
    | some i => updScene (onTp s (fun t => { t with moves := satAdd t.moves 1 })) i (fun c => { c with moveTo := some lo })

theorem balancerMove_of_idle {s : State} {hi lo d : Nat} {load : Tab Nat} (idle : s.tp.balRun = false ∨ d ≤ 1000) :
    balancerMove s hi lo d load = s := by
  refine if_pos ?_
  rcases idle with off | near
  · rw [off]; rfl
  · rw [decide_eq_true near, Bool.or_true]

theorem balancerMove_of_pick {s : State} {hi lo d i : Nat} {load : Tab Nat} (run : s.tp.balRun = true) (apart : 1000 < d)
    (moved : pickScene s hi d load = some i) : balancerMove s hi lo d load =
      updScene (onTp s (fun t => { t with moves := satAdd t.moves 1 })) i (fun c => { c with moveTo := some lo }) := by
  unfold balancerMove
  rw [run, decide_eq_false (Nat.not_le.mpr apart), Bool.not_true, Bool.or_false, if_neg Bool.false_ne_true, moved]

/-- The heavier of two scenes that may move. -/
def heavier (b y : Nat × Nat) : Nat × Nat := if b.2 < y.2 then y else b

theorem foldl_heavier (r : List (Nat × Nat)) (x : Nat × Nat) :
    r.foldl heavier x ∈ x :: r ∧ ∀ y ∈ x :: r, y.2 ≤ (r.foldl heavier x).2 := by
  induction r generalizing x with
  | nil => exact ⟨List.mem_cons_self .., fun y h => by rw [List.mem_singleton.mp h]; exact Nat.le_refl _⟩
  | cons z r ih =>
    obtain ⟨mem, most⟩ := ih (heavier x z)
    have front := most _ (List.mem_cons_self ..)
    have which : (heavier x z = x ∨ heavier x z = z) ∧ x.2 ≤ (heavier x z).2 ∧ z.2 ≤ (heavier x z).2 := by
      unfold heavier
      split
      · exact ⟨.inr rfl, by omega, Nat.le_refl _⟩
      · exact ⟨.inl rfl, Nat.le_refl _, by omega⟩
    obtain ⟨pick, first, second⟩ := which
    refine ⟨?_, fun y h => ?_⟩
    · rcases List.mem_cons.mp mem with here | later
      · rw [List.foldl_cons, here]
        rcases pick with e | e <;> rw [e]
        · exact List.mem_cons_self ..
        · exact List.mem_cons_of_mem _ (List.mem_cons_self ..)
      · exact List.mem_cons_of_mem _ (List.mem_cons_of_mem _ later)
    · rcases List.mem_cons.mp h with rfl | h
      · exact first.trans front
      rcases List.mem_cons.mp h with rfl | h
      · exact second.trans front
      · exact most y (List.mem_cons_of_mem _ h)

/-- A scene that the balancer may move off a pipe. -/
def MayMove (load : Tab Nat) (pipe half k : Nat) (e : Scene) : Prop :=
  e.pipe = pipe ∧ e.pin = none ∧ e.moveTo = none ∧ 2 * Tab.get 0 load k ≤ half

/-- The scenes that may move, with their loads. -/
def movable (s : State) (pipe half : Nat) (load : Tab Nat) : List (Nat × Nat) := s.tp.scenes.filterMap (fun p =>
  let v := load.get 0 p.1
  if p.2.pipe = pipe ∧ p.2.pin.isNone ∧ p.2.moveTo.isNone ∧ 2 * v ≤ half then some (p.1, v) else none)

theorem mem_movable {s : State} {pipe half : Nat} {load : Tab Nat} {y : Nat × Nat} : y ∈ movable s pipe half load ↔
    ∃ k e, (k, e) ∈ s.tp.scenes ∧ MayMove load pipe half k e ∧ y = (k, Tab.get 0 load k) := by
  unfold movable MayMove
  rw [List.mem_filterMap]
  simp only [Option.isNone_iff_eq_none]
  constructor
  · rintro ⟨⟨k, e⟩, mem, h⟩
    dsimp only at h
    split at h
    · next may => exact ⟨k, e, mem, may, (Option.some.inj h).symm⟩
    · exact absurd h (by simp)
  · rintro ⟨k, e, mem, may, rfl⟩
    exact ⟨(k, e), mem, if_pos may⟩

theorem pickScene_of_cons {s : State} {pipe half : Nat} {load : Tab Nat} {x : Nat × Nat} {r : List (Nat × Nat)}
    (h : movable s pipe half load = x :: r) : pickScene s pipe half load = some (r.foldl heavier x).1 := by
  unfold movable at h
  unfold pickScene
  dsimp only at h ⊢
  rw [h]
  rfl

theorem pickScene_of_heaviest {s : State} {pipe half i : Nat} {load : Tab Nat} {c : Scene} (mem : (i, c) ∈ s.tp.scenes)
    (may : MayMove load pipe half i c) (heaviest : ∀ k e, k ≠ i → (k, e) ∈ s.tp.scenes → MayMove load pipe half k e →
      Tab.get 0 load k < Tab.get 0 load i) : pickScene s pipe half load = some i := by
  have listed : (i, Tab.get 0 load i) ∈ movable s pipe half load := mem_movable.mpr ⟨i, c, mem, may, rfl⟩
  cases all : movable s pipe half load
  case nil => rw [all] at listed; exact absurd listed List.not_mem_nil
  case cons x r =>
    obtain ⟨inside, most⟩ := foldl_heavier r x
    rw [← all] at inside most
    obtain ⟨k, e, there, mayToo, same⟩ := mem_movable.mp inside
    have le := most _ listed
    rw [pickScene_of_cons all]
    refine congrArg some ?_
    by_contra other
    rw [same] at other le
    exact absurd (heaviest k e other there mayToo) (Nat.not_lt.mpr le)

theorem evqRead_of_queued {s : State} {a x : Nat} {e : Word} {r : List (Word × Nat)} (low : 3 ≤ a) (high : a ≤ 10)
    (queued : (Tab.get {} s.tp.evq (a - 3)).q = (e, x) :: r) : (evqRead s a).2 = e ∧
      Tab.get {} (evqRead s a).1.tp.evq (a - 3) = { Tab.get {} s.tp.evq (a - 3) with q := r } := by
  rw [evqRead, if_pos ⟨low, high⟩]
  dsimp only
  rw [queued]
  refine ⟨rfl, ?_⟩
  rw [tp_evqLevel]
  exact Tab.get_set_self ..

/-! ### The obligation -/

theorem awake_of_begun {s : State} {c : Scene} {start : Dword} (begun : c.start = some start)
    (up : running s islTP = true) : (c.start.isNone || !running s islTP) = false := by
  rw [begun, up]
  rfl

theorem exec_frameStart {s : State} {i : Fin 2048} {c : Scene} (up : running s islTP = true)
    (found : sceneOf s i = some c) {start : Dword} (begun : c.start = some start) :
    exec (.frameStart i) s = .next (frameStart (atTick s (c.frameTick c.latched)) i c.latched) := by
  refine congrArg Host.Outcome.next ?_
  rw [found]
  exact if_neg (by rw [awake_of_begun begun up]; exact Bool.false_ne_true)

theorem exec_lineCommit {s : State} {i : Fin 2048} {c : Scene} (up : running s islTP = true)
    (found : sceneOf s i = some c) {start : Dword} (begun : c.start = some start) :
    exec (.lineCommit i) s = .next (commitNext s i c) := by
  refine congrArg Host.Outcome.next ?_
  rw [found]
  exact if_neg (by rw [awake_of_begun begun up]; exact Bool.false_ne_true)

theorem exec_sob {s : State} {i : Fin 2048} {c : Scene} (up : running s islTP = true)
    (found : sceneOf s i = some c) {start : Dword} (begun : c.start = some start) :
    exec (.sob i) s = .next (raiseSob (frameStart (atTick s (c.tickOf c.sobFrame c.height)) i c.sobFrame) i c.sobFrame
      (c.tickOf c.sobFrame c.height)) := by
  refine congrArg Host.Outcome.next ?_
  rw [found]
  exact if_neg (by rw [awake_of_begun begun up]; exact Bool.false_ne_true)

theorem sob_takes {s : State} {i : Nat} {c : Scene} (found : sceneOf s i = some c) (t : Nat) :
    ∃ d, sceneOf (raiseSob (frameStart s i c.sobFrame) i c.sobFrame t) i = some d ∧ d.sobFrame = c.sobFrame + 1 ∧
      d.signals = [] ∧ d.blockDue = false ∧ d.pipe = c.moveTo.getD c.pipe ∧ d.moveTo = none ∧
      d.lines = (if c.moveTo.isSome then [] else c.lines) ∧ d.cntRollback = c.cntRollback ∧
      d.fdDue = (if c.fdDue = some c.sobFrame then none else c.fdDue) := by
  obtain ⟨e, live, here, -, steady⟩ := frameStart_takes found c.sobFrame
  have moveTo : e.moveTo = c.moveTo := (congrArg Scene.moveTo steady :)
  have pipe : e.pipe = c.pipe := (congrArg Scene.pipe steady :)
  have lines : e.lines = c.lines := (congrArg Scene.lines steady :)
  have fdDue : e.fdDue = c.fdDue := (congrArg Scene.fdDue steady :)
  refine ⟨_, raiseSob_takes here c.sobFrame t, rfl, rfl, rfl, ?_, rfl, ?_, (congrArg Scene.cntRollback steady :), ?_⟩
  · rw [← moveTo, ← pipe]; rfl
  · rw [← moveTo, ← lines]; rfl
  · rw [← fdDue]

/-- Settles O34: a frame's start latches what is due and turns each station once, a commit touches its scene only by
the line, and each choice is the least of its candidates. -/
theorem framesLinesAndEventsFollowTheBeam : Obligations.FramesLinesAndEventsFollowTheBeam := by
  intro i start c s p l due gives up found begun
  refine ⟨?frame, ?stations, ?render, ?commit, ?underrun, ?sob, ?fires, ?queue, ?balance⟩
  case frame =>
    obtain ⟨d, here, values⟩ := frameStart_values ((sceneOf_atTick s (c.frameTick c.latched) i).trans found)
    exact ⟨_, d, exec_frameStart up found begun, tick_frameStart .., here, values⟩
  case stations =>
    intro t k x ran shown
    obtain rfl := Host.Outcome.next.inj ((exec_frameStart up found begun).symm.trans ran)
    have before : stationOf (atTick s (c.frameTick c.latched)) k = some x := by
      rw [stationOf_of_tl ((atTick_follows ..).tl (by decide)), shown]
    obtain ⟨y, here, bound, unbound, newLut, oldLut⟩ := station_frameStart (i := i) (n := c.latched) before
    refine ⟨y, here, ?_, newLut, oldLut⟩
    by_cases waits : ∃ m, m ≤ c.latched ∧ x.pendScene = some (i.val, m)
    · rw [if_pos waits]; exact bound waits
    · rw [if_neg waits]; exact unbound waits
  case render =>
    intro pipe q choice
    obtain ⟨b, mem, same, least⟩ := pipeChoice_tells choice
    obtain ⟨k, x, m, there, own, may, rfl⟩ := mem_candidates.mp mem
    obtain ⟨rfl, rfl⟩ := Prod.mk.inj same
    obtain ⟨window, fresh, unrendered⟩ := eligible_tells may
    obtain ⟨t, d, r, ran, tick, here, lines, frame, line⟩ := lineRender_of_choice up found choice
    refine ⟨⟨x, there, own, may, window, fresh, unrendered, fun j e n listed ownToo mayToo => ?_⟩,
      t, d, ran, tick, here, r, lines, frame, line⟩
    exact least _ (mem_candidates.mpr ⟨j, e, n, listed, ownToo, mayToo, rfl⟩)
  case commit =>
    intro r hit
    obtain ⟨d, here, fields⟩ := lineCommit_of_rendered found hit
    exact ⟨_, d, exec_lineCommit up found begun, tick_commitNext .., here, fields⟩
  case underrun =>
    intro miss visible
    obtain ⟨d, here, fields⟩ := lineCommit_of_unrendered found miss visible
    exact ⟨_, d, exec_lineCommit up found begun, tick_commitNext .., here, fields⟩
  case sob =>
    obtain ⟨d, here, fields⟩ := sob_takes ((sceneOf_atTick s (c.tickOf c.sobFrame c.height) i).trans found)
      (c.tickOf c.sobFrame c.height)
    exact ⟨_, d, exec_sob up found begun, ((raiseSob_follows ..).tick (by decide)).trans (tick_frameStart ..), here, fields⟩
  case fires =>
    intro comp m x
    refine ⟨fun off => ?_, fun on inside => ?_⟩
    · refine congrArg Host.Outcome.next ?_
      rw [found]
      refine if_pos ?_
      rw [awake_of_begun begun up, Bool.false_or]
      rcases off with dark | far
      · rw [show (Tab.get {} c.lm comp.val).en = false from dark]; rfl
      · rw [decide_eq_true far, Bool.or_true]
    · refine congrArg Host.Outcome.next ?_
      rw [found]
      refine (if_neg ?_).trans ?_
      · rw [awake_of_begun begun up, Bool.false_or, show (Tab.get {} c.lm comp.val).en = true from on,
          decide_eq_false (Nat.not_le.mpr inside)]
        exact Bool.false_ne_true
      · dsimp only
        rw [updScene_of_some _ ((sceneOf_atTick ..).trans found)]
        rfl
  case queue =>
    intro a low high out q
    have reached (f : State → State) : reach s a 0x20000080 (decide (2 ≤ a.val)) (running s islTP) false f = f s :=
      reach_of_allowed _ _ out (decide_eq_true (Nat.le_trans (by decide) low)) up
    refine ⟨fun empty => ?_, fun e x r queued => ?_⟩
    · refine congrArg Host.Outcome.next ((reached _).trans ?_)
      rw [evqRead, if_pos ⟨low, high⟩]
      dsimp only
      rw [show (Tab.get {} s.tp.evq (a.val - 3)).q = [] from empty]
    · obtain ⟨word, rest⟩ := evqRead_of_queued low high queued
      refine ⟨_, congrArg Host.Outcome.next (reached _), ?_, rest⟩
      exact List.getLast?_concat.trans (congrArg (fun w => some (Out.word a w)) word)
  case balance =>
    intro busy load hi lo of d may most least
    have pickHi := busiest_eq busy most
    have pickLo := idlest_eq busy least
    obtain ⟨u, isU, scenes, balRun, moves⟩ : ∃ u, onTp s (fun t => { t with busyPct := busyShares busy }) = u ∧
        u.tp.scenes = s.tp.scenes ∧ u.tp.balRun = s.tp.balRun ∧ u.tp.moves = s.tp.moves := ⟨_, rfl, rfl, rfl, rfl⟩
    have steps : exec (.balancerStep busy load) s = .next (balancerMove u hi lo d load) := by
      refine congrArg Host.Outcome.next ((if_neg (by rw [up]; exact Bool.false_ne_true)).trans ?_)
      rw [pickHi, pickLo, ← isU]
      rfl
    refine ⟨fun idle => ⟨u, ?_, scenes, moves⟩, fun run apart mayMove heaviest => ?_⟩
    · rw [steps, balancerMove_of_idle (balRun ▸ idle)]
    · have moved : pickScene u hi d load = some i.val := pickScene_of_heaviest
        (scenes ▸ Tab.mem_of_find? found) mayMove (fun k e other mem may' => heaviest k e other (scenes ▸ mem) may')
      have there : sceneOf (onTp u (fun t => { t with moves := satAdd t.moves 1 })) i = some c :=
        (show u.tp.scenes.find? i = some c from scenes ▸ found)
      refine ⟨_, steps.trans (congrArg Host.Outcome.next (balancerMove_of_pick (balRun.trans run) apart moved)), ?_,
        sceneOf_updScene_self there _, fun k other => ?_⟩
      · rw [updScene_of_some _ there, ← moves]
        rfl
      · rw [sceneOf_updScene_of_ne other, sceneOf, sceneOf, ← scenes]
        rfl

end Sys2Proof.Machine
end

section
/-! PROOFS. Register accesses (chapter 20 and the register sections of the others): the obligation O47. -/
open Sys2Proof

namespace Sys2Proof.Machine

/-! ### An access to a register area -/

/-- A register address: an aligned word of an area beside the mailboxes. -/
structure Placed (addr : Word) (x : Area) (o : Nat) : Prop where
  aligned : addr.toNat % 4 = 0
  beside : mailboxOffset addr.toNat = none
  area : areaOf addr.toNat = some (x, o)
  above : ¬ addr.toNat < 0x04000000

section
variable {s t : State} {a : Nat} {addr v w : Word} {x : Area} {o : Nat} {e : Err}

theorem Placed.base (place : Placed addr x o) : addr.toNat / 4 * 4 = addr.toNat :=
  Nat.div_mul_cancel (Nat.dvd_of_mod_eq_zero place.aligned)

theorem regRead_of_ok (place : Placed addr x o) (fabric : a ≠ 1) (gives : areaRead s a o x = (t, .ok w)) :
    regRead s a addr true = emit t (.word a w) := by
  unfold regRead
  dsimp only
  rw [if_neg fabric, place.base, place.beside]
  dsimp only
  rw [if_pos (by rw [decide_eq_true place.aligned]; rfl), fabricRead, place.area]
  dsimp only
  rw [gives]

theorem regRead_of_error (place : Placed addr x o) (fabric : a ≠ 1) (gives : areaRead s a o x = (t, .error e)) :
    regRead s a addr true = errTo t a addr.toNat false false e := by
  unfold regRead
  dsimp only
  rw [if_neg fabric, place.base, place.beside]
  dsimp only
  rw [if_pos (by rw [decide_eq_true place.aligned]; rfl), fabricRead, place.area]
  dsimp only
  rw [gives]
  dsimp only
  rw [decide_eq_false place.above]

theorem regWrite_of_ok (place : Placed addr x o) (fabric : a ≠ 1) (gives : areaWrite s a o v x = (t, none)) :
    regWrite s a addr 0xF v = t := by
  unfold regWrite
  dsimp only
  rw [if_neg fabric, place.base, place.beside]
  dsimp only
  rw [if_pos (by rw [decide_eq_true place.aligned]; rfl), fabricWrite, place.area]
  dsimp only
  rw [gives]

theorem regWrite_of_error (place : Placed addr x o) (fabric : a ≠ 1) (gives : areaWrite s a o v x = (t, some e)) :
    regWrite s a addr 0xF v = errTo t a addr.toNat false true e := by
  unfold regWrite
  dsimp only
  rw [if_neg fabric, place.base, place.beside]
  dsimp only
  rw [if_pos (by rw [decide_eq_true place.aligned]; rfl), fabricWrite, place.area]
  dsimp only
  rw [gives]
  dsimp only
  rw [decide_eq_false place.above]

/-- An access that no register can take: not an aligned word, or at no area's address. -/
theorem regRead_of_unmapped {aligned : Bool} (beside : mailboxOffset (addr.toNat / 4 * 4) = none) (fabric : a ≠ 1)
    (lost : aligned = false ∨ addr.toNat % 4 ≠ 0 ∨ areaOf (addr.toNat / 4 * 4) = none) :
    regRead s a addr aligned = errTo s a addr.toNat (decide (addr.toNat / 4 * 4 < 0x04000000)) false .unmapped := by
  have nothing : (if (aligned && decide (addr.toNat % 4 = 0)) = true then fabricRead s a (addr.toNat / 4 * 4)
      else (s, .error .unmapped)) = (s, .error .unmapped) := by
    split
    · next word =>
      rw [Bool.and_eq_true, decide_eq_true_eq] at word
      rcases lost with off | off | off
      · exact absurd (off.symm.trans word.1) Bool.false_ne_true
      · exact absurd word.2 off
      · rw [fabricRead, off]
    · rfl
  unfold regRead
  dsimp only
  rw [if_neg fabric, beside]
  dsimp only
  rw [nothing]

theorem regWrite_of_unmapped {sel : BitVec 4} (beside : mailboxOffset (addr.toNat / 4 * 4) = none) (fabric : a ≠ 1)
    (lost : sel ≠ 0xF ∨ addr.toNat % 4 ≠ 0 ∨ areaOf (addr.toNat / 4 * 4) = none) :
    regWrite s a addr sel v = errTo s a addr.toNat (decide (addr.toNat / 4 * 4 < 0x04000000)) true .unmapped := by
  have nothing : (if (decide (sel = 15) && decide (addr.toNat % 4 = 0)) = true then fabricWrite s a (addr.toNat / 4 * 4) v
      else (s, some .unmapped)) = (s, some .unmapped) := by
    split
    · next word =>
      rw [Bool.and_eq_true, decide_eq_true_eq, decide_eq_true_eq] at word
      rcases lost with off | off | off
      · exact absurd word.1 off
      · exact absurd word.2 off
      · rw [fabricWrite, off]
    · rfl
  unfold regWrite
  dsimp only
  rw [if_neg fabric, beside]
  dsimp only
  rw [nothing]

end

/-! ### The addresses of the registers -/

/-- A register address by its number. -/
theorem placed_of_nat {ad : Nat} {x : Area} {o : Nat} (aligned : ad % 4 = 0) (small : ad < 2 ^ 32)
    (above : 0x04000000 ≤ ad) (beside : mailboxOffset ad = none) (area : areaOf ad = some (x, o)) :
    Placed (BitVec.ofNat 32 ad) x o := by
  have same : (BitVec.ofNat 32 ad).toNat = ad := by rw [BitVec.toNat_ofNat, Nat.mod_eq_of_lt small]
  constructor <;> rw [same]
  · exact aligned
  · exact beside
  · exact area
  · exact Nat.not_lt.mpr above

theorem placed_sys (k : Fin 16) : Placed (BitVec.ofNat 32 (0x2F000000 + 4 * k)) .sys (4 * k) := by
  have area : ∀ k : Fin 16, areaOf (0x2F000000 + 4 * k) = some (.sys, 4 * k.val) := by decide
  exact placed_of_nat (by omega) (by omega) (by omega) (if_neg (by omega)) (area k)

theorem placed_bank (b : Fin 4) (k : Fin 8) :
    Placed (BitVec.ofNat 32 (0x26080000 + 0x1000 * b + 4 * k)) .bs (0x1000 * b + 4 * k) := by
  have area : ∀ b : Fin 4, ∀ k : Fin 8, areaOf (0x26080000 + 0x1000 * b + 4 * k) = some (.bs, 0x1000 * b.val + 4 * k.val) := by
    decide
  exact placed_of_nat (by omega) (by omega) (by omega) (if_neg (by omega)) (area b k)

theorem placed_island (i : Fin 16) (k : Fin 8) :
    Placed (BitVec.ofNat 32 (0x27000000 + 0x100 * i + 4 * k)) .isl (0x100 * i + 4 * k) := by
  have area : ∀ i : Fin 16, ∀ k : Fin 8, areaOf (0x27000000 + 0x100 * i + 4 * k) = some (.isl, 0x100 * i.val + 4 * k.val) := by
    decide
  exact placed_of_nat (by omega) (by omega) (by omega) (if_neg (by omega)) (area i k)

theorem placed_win : Placed (BitVec.ofNat 32 0x25030000) .win 0 :=
  placed_of_nat (by decide) (by decide) (by decide) (by decide) (by decide)

theorem placed_guards (j : Fin 64) : Placed (BitVec.ofNat 32 (0x25030100 + 4 * j)) .win (0x100 + 4 * j) := by
  have area : ∀ j : Fin 64, areaOf (0x25030100 + 4 * j) = some (.win, 0x100 + 4 * j.val) := by decide
  exact placed_of_nat (by omega) (by omega) (by omega) (if_neg (by omega)) (area j)

/-! ### What the registers answer -/

theorem ofNat_fld (v : Word) (lo n : Nat) : BitVec.ofNat n (fld v lo n) = v.extractLsb' lo n := by
  apply BitVec.eq_of_toNat_eq
  rw [BitVec.toNat_ofNat, fld, Nat.mod_mod, BitVec.extractLsb'_toNat]

section
variable {s : State} {a : Nat} {v : Word}

theorem areaRead_bank (fw : fwAgent a = true) {b : Fin 4} (up : running s (islBank b) = true) (k : Fin 8) :
    areaRead s a (0x1000 * b + 4 * k) .bs = ((bankRead s b (4 * k)).1, .ok (bankRead s b (4 * k)).2) := by
  have base : (0x1000 * b.val + 4 * k) / 0x1000 = b := by omega
  have rest : (0x1000 * b.val + 4 * k) % 0x1000 = 4 * k := by omega
  show bsRead s a _ = _
  rw [bsRead, if_neg (by omega), base, rest, guardR, fw, up]
  rfl

theorem areaRead_bank_of_down (fw : fwAgent a = true) {b : Fin 4} (down : running s (islBank b) = false) (k : Fin 8) :
    areaRead s a (0x1000 * b + 4 * k) .bs = (s, .error .fenced) := by
  have base : (0x1000 * b.val + 4 * k) / 0x1000 = b := by omega
  show bsRead s a _ = _
  rw [bsRead, if_neg (by omega), base, guardR, fw, down]
  rfl

theorem areaRead_bank_of_other (other : fwAgent a = false) (b : Fin 4) (k : Fin 8) :
    areaRead s a (0x1000 * b + 4 * k) .bs = (s, .error .unmapped) := by
  show bsRead s a _ = _
  rw [bsRead, if_neg (by omega), guardR, other]
  rfl

theorem areaWrite_bank (fw : fwAgent a = true) {b : Fin 4} (up : running s (islBank b) = true) (k : Fin 8) :
    areaWrite s a (0x1000 * b + 4 * k) v .bs =
      (if a = 2 ∧ s.sys.mode = mSERVICE then bankWrite s b (4 * k) v else s, none) := by
  have base : (0x1000 * b.val + 4 * k) / 0x1000 = b := by omega
  have rest : (0x1000 * b.val + 4 * k) % 0x1000 = 4 * k := by omega
  show bsWrite s a _ v = _
  rw [bsWrite, if_neg (by omega), base, rest, guardW, fw, up]
  rfl

/-- A write of BS_INJECT (R236). -/
theorem injectWrite (s : State) (a b : Nat) (v : Word) :
    (if a = 2 ∧ s.sys.mode = mSERVICE then bankWrite s b 0x18 v else s) = if a ≠ 2 ∨ s.sys.mode ≠ 6 then s
      else updBank s b (fun x => { x with
        checkFlip := v.setWidth 8, dataBitA := v.extractLsb' 8 6, enA := v.getLsbD 14,
        dataBitB := v.extractLsb' 16 6, enB := v.getLsbD 22, arm := v.getLsbD 31 }) := by
  by_cases may : a = 2 ∧ s.sys.mode = mSERVICE
  · rw [if_pos may, if_neg (by
      rintro (other | other)
      · exact other may.1
      · exact other may.2), bankWrite, if_pos rfl, ofNat_fld, ofNat_fld]
    rfl
  · rw [if_neg may, if_pos (by
      by_contra both
      exact may ⟨by_contra fun h => both (.inl h), by_contra fun h => both (.inr h)⟩)]

theorem areaWrite_bank_of_down (fw : fwAgent a = true) {b : Fin 4} (down : running s (islBank b) = false) (k : Fin 8) :
    areaWrite s a (0x1000 * b + 4 * k) v .bs = (s, some .fenced) := by
  have base : (0x1000 * b.val + 4 * k) / 0x1000 = b := by omega
  show bsWrite s a _ v = _
  rw [bsWrite, if_neg (by omega), base, guardW, fw, down]
  rfl

theorem areaWrite_bank_of_other (other : fwAgent a = false) (b : Fin 4) (k : Fin 8) :
    areaWrite s a (0x1000 * b + 4 * k) v .bs = (s, some .unmapped) := by
  show bsWrite s a _ v = _
  rw [bsWrite, if_neg (by omega), guardW, other]
  rfl

theorem areaRead_isl (fw : fwAgent a = true) (o : Nat) : areaRead s a o .isl = ((isRead s o).1, .ok (isRead s o).2) := by
  show guardR (fwAgent a) true s (fun s => isRead s o) = _
  rw [guardR, fw]
  rfl

theorem areaWrite_isl (fw : fwAgent a = true) (o : Nat) : areaWrite s a o v .isl = (isWrite s a o v, none) := by
  show guardW (fwAgent a) true s (fun s => isWrite s a o v) = _
  rw [guardW, fw]
  rfl

theorem areaRead_win (fw : fwAgent a = true) (o : Nat) : areaRead s a o .win = ((winRead s o).1, .ok (winRead s o).2) := by
  show guardR (fwAgent a) true s (fun s => winRead s o) = _
  rw [guardR, fw]
  rfl

theorem areaWrite_win (fw : fwAgent a = true) (o : Nat) : areaWrite s a o v .win = (winWrite s o v, none) := by
  show guardW (fwAgent a) true s (fun s => winWrite s o v) = _
  rw [guardW, fw]
  rfl

theorem areaRead_sys (o : Nat) : areaRead s a o .sys = ((sysRead s a o).1, .ok (sysRead s a o).2) := rfl

theorem areaRead_island (fw : fwAgent a = true) (i : Fin 16) (k : Fin 8) :
    areaRead s a (0x100 * i + 4 * k) .isl =
      (updIsl s i (fun x => x.readClear s.tick (4 * k)), .ok (islandWord s i (4 * k))) := by
  have base : (0x100 * i.val + 4 * k) / 0x100 = i := by omega
  have rest : (0x100 * i.val + 4 * k) % 0x100 = 4 * k := by omega
  rw [areaRead_isl fw, isRead, if_pos (by omega), base, rest]

theorem areaRead_island_of_other (other : fwAgent a = false) (o : Nat) : areaRead s a o .isl = (s, .error .unmapped) := by
  show guardR (fwAgent a) true s (fun s => isRead s o) = _
  rw [guardR, other]
  rfl

theorem areaWrite_floor (fw : fwAgent a = true) (i : Fin 16) : areaWrite s a (0x100 * i + 0xC) v .isl =
    (updIsl s i (fun x => { x with floorMhz := v.extractLsb' 16 12 }), none) := by
  have base : (0x100 * i.val + 0xC) / 0x100 = i := by omega
  have rest : (0x100 * i.val + 0xC) % 0x100 = 0xC := by omega
  rw [areaWrite_isl fw, isWrite, if_neg (by omega), base, rest, if_neg (by decide), if_pos rfl, ofNat_fld]

/-- A write of a guard register sets the guards of its 16 pages (R148). -/
theorem winWrite_guards (s : State) (j : Fin 64) (v : Word) :
    ∃ g, winWrite s (0x100 + 4 * j) v = { s with win := { s.win with guards := g } } ∧
      ∀ p, Tab.get 0 g p = if p / 16 = j.val then v.extractLsb' (2 * (p % 16)) 2 else Tab.get 0 s.win.guards p := by
  have base : (0x100 + 4 * j.val - 0x100) / 4 = j := by omega
  rw [winWrite, if_neg (by omega), if_pos (by omega), base]
  have steps (n : Nat) (le : n ≤ 16) : ∃ g, (List.range n).foldl (fun s k =>
      setGuards s (16 * j.val + k) 1 (BitVec.ofNat 2 (fld v (2 * k) 2))) s = { s with win := { s.win with guards := g } } ∧
      ∀ p, Tab.get 0 g p = if p / 16 = j.val ∧ p % 16 < n then v.extractLsb' (2 * (p % 16)) 2
        else Tab.get 0 s.win.guards p := by
    induction n with
    | zero => exact ⟨s.win.guards, rfl, fun p => by rw [if_neg (by omega)]⟩
    | succ n ih =>
      obtain ⟨g, done, pages⟩ := ih (by omega)
      rw [List.range_succ, List.foldl_append, done]
      refine ⟨_, rfl, fun p => ?_⟩
      have set := guards_setGuards { s with win := { s.win with guards := g } } (16 * j.val + n) 1
        (BitVec.ofNat 2 (fld v (2 * n) 2)) p
      refine set.trans ?_
      by_cases own : p = 16 * j.val + n
      · rw [if_pos (by omega), if_pos (by omega), show p % 16 = n by omega, ofNat_fld]
      · rw [if_neg (by omega)]
        exact (pages p).trans (if_congr (by omega) rfl rfl)
  obtain ⟨g, done, pages⟩ := steps 16 (Nat.le_refl _)
  exact ⟨g, done, fun p => (pages p).trans (if_congr (by omega) rfl rfl)⟩

end

theorem sysWrite_cause (s : State) (a : Nat) (v : Word) : sysWrite s a 0x24 v =
    if running s islLK = true ∧ a = 2 then
      { s with sys := { s.sys with resetCause := s.sys.resetCause &&& ~~~ v.setWidth 9 } } else s := by
  unfold sysWrite
  by_cases up : running s islLK = true
  · rw [if_neg (by rw [up]; exact Bool.false_ne_true)]
    by_cases lk : a = 2
    · rw [if_pos ⟨rfl, lk⟩, if_pos ⟨up, lk⟩]
      rfl
    · rw [if_neg (fun h => lk h.2), if_neg (fun h => absurd h.1 (by decide)), if_neg (fun h => lk h.2)]
  · rw [if_pos (by rw [(Bool.not_eq_true _).mp up]; rfl)]
    exact (if_neg (fun h => up h.1)).symm

theorem fwAgent_iff (a : Nat) : fwAgent a = true ↔ a = 2 ∨ a = 15 := by
  rw [fwAgent, Bool.or_eq_true, decide_eq_true_eq, decide_eq_true_eq]

theorem sysWrite_tried (s : State) (a : Nat) (v : Word) : sysWrite s a 0x2C v =
    if running s islLK = true ∧ (a = 2 ∨ a = 15) then
      { s with sys := { s.sys with triedA := v.getLsbD 0, triedB := v.getLsbD 1 } } else s := by
  unfold sysWrite
  by_cases up : running s islLK = true
  · rw [if_neg (by rw [up]; exact Bool.false_ne_true), if_neg (fun h => absurd h.1 (by decide))]
    by_cases fw : a = 2 ∨ a = 15
    · rw [if_pos ⟨rfl, (fwAgent_iff a).mpr fw⟩, if_pos ⟨up, fw⟩]
      rfl
    · rw [if_neg (fun h => fw ((fwAgent_iff a).mp h.2)), if_neg (fun h => fw h.2)]
  · rw [if_pos (by rw [(Bool.not_eq_true _).mp up]; rfl)]
    exact (if_neg (fun h => up h.1)).symm

/-- The next tick whose low word is `m`, where the clock does not run out before it. -/
theorem tick_nextMatch {s : State} (m : Word) (far : s.tick.toNat + 2 ^ 32 ≤ 2 ^ 64) :
    s.tick.toNat ≤ (atTick s (nextMatch s m)).tick.toNat ∧ (atTick s (nextMatch s m)).tick.setWidth 32 = m := by
  have gap : (m - s.tick.setWidth 32).toNat = (2 ^ 32 - s.tick.toNat % 2 ^ 32 + m.toNat) % 2 ^ 32 := by
    rw [BitVec.toNat_sub, BitVec.toNat_setWidth]
  have small := m.isLt
  have at' : (atTick s (nextMatch s m)).tick.toNat = s.tick.toNat + (m - s.tick.setWidth 32).toNat := by
    unfold atTick nextMatch
    split
    · show (BitVec.ofNat 64 _).toNat = _
      rw [BitVec.toNat_ofNat]
      exact Nat.mod_eq_of_lt (by show s.tick.toNat + (m - s.tick.setWidth 32).toNat < _; omega)
    · next past =>
      have zero : (m - s.tick.setWidth 32).toNat = 0 := by
        have past' : ¬ s.tick.toNat < s.tick.toNat + (m - s.tick.setWidth 32).toNat := past
        omega
      rw [zero, Nat.add_zero]
  refine ⟨by omega, BitVec.eq_of_toNat_eq ?_⟩
  rw [BitVec.toNat_setWidth, at', gap]
  omega

theorem privSrc_timer (s : State) (t i n : Nat) : privSrc (raisePriv (atTick s t) n i) n i = (privSrc s n i).events 1 := by
  unfold raisePriv
  rw [privSrc_updPriv_self, privSrc, (atTick_follows ..).intc (by decide), privSrc]

/-! ### The obligation -/

theorem exec_read_of_out {s : State} {a : Agent} (out : agentOut s a = true) (addr : Word) (aligned : Bool) :
    exec (.rcFieldRead a addr aligned) s = .next (regRead s a addr aligned) :=
  congrArg Host.Outcome.next (issue_of_out out _)

theorem exec_write_of_out {s : State} {a : Agent} (out : agentOut s a = true) (addr : Word) (sel : BitVec 4) (v : Word) :
    exec (.registerWrite a addr sel v) s = .next (regWrite s a addr sel v) :=
  congrArg Host.Outcome.next (issue_of_out out _)

/-- Settles O47: each register access goes to its area by its address, and the area answers by the access code. -/
theorem registersFollowTheirAccessCodes : Obligations.RegistersFollowTheirAccessCodes := by
  intro a addr v b i j n s read write basin tells x y bank own deck up
  have one : a = 1 ↔ a.val = 1 := Fin.ext_iff
  refine ⟨?silent, ?unmapped, ?host, ?tick, ?sys, ?barred, ?firmware, ?timer, ?noTimer, ?lkTimer, ?noLkTimer,
    ?noHeart, ?heart, ?barredHeart⟩
  case silent =>
    intro quiet aligned sel
    exact ⟨congrArg Host.Outcome.next (issue_of_not_out quiet _), congrArg Host.Outcome.next (issue_of_not_out quiet _),
      congrArg Host.Outcome.next (issue_of_not_out quiet _)⟩
  case unmapped =>
    intro out fabric beside
    exact ⟨fun aligned lost => (exec_read_of_out out ..).trans
      (congrArg Host.Outcome.next (regRead_of_unmapped beside fabric lost)), fun sel lost => (exec_write_of_out out ..).trans
      (congrArg Host.Outcome.next (regWrite_of_unmapped beside fabric lost))⟩
  case host =>
    intro host shut aligned sel
    have quiet (f : State → State) (stays : ∀ u, hostReach u = false → f u = u) : issue s a f = s := by
      unfold issue
      split
      · exact stays s shut
      · rfl
    refine ⟨congrArg Host.Outcome.next (quiet _ fun u off => ?_), congrArg Host.Outcome.next (quiet _ fun u off => ?_),
      congrArg Host.Outcome.next (quiet _ fun u off => ?_)⟩
    · unfold regRead
      dsimp only
      rw [if_pos host, if_neg (by rw [off]; exact Bool.false_ne_true)]
    · unfold regWrite
      dsimp only
      rw [if_pos host, if_neg (by rw [off]; exact Bool.false_ne_true)]
    · rw [if_pos]
      rw [off, decide_eq_true (one.mpr host)]
      rfl
  case tick =>
    intro out reach
    have open' : ¬ (decide (a = 1) && !hostReach s) = true := by
      rcases reach with other | host
      · rw [decide_eq_false (fun e => other (one.mp e))]; exact Bool.false_ne_true
      · rw [host, Bool.not_true, Bool.and_false]; exact Bool.false_ne_true
    exact ⟨_, congrArg Host.Outcome.next ((issue_of_out out _).trans (if_neg open')), rfl, Tab.get_set_self ..⟩
  case sys =>
    intro fabric
    have fabric' : ¬ (decide (a = 1) && !hostReach s) = true := by
      rw [decide_eq_false (fun e => fabric (one.mp e))]
      exact Bool.false_ne_true
    have reads (out : agentOut s a = true) (k : Fin 16) : exec (read (0x2F000000 + 4 * k)) s =
        .next (tells (sysRead s a (4 * k)).2 (sysRead s a (4 * k)).1) :=
      (exec_read_of_out out ..).trans (congrArg Host.Outcome.next (regRead_of_ok (placed_sys k) fabric (areaRead_sys _)))
    have writes (k : Fin 16) : exec (write (0x2F000000 + 4 * k)) s =
        .next (if agentOut s a = true then sysWrite s a (4 * k) v else s) := by
      by_cases out : agentOut s a = true
      · rw [if_pos out]
        exact (exec_write_of_out out ..).trans (congrArg Host.Outcome.next (regWrite_of_ok (placed_sys k) fabric rfl))
      · rw [if_neg out]
        exact congrArg Host.Outcome.next (issue_of_not_out ((Bool.not_eq_true _).mp out) _)
    have sends (runs : running s islLK = true) (who : a.val = 2 ∨ a.val = 15) : agentOut s a = true := by
      unfold agentOut
      rcases who with lk | debug
      · rw [lk]; exact runs
      · rw [debug]; rfl
    refine ⟨?_, fun out => ⟨reads out 1, reads out 9⟩, ?_, ?_⟩
    · by_cases out : agentOut s a = true
      · refine (reads out 0).trans (congrArg Host.Outcome.next ?_)
        rw [issue_of_out out, if_neg fabric']
        rfl
      · have quiet := (Bool.not_eq_true _).mp out
        exact (congrArg Host.Outcome.next (issue_of_not_out quiet _)).trans
          (congrArg Host.Outcome.next (issue_of_not_out quiet _)).symm
    · refine (writes 9).trans (congrArg Host.Outcome.next ?_)
      refine (if_congr Iff.rfl (sysWrite_cause s a v) rfl).trans ?_
      by_cases acts : running s islLK = true ∧ a.val = 2
      · rw [if_pos (sends acts.1 (.inl acts.2))]
      · rw [if_neg acts, ite_self]
    · refine (writes 11).trans (congrArg Host.Outcome.next ?_)
      refine (if_congr Iff.rfl (sysWrite_tried s a v) rfl).trans ?_
      by_cases acts : running s islLK = true ∧ (a.val = 2 ∨ a.val = 15)
      · rw [if_pos (sends acts.1 acts.2)]
      · rw [if_neg acts, ite_self]
  case barred =>
    intro out fabric notLk notDebug
    have other : fwAgent a = false := by
      rw [fwAgent, decide_eq_false notLk, decide_eq_false notDebug]
      rfl
    have refused (t : State) (ad : Nat) (store : Bool) : errTo t a ad false store .unmapped = emit t (.error a .unmapped) :=
      errTo_of_ne notLk ..
    refine ⟨?_, ?_, ?_⟩
    · refine (exec_read_of_out out ..).trans (congrArg Host.Outcome.next ?_)
      exact (regRead_of_error (placed_bank b 0) fabric (areaRead_bank_of_other other b 0)).trans (refused ..)
    · refine (exec_write_of_out out ..).trans (congrArg Host.Outcome.next ?_)
      exact (regWrite_of_error (placed_bank b 6) fabric (areaWrite_bank_of_other other b 6)).trans (refused ..)
    · refine (exec_read_of_out out ..).trans (congrArg Host.Outcome.next ?_)
      exact (regRead_of_error (placed_island i 0) fabric (areaRead_island_of_other other _)).trans (refused ..)
  case firmware =>
    intro out who
    have fabric : a.val ≠ 1 := by omega
    have fw : fwAgent a = true := by
      exact (fwAgent_iff _).mpr who
    have reads {ad : Nat} {w : Word} {t : State} {x : Area} {o : Nat} (place : Placed (BitVec.ofNat 32 ad) x o)
        (gives : areaRead s a o x = (t, .ok w)) : exec (read ad) s = .next (tells w t) :=
      (exec_read_of_out out ..).trans (congrArg Host.Outcome.next (regRead_of_ok place fabric gives))
    have writes {ad : Nat} {t : State} {x : Area} {o : Nat} (place : Placed (BitVec.ofNat 32 ad) x o)
        (gives : areaWrite s a o v x = (t, none)) : exec (write ad) s = .next t :=
      (exec_write_of_out out ..).trans (congrArg Host.Outcome.next (regWrite_of_ok place fabric gives))
    have number {ad : Nat} (small : ad < 2 ^ 32) : (BitVec.ofNat 32 ad).toNat = ad := by
      rw [BitVec.toNat_ofNat, Nat.mod_eq_of_lt small]
    refine ⟨fun down => ⟨?_, ?_⟩, fun up => ⟨?_, ?_, ?_, ?_⟩, ?_, ?_, ?_, ?_, ?_, fun none' => ?_, ?_⟩
    · refine (exec_read_of_out out ..).trans (congrArg Host.Outcome.next ?_)
      exact (regRead_of_error (placed_bank b 0) fabric (areaRead_bank_of_down fw down 0)).trans
        (congrArg (errTo s a · false false .fenced) (number (by omega)))
    · refine (exec_write_of_out out ..).trans (congrArg Host.Outcome.next ?_)
      exact (regWrite_of_error (placed_bank b 6) fabric (areaWrite_bank_of_down fw down 6)).trans
        (congrArg (errTo s a · false true .fenced) (number (by omega)))
    · exact reads (placed_bank b 0) (areaRead_bank fw up 0)
    · exact reads (placed_bank b 1) (areaRead_bank fw up 1)
    · refine (writes (placed_bank b 6) (areaWrite_bank fw up 6)).trans (congrArg Host.Outcome.next ?_)
      exact injectWrite ..
    · refine (writes (placed_bank b 0) (areaWrite_bank fw up 0)).trans (congrArg Host.Outcome.next ?_)
      exact ite_self _
    · exact reads (placed_island i 1) (areaRead_island fw i 1)
    · exact reads (placed_island i 6) (areaRead_island fw i 6)
    · exact reads (placed_island i 5) (areaRead_island fw i 5)
    · exact writes (placed_island i 3) (areaWrite_floor fw i)
    · exact reads placed_win (areaRead_win fw 0)
    · refine writes placed_win ((areaWrite_win fw _).trans ?_)
      rw [winWrite, if_pos rfl, onWin, if_pos none']
    · obtain ⟨g, done, pages⟩ := winWrite_guards s j v
      refine ⟨_, writes (placed_guards j) ((areaWrite_win fw _).trans (by rw [done])), rfl, pages⟩
  case timer =>
    intro runs
    refine ⟨_, congrArg Host.Outcome.next (if_pos runs), fun far => ?_, privSrc_timer ..⟩
    exact tick_nextMatch (coreOf s n).timer far
  case noTimer =>
    intro down
    exact congrArg Host.Outcome.next (if_neg (by rw [down]; exact Bool.false_ne_true))
  case lkTimer =>
    intro runs
    refine ⟨_, congrArg Host.Outcome.next (if_pos runs), fun far => ?_, privSrc_timer ..⟩
    exact tick_nextMatch s.sys.lkTimer far
  case noLkTimer =>
    intro down
    exact congrArg Host.Outcome.next (if_neg (by rw [show running s islLK = false from down]; exact Bool.false_ne_true))
  case noHeart =>
    intro quiet
    exact congrArg Host.Outcome.next (issue_of_not_out quiet _)
  case heart =>
    intro out who
    have may : dhReach a n = true := by
      simp only [dhReach, Bool.or_eq_true, decide_eq_true_eq]
      omega
    refine ⟨fun runs => ?_, fun down => congrArg Host.Outcome.next (reach_of_fenced _ _ out may down)⟩
    exact ⟨_, congrArg Host.Outcome.next (reach_of_allowed _ _ out may runs), coreOf_updCore_self .., (OnlyCore.refl s n).updCore _⟩
  case barredHeart =>
    intro out notLk notDebug notOwn
    have mayNot : dhReach a n = false := by
      simp only [dhReach, Bool.or_eq_false_iff, decide_eq_false_iff_not]
      omega
    exact congrArg Host.Outcome.next ((reach_of_barred _ _ out mayNot).trans (errTo_of_ne notLk ..))

end Sys2Proof.Machine
end

section
/-! PROOFS. The stations' exchange of frames (chapter 13, R514 to R546): the obligation O42, which fails for a watch
entry whose signal is above 31. -/
open Sys2Proof

namespace Sys2Proof.Machine

/-- A station that has started, and has no input in this cycle. -/
def startedStation : Station :=
  { addr := 0, home := 0, wash := none, scene := 0, fmt := 0, outLen := 0, inLen := 0, hold := 0, panelW := 0, panelH := 0,
    started := true }

/-- A watch entry on the station's record, for the Lockkeeper's signal 35: the private sources stand 32 to a target,
so its source is source 3 of target 1. -/
def highSignal : Watch := { cb := 0x00300000, signal := 35, consumer := 2 }

/-- A state before the input cut of cycle 0, with that station and that watch entry. -/
def watchedState : State :=
  { tl := { cyc := { begun := true, cutDone := false }, stations := [(0, startedStation)] }
    intc := { watch := [(0, highSignal)] } }

/-- The cut writes the station's record, which signals the watch entry's source, and then signals each Deckhand. -/
theorem inputCut_watchedState : ∃ u, exec .inputCut watchedState = .next u ∧ (privSrc u 1 3).count = 2 :=
  ⟨_, rfl, by decide +kernel⟩

/-- Refutes O42: in `watchedState` no watch entry has signal 3, and yet source 3 of Deckhand 0 receives two events at
the cut, the second from signal 35 of the target before it. -/
theorem not_stationsExchangeTheirFrames : ¬ Obligations.StationsExchangeTheirFrames := by
  intro holds
  obtain ⟨-, -, -, -, cuts, -⟩ := holds 0 0 ⟨[], 0, true⟩ startedStation watchedState
  obtain ⟨t, cut, -, -, events, -⟩ := cuts rfl rfl
  obtain ⟨u, ran, twice⟩ := inputCut_watchedState
  obtain rfl : t = u := Host.Outcome.next.inj (cut.symm.trans ran)
  have once : privSrc t 1 3 = (privSrc watchedState 1 3).events 1 := events 0 (by decide) (by decide)
  rw [once] at twice
  exact absurd twice (by decide)

end Sys2Proof.Machine
end

section
/-! PROOFS. The blitter (chapter 09, R386 to R402): what its runs store in a Basin without an error, its
STATUS, its CONS and its fence, and the obligation O36. -/

open Sys2Proof

namespace Sys2Proof.Machine

/-! ### Strokes on a Basin without an error -/

/-- No doubleword has an error, every bank runs, and no injection is armed. -/
structure Sound (s : State) : Prop where
  clean : ∀ d, CleanDw s d
  up : ∀ a, running s (islBank (bankOf a)) = true
  unarmed : ∀ a, (bankRegs s (bankOf a)).arm = false

/-- What is laid over Basin's bytes: none where a byte stays. -/
abbrev Stroke := Nat → Option Byte

/-- A stroke was laid over a sound Basin, which is sound again; the firmware's tables stand, and no
record is staged. -/
structure Painted (w : Stroke) (s t : State) : Prop where
  bytes : ∀ x, Memory.byte t.basin.bytes x = (w x).getD (Memory.byte s.basin.bytes x)
  sound : Sound t
  fw : t.fw = s.fw
  staging : t.staging = s.staging

/-- Nothing is laid. -/
def Stroke.blank : Stroke := fun _ => none

/-- The later of two strokes lies over the earlier. -/
def Stroke.over (v w : Stroke) : Stroke := fun x => (v x).or (w x)

/-- Some bytes from an address on. -/
def Stroke.row (a : Nat) (b : List (Option Byte)) : Stroke := fun x =>
  if a ≤ x then b.getD (x - a) none else none

theorem Sound.refl {s : State} (h : Sound s) : Painted .blank s s := ⟨fun _ => rfl, h, rfl, rfl⟩

theorem Painted.trans {v w : Stroke} {s t u : State} (h : Painted w s t) (g : Painted v t u) :
    Painted (v.over w) s u := by
  refine ⟨fun x => ?_, g.sound, g.fw.trans h.fw, g.staging.trans h.staging⟩
  rw [g.bytes, h.bytes, Stroke.over]
  cases v x <;> rfl

theorem Painted.congr {v w : Stroke} {s t : State} (h : Painted w s t) (same : ∀ x, v x = w x) :
    Painted v s t := by
  rwa [show v = w from funext same]

/-- What keeps Basin, the islands and the tables keeps a stroke. -/
theorem Painted.of_same {w : Stroke} {s t u : State} (h : Painted w s t) (basin : u.basin = t.basin)
    (islands : u.islands = t.islands) (fw : u.fw = t.fw) (staging : u.staging = t.staging) :
    Painted w s u := by
  refine ⟨fun x => by rw [basin]; exact h.bytes x, ⟨fun d => ?_, fun a => ?_, fun a => ?_⟩,
    fw.trans h.fw, staging.trans h.staging⟩
  · simpa only [CleanDw, dwTag, dwSynd, basin] using h.sound.clean d
  · rw [running_of_islands islands]
    exact h.sound.up a
  · simpa only [bankRegs, basin] using h.sound.unarmed a

/-- Two parts of a row, one after the other. -/
theorem Stroke.row_append (a : Nat) (b c : List (Option Byte)) (x : Nat) :
    ((Stroke.row (a + b.length) c).over (Stroke.row a b)) x = Stroke.row a (b ++ c) x := by
  simp only [Stroke.over, Stroke.row, List.getD_eq_getElem?_getD, List.getElem?_append]
  by_cases before : a ≤ x
  · by_cases first : x < a + b.length
    · rw [if_neg (by omega), if_pos before, if_pos before, if_pos (by omega), Option.none_or]
    · rw [if_pos (by omega), if_pos before, if_pos before, if_neg (by omega),
        List.getElem?_eq_none (l := b) (by omega), Nat.sub_sub]
      exact Option.or_none
  · rw [if_neg (by omega), if_neg before, if_neg before, Option.or_none]

/-! ### Reading -/

theorem setTag_of_sound {s : State} (h : Sound s) (d : Nat) : Painted .blank s (setTag s d {}) :=
  ⟨fun _ => rfl, ⟨fun x => (h.clean x).setTag d, h.up, h.unarmed⟩, rfl, rfl⟩

theorem readDws_of_sound {s : State} (h : Sound s) (fuel agent a n : Nat) :
    ∃ t b, readDws fuel s agent a n = (t, some b) ∧ Painted .blank s t := by
  induction fuel generalizing s a n with
  | zero => exact ⟨s, [], rfl, h.refl⟩
  | succ fuel ih =>
    by_cases empty : n = 0
    · exact ⟨s, [], if_pos empty, h.refl⟩
    have first := setTag_of_sound h (a / 8)
    obtain ⟨t, b, rest, later⟩ := ih first.sound (a + min (8 - a % 8) n) (n - min (8 - a % 8) n)
    refine ⟨t, (((leBytes 8 (dwData s (a / 8)).toNat).drop (a % 8)).take (min (8 - a % 8) n)) ++ b, ?_,
      (first.trans later).congr (v := .blank) fun _ => rfl⟩
    simp only [readDws, empty, if_false, fetchDw_of_clean (h.clean (a / 8)).1 (h.clean (a / 8)).2,
      rest]

theorem readReq_of_sound {s : State} (h : Sound s) (agent a n : Nat) :
    ∃ t b, readReq s agent a n = (t, .ok b) ∧ Painted .blank s t := by
  obtain ⟨t, b, read, blank⟩ := readDws_of_sound h n agent a n
  refine ⟨t, b, ?_, blank⟩
  simp only [readReq, h.up, Bool.not_true, Bool.false_eq_true, if_false, read]

theorem readMany_of_sound {s : State} (h : Sound s) (fuel agent a n : Nat) :
    ∃ t b, readMany fuel s agent a n = (t, .ok b) ∧ Painted .blank s t := by
  induction fuel generalizing s a n with
  | zero => exact ⟨s, [], rfl, h.refl⟩
  | succ fuel ih =>
    by_cases empty : n = 0
    · exact ⟨s, [], if_pos empty, h.refl⟩
    obtain ⟨t, b, read, first⟩ := readReq_of_sound h agent a (min (256 - a % 256) n)
    obtain ⟨u, c, rest, later⟩ := ih first.sound (a + min (256 - a % 256) n) (n - min (256 - a % 256) n)
    refine ⟨u, b ++ c, ?_, (first.trans later).congr (v := .blank) fun _ => rfl⟩
    simp only [readMany, empty, if_false, read, rest]

theorem readMem_of_sound {s : State} (h : Sound s) (agent a n : Nat) :
    ∃ t b, readMem s agent a n = (t, .ok b) ∧ Painted .blank s t :=
  readMany_of_sound h _ agent a n

/-! ### Writing -/

/-- A doubleword put with eight bytes holds them, and the others stand. -/
theorem putDw_of_sound {s : State} (h : Sound s) (d : Nat) {l : List Byte} (len : l.length = 8) :
    Painted (.row (8 * d) (l.map some)) s (putDw (setTag s d {}) d (BitVec.ofNat 64 (leNat l))) := by
  refine ⟨fun x => ?_, ⟨fun e => cleanDw_putDw ((h.clean e).setTag d) d _, h.up, h.unarmed⟩, rfl, rfl⟩
  rw [Stroke.row, List.getD_eq_getElem?_getD, List.getElem?_map]
  by_cases outside : x < 8 * d ∨ 8 * d + 8 ≤ x
  · rw [byte_putDw_of_outside _ _ _ outside]
    by_cases low : 8 * d ≤ x
    · rw [if_pos low, List.getElem?_eq_none (by omega)]
      rfl
    · rw [if_neg low]
      rfl
  · obtain ⟨i, small, rfl⟩ : ∃ i, i < 8 ∧ x = 8 * d + i := ⟨x - 8 * d, by omega, by omega⟩
    rw [byte_putDw_inside _ _ _ small, leBytes_ofNat_leNat len, if_pos (by omega), Nat.add_sub_cancel_left,
      List.getElem?_eq_getElem (by omega), List.getD_eq_getElem _ _ (by omega)]
    rfl

/-- Bytes of a doubleword that stand as they are need no stroke. -/
theorem Painted.of_values {v w : Stroke} {s t : State} (h : Painted w s t)
    (same : ∀ x, (w x).getD (Memory.byte s.basin.bytes x) = (v x).getD (Memory.byte s.basin.bytes x)) :
    Painted v s t :=
  ⟨fun x => (h.bytes x).trans (same x), h.sound, h.fw, h.staging⟩

/-- A list whose entries are all absent lays nothing. -/
theorem Stroke.row_of_absent (a : Nat) {b : List (Option Byte)} (absent : b.all (·.isNone) = true) (x : Nat) :
    Stroke.row a b x = none := by
  rw [Stroke.row, List.getD_eq_getElem?_getD]
  split
  · by_cases inside : x - a < b.length
    · have here := List.all_eq_true.mp absent b[x - a] (List.getElem_mem inside)
      rw [List.getElem?_eq_getElem inside]
      exact Option.isNone_iff_eq_none.mp here
    · rw [List.getElem?_eq_none (by omega)]
      rfl
  · rfl

/-- The bytes of doubleword `d` with some of them replaced. -/
def maskedBytes (s : State) (d off : Nat) (b : List (Option Byte)) : List Byte :=
  (List.range 8).map (fun k =>
    if k < off then (leBytes 8 (dwData s d).toNat).getD k 0
    else (b.getD (k - off) none).getD ((leBytes 8 (dwData s d).toNat).getD k 0))

theorem length_maskedBytes (s : State) (d off : Nat) (b : List (Option Byte)) :
    (maskedBytes s d off b).length = 8 := by
  rw [maskedBytes, List.length_map, List.length_range]

theorem getElem?_maskedBytes (s : State) (d off : Nat) (b : List (Option Byte)) {i : Nat} (small : i < 8) :
    (maskedBytes s d off b)[i]? = some (if i < off then Memory.byte s.basin.bytes (8 * d + i)
      else (b.getD (i - off) none).getD (Memory.byte s.basin.bytes (8 * d + i))) := by
  rw [maskedBytes, List.getElem?_map, List.getElem?_range small, leBytes_dwData, Option.map_some,
    getD_peek _ _ small]

/-- Some bytes of a doubleword that are all within it lay nothing outside it. -/
theorem Stroke.row_of_outside {a x : Nat} {b : List (Option Byte)} (outside : x < a ∨ a + b.length ≤ x) :
    Stroke.row a b x = none := by
  unfold Stroke.row
  split
  · rw [List.getD_eq_getElem?_getD, List.getElem?_eq_none (by omega)]
    rfl
  · rfl

theorem writeMaskDw_of_part {s : State} (agent : Nat) {d off : Nat} {b : List (Option Byte)}
    (clean : CleanDw s d) (present : ¬b.all (·.isNone) = true)
    (part : ¬(off = 0 ∧ b.length = 8 ∧ b.all (·.isSome) = true)) :
    writeMaskDw s agent d off b =
      (putDw (setTag s d {}) d (BitVec.ofNat 64 (leNat (maskedBytes s d off b))), true) := by
  rw [writeMaskDw, if_neg present, if_neg part, fetchDw_of_clean clean.1 clean.2, maskedBytes]

theorem writeMaskDw_of_full {s : State} (agent : Nat) {d : Nat} {b : List (Option Byte)}
    (unarmed : (bankRegs s (bankOf (8 * d))).arm = false) (present : ¬b.all (·.isNone) = true)
    (full : b.length = 8 ∧ b.all (·.isSome) = true) :
    writeMaskDw s agent d 0 b =
      (putDw (setTag s d {}) d (BitVec.ofNat 64 (leNat (b.map (·.getD 0)))), true) := by
  rw [writeMaskDw, if_neg present, if_pos ⟨rfl, full⟩, fullWrite_of_unarmed unarmed]

/-- Bytes that are all there. -/
theorem map_some_getD {b : List (Option Byte)} (present : b.all (·.isSome) = true) :
    (b.map (·.getD 0)).map some = b := by
  rw [List.map_map]
  refine (List.map_congr_left fun o mem => ?_).trans (List.map_id b)
  obtain ⟨v, rfl⟩ := Option.isSome_iff_exists.mp (List.all_eq_true.mp present o mem)
  rfl

/-- A masked write of a part of one doubleword. -/
theorem writeMaskDw_of_sound {s : State} (h : Sound s) (agent : Nat) {a : Nat} {b : List (Option Byte)}
    (fits : a % 8 + b.length ≤ 8) :
    (writeMaskDw s agent (a / 8) (a % 8) b).2 = true ∧
      Painted (.row a b) s (writeMaskDw s agent (a / 8) (a % 8) b).1 := by
  by_cases absent : b.all (·.isNone) = true
  · rw [writeMaskDw, if_pos absent]
    exact ⟨rfl, h.refl.congr fun x => Stroke.row_of_absent a absent x⟩
  by_cases full : a % 8 = 0 ∧ b.length = 8 ∧ b.all (·.isSome) = true
  · obtain ⟨aligned, len, present⟩ := full
    rw [aligned, writeMaskDw_of_full agent (h.unarmed _) absent ⟨len, present⟩]
    have put := putDw_of_sound h (a / 8) (l := b.map (·.getD 0)) (by rw [List.length_map, len])
    rw [map_some_getD present, show 8 * (a / 8) = a by omega] at put
    exact ⟨rfl, put⟩
  · rw [writeMaskDw_of_part agent (h.clean (a / 8)) absent full]
    have put := putDw_of_sound h (a / 8) (length_maskedBytes s (a / 8) (a % 8) b)
    refine ⟨rfl, put.of_values fun x => ?_⟩
    by_cases inside : 8 * (a / 8) ≤ x ∧ x < 8 * (a / 8) + 8
    · obtain ⟨i, small, rfl⟩ : ∃ i, i < 8 ∧ x = 8 * (a / 8) + i := ⟨x - 8 * (a / 8), by omega, by omega⟩
      rw [Stroke.row, if_pos (by omega), Nat.add_sub_cancel_left, List.getD_eq_getElem?_getD, List.getElem?_map,
        getElem?_maskedBytes _ _ _ _ small, Stroke.row]
      by_cases before : i < a % 8
      · rw [if_pos before, if_neg (by omega)]
        rfl
      · rw [if_neg before, if_pos (by omega), show 8 * (a / 8) + i - a = i - a % 8 by omega]
        rfl
    · rw [Stroke.row_of_outside (a := a) (by omega), Stroke.row_of_outside (by
        rw [List.length_map, length_maskedBytes]
        omega)]

/-- A masked write passes over a doubleword of which it has no byte. -/
theorem writeMask_of_absent (fuel : Nat) (s : State) (agent a : Nat) {b : List (Option Byte)} {k : Nat}
    (some' : b ≠ []) (hk : k = min (8 - a % 8) b.length) (absent : (b.take k).all (·.isNone) = true) :
    writeMask (fuel + 1) s agent a b = writeMask fuel s agent (a + k) (b.drop k) := by
  subst hk
  rw [writeMask, if_neg (by simpa using some')]
  simp only [absent, if_true, Option.none_or]

/-- A masked write goes on where a doubleword took its bytes. -/
theorem writeMask_of_done (fuel : Nat) {s t : State} {agent a : Nat} {b : List (Option Byte)} {k : Nat}
    (some' : b ≠ []) (hk : k = min (8 - a % 8) b.length) (present : ¬(b.take k).all (·.isNone) = true)
    (up : running s (islBank (bankOf a)) = true)
    (done : writeMaskDw s agent (a / 8) (a % 8) (b.take k) = (t, true)) :
    writeMask (fuel + 1) s agent a b =
      writeMask fuel (signalMask t a (b.take k)) agent (a + k) (b.drop k) := by
  subst hk
  rw [writeMask, if_neg (by simpa using some')]
  simp only [present, up, done, Bool.not_true, Bool.false_eq_true, if_false, Option.none_or]

/-- A masked write lays its bytes. -/
theorem writeMask_of_sound {s : State} (h : Sound s) (fuel agent : Nat) {a : Nat} {b : List (Option Byte)}
    (enough : b.length ≤ 8 * fuel - a % 8) :
    (writeMask fuel s agent a b).2 = none ∧ Painted (.row a b) s (writeMask fuel s agent a b).1 := by
  induction fuel generalizing s a b with
  | zero =>
    obtain rfl : b = [] := List.length_eq_zero_iff.mp (by omega)
    exact ⟨rfl, h.refl.congr fun x => Stroke.row_of_absent a rfl x⟩
  | succ fuel ih =>
    by_cases empty : b = []
    · subst empty
      exact ⟨rfl, h.refl.congr fun x => Stroke.row_of_absent a rfl x⟩
    obtain ⟨k, hk⟩ : ∃ k, k = min (8 - a % 8) b.length := ⟨_, rfl⟩
    have len : (b.take k).length = k := by rw [List.length_take]; omega
    have part : ∃ t, writeMask (fuel + 1) s agent a b = writeMask fuel t agent (a + k) (b.drop k) ∧
        Painted (.row a (b.take k)) s t := by
      by_cases absent : (b.take k).all (·.isNone) = true
      · exact ⟨s, writeMask_of_absent fuel s agent a empty hk absent,
          h.refl.congr fun x => Stroke.row_of_absent a absent x⟩
      obtain ⟨done, first⟩ := writeMaskDw_of_sound h agent (a := a) (b := b.take k) (by omega)
      obtain ⟨u, is⟩ : ∃ u, (writeMaskDw s agent (a / 8) (a % 8) (b.take k)).1 = u := ⟨_, rfl⟩
      rw [is] at first
      have signals := signalMask_follows u a (b.take k)
      exact ⟨signalMask u a (b.take k), writeMask_of_done fuel empty hk absent (h.up a) (Prod.ext is done),
        first.of_same (signals.basin (by decide)) (signals.islands (by decide)) (signals.fw (by decide))
          (signals.staging (by decide))⟩
    obtain ⟨t, wrote, first⟩ := part
    obtain ⟨done, rest⟩ := ih first.sound (a := a + k) (b := b.drop k) (by rw [List.length_drop]; omega)
    have all := (first.trans rest).congr (v := .row a b) fun x => by
      have parts := Stroke.row_append a (b.take k) (b.drop k) x
      rw [len, List.take_append_drop] at parts
      exact parts.symm
    rw [wrote]
    exact ⟨done, all⟩

/-- The bytes of doubleword `d` after a write of some of them (mergeDw). -/
def mergedBytes (s : State) (d off : Nat) (b : List Byte) : List Byte :=
  (leBytes 8 (dwData s d).toNat).take off ++ b ++ (leBytes 8 (dwData s d).toNat).drop (off + b.length)

/-- A write of Basin's bytes leaves the tables alone, and stages no record, where it meets no error. -/
theorem writeDws_fw_of_sound {s : State} (h : Sound s) (fuel agent a : Nat) (b : List Byte) :
    (writeDws fuel s agent a b).1.fw = s.fw ∧ (writeDws fuel s agent a b).1.staging = s.staging := by
  induction fuel generalizing s a b with
  | zero => exact ⟨rfl, rfl⟩
  | succ fuel ih =>
    by_cases empty : b = []
    · subst empty
      exact ⟨rfl, rfl⟩
    rw [writeDws_of_ne_nil fuel s agent a empty rfl, writeDw_of_clean (h.clean _) (h.unarmed _)]
    have put := putDw_of_sound h (a / 8)
      (l := mergedBytes s (a / 8) (a % 8) (b.take (min (8 - a % 8) b.length))) (by
        rw [mergedBytes, List.length_append, List.length_append, List.length_take, List.length_take,
          List.length_drop, length_leBytes]
        omega)
    obtain ⟨fw, staging⟩ := ih put.sound (a + min (8 - a % 8) b.length) (b.drop (min (8 - a % 8) b.length))
    exact ⟨fw.trans put.fw, staging.trans put.staging⟩

theorem writeReq_of_sound {s : State} (h : Sound s) (agent a : Nat) (b : List Byte) :
    (writeReq s agent a b).2 = none ∧ Painted (.row a (b.map some)) s (writeReq s agent a b).1 := by
  obtain ⟨all, stored⟩ := writeDws_of_cleanRun agent (fun x _ _ => h.clean _) (fun x _ _ => h.unarmed _)
    (Nat.le_refl b.length) (a := a)
  obtain ⟨u, is⟩ : ∃ u, writeDws b.length s agent a b = u := ⟨_, rfl⟩
  have signals := signalWrite_follows u.1 a b.length u.2.1
  have wrote : writeReq s agent a b = (signalWrite u.1 a b.length u.2.1, none) := by
    rw [is] at all
    simp only [writeReq, h.up, Bool.not_true, Bool.false_eq_true, if_false, is, all, if_true]
  have islands : u.1.islands = s.islands := is ▸ (writeDws_follows b.length s agent a b).islands (by decide)
  have kept : u.1.fw = s.fw ∧ u.1.staging = s.staging := is ▸ writeDws_fw_of_sound h b.length agent a b
  rw [is] at stored
  have painted : Painted (.row a (b.map some)) s u.1 := by
    refine ⟨fun x => ?_, ⟨fun d => stored.clean d (h.clean d), ?_, ?_⟩, kept.1, kept.2⟩
    · rw [stored.bytes, Stroke.row, List.getD_eq_getElem?_getD, List.getD_eq_getElem?_getD, List.getElem?_map]
      by_cases inside : a ≤ x ∧ x < a + b.length
      · rw [if_pos inside, if_pos inside.1, List.getElem?_eq_getElem (by omega)]
        rfl
      · rw [if_neg inside]
        split
        · rw [List.getElem?_eq_none (by omega)]
          rfl
        · rfl
    · rw [running_of_islands islands]
      exact h.up
    · exact fun n => (congrArg Bank.arm (bankRegs_congr stored.banks _)).trans (h.unarmed n)
  rw [wrote]
  exact ⟨rfl, painted.of_same (signals.basin (by decide)) (signals.islands (by decide))
    (signals.fw (by decide)) (signals.staging (by decide))⟩

/-! ### The runs of a blit (R390) -/

/-- The bytes of the destination that a run writes begin here. -/
def Blit.runAt (b : Blit) (r : Run) : Nat := (b.dst.span (b.dx + r.i) (b.dy + r.j) r.n).1

/-- Byte `x` is one of a run's, and FILL leaves it at `v`. -/
structure Inked (b : Blit) (r : Run) (x : Nat) (v : Byte) : Prop where
  low : b.runAt r ≤ x
  high : x < b.runAt r + r.n * b.dst.size
  value : b.op = 1 → v = (leBytes b.dst.size (b.word 9).toNat).getD ((x - b.runAt r) % b.dst.size) 0

/-- A stroke of some runs: every byte laid is one of a run's, and FILL lays every byte of them. -/
structure Brushed (b : Blit) (l : List Run) (w : Stroke) : Prop where
  inked : ∀ x v, w x = some v → ∃ r ∈ l, Inked b r x v
  full : b.op = 1 → ∀ r ∈ l, ∀ x, b.runAt r ≤ x → x < b.runAt r + r.n * b.dst.size → (w x).isSome = true

theorem Surf.size_pos (f : Surf) : 0 < f.size := by
  unfold Surf.size
  split
  · decide
  · split <;> decide

theorem length_flatMap_const {α β : Type} {f : α → List β} {z : Nat} (h : ∀ x, (f x).length = z)
    (l : List α) : (l.flatMap f).length = l.length * z := by
  induction l with
  | nil => simp
  | cons x l ih => rw [List.flatMap_cons, List.length_append, ih, h, List.length_cons, Nat.succ_mul, Nat.add_comm]

theorem length_dstBytes (b : Blit) {r : Run} {pix : List Nat} (len : pix.length = r.n) :
    (b.dstBytes r pix).length = r.n * b.dst.size := by
  unfold Blit.dstBytes
  split
  · rw [length_flatMap_const (z := b.dst.size) (fun _ => by simp), List.length_range]
  · rw [length_flatMap_const (z := b.dst.size) (fun v => ?_), len]
    dsimp only
    split
    · simp
    · split
      · split <;> simp
      · split
        · simp
        · split <;> simp

/-- The same list repeated. -/
theorem getElem?_flatMap_const {α β : Type} (l : List α) {m : List β} {z : Nat} (len : m.length = z)
    {i : Nat} (inside : i < l.length * z) : (l.flatMap (fun _ => m))[i]? = m[i % z]? := by
  induction l generalizing i with
  | nil => simp at inside
  | cons x l ih =>
    rw [List.flatMap_cons, List.getElem?_append]
    by_cases first : i < m.length
    · rw [if_pos first, Nat.mod_eq_of_lt (len ▸ first)]
    · rw [List.length_cons, Nat.succ_mul] at inside
      rw [if_neg first, ih (by omega), len, ← Nat.mod_eq_sub_mod (by omega)]

theorem dstBytes_fill {b : Blit} (fill : b.op = 1) (r : Run) (pix : List Nat) {i : Nat}
    (inside : i < r.n * b.dst.size) :
    (b.dstBytes r pix).getD i none =
      some ((leBytes b.dst.size (b.word 9).toNat).getD (i % b.dst.size) 0) := by
  rw [Blit.dstBytes, if_pos fill, List.getD_eq_getElem?_getD,
    getElem?_flatMap_const _ (z := b.dst.size) (by simp) (by rwa [List.length_range]), List.getElem?_map,
    List.getElem?_eq_getElem (by
      rw [length_leBytes]
      exact Nat.mod_lt _ b.dst.size_pos),
    List.getD_eq_getElem _ _ (by
      rw [length_leBytes]
      exact Nat.mod_lt _ b.dst.size_pos)]
  rfl

/-- A run lays its bytes. -/
theorem brushed_row (b : Blit) (r : Run) {pix : List Nat} (len : pix.length = r.n) :
    Brushed b [r] (.row (b.runAt r) (b.dstBytes r pix)) := by
  constructor
  case inked =>
    intro x v laid
    have within : b.runAt r ≤ x ∧ x < b.runAt r + r.n * b.dst.size := by
      by_contra outside
      rw [Stroke.row_of_outside (by rw [length_dstBytes b len]; omega)] at laid
      exact nomatch laid
    obtain ⟨low, high⟩ := within
    refine ⟨r, List.mem_singleton_self r, low, high, fun fill => ?_⟩
    rw [Stroke.row, if_pos low, dstBytes_fill fill r pix (by omega)] at laid
    exact (Option.some.inj laid).symm
  case full =>
    intro fill r' mem x low high
    obtain rfl := List.mem_singleton.mp mem
    rw [Stroke.row, if_pos low, dstBytes_fill fill _ _ (by omega)]
    rfl

theorem Brushed.nil (b : Blit) : Brushed b [] .blank :=
  ⟨fun _ _ laid => (nomatch laid), fun _ _ mem => (List.not_mem_nil mem).elim⟩

/-- Runs after a run. -/
theorem Brushed.cons {b : Blit} {r : Run} {l : List Run} {v w : Stroke} (first : Brushed b [r] w)
    (rest : Brushed b l v) : Brushed b (r :: l) (v.over w) := by
  constructor
  case inked =>
    intro x y laid
    obtain later | ⟨_, earlier⟩ := Option.or_eq_some_iff.mp laid
    · obtain ⟨r', mem, ink⟩ := rest.inked x y later
      exact ⟨r', List.mem_cons_of_mem r mem, ink⟩
    · obtain ⟨r', mem, ink⟩ := first.inked x y earlier
      exact ⟨r', List.mem_cons.mpr (.inl (List.mem_singleton.mp mem)), ink⟩
  case full =>
    intro fill r' mem x low high
    rw [Stroke.over, Option.isSome_or, Bool.or_eq_true]
    obtain rfl | mem := List.mem_cons.mp mem
    · exact .inr (first.full fill _ (List.mem_singleton_self _) x low high)
    · exact .inl (rest.full fill r' mem x low high)

theorem Surf.size_le (f : Surf) : f.size ≤ 4 := by
  unfold Surf.size
  split
  · decide
  · split <;> decide

/-- One run is read and written without an error. -/
theorem blitRun_of_sound {s : State} (h : Sound s) (b : Blit) {r : Run} (short : r.n ≤ 16) :
    ∃ t w, blitRun s b r = (t, none) ∧ Painted w s t ∧ Brushed b [r] w := by
  have write : ∀ {u : State} (bytes : List Byte), Painted .blank s u → ∃ t w,
      writeMask 17 u 12 (b.runAt r) (b.dstBytes r (b.srcPix r bytes)) = (t, none) ∧
        Painted w s t ∧ Brushed b [r] w := by
    intro u bytes blank
    have len : (b.srcPix r bytes).length = r.n := by rw [Blit.srcPix, List.length_map, List.length_range]
    have few : r.n * b.dst.size ≤ 16 * 4 := Nat.mul_le_mul short b.dst.size_le
    obtain ⟨done, painted⟩ := writeMask_of_sound blank.sound 17 12 (a := b.runAt r)
      (b := b.dstBytes r (b.srcPix r bytes)) (by rw [length_dstBytes b len]; omega)
    exact ⟨_, _, Prod.ext rfl done, (blank.trans painted).congr (fun x => (Option.or_none).symm),
      brushed_row b r len⟩
  unfold blitRun
  by_cases fill : b.op = 1
  · obtain ⟨t, w, wrote, painted, drawn⟩ := write [] h.refl
    refine ⟨t, w, ?_, painted, drawn⟩
    rw [Blit.runAt] at wrote
    simp only [fill, if_true, wrote]
  · obtain ⟨u, bytes, read, blank⟩ := readMem_of_sound h 12 (b.src.span (b.sx + r.i) (b.sy + r.j) r.n).1
      (b.src.span (b.sx + r.i) (b.sy + r.j) r.n).2
    obtain ⟨t, w, wrote, painted, drawn⟩ := write bytes blank
    refine ⟨t, w, ?_, painted, drawn⟩
    rw [Blit.runAt] at wrote
    simp only [fill, if_false, read, wrote]

/-- All the runs are done. -/
theorem blitRuns_of_sound {s : State} (h : Sound s) (b : Blit) {l : List Run} (short : ∀ r ∈ l, r.n ≤ 16)
    (k : Nat) : ∃ t w, blitRuns s b l k = (t, k + l.length, 0) ∧ Painted w s t ∧ Brushed b l w := by
  induction l generalizing s k with
  | nil => exact ⟨s, .blank, rfl, h.refl, .nil b⟩
  | cons r l ih =>
    obtain ⟨t, w, one, painted, drawn⟩ := blitRun_of_sound h b (short r List.mem_cons_self)
    obtain ⟨u, v, rest, later, after⟩ :=
      ih painted.sound (fun r mem => short r (List.mem_cons_of_mem _ mem)) (k + 1)
    refine ⟨u, v.over w, ?_, painted.trans later, drawn.cons after⟩
    rw [blitRuns, one]
    dsimp only
    rw [rest, List.length_cons, Nat.add_assoc, Nat.add_comm 1]

end Sys2Proof.Machine
end

section
/-! PROOFS. The end of a blit (R390 to R394, R401): where its runs lie, and the obligation O36. -/

open Sys2Proof

namespace Sys2Proof.Machine

/-! ### Where the runs lie (R390) -/

/-- Where row `j` of the rectangle begins. -/
def Blit.rowAt (b : Blit) (j : Nat) : Nat := (b.dst.span b.dx (b.dy + j) b.w).1

theorem Blit.mem_rowRuns {b : Blit} {j : Nat} {r : Run} (h : r ∈ b.rowRuns j) :
    r.j = j ∧ r.i + r.n ≤ b.w ∧ r.n ≤ 16 := by
  obtain ⟨k, mem, rfl⟩ := List.mem_map.mp h
  have := List.mem_range.mp mem
  dsimp only
  split
  · exact ⟨rfl, by dsimp only; omega, Nat.min_le_left ..⟩
  · exact ⟨rfl, by dsimp only; omega, Nat.min_le_left ..⟩

theorem Blit.mem_rows (b : Blit) (j : Nat) :
    j ∈ (if bit (b.entry.getD 0 0) 3 then (List.range b.h).reverse else List.range b.h) ↔ j < b.h := by
  split
  · rw [List.mem_reverse, List.mem_range]
  · exact List.mem_range

theorem Blit.mem_runs {b : Blit} {r : Run} (h : r ∈ b.runs) : r.j < b.h ∧ r.i + r.n ≤ b.w ∧ r.n ≤ 16 := by
  obtain ⟨j, row, mem⟩ := List.mem_flatMap.mp h
  obtain ⟨rfl, wide, short⟩ := b.mem_rowRuns mem
  exact ⟨(b.mem_rows _).mp row, wide, short⟩

/-- Every pixel of the rectangle lies in a run. -/
theorem Blit.exists_run {b : Blit} {j p : Nat} (row : j < b.h) (inside : p < b.w) :
    ∃ r ∈ b.runs, r.j = j ∧ r.i ≤ p ∧ p < r.i + r.n := by
  have here : ∃ r ∈ b.rowRuns j, r.j = j ∧ r.i ≤ p ∧ p < r.i + r.n := by
    unfold Blit.rowRuns
    by_cases back : bit (b.entry.getD 0 0) 2 = true
    · refine ⟨_, List.mem_map.mpr ⟨(b.w - 1 - p) / 16, List.mem_range.mpr (by omega), rfl⟩, ?_⟩
      rw [if_pos back]
      exact ⟨rfl, by dsimp only; omega, by dsimp only; omega⟩
    · refine ⟨_, List.mem_map.mpr ⟨p / 16, List.mem_range.mpr (by omega), rfl⟩, ?_⟩
      rw [if_neg back]
      exact ⟨rfl, by dsimp only; omega, by dsimp only; omega⟩
  obtain ⟨r, mem, at'⟩ := here
  exact ⟨r, List.mem_flatMap.mpr ⟨j, (b.mem_rows j).mpr row, mem⟩, at'⟩

theorem Blit.length_runs (b : Blit) : b.runs.length = b.h * ((b.w + 15) / 16) := by
  rw [Blit.runs, length_flatMap_const (fun j => by rw [Blit.rowRuns, List.length_map, List.length_range])]
  split
  · rw [List.length_reverse, List.length_range]
  · rw [List.length_range]

/-- The bytes of a run lie in its row of the rectangle. -/
theorem Blit.runAt_bounds {b : Blit} {r : Run} (wide : r.i + r.n ≤ b.w) :
    b.rowAt r.j ≤ b.runAt r ∧ b.runAt r + r.n * b.dst.size ≤ b.rowAt r.j + b.w * b.dst.size := by
  unfold Blit.rowAt Blit.runAt Surf.span
  by_cases glyph : b.dst.fmt = 3
  · have one : b.dst.size = 1 := by
      rw [Surf.size, if_neg (by omega), if_neg (by omega)]
    rw [if_pos glyph, if_pos glyph, one]
    dsimp only
    omega
  · rw [if_neg glyph, if_neg glyph]
    have fits : r.i * b.dst.size + r.n * b.dst.size ≤ b.w * b.dst.size := by
      rw [← Nat.add_mul]
      exact Nat.mul_le_mul_right _ wide
    dsimp only
    rw [Nat.add_mul b.dx]
    omega

/-- In a format of whole bytes a run begins so many pixels into its row. -/
theorem Blit.runAt_eq {b : Blit} (whole : b.dst.fmt ≤ 2) (r : Run) :
    b.runAt r = b.rowAt r.j + r.i * b.dst.size := by
  unfold Blit.rowAt Blit.runAt Surf.span
  rw [if_neg (by omega), if_neg (by omega)]
  dsimp only
  rw [Nat.add_mul b.dx]
  omega

/-- On a valid surface a run begins at a pixel. -/
theorem Blit.runAt_mod {b : Blit} (valid : b.dst.valid = true) (whole : b.dst.fmt ≤ 2) (r : Run) {x : Nat}
    (low : b.runAt r ≤ x) : (x - b.dst.base) % b.dst.size = (x - b.runAt r) % b.dst.size := by
  have strides : b.dst.stride % b.dst.size = 0 := by
    simp only [Surf.valid, Bool.and_eq_true, decide_eq_true_eq] at valid
    exact valid.1.2
  obtain ⟨q, hq⟩ : ∃ q, b.dst.stride = b.dst.size * q := ⟨_, (Nat.mul_div_cancel' (Nat.dvd_of_mod_eq_zero strides)).symm⟩
  have place : b.runAt r = b.dst.base + b.dst.size * ((b.dy + r.j) * q + (b.dx + r.i)) := by
    unfold Blit.runAt Surf.span
    rw [if_neg (by omega)]
    dsimp only
    rw [hq]
    ring
  rw [show x - b.dst.base = (x - b.runAt r) + b.dst.size * ((b.dy + r.j) * q + (b.dx + r.i)) by omega,
    Nat.add_mul_mod_self_left]

/-! ### The pixels -/

/-- The runs that a blit is to do. -/
def Blit.todo (b : Blit) : List Run := if b.result.isNone && !b.empty then b.runs else []

theorem blitPixels_of_sound {s : State} (h : Sound s) (b : Blit) :
    ∃ t w, blitPixels s b = (t, b.result.getD 0, b.clipped && (b.result.isNone || decide (b.result.getD 0 = 2)),
        if b.result.isNone && !b.empty then b.h else 0) ∧ Painted w s t ∧ Brushed b b.todo w := by
  unfold blitPixels Blit.todo
  cases decided : b.result with
  | some r =>
    refine ⟨s, .blank, ?_, h.refl, .nil b⟩
    simp [Bool.and_comm]
  | none =>
    cases empty : b.empty with
    | true =>
      refine ⟨s, .blank, ?_, h.refl, .nil b⟩
      simp
    | false =>
      obtain ⟨t, w, runs, painted, brushed⟩ := blitRuns_of_sound h b
        (fun r mem => (b.mem_runs mem).2.2) 0
      refine ⟨t, w, ?_, painted, brushed⟩
      have some' : 0 < (b.w + 15) / 16 := by
        have : ¬b.w = 0 := fun zero => by simp [Blit.empty, zero] at empty
        omega
      simp only [Bool.false_eq_true, if_false, runs, b.length_runs, Nat.zero_add,
        Nat.mul_div_cancel _ some']
      simp

theorem writeMaskDw_tables (s : State) (agent d off : Nat) (b : List (Option Byte)) :
    (writeMaskDw s agent d off b).1.fw.tables = s.fw.tables := by
  have read := fetchDw_tables s agent d
  unfold writeMaskDw
  split
  · rfl
  · split
    · exact congrArg Fw.tables ((fullWrite_follows ..).fw (by decide))
    · split <;> next h => rwa [h] at read

theorem writeMask_tables (fuel : Nat) (s : State) (agent a : Nat) (b : List (Option Byte)) :
    (writeMask fuel s agent a b).1.fw.tables = s.fw.tables := by
  induction fuel generalizing s a b with
  | zero => rfl
  | succ fuel ih =>
    unfold writeMask
    dsimp only
    split
    · rfl
    · refine (ih ..).trans ?_
      split
      · rfl
      · split
        · rfl
        · have wrote := writeMaskDw_tables s agent (a / 8) (a % 8) (b.take (min (8 - a % 8) b.length))
          split
          · next h =>
            rw [h] at wrote
            exact (congrArg Fw.tables ((signalMask_follows ..).fw (by decide))).trans wrote
          · next h =>
            rw [h] at wrote
            exact wrote

theorem blitRun_tables (s : State) (b : Blit) (r : Run) : (blitRun s b r).1.fw.tables = s.fw.tables := by
  obtain ⟨p, is⟩ : ∃ p, (if b.op = 1 then (s, Except.ok []) else readMem s 12
      (b.src.span (b.sx + r.i) (b.sy + r.j) r.n).1 (b.src.span (b.sx + r.i) (b.sy + r.j) r.n).2) = p := ⟨_, rfl⟩
  have source : p.1.fw.tables = s.fw.tables := by
    rw [← is]
    split
    · rfl
    · exact readMem_tables ..
  unfold blitRun
  simp only [is]
  split
  · exact source
  · next bytes _ =>
    have wrote := writeMask_tables 17 p.1 12 (b.dst.span (b.dx + r.i) (b.dy + r.j) r.n).1
      (b.dstBytes r (b.srcPix r bytes))
    split <;> next h => exact (h ▸ wrote).trans source

theorem blitRuns_tables (s : State) (b : Blit) (l : List Run) (k : Nat) :
    (blitRuns s b l k).1.fw.tables = s.fw.tables := by
  induction l generalizing s k with
  | nil => rfl
  | cons r l ih =>
    have one := blitRun_tables s b r
    unfold blitRuns
    split
    · next h =>
      rw [h] at one
      exact (ih ..).trans one
    · next h =>
      rw [h] at one
      exact one

theorem blitPixels_tables (s : State) (b : Blit) : (blitPixels s b).1.fw.tables = s.fw.tables := by
  unfold blitPixels
  split
  · rfl
  · split
    · rfl
    · exact blitRuns_tables ..

/-! ### STATUS, CONS and the fence (R391 to R394, R401) -/

/-- What stands in STATUS, or the count of a descriptor that was not read. -/
def statusDone (s : State) (b : Blit) (r : Nat) (clipped : Bool) (rows : Nat) : State :=
  if b.unread then onBlt s (fun x => { x with descErr := true })
  else writeStatus s 12 b (statusWord r clipped rows)

/-- CONS of the blit's mooring. -/
def consDone (s : State) (b : Blit) : State :=
  match s.fw.moorings.find? b.moor with
  | some m => bltAdvance s 12 b.moor m b.cons
  | none => s

/-- The blitter is free again. -/
def blitterFreed (s : State) (r : Nat) : State :=
  onBlt s (fun x => { x with cur := none, blits := satAdd x.blits 1,
                             results := if r = 0 then x.results else setBit x.results r true })

theorem exec_blitComplete_of_none {s : State} (idle : s.tp.blt.cur = none) :
    exec .blitComplete s = .next s := by
  refine (congrArg Host.Outcome.next ?_ : execBlitComplete s = .next s)
  rw [idle]

theorem exec_blitComplete_of_some {s t : State} {b : Blit} {r rows : Nat} {clipped : Bool}
    (cur : s.tp.blt.cur = some b) (up : running s islTP = true)
    (pixels : blitPixels s b = (t, r, clipped, rows)) :
    exec .blitComplete s =
      .next (bltFence (blitterFreed (consDone (statusDone t b r clipped rows) b) r) b) := by
  refine (congrArg Host.Outcome.next ?_ : execBlitComplete s = .next _)
  rw [cur]
  simp only [up, Bool.not_true, Bool.false_eq_true, if_false, pixels]
  rfl

theorem blt_statusDone (s : State) (b : Blit) (r : Nat) (clipped : Bool) (rows : Nat) :
    (statusDone s b r clipped rows).tp.blt = { s.tp.blt with descErr := s.tp.blt.descErr || b.unread } := by
  unfold statusDone
  cases b.unread with
  | true => rw [if_pos rfl, Bool.or_true]; rfl
  | false =>
    rw [if_neg Bool.false_ne_true, Bool.or_false]
    exact congrArg Towpath.blt ((writeStatus_follows ..).tp (by decide))

theorem statusDone_tables (s : State) (b : Blit) (r : Nat) (clipped : Bool) (rows : Nat) :
    (statusDone s b r clipped rows).fw.tables = s.fw.tables := by
  unfold statusDone
  split
  · rfl
  · exact writeReq_tables ..

theorem bltAdvance_eq (s : State) (agent i : Nat) (m : Moor) (c : Word) :
    ∃ d, bltAdvance s agent i m c =
      onBlt (writeReq s agent (m.cb + 4) (leBytes 4 (c + 1).toNat)).1 (fun b => { b with done := d }) := by
  unfold bltAdvance
  split <;> next h => exact ⟨_, by rw [h]; rfl⟩

theorem blt_consDone (s : State) (b : Blit) : ∃ d, (consDone s b).tp.blt = { s.tp.blt with done := d } := by
  unfold consDone
  split
  · next m _ =>
    obtain ⟨d, is⟩ := bltAdvance_eq s 12 b.moor m b.cons
    refine ⟨d, ?_⟩
    rw [is]
    exact congrArg (fun x : Towpath => { x.blt with done := d }) ((writeReq_follows ..).tp (by decide))
  · exact ⟨s.tp.blt.done, rfl⟩

theorem consDone_tables (s : State) (b : Blit) : (consDone s b).fw.tables = s.fw.tables := by
  unfold consDone
  split
  · next m _ =>
    obtain ⟨d, is⟩ := bltAdvance_eq s 12 b.moor m b.cons
    rw [is]
    exact writeReq_tables ..
  · rfl

theorem fences_of_tables {s t : State} (h : t.fw.tables = s.fw.tables) : t.fw.fences = s.fw.fences :=
  (congrArg Fw.fences h :)

theorem fenceIndex_of_tables {s t : State} (h : t.fw.tables = s.fw.tables) (f : Word) :
    fenceIndex t f = fenceIndex s f := by
  simp only [fenceIndex, handleOf, genOf, fences_of_tables h, gens_of_tables h]
  exact if_congr Iff.rfl rfl rfl

/-- What the fence of a blit leaves of the blitter. -/
theorem blt_bltFence (s : State) (b : Blit) :
    (bltFence s b).tp.blt = { s.tp.blt with
      fenceBad := s.tp.blt.fenceBad || (decide (b.entry.getD 2 0 ≠ 0) && (fenceIndex s (b.entry.getD 2 0)).isNone) } := by
  unfold bltFence
  dsimp only
  by_cases none' : b.entry.getD 2 0 = 0
  · rw [if_pos none', decide_eq_false (not_not.mpr none'), Bool.false_and, Bool.or_false]
  · rw [if_neg none', decide_eq_true none', Bool.true_and]
    split
    · next k found =>
      rw [found]
      exact (congrArg Towpath.blt ((signalFence_follows ..).tp (by decide))).trans
        (by rw [Option.isNone_some, Bool.or_false])
    · next found =>
      rw [found, Option.isNone_none, Bool.or_true]
      rfl

/-- The fence that a blit names is signalled with its value. -/
theorem fences_bltFence {s : State} {b : Blit} {k : Nat} {x : FenceObj} (named : b.entry.getD 2 0 ≠ 0)
    (found : fenceIndex s (b.entry.getD 2 0) = some k) (here : Tab.find? s.fw.fences k = some x) :
    Tab.find? (bltFence s b).fw.fences k =
      some { x with signalled := true, value := b.entry.getD 3 0 } := by
  have signalled : bltFence s b = signalFence s islTP k (b.entry.getD 3 0) := by
    rw [bltFence, if_neg named, found]
  rw [signalled, signalFence, here]
  exact (congrArg (Tab.find? · k) (fences_of_tables (postRec_tables ..))).trans (Tab.find?_put_self ..)

/-! ### What the end of a blit stores in a Basin without an error -/

/-- STATUS and the word after it. -/
def statusStroke (b : Blit) (w : Word) : Stroke :=
  if b.unread then .blank
  else .row ((b.entry.getD 1 0).toNat + 0x30) ((leBytes 4 w.toNat ++ [0, 0, 0, 0]).map some)

/-- CONS of the blit's mooring. -/
def consStroke (s : State) (b : Blit) : Stroke :=
  match s.fw.moorings.find? b.moor with
  | some m => .row (m.cb + 4) ((leBytes 4 (b.cons + 1).toNat).map some)
  | none => .blank

theorem statusDone_of_sound {s : State} (h : Sound s) (b : Blit) (r : Nat) (clipped : Bool) (rows : Nat) :
    Painted (statusStroke b (statusWord r clipped rows)) s (statusDone s b r clipped rows) := by
  unfold statusDone statusStroke
  split
  · exact h.refl.of_same rfl rfl rfl rfl
  · exact (writeReq_of_sound h 12 _ _).2

theorem consDone_of_sound {s : State} (h : Sound s) (b : Blit) :
    Painted (consStroke s b) s (consDone s b) := by
  unfold consDone consStroke
  split
  · next m _ =>
    obtain ⟨d, is⟩ := bltAdvance_eq s 12 b.moor m b.cons
    rw [is]
    exact (writeReq_of_sound h 12 _ _).2.of_same rfl rfl rfl rfl
  · exact h.refl

theorem consStroke_congr {s t : State} (h : t.fw = s.fw) (b : Blit) : consStroke t b = consStroke s b := by
  rw [consStroke, h, consStroke]

/-- A row of known bytes lays those. -/
theorem Stroke.row_some (a : Nat) (b : List Byte) {i : Nat} (inside : i < b.length) :
    Stroke.row a (b.map some) (a + i) = some (b.getD i 0) := by
  rw [Stroke.row, if_pos (by omega), Nat.add_sub_cancel_left, List.getD_eq_getElem?_getD, List.getElem?_map,
    List.getElem?_eq_getElem inside, List.getD_eq_getElem _ _ inside]
  rfl

theorem statusStroke_outside {b : Blit} {w : Word} {x : Nat}
    (outside : ¬(b.unread = false ∧ (b.entry.getD 1 0).toNat + 0x30 ≤ x ∧
      x < (b.entry.getD 1 0).toNat + 0x30 + 8)) : statusStroke b w x = none := by
  unfold statusStroke
  cases unread : b.unread with
  | true => rfl
  | false =>
    refine Stroke.row_of_outside ?_
    rw [List.length_map, List.length_append, length_leBytes]
    by_contra inside
    exact outside ⟨unread, by omega, by simp only [List.length_cons, List.length_nil] at inside; omega⟩

theorem consStroke_outside {s : State} {b : Blit} {x : Nat}
    (outside : ¬∃ m, Tab.find? s.fw.moorings b.moor = some m ∧ m.cb + 4 ≤ x ∧ x < m.cb + 8) :
    consStroke s b x = none := by
  cases found : s.fw.moorings.find? b.moor with
  | none => rw [consStroke, found]; rfl
  | some m =>
    rw [consStroke, found]
    refine Stroke.row_of_outside ?_
    rw [List.length_map, length_leBytes]
    by_contra inside
    exact outside ⟨m, found, by omega, by omega⟩

/-- A byte that a blit lays is one of its rectangle's, and FILL leaves it at FG. -/
theorem Brushed.pixel {b : Blit} {w : Stroke} (h : Brushed b b.todo w) {x : Nat} {v : Byte}
    (laid : w x = some v) :
    ((b.result.isNone && !b.empty) = true ∧ ∃ j < b.h, b.rowAt j ≤ x ∧ x < b.rowAt j + b.w * b.dst.size) ∧
    (b.op = 1 → b.dst.valid = true → b.dst.fmt ≤ 2 →
      v = (leBytes b.dst.size (b.word 9).toNat).getD ((x - b.dst.base) % b.dst.size) 0) := by
  obtain ⟨r, mem, low, high, value⟩ := h.inked x v laid
  unfold Blit.todo at mem
  split at mem
  · next runs =>
    obtain ⟨row, wide, -⟩ := b.mem_runs mem
    obtain ⟨first, last⟩ := b.runAt_bounds wide
    refine ⟨⟨runs, r.j, row, by omega, by omega⟩, fun fill valid whole => ?_⟩
    rw [value fill, b.runAt_mod valid whole r low]
  · exact (List.not_mem_nil mem).elim

/-- FILL lays every byte of its rectangle. -/
theorem Brushed.covers {b : Blit} {w : Stroke} (h : Brushed b b.todo w) (fill : b.op = 1)
    (whole : b.dst.fmt ≤ 2) (runs : (b.result.isNone && !b.empty) = true) {j x : Nat} (row : j < b.h)
    (low : b.rowAt j ≤ x) (high : x < b.rowAt j + b.w * b.dst.size) : (w x).isSome = true := by
  have pos := b.dst.size_pos
  obtain ⟨p, hp⟩ : ∃ p, p = (x - b.rowAt j) / b.dst.size := ⟨_, rfl⟩
  have inside : p < b.w := by
    rw [hp]
    exact Nat.div_lt_of_lt_mul (by rw [Nat.mul_comm]; omega)
  obtain ⟨r, mem, rfl, left, right⟩ := b.exists_run row inside
  refine h.full fill r (by rw [Blit.todo, if_pos runs]; exact mem) x ?_ ?_
  · rw [b.runAt_eq whole]
    have : r.i * b.dst.size ≤ x - b.rowAt r.j := (Nat.le_div_iff_mul_le pos).mp (hp ▸ left)
    omega
  · rw [b.runAt_eq whole]
    have : x - b.rowAt r.j < (r.i + r.n) * b.dst.size := (Nat.div_lt_iff_lt_mul pos).mp (hp ▸ right)
    rw [Nat.add_mul] at this
    omega

theorem sound_of_banks {s : State} (clean : ∀ d, (dwTag s d).vote = false ∧ dwSynd s d = 0)
    (banks : ∀ n : Fin 4, running s (islBank n) = true ∧ (bankRegs s n).arm = false) : Sound s :=
  ⟨clean, fun a => (banks ⟨bankOf a, Nat.mod_lt _ (by decide)⟩).1,
    fun a => (banks ⟨bankOf a, Nat.mod_lt _ (by decide)⟩).2⟩

/-- A word of four known bytes. -/
theorem leWord_of_bytes {f : Nat → Byte} {b : List Byte} (len : b.length = 4)
    (same : ∀ i < 4, f i = b.getD i 0) : leWord ((List.range 4).map f) = leWord b := by
  refine congrArg leWord (List.ext_getElem (by simp [len]) fun i lo hi => ?_)
  rw [List.length_map, List.length_range] at lo
  rw [List.getElem_map, List.getElem_range, same i lo, List.getD_eq_getElem _ _ hi]

/-- Settles O36: the runs of a blit lay their bytes in the clipped rectangle (`blitRuns_of_sound`),
STATUS and CONS lie over them, and the fence is signalled last. -/
theorem aBlitStoresToItsRectangleAndCompletes : Obligations.ABlitStoresToItsRectangleAndCompletes := by
  intro b s byte word runs at' fence row pixel status cons r clipped
  refine ⟨exec_blitComplete_of_none, fun cur up => ?_⟩
  obtain ⟨⟨p, r', clipped', rows⟩, pixels⟩ : ∃ q, blitPixels s b = q := ⟨_, rfl⟩
  obtain ⟨t, is⟩ : ∃ t, bltFence (blitterFreed (consDone (statusDone p b r' clipped' rows) b) r') b = t :=
    ⟨_, rfl⟩
  have tables : (consDone (statusDone p b r' clipped' rows) b).fw.tables = s.fw.tables :=
    (consDone_tables ..).trans ((statusDone_tables ..).trans (by
      have kept := blitPixels_tables s b
      rwa [pixels] at kept))
  have index : fenceIndex (blitterFreed (consDone (statusDone p b r' clipped' rows) b) r') fence =
      fenceIndex s fence := fenceIndex_of_tables tables fence
  obtain ⟨d, advanced⟩ := blt_consDone (statusDone p b r' clipped' rows) b
  have start : p.tp.blt = s.tp.blt := by
    have kept := (blitPixels_follows s b).tp (by decide)
    rw [pixels] at kept
    exact congrArg Towpath.blt kept
  have freed : (blitterFreed (consDone (statusDone p b r' clipped' rows) b) r').tp.blt =
      { s.tp.blt with
        cur := none, blits := satAdd s.tp.blt.blits 1, done := d, descErr := s.tp.blt.descErr || b.unread,
        results := if r' = 0 then s.tp.blt.results else setBit s.tp.blt.results r' true } := by
    show ({ (consDone (statusDone p b r' clipped' rows) b).tp.blt with
      cur := _, blits := _, results := _ } : Blitter) = _
    rw [advanced, blt_statusDone, start]
  have blitter := blt_bltFence (blitterFreed (consDone (statusDone p b r' clipped' rows) b) r') b
  rw [is, freed, index] at blitter
  refine ⟨t, (exec_blitComplete_of_some cur up pixels).trans (congrArg _ is), ?_, ?_, ?_, ?_, ?_, ?_⟩
  · rw [blitter]
  · rw [blitter]
  · rw [blitter]
  · rw [blitter]
  · intro k x named found here
    rw [← is]
    exact fences_bltFence named (index.trans found) ((congrArg (Tab.find? · k) (fences_of_tables tables)).trans here)
  intro clean banks
  have sound : Sound s := sound_of_banks clean banks
  obtain ⟨q, w, done, painted, brushed⟩ := blitPixels_of_sound sound b
  rw [pixels, Prod.mk.injEq, Prod.mk.injEq, Prod.mk.injEq] at done
  obtain ⟨rfl, rfl, rfl, rfl⟩ := done
  have status' := (painted.trans (statusDone_of_sound painted.sound b r clipped (if runs then b.h else 0)))
  have all := status'.trans (consDone_of_sound status'.sound b)
  rw [consStroke_congr status'.fw] at all
  have bytes : ∀ x, byte t x = (((consStroke s b x).or ((statusStroke b
      (statusWord r clipped (if runs then b.h else 0)) x).or (w x))).getD (byte s x)) := by
    intro x
    have basin : t.basin = (consDone (statusDone p b r clipped (if runs then b.h else 0)) b).basin := by
      rw [← is]
      exact (bltFence_follows ..).basin (by decide)
    show Memory.byte t.basin.bytes x = _
    rw [basin]
    exact all.bytes x
  refine ⟨?stands, ?results, ?statusWords, ?consWord, ?fill⟩
  case stands =>
    intro x outPixel outStatus outCons
    have none' : w x = none := by
      cases laid : w x with
      | none => rfl
      | some v => exact absurd (brushed.pixel laid).1 outPixel
    rw [bytes, consStroke_outside outCons, statusStroke_outside outStatus, none']
    rfl
  case results => rw [blitter]
  case statusWords =>
    intro read apart
    have laid : ∀ i < 8, byte t (at' + i) =
        (leBytes 4 (statusWord r clipped (if runs then b.h else 0)).toNat ++ [0, 0, 0, 0]).getD i 0 := by
      intro i small
      have here : statusStroke b (statusWord r clipped (if runs then b.h else 0)) (at' + i) =
          some ((leBytes 4 (statusWord r clipped (if runs then b.h else 0)).toNat ++ [0, 0, 0, 0]).getD i 0) := by
        rw [statusStroke, read, if_neg Bool.false_ne_true]
        exact Stroke.row_some _ _ (by simpa using small)
      rw [bytes, consStroke_outside (apart _ ⟨read, by omega, by omega⟩), here]
      rfl
    constructor
    · refine (leWord_of_bytes (b := leBytes 4 _) (by simp) fun i small => ?_).trans (leWord_leBytes _)
      rw [laid i (by omega), List.getD_append _ _ _ _ (by simpa using small)]
    · refine (leWord_of_bytes (b := [0, 0, 0, 0]) rfl fun i small => ?_).trans (by decide)
      rw [Nat.add_assoc, laid (4 + i) (by omega), List.getD_append_right _ _ _ _ (by simp),
        length_leBytes, Nat.add_sub_cancel_left]
  case consWord =>
    intro m found _
    refine (leWord_of_bytes (b := leBytes 4 (b.cons + 1).toNat) (by simp) fun i small => ?_).trans
      (leWord_leBytes _)
    have here : consStroke s b (m.cb + 4 + i) = some ((leBytes 4 (b.cons + 1).toNat).getD i 0) := by
      rw [consStroke, found]
      exact Stroke.row_some _ _ (by simpa using small)
    rw [bytes, here]
    rfl
  case fill =>
    intro fill valid whole x ⟨todo, j, inside, low, high⟩ outStatus outCons
    obtain ⟨v, laid⟩ := Option.isSome_iff_exists.mp (brushed.covers fill whole todo inside low high)
    rw [bytes, consStroke_outside outCons, statusStroke_outside outStatus, laid]
    exact (brushed.pixel laid).2 fill valid whole

end Sys2Proof.Machine
end

section
/-! PROOFS. The copy of a payload in Basin (chapter 02, R87; chapter 05): requests of several granules,
what a write that succeeds leaves clean, and a struck doubleword that no read gets past. -/

open Sys2Proof

namespace Sys2Proof.Machine

/-! ### Requests of several granules on a sound Basin -/

/-- A read of one granule gives what stands there. -/
theorem readReq_peek_of_sound {s : State} (h : Sound s) (agent a n : Nat) :
    ∃ t, readReq s agent a n = (t, .ok (peek s a n)) ∧ Painted .blank s t := by
  obtain ⟨t, b, read, painted⟩ := readReq_of_sound h agent a n
  obtain ⟨u, value, -⟩ := readReq_of_cleanRun agent (h.up a) (n := n) (fun x _ _ => h.clean _)
  rw [read, Prod.mk.injEq, Except.ok.injEq] at value
  exact ⟨t, value.2 ▸ read, painted⟩

/-- A blank stroke leaves the bytes. -/
theorem Painted.peek_eq {s t : State} (h : Painted .blank s t) (a n : Nat) : peek t a n = peek s a n :=
  List.map_congr_left fun i _ => h.bytes (a + i)

theorem readMany_peek_of_sound {fuel : Nat} {s : State} (h : Sound s) (agent : Nat) {a n : Nat}
    (enough : n ≤ 256 * fuel - a % 256) :
    ∃ t, readMany fuel s agent a n = (t, .ok (peek s a n)) ∧ Painted .blank s t := by
  induction fuel generalizing s a n with
  | zero =>
    obtain rfl : n = 0 := by omega
    exact ⟨s, rfl, h.refl⟩
  | succ fuel ih =>
    by_cases empty : n = 0
    · subst empty
      exact ⟨s, if_pos rfl, h.refl⟩
    obtain ⟨k, hk⟩ : ∃ k, k = min (256 - a % 256) n := ⟨_, rfl⟩
    obtain ⟨t, read, first⟩ := readReq_peek_of_sound h agent a k
    obtain ⟨u, rest, later⟩ := ih first.sound (a := a + k) (n := n - k) (by omega)
    refine ⟨u, ?_, (first.trans later).congr (v := .blank) fun _ => rfl⟩
    simp only [readMany, empty, if_false, ← hk, read, rest, first.peek_eq, peek_append]
    rw [Nat.add_sub_cancel' (by omega)]

theorem writeMany_of_ne_nil (fuel : Nat) (s : State) (agent a : Nat) {b : List Byte} {k : Nat} (some' : b ≠ [])
    (hk : k = min (256 - a % 256) b.length) :
    writeMany (fuel + 1) s agent a b =
      let w := writeReq s agent a (b.take k)
      let r := writeMany fuel w.1 agent (a + k) (b.drop k)
      (r.1, w.2.or r.2) := by
  subst hk
  rw [writeMany, if_neg (by simpa using some')]

theorem writeMany_of_sound {fuel : Nat} {s : State} (h : Sound s) (agent : Nat) {a : Nat} {b : List Byte}
    (enough : b.length ≤ 256 * fuel - a % 256) :
    (writeMany fuel s agent a b).2 = none ∧ Painted (.row a (b.map some)) s (writeMany fuel s agent a b).1 := by
  induction fuel generalizing s a b with
  | zero =>
    obtain rfl : b = [] := List.length_eq_zero_iff.mp (by omega)
    exact ⟨rfl, h.refl.congr fun x => Stroke.row_of_absent a rfl x⟩
  | succ fuel ih =>
    by_cases empty : b = []
    · subst empty
      exact ⟨rfl, h.refl.congr fun x => Stroke.row_of_absent a rfl x⟩
    obtain ⟨k, hk⟩ : ∃ k, k = min (256 - a % 256) b.length := ⟨_, rfl⟩
    obtain ⟨done, first⟩ := writeReq_of_sound h agent a (b.take k)
    obtain ⟨all, rest⟩ := ih first.sound (a := a + k) (b := b.drop k) (by rw [List.length_drop]; omega)
    have both := (first.trans rest).congr (v := .row a (b.map some)) fun x => by
      have parts := Stroke.row_append a ((b.take k).map some) ((b.drop k).map some) x
      rw [← List.map_append, List.take_append_drop, List.length_map, List.length_take,
        Nat.min_eq_left (by omega)] at parts
      exact parts.symm
    rw [writeMany_of_ne_nil fuel s agent a empty hk]
    refine ⟨?_, both⟩
    dsimp only
    rw [done, all]
    rfl

/-! ### What a request to one doubleword leaves of the others -/

/-- Tags and syndromes are as they were but for doubleword `d`, and so is every armed injection. -/
structure Elsewhere (d : Nat) (s t : State) : Prop where
  tag : ∀ e, e ≠ d → dwTag t e = dwTag s e
  synd : ∀ e, e ≠ d → dwSynd t e = dwSynd s e
  arm : ∀ b, (bankRegs t b).arm = (bankRegs s b).arm

theorem Elsewhere.refl (d : Nat) (s : State) : Elsewhere d s s := ⟨fun _ _ => rfl, fun _ _ => rfl, fun _ => rfl⟩

theorem Elsewhere.trans {d : Nat} {s t u : State} (h : Elsewhere d s t) (g : Elsewhere d t u) :
    Elsewhere d s u :=
  ⟨fun e ne => (g.tag e ne).trans (h.tag e ne), fun e ne => (g.synd e ne).trans (h.synd e ne),
    fun b => (g.arm b).trans (h.arm b)⟩

theorem Elsewhere.of_basin {d : Nat} {s t : State} (same : t.basin = s.basin) : Elsewhere d s t := by
  refine ⟨fun e _ => ?_, fun e _ => ?_, fun b => ?_⟩
  · simp only [dwTag, same]
  · simp only [dwSynd, same]
  · simp only [bankRegs, same]

theorem Elsewhere.clean {d e : Nat} {s t : State} (h : Elsewhere d s t) (ne : e ≠ d) (clean : CleanDw s e) :
    CleanDw t e := by
  rw [CleanDw, h.tag e ne, h.synd e ne]
  exact clean

theorem elsewhere_setTag (s : State) (d : Nat) (t : Tag) : Elsewhere d s (setTag s d t) :=
  ⟨fun _ ne => Tab.get_set_of_ne ({} : Tag) s.basin.tags t ne, fun _ _ => rfl, fun _ => rfl⟩

theorem elsewhere_putDw (s : State) (d : Nat) (v : Dword) : Elsewhere d s (putDw s d v) :=
  ⟨fun _ _ => rfl, fun _ ne => Tab.get_set_of_ne (0 : Byte) s.basin.synd 0 ne, fun _ => rfl⟩

theorem elsewhere_updBank (s : State) (d b : Nat) {f : Bank → Bank} (same : ∀ x, (f x).arm = x.arm) :
    Elsewhere d s (updBank s b f) := by
  refine ⟨fun _ _ => rfl, fun _ _ => rfl, fun c => ?_⟩
  show (Tab.get {} (Tab.upd {} s.basin.banks b f) c).arm = (Tab.get {} s.basin.banks c).arm
  by_cases here : c = b
  · rw [here, Tab.get_upd_self, same]
  · rw [Tab.get_upd_of_ne _ _ _ here]

theorem elsewhere_noteErr (s : State) (agent d : Nat) (syn : Byte) (ue : Bool) :
    Elsewhere d s (noteErr s agent d syn ue) :=
  elsewhere_updBank s d _ fun _ => rfl

theorem elsewhere_poisonDw (s : State) (agent d : Nat) (syn : Byte) :
    Elsewhere d s (poisonDw s agent d syn) := by
  unfold poisonDw
  dsimp only
  refine (elsewhere_setTag s d { copies := 7, counted := true }).trans ?_
  generalize setTag s d { copies := 7, counted := true } = u
  refine (elsewhere_updBank u d (bankOf (8 * d)) (f := fun x => { x with ueCount := satAdd x.ueCount 1 })
    fun _ => rfl).trans ?_
  generalize updBank u (bankOf (8 * d)) (fun x => { x with ueCount := satAdd x.ueCount 1 }) = u
  refine (elsewhere_noteErr u agent d syn true).trans (.of_basin ?_)
  exact ((raisePriv_follows ..).basin (by decide)).trans ((postRec_follows ..).basin (by decide))

theorem elsewhere_readTag (s : State) (agent d : Nat) : Elsewhere d s (readTag s agent d).1 := by
  unfold readTag
  dsimp only
  split
  · split
    · exact elsewhere_setTag ..
    · exact elsewhere_poisonDw ..
  · exact elsewhere_setTag ..

/-- A correction counts, notes and puts back. -/
theorem elsewhere_correction (s : State) (agent d : Nat) {f : Bank → Bank} (same : ∀ x, (f x).arm = x.arm)
    (syn : Byte) (v : Dword) :
    Elsewhere d s (putDw (noteErr (updBank s (bankOf (8 * d)) f) agent d syn false) d v) := by
  refine (elsewhere_updBank s d (bankOf (8 * d)) same).trans ?_
  generalize updBank s (bankOf (8 * d)) f = u
  refine (elsewhere_noteErr u agent d syn false).trans ?_
  generalize noteErr u agent d syn false = u
  exact elsewhere_putDw u d v

theorem tags_correction (s : State) (agent d b : Nat) (f : Bank → Bank) (syn : Byte) (v : Dword) :
    (putDw (noteErr (updBank s b f) agent d syn false) d v).basin.tags = s.basin.tags := by
  have put : ∀ u : State, (putDw u d v).basin.tags = u.basin.tags := fun _ => rfl
  have noted : ∀ u : State, (noteErr u agent d syn false).basin.tags = u.basin.tags := fun _ => rfl
  exact (put _).trans ((noted _).trans rfl)

theorem elsewhere_fetchDw (s : State) (agent d : Nat) : Elsewhere d s (fetchDw s agent d).1 := by
  have tag := elsewhere_readTag s agent d
  have corrected' : ∀ (u : State) (syn : Byte) (v : Dword), Elsewhere d u (putDw (noteErr (updBank u (bankOf (8 * d))
      (fun x => { x with ceCount := satAdd x.ceCount 1 })) agent d syn false) d v) :=
    fun u syn v =>
      elsewhere_correction u agent d (f := fun x => { x with ceCount := satAdd x.ceCount 1 }) (fun _ => rfl) syn v
  unfold fetchDw
  dsimp only
  split
  · exact tag
  · split
    · exact tag
    · exact tag.trans (corrected' ..)
    · exact tag.trans (corrected' ..)
    · exact tag.trans (elsewhere_poisonDw ..)

/-- A doubleword that gave data has no poison tag. -/
theorem vote_fetchDw {s u : State} {agent d : Nat} {v : Dword} {x : Bool}
    (got : fetchDw s agent d = (u, some v, x)) : (dwTag u d).vote = false := by
  have plain : (dwTag (setTag s d {}) d).vote = false :=
    congrArg Tag.vote (Tab.get_set_self ({} : Tag) s.basin.tags d {})
  by_cases voted : (dwTag s d).vote = true
  · have nothing : (fetchDw s agent d).2.1 = none := by
      have tag : (readTag s agent d).2 = true := by
        unfold readTag
        rw [if_pos voted]
        split <;> rfl
      unfold fetchDw
      dsimp only
      rw [if_pos tag]
    rw [got] at nothing
    exact nomatch nothing
  · have tag := readTag_of_untagged ((Bool.not_eq_true _).mp voted) agent
    unfold fetchDw at got
    rw [tag] at got
    simp only [Bool.false_eq_true, if_false] at got
    split at got
    · rw [← (Prod.mk.inj got).1]
      exact plain
    · rw [← (Prod.mk.inj got).1, dwTag, tags_correction]
      exact plain
    · rw [← (Prod.mk.inj got).1, dwTag, tags_correction]
      exact plain
    · exact nomatch (Prod.mk.inj (Prod.mk.inj got).2).1

/-! ### What a write that succeeds leaves clean -/

/-- No injection is armed in any bank. -/
def Disarmed (s : State) : Prop := ∀ b, (bankRegs s b).arm = false

/-- In a disarmed Basin: no injection came to be armed, and what was clean is clean. -/
structure Tended (s t : State) : Prop where
  disarmed : Disarmed t
  clean : ∀ d, CleanDw s d → CleanDw t d

theorem Tended.trans {s t u : State} (h : Tended s t) (g : Tended t u) : Tended s u :=
  ⟨g.disarmed, fun d clean => g.clean d (h.clean d clean)⟩

theorem Disarmed.refl {s : State} (h : Disarmed s) : Tended s s := ⟨h, fun _ clean => clean⟩

theorem Elsewhere.disarmed {d : Nat} {s t : State} (h : Elsewhere d s t) (free : Disarmed s) : Disarmed t :=
  fun b => (h.arm b).trans (free b)

theorem Tended.of_basin {s t u : State} (h : Tended s t) (same : u.basin = t.basin) : Tended s u := by
  refine ⟨fun b => ?_, fun d clean => ?_⟩
  · simpa only [bankRegs, same] using h.disarmed b
  · simpa only [CleanDw, dwTag, dwSynd, same] using h.clean d clean

theorem tended_fetchDw {s : State} (free : Disarmed s) (agent d : Nat) : Tended s (fetchDw s agent d).1 := by
  have moved := elsewhere_fetchDw s agent d
  refine ⟨moved.disarmed free, fun e clean => ?_⟩
  by_cases here : e = d
  · subst here
    rw [fetchDw_of_clean clean.1 clean.2]
    exact clean.setTag e
  · exact moved.clean here clean

/-- What a doubleword that was put leaves. -/
theorem tended_putDw {s : State} (free : Disarmed s) (d : Nat) (v : Dword) : Tended s (putDw s d v) :=
  ⟨(elsewhere_putDw s d v).disarmed free, fun _ clean => cleanDw_putDw clean d v⟩

theorem tended_writeDw {s : State} (free : Disarmed s) (agent d off : Nat) (b : List Byte) :
    Tended s (writeDw s agent d off b).1 ∧
      ((writeDw s agent d off b).2 = true → CleanDw (writeDw s agent d off b).1 d) := by
  unfold writeDw
  split
  · rw [fullWrite_of_unarmed (free _)]
    have tagged : Tended s (setTag s d {}) :=
      ⟨(elsewhere_setTag s d {}).disarmed free, fun _ clean => clean.setTag d⟩
    exact ⟨tagged.trans (tended_putDw tagged.disarmed d _), fun _ =>
      ⟨congrArg Tag.vote (Tab.get_set_self ({} : Tag) s.basin.tags d {}), dwSynd_putDw_self ..⟩⟩
  · have fetched := tended_fetchDw free agent d
    split
    · next u v x got =>
      rw [got] at fetched
      have plain : (dwTag u d).vote = false := vote_fetchDw got
      exact ⟨fetched.trans (tended_putDw fetched.disarmed d _), fun _ => ⟨plain, dwSynd_putDw_self ..⟩⟩
    · next u x got =>
      rw [got] at fetched
      exact ⟨fetched, fun no => (Bool.false_ne_true no).elim⟩

theorem tended_writeDws {fuel : Nat} {s : State} (free : Disarmed s) (agent : Nat) {a : Nat} {b : List Byte}
    (enough : b.length ≤ fuel) :
    Tended s (writeDws fuel s agent a b).1 ∧
      ((writeDws fuel s agent a b).2.2 = true → CleanRun (writeDws fuel s agent a b).1 a b.length) := by
  induction fuel generalizing s a b with
  | zero =>
    obtain rfl : b = [] := List.length_eq_zero_iff.mp (by omega)
    exact ⟨free.refl, fun _ x low high => absurd high (by rw [List.length_nil]; omega)⟩
  | succ fuel ih =>
    by_cases empty : b = []
    · subst empty
      exact ⟨free.refl, fun _ x low high => absurd high (by rw [List.length_nil]; omega)⟩
    obtain ⟨k, hk⟩ : ∃ k, k = min (8 - a % 8) b.length := ⟨_, rfl⟩
    have some' : 0 < b.length := List.length_pos_iff.mpr empty
    obtain ⟨first, done⟩ := tended_writeDw free agent (a / 8) (a % 8) (b.take k)
    rw [writeDws_of_ne_nil fuel s agent a empty hk]
    dsimp only
    obtain ⟨later, rest⟩ := ih first.disarmed (a := a + k) (b := b.drop k) (by rw [List.length_drop]; omega)
    refine ⟨first.trans later, fun ok x low high => ?_⟩
    rw [Bool.and_eq_true] at ok
    by_cases here : x < a + k
    · rw [show x / 8 = a / 8 by omega]
      exact later.clean _ (done ok.1)
    · exact rest ok.2 x (by omega) (by rw [List.length_drop]; omega)

theorem tended_writeReq {s : State} (free : Disarmed s) (agent a : Nat) (b : List Byte) :
    Tended s (writeReq s agent a b).1 ∧
      ((writeReq s agent a b).2 = none → CleanRun (writeReq s agent a b).1 a b.length) := by
  unfold writeReq
  split
  · exact ⟨free.refl, fun no => nomatch no⟩
  · obtain ⟨first, done⟩ := tended_writeDws free agent (a := a) (Nat.le_refl b.length)
    obtain ⟨⟨u, l, all⟩, is⟩ : ∃ u, writeDws b.length s agent a b = u := ⟨_, rfl⟩
    rw [is] at first done ⊢
    have basin : (signalWrite u a b.length l).basin = u.basin := (signalWrite_follows ..).basin (by decide)
    refine ⟨first.of_basin basin, fun ok x low high => ?_⟩
    have all' : all = true := by
      by_contra no
      exact nomatch (if_neg no).symm.trans ok
    exact (first.disarmed.refl.of_basin basin).clean _ (done all' x low high)

theorem tended_writeMany {fuel : Nat} {s : State} (free : Disarmed s) (agent : Nat) {a : Nat} {b : List Byte}
    (enough : b.length ≤ 256 * fuel - a % 256) :
    Tended s (writeMany fuel s agent a b).1 ∧
      ((writeMany fuel s agent a b).2 = none → CleanRun (writeMany fuel s agent a b).1 a b.length) := by
  induction fuel generalizing s a b with
  | zero =>
    obtain rfl : b = [] := List.length_eq_zero_iff.mp (by omega)
    exact ⟨free.refl, fun _ x low high => absurd high (by rw [List.length_nil]; omega)⟩
  | succ fuel ih =>
    by_cases empty : b = []
    · subst empty
      exact ⟨free.refl, fun _ x low high => absurd high (by rw [List.length_nil]; omega)⟩
    obtain ⟨k, hk⟩ : ∃ k, k = min (256 - a % 256) b.length := ⟨_, rfl⟩
    obtain ⟨first, done⟩ := tended_writeReq free agent a (b.take k)
    rw [writeMany_of_ne_nil fuel s agent a empty hk]
    dsimp only
    obtain ⟨later, rest⟩ := ih first.disarmed (a := a + k) (b := b.drop k) (by rw [List.length_drop]; omega)
    refine ⟨first.trans later, fun ok x low high => ?_⟩
    obtain ⟨ok, ok'⟩ := Option.or_eq_none_iff.mp ok
    by_cases here : x < a + k
    · exact later.clean _ (done ok x low (by rw [List.length_take]; omega))
    · exact rest ok' x (by omega) (by rw [List.length_drop]; omega)

/-! ### A struck doubleword gives no data (R204, R206) -/

/-- No code word explains doubleword `d`, which is not yet poisoned. -/
structure Spoiled (s : State) (d : Nat) : Prop where
  untagged : (dwTag s d).vote = false
  bad : classify (dwSynd s d) = .bad

theorem spoiled_strikeDw {s : State} {d : Nat} (clean : CleanDw s d) : Spoiled (strikeDw s d) d := by
  refine ⟨clean.1, ?_⟩
  have synd : dwSynd (strikeDw s d) d = dwSynd s d ^^^ column 0 ^^^ column 1 :=
    Tab.get_set_self (0 : Byte) s.basin.synd d _
  rw [synd, clean.2]
  decide

theorem Elsewhere.spoiled {d e : Nat} {s t : State} (h : Elsewhere e s t) (ne : d ≠ e) (spoiled : Spoiled s d) :
    Spoiled t d :=
  ⟨(congrArg Tag.vote (h.tag d ne)).trans spoiled.untagged, (congrArg classify (h.synd d ne)).trans spoiled.bad⟩

/-- A read of other doublewords leaves it so. -/
theorem spoiled_readDws {s : State} {d : Nat} (spoiled : Spoiled s d) (fuel agent : Nat) {a n : Nat}
    (apart : a + n ≤ 8 * d) : Spoiled (readDws fuel s agent a n).1 d := by
  induction fuel generalizing s a n with
  | zero => exact spoiled
  | succ fuel ih =>
    by_cases empty : n = 0
    · subst empty
      exact spoiled
    unfold readDws
    rw [if_neg empty]
    dsimp only
    have rest := ih ((elsewhere_fetchDw s agent (a / 8)).spoiled (by omega) spoiled)
      (a := a + min (8 - a % 8) n) (n := n - min (8 - a % 8) n) (by omega)
    split <;> exact rest

/-- A read that touches it gets no data. -/
theorem readDws_of_spoiled {s : State} {d : Nat} (spoiled : Spoiled s d) {fuel : Nat} (agent : Nat) {a n : Nat}
    (low : a ≤ 8 * d) (high : 8 * d < a + n) (enough : n ≤ fuel) : (readDws fuel s agent a n).2 = none := by
  induction fuel generalizing s a n with
  | zero => omega
  | succ fuel ih =>
    have some' : ¬n = 0 := by omega
    unfold readDws
    rw [if_neg some']
    dsimp only
    by_cases here : d = a / 8
    · subst here
      rw [fetchDw_of_bad spoiled.untagged spoiled.bad]
    · have rest := ih ((elsewhere_fetchDw s agent (a / 8)).spoiled here spoiled)
        (a := a + min (8 - a % 8) n) (n := n - min (8 - a % 8) n) (by omega) (by omega) (by omega)
      rw [rest]
      split
      · next found => exact nomatch found
      · rfl

theorem spoiled_readReq {s : State} {d : Nat} (spoiled : Spoiled s d) (agent : Nat) {a n : Nat}
    (apart : a + n ≤ 8 * d) : Spoiled (readReq s agent a n).1 d := by
  have read := spoiled_readDws spoiled n agent apart
  unfold readReq
  split
  · exact spoiled
  · split <;> next got => rwa [got] at read

theorem readReq_of_spoiled {s : State} {d : Nat} (spoiled : Spoiled s d) (agent : Nat) {a n : Nat}
    (low : a ≤ 8 * d) (high : 8 * d < a + n) : ∃ e, (readReq s agent a n).2 = .error e := by
  have nothing := readDws_of_spoiled spoiled agent low high (Nat.le_refl n)
  unfold readReq
  split
  · exact ⟨_, rfl⟩
  · split
    · next got =>
      rw [got] at nothing
      exact nomatch nothing
    · exact ⟨_, rfl⟩

theorem readMany_of_spoiled {s : State} {d : Nat} (spoiled : Spoiled s d) {fuel : Nat} (agent : Nat) {a n : Nat}
    (low : a ≤ 8 * d) (high : 8 * d < a + n) (enough : n ≤ 256 * fuel - a % 256) :
    ∃ e, (readMany fuel s agent a n).2 = .error e := by
  induction fuel generalizing s a n with
  | zero => omega
  | succ fuel ih =>
    have some' : ¬n = 0 := by omega
    obtain ⟨k, hk⟩ : ∃ k, k = min (256 - a % 256) n := ⟨_, rfl⟩
    unfold readMany
    rw [if_neg some', ← hk]
    dsimp only
    by_cases here : 8 * d < a + k
    · obtain ⟨e, error⟩ := readReq_of_spoiled spoiled agent low here
      rw [error]
      exact ⟨e, rfl⟩
    · obtain ⟨e, error⟩ := ih (spoiled_readReq spoiled agent (a := a) (n := k) (by omega)) (a := a + k) (n := n - k)
        (by omega) (by omega) (by omega)
      rw [error]
      split
      · next found => exact nomatch found
      · exact ⟨_, rfl⟩
      · exact ⟨_, rfl⟩

end Sys2Proof.Machine
end

section
/-! PROOFS. The verification of a slot by the boot ROM (chapter 02, R81 to R87, R93): the payload that it
copies and reads back, the code it finds, and what a slot that is tried leaves. -/

open Sys2Proof

namespace Sys2Proof.Machine

/-! ### The copy of the payload (R87) -/

/-- Bytes laid from an address on are read there. -/
theorem peek_of_row {s t : State} {a : Nat} {b : List Byte} (h : Painted (.row a (b.map some)) s t) :
    peek t a b.length = b := by
  refine List.ext_getElem (by simp [peek]) fun i lo hi => ?_
  simp only [peek, List.getElem_map, List.getElem_range, byteAt]
  refine (h.bytes (a + i)).trans ?_
  rw [Stroke.row_some a b hi, List.getD_eq_getElem _ _ hi]
  rfl

theorem copyPayload_of_sound {s : State} (h : Sound s) (p : List Byte) :
    ∃ t, copyPayload s p none = (t, some p) ∧ Painted (.row 0 (p.map some)) s t := by
  obtain ⟨wrote, painted⟩ := writeMany_of_sound h 2 (fuel := p.length / 256 + 2) (a := imageBase) (b := p)
    (by rw [imageBase]; omega)
  obtain ⟨⟨u, e⟩, is⟩ : ∃ w, writeMany (p.length / 256 + 2) s 2 imageBase p = w := ⟨_, rfl⟩
  rw [is] at wrote painted
  obtain rfl : e = none := wrote
  obtain ⟨t, read, blank⟩ := readMany_peek_of_sound painted.sound 2 (fuel := p.length / 256 + 2) (a := imageBase)
    (n := p.length) (by rw [imageBase]; omega)
  rw [peek_of_row painted] at read
  refine ⟨t, ?_, (painted.trans blank).congr fun x => Option.none_or.symm⟩
  simp only [copyPayload, writeMem, is, readMem, read]

theorem copyPayload_of_hit {s : State} (free : Disarmed s) {p : List Byte} {d : Fin 65536}
    (inside : 8 * d.val < p.length) : (copyPayload s p (some d)).2 = none := by
  obtain ⟨-, clean⟩ := tended_writeMany free 2 (fuel := p.length / 256 + 2) (a := imageBase) (b := p)
    (by rw [imageBase]; omega)
  obtain ⟨⟨u, e⟩, is⟩ : ∃ w, writeMany (p.length / 256 + 2) s 2 imageBase p = w := ⟨_, rfl⟩
  rw [is] at clean
  cases e with
  | some e => simp only [copyPayload, writeMem, is]
  | none =>
    have here : CleanDw u (imageBase / 8 + d.val) := by
      have := clean rfl (8 * d.val) (Nat.zero_le _) (by rw [imageBase]; omega)
      rwa [show 8 * d.val / 8 = imageBase / 8 + d.val by rw [imageBase]; omega] at this
    obtain ⟨e, error⟩ := readMany_of_spoiled (spoiled_strikeDw here) 2 (fuel := p.length / 256 + 2)
      (a := imageBase) (n := p.length) (by rw [imageBase]; omega) (by rw [imageBase]; omega)
      (by rw [imageBase]; omega)
    obtain ⟨⟨v, x⟩, got⟩ : ∃ w, readMany (p.length / 256 + 2) (strikeDw u (imageBase / 8 + d.val)) 2 imageBase
      p.length = w := ⟨_, rfl⟩
    rw [got] at error
    obtain rfl : x = .error e := error
    simp only [copyPayload, writeMem, is, inside, if_true, readMem, got]

theorem disarmed_readDws {s : State} (free : Disarmed s) (fuel agent a n : Nat) :
    Disarmed (readDws fuel s agent a n).1 := by
  induction fuel generalizing s a n with
  | zero => exact free
  | succ fuel ih =>
    unfold readDws
    dsimp only
    split
    · exact free
    · have rest := ih (tended_fetchDw free agent (a / 8)).disarmed (a + min (8 - a % 8) n) (n - min (8 - a % 8) n)
      split <;> exact rest

theorem disarmed_readReq {s : State} (free : Disarmed s) (agent a n : Nat) :
    Disarmed (readReq s agent a n).1 := by
  have read := disarmed_readDws free n agent a n
  unfold readReq
  split
  · exact free
  · split <;> next got => rwa [got] at read

theorem disarmed_readMany {s : State} (free : Disarmed s) (fuel agent a n : Nat) :
    Disarmed (readMany fuel s agent a n).1 := by
  induction fuel generalizing s a n with
  | zero => exact free
  | succ fuel ih =>
    unfold readMany
    dsimp only
    split
    · exact free
    · have rest := ih (disarmed_readReq free agent a (min (256 - a % 256) n)) (a + min (256 - a % 256) n)
        (n - min (256 - a % 256) n)
      split <;> exact rest

theorem disarmed_copyPayload {s : State} (free : Disarmed s) (p : List Byte) (hit : Option (Fin 65536)) :
    Disarmed (copyPayload s p hit).1 := by
  obtain ⟨wrote, -⟩ := tended_writeMany free 2 (fuel := p.length / 256 + 2) (a := imageBase) (b := p)
    (by rw [imageBase]; omega)
  have wrote := wrote.disarmed
  obtain ⟨⟨u, e⟩, is⟩ : ∃ w, writeMany (p.length / 256 + 2) s 2 imageBase p = w := ⟨_, rfl⟩
  rw [is] at wrote
  have read : ∀ v, Disarmed v → Disarmed (readMem v 2 imageBase p.length).1 :=
    fun v free => disarmed_readMany free _ 2 imageBase p.length
  simp only [copyPayload, writeMem, is]
  cases e with
  | some e => exact wrote
  | none =>
    cases hit with
    | none =>
      have after := read u wrote
      dsimp only
      split <;> next got => rwa [got] at after
    | some d =>
      have after := read (if 8 * d.val < p.length then strikeDw u (imageBase / 8 + d.val) else u) (by
        split <;> exact wrote)
      dsimp only
      split <;> next got => rwa [got] at after

/-! ### The code of a slot (R86) -/

theorem verifyImage_none_ne (s : State) (g : ImageBytes) : verifyImage s true g none ≠ 0 := by
  unfold verifyImage
  rw [if_neg (by decide)]
  split
  · decide
  · split
    · decide
    · split
      · decide
      · split
        · decide
        · split
          · decide
          · rw [Option.any_none, if_neg (by decide)]
            decide

theorem verifyImage_congr {s t : State} (same : t.otp = s.otp) (ok : Bool) (g : ImageBytes)
    (p : Option (List Byte)) : verifyImage t ok g p = verifyImage s ok g p := by
  unfold verifyImage keyHashOf
  rw [same]

/-- What the boot ROM finds of a slot whose copy in Basin is read (R86, R198). -/
def slotCode (s : State) (r : SlotReads) (k : Nat) : Nat :=
  if r.header && r.payload then
    (Tab.find? s.flashBad k).getD (verifyWhole s true (flashBytes s (slotBase k)))
  else 7

/-- The payload that the boot ROM copies. -/
def slotPayload (s : State) (k : Nat) : List Byte :=
  flashBytes s (slotBase k) 0x100 (imgLength (flashBytes s (slotBase k)))

theorem length_slotPayload (s : State) (k : Nat) :
    (slotPayload s k).length = imgLength (flashBytes s (slotBase k)) := by
  rw [slotPayload, flashBytes, List.length_map, List.length_range]

section verify
variable {s : State} {r : SlotReads} {k : Nat}

theorem bootVerify_of_unread (unread : (r.header && r.payload) = false) : bootVerify s k r = (s, 7, []) := by
  unfold bootVerify
  dsimp only
  rw [if_pos (by rw [unread]; rfl)]

theorem bootVerify_of_flashBad {c : Nat} (readable : (r.header && r.payload) = true)
    (up : running s islPI = true) (bad : Tab.find? s.flashBad k = some c) : bootVerify s k r = (s, c, []) := by
  simp only [bootVerify, readable, up, bad, Bool.and_self, Bool.not_true, Bool.false_eq_true, if_false]

theorem bootVerify_of_header (readable : (r.header && r.payload) = true) (up : running s islPI = true)
    (good : Tab.find? s.flashBad k = none)
    (wrong : imgMagic (flashBytes s (slotBase k)) ≠ 0x4B4C4B41 ∨ headerOk (flashBytes s (slotBase k)) = false) :
    bootVerify s k r = (s, verifyImage s true (flashBytes s (slotBase k)) none, []) := by
  simp only [bootVerify, readable, up, good, Bool.and_self, Bool.not_true, Bool.false_eq_true, if_false]
  rw [if_pos wrong]

theorem bootVerify_of_copy (readable : (r.header && r.payload) = true) (up : running s islPI = true)
    (good : Tab.find? s.flashBad k = none)
    (right : ¬(imgMagic (flashBytes s (slotBase k)) ≠ 0x4B4C4B41 ∨ headerOk (flashBytes s (slotBase k)) = false)) :
    bootVerify s k r = ((copyPayload s (slotPayload s k) r.hit).1,
      verifyImage (copyPayload s (slotPayload s k) r.hit).1 true (flashBytes s (slotBase k))
        (copyPayload s (slotPayload s k) r.hit).2, (copyPayload s (slotPayload s k) r.hit).2.getD []) := by
  simp only [bootVerify, readable, up, good, Bool.and_self, Bool.not_true, Bool.false_eq_true, if_false]
  rw [if_neg right]
  rfl

/-- A slot whose header fails has the same code without its payload. -/
theorem verifyWhole_of_header
    (wrong : imgMagic (flashBytes s (slotBase k)) ≠ 0x4B4C4B41 ∨ headerOk (flashBytes s (slotBase k)) = false) :
    verifyWhole s true (flashBytes s (slotBase k)) = verifyImage s true (flashBytes s (slotBase k)) none := by
  unfold verifyWhole
  cases head : headerOk (flashBytes s (slotBase k)) with
  | false => rw [if_neg Bool.false_ne_true]
  | true =>
    have magic := wrong.resolve_right (by rw [head]; exact Bool.false_ne_true.symm)
    simp only [verifyImage, magic, Bool.not_true, Bool.false_eq_true, if_false, ne_eq, not_false_eq_true, if_true]

/-- Without a struck doubleword the boot ROM finds the slot's code, and a slot without a fault stands in
Basin. -/
theorem bootVerify_of_sound (h : Sound s) (up : running s islPI = true) (unhit : r.hit = none) :
    ∃ u p w, bootVerify s k r = (u, slotCode s r k, p) ∧ Painted w s u ∧
      (slotCode s r k = 0 → Tab.find? s.flashBad k = none → ∀ i < imgLength (flashBytes s (slotBase k)),
        Memory.byte u.basin.bytes i = Tab.get 0xFF s.flash (slotBase k + 0x100 + i)) := by
  cases readable : r.header && r.payload with
  | false =>
    have code : slotCode s r k = 7 := if_neg (by rw [readable]; exact Bool.false_ne_true)
    refine ⟨s, [], .blank, ?_, h.refl, fun zero => ?_⟩
    · rw [bootVerify_of_unread readable, code]
    · rw [code] at zero
      exact absurd zero (by decide)
  | true =>
    cases good : Tab.find? s.flashBad k with
    | some c =>
      have code : slotCode s r k = c := by
        rw [slotCode, if_pos readable, good, Option.getD_some]
      refine ⟨s, [], .blank, ?_, h.refl, fun _ no => nomatch no⟩
      rw [bootVerify_of_flashBad readable up good, code]
    | none =>
      have code : slotCode s r k = verifyWhole s true (flashBytes s (slotBase k)) := by
        rw [slotCode, if_pos readable, good, Option.getD_none]
      by_cases wrong : imgMagic (flashBytes s (slotBase k)) ≠ 0x4B4C4B41 ∨
          headerOk (flashBytes s (slotBase k)) = false
      · refine ⟨s, [], .blank, ?_, h.refl, fun zero => ?_⟩
        · rw [bootVerify_of_header readable up good wrong, code, verifyWhole_of_header wrong]
        · rw [code, verifyWhole_of_header wrong] at zero
          exact absurd zero (verifyImage_none_ne _ _)
      · obtain ⟨t, copied, painted⟩ := copyPayload_of_sound h (slotPayload s k)
        have head : headerOk (flashBytes s (slotBase k)) = true := by
          by_contra no
          exact wrong (.inr ((Bool.not_eq_true _).mp no))
        have otp : t.otp = s.otp := by
          have kept := (copyPayload_follows s (slotPayload s k) none).otp (by decide)
          rwa [copied] at kept
        refine ⟨t, slotPayload s k, _, ?_, painted, fun _ _ i inside => ?_⟩
        · rw [bootVerify_of_copy readable up good wrong, unhit, copied, code, verifyWhole, if_pos head]
          rw [verifyImage_congr otp]
          rfl
        · have here := painted.bytes i
          rw [← Nat.zero_add i, Stroke.row_some 0 _ (by rw [length_slotPayload]; exact inside)] at here
          rw [← Nat.zero_add i, here]
          simp [slotPayload, flashBytes, inside]

/-- A struck doubleword of its payload keeps a slot from starting (R87). -/
theorem bootVerify_of_hit (free : Disarmed s) (up : running s islPI = true)
    (good : Tab.find? s.flashBad k = none) {d : Fin 65536} (hit : r.hit = some d)
    (inside : 8 * d.val < imgLength (flashBytes s (slotBase k))) : (bootVerify s k r).2.1 ≠ 0 := by
  cases readable : r.header && r.payload with
  | false =>
    rw [bootVerify_of_unread readable]
    exact Nat.succ_ne_zero 6
  | true =>
    by_cases wrong : imgMagic (flashBytes s (slotBase k)) ≠ 0x4B4C4B41 ∨
        headerOk (flashBytes s (slotBase k)) = false
    · rw [bootVerify_of_header readable up good wrong]
      exact verifyImage_none_ne _ _
    · rw [bootVerify_of_copy readable up good wrong, hit,
        copyPayload_of_hit free (by rw [length_slotPayload]; exact inside)]
      exact verifyImage_none_ne _ _

theorem disarmed_bootVerify (free : Disarmed s) (up : running s islPI = true) :
    Disarmed (bootVerify s k r).1 := by
  cases readable : r.header && r.payload with
  | false =>
    rw [bootVerify_of_unread readable]
    exact free
  | true =>
    cases good : Tab.find? s.flashBad k with
    | some c =>
      rw [bootVerify_of_flashBad readable up good]
      exact free
    | none =>
      by_cases wrong : imgMagic (flashBytes s (slotBase k)) ≠ 0x4B4C4B41 ∨
          headerOk (flashBytes s (slotBase k)) = false
      · rw [bootVerify_of_header readable up good wrong]
        exact free
      · rw [bootVerify_of_copy readable up good wrong]
        exact disarmed_copyPayload free _ _

end verify

end Sys2Proof.Machine
end

section
/-! PROOFS. The boot ROM's tries and COMMISSION (chapter 02, R78 to R94), and the obligation O10. -/

open Sys2Proof

namespace Sys2Proof.Machine

/-! ### While the boot ROM tries the slots -/

/-- What holds while the boot ROM tries the slots of a device that came from reset as `s`. -/
structure Booting (s : State) (ok : Bool) (u : State) : Prop where
  otp : u.otp = s.otp
  flash : u.flash = s.flash
  flashBad : u.flashBad = s.flashBad
  tick : u.tick = s.tick
  islands : u.islands = []
  win : u.win = {}
  gens : u.fw.gens = []
  awake : u.sys.inReset = false
  resetCause : u.sys.resetCause = s.sys.resetCause
  mode : u.sys.mode = 0
  sfdpOk : u.sys.sfdpOk = ok
  tried : ∀ k, tried u k = tried s k
  disarmed : Disarmed u

/-- What keeps everything but Basin, the staging area and the trace keeps it. -/
theorem Booting.of_follows {s u v : State} {ok : Bool} (h : Booting s ok u)
    (follows : Follows [.out, .basin, .staging, .intc, .pcie, .fw] u v) (tables : v.fw.tables = u.fw.tables)
    (free : Disarmed v) : Booting s ok v := by
  have sys : v.sys = u.sys := follows.sys (by decide)
  refine ⟨(follows.otp (by decide)).trans h.otp, (follows.flash (by decide)).trans h.flash,
    (follows.flashBad (by decide)).trans h.flashBad, (follows.tick (by decide)).trans h.tick,
    (follows.islands (by decide)).trans h.islands, (follows.win (by decide)).trans h.win,
    (gens_of_tables tables).trans h.gens, ?_, ?_, ?_, ?_, fun k => ?_, free⟩
  · rw [sys, h.awake]
  · rw [sys, h.resetCause]
  · rw [sys, h.mode]
  · rw [sys, h.sfdpOk]
  · rw [Machine.tried, sys]
    exact h.tried k

theorem Booting.up {s u : State} {ok : Bool} (h : Booting s ok u) (i : Nat) : running u i = true := by
  rw [running, isl, h.islands]
  rfl

theorem Booting.image {s u : State} {ok : Bool} (h : Booting s ok u) (k : Nat) :
    flashBytes u k = flashBytes s k := by
  unfold flashBytes
  rw [h.flash]

theorem Booting.slotCode_eq {s u : State} {ok : Bool} (h : Booting s ok u) (r : SlotReads) (k : Nat) :
    slotCode u r k = slotCode s r k := by
  simp only [slotCode, verifyWhole, h.flashBad, h.image, verifyImage_congr h.otp]

/-- The code of a slot's last try (R94). -/
def failOf (s : State) (k : Nat) : BitVec 4 := if k = 1 then s.sys.failA else s.sys.failB

theorem booting_setFail {s u : State} {ok : Bool} (h : Booting s ok u) (k c : Nat) : Booting s ok (setFail u k c) := by
  have kept : (setFail u k c).sys.inReset = u.sys.inReset ∧ (setFail u k c).sys.resetCause = u.sys.resetCause ∧
      (setFail u k c).sys.mode = u.sys.mode ∧ (setFail u k c).sys.sfdpOk = u.sys.sfdpOk ∧
      (setFail u k c).sys.triedA = u.sys.triedA ∧ (setFail u k c).sys.triedB = u.sys.triedB := by
    by_cases one : k = 1
    · simp [setFail, onSys, one]
    · simp [setFail, onSys, one]
  obtain ⟨awake, cause, mode, sfdp, a, b⟩ := kept
  refine ⟨h.otp, h.flash, h.flashBad, h.tick, h.islands, h.win, h.gens, awake.trans h.awake,
    cause.trans h.resetCause, mode.trans h.mode, sfdp.trans h.sfdpOk, fun j => ?_, h.disarmed⟩
  rw [Machine.tried, a, b]
  exact h.tried j

theorem failOf_setFail_self (s : State) (k c : Nat) : failOf (setFail s k c) k = BitVec.ofNat 4 c := by
  by_cases one : k = 1 <;> simp [failOf, setFail, onSys, one]

theorem failOf_setFail_of_ne (s : State) {k j : Nat} (c : Nat) (ne : (j = 1) ↔ ¬(k = 1)) :
    failOf (setFail s k c) j = failOf s j := by
  by_cases one : k = 1
  · have other : ¬j = 1 := fun h => ne.mp h one
    simp [failOf, setFail, onSys, one, other]
  · have other : j = 1 := ne.mpr one
    simp [failOf, setFail, onSys, one, other]

/-- A slot that was started: loaded, marked and guarded by the watchdog (R82, R93). -/
def started (s : State) (k : Nat) (p : List Byte) : State :=
  onSys (loadImage (setTried s k true) k p) (fun x => { x with
    slot := BitVec.ofNat 2 k, stage := 6, wdtArmed := true,
    wdtStart := (loadImage (setTried s k true) k p).tick })

theorem trySlot_of_tried {s : State} {k : Nat} (r : SlotReads) (tried' : tried s k = true) :
    trySlot s k r = (setFail s k 9, false) := if_pos tried'

theorem trySlot_of_code {s u : State} {k c : Nat} {r : SlotReads} {p : List Byte} (fresh : tried s k = false)
    (verify : bootVerify s k r = (u, c, p)) (bad : c ≠ 0) : trySlot s k r = (setFail u k c, false) := by
  rw [trySlot, if_neg (by rw [fresh]; exact Bool.false_ne_true), verify]
  exact if_pos bad

theorem trySlot_of_good {s u : State} {k : Nat} {r : SlotReads} {p : List Byte} (fresh : tried s k = false)
    (verify : bootVerify s k r = (u, 0, p)) : trySlot s k r = (started u k p, true) := by
  rw [trySlot, if_neg (by rw [fresh]; exact Bool.false_ne_true), verify]
  rfl

theorem bootVerify_tables (s : State) (k : Nat) (r : SlotReads) :
    (bootVerify s k r).1.fw.tables = s.fw.tables := by
  have copied : ∀ p, (copyPayload s p r.hit).1.fw.tables = s.fw.tables := by
    intro p
    obtain ⟨⟨u, e⟩, is⟩ : ∃ w, writeMem s 2 imageBase p = w := ⟨_, rfl⟩
    have wrote := writeMem_tables s 2 imageBase p
    rw [is] at wrote
    have read : ∀ v, v.fw = u.fw → (readMem v 2 imageBase p.length).1.fw.tables = s.fw.tables :=
      fun v same => (readMem_tables v 2 imageBase p.length).trans ((congrArg Fw.tables same).trans wrote)
    simp only [copyPayload, is]
    cases e with
    | some e => exact wrote
    | none =>
      cases hit : r.hit with
      | none =>
        have after := read u rfl
        dsimp only
        split <;> next got => rwa [got] at after
      | some d =>
        have after := read (if 8 * d.val < p.length then strikeDw u (imageBase / 8 + d.val) else u) (by
          split <;> rfl)
        dsimp only
        split <;> next got => rwa [got] at after
  unfold bootVerify
  dsimp only
  split
  · rfl
  · split
    · rfl
    · split
      · rfl
      · exact copied _

theorem Booting.verified {s u : State} {ok : Bool} (h : Booting s ok u) (k : Nat) (r : SlotReads) :
    Booting s ok (bootVerify u k r).1 :=
  h.of_follows (bootVerify_follows ..) (bootVerify_tables ..) (disarmed_bootVerify h.disarmed (h.up _))

/-- A try starts its slot, or goes on; a slot starts only where no struck doubleword is in its payload. -/
theorem trySlot_of_booting {s u : State} {ok : Bool} (h : Booting s ok u) (k : Nat) (r : SlotReads) :
    ∃ v, Booting s ok v ∧ (trySlot u k r = (v, false) ∨ ∃ p, trySlot u k r = (started v k p, true) ∧
      (Tab.find? s.flashBad k = none → ∀ d : Fin 65536, r.hit = some d →
        imgLength (flashBytes s (slotBase k)) ≤ 8 * d.val)) := by
  cases before : tried u k with
  | true => exact ⟨_, booting_setFail h k 9, .inl (trySlot_of_tried r before)⟩
  | false =>
    have after := h.verified k r
    have hits : Tab.find? s.flashBad k = none → ∀ d : Fin 65536, r.hit = some d →
        8 * d.val < imgLength (flashBytes s (slotBase k)) → (bootVerify u k r).2.1 ≠ 0 := by
      intro good d hit inside
      rw [← h.image] at inside
      exact bootVerify_of_hit h.disarmed (h.up _) ((congrArg (Tab.find? · k) h.flashBad).trans good) hit inside
    obtain ⟨⟨v, c, p⟩, verify⟩ : ∃ w, bootVerify u k r = w := ⟨_, rfl⟩
    rw [verify] at after hits
    by_cases zero : c = 0
    · subst zero
      refine ⟨v, after, .inr ⟨p, trySlot_of_good before verify, fun good d hit => ?_⟩⟩
      exact Nat.le_of_not_lt fun inside => hits good d hit inside rfl
    · exact ⟨_, booting_setFail after k c, .inl (trySlot_of_code before verify zero)⟩

/-! ### Tries on a sound Basin -/

/-- Before any error: Basin is sound and no record is staged. -/
structure Calm (s : State) : Prop where
  sound : Sound s
  staging : s.staging = []

/-- Slot `k` does not start. -/
def slotBad (s : State) (r : SlotReads) (k : Nat) : Bool := tried s k || decide (slotCode s r k ≠ 0)

/-- The code that a slot's try leaves in SYS_BOOT_FAIL. -/
def failCode (s : State) (r : SlotReads) (k : Nat) : Nat := if tried s k then 9 else slotCode s r k

theorem trySlot_of_bad {s u : State} {ok : Bool} (h : Booting s ok u) (calm : Calm u) {k : Nat} {r : SlotReads}
    (unhit : r.hit = none) (bad : slotBad s r k = true) :
    ∃ v, trySlot u k r = (v, false) ∧ Booting s ok v ∧ Calm v ∧ failOf v k = BitVec.ofNat 4 (failCode s r k) ∧
      ∀ j, ((j = 1) ↔ ¬(k = 1)) → failOf v j = failOf u j := by
  have calm' : ∀ {v : State} (c : Nat), Sound v → v.staging = [] → Calm (setFail v k c) :=
    fun c sound staging => ⟨⟨sound.clean, sound.up, sound.unarmed⟩, staging⟩
  cases before : tried s k with
  | true =>
    refine ⟨_, trySlot_of_tried r ((h.tried k).trans before), booting_setFail h k 9,
      calm' 9 calm.sound calm.staging, ?_, fun j ne => failOf_setFail_of_ne u 9 ne⟩
    rw [failOf_setFail_self, failCode, if_pos before]
  | false =>
    have code : slotCode u r k ≠ 0 := by
      rw [h.slotCode_eq]
      simpa [slotBad, before] using bad
    obtain ⟨v, p, w, verify, painted, -⟩ := bootVerify_of_sound calm.sound (h.up _) unhit
    have after := h.verified k r
    have sys : v.sys = u.sys := by
      have kept := (bootVerify_follows u k r).sys (by decide)
      rwa [verify] at kept
    rw [verify] at after
    refine ⟨_, trySlot_of_code ((h.tried k).trans before) verify code, booting_setFail after k _,
      calm' _ painted.sound (painted.staging.trans calm.staging), ?_, fun j ne => ?_⟩
    · rw [failOf_setFail_self, failCode, if_neg (by rw [before]; exact Bool.false_ne_true), h.slotCode_eq]
    · rw [failOf_setFail_of_ne _ _ ne, failOf, sys]
      rfl

theorem trySlot_of_not_bad {s u : State} {ok : Bool} (h : Booting s ok u) (calm : Calm u) {k : Nat}
    {r : SlotReads} (unhit : r.hit = none) (good : slotBad s r k = false) :
    ∃ v p, trySlot u k r = (started v k p, true) ∧ Booting s ok v ∧
      (Tab.find? s.flashBad k = none → ∀ i < imgLength (flashBytes s (slotBase k)),
        Memory.byte v.basin.bytes i = Tab.get 0xFF s.flash (slotBase k + 0x100 + i)) := by
  rw [slotBad, Bool.or_eq_false_iff, decide_eq_false_iff_not, not_not] at good
  obtain ⟨before, code⟩ := good
  obtain ⟨v, p, w, verify, -, copied⟩ := bootVerify_of_sound calm.sound (h.up _) unhit
  have after := h.verified k r
  rw [h.slotCode_eq, code] at verify copied
  rw [verify] at after
  refine ⟨v, p, trySlot_of_good ((h.tried k).trans before) verify, after, fun none' i inside => ?_⟩
  rw [h.image] at copied
  rw [copied rfl ((congrArg (Tab.find? · k) h.flashBad).trans none') i inside, h.flash]

/-! ### RECOVER (R80, R85, R136) -/

/-- RECOVER from a device that boots: the mode, the guards of pages 0 to 15, and a record of it. -/
structure Recovering (u t : State) (cause : Nat) : Prop where
  sys : t.sys = { u.sys with
    stage := 7, mode := 1, prevMode := 0, cause := BitVec.ofNat 4 cause, changeCount := u.sys.changeCount + 1 }
  guards : ∀ p, t.win.guards.get 0 p = if p < 16 then 3 else 0
  records : u.staging = [] →
    t.staging.map (fun r => (r.type, r.payload)) = [(3, pack [(4, 1), (8, cause)])]
  basin : t.basin = u.basin
  gens : t.fw.gens = u.fw.gens

theorem staged_shown (r : Rec) (c : Option (Nat × Nat)) :
    ((r.staged c).type, (r.staged c).payload) = (r.type, r.payload) := by
  unfold Rec.staged
  split <;> rfl

theorem type_staged (r : Rec) (c : Option (Nat × Nat)) : (r.staged c).type = r.type :=
  congrArg Prod.fst (staged_shown r c)

theorem sys_enterMode (s : State) (m : BitVec 4) (cause : Nat) :
    (enterMode s m cause).sys = { s.sys with
      mode := m, prevMode := s.sys.mode, cause := BitVec.ofNat 4 cause, changeCount := s.sys.changeCount + 1 } :=
  (postCycleRec_follows ..).sys (by decide)

/-- A change of mode posts its record (R60). -/
theorem staging_enterMode {s : State} {m : BitVec 4} {cause : Nat} (room : s.staging.length < 1024) :
    (enterMode s m cause).staging.map (fun r => (r.type, r.payload)) =
      s.staging.map (fun r => (r.type, r.payload)) ++
        [(3, pack [(0, s.sys.mode.toNat), (4, m.toNat), (8, cause)])] := by
  refine (congrArg (List.map _) (staging_stage (s := onSys s _) room _)).trans ?_
  rw [List.map_append]
  exact congrArg _ (congrArg (fun x => [x]) (staged_shown ..))

theorem gens_enterMode (s : State) (m : BitVec 4) (cause : Nat) : (enterMode s m cause).fw.gens = s.fw.gens :=
  gens_of_tables (enterMode_tables ..)

theorem recovering_toRecover {u : State} (mode : u.sys.mode = 0) (win : u.win = {}) (cause : Nat) : Recovering u (toRecover u cause) cause := by
  obtain ⟨v, is⟩ : ∃ v, enterMode (onSys u (fun x => { x with stage := 7 })) mRECOVER cause = v := ⟨_, rfl⟩
  have follows := enterMode_follows (onSys u (fun x => { x with stage := 7 })) mRECOVER cause
  have sys := sys_enterMode (onSys u (fun x => { x with stage := 7 })) mRECOVER cause
  have records := staging_enterMode (s := onSys u (fun x => { x with stage := 7 })) (m := mRECOVER) (cause := cause)
  have gens := gens_enterMode (onSys u (fun x => { x with stage := 7 })) mRECOVER cause
  rw [is] at follows sys records gens
  have guarded := setGuards_follows v 0 16 3
  have at' : toRecover u cause = setGuards v 0 16 3 := congrArg (setGuards · 0 16 3) is
  rw [at']
  refine ⟨(guarded.sys (by decide)).trans (sys.trans ?_), fun p => ?_, fun none' => ?_, ?_, ?_⟩
  · show ({ u.sys with stage := _, mode := _, prevMode := u.sys.mode, cause := _, changeCount := _ } : Sys) = _
    rw [mode]
    rfl
  · rw [guards_setGuards, Nat.zero_add, follows.win (by decide)]
    show (if 0 ≤ p ∧ p < 16 then 3 else u.win.guards.get 0 p) = _
    rw [win]
    exact if_congr (and_iff_right (Nat.zero_le p)) rfl rfl
  · have few : u.staging.length < 1024 := by
      rw [none']
      decide
    rw [guarded.staging (by decide), records few]
    refine (congrArg (List.map _ · ++ _) none').trans (congrArg (fun x => [((3 : BitVec 8), x)]) ?_)
    show pack [(0, u.sys.mode.toNat), (4, 1), (8, cause)] = _
    rw [mode]
    exact pack_zero ..
  · exact (guarded.basin (by decide)).trans (follows.basin (by decide))
  · exact (congrArg Fw.gens (guarded.fw (by decide))).trans gens

/-! ### The reset sequence (R78 to R85) -/

/-- The device as a reset leaves it, released (R78). -/
def released (s : State) : State :=
  onSys (deviceReset s rcPOR) (fun x => { x with
    resetCause := s.sys.resetCause, inReset := false, powerOn := false, stage := 2 })

/-- The device as the boot ROM begins to try its slots (R81). -/
def readied (s : State) (sfdp : Sfdp) : State :=
  onSys (released s) (fun x => { x with
    stage := 5, sfdpOk := sfdp.ok, addr4 := sfdp.ok && sfdp.addr4,
    readLanes := if sfdp.ok then BitVec.ofNat 2 sfdp.lanes.val else 0 })

theorem booting_readied (s : State) (sfdp : Sfdp) : Booting s sfdp.ok (readied s sfdp) :=
  ⟨rfl, rfl, rfl, rfl, rfl, rfl, rfl, rfl, rfl, rfl, rfl, fun _ => rfl, fun _ => rfl⟩

theorem calm_readied (s : State) (sfdp : Sfdp) : Calm (readied s sfdp) := by
  have basin : (readied s sfdp).basin = {} := rfl
  refine ⟨⟨fun d => ?_, fun _ => rfl, fun _ => rfl⟩, rfl⟩
  rw [CleanDw, dwTag, dwSynd, basin]
  exact ⟨(by decide : ({} : Tag).vote = false), rfl⟩

section release
variable {s : State} {sfdp : Sfdp} {readA readB : SlotReads}

theorem exec_resetRelease_of_awake (basinOk strapLow : Bool) (awake : s.sys.inReset = false) :
    exec (.resetRelease basinOk strapLow sfdp readA readB) s = .next s := by
  refine (congrArg Host.Outcome.next (if_pos ?_) : execResetRelease .. = _)
  rw [awake]
  rfl

theorem exec_resetRelease_of_basinFail (strapLow : Bool) (held : s.sys.inReset = true) :
    exec (.resetRelease false strapLow sfdp readA readB) s =
      .next (onSys (released s) (fun x => { x with basinFail := true, halted := true })) := by
  refine (congrArg Host.Outcome.next (if_neg ?_) : execResetRelease .. = _)
  rw [held]
  decide

theorem exec_resetRelease_of_strap (held : s.sys.inReset = true) :
    exec (.resetRelease true true sfdp readA readB) s =
      .next (toRecover (onSys (released s) (fun x => { x with strap := true })) 6) := by
  refine (congrArg Host.Outcome.next (if_neg ?_) : execResetRelease .. = _)
  rw [held]
  decide

theorem exec_resetRelease_of_boot (held : s.sys.inReset = true) :
    exec (.resetRelease true false sfdp readA readB) s = .next (bootSlots (released s) sfdp readA readB) := by
  refine (congrArg Host.Outcome.next (if_neg ?_) : execResetRelease .. = _)
  rw [held]
  decide

/-- The reads of a slot. -/
def readsOf (readA readB : SlotReads) (k : Nat) : SlotReads := if k = 1 then readA else readB

/-- Both slots tried, in the order of R81. -/
def triedBoth (u : State) (readA readB : SlotReads) : State :=
  let k := firstSlotOf u readA.header readB.header
  match trySlot u k (readsOf readA readB k) with
  | (v, true) => v
  | (v, false) =>
    match trySlot v (3 - k) (readsOf readA readB (3 - k)) with
    | (w, true) => w
    | (w, false) => toRecover w 5

theorem bootSlots_released (s : State) (sfdp : Sfdp) (readA readB : SlotReads) :
    bootSlots (released s) sfdp readA readB = triedBoth (readied s sfdp) readA readB :=
  (rfl)

theorem triedBoth_of_first {u t : State} {k : Nat} (first : firstSlotOf u readA.header readB.header = k)
    (one : trySlot u k (readsOf readA readB k) = (t, true)) : triedBoth u readA readB = t := by
  subst first
  simp only [triedBoth, one]

theorem triedBoth_of_second {u v t : State} {k : Nat} (first : firstSlotOf u readA.header readB.header = k)
    (one : trySlot u k (readsOf readA readB k) = (v, false))
    (two : trySlot v (3 - k) (readsOf readA readB (3 - k)) = (t, true)) : triedBoth u readA readB = t := by
  subst first
  simp only [triedBoth, one, two]

theorem triedBoth_of_neither {u v t : State} {k : Nat} (first : firstSlotOf u readA.header readB.header = k)
    (one : trySlot u k (readsOf readA readB k) = (v, false))
    (two : trySlot v (3 - k) (readsOf readA readB (3 - k)) = (t, false)) :
    triedBoth u readA readB = toRecover t 5 := by
  subst first
  simp only [triedBoth, one, two]

end release

/-- A slot that was started, in the terms of the device that came from reset. -/
structure Runs (s : State) (ok : Bool) (k : Nat) (t : State) : Prop where
  awake : t.sys.inReset = false
  resetCause : t.sys.resetCause = s.sys.resetCause
  gens : t.fw.gens = []
  sfdpOk : t.sys.sfdpOk = ok
  mode : t.sys.mode = 0
  stage : t.sys.stage = 6
  slot : t.sys.slot = BitVec.ofNat 2 k
  armed : t.sys.wdtArmed = true
  start : t.sys.wdtStart = s.tick
  tried : Machine.tried t k = true
  other : ∀ j, ((j = 1) ↔ ¬(k = 1)) → Machine.tried t j = Machine.tried s j

theorem Booting.runs {s v : State} {ok : Bool} (h : Booting s ok v) (k : Nat) (p : List Byte) :
    Runs s ok k (started v k p) := by
  have a : v.sys.triedA = s.sys.triedA := h.tried 1
  have b : v.sys.triedB = s.sys.triedB := h.tried 2
  have tick : (loadImage (setTried v k true) k p).tick = s.tick := h.tick
  by_cases one : k = 1
  · subst one
    refine ⟨h.awake, h.resetCause, h.gens, h.sfdpOk, h.mode, rfl, rfl, rfl, tick, rfl, fun j ne => ?_⟩
    have other : ¬j = 1 := fun is => ne.mp is rfl
    simp only [Machine.tried, other, if_false]
    exact b
  · have sys : (setTried v k true).sys = { v.sys with triedB := true } := by
      simp only [setTried, onSys, one, if_false]
    have all : (started v k p).sys = { v.sys with
        triedB := true, lkRam := (started v k p).sys.lkRam, reloading := false, slot := BitVec.ofNat 2 k,
        stage := 6, wdtArmed := true, wdtStart := (loadImage (setTried v k true) k p).tick } := by
      show ({ (setTried v k true).sys with
        lkRam := _, reloading := _, slot := _, stage := _, wdtArmed := _, wdtStart := _ } : Sys) = _
      rw [sys]
      rfl
    refine ⟨?_, ?_, h.gens, ?_, ?_, ?_, ?_, ?_, ?_, ?_, fun j ne => ?_⟩
    · rw [all, ← h.awake]
    · rw [all, ← h.resetCause]
    · rw [all, ← h.sfdpOk]
    · rw [all, ← h.mode]
    · rw [all]
    · rw [all]
    · rw [all]
    · rw [all, ← tick]
    · rw [Machine.tried, if_neg one, all]
    · obtain rfl : j = 1 := ne.mpr one
      rw [Machine.tried, if_pos rfl, all]
      exact a

/-- How the tries end: a slot runs that no struck doubleword keeps from it, or RECOVER is entered. -/
inductive BootEnd (s : State) (ok : Bool) (reads : Nat → SlotReads) (t : State) : Prop where
  | runs (k : Nat) (slot : k = 1 ∨ k = 2) (up : Runs s ok k t)
      (whole : Tab.find? s.flashBad k = none → ∀ d : Fin 65536, (reads k).hit = some d →
        imgLength (flashBytes s (slotBase k)) ≤ 8 * d.val)
  | recovers (v : State) (booting : Booting s ok v) (is : t = toRecover v 5)

/-- The first slot of R81 is one of the two. -/
theorem firstSlotOf_range (s : State) (a b : Bool) : firstSlotOf s a b = 1 ∨ firstSlotOf s a b = 2 := by
  unfold firstSlotOf
  dsimp only
  split
  · exact .inr rfl
  · exact .inl rfl

theorem bootEnd_triedBoth {s u : State} {ok : Bool} (h : Booting s ok u) (readA readB : SlotReads) :
    BootEnd s ok (readsOf readA readB) (triedBoth u readA readB) := by
  obtain ⟨k, first⟩ : ∃ k, firstSlotOf u readA.header readB.header = k := ⟨_, rfl⟩
  have range : k = 1 ∨ k = 2 := first ▸ firstSlotOf_range ..
  obtain ⟨v, after, one | ⟨p, one, whole⟩⟩ := trySlot_of_booting h k (readsOf readA readB k)
  · obtain ⟨w, last, two | ⟨p, two, whole⟩⟩ := trySlot_of_booting after (3 - k) (readsOf readA readB (3 - k))
    · rw [triedBoth_of_neither first one two]
      exact .recovers w last rfl
    · rw [triedBoth_of_second first one two]
      exact .runs (3 - k) (by omega) (last.runs (3 - k) p) whole
  · rw [triedBoth_of_first first one]
    exact .runs k range (after.runs k p) whole


/-! ### COMMISSION (R83, R270, R430) -/

/-- The device as the firmware reaches COMMISSION, before the mode changes. -/
def commissioning (s : State) : State :=
  (List.range 8).foldl (fun s n => deckBoot s n)
    (onFw (onTp (updRail (updRail (onSys s (fun x => { x with commissioned := true }))
        0 (fun r => { r with loopRun := true })) 1 (fun r => { r with loopRun := true }))
      (fun t => { t with pushBase := pushPage * 65536 }))
      (fun f => { f with fwRuns := f.fwRuns.put pushPage (pushSize / 65536) }))

/-- The device in COMMISSION. -/
def commissioned (s : State) : State :=
  cvStart (enterMode (setTried (commissioning s) s.sys.slot.toNat false) mCOMMISSION 0)

theorem exec_firmwareCommissionReached (s : State) :
    exec .firmwareCommissionReached s = .next
      (if s.sys.inReset || s.sys.commissioned || s.sys.stage ≠ 6 || !running s islLK then s
       else if tried (commissioned s) (3 - s.sys.slot.toNat) then
         postRec (commissioned s) islLK 0x04 0
           (pack [(0, (commissioned s).sys.failA.toNat), (4, (commissioned s).sys.failB.toNat)]) 0
       else commissioned s) := (rfl)

/-- What the firmware's first steps in COMMISSION leave. -/
structure Commissioned (s t : State) : Prop where
  basin : t.basin = s.basin
  sys : t.sys = { s.sys with
    commissioned := true, mode := 2, prevMode := s.sys.mode, cause := 0,
    changeCount := s.sys.changeCount + 1, triedA := decide (s.sys.slot.toNat ≠ 1) && s.sys.triedA,
    triedB := decide (s.sys.slot.toNat = 1) && s.sys.triedB }
  rails : ∀ r : Fin 2, railOf t r = { railOf s r with loopRun := true }
  records : s.staging = [] → t.staging.map (fun r => r.type) = [3]

theorem commissioning_kept (s : State) :
    (commissioning s).basin = s.basin ∧ (commissioning s).sys = { s.sys with commissioned := true } ∧
      (commissioning s).staging = s.staging ∧
      ∀ r : Fin 2, railOf (commissioning s) r = { railOf s r with loopRun := true } := by
  obtain ⟨u, is⟩ : ∃ u, updRail (updRail (onSys s (fun x => { x with commissioned := true }))
      0 (fun r => { r with loopRun := true })) 1 (fun r => { r with loopRun := true }) = u := ⟨_, rfl⟩
  have rails : ∀ r : Fin 2, railOf u r = { railOf s r with loopRun := true } := by
    intro r
    rw [← is]
    match r with
    | 0 => exact (railOf_updRail_of_ne _ _ (show 0 ≠ 1 by decide)).trans (railOf_updRail_self ..)
    | 1 =>
      refine (railOf_updRail_self _ 1 _).trans (congrArg (fun r : Rail => { r with loopRun := true }) ?_)
      exact railOf_updRail_of_ne _ _ (show 1 ≠ 0 by decide)
  have basin : u.basin = s.basin := by rw [← is]; rfl
  have sys : u.sys = { s.sys with commissioned := true } := by rw [← is]; rfl
  have staging : u.staging = s.staging := by rw [← is]; rfl
  have follows : Follows [.intc, .dh, .tp, .fw] u (commissioning s) := by
    rw [commissioning, is]
    exact Follows.foldl (((onTp_follows ..).mono (by decide)).trans ((onFw_follows ..).mono (by decide)))
      (fun v n => (deckBoot_follows v n).mono (by decide))
  refine ⟨(follows.basin (by decide)).trans basin, (follows.sys (by decide)).trans sys,
    (follows.staging (by decide)).trans staging, fun r => ?_⟩
  rw [railOf, follows.rails (by decide)]
  exact rails r

theorem commissioned_holds (s : State) : Commissioned s (commissioned s) := by
  obtain ⟨basin, sys, staging, rails⟩ := commissioning_kept s
  obtain ⟨v, is⟩ : ∃ v, setTried (commissioning s) s.sys.slot.toNat false = v := ⟨_, rfl⟩
  have tries := setTried_follows (commissioning s) s.sys.slot.toNat false
  rw [is] at tries
  have entered := enterMode_follows v mCOMMISSION 0
  have started' := cvStart_follows (enterMode v mCOMMISSION 0)
  have at' : commissioned s = cvStart (enterMode v mCOMMISSION 0) := by rw [commissioned, is]
  have sys' : v.sys = { s.sys with
      commissioned := true, triedA := decide (s.sys.slot.toNat ≠ 1) && s.sys.triedA,
      triedB := decide (s.sys.slot.toNat = 1) && s.sys.triedB } := by
    rw [← is]
    by_cases one : s.sys.slot.toNat = 1
    · simp [setTried, onSys, one, sys]
    · simp [setTried, onSys, one, sys]
  rw [at']
  refine ⟨?_, ?_, fun r => ?_, fun none' => ?_⟩
  · exact (started'.basin (by decide)).trans ((entered.basin (by decide)).trans
      ((tries.basin (by decide)).trans basin))
  · rw [started'.sys (by decide), sys_enterMode, sys']
    rfl
  · rw [railOf, started'.rails (by decide), entered.rails (by decide), tries.rails (by decide)]
    exact rails r
  · have empty : v.staging = [] := (tries.staging (by decide)).trans (staging.trans none')
    have records := staging_enterMode (s := v) (m := mCOMMISSION) (cause := 0) (by rw [empty]; decide)
    rw [empty] at records
    have types := congrArg (List.map Prod.fst) records
    rw [List.map_map] at types
    rw [started'.staging (by decide)]
    exact types

/-! ### The obligation -/

section release
variable {s : State} {basinOk strapLow : Bool} {sfdp : Sfdp} {readA readB : SlotReads}

/-- The code of a slot, whether or not a failed write left it unverifiable. -/
theorem slotCode_of_flashBad (r : SlotReads) (k : Nat) {c : Nat} (bad : Tab.find? s.flashBad k = some c) :
    slotCode s r k = if r.header && r.payload then c else 7 := by
  rw [slotCode, bad, Option.getD_some]

theorem slotCode_of_none (r : SlotReads) (k : Nat) (good : Tab.find? s.flashBad k = none) :
    slotCode s r k = if r.header && r.payload then verifyWhole s true (flashBytes s (slotBase k)) else 7 := by
  rw [slotCode, good, Option.getD_none]

/-- Where no doubleword is struck and neither slot starts, RECOVER tells why. -/
theorem triedBoth_of_bad {u : State} {ok : Bool} (h : Booting s ok u) (calm : Calm u) {k : Nat}
    (first : firstSlotOf u readA.header readB.header = k) (unhit : ∀ k, (readsOf readA readB k).hit = none)
    (bad : slotBad s (readsOf readA readB k) k = true)
    (bad' : slotBad s (readsOf readA readB (3 - k)) (3 - k) = true) :
    ∃ v, triedBoth u readA readB = toRecover v 5 ∧ Booting s ok v ∧ Calm v ∧
      ∀ j, j = 1 ∨ j = 2 → failOf v j = BitVec.ofNat 4 (failCode s (readsOf readA readB j) j) := by
  have range : k = 1 ∨ k = 2 := first ▸ firstSlotOf_range ..
  obtain ⟨v, one, after, calm', code, -⟩ := trySlot_of_bad h calm (unhit k) bad
  obtain ⟨w, two, last, calm'', code', kept⟩ := trySlot_of_bad after calm' (unhit (3 - k)) bad'
  refine ⟨w, triedBoth_of_neither first one two, last, calm'', fun j slot => ?_⟩
  by_cases same : j = k
  · subst same
    rw [kept j (by omega), code]
  · obtain rfl : j = 3 - k := by omega
    exact code'

/-- Where no doubleword is struck, the first slot that is neither tried nor fails starts. -/
theorem triedBoth_of_not_bad {u : State} {ok : Bool} (h : Booting s ok u) (calm : Calm u) {k j : Nat}
    (first : firstSlotOf u readA.header readB.header = k) (unhit : ∀ k, (readsOf readA readB k).hit = none)
    (good : slotBad s (readsOf readA readB j) j = false)
    (turn : j = k ∨ j = 3 - k ∧ slotBad s (readsOf readA readB k) k = true) :
    Runs s ok j (triedBoth u readA readB) ∧
      (Tab.find? s.flashBad j = none → ∀ i < imgLength (flashBytes s (slotBase j)),
        Memory.byte (triedBoth u readA readB).basin.bytes i = Tab.get 0xFF s.flash (slotBase j + 0x100 + i)) := by
  obtain rfl | ⟨rfl, bad⟩ := turn
  · obtain ⟨v, p, one, after, copied⟩ := trySlot_of_not_bad h calm (unhit j) good
    rw [triedBoth_of_first first one]
    exact ⟨after.runs j p, copied⟩
  · obtain ⟨v, one, after, calm', -⟩ := trySlot_of_bad h calm (unhit k) bad
    obtain ⟨w, p, two, last, copied⟩ := trySlot_of_not_bad after calm' (unhit (3 - k)) good
    rw [triedBoth_of_second first one two]
    exact ⟨last.runs (3 - k) p, copied⟩

end release

/-- Settles O10: the boot ROM's two tries end with a slot that runs or in RECOVER (`bootEnd_triedBoth`);
where no doubleword is struck they go by each slot's code (`triedBoth_of_bad`, `triedBoth_of_not_bad`). -/
theorem theBootRomStartsAnImageThatReachesCommission :
    Obligations.TheBootRomStartsAnImageThatReachesCommission := by
  constructor
  · intro basinOk strapLow sfdp readA readB s run rd image first code bad slot recover
    refine ⟨exec_resetRelease_of_awake basinOk strapLow, fun held => ?_⟩
    have recovered : ∀ {u t : State} {c : BitVec 4}, u.staging = [] → Recovering u t c.toNat → recover t c := by
      intro u t c none' r
      refine ⟨by rw [r.sys], by rw [r.sys], ?_, by rw [r.sys], fun p _ => r.guards p, r.records none'⟩
      rw [r.sys]
      exact BitVec.ofNat_toNat _ _
    cases basinOk with
    | false =>
      refine ⟨_, exec_resetRelease_of_basinFail strapLow held, rfl, rfl, rfl, fun _ => rfl,
        fun _ => ⟨rfl, rfl, rfl, rfl⟩, ?_, ?_⟩
      · intro no
        exact nomatch no
      · intro no
        exact nomatch no
    | true =>
      cases strapLow with
      | true =>
        have r := recovering_toRecover (u := onSys (released s) (fun x => { x with strap := true })) rfl rfl 6
        refine ⟨_, exec_resetRelease_of_strap held, ?_, ?_, r.gens, fun _ => r.basin, ?_, fun _ _ => ⟨?_, ?_⟩, ?_⟩
        · rw [r.sys]; rfl
        · rw [r.sys]; rfl
        · intro no
          exact nomatch no
        · rw [r.sys]; rfl
        · exact recovered (c := 6) rfl r
        · intro _ no
          exact nomatch no
      | false =>
        obtain ⟨u, is⟩ : ∃ u, readied s sfdp = u := ⟨_, rfl⟩
        have booting : Booting s sfdp.ok u := is ▸ booting_readied s sfdp
        have calm : Calm u := is ▸ calm_readied s sfdp
        have runs : run = .next (triedBoth u readA readB) :=
          (exec_resetRelease_of_boot held).trans (congrArg _ (is ▸ bootSlots_released s sfdp readA readB))
        have order : firstSlotOf u readA.header readB.header = first := by
          simp only [firstSlotOf, booting.image]
          rfl
        have codes : ∀ k, code k = slotCode s (readsOf readA readB k) k := by
          intro k
          cases found : Tab.find? s.flashBad k with
          | none => simp only [code, found, slotCode_of_none _ k found]; rfl
          | some c => simp only [code, found, slotCode_of_flashBad _ k found]; rfl
        have bads : ∀ k, bad k = slotBad s (readsOf readA readB k) k := fun k => by
          rw [slotBad, ← codes k]
        have ends := bootEnd_triedBoth booting readA readB
        have neither := triedBoth_of_bad (readA := readA) (readB := readB) booting calm order
        have one := fun j => triedBoth_of_not_bad (readA := readA) (readB := readB) (j := j) booting calm order
        obtain ⟨t, at'⟩ : ∃ t, triedBoth u readA readB = t := ⟨_, rfl⟩
        rw [at'] at runs ends neither
        simp only [at'] at one
        have ended : t.sys.inReset = false ∧ t.sys.resetCause = s.sys.resetCause ∧ t.fw.gens = [] ∧
            t.sys.sfdpOk = sfdp.ok ∧ (t.sys.mode = 0 ∨ t.sys.mode = 1 ∧ t.sys.cause = 5) := by
          cases ends with
          | runs k slot up whole => exact ⟨up.awake, up.resetCause, up.gens, up.sfdpOk, .inl up.mode⟩
          | recovers v b is =>
            have r := recovering_toRecover b.mode b.win 5
            rw [is]
            refine ⟨?_, ?_, r.gens.trans b.gens, ?_, .inr ⟨?_, ?_⟩⟩
            · rw [r.sys]; exact b.awake
            · rw [r.sys]; exact b.resetCause
            · rw [r.sys]; exact b.sfdpOk
            · rw [r.sys]
            · rw [r.sys]; rfl
        obtain ⟨awake, resetCause, gens, sfdpOk, mode⟩ := ended
        refine ⟨t, runs, awake, resetCause, gens, ?_, ?_, ?_, fun _ _ => ⟨sfdpOk, mode, ?hits, ?unhit⟩⟩
        · rintro (no | no)
          · exact nomatch no
          · exact nomatch no
        · intro no
          exact nomatch no
        · intro _ no
          exact nomatch no
        case hits =>
          intro k d stage slot' known good hit
          cases ends with
          | runs j slot'' up whole =>
            have same : j = k := by
              have := up.slot.symm.trans slot'
              rcases slot'' with rfl | rfl <;> rcases known with rfl | rfl
              · rfl
              · exact absurd this (by decide)
              · exact absurd this (by decide)
              · rfl
            subst same
            exact whole good d hit
          | recovers v b is =>
            rw [is, (recovering_toRecover b.mode b.win 5).sys] at stage
            exact absurd (show (7 : BitVec 4) = 6 from stage) (by decide)
        case unhit =>
          intro unhitA unhitB
          have unhit : ∀ k, (readsOf readA readB k).hit = none := by
            intro k
            unfold readsOf
            split
            · exact unhitA
            · exact unhitB
          have range : first = 1 ∨ first = 2 := order ▸ firstSlotOf_range ..
          have began : ∀ j, (j = 1 ∨ j = 2) → (Runs s sfdp.ok j t ∧ (Tab.find? s.flashBad j = none →
              ∀ i < imgLength (flashBytes s (slotBase j)), Memory.byte t.basin.bytes i =
                Tab.get 0xFF s.flash (slotBase j + 0x100 + i))) → t.sys.slot = BitVec.ofNat 2 j ∧
              t.sys.stage = 6 ∧ t.sys.mode = 0 ∧ tried t j = true ∧ tried t (3 - j) = tried s (3 - j) ∧
              t.sys.wdtArmed = true ∧ t.sys.wdtStart = s.tick ∧
              (Tab.find? s.flashBad j = none → ∀ i < imgLength (image j), Memory.byte t.basin.bytes i =
                Tab.get 0xFF s.flash (slotBase j + 0x100 + i)) :=
            fun j known ⟨up, copied⟩ => ⟨up.slot, up.stage, up.mode, up.tried, up.other _ (by omega), up.armed,
              up.start, copied⟩
          by_cases bad1 : bad first = true
          · by_cases bad2 : bad (3 - first) = true
            · have is : slot = none := by
                simp only [slot, bad1, bad2, Bool.not_true, Bool.false_eq_true, if_false]
              rw [is]
              obtain ⟨v, rfl, b, calm', codes'⟩ := neither unhit ((bads _).symm.trans bad1) ((bads _).symm.trans bad2)
              have r := recovering_toRecover b.mode b.win 5
              refine ⟨recovered (c := 5) calm'.staging r, fun k known => ?_⟩
              rw [r.sys, codes]
              exact codes' k known
            · have is : slot = some (3 - first) := by
                simp only [slot, bad1, (Bool.not_eq_true _).mp bad2, Bool.not_true, Bool.not_false,
                  Bool.false_eq_true, if_false, if_true]
              rw [is]
              exact began (3 - first) (by omega) (one _ unhit
                ((bads _).symm.trans ((Bool.not_eq_true _).mp bad2)) (.inr ⟨rfl, (bads _).symm.trans bad1⟩))
          · have is : slot = some first := by
              simp only [slot, (Bool.not_eq_true _).mp bad1, Bool.not_false, if_true]
            rw [is]
            exact began first range (one _ unhit ((bads _).symm.trans ((Bool.not_eq_true _).mp bad1)) (.inl rfl))
  · intro s k go
    have asks : (s.sys.inReset || s.sys.commissioned || decide (s.sys.stage ≠ 6) || !running s islLK) = !go := by
      simp only [go, Bool.not_and, Bool.not_not, decide_not]
    have ran := exec_firmwareCommissionReached s
    have holds := commissioned_holds s
    obtain ⟨u, is⟩ : ∃ u, commissioned s = u := ⟨_, rfl⟩
    rw [is] at holds ran
    refine ⟨fun barred => ran.trans (congrArg _ (if_pos ?_)), fun may => ?_⟩
    · rw [asks, barred]
      rfl
    · rw [if_neg (by rw [asks, may]; exact Bool.false_ne_true)] at ran
      have tries : k = 1 ∨ k = 2 → tried u (3 - k) = if k = 1 then s.sys.triedB else s.sys.triedA := by
        intro known
        rw [tried, holds.sys]
        obtain one | two := known
        · rw [one, if_neg (by decide), if_pos rfl, decide_eq_true (show s.sys.slot.toNat = 1 from one)]
          exact Bool.true_and _
        · have ne : s.sys.slot.toNat ≠ 1 := fun one => absurd (two.symm.trans one) (by decide)
          rw [two, if_pos (by decide), if_neg (by decide), decide_eq_true ne]
          exact Bool.true_and _
      by_cases other : tried u (3 - k) = true
      · rw [if_pos other] at ran
        have posted := postRec_follows u islLK 0x04 0
          (pack [(0, u.sys.failA.toNat), (4, u.sys.failB.toNat)]) 0
        refine ⟨_, ran, (posted.basin (by decide)).trans holds.basin, (posted.sys (by decide)).trans holds.sys,
          fun r => ?_, fun known none' => ?_⟩
        · rw [railOf, posted.rails (by decide)]
          exact holds.rails r
        · have types := holds.records none'
          have few : u.staging.length < 1024 := by
            rw [← List.length_map (fun r : Rec => r.type), types]
            decide
          rw [if_pos ((tries known).symm.trans other), postRec, staging_stage few, List.map_append, types, List.map_singleton,
            type_staged]
          rfl
      · rw [if_neg other] at ran
        refine ⟨_, ran, holds.basin, holds.sys, holds.rails, fun known none' => ?_⟩
        rw [if_neg fun yes => other ((tries known).trans yes)]
        exact holds.records none'

end Sys2Proof.Machine
end

section
/-! PROOFS. The operands of an access (R554 to R564, R630): their checks, what a load and a port read give,
what a store and a port write do, and what none of them changes of its core. -/

open Sys2Proof

namespace Sys2Proof.Machine

/-! ### The checks of a Basin operand (R554 to R557, R630) -/

/-- An operand of `size` bytes is aligned, in the bounds of its base register and in Basin. -/
structure Fits (c : Core) (b : Fin 8) (x : Cell) (size : Nat) : Prop where
  aligned : (c.ea b x).toNat % size = 0
  low : c.b[b].floor.toNat ≤ (c.ea b x).toNat
  high : (c.ea b x).toNat + size - 1 ≤ c.b[b].limit.toNat
  basin : (c.ea b x).toNat + size - 1 ≤ 0x03FFFFFF

/-- A store may go through a base register. -/
structure Opens (s : State) (c : Core) (b : Fin 8) (x : Cell) : Prop where
  writable : c.b[b].mode ≠ 1
  station : c.b[b].mode = 2 → stationOk ((c.ea b x - c.b[b].floor).toNat % 256) = true
  page : c.b[b].mode = 0 → c.kernel = true ∨ pageLive s ((c.ea b x).toNat / 65536) = true

section checks
variable {s : State} {c : Core} {b : Fin 8} {x : Cell} {z : Size} {store : Bool}

theorem checkData_of_misaligned (h : (c.ea b x).toNat % sizeBytes z ≠ 0) :
    checkData s c b x z store = some { code := 5, ea := some (c.ea b x) } :=
  if_pos h

theorem checkData_of_range (aligned : (c.ea b x).toNat % sizeBytes z = 0) (h : ¬Fits c b x (sizeBytes z)) :
    checkData s c b x z store = some { code := 4, ea := some (c.ea b x) } := by
  refine (if_neg (not_not.mpr aligned)).trans (if_pos ?_)
  by_contra bounds
  simp only [Bool.or_eq_true, decide_eq_true_eq, not_or, Nat.not_lt] at bounds
  exact h ⟨aligned, bounds.1.1, bounds.1.2, bounds.2⟩

theorem range_of_fits (h : Fits c b x (sizeBytes z)) : ¬((decide ((c.ea b x).toNat < (c.br b).floor.toNat) ||
    decide ((c.br b).limit.toNat < (c.ea b x).toNat + sizeBytes z - 1) ||
      decide (0x03FFFFFF < (c.ea b x).toNat + sizeBytes z - 1)) = true) := by
  simp only [Bool.or_eq_true, decide_eq_true_eq, not_or, Nat.not_lt]
  exact ⟨⟨h.low, h.high⟩, h.basin⟩

theorem checkData_of_fits (h : Fits c b x (sizeBytes z)) (opens : store = true → Opens s c b x) :
    checkData s c b x z store = none := by
  refine (if_neg (not_not.mpr h.aligned)).trans ((if_neg (range_of_fits h)).trans ?_)
  cases store with
  | false => rfl
  | true =>
    obtain ⟨writable, station, page⟩ := opens rfl
    refine (if_neg ?_).trans ((if_neg ?_).trans (if_neg ?_))
    · rw [Bool.true_and, decide_eq_true_eq]
      exact writable
    · simp only [Bool.true_and, Bool.and_eq_true, decide_eq_true_eq, Bool.not_eq_true', not_and, Bool.not_eq_false]
      exact station
    · simp only [Bool.true_and, Bool.and_eq_true, decide_eq_true_eq, Bool.not_eq_true', not_and, Bool.not_eq_false]
      rintro ⟨mode, task⟩
      exact (page mode).resolve_left (by rw [task]; exact Bool.false_ne_true)

theorem checkData_of_readOnly (h : Fits c b x (sizeBytes z)) (mode : c.b[b].mode = 1) :
    checkData s c b x z true = some { code := 4, ea := some (c.ea b x) } := by
  refine (if_neg (not_not.mpr h.aligned)).trans ((if_neg (range_of_fits h)).trans (if_pos ?_))
  rw [Bool.true_and, decide_eq_true_eq]
  exact mode

end checks

/-- The check looks at neither the `wfi` of its core nor its state but for the live pages. -/
@[simp] theorem checkOpd_unwaited_mem (s : State) (n : Nat) (z : Size) (store : Bool) (b : Fin 8) (x : Cell) :
    checkOpd (unwaited s n) n z store (.mem b x) = checkData s (coreOf s n) b x z store := by
  show checkData (unwaited s n) (coreOf (unwaited s n) n) b x z store = _
  rw [coreOf_unwaited]
  rfl

/-! ### The checks of a port operand (R561, R562, R630) -/

/-- The port that an operand names (R559). -/
theorem port_eq (c : Core) (p : Fin 4) (x : Cell) : c.port p x = (c.p[p] + x).toNat := rfl

@[simp] theorem checkOpd_unwaited_port (s : State) (n : Nat) (z : Size) (write : Bool) (p : Fin 4) (x : Cell) :
    checkOpd (unwaited s n) n z write (.port p x) =
      checkPort (coreOf s n) n ((coreOf s n).port p x) (decide (z = .pair)) write := by
  show checkPort (coreOf (unwaited s n) n) n ((coreOf (unwaited s n) n).port p x) (decide (z = .pair)) write = _
  rw [coreOf_unwaited]
  rfl

section ports
variable {c : Core} {n q : Nat} {pair write : Bool}

theorem checkPort_of_may {f : PortTarget} (may : c.kernel = true ∨ taskPort q write = true)
    (mapped : portAddr c n q = some f) (even : pair = true → q % 2 = 0) : checkPort c n q pair write = none := by
  refine (if_neg ?_).trans (if_neg ?_)
  · simp only [Bool.and_eq_true, decide_eq_true_eq, ne_eq, not_and, not_not]
    exact even
  · rw [mapped]
    obtain kernel | task := may
    · simp [kernel]
    · simp [task]

theorem checkPort_of_kernel (kernel : c.kernel = true) (even : pair = true → q % 2 = 0) :
    checkPort c n q pair write = none := by
  refine (if_neg ?_).trans (if_neg ?_)
  · simp only [Bool.and_eq_true, decide_eq_true_eq, ne_eq, not_and, not_not]
    exact even
  · simp [kernel]

theorem checkPort_of_odd (odd : q % 2 = 1) :
    checkPort c n q true write = some { code := 5, ea := some (w32 q) } :=
  if_pos (by simp [odd])

end ports

/-! ### Loads and stores (R602, R567) -/

theorem dh_readReq (s : State) (agent a n : Nat) : (readReq s agent a n).1.dh = s.dh :=
  (readReq_follows ..).dh (by decide)

theorem dh_writeReq (s : State) (agent a : Nat) (b : List Byte) : (writeReq s agent a b).1.dh = s.dh :=
  (writeReq_follows ..).dh (by decide)

theorem dh_portTargetRead (s : State) (n : Nat) (f : PortTarget) : (portTargetRead s n f).1.dh = s.dh :=
  (portTargetRead_follows ..).dh (by decide)

theorem coreOf_of_dh {s t : State} (h : t.dh = s.dh) (n : Nat) : coreOf t n = coreOf s n := by
  rw [coreOf, h, coreOf]

theorem length_readDws {fuel : Nat} {s t : State} {agent a n : Nat} {l : List Byte} (enough : n ≤ fuel)
    (read : readDws fuel s agent a n = (t, some l)) : l.length = n := by
  induction fuel generalizing s t a n l with
  | zero =>
    obtain rfl : [] = l := Option.some.inj (Prod.mk.inj read).2
    exact (Nat.le_zero.mp enough).symm
  | succ fuel ih =>
    unfold readDws at read
    by_cases empty : n = 0
    · rw [if_pos empty] at read
      obtain rfl : [] = l := Option.some.inj (Prod.mk.inj read).2
      exact empty.symm
    rw [if_neg empty] at read
    dsimp only at read
    split at read
    · next v r got rest =>
      obtain rfl := Option.some.inj (Prod.mk.inj read).2
      have tail := ih (by omega) (Prod.ext rfl rest)
      rw [List.length_append, tail, List.length_take, List.length_drop, length_leBytes]
      omega
    · exact nomatch (Prod.mk.inj read).2

theorem length_readReq {s t : State} {agent a n : Nat} {l : List Byte}
    (read : readReq s agent a n = (t, .ok l)) : l.length = n := by
  unfold readReq at read
  split at read
  · exact nomatch (Prod.mk.inj read).2
  · split at read
    · next got =>
      obtain rfl := Except.ok.inj (Prod.mk.inj read).2
      exact length_readDws (Nat.le_refl n) got
    · exact nomatch (Prod.mk.inj read).2

theorem loadData_of_ok {s t : State} {n : Nat} {e : Word} {z : Size} {l : List Byte}
    (read : readReq s (n + 3) e.toNat (sizeBytes z) = (t, .ok l)) : loadData s n e z = (t, .ok (leNat l)) := by
  rw [loadData, read]

theorem storeData_of_ok {s t : State} {n v : Nat} {e : Word} {z : Size}
    (write : writeReq s (n + 3) e.toNat (leBytes (sizeBytes z) v) = (t, none)) : storeData s n e z v = t := by
  rw [storeData, write]

theorem storeData_of_error {s t : State} {n v : Nat} {e : Word} {z : Size} {r : Err}
    (write : writeReq s (n + 3) e.toNat (leBytes (sizeBytes z) v) = (t, some r)) :
    storeData s n e z v = updCore t n (fun c => { c with storeErr := c.storeErr ++ [e] }) := by
  rw [storeData, write]

/-! ### Ports (R560, R563, R564) -/

section ports
variable {s t : State} {n q : Nat} {f : PortTarget} {w v : Word}

theorem portFetch_of_ok (mapped : portAddr (coreOf s n) n q = some f) (read : portTargetRead s n f = (t, .ok w)) :
    portFetch s n q = (t, .ok w) := by
  simp only [portFetch, mapped, read]

theorem portFetch_of_unmapped (unmapped : portAddr (coreOf s n) n q = none) :
    portFetch s n q = (s, .error { code := 9, ea := some (w32 q) }) := by
  simp only [portFetch, unmapped]

theorem portStore_of_ok (mapped : portAddr (coreOf s n) n q = some f) (write : portTargetWrite s n v f = (t, none)) :
    portStore s n q v = (t, none) := by
  simp only [portStore, mapped, write]

theorem portReadCell_even (even : q % 2 = 0) (mapped : portAddr (coreOf s n) n q = some f)
    (read : portTargetRead s n f = (t, .ok w)) : portReadCell s n q =
      (updCore t n (fun c => { c with rdata := (w >>> 16).setWidth 16, rport := BitVec.ofNat 16 q }),
        .ok (fld w 0 16)) := by
  simp only [portReadCell, even, if_true, portFetch_of_ok mapped read]

theorem portReadCell_latched (odd : q % 2 = 1) (latched : (coreOf s n).rport.toNat + 1 = q) :
    portReadCell s n q = (s, .ok (coreOf s n).rdata.toNat) := by
  rw [portReadCell, if_neg (by omega), if_pos latched]

theorem portReadCell_odd (odd : q % 2 = 1) (other : (coreOf s n).rport.toNat + 1 ≠ q)
    (mapped : portAddr (coreOf s n) n q = some f) (read : portTargetRead s n f = (t, .ok w)) :
    portReadCell s n q = (t, .ok (fld w 16 16)) := by
  rw [portReadCell, if_neg (by omega), if_neg other, portFetch_of_ok mapped read]

theorem portWriteCell_even (even : q % 2 = 0) (d : Nat) : portWriteCell s n q d =
    (updCore s n (fun c => { c with wdata := BitVec.ofNat 16 d, wport := BitVec.ofNat 16 q }), none) :=
  if_pos even

theorem portWriteCell_odd (odd : q % 2 = 1) (d : Nat) : portWriteCell s n q d = portStore s n q
    (pack [(0, if (coreOf s n).wport.toNat + 1 = q then (coreOf s n).wdata.toNat else 0), (16, d % 65536)]) :=
  if_neg (by omega)

end ports

end Sys2Proof.Machine
end

section
/-! PROOFS. The access instructions (R613 to R616, R630): an access as the move of a value from an operand
to an operand, and what each form leaves. -/

open Sys2Proof

namespace Sys2Proof.Machine

/-! ### An access as a move -/

theorem doMove_of_checked {s : State} {n : Nat} {m : Move} {e : Exc}
    (bad : (checkOpd s n m.size false m.src).or (checkOpd s n m.size true m.dst) = some e) :
    doMove s n m = (s, some e) := by
  rw [doMove, bad]

theorem doMove_of_error {s t : State} {n : Nat} {m : Move} {e : Exc}
    (source : checkOpd s n m.size false m.src = none) (dest : checkOpd s n m.size true m.dst = none)
    (read : readOpd s n m.size m.src = (t, .error e)) : doMove s n m = (t, some e) := by
  rw [doMove, source, dest, Option.none_or]
  dsimp only
  rw [read]

theorem doMove_of_value {s t : State} {n v : Nat} {m : Move} (source : checkOpd s n m.size false m.src = none)
    (dest : checkOpd s n m.size true m.dst = none) (read : readOpd s n m.size m.src = (t, .ok v)) :
    doMove s n m = writeOpd t n m.size (if m.sext then sext8 v else v) m.dst := by
  rw [doMove, source, dest, Option.none_or]
  dsimp only
  rw [read]

/-- A command answers a state in which core `n` is `d`, and nothing else differs from `u`. -/
def Gets (i : Instr) (s : State) (n : Nat) (u : State) (d : Core) : Prop :=
  ∃ t, exec i s = .next t ∧ coreOf t n = d ∧ OnlyCore u t n

/-- A change of the core itself does not count. -/
theorem Gets.of_updCore {i : Instr} {s u : State} {n : Nat} {f : Core → Core} {d : Core}
    (h : Gets i s n (updCore u n f) d) : Gets i s n u d := by
  obtain ⟨t, ran, core, only⟩ := h
  exact ⟨t, ran, core, ((OnlyCore.refl u n).updCore f).trans only⟩

section instr
variable {i : Instr} {s t : State} {n : Fin 8} {a : Access} {f : Core → Core}

theorem accessInstr_of_done (ready : CoreReady s n (accessLen a))
    (moved : doMove (unwaited s n) n (moveOf a) = (t, none)) :
    accessInstr s n a = updCore t n (fun c => c.skip (accessLen a)) := by
  rw [unwaited] at moved
  rw [accessInstr, begin_of_ready ready, moved]

theorem accessInstr_of_raised {e : Exc} (ready : CoreReady s n (accessLen a))
    (moved : doMove (unwaited s n) n (moveOf a) = (t, some e)) : accessInstr s n a = raiseExc t n e := by
  rw [unwaited] at moved
  rw [accessInstr, begin_of_ready ready, moved]

/-- An access that ends with a change of its core. -/
theorem Gets.of_core (he : exec i s = .next (accessInstr s n a)) (ready : CoreReady s n (accessLen a))
    (moved : doMove (unwaited s n) n (moveOf a) = (updCore t n f, none)) :
    Gets i s n t ((f (coreOf t n)).skip (accessLen a)) := by
  refine ⟨_, he.trans (congrArg _ (accessInstr_of_done ready moved)), ?_, ((OnlyCore.refl t n).updCore f).updCore _⟩
  rw [coreOf_updCore_self, coreOf_updCore_self]

/-- An access that ends without one. -/
theorem Gets.of_state (he : exec i s = .next (accessInstr s n a)) (ready : CoreReady s n (accessLen a))
    (moved : doMove (unwaited s n) n (moveOf a) = (t, none)) : Gets i s n t ((coreOf t n).skip (accessLen a)) :=
  ⟨_, he.trans (congrArg _ (accessInstr_of_done ready moved)), coreOf_updCore_self .., (OnlyCore.refl t n).updCore _⟩

/-! ### Exceptions (R565, R566) -/

/-- An exception at kernel level that does not halt its core. -/
structure Trapped (s t : State) (n code : Nat) (v : Word) : Prop where
  only : OnlyCore s t n
  pc : (coreOf t n).pc = (coreOf s n).vbase + 0x10
  epc : (coreOf t n).epc = (coreOf s n).pc
  ecode : (coreOf t n).ecode = BitVec.ofNat 8 code
  eaddr : (coreOf t n).eaddr = v
  d : (coreOf t n).d = (coreOf s n).d
  b : (coreOf t n).b = (coreOf s n).b
  p : (coreOf t n).p = (coreOf s n).p

theorem exception_of_kernel {s : State} {n : Nat} (kernel : (coreOf s n).kernel = true)
    (free : (coreOf s n).estat.getLsbD 6 = false) (code : Nat) (store : Bool) (epc : Cell) (ea : Option Word) :
    exception s n code store epc ea = updCore s n (fun c => c.enter code store epc ea 0x10) := by
  unfold exception
  dsimp only
  rw [if_neg (by rw [kernel, free]; exact Bool.false_ne_true)]
  split
  · rw [if_pos kernel]
  · rfl

theorem trapped_raiseExc {s : State} {n : Nat} (kernel : (coreOf s n).kernel = true)
    (free : (coreOf s n).estat.getLsbD 6 = false) (e : Exc) :
    Trapped s (raiseExc (unwaited s n) n e) n e.code (e.ea.getD (coreOf s n).eaddr) := by
  have raised : raiseExc (unwaited s n) n e = updCore (unwaited s n) n
      (fun c => c.enter e.code false (coreOf (unwaited s n) n).pc e.ea 0x10) :=
    exception_of_kernel (by rw [coreOf_unwaited]; exact kernel) (by rw [coreOf_unwaited]; exact free) ..
  have core : coreOf (raiseExc (unwaited s n) n e) n = Core.enter { coreOf s n with waiting := false } e.code
      false (coreOf s n).pc e.ea 0x10 := by
    rw [raised, coreOf_updCore_self, coreOf_unwaited]
  refine ⟨?_, ?_, ?_, ?_, ?_, ?_, ?_, ?_⟩
  · rw [raised]
    exact ((OnlyCore.refl s n).updCore _).updCore _
  all_goals rw [core]; rfl

/-- A check that refuses an operand raises its exception. -/
theorem exec_of_checked {e : Exc} (he : exec i s = .next (accessInstr s n a))
    (ready : CoreReady s n (accessLen a)) (kernel : (coreOf s n).kernel = true)
    (free : (coreOf s n).estat.getLsbD 6 = false)
    (moved : doMove (unwaited s n) n (moveOf a) = (unwaited s n, some e)) :
    ∃ t, exec i s = .next t ∧ Trapped s t n e.code (e.ea.getD (coreOf s n).eaddr) :=
  ⟨_, he.trans (congrArg _ (accessInstr_of_raised ready moved)), trapped_raiseExc kernel free e⟩

end instr

/-! ### Values (R551, R554, R563) -/

/-- A byte sign-extended to a cell. -/
theorem ofNat_sext8 {v : Nat} (h : v < 256) : BitVec.ofNat 16 (sext8 v) = (BitVec.ofNat 8 v).signExtend 16 := by
  refine BitVec.eq_of_toNat_eq ?_
  rw [BitVec.toNat_signExtend, BitVec.msb_eq_decide, BitVec.toNat_setWidth, BitVec.toNat_ofNat,
    BitVec.toNat_ofNat, Nat.mod_eq_of_lt h, sext8]
  by_cases small : v < 128
  · rw [if_pos small, decide_eq_false (by omega)]
    simp
  · rw [if_neg small, decide_eq_true (by omega)]
    simp
    omega

/-- The halves of a number as a pair holds them. -/
theorem setPair_w32 (c : Core) (k : Fin 8) (v : Nat) : c.setPair k (w32 v) =
    { c with d := (c.d.set (lowReg k) (BitVec.ofNat 16 v)).set (highReg k) (BitVec.ofNat 16 (v / 65536)) } := by
  have low : (w32 v).setWidth 16 = BitVec.ofNat 16 v :=
    BitVec.eq_of_toNat_eq (by rw [w32, BitVec.toNat_setWidth, BitVec.toNat_ofNat, BitVec.toNat_ofNat]; omega)
  have high : (w32 v).extractLsb' 16 16 = BitVec.ofNat 16 (v / 65536) :=
    BitVec.eq_of_toNat_eq (by
      rw [w32, BitVec.extractLsb'_toNat, BitVec.toNat_ofNat, BitVec.toNat_ofNat, Nat.shiftRight_eq_div_pow]
      omega)
  rw [Core.setPair, low, high]
  rfl

theorem w32_toNat (v : Word) : w32 v.toNat = v := BitVec.ofNat_toNat _ _

theorem fld_low (w : Word) : fld w 0 16 = w.toNat % 65536 := rfl

theorem ofNat_fld_low (w : Word) : BitVec.ofNat 16 (fld w 0 16) = w.setWidth 16 :=
  BitVec.eq_of_toNat_eq (by rw [fld, BitVec.toNat_ofNat, BitVec.toNat_setWidth]; simp)

theorem ofNat_fld_high (w : Word) : BitVec.ofNat 16 (fld w 16 16) = (w >>> 16).setWidth 16 :=
  BitVec.eq_of_toNat_eq (by
    rw [fld, BitVec.toNat_ofNat, BitVec.toNat_setWidth, BitVec.toNat_ushiftRight]
    omega)

/-- Two cells in a word. -/
theorem pack_cells {a b : Nat} (ha : a < 65536) :
    pack [(0, a), (16, b)] = BitVec.ofNat 32 (a + 65536 * b) := by
  have disjoint : a ||| b <<< 16 = a + 65536 * b := by
    rw [Nat.or_comm, ← Nat.shiftLeft_add_eq_or_of_lt (by omega), Nat.shiftLeft_eq]
    omega
  simp only [pack, Nat.shiftLeft_zero]
  rw [BitVec.ofNat_eq_ofNat, BitVec.or_zero, ← BitVec.ofNat_or, disjoint]

theorem leWord_eq {l : List Byte} (h : l.length = 4) : leWord l = w32 (leNat l) := by
  rw [leWord, List.take_of_length_le (by omega), leNat]

/-! ### Sources and destinations -/

/-- A source operand passes its checks and gives a value. -/
structure Source (s : State) (n : Nat) (z : Size) (o : Opd) (u : State) (v : Nat) : Prop where
  check : checkOpd (unwaited s n) n z false o = none
  read : readOpd (unwaited s n) n z o = (u, .ok v)

section operands
variable {s u : State} {n : Nat} {z : Size} {b : Fin 8} {p : Fin 4} {x : Cell} {l : List Byte} {f : PortTarget}
  {w : Word}

theorem coreOf_of_readReq {agent a k : Nat} {r : Except Err (List Byte)}
    (read : readReq (unwaited s n) agent a k = (u, r)) :
    coreOf u n = { coreOf s n with waiting := false } := by
  have dh := dh_readReq (unwaited s n) agent a k
  rw [read] at dh
  rw [coreOf_of_dh dh, coreOf_unwaited]

theorem coreOf_of_portTargetRead {r : Except Err Word} (read : portTargetRead (unwaited s n) n f = (u, r)) :
    coreOf u n = { coreOf s n with waiting := false } := by
  have dh := dh_portTargetRead (unwaited s n) n f
  rw [read] at dh
  rw [coreOf_of_dh dh, coreOf_unwaited]

theorem source_reg (s : State) (n : Nat) (z : Size) (r : Fin 16) :
    Source s n z (.reg r) (unwaited s n) ((coreOf s n).d[r]).toNat :=
  ⟨rfl, by rw [readOpd, coreOf_unwaited]; rfl⟩

theorem source_pair (s : State) (n : Nat) (z : Size) (k : Fin 8) :
    Source s n z (.pair k) (unwaited s n) ((coreOf s n).pair k).toNat :=
  ⟨rfl, by rw [readOpd, coreOf_unwaited]; rfl⟩

theorem source_of_check (check : checkData s (coreOf s n) b x z false = none)
    (read : readReq (unwaited s n) (n + 3) ((coreOf s n).ea b x).toNat (sizeBytes z) = (u, .ok l)) :
    Source s n z (.mem b x) u (leNat l) := by
  refine ⟨?_, ?_⟩
  · rw [checkOpd_unwaited_mem]
    exact check
  · rw [readOpd, coreOf_unwaited]
    exact loadData_of_ok read

theorem source_mem (fits : Fits (coreOf s n) b x (sizeBytes z))
    (read : readReq (unwaited s n) (n + 3) ((coreOf s n).ea b x).toNat (sizeBytes z) = (u, .ok l)) :
    Source s n z (.mem b x) u (leNat l) :=
  source_of_check (checkData_of_fits fits (fun no => (Bool.false_ne_true no).elim)) read

section port
variable (may : (coreOf s n).kernel = true ∨ taskPort ((coreOf s n).port p x) false = true)
  (mapped : portAddr (coreOf s n) n ((coreOf s n).port p x) = some f)
include may mapped

theorem source_port_even (even : (coreOf s n).port p x % 2 = 0)
    (read : portTargetRead (unwaited s n) n f = (u, .ok w)) :
    Source s n .cell (.port p x) (updCore u n (fun c => { c with
      rdata := (w >>> 16).setWidth 16, rport := BitVec.ofNat 16 ((coreOf s n).port p x) })) (fld w 0 16) := by
  refine ⟨?_, ?_⟩
  · rw [checkOpd_unwaited_port]
    exact checkPort_of_may may mapped (fun no => (Bool.false_ne_true no).elim)
  · rw [readOpd, coreOf_unwaited]
    exact portReadCell_even even (by rw [coreOf_unwaited]; exact mapped) read

theorem source_port_odd (odd : (coreOf s n).port p x % 2 = 1)
    (other : (coreOf s n).rport.toNat + 1 ≠ (coreOf s n).port p x)
    (read : portTargetRead (unwaited s n) n f = (u, .ok w)) :
    Source s n .cell (.port p x) u (fld w 16 16) := by
  refine ⟨?_, ?_⟩
  · rw [checkOpd_unwaited_port]
    exact checkPort_of_may may mapped (fun no => (Bool.false_ne_true no).elim)
  · rw [readOpd, coreOf_unwaited]
    exact portReadCell_odd odd (by rw [coreOf_unwaited]; exact other) (by rw [coreOf_unwaited]; exact mapped) read

theorem source_port_latched (odd : (coreOf s n).port p x % 2 = 1)
    (latched : (coreOf s n).rport.toNat + 1 = (coreOf s n).port p x) :
    Source s n .cell (.port p x) (unwaited s n) (coreOf s n).rdata.toNat := by
  refine ⟨?_, ?_⟩
  · rw [checkOpd_unwaited_port]
    exact checkPort_of_may may mapped (fun no => (Bool.false_ne_true no).elim)
  · rw [readOpd, coreOf_unwaited]
    refine (portReadCell_latched odd (by rw [coreOf_unwaited]; exact latched)).trans ?_
    rw [coreOf_unwaited]

theorem source_port_pair (even : (coreOf s n).port p x % 2 = 0)
    (read : portTargetRead (unwaited s n) n f = (u, .ok w)) : Source s n .pair (.port p x) u w.toNat := by
  refine ⟨?_, ?_⟩
  · rw [checkOpd_unwaited_port]
    exact checkPort_of_may may mapped (fun _ => even)
  · rw [readOpd, coreOf_unwaited]
    refine (if_pos rfl).trans ?_
    rw [portFetch_of_ok (by rw [coreOf_unwaited]; exact mapped) read]

end port

/-- A read of an unmapped port by the kernel level ends in IOERR (R564). -/
theorem doMove_of_unmapped {a : Access} {k : Fin 8} (form : moveOf a = { src := .port p x, dst := .pair k, size := .pair })
    (kernel : (coreOf s n).kernel = true) (even : (coreOf s n).port p x % 2 = 0)
    (unmapped : portAddr (coreOf s n) n ((coreOf s n).port p x) = none) :
    doMove (unwaited s n) n (moveOf a) =
      (unwaited s n, some { code := 9, ea := some (w32 ((coreOf s n).port p x)) }) := by
  rw [form]
  refine doMove_of_error ?_ rfl ?_
  · rw [checkOpd_unwaited_port]
    exact checkPort_of_kernel kernel (fun _ => even)
  · rw [readOpd, coreOf_unwaited]
    refine (if_pos rfl).trans ?_
    rw [portFetch_of_unmapped (by rw [coreOf_unwaited]; exact unmapped)]
    rfl

theorem dest_mem (fits : Fits (coreOf s n) b x (sizeBytes z)) (opens : Opens s (coreOf s n) b x) :
    checkOpd (unwaited s n) n z true (.mem b x) = none := by
  rw [checkOpd_unwaited_mem]
  exact checkData_of_fits fits (fun _ => opens)

theorem dest_port (may : (coreOf s n).kernel = true ∨ taskPort ((coreOf s n).port p x) true = true)
    (mapped : portAddr (coreOf s n) n ((coreOf s n).port p x) = some f)
    (even : z = .pair → (coreOf s n).port p x % 2 = 0) :
    checkOpd (unwaited s n) n z true (.port p x) = none := by
  rw [checkOpd_unwaited_port]
  exact checkPort_of_may may mapped (fun is => even (of_decide_eq_true is))

variable (core : coreOf u n = { coreOf s n with waiting := false })
include core

theorem writeOpd_mem {v : Nat} {t : State}
    (write : writeReq u (n + 3) ((coreOf s n).ea b x).toNat (leBytes (sizeBytes z) v) = (t, none)) :
    writeOpd u n z v (.mem b x) = (t, none) := by
  rw [writeOpd, core]
  exact congrArg (·, none) (storeData_of_ok write)

theorem writeOpd_mem_error {v : Nat} {t : State} {e : Err}
    (write : writeReq u (n + 3) ((coreOf s n).ea b x).toNat (leBytes (sizeBytes z) v) = (t, some e)) :
    writeOpd u n z v (.mem b x) =
      (updCore t n (fun c => { c with storeErr := c.storeErr ++ [(coreOf s n).ea b x] }), none) := by
  rw [writeOpd, core]
  exact congrArg (·, none) (storeData_of_error write)

theorem writeOpd_port_pair {v : Nat} {t : State} (mapped : portAddr (coreOf s n) n ((coreOf s n).port p x) = some f)
    (write : portTargetWrite u n (w32 v) f = (t, none)) : writeOpd u n .pair v (.port p x) = (t, none) := by
  rw [writeOpd, core]
  exact (if_pos rfl).trans (portStore_of_ok (by rw [core]; exact mapped) write)

theorem writeOpd_port_even {v : Nat} (even : (coreOf s n).port p x % 2 = 0) :
    writeOpd u n .cell v (.port p x) = (updCore u n (fun c => { c with
      wdata := BitVec.ofNat 16 v, wport := BitVec.ofNat 16 ((coreOf s n).port p x) }), none) := by
  rw [writeOpd, core]
  exact (if_neg (by decide)).trans (portWriteCell_even even v)

theorem writeOpd_port_odd {v : Nat} {t : State} (small : v < 65536) (odd : (coreOf s n).port p x % 2 = 1)
    (mapped : portAddr (coreOf s n) n ((coreOf s n).port p x) = some f)
    (write : portTargetWrite u n (BitVec.ofNat 32 ((if (coreOf s n).wport.toNat + 1 = (coreOf s n).port p x
      then (coreOf s n).wdata.toNat else 0) + 65536 * v)) f = (t, none)) :
    writeOpd u n .cell v (.port p x) = (t, none) := by
  have low : (if (coreOf s n).wport.toNat + 1 = (coreOf s n).port p x then (coreOf s n).wdata.toNat else 0) < 65536 := by
    split
    · exact (coreOf s n).wdata.isLt
    · decide
  rw [writeOpd, core]
  refine (if_neg (by decide)).trans ((portWriteCell_odd odd v).trans ?_)
  rw [core, Nat.mod_eq_of_lt small]
  refine portStore_of_ok (by rw [core]; exact mapped) ?_
  rw [pack_cells low]
  exact write

end operands

/-- An access whose value comes to rest in its core. -/
theorem Source.gets_core {i : Instr} {s u t : State} {n : Fin 8} {a : Access} {f : Core → Core} {v : Nat} {d : Core}
    (he : exec i s = .next (accessInstr s n a)) (ready : CoreReady s n (accessLen a))
    (source : Source s n (moveOf a).size (moveOf a).src u v)
    (dest : checkOpd (unwaited s n) n (moveOf a).size true (moveOf a).dst = none)
    (wrote : writeOpd u n (moveOf a).size (if (moveOf a).sext then sext8 v else v) (moveOf a).dst =
      (updCore t n f, none)) (core : (f (coreOf t n)).skip (accessLen a) = d) : Gets i s n t d :=
  core ▸ Gets.of_core he ready ((doMove_of_value source.check dest source.read).trans wrote)

/-- An access whose value leaves its core. -/
theorem Source.gets_state {i : Instr} {s u t : State} {n : Fin 8} {a : Access} {v : Nat} {d : Core}
    (he : exec i s = .next (accessInstr s n a)) (ready : CoreReady s n (accessLen a))
    (source : Source s n (moveOf a).size (moveOf a).src u v)
    (dest : checkOpd (unwaited s n) n (moveOf a).size true (moveOf a).dst = none)
    (wrote : writeOpd u n (moveOf a).size (if (moveOf a).sext then sext8 v else v) (moveOf a).dst = (t, none))
    (core : (coreOf t n).skip (accessLen a) = d) : Gets i s n t d :=
  core ▸ Gets.of_state he ready ((doMove_of_value source.check dest source.read).trans wrote)

/-! ### A store after a port read (R563, R616) -/

section congr
variable {s t : State}

/-! What a request does to Basin depends on Basin alone, and on whether its bank runs. -/

theorem setTag_congr (same : t.basin = s.basin) (d : Nat) (x : Tag) : (setTag t d x).basin = (setTag s d x).basin :=
  congrArg (fun b : Basin => { b with tags := b.tags.set {} d x }) same

theorem updBank_congr (same : t.basin = s.basin) (b : Nat) (f : Bank → Bank) :
    (updBank t b f).basin = (updBank s b f).basin :=
  congrArg (fun x : Basin => { x with banks := x.banks.upd {} b f }) same

theorem putDw_congr (same : t.basin = s.basin) (d : Nat) (v : Dword) : (putDw t d v).basin = (putDw s d v).basin :=
  congrArg (fun b : Basin => { b with
    bytes := pokeList b.bytes (8 * d) (leBytes 8 v.toNat), synd := b.synd.set 0 d 0 }) same

theorem setSynd_congr (same : t.basin = s.basin) (d : Nat) (v : Byte) :
    (setSynd t d v).basin = (setSynd s d v).basin :=
  congrArg (fun b : Basin => { b with synd := b.synd.set 0 d v }) same

theorem poisonDw_congr (same : t.basin = s.basin) (agent d : Nat) (syn : Byte) :
    (poisonDw t agent d syn).basin = (poisonDw s agent d syn).basin := by
  rw [basin_poisonDw t, basin_poisonDw s]
  exact updBank_congr (updBank_congr (setTag_congr same ..) ..) ..

theorem readTag_congr (same : t.basin = s.basin) (agent d : Nat) :
    (readTag t agent d).1.basin = (readTag s agent d).1.basin ∧ (readTag t agent d).2 = (readTag s agent d).2 := by
  have tag : dwTag t d = dwTag s d := by rw [dwTag, same, dwTag]
  have synd : dwSynd t d = dwSynd s d := by rw [dwSynd, same, dwSynd]
  unfold readTag
  rw [tag, synd]
  dsimp only
  by_cases voted : (dwTag s d).vote = true
  · rw [if_pos voted, if_pos voted]
    by_cases counted : (dwTag s d).counted = true
    · rw [if_pos counted, if_pos counted]
      exact ⟨setTag_congr same .., rfl⟩
    · rw [if_neg counted, if_neg counted]
      exact ⟨poisonDw_congr same .., rfl⟩
  · rw [if_neg voted, if_neg voted]
    exact ⟨setTag_congr same .., rfl⟩

theorem correction_congr (same : t.basin = s.basin) (agent d b : Nat) (f : Bank → Bank) (syn : Byte) (v : Dword) :
    (putDw (noteErr (updBank t b f) agent d syn false) d v).basin =
      (putDw (noteErr (updBank s b f) agent d syn false) d v).basin :=
  putDw_congr (updBank_congr (updBank_congr same ..) ..) ..

theorem fetchDw_congr (same : t.basin = s.basin) (agent d : Nat) :
    (fetchDw t agent d).1.basin = (fetchDw s agent d).1.basin ∧
      (fetchDw t agent d).2 = (fetchDw s agent d).2 := by
  obtain ⟨basin, tag⟩ := readTag_congr same agent d
  unfold fetchDw
  dsimp only
  generalize readTag t agent d = p at basin tag ⊢
  generalize readTag s agent d = q at basin tag ⊢
  have synd : dwSynd p.1 d = dwSynd q.1 d := by simp only [dwSynd, basin]
  have data : dwData p.1 d = dwData q.1 d := dwData_congr (congrArg Basin.bytes basin) d
  rw [tag, synd, data]
  split
  · exact ⟨basin, rfl⟩
  · split
    · exact ⟨basin, rfl⟩
    · exact ⟨correction_congr basin .., rfl⟩
    · exact ⟨correction_congr basin .., rfl⟩
    · exact ⟨poisonDw_congr basin .., rfl⟩

theorem fullWrite_congr (same : t.basin = s.basin) (d : Nat) (v : Dword) :
    (fullWrite t d v).basin = (fullWrite s d v).basin := by
  have tagged := setTag_congr same d {}
  have regs : bankRegs t (bankOf (8 * d)) = bankRegs s (bankOf (8 * d)) := by rw [bankRegs, same, bankRegs]
  unfold fullWrite
  dsimp only
  rw [regs]
  by_cases armed : (bankRegs s (bankOf (8 * d))).arm = true
  · rw [if_pos armed, if_pos armed]
    exact updBank_congr (setSynd_congr (putDw_congr tagged ..) ..) ..
  · rw [if_neg armed, if_neg armed]
    exact putDw_congr tagged d v

theorem writeDw_congr (same : t.basin = s.basin) (agent d off : Nat) (b : List Byte) :
    (writeDw t agent d off b).1.basin = (writeDw s agent d off b).1.basin := by
  obtain ⟨basin, value⟩ := fetchDw_congr same agent d
  unfold writeDw
  split
  · exact fullWrite_congr same ..
  · generalize fetchDw t agent d = p at basin value ⊢
    generalize fetchDw s agent d = q at basin value ⊢
    obtain ⟨u, v, x⟩ := p
    obtain ⟨u', v', x'⟩ := q
    obtain ⟨rfl, -⟩ : v = v' ∧ x = x' := Prod.mk.inj value
    cases v with
    | none => exact basin
    | some v => exact putDw_congr basin ..

theorem writeDws_congr (same : t.basin = s.basin) (fuel agent a : Nat) (b : List Byte) :
    (writeDws fuel t agent a b).1.basin = (writeDws fuel s agent a b).1.basin := by
  induction fuel generalizing s t a b with
  | zero => exact same
  | succ fuel ih =>
    by_cases empty : b = []
    · subst empty
      exact same
    rw [writeDws_of_ne_nil fuel t agent a empty rfl, writeDws_of_ne_nil fuel s agent a empty rfl]
    exact ih (writeDw_congr same ..) ..

theorem writeReq_congr (same : t.basin = s.basin) (islands : t.islands = s.islands) (agent a : Nat) (b : List Byte) :
    (writeReq t agent a b).1.basin = (writeReq s agent a b).1.basin := by
  have signals : ∀ u l, (signalWrite u a b.length l).basin = u.basin := fun u l =>
    (signalWrite_follows ..).basin (by decide)
  unfold writeReq
  rw [running_of_islands islands]
  split
  · exact same
  · exact (signals _ _).trans ((writeDws_congr same ..).trans (signals _ _).symm)

end congr

/-- A store leaves its core but for a store error to come. -/
theorem coreOf_storeData (s : State) (n : Nat) (e : Word) (z : Size) (v : Nat) :
    ∃ l, coreOf (storeData s n e z v) n = { coreOf s n with storeErr := l } := by
  have dh := dh_writeReq s (n + 3) e.toNat (leBytes (sizeBytes z) v)
  obtain ⟨⟨t, r⟩, is⟩ : ∃ w, writeReq s (n + 3) e.toNat (leBytes (sizeBytes z) v) = w := ⟨_, rfl⟩
  rw [is] at dh
  cases r with
  | none =>
    rw [storeData_of_ok is]
    exact ⟨(coreOf s n).storeErr, coreOf_of_dh dh n⟩
  | some r =>
    rw [storeData_of_error is]
    exact ⟨_, by rw [coreOf_updCore_self, coreOf_of_dh dh]⟩

theorem basin_storeData (s : State) (n : Nat) (e : Word) (z : Size) (v : Nat) :
    (storeData s n e z v).basin = (writeReq s (n + 3) e.toNat (leBytes (sizeBytes z) v)).1.basin := by
  obtain ⟨⟨t, r⟩, is⟩ : ∃ w, writeReq s (n + 3) e.toNat (leBytes (sizeBytes z) v) = w := ⟨_, rfl⟩
  cases r with
  | none => rw [storeData_of_ok is, is]
  | some r =>
    rw [storeData_of_error is, is]
    rfl

/-- A cell of a port stored in Basin: the store is that of the cell read, and the latch holds the other. -/
theorem inm_cell {i : Instr} {s u w : State} {n : Fin 8} {b : Fin 8} {p : Fin 4} {x y : Cell} {f : PortTarget}
    {v : Word} (he : exec i s = .next (accessInstr s n (.inm false b p x y))) (ready : CoreReady s n 3)
    (may : (coreOf s n).kernel = true ∨ taskPort ((coreOf s n).port p y) false = true)
    (mapped : portAddr (coreOf s n) n ((coreOf s n).port p y) = some f) (even : (coreOf s n).port p y % 2 = 0)
    (read : portTargetRead (unwaited s n) n f = (u, .ok v)) (fits : Fits (coreOf s n) b x 2)
    (opens : Opens s (coreOf s n) b x)
    (write : (writeReq u (n + 3) ((coreOf s n).ea b x).toNat (leBytes 2 (fld v 0 16))).1 = w) :
    ∃ t, exec i s = .next t ∧ (coreOf t n).pc = (coreOf s n).pc + 3 ∧ t.basin = w.basin ∧
      (coreOf t n).rdata = (v >>> 16).setWidth 16 := by
  have source := source_port_even may mapped even read
  have core := coreOf_of_portTargetRead (n := n) read
  obtain ⟨latch, is⟩ : ∃ g : Core → Core, (fun c : Core => { c with
      rdata := (v >>> 16).setWidth 16, rport := BitVec.ofNat 16 ((coreOf s n).port p y) }) = g := ⟨_, rfl⟩
  rw [is] at source
  have held : coreOf (updCore u n latch) n = latch { coreOf s n with waiting := false } := by
    rw [coreOf_updCore_self, core]
  have ea : (latch { coreOf s n with waiting := false }).ea b x = (coreOf s n).ea b x := by
    rw [← is]
    rfl
  have moved : doMove (unwaited s n) n (moveOf (.inm false b p x y)) =
      (storeData (updCore u n latch) n ((coreOf s n).ea b x) .cell (fld v 0 16), none) := by
    refine (doMove_of_value source.check (dest_mem (z := .cell) fits opens) source.read).trans ?_
    refine congrArg (·, none) ?_
    show storeData (updCore u n latch) n ((coreOf (updCore u n latch) n).ea b x) .cell (fld v 0 16) = _
    rw [held, ea]
  obtain ⟨l, after⟩ := coreOf_storeData (updCore u n latch) n ((coreOf s n).ea b x) .cell (fld v 0 16)
  refine ⟨_, he.trans (congrArg _ (accessInstr_of_done ready moved)), ?_, ?_, ?_⟩
  · rw [coreOf_updCore_self, after, held, ← is]
    rfl
  · rw [← write]
    exact (basin_storeData ..).trans (writeReq_congr (s := u) (t := updCore u n latch) rfl rfl ..)
  · rw [coreOf_updCore_self, after, held, ← is]
    rfl

end Sys2Proof.Machine
end

section
/-! PROOFS. The repeat prefixes (R576 to R580, R622 to R625): what an iteration leaves of the core that runs
it, and how a prefix goes on, ends and is left. -/

open Sys2Proof

namespace Sys2Proof.Machine

/-! ### A port write leaves the registers of its core (R560, R793) -/

theorem fabric_inj {a ad : Nat} (high : 0x20000000 ≤ a)
    (same : some (PortTarget.fabric a) = some (PortTarget.fabric ad)) : 0x20000000 ≤ ad := by
  obtain rfl := PortTarget.fabric.inj (Option.some.inj same)
  exact high

/-- A port reaches its own core's registers, or one above the areas of the Lockkeeper and the Deckhands. -/
theorem portAddr_high {c : Core} {n q ad : Nat} : portAddr c n q = some (.fabric ad) → 0x20000000 ≤ ad := by
  unfold portAddr
  dsimp only
  refine iteInduction (motive := fun r => r = some (PortTarget.fabric ad) → 0x20000000 ≤ ad)
    (fun _ own => nomatch own) fun _ => ?_
  repeat
    refine iteInduction (motive := fun r => r = some (PortTarget.fabric ad) → 0x20000000 ≤ ad)
      (fun _ => fabric_inj (by omega)) fun _ => ?_
  exact fun none' => nomatch none'

/-- An area that is neither Basin nor the Lockkeeper's or the Deckhands'. -/
structure Outer (x : Area) : Prop where
  lk : x ≠ .lk
  deck : x ≠ .deck

theorem outer_inj {x y : Area} {o k : Nat} (outer : y ≠ .lk ∧ y ≠ .deck) (same : some (y, k) = some (x, o)) :
    Outer x := by
  obtain rfl := (Prod.mk.inj (Option.some.inj same)).1
  exact ⟨outer.1, outer.2⟩

theorem areaOf_high {ad o : Nat} {x : Area} (high : 0x20000000 ≤ ad) : areaOf ad = some (x, o) → Outer x := by
  unfold areaOf
  rw [if_neg (by omega), if_neg (by omega), if_neg (by omega), if_neg (by omega), if_neg (by omega)]
  repeat
    refine iteInduction (motive := fun r => r = some (x, o) → Outer x)
      (fun _ => outer_inj (by decide)) fun _ => ?_
  exact fun none' => nomatch none'

theorem fwAgent_deck (n : Fin 8) : fwAgent (n + 3) = false := by
  revert n
  decide

/-- A Deckhand's write of a fabric register leaves the Deckhands. -/
theorem dh_areaWrite (s : State) (n : Fin 8) (o : Nat) (v : Word) {x : Area} (outer : Outer x) :
    (areaWrite s (n + 3) o v x).1.dh = s.dh := by
  have guarded : ∀ up (f : State → State), (guardW (fwAgent (n + 3)) up s f).1 = s := by
    intro up f
    rw [guardW, fwAgent_deck]
    rfl
  cases x with
  | basin => exact dh_writeReq ..
  | lk => exact absurd rfl outer.lk
  | deck => exact absurd rfl outer.deck
  | tp => exact (tpWrite_follows ..).dh (by decide)
  | cv => exact (cvWrite_follows ..).dh (by decide)
  | sl => exact (slWrite_follows ..).dh (by decide)
  | tl => exact (tlWrite_follows ..).dh (by decide)
  | ic => exact (icWrite_follows ..).dh (by decide)
  | win => exact congrArg State.dh (guarded ..)
  | mb => exact (mbWrite_follows ..).dh (by decide)
  | weir => exact (weirWrite_follows ..).dh (by decide)
  | bs => exact (bsWrite_follows ..).dh (by decide)
  | isl => exact congrArg State.dh (guarded ..)
  | peri => exact (periWrite_follows ..).dh (by decide)
  | sys => exact (sysWrite_follows ..).dh (by decide)

theorem dh_fabricWrite (s : State) (n : Fin 8) {ad : Nat} (high : 0x20000000 ≤ ad) (v : Word) :
    (fabricWrite s (n + 3) ad v).1.dh = s.dh := by
  unfold fabricWrite
  split
  · next x o at' => exact dh_areaWrite s n o v (areaOf_high high at')
  · rfl

theorem d_regWrite (c : Core) (t : Dword) (o : Nat) (v : Word) : (c.regWrite t o v).d = c.d := by
  unfold Core.regWrite
  dsimp only
  repeat
    refine iteInduction (motive := fun x : Core => x.d = c.d) (fun _ => rfl) fun _ => ?_
  rfl

theorem d_portStore (s : State) (n : Fin 8) (q : Nat) (v : Word) :
    (coreOf (portStore s n q v).1 n).d = (coreOf s n).d := by
  have wrote : ∀ f, portAddr (coreOf s n) n q = some f →
      (coreOf (portTargetWrite s n v f).1 n).d = (coreOf s n).d := by
    intro f mapped
    cases f with
    | own o =>
      show (coreOf (updCore s n _) n).d = _
      rw [coreOf_updCore_self]
      exact d_regWrite ..
    | fabric ad => exact congrArg Core.d (coreOf_of_dh (dh_fabricWrite s n (portAddr_high mapped) v) n)
  unfold portStore
  dsimp only
  split
  · rfl
  · next f mapped =>
    have kept := wrote f mapped
    split <;> next got => rwa [got] at kept

/-! ### An iteration leaves its count register (R576, R622) -/

theorem d_portFetch (s : State) (n : Nat) (q : Nat) : (coreOf (portFetch s n q).1 n).d = (coreOf s n).d :=
  congrArg Core.d (coreOf_of_dh ((portFetch_follows ..).dh (by decide)) n)

theorem d_readOpd (s : State) (n : Nat) (z : Size) (o : Opd) :
    (coreOf (readOpd s n z o).1 n).d = (coreOf s n).d := by
  cases o with
  | reg r => rfl
  | pair k => rfl
  | mem b x =>
    have dh := dh_readReq s (n + 3) ((coreOf s n).ea b x).toNat (sizeBytes z)
    show (coreOf (loadData s n ((coreOf s n).ea b x) z).1 n).d = _
    unfold loadData
    split <;> next got =>
      rw [got] at dh
      exact congrArg Core.d (coreOf_of_dh dh n)
  | port p x =>
    have kept := d_portFetch s n ((coreOf s n).port p x)
    unfold readOpd
    dsimp only
    split
    · split <;> next got => rwa [got] at kept
    · unfold portReadCell
      dsimp only
      split
      · split
        · next got =>
          rw [got] at kept
          exact (congrArg Core.d (coreOf_updCore_self ..)).trans kept
        · next got => rwa [got] at kept
      · split
        · rfl
        · split <;> next got => rwa [got] at kept

/-- A destination is not the count register. -/
structure Apart (o : Opd) (dc : Fin 16) : Prop where
  reg : o ≠ .reg dc
  pair : ∀ j, o = .pair j → lowReg j ≠ dc ∧ highReg j ≠ dc

theorem get_set_of_ne {α : Type} {k : Nat} (d : Vector α k) {i j : Fin k} (v : α) (ne : i ≠ j) :
    (d.set i v)[j] = d[j] := by
  have : i.val ≠ j.val := fun same => ne (Fin.ext same)
  simp [this]

theorem count_writeOpd (s : State) (n : Fin 8) (z : Size) (v : Nat) {o : Opd} {dc : Fin 16} (apart : Apart o dc) :
    (coreOf (writeOpd s n z v o).1 n).dr dc = (coreOf s n).dr dc := by
  cases o with
  | reg r =>
    have ne : r ≠ dc := fun same => apart.reg (congrArg Opd.reg same)
    show (coreOf (updCore s n _) n).d[dc] = _
    rw [coreOf_updCore_self]
    exact get_set_of_ne _ _ ne
  | pair k =>
    obtain ⟨low, high⟩ := apart.pair k rfl
    show (coreOf (updCore s n _) n).d[dc] = _
    rw [coreOf_updCore_self]
    exact (get_set_of_ne _ _ high).trans (get_set_of_ne _ _ low)
  | mem b x =>
    obtain ⟨l, after⟩ := coreOf_storeData s n ((coreOf s n).ea b x) z v
    show (coreOf (storeData s n ((coreOf s n).ea b x) z v) n).d[dc] = _
    rw [after]
    rfl
  | port p x =>
    unfold writeOpd
    dsimp only
    split
    · exact congrArg (fun d : Vector Cell 16 => d[dc]) (d_portStore ..)
    · unfold portWriteCell
      dsimp only
      split
      · exact congrArg (·.dr dc) (coreOf_updCore_self ..)
      · exact congrArg (fun d : Vector Cell 16 => d[dc]) (d_portStore ..)

theorem count_doMove {s t : State} {n : Fin 8} {m : Move} {dc : Fin 16} (apart : Apart m.dst dc)
    (moved : doMove s n m = (t, none)) : (coreOf t n).dr dc = (coreOf s n).dr dc := by
  unfold doMove at moved
  split at moved
  · exact nomatch (Prod.mk.inj moved).2
  · have read := d_readOpd s n m.size m.src
    split at moved
    · exact nomatch (Prod.mk.inj moved).2
    · next u v got =>
      rw [got] at read
      have wrote := count_writeOpd u n m.size (if m.sext then sext8 v else v) apart
      rw [moved] at wrote
      exact wrote.trans (congrArg (fun d : Vector Cell 16 => d[dc]) read)

/-! ### What advancing leaves (R576, R622) -/

section advance
variable (c : Core) (m : Move) (dc : Fin 16) (stride : Bool)

/-- Base registers stepped by a size. -/
def stepBases (c : Core) (l : List (Fin 8)) (k : Nat) : Core :=
  l.foldl (fun c b => c.setBase b ((c.br b).base + w32 k)) c

/-- A port base stepped by a size, where the prefix strides. -/
def stepPort (c : Core) (o : Option (Fin 4)) (stride : Bool) (k : Nat) : Core :=
  match o, stride with
  | some p, true => c.setP p (c.pr p + BitVec.ofNat 16 k)
  | _, _ => c

theorem advance_eq : c.advance m dc stride =
    (stepPort (stepBases c m.bases (sizeBytes m.size)) m.portBase stride (sizeBytes m.size / 2)).setD dc
      ((stepPort (stepBases c m.bases (sizeBytes m.size)) m.portBase stride (sizeBytes m.size / 2)).dr dc - 1) := by
  unfold Core.advance stepPort stepBases
  rfl

theorem stepBases_eq (l : List (Fin 8)) (k : Nat) : stepBases c l k = { c with b := (stepBases c l k).b } := by
  induction l generalizing c with
  | nil => rfl
  | cons b l ih => exact ih (c.setBase b ((c.br b).base + w32 k))

theorem stepPort_eq (o : Option (Fin 4)) (k : Nat) :
    stepPort c o stride k = { c with p := (stepPort c o stride k).p } := by
  unfold stepPort
  split <;> rfl

/-- Advancing changes the base registers, the port bases and the count alone. -/
theorem advance_parts : c.advance m dc stride = { c with
    d := c.d.set dc (c.dr dc - 1), b := (stepBases c m.bases (sizeBytes m.size)).b,
    p := (stepPort c m.portBase stride (sizeBytes m.size / 2)).p } := by
  have port : ∀ x : Core, x.p = c.p → (stepPort x m.portBase stride (sizeBytes m.size / 2)).p =
      (stepPort c m.portBase stride (sizeBytes m.size / 2)).p := by
    intro x same
    unfold stepPort
    split
    · exact congrArg (fun p : Vector Cell 4 => p.set _ (p[_] + _)) same
    · exact same
  rw [advance_eq]
  obtain ⟨bases, is⟩ : ∃ v, stepBases c m.bases (sizeBytes m.size) = { c with b := v } := ⟨_, stepBases_eq ..⟩
  have both : stepPort { c with b := bases } m.portBase stride (sizeBytes m.size / 2) =
      { c with b := bases, p := (stepPort c m.portBase stride (sizeBytes m.size / 2)).p } :=
    (stepPort_eq ..).trans (by rw [port { c with b := bases } rfl])
  rw [is, both]
  rfl

theorem count_advance : (c.advance m dc stride).dr dc = c.dr dc - 1 := by
  rw [advance_parts]
  exact Vector.getElem_set_self ..

theorem base_stepBases {l : List (Fin 8)} (once : l.Nodup) (k : Nat) (f : Fin 8) :
    ((stepBases c l k).b[f]).base = if f ∈ l then c.b[f].base + w32 k else c.b[f].base := by
  induction l generalizing c with
  | nil => simp [stepBases]
  | cons b l ih =>
    obtain ⟨out, once⟩ := List.nodup_cons.mp once
    have step := ih (c.setBase b ((c.br b).base + w32 k)) once
    refine step.trans ?_
    by_cases same : f = b
    · subst same
      rw [if_neg out, if_pos List.mem_cons_self]
      exact congrArg BReg.base (Vector.getElem_set_self ..)
    · have kept : (c.setBase b ((c.br b).base + w32 k)).b[f] = c.b[f] :=
        get_set_of_ne _ _ (fun is => same is.symm)
      rw [kept]
      exact if_congr (by simp [same]) rfl rfl

theorem nodup_bases : m.bases.Nodup := by
  unfold Move.bases
  split
  · split <;> simp_all
  · simp
  · simp
  · simp

theorem base_advance (f : Fin 8) : ((c.advance m dc stride).b[f]).base =
    if f ∈ m.bases then c.b[f].base + BitVec.ofNat 32 (sizeBytes m.size) else c.b[f].base := by
  rw [advance_parts]
  exact base_stepBases c (nodup_bases m) ..

theorem port_advance (f : Fin 4) : (c.advance m dc stride).p[f] =
    if stride = true ∧ m.portBase = some f then c.p[f] + BitVec.ofNat 16 (sizeBytes m.size / 2) else c.p[f] := by
  rw [advance_parts]
  show (stepPort c m.portBase stride (sizeBytes m.size / 2)).p[f] = _
  cases base : m.portBase with
  | none => exact (if_neg fun both => nomatch both.2).symm
  | some p =>
    cases stride with
    | false => exact (if_neg fun both => Bool.false_ne_true both.1).symm
    | true =>
      by_cases same : p = f
      · subst same
        rw [if_pos ⟨rfl, rfl⟩]
        exact Vector.getElem_set_self ..
      · rw [if_neg fun both => same (Option.some.inj both.2)]
        exact get_set_of_ne _ _ same

theorem ie_advance : (c.advance m dc stride).ie = c.ie := by rw [advance_parts]
theorem storeErr_advance : (c.advance m dc stride).storeErr = c.storeErr := by rw [advance_parts]

end advance

/-- Whether a prefix may be left does not turn on what an iteration advances. -/
theorem mayStop_advance (u : State) (n : Nat) (m : Move) (dc : Fin 16) (stride : Bool) :
    mayStop (updCore u n (fun c => c.advance m dc stride)) n = mayStop u n := by
  unfold mayStop
  rw [coreOf_updCore_self, ie_advance, storeErr_advance]
  rfl

/-! ### Iterations (R577 to R580) -/

section iterate
variable {n : Fin 8} {m : Move} {dc : Fin 16} {stride : Bool} {s t : State}

theorem iterate_of_zero (zero : (coreOf s n).dr dc = 0) (fuel : Nat) (stop : Option Nat) :
    iterate n m dc stride (fuel + 1) stop s = (s, none, true) :=
  if_pos zero

theorem iterate_of_stop (some' : (coreOf s n).dr dc ≠ 0) (may : mayStop s n = true) (fuel : Nat) :
    iterate n m dc stride (fuel + 1) (some 0) s = (s, none, false) :=
  (if_neg some').trans (if_pos (by rw [may]; rfl))

theorem iterate_of_done (some' : (coreOf s n).dr dc ≠ 0) {stop : Option Nat} (on : stop ≠ some 0)
    (moved : doMove s n m = (t, none)) (fuel : Nat) :
    iterate n m dc stride (fuel + 1) stop s =
      iterate n m dc stride fuel (stop.map (· - 1)) (updCore t n (fun c => c.advance m dc stride)) := by
  rw [iterate, if_neg some', if_neg (by simp [on]), moved]

theorem iterate_of_raised {e : Exc} (some' : (coreOf s n).dr dc ≠ 0) {stop : Option Nat} (on : stop ≠ some 0)
    (moved : doMove s n m = (t, some e)) (fuel : Nat) :
    iterate n m dc stride (fuel + 1) stop s = (t, some e, false) := by
  rw [iterate, if_neg some', if_neg (by simp [on]), moved]

/-- A count that is not 0 goes down by one. -/
theorem count_pred {v : Cell} (some' : v ≠ 0) : (v - 1).toNat + 1 = v.toNat := by
  have : v.toNat ≠ 0 := fun zero => some' (BitVec.eq_of_toNat_eq zero)
  bv_omega

/-- More fuel than the count changes nothing. -/
theorem iterate_fuel (apart : Apart m.dst dc) {fuel more : Nat} (enough : ((coreOf s n).dr dc).toNat < fuel)
    (plenty : ((coreOf s n).dr dc).toNat < more) :
    iterate n m dc stride fuel none s = iterate n m dc stride more none s := by
  induction fuel generalizing s more with
  | zero => omega
  | succ fuel ih =>
    obtain ⟨more, rfl⟩ : ∃ k, more = k + 1 := ⟨more - 1, by omega⟩
    by_cases zero : (coreOf s n).dr dc = 0
    · rw [iterate_of_zero zero, iterate_of_zero zero]
    obtain ⟨⟨u, e⟩, moved⟩ : ∃ w, doMove s n m = w := ⟨_, rfl⟩
    cases e with
    | some e => rw [iterate_of_raised zero (by simp) moved, iterate_of_raised zero (by simp) moved]
    | none =>
      rw [iterate_of_done zero (by simp) moved, iterate_of_done zero (by simp) moved]
      have left : ((coreOf (updCore u n (fun c => c.advance m dc stride)) n).dr dc).toNat + 1 =
          ((coreOf s n).dr dc).toNat := by
        rw [coreOf_updCore_self, count_advance, count_doMove apart moved]
        exact count_pred zero
      exact ih (by omega) (by omega)

end iterate

/-! ### Prefixes -/

/-- How a prefix ends after its iterations (R577 to R579). -/
def prefixEnd (n len : Nat) : State × Option Exc × Bool → State
  | (s, some e, _) => raiseExc s n e
  | (s, none, false) => s
  | (s, none, true) => updCore s n (fun c => c.skip len)

section repeats
variable {s : State} {n : Fin 8} {dc : Fin 16} {a : Access} {stride short : Bool}

theorem repeat_of_ready (ready : CoreReady s n (1 + accessLen a))
    (few : short = true → ((coreOf s n).dr dc).toNat ≤ 32) (stop : Option Nat) :
    repeat_ s n dc a stride short stop =
      prefixEnd n (1 + accessLen a) (iterate n (moveOf a) dc stride 65537 stop (unwaited s n)) := by
  have count : (coreOf (unwaited s n) n).dr dc = (coreOf s n).dr dc := by
    rw [coreOf_unwaited]
    rfl
  rw [repeat_, begin_of_ready ready]
  refine (if_neg ?_).trans rfl
  rw [Bool.and_eq_true, decide_eq_true_eq]
  rintro ⟨is, many⟩
  rw [show (coreOf (updCore s n _) n).dr dc = _ from count] at many
  exact Nat.not_lt_of_le (few is) many

theorem repeat_of_many (ready : CoreReady s n (1 + accessLen a)) (many : 32 < ((coreOf s n).dr dc).toNat)
    (stop : Option Nat) : repeat_ s n dc a stride true stop = raiseExc (unwaited s n) n { code := 10 } := by
  have count : (coreOf (unwaited s n) n).dr dc = (coreOf s n).dr dc := by
    rw [coreOf_unwaited]
    rfl
  rw [repeat_, begin_of_ready ready]
  refine if_pos ?_
  rw [Bool.true_and, decide_eq_true_eq, show (coreOf (updCore s n _) n).dr dc = _ from count]
  exact many

theorem Tab.set_set_self {α : Type} [DecidableEq α] (d : α) (t : Tab α) (i : Nat) (v : α) :
    Tab.set d (Tab.set d t i v) i v = Tab.set d t i v := by
  by_cases listed : v = d
  · unfold Tab.set
    rw [if_pos listed, if_pos listed, Tab.erase, Tab.erase, List.filter_filter]
    simp
  · exact Tab.set_set_of_ne _ _ _ listed

/-- A state in which no `wfi` of the core is in progress, once written, is as it was. -/
theorem unwaited_updCore (u : State) (n : Nat) (f : Core → Core) (awake : (f (coreOf u n)).waiting = false) :
    unwaited (updCore u n f) n = updCore u n f := by
  have same : { f (coreOf u n) with waiting := false } = f (coreOf u n) := by
    generalize f (coreOf u n) = c at awake ⊢
    cases c
    cases awake
    rfl
  have twice : Tab.upd {} (Tab.upd {} u.dh.cores n f) n (fun c : Core => { c with waiting := false }) =
      Tab.upd {} u.dh.cores n f := by
    have got : Tab.get {} (Tab.upd {} u.dh.cores n f) n = f (coreOf u n) := Tab.get_upd_self ..
    rw [Tab.upd, got, same]
    exact Tab.set_set_self ..
  exact congrArg (fun cores => onDh u (fun x => { x with cores := cores })) twice

end repeats

end Sys2Proof.Machine
end

section
/-! PROOFS. The four repeat prefixes as commands (R577 to R580), and the obligation O46. -/

open Sys2Proof

namespace Sys2Proof.Machine

/-! ### The prefixes as commands -/

/-- A command is a prefix with an access; `short` prefixes take counts of at most 32. -/
structure IsPrefix (i : Instr) (n : Fin 8) (dc : Fin 16) (acc : Access) (stride short : Bool) : Prop where
  run : ∀ s, exec i s = .next (repeat_ s n dc acc stride short none)
  bound : short = true → i ≠ .repInstr n dc acc none ∧ i ≠ .repI n dc acc none

theorem isPrefix_of_mem {i : Instr} {n : Fin 8} {dc : Fin 16} {acc : Access} {stride : Bool}
    (mem : i ∈ [Instr.repInstr n dc acc none, Instr.reps n dc acc] ∧ stride = false ∨
      i ∈ [Instr.repI n dc acc none, Instr.repsI n dc acc] ∧ stride = true) :
    ∃ short, IsPrefix i n dc acc stride short := by
  simp only [List.mem_cons, List.not_mem_nil, or_false] at mem
  obtain ⟨rfl | rfl, rfl⟩ | ⟨rfl | rfl, rfl⟩ := mem
  · exact ⟨false, fun _ => rfl, fun no => nomatch no⟩
  · exact ⟨true, fun _ => rfl, fun _ => ⟨fun no => (nomatch no), fun no => (nomatch no)⟩⟩
  · exact ⟨false, fun _ => rfl, fun no => nomatch no⟩
  · exact ⟨true, fun _ => rfl, fun _ => ⟨fun no => (nomatch no), fun no => (nomatch no)⟩⟩

section repeats
variable {i : Instr} {s u : State} {n : Fin 8} {dc : Fin 16} {acc : Access} {stride short : Bool}

theorem count_unwaited (s : State) (n : Nat) (dc : Fin 16) : (coreOf (unwaited s n) n).dr dc = (coreOf s n).dr dc := by
  rw [coreOf_unwaited]
  rfl

/-- A count of 0 ends a prefix at once (R577). -/
theorem IsPrefix.of_zero (h : IsPrefix i n dc acc stride short) (ready : CoreReady s n (1 + accessLen acc))
    (zero : (coreOf s n).dr dc = 0) : CoreGets i s n ((coreOf s n).past (1 + accessLen acc)) := by
  have ends : repeat_ s n dc acc stride short none =
      updCore (unwaited s n) n (fun c => c.skip (1 + accessLen acc)) := by
    rw [repeat_of_ready ready (fun _ => by rw [zero]; decide),
      iterate_of_zero ((count_unwaited ..).trans zero) 65536]
    rfl
  refine ⟨_, (h.run s).trans (congrArg _ ends), ?_, ((OnlyCore.refl s n).updCore _).updCore _⟩
  rw [coreOf_updCore_self, coreOf_unwaited]
  rfl

/-- A prefix after its first iteration. -/
theorem repeat_of_done (ready : CoreReady s n (1 + accessLen acc))
    (few : short = true → ((coreOf s n).dr dc).toNat ≤ 32) (some' : (coreOf s n).dr dc ≠ 0) {stop : Option Nat}
    (on : stop ≠ some 0) (moved : doMove (unwaited s n) n (moveOf acc) = (u, none)) :
    repeat_ s n dc acc stride short stop = prefixEnd n (1 + accessLen acc)
      (iterate n (moveOf acc) dc stride 65536 (stop.map (· - 1))
        (updCore u n (fun c => c.advance (moveOf acc) dc stride))) := by
  rw [repeat_of_ready ready few, iterate_of_done (by rw [count_unwaited]; exact some') on moved 65536]

variable (apart : Apart (moveOf acc).dst dc) (moved : doMove (unwaited s n) n (moveOf acc) = (u, none))
include apart moved

theorem count_after (stride : Bool) :
    (coreOf (updCore u n (fun c => c.advance (moveOf acc) dc stride)) n).dr dc = (coreOf s n).dr dc - 1 := by
  rw [coreOf_updCore_self, count_advance, count_doMove apart moved, count_unwaited]

/-- The last iteration ends the prefix (R577). -/
theorem IsPrefix.of_one (h : IsPrefix i n dc acc stride short) (ready : CoreReady s n (1 + accessLen acc))
    (one : (coreOf s n).dr dc = 1) :
    exec i s = .next (updCore (updCore u n (fun c => c.advance (moveOf acc) dc stride)) n
      (fun c => c.skip (1 + accessLen acc))) := by
  have zero : (coreOf (updCore u n (fun c => c.advance (moveOf acc) dc stride)) n).dr dc = 0 := by
    rw [count_after apart moved, one]
    decide
  rw [h.run, repeat_of_done ready (fun _ => by rw [one]; decide) (by rw [one]; decide) (by simp) moved]
  exact congrArg (fun r => Host.Outcome.next (prefixEnd n (1 + accessLen acc) r)) (iterate_of_zero zero 65535 none)

/-- A prefix goes on after an iteration as it would begin there (R577). -/
theorem IsPrefix.of_more (h : IsPrefix i n dc acc stride short) (ready : CoreReady s n (1 + accessLen acc))
    (few : short = true → ((coreOf s n).dr dc).toNat ≤ 32) (some' : (coreOf s n).dr dc ≠ 0)
    (ready' : CoreReady (updCore u n (fun c => c.advance (moveOf acc) dc stride)) n (1 + accessLen acc))
    (awake : ((coreOf u n).advance (moveOf acc) dc stride).waiting = false) :
    exec i s = exec i (updCore u n (fun c => c.advance (moveOf acc) dc stride)) := by
  have count := count_after apart moved stride
  have left := count_pred some'
  have small := ((coreOf s n).dr dc).isLt
  have fewer : short = true →
      ((coreOf (updCore u n (fun c => c.advance (moveOf acc) dc stride)) n).dr dc).toNat ≤ 32 := by
    intro is
    have := few is
    rw [count]
    omega
  have again := repeat_of_ready (stride := stride) ready' fewer none
  rw [unwaited_updCore u n _ awake] at again
  rw [h.run, h.run, again, repeat_of_done ready few some' (by simp) moved]
  exact congrArg (fun r => Host.Outcome.next (prefixEnd n (1 + accessLen acc) r))
    (iterate_fuel apart (by rw [count]; omega) (by rw [count]; omega))

/-- A prefix that is left after its first iteration (R577). -/
theorem repeat_of_left (ready : CoreReady s n (1 + accessLen acc)) (many : 1 < ((coreOf s n).dr dc).toNat)
    (may : mayStop u n = true) : repeat_ s n dc acc stride false (some 1) =
      updCore u n (fun c => c.advance (moveOf acc) dc stride) := by
  have some' : (coreOf s n).dr dc ≠ 0 := fun zero => by
    rw [zero] at many
    exact absurd many (by decide)
  have left := count_pred some'
  have on : (coreOf (updCore u n (fun c => c.advance (moveOf acc) dc stride)) n).dr dc ≠ 0 := by
    rw [count_after apart moved]
    intro zero
    rw [zero, show ((0 : Cell)).toNat = 0 from rfl] at left
    omega
  rw [repeat_of_done (short := false) ready (fun no => nomatch no) some' (by simp) moved]
  exact congrArg (prefixEnd n (1 + accessLen acc))
    (iterate_of_stop on ((mayStop_advance ..).trans may) 65535)

end repeats

/-- Settles O46: an access moves its value between its operands (`Source`), or a check raises its
exception (`exec_of_checked`); a prefix repeats it until its count is 0 (`IsPrefix`), which no iteration
but by advancing changes (`count_doMove`). -/
theorem accessesMoveTheirValueAndPrefixesRepeatThem :
    Obligations.AccessesMoveTheirValueAndPrefixesRepeatThem := by
  intro n r dc k b g p x y z s c a begun gets ea fits open' at' pairOf p2 p3 trap q mayIn fabric latched
  have fits' : ∀ {b x size}, fits b x size → Fits c b x size := fun ⟨al, lo, hi, ba⟩ => ⟨al, lo, hi, ba⟩
  have unfits : ∀ {b x size}, Fits c b x size → fits b x size := fun h => ⟨h.aligned, h.low, h.high, h.basin⟩
  have opens : ∀ {b x}, open' b x → Opens s c b x := fun ⟨wr, st, pa⟩ => ⟨wr, st, pa⟩
  have checked : ∀ {i : Instr} {acc : Access} {e : Exc} {v : Word}, exec i s = .next (accessInstr s n acc) →
      CoreReady s n (accessLen acc) → e.ea = some v →
      (checkOpd (unwaited s n) n (moveOf acc).size false (moveOf acc).src).or
        (checkOpd (unwaited s n) n (moveOf acc).size true (moveOf acc).dst) = some e →
      trap i (BitVec.ofNat 8 e.code) v := by
    intro i acc e v he ready at'' bad kernel free
    obtain ⟨t, ran, t'⟩ := exec_of_checked he ready kernel free (doMove_of_checked bad)
    exact ⟨t, ran, t'.only, t'.pc, t'.epc, t'.ecode, by rw [t'.eaddr, at'']; rfl, t'.d, t'.b, t'.p⟩
  refine ⟨fun ready => ⟨?loadByte, ?loadCell, ?loadPair, ?stores, ?mis2, ?mis4, ?range, ?readOnly, ?portIn,
    ?portLatched, ?portOut, ?portOdd, ?portUnmapped⟩, fun ready => ⟨?mvm, ?inm, ?outm⟩, ?prefixes, ?shorts⟩
  case loadByte =>
    intro u l h read
    have source := source_mem (fits' h) read (z := .byte)
    have core := coreOf_of_readReq (n := n) read
    have short : leNat l < 256 := by
      have := leNat_lt l
      rwa [length_readReq read] at this
    exact ⟨source.gets_core (a := .ldB r b x) rfl ready rfl rfl (by rw [core]; rfl),
      source.gets_core (a := .ldSb r b x) rfl ready rfl rfl (by
        show Core.skip (Core.setD (coreOf u n) r (BitVec.ofNat 16 (sext8 (leNat l)))) 2 = _
        rw [core, ofNat_sext8 short]
        rfl)⟩
  case loadCell =>
    intro u l h read
    exact (source_mem (fits' h) read (z := .cell)).gets_core (a := .ld r b x) rfl ready rfl rfl
      (by rw [coreOf_of_readReq (n := n) read]; rfl)
  case loadPair =>
    intro u l h read
    exact (source_mem (fits' h) read (z := .pair)).gets_core (a := .ldP k b x) rfl ready rfl rfl (by
      show Core.skip (Core.setPair (coreOf u n) k (w32 (leNat l))) 2 = _
      rw [coreOf_of_readReq (n := n) read, setPair_w32]
      rfl)
  case stores =>
    intro u open''
    have core : ∀ {v w} {e : Option Err}, writeReq begun a (ea b x).toNat v = (w, e) → coreOf w n = { c with waiting := false } := by
      intro v w e write
      have dh := dh_writeReq begun a (ea b x).toNat v
      rw [write] at dh
      exact (coreOf_of_dh dh n).trans (coreOf_unwaited s n)
    refine ⟨fun h write => ?_, fun h write => ?_, fun h write => ?_, fun e h write => ?_⟩
    · exact (source_reg s n .byte r).gets_state (a := .stB r b x) rfl ready (dest_mem (fits' h) (opens open''))
        (writeOpd_mem (coreOf_unwaited s n) write) (by rw [core write]; rfl)
    · exact (source_reg s n .cell r).gets_state (a := .st r b x) rfl ready (dest_mem (fits' h) (opens open''))
        (writeOpd_mem (coreOf_unwaited s n) write) (by rw [core write]; rfl)
    · exact (source_pair s n .pair k).gets_state (a := .stP k b x) rfl ready (dest_mem (fits' h) (opens open''))
        (writeOpd_mem (coreOf_unwaited s n) write) (by rw [core write]; rfl)
    · exact (source_reg s n .cell r).gets_core (a := .st r b x) rfl ready (dest_mem (fits' h) (opens open''))
        (writeOpd_mem_error (coreOf_unwaited s n) write) (by rw [core write]; rfl)
  case mis2 =>
    intro odd
    have bad : ∀ store, checkOpd (unwaited s n) n .cell store (.mem b x) = some { code := 5, ea := some (ea b x) } :=
      fun store => (checkOpd_unwaited_mem ..).trans (checkData_of_misaligned odd)
    exact ⟨checked (acc := .ld r b x) rfl ready rfl (congrArg (Option.or · none) (bad false)),
      checked (acc := .st r b x) rfl ready rfl (bad true)⟩
  case mis4 =>
    intro odd
    have bad : ∀ store, checkOpd (unwaited s n) n .pair store (.mem b x) = some { code := 5, ea := some (ea b x) } :=
      fun store => (checkOpd_unwaited_mem ..).trans (checkData_of_misaligned odd)
    exact ⟨checked (acc := .ldP k b x) rfl ready rfl (congrArg (Option.or · none) (bad false)),
      checked (acc := .stP k b x) rfl ready rfl (bad true)⟩
  case range =>
    intro out
    have bad : ∀ store, checkOpd (unwaited s n) n .byte store (.mem b x) = some { code := 4, ea := some (ea b x) } :=
      fun store => (checkOpd_unwaited_mem ..).trans
        (checkData_of_range (Nat.mod_one _) (fun h => out (unfits h)))
    exact ⟨checked (acc := .ldB r b x) rfl ready rfl (congrArg (Option.or · none) (bad false)),
      checked (acc := .ldSb r b x) rfl ready rfl (congrArg (Option.or · none) (bad false)),
      checked (acc := .stB r b x) rfl ready rfl (bad true)⟩
  case readOnly =>
    intro h mode
    exact checked (acc := .stB r b x) rfl ready rfl
      ((checkOpd_unwaited_mem ..).trans (checkData_of_readOnly (z := .byte) (fits' h) mode))
  case portIn =>
    rintro u f w ⟨mapped, read⟩
    have core := coreOf_of_portTargetRead (n := n) read
    refine ⟨fun may even => ⟨?_, ?_⟩, fun may odd other => ?_⟩
    · have moved := (source_port_even may mapped even read).gets_core (i := .inCell n r p x) (a := .inCell r p x) rfl ready rfl
        (f := fun d => d.setD r (BitVec.ofNat 16 (fld w 0 16))) rfl rfl
      rw [coreOf_updCore_self, core, ofNat_fld_low] at moved
      have port : BitVec.ofNat 16 ((coreOf s n).port p x) = c.p[p] + x := BitVec.ofNat_toNat _ _
      rw [port] at moved
      exact moved.of_updCore
    · exact (source_port_pair may mapped even read).gets_core (a := .inPair k p x) rfl ready rfl rfl (by
        show Core.skip (Core.setPair (coreOf u n) k (w32 w.toNat)) 2 = _
        rw [core, setPair_w32]
        rfl)
    · exact (source_port_odd may mapped odd other read).gets_core (a := .inCell r p x) rfl ready rfl rfl (by
        show Core.skip (Core.setD (coreOf u n) r (BitVec.ofNat 16 (fld w 16 16))) 2 = _
        rw [core, ofNat_fld_high]
        rfl)
  case portLatched =>
    intro f may mapped odd latched'
    have moved := (source_port_latched may mapped odd latched').gets_core (i := .inCell n r p x) (a := .inCell r p x) rfl ready rfl
      (f := fun d => d.setD r (BitVec.ofNat 16 c.rdata.toNat)) rfl rfl
    rw [coreOf_unwaited, BitVec.ofNat_toNat] at moved
    exact moved.of_updCore
  case portOut =>
    intro f may mapped
    refine ⟨fun even => ?_, fun u odd write => ?_, fun u even write => ?_⟩
    · have moved := (source_reg s n .cell r).gets_core (i := .outCell n r p x) (a := .outCell r p x) rfl ready
        (dest_port may mapped (fun no => nomatch no)) (writeOpd_port_even (v := (c.d[r]).toNat) (coreOf_unwaited s n) even) rfl
      have port : BitVec.ofNat 16 ((coreOf s n).port p x) = c.p[p] + x := BitVec.ofNat_toNat _ _
      rw [coreOf_unwaited, port, BitVec.ofNat_toNat] at moved
      exact moved.of_updCore
    · exact (source_reg s n .cell r).gets_state (a := .outCell r p x) rfl ready
        (dest_port may mapped (fun no => nomatch no))
        (writeOpd_port_odd (coreOf_unwaited s n) (c.d[r]).isLt odd mapped write) rfl
    · exact (source_pair s n .pair k).gets_state (a := .outPair k p x) rfl ready
        (dest_port may mapped (fun _ => even))
        (writeOpd_port_pair (v := (c.pair k).toNat) (coreOf_unwaited s n) mapped (by rw [w32_toNat]; exact write)) rfl
  case portOdd =>
    intro odd
    have bad : ∀ write, checkOpd (unwaited s n) n .pair write (.port p x) =
        some { code := 5, ea := some (BitVec.ofNat 32 (q p x)) } :=
      fun write => (checkOpd_unwaited_port ..).trans (checkPort_of_odd odd)
    exact ⟨checked (acc := .inPair k p x) rfl ready rfl (congrArg (Option.or · none) (bad false)),
      checked (acc := .outPair k p x) rfl ready rfl (bad true)⟩
  case portUnmapped =>
    intro unmapped even kernel free
    obtain ⟨t, ran, t'⟩ := exec_of_checked (i := .inPair n k p x) (a := .inPair k p x) rfl ready kernel free
      (doMove_of_unmapped rfl kernel even unmapped)
    exact ⟨t, ran, t'.only, t'.pc, t'.epc, t'.ecode, t'.eaddr, t'.d, t'.b, t'.p⟩
  case mvm =>
    intro u l w source dest read write
    have len := length_readReq read
    have core := coreOf_of_readReq (n := n) read
    have dh := dh_writeReq u a (ea g y).toNat l
    rw [write] at dh
    refine (source_of_check source read).gets_state (a := .mvm z b g x y) rfl ready
      ((checkOpd_unwaited_mem ..).trans dest) (writeOpd_mem core ?_) ?_
    · show writeReq u (n + 3) (ea g y).toNat (leBytes (sizeBytes z) (leNat l)) = _
      rw [← len, leBytes_leNat]
      exact write
    · rw [coreOf_of_dh dh, core]
      rfl
  case inm =>
    intro u v f w open'' mapped may read core even
    have core : coreOf u n = { c with waiting := false } := core.trans (coreOf_unwaited s n)
    refine ⟨fun h write => ?_, fun h write => ?_⟩
    · have dh := dh_writeReq u a (ea b x).toNat (leBytes 4 v.toNat)
      rw [write] at dh
      exact (source_port_pair may mapped even read).gets_state (a := .inm true b p x y) rfl ready
        (dest_mem (fits' h) (opens open'')) (writeOpd_mem core write) (by rw [coreOf_of_dh dh, core]; rfl)
    · exact inm_cell rfl ready may mapped even read (fits' h) (opens open'') (congrArg Prod.fst
        ((congrArg (fun k => writeReq u a (ea b x).toNat (leBytes 2 k)) (fld_low v)).trans write))
  case outm =>
    intro u l f w mapped may even
    refine ⟨fun h read write => ?_, fun h read => ?_⟩
    · have core := coreOf_of_readReq (n := n) read
      exact (source_mem (fits' h) read (z := .pair)).gets_state (a := .outm true b p x y) rfl ready
        (dest_port may mapped (fun _ => even))
        (writeOpd_port_pair (v := leNat l) core mapped (by rw [← leWord_eq (length_readReq read)]; exact write)) rfl
    · have core := coreOf_of_readReq (n := n) read
      have moved := (source_mem (fits' h) read (z := .cell)).gets_core (i := .outm n false b p x y)
        (a := .outm false b p x y) rfl ready
        (dest_port may mapped (fun no => nomatch no)) (writeOpd_port_even (v := leNat l) core even) rfl
      have port : BitVec.ofNat 16 ((coreOf s n).port p y) = c.p[p] + y := BitVec.ofNat_toNat _ _
      rw [core, port] at moved
      exact moved
  case prefixes =>
    intro acc i stride mem len m ready
    obtain ⟨short, h⟩ := isPrefix_of_mem mem
    refine ⟨fun zero => h.of_zero ready zero, ?_⟩
    intro u some' few moved reg pairs w
    have apart : Apart (moveOf acc).dst dc := ⟨reg, pairs⟩
    have few' : short = true → ((coreOf s n).dr dc).toNat ≤ 32 := by
      intro is
      obtain ⟨notRep, notRepI⟩ := h.bound is
      obtain few | is | is := few
      · exact few
      · exact absurd is notRep
      · exact absurd is notRepI
    have core : coreOf w n = (coreOf u n).advance m dc stride := coreOf_updCore_self ..
    refine ⟨count_after apart moved stride, fun f => ?_, fun f => ?_, fun one => ?_, fun ready' awake => ?_,
      fun may many => ⟨?_, ?_⟩⟩
    · rw [core]
      exact base_advance ..
    · rw [core]
      exact port_advance ..
    · exact ⟨_, h.of_one apart moved ready one, (OnlyCore.refl w n).updCore _, coreOf_updCore_self ..⟩
    · rw [core] at awake
      exact h.of_more apart moved ready few' some' ready' awake
    · exact congrArg Host.Outcome.next
        (repeat_of_left apart moved ready many ((mayStop_advance ..).symm.trans may))
    · exact congrArg Host.Outcome.next
        (repeat_of_left apart moved ready many ((mayStop_advance ..).symm.trans may))
  case shorts =>
    intro acc ready many
    have trapped : ∀ (i : Instr) (stride : Bool), exec i s = .next (repeat_ s n dc acc stride true none) →
        trap i 10 c.eaddr := by
      intro i stride he kernel free
      have t' := trapped_raiseExc kernel free { code := 10 }
      exact ⟨_, he.trans (congrArg _ (repeat_of_many ready many none)), t'.only, t'.pc, t'.epc, t'.ecode, t'.eaddr,
        t'.d, t'.b, t'.p⟩
    exact ⟨trapped _ false rfl, trapped _ true rfl⟩

end Sys2Proof.Machine
end
